-- ==== Sys2Proof/Word.lean ====
section
/-! DEFINITION. The word types of the device and their plainest arithmetic: bit fields, widths and
byte order (R6: every multi-byte value is little-endian). -/

namespace Sys2Proof

abbrev Byte := BitVec 8
abbrev W16 := BitVec 16
abbrev W32 := BitVec 32
abbrev W64 := BitVec 64

/-- Bits `hi` to `lo` of the number `n`. -/
def bitsOf (n hi lo : Nat) : Nat := (n / 2 ^ lo) % 2 ^ (hi + 1 - lo)

/-- Bit `b` of the number `n`. -/
def bitOf (n b : Nat) : Bool := n / 2 ^ b % 2 == 1

/-- 1 for true and 0 for false. -/
def b2n (b : Bool) : Nat := if b then 1 else 0

/-- Rounding up division. -/
def cdiv (a b : Nat) : Nat := (a + (b - 1)) / b

/-- `n` as `k` bytes, the least significant first (R6). -/
def leBytes (k n : Nat) : List Byte :=
  match k with
  | 0 => []
  | k + 1 => BitVec.ofNat 8 n :: leBytes k (n / 256)

/-- The number that a list of bytes spells, the least significant byte first (R6). -/
def leNat : List Byte → Nat
  | [] => 0
  | b :: bs => b.toNat + 256 * leNat bs

/-- The two's complement reading of the low `w` bits of `n`. -/
def signed (w n : Nat) : Int :=
  let m := n % 2 ^ w
  if m < 2 ^ (w - 1) then (m : Int) else (m : Int) - (2 ^ w : Nat)

/-- The low `w` bits of the integer `z`, as a number. -/
def unsignedOf (w : Nat) (z : Int) : Nat := (z % ((2 ^ w : Nat) : Int)).toNat

/-- The least whole power of two exponent `e` with `n ≤ 2 ^ e`, looked for up to `fuel`. -/
def clog2From (n : Nat) : Nat → Nat → Nat
  | 0, e => e
  | fuel + 1, e => if n ≤ 2 ^ e then e else clog2From n fuel (e + 1)

end Sys2Proof
end

