-- ==== Sys2Proof/Machine/Catalogue.lean ====
section
/-! DEFINITION. The block pages of BAR0 (R32, R33, R35, R36, R37; Tables 2.2 and 2.3). -/

namespace Sys2Proof.Machine

/-- The kinds of block that Table 2.2 assigns pages to. -/
inductive BlockKind where
  | glb | clkrst | time | evtq | factor | power | admission | migr | pcie | d2d | eth | session | ctxt
  | ddr | cxl | reel | reelLink | caller | noc | merge | weaver | hbm | assayer | egp | winnower
  | fcore | carter
  deriving DecidableEq, Repr

/-- A block: its kind and its device-wide instance number (Table 2.3). -/
structure Block where
  kind : BlockKind
  inst : Nat
  deriving DecidableEq, Repr

/-- One row of Table 2.2: kind, type code, whether it lies in the C-die regions, instances (per die
there), first page offset, pages per instance and stride. -/
structure CatRow where
  kind : BlockKind
  code : Nat
  perDie : Bool
  count : Nat
  first : Nat
  pages : Nat
  stride : Nat
  deriving DecidableEq, Repr

/-- Table 2.2. -/
def catalogue : List CatRow := [
  ⟨.glb, 0x01, false, 1, 0x000000, 2, 0⟩,
  ⟨.clkrst, 0x18, false, 1, 0x002000, 1, 0⟩,
  ⟨.time, 0x19, false, 1, 0x003000, 1, 0⟩,
  ⟨.evtq, 0x1A, false, 1, 0x004000, 4, 0⟩,
  ⟨.factor, 0x16, false, 1, 0x008000, 4, 0⟩,
  ⟨.power, 0x17, false, 1, 0x00C000, 1, 0⟩,
  ⟨.admission, 0x13, false, 1, 0x00D000, 1, 0⟩,
  ⟨.migr, 0x1B, false, 1, 0x00E000, 1, 0⟩,
  ⟨.pcie, 0x0F, false, 1, 0x00F000, 1, 0⟩,
  ⟨.d2d, 0x0C, false, 3, 0x010000, 1, 0x1000⟩,
  ⟨.eth, 0x10, false, 2, 0x020000, 1, 0x1000⟩,
  ⟨.session, 0x11, false, 1, 0x024000, 4, 0⟩,
  ⟨.ctxt, 0x12, false, 1, 0x030000, 16, 0⟩,
  ⟨.ddr, 0x0D, false, 12, 0x040000, 1, 0x1000⟩,
  ⟨.cxl, 0x0E, false, 2, 0x050000, 1, 0x1000⟩,
  ⟨.reel, 0x14, false, 1, 0x060000, 2, 0⟩,
  ⟨.reelLink, 0x15, false, 12, 0x068000, 1, 0x1000⟩,
  ⟨.caller, 0x09, true, 1, 0x000000, 8, 0⟩,
  ⟨.noc, 0x0A, true, 1, 0x008000, 1, 0⟩,
  ⟨.merge, 0x07, true, 1, 0x009000, 1, 0⟩,
  ⟨.weaver, 0x08, true, 2, 0x00A000, 1, 0x1000⟩,
  ⟨.hbm, 0x0B, true, 4, 0x010000, 1, 0x1000⟩,
  ⟨.assayer, 0x04, true, 6, 0x020000, 1, 0x1000⟩,
  ⟨.egp, 0x05, true, 6, 0x030000, 1, 0x1000⟩,
  ⟨.winnower, 0x06, true, 6, 0x040000, 1, 0x1000⟩,
  ⟨.fcore, 0x02, true, 48, 0x100000, 1, 0x4000⟩,
  ⟨.carter, 0x03, true, 48, 0x101000, 1, 0x4000⟩]

/-- The base D of a C-die region (R32). -/
def dieBase (d : Nat) : Nat := 0x1000000 * (1 + d)

/-- The row of Table 2.2 for a kind of block. -/
def catRow (k : BlockKind) : CatRow :=
  ((catalogue.find? (fun r => decide (r.kind = k))).getD ⟨.glb, 0x01, false, 1, 0, 2, 0⟩)

/-- BAR0 offset of the first page of a block (R33, R35). -/
def Block.base (b : Block) : Nat :=
  let r := catRow b.kind
  if r.perDie then dieBase (b.inst / r.count) + r.first + r.stride * (b.inst % r.count)
  else r.first + r.stride * b.inst

/-- How many instances of a kind the device has. -/
def instances (k : BlockKind) : Nat :=
  let r := catRow k
  if r.perDie then 2 * r.count else r.count

/-- Every block of the device, in the order of Table 2.2. -/
def allBlocks : List Block :=
  catalogue.flatMap (fun r => (List.range (instances r.kind)).map (fun i => ⟨r.kind, i⟩))

/-- The block and page index that a row of Table 2.2 gives the region offset `o` of die `d`. -/
def CatRow.locate (r : CatRow) (d o : Nat) : Option (Block × Nat) :=
  if o < r.first then none
  else
    let x := o - r.first
    let pos := if r.stride = 0 then 0 else x / r.stride
    let rem := x - r.stride * pos
    if pos < r.count ∧ rem < 0x1000 * r.pages then
      some (⟨r.kind, (if r.perDie then d * r.count else 0) + pos⟩, rem / 0x1000)
    else none

/-- The block and page index at a BAR0 offset; `none` for an empty page (R33). -/
def pageAt (off : Nat) : Option (Block × Nat) :=
  let region := off / 0x1000000
  let o := off % 0x1000000
  if region = 0 then (catalogue.filter (fun r => !r.perDie)).findSome? (fun r => r.locate 0 o)
  else if region < 3 then
    (catalogue.filter (fun r => r.perDie)).findSome? (fun r => r.locate (region - 1) o)
  else none

/-- PAGE_INFO.DIE of a block: 0 and 1 the C-dies, 2 the X-die, 3 the P-die (Table 2.11, R544). -/
def Block.die (b : Block) : Nat :=
  match b.kind with
  | .power => 3
  | .d2d => if b.inst = 1 then 1 else 0
  | k =>
    let r := catRow k
    if r.perDie then b.inst / r.count else 2

/-- PAGE_INFO.HOST_WR of a block: false where its chapter says that only the Factor writes. -/
def Block.hostWr (b : Block) : Bool :=
  match b.kind with
  | .power | .noc | .d2d | .caller | .assayer | .egp | .winnower | .merge | .weaver | .session => false
  | _ => true

/-- Blocks whose BLK_CTRL.ENABLE resets to 1 and ignores writes of 0 (Table 2.6). -/
def BlockKind.alwaysOn : BlockKind → Bool
  | .glb | .clkrst | .time | .evtq | .factor | .power | .pcie => true
  | _ => false

end Sys2Proof.Machine
end

