-- ==== Sys2Proof/Machine/Codes.lean ====
section
/-! DEFINITION. The device's one 16-bit code space (R527, Tables 20.3 and 20.4) and the event classes
(R526, Table 20.2), as numbers. -/

namespace Sys2Proof.Code

abbrev OK : Nat := 0x0000
abbrev DONE : Nat := 0x0001
abbrev BAD_VERSION : Nat := 0x0002
abbrev RSV_NONZERO : Nat := 0x0003
abbrev FEATURE_OFF : Nat := 0x0004
abbrev BAD_ACCESS : Nat := 0x0005
abbrev HOST_WRITE_DENIED : Nat := 0x0006
abbrev WRITE_NOT_READY : Nat := 0x0007
abbrev DRV_VER_BUSY : Nat := 0x0008
abbrev BAD_ELEM_TYPE : Nat := 0x0009
abbrev MX_BLOCK_ALIGN : Nat := 0x000A
abbrev BAD_KEY_TYPE : Nat := 0x000B
abbrev BAD_HASH_PARAM : Nat := 0x000C
abbrev CANCELLED : Nat := 0x000D
abbrev POISONED : Nat := 0x000E
abbrev BAD_RESET : Nat := 0x000F
abbrev BAD_CEILING : Nat := 0x0010
abbrev BAD_TICK : Nat := 0x0011
abbrev BAD_RANK : Nat := 0x0100
abbrev BAD_TIER : Nat := 0x0101
abbrev BAD_FLAGS : Nat := 0x0102
abbrev ACCUM_TYPE : Nat := 0x0103
abbrev INNER_STRIDE : Nat := 0x0104
abbrev BAD_ALIGN : Nat := 0x0105
abbrev BAD_SCALE : Nat := 0x0106
abbrev BAD_BLOCK_SHAPE : Nat := 0x0107
abbrev BAD_REGION : Nat := 0x0108
abbrev TIER_MISMATCH : Nat := 0x0109
abbrev REGION_PERM : Nat := 0x010A
abbrev EXTENT_RANGE : Nat := 0x010B
abbrev ALIAS_WRITE : Nat := 0x010C
abbrev BAD_DESC_ID : Nat := 0x010D
abbrev DESC_FIXED : Nat := 0x010E
abbrev DESC_BUSY : Nat := 0x010F
abbrev DESC_DEAD : Nat := 0x0110
abbrev DESC_DIR : Nat := 0x0111
abbrev BAD_REGION_PARAM : Nat := 0x0112
abbrev REGION_FULL : Nat := 0x0113
abbrev REGION_BUSY : Nat := 0x0114
abbrev BAD_LIST_FMT : Nat := 0x0115
abbrev STREAM_BUSY : Nat := 0x0200
abbrev BAD_STREAM_KIND : Nat := 0x0201
abbrev BAD_WALK_ORDER : Nat := 0x0202
abbrev WALK_RANGE : Nat := 0x0203
abbrev BUF_RANGE : Nat := 0x0204
abbrev BUF_OVERLAP : Nat := 0x0205
abbrev BAD_ZONE_TERM : Nat := 0x0206
abbrev ZONE_MAP_SHORT : Nat := 0x0207
abbrev MCAST_MISMATCH : Nat := 0x0208
abbrev RESIDENT_SET : Nat := 0x0209
abbrev PEDLAR_DEST : Nat := 0x020A
abbrev PEDLAR_LEN : Nat := 0x020B
abbrev PEDLAR_FAULT : Nat := 0x020C
abbrev MIGRATING : Nat := 0x0280
abbrev HOST_NOT_PRESENT : Nat := 0x0281
abbrev HOST_DENIED : Nat := 0x0282
abbrev TIER_OFFLINE : Nat := 0x0283
abbrev BAD_PC : Nat := 0x0300
abbrev ILLEGAL_INSTR : Nat := 0x0301
abbrev TYPE_CLASS : Nat := 0x0302
abbrev BAD_REG : Nat := 0x0303
abbrev TASK_STATE : Nat := 0x0304
abbrev STREAM_STATE : Nat := 0x0305
abbrev BAD_PORT : Nat := 0x0306
abbrev TABLE_FORMAT : Nat := 0x0307
abbrev MATRIX_SHAPE : Nat := 0x0308
abbrev LOCAL_RANGE : Nat := 0x0309
abbrev MISALIGNED : Nat := 0x030A
abbrev RESIDENT_WRITE : Nat := 0x030B
abbrev TASK_OVERRUN : Nat := 0x030C
abbrev BAD_OP : Nat := 0x0400
abbrev BAD_POLICY : Nat := 0x0401
abbrev BAD_BOUND : Nat := 0x0402
abbrev BAD_COLUMN : Nat := 0x0403
abbrev COL_TYPE : Nat := 0x0404
abbrev ROWS_RANGE : Nat := 0x0405
abbrev OUTPUT_SHORT : Nat := 0x0406
abbrev PROGRAM_BAD : Nat := 0x0407
abbrev ZONE_SHAPE : Nat := 0x0408
abbrev BAD_JOIN : Nat := 0x0409
abbrev BAD_BOUNDARIES : Nat := 0x040A
abbrev BAD_NORM_PARAM : Nat := 0x040B
abbrev BAD_AGG : Nat := 0x040C
abbrev STATS_RECORD : Nat := 0x040D
abbrev STATS_PART : Nat := 0x040E
abbrev TABLE_SHORT : Nat := 0x040F
abbrev TABLE_BUSY : Nat := 0x0410
abbrev TABLE_NOT_READY : Nat := 0x0411
abbrev OUTPUT_FULL : Nat := 0x0412
abbrev INPUT_FAILED : Nat := 0x0413
abbrev BAD_RECORD : Nat := 0x0414
abbrev BAD_TABLE : Nat := 0x0500
abbrev ASSAY_RANGE : Nat := 0x0501
abbrev BAD_ASSAY_OP : Nat := 0x0502
abbrev ASSAY_BAD_ENTRY : Nat := 0x0503
abbrev BAD_EGP_OP : Nat := 0x0504
abbrev EGP_TYPE : Nat := 0x0505
abbrev COUNT_RANGE : Nat := 0x0506
abbrev UPD_MODE : Nat := 0x0507
abbrev STEP_CLOSED : Nat := 0x0508
abbrev STEP_AHEAD : Nat := 0x0509
abbrev UPD_LOG_FULL : Nat := 0x050A
abbrev FENCE_BUSY : Nat := 0x050B
abbrev APPLY_FAILED : Nat := 0x050C
abbrev BAD_WIN_OP : Nat := 0x050D
abbrev WIN_TYPE : Nat := 0x050E
abbrev K_RANGE : Nat := 0x050F
abbrev LEN_RANGE : Nat := 0x0510
abbrev IDX_RANGE : Nat := 0x0511
abbrev PATH_SOURCE : Nat := 0x0512
abbrev SCRATCH_SHORT : Nat := 0x0513
abbrev BAD_GROUP : Nat := 0x0514
abbrev MERGE_MISMATCH : Nat := 0x0515
abbrev MERGE_ABORTED : Nat := 0x0516
abbrev WEAVE_TIER : Nat := 0x0517
abbrev WEAVE_TYPE : Nat := 0x0518
abbrev BAD_PERM : Nat := 0x0519
abbrev WEAVE_SHAPE : Nat := 0x051A
abbrev OVERLAP : Nat := 0x051B
abbrev WEAVE_FAILED : Nat := 0x051C
abbrev BLOCK_RESET : Nat := 0x051D
abbrev BAD_TEMPLATE : Nat := 0x0600
abbrev BAD_CHAIN : Nat := 0x0601
abbrev BAD_OPCODE : Nat := 0x0602
abbrev BAD_CONTEXT : Nat := 0x0603
abbrev BAD_CANCEL : Nat := 0x0604
abbrev OPERAND_TIMEOUT : Nat := 0x0605
abbrev CORE_RESET : Nat := 0x0606
abbrev CORE_EXC : Nat := 0x0607
abbrev TASK_FAILED : Nat := 0x0608
abbrev STREAM_FAILED : Nat := 0x0609
abbrev STAGE_FAILED : Nat := 0x060A
abbrev NO_SERVICE : Nat := 0x0700
abbrev CTRL_ONLY : Nat := 0x0701
abbrev SVC_FULL : Nat := 0x0702
abbrev SVC_BUSY : Nat := 0x0703
abbrev CTX_FULL : Nat := 0x0704
abbrev BAD_IMAGE : Nat := 0x0705
abbrev DEADLINE_DECL : Nat := 0x0706
abbrev EXPERT_DECL : Nat := 0x0707
abbrev UNBOUNDED : Nat := 0x0708
abbrev CTX_SLOTS : Nat := 0x0709
abbrev CALLER_SLOTS : Nat := 0x070A
abbrev BUFFER : Nat := 0x070B
abbrev CORE_TIME : Nat := 0x070C
abbrev MEM_BW : Nat := 0x070D
abbrev LINK_BW : Nat := 0x070E
abbrev POWER : Nat := 0x070F
abbrev ADDR_UNMAPPED : Nat := 0x0800
abbrev MIGR_BUSY : Nat := 0x0801
abbrev BAD_POOL : Nat := 0x0802
abbrev MOVE_TIER : Nat := 0x0803
abbrev MOVE_STATE : Nat := 0x0804
abbrev POOL_FULL : Nat := 0x0805
abbrev MOVE_BUSY : Nat := 0x0806
abbrev RING_BUSY : Nat := 0x0900
abbrev RING_RANGE : Nat := 0x0901
abbrev NO_CONTEXT : Nat := 0x0902
abbrev DOORBELL_STALE : Nat := 0x0903
abbrev DOORBELL_RANGE : Nat := 0x0904
abbrev NO_INGRESS : Nat := 0x0905
abbrev SESS_RANGE : Nat := 0x0906
abbrev SESS_BUSY : Nat := 0x0907
abbrev SESS_DOWN : Nat := 0x0908
abbrev FLOW_FULL : Nat := 0x0909
abbrev MSG_SIZE : Nat := 0x090A
abbrev FAB_NOT_READY : Nat := 0x0A00
abbrev UNREACHABLE : Nat := 0x0A01
abbrev ROUTE_AUTO : Nat := 0x0A02
abbrev FAB_GROUP_BAD : Nat := 0x0A03
abbrev FAB_GROUP_BUSY : Nat := 0x0A04
abbrev COLL_KIND : Nat := 0x0A05
abbrev COLL_SHAPE : Nat := 0x0A06
abbrev COLL_TYPE : Nat := 0x0A07
abbrev COLL_MISMATCH : Nat := 0x0A08
abbrev COLL_TIMEOUT : Nat := 0x0A09
abbrev COLL_ABORTED : Nat := 0x0A0A
abbrev INBOX_RANGE : Nat := 0x0A0B
abbrev INBOX_BUSY : Nat := 0x0A0C
abbrev REMOTE_DENIED : Nat := 0x0A0D
abbrev PEER_MISSING : Nat := 0x0A0E
abbrev MBX_BAD_OP : Nat := 0x0B00
abbrev MBX_LEN : Nat := 0x0B01
abbrev MBX_BUSY : Nat := 0x0B02
abbrev LC_STATE_BAD : Nat := 0x0B03
abbrev THRESH_RANGE : Nat := 0x0B04
abbrev CAL_FIELD : Nat := 0x0B05
abbrev CAL_FLASH : Nat := 0x0B06
abbrev FW_SLOT : Nat := 0x0B07
abbrev FW_ROLLBACK : Nat := 0x0B08
abbrev FW_FUSE : Nat := 0x0B09
abbrev LC_ARC : Nat := 0x0B0A
abbrev LC_BUSY : Nat := 0x0B0B
abbrev LC_AUTH : Nat := 0x0B0C
abbrev LC_EXHAUSTED : Nat := 0x0B0D
abbrev LC_FUSE : Nat := 0x0B0E
abbrev POWER_RANGE : Nat := 0x0B0F
abbrev CONTEXT_CONTAINED : Nat := 0x0C00
abbrev UNIT_CONTAINED : Nat := 0x0C01
abbrev OFFLINED : Nat := 0x0C02
abbrev ONLINED : Nat := 0x0C03
abbrev HW_ERROR : Nat := 0x0C04
abbrev SELFTEST_FAIL : Nat := 0x0C05
abbrev TABLE_LOST : Nat := 0x0C06
abbrev SET_PROXY : Nat := 0x0C07
abbrev DEVICE_FATAL : Nat := 0x0C08
abbrev POISON_CONSUMED : Nat := 0x0C10
abbrev MEM_UE : Nat := 0x0C11
abbrev CTX_PARKED : Nat := 0x0C18
abbrev CTX_LIVE : Nat := 0x0C19
abbrev DEADLINE_MISS : Nat := 0x0C1A
abbrev RESERVATION_SHORT : Nat := 0x0C1B
abbrev RING_FAULT : Nat := 0x0C20
abbrev SESSION_ERROR : Nat := 0x0C21
abbrev ADDR_CHANGED : Nat := 0x0C22
abbrev THERMAL_WARN : Nat := 0x0C28
abbrev SENSOR_FAIL : Nat := 0x0C29
abbrev THERMAL_SHUTDOWN : Nat := 0x0C2A
abbrev LOG_LOST : Nat := 0x0C38
abbrev REFCLK_LOSS : Nat := 0x0C2B
abbrev VIN_LOSS : Nat := 0x0C2C
abbrev VIN_OV : Nat := 0x0C2D
abbrev LC_CHANGE : Nat := 0x0C30
abbrev FW_FALLBACK : Nat := 0x0C31
abbrev CAL_BAD : Nat := 0x0C32
abbrev DEBUG_ACCESS : Nat := 0x0C33

end Sys2Proof.Code

namespace Sys2Proof.Cls

abbrev BLOCK_EVENT : Nat := 0x01
abbrev ERROR : Nat := 0x02
abbrev CORRECTED : Nat := 0x03
abbrev POISON : Nat := 0x04
abbrev FAULT : Nat := 0x05
abbrev TASK : Nat := 0x06
abbrev SERVICE : Nat := 0x07
abbrev LINK : Nat := 0x08
abbrev ENVIRONMENT : Nat := 0x09
abbrev SECURITY : Nat := 0x0A
abbrev CONTAINMENT : Nat := 0x0B
abbrev FATAL : Nat := 0x0C
abbrev LOG : Nat := 0x0D
abbrev USER : Nat := 0x10

end Sys2Proof.Cls
end

