-- ==== Sys2Proof/Machine/RegNames.lean ====
section
/-! DEFINITION. Named offsets of the block-specific registers, from the start of their block, as the
register tables of the spec give them (one name per row; the first copy where a row is repeated). -/

namespace Sys2Proof.Off

abbrev glb_ARCH : Nat := 0x40
abbrev glb_DESC_CAP : Nat := 0x44
abbrev glb_DEV_UID_LO : Nat := 0x48
abbrev glb_DEV_UID_HI : Nat := 0x4c
abbrev glb_CTX_CAP : Nat := 0x50
abbrev glb_DRV_VER : Nat := 0x54
abbrev glb_FEAT_LO : Nat := 0x58
abbrev glb_FEAT_HI : Nat := 0x5c
abbrev glb_NEG_STAT : Nat := 0x60
abbrev glb_DEV_STAT : Nat := 0x64
abbrev glb_SCRATCH : Nat := 0x68
abbrev glb_APT_SIZE : Nat := 0x1040
abbrev glb_APT_BASE_LO : Nat := 0x1048
abbrev glb_APT_BASE_HI : Nat := 0x104c
abbrev clkrst_RST_CMD : Nat := 0x40
abbrev clkrst_RST_STAT : Nat := 0x44
abbrev clkrst_CLK_STAT : Nat := 0x48
abbrev clkrst_PH_TIME : Nat := 0x60
abbrev clkrst_CDC_RESYNC : Nat := 0x80
abbrev clkrst_CDC_DISCARD : Nat := 0x84
abbrev clkrst_WARM_RESETS_LO : Nat := 0x88
abbrev clkrst_WARM_RESETS_HI : Nat := 0x8c
abbrev clkrst_UNIT_RESETS_LO : Nat := 0x90
abbrev clkrst_UNIT_RESETS_HI : Nat := 0x94
abbrev time_TB_LO : Nat := 0x40
abbrev time_TB_HI : Nat := 0x44
abbrev time_PTP_SEC_LO : Nat := 0x48
abbrev time_PTP_SEC_HI : Nat := 0x4c
abbrev time_PTP_NS : Nat := 0x50
abbrev time_TB_SNAP_LO : Nat := 0x58
abbrev time_TB_SNAP_HI : Nat := 0x5c
abbrev time_SNAP : Nat := 0x60
abbrev time_PTP_CTRL : Nat := 0x64
abbrev time_PTP_ADJ : Nat := 0x68
abbrev evtq_LOG_MASK : Nat := 0x40
abbrev evtq_CONTAIN_CFG : Nat := 0x44
abbrev evtq_ONLINE : Nat := 0x48
abbrev evtq_OFF_CORE_LO_LO : Nat := 0x50
abbrev evtq_OFF_CORE_LO_HI : Nat := 0x54
abbrev evtq_OFF_CORE_HI : Nat := 0x58
abbrev evtq_OFF_DIE : Nat := 0x5c
abbrev evtq_SRC_LOST : Nat := 0x60
abbrev evtq_CONTAINED : Nat := 0x64
abbrev evtq_RECORDS_LO : Nat := 0x68
abbrev evtq_RECORDS_HI : Nat := 0x6c
abbrev evtq_BASE_LO : Nat := 0x1040
abbrev evtq_BASE_HI : Nat := 0x1044
abbrev evtq_CFG : Nat := 0x1048
abbrev evtq_CLASS_MASK : Nat := 0x104c
abbrev evtq_CTX_EN : Nat := 0x1050
abbrev evtq_TAIL : Nat := 0x1054
abbrev evtq_ARM : Nat := 0x1058
abbrev evtq_LOST : Nat := 0x105c
abbrev factor_FW_INFO : Nat := 0x40
abbrev factor_FW_VER : Nat := 0x44
abbrev factor_MBX_DOORBELL : Nat := 0x48
abbrev factor_MBX_STAT : Nat := 0x4c
abbrev factor_LC_INFO : Nat := 0x50
abbrev factor_WIPE_STAT : Nat := 0x54
abbrev factor_CAL_STAT : Nat := 0x58
abbrev factor_THERM_WARN : Nat := 0x5c
abbrev factor_THERM_MAX : Nat := 0x60
abbrev factor_DUTY : Nat := 0x64
abbrev factor_LOG_NEXT_LO : Nat := 0x68
abbrev factor_LOG_NEXT_HI : Nat := 0x6c
abbrev factor_LOG_LOST_CT : Nat := 0x70
abbrev factor_BOOT_COUNT : Nat := 0x74
abbrev power_P_MW : Nat := 0x40
abbrev power_M_MW : Nat := 0x44
abbrev power_VIN_MV : Nat := 0x48
abbrev power_IIN_MA : Nat := 0x4c
abbrev power_P_MAX_MW : Nat := 0x50
abbrev power_LIMIT_W : Nat := 0x54
abbrev power_THROTTLE_MS_LO : Nat := 0x58
abbrev power_THROTTLE_MS_HI : Nat := 0x5c
abbrev power_OVERCURRENT_CT : Nat := 0x60
abbrev admit_ADM_CEIL : Nat := 0x40
abbrev admit_POWER_LIMIT : Nat := 0x44
abbrev admit_SLOTS_PINNED : Nat := 0x48
abbrev admit_CTX_LIVE : Nat := 0x4c
abbrev admit_CTX_PARKED : Nat := 0x50
abbrev admit_SERVICES : Nat := 0x54
abbrev admit_GUARD_LO : Nat := 0x58
abbrev admit_GUARD_HI : Nat := 0x5c
abbrev admit_LAST_TICKS : Nat := 0x60
abbrev admit_DL_MISS_LO : Nat := 0x68
abbrev admit_DL_MISS_HI : Nat := 0x6c
abbrev admit_OVER_ENVELOPE_LO : Nat := 0x70
abbrev admit_OVER_ENVELOPE_HI : Nat := 0x74
abbrev admit_ADMITTED : Nat := 0x78
abbrev admit_REFUSED_CT : Nat := 0x7c
abbrev admit_QUERIES : Nat := 0x80
abbrev admit_PARKS : Nat := 0x84
abbrev admit_WAKES : Nat := 0x88
abbrev migr_MIGR_CFG : Nat := 0x40
abbrev migr_SAMPLE : Nat := 0x44
abbrev migr_POOL : Nat := 0x48
abbrev migr_POOL_USED : Nat := 0x4c
abbrev migr_MOVE_ADDR_LO : Nat := 0x50
abbrev migr_MOVE_ADDR_HI : Nat := 0x54
abbrev migr_MOVE_CMD : Nat := 0x58
abbrev migr_MOVE_STAT : Nat := 0x5c
abbrev migr_T1_LEN_LO : Nat := 0x60
abbrev migr_T1_LEN_HI : Nat := 0x64
abbrev migr_T2_LEN_LO : Nat := 0xa0
abbrev migr_T2_LEN_HI : Nat := 0xa4
abbrev migr_T3_LEN_LO : Nat := 0xa8
abbrev migr_T3_LEN_HI : Nat := 0xac
abbrev migr_PROMOTIONS_LO : Nat := 0xc0
abbrev migr_PROMOTIONS_HI : Nat := 0xc4
abbrev migr_DEMOTIONS_LO : Nat := 0xc8
abbrev migr_DEMOTIONS_HI : Nat := 0xcc
abbrev migr_MIGR_FAULTS : Nat := 0xd0
abbrev migr_PIN_WAITS : Nat := 0xd4
abbrev migr_MOVE_FAILS : Nat := 0xd8
abbrev pcie_LINK : Nat := 0x40
abbrev pcie_PRI_STAT : Nat := 0x44
abbrev pcie_CPL_TO : Nat := 0x48
abbrev pcie_EP_RX : Nat := 0x4c
abbrev eth_MODE : Nat := 0x40
abbrev eth_NH_MAC_LO : Nat := 0x48
abbrev eth_NH_MAC_HI : Nat := 0x4c
abbrev eth_VLAN : Nat := 0x50
abbrev eth_GID_SEL : Nat := 0x54
abbrev eth_GID_WORD : Nat := 0x60
abbrev eth_FEC_CORR_LO : Nat := 0x70
abbrev eth_FEC_CORR_HI : Nat := 0x74
abbrev eth_FEC_UNCORR : Nat := 0x78
abbrev eth_DROPPED : Nat := 0x7c
abbrev session_CREDIT_MAX : Nat := 0x40
abbrev session_SESS_SEL : Nat := 0x44
abbrev session_SESS_STAT : Nat := 0x48
abbrev session_MESSAGES_LO : Nat := 0x50
abbrev session_MESSAGES_HI : Nat := 0x54
abbrev session_RNR_SENT : Nat := 0x58
abbrev ctxt_CTRL_SQ_BASE_LO : Nat := 0x40
abbrev ctxt_CTRL_SQ_BASE_HI : Nat := 0x44
abbrev ctxt_CTRL_CQ_BASE_LO : Nat := 0x48
abbrev ctxt_CTRL_CQ_BASE_HI : Nat := 0x4c
abbrev ctxt_CTRL_RING : Nat := 0x50
abbrev ctxt_DB_STALE : Nat := 0x54
abbrev ddr_SCRUB_CFG : Nat := 0x40
abbrev ddr_MARK_CFG : Nat := 0x44
abbrev ddr_MARKS : Nat := 0x48
abbrev ddr_MEM_INFO : Nat := 0x4c
abbrev ddr_CORRECTED_LO : Nat := 0x50
abbrev ddr_CORRECTED_HI : Nat := 0x54
abbrev ddr_SCRUBBED_LO : Nat := 0x58
abbrev ddr_SCRUBBED_HI : Nat := 0x5c
abbrev ddr_UNCORR : Nat := 0x60
abbrev ddr_POISON_WR : Nat := 0x64
abbrev ddr_POISON_RD : Nat := 0x68
abbrev ddr_WB_DROPPED : Nat := 0x6c
abbrev ddr_LAST_UE_LO : Nat := 0x70
abbrev ddr_LAST_UE_HI : Nat := 0x74
abbrev ddr_KEY_GEN : Nat := 0x78
abbrev ddr_CHECK_LOST : Nat := 0x7c
abbrev cxl_SCRUB_CFG : Nat := 0x40
abbrev cxl_MARK_CFG : Nat := 0x44
abbrev cxl_MARKS : Nat := 0x48
abbrev cxl_MEM_INFO : Nat := 0x4c
abbrev cxl_CORRECTED_LO : Nat := 0x50
abbrev cxl_CORRECTED_HI : Nat := 0x54
abbrev cxl_SCRUBBED_LO : Nat := 0x58
abbrev cxl_SCRUBBED_HI : Nat := 0x5c
abbrev cxl_UNCORR : Nat := 0x60
abbrev cxl_POISON_WR : Nat := 0x64
abbrev cxl_POISON_RD : Nat := 0x68
abbrev cxl_WB_DROPPED : Nat := 0x6c
abbrev cxl_LAST_UE_LO : Nat := 0x70
abbrev cxl_LAST_UE_HI : Nat := 0x74
abbrev cxl_KEY_GEN : Nat := 0x78
abbrev cxl_CHECK_LOST : Nat := 0x7c
abbrev cxl_LINK : Nat := 0x100
abbrev cxl_DOWN_EVENTS : Nat := 0x104
abbrev cxl_FLIT_RETRIES_LO : Nat := 0x108
abbrev cxl_FLIT_RETRIES_HI : Nat := 0x10c
abbrev reel_FAB_STAT : Nat := 0x40
abbrev reel_ROOT_CFG : Nat := 0x44
abbrev reel_ADDR_REQ : Nat := 0x48
abbrev reel_ROOT_ADDR : Nat := 0x4c
abbrev reel_ROOT_UID_LO : Nat := 0x50
abbrev reel_ROOT_UID_HI : Nat := 0x54
abbrev reel_DEVICES : Nat := 0x58
abbrev reel_HOLD : Nat := 0x5c
abbrev reel_ROUTE_CTRL : Nat := 0x60
abbrev reel_E2E_CFG : Nat := 0x64
abbrev reel_FT_LO : Nat := 0x68
abbrev reel_FT_HI : Nat := 0x6c
abbrev reel_FT_SNAP : Nat := 0x70
abbrev reel_SNAP_FT_LO : Nat := 0x78
abbrev reel_SNAP_FT_HI : Nat := 0x7c
abbrev reel_SNAP_TB_LO : Nat := 0x80
abbrev reel_SNAP_TB_HI : Nat := 0x84
abbrev reel_FT_OFFSET : Nat := 0x88
abbrev reel_PKTS_TX_LO : Nat := 0x90
abbrev reel_PKTS_TX_HI : Nat := 0x94
abbrev reel_PKTS_RX_LO : Nat := 0x98
abbrev reel_PKTS_RX_HI : Nat := 0x9c
abbrev reel_RESENT : Nat := 0xa0
abbrev reel_DUP_RX : Nat := 0xa4
abbrev reel_UNREACH : Nat := 0xa8
abbrev reel_BAD_PKT : Nat := 0xac
abbrev reel_REROUTES : Nat := 0xb0
abbrev reel_DENIED : Nat := 0xb4
abbrev reel_ROUTE_SEL : Nat := 0x1040
abbrev reel_ROUTE_ENT : Nat := 0x1044
abbrev reel_UID_OF_LO : Nat := 0x1048
abbrev reel_UID_OF_HI : Nat := 0x104c
abbrev reelLink_PEER : Nat := 0x40
abbrev reelLink_PEER_UID_LO : Nat := 0x48
abbrev reelLink_PEER_UID_HI : Nat := 0x4c
abbrev reelLink_VERSION : Nat := 0x50
abbrev reelLink_FAIL : Nat := 0x54
abbrev reelLink_FEC_CORR_LO : Nat := 0x58
abbrev reelLink_FEC_CORR_HI : Nat := 0x5c
abbrev reelLink_FEC_UNCORR : Nat := 0x60
abbrev reelLink_CRC_ERR : Nat := 0x64
abbrev reelLink_REPLAYS : Nat := 0x68
abbrev reelLink_FLITS_TX_LO : Nat := 0x70
abbrev reelLink_FLITS_TX_HI : Nat := 0x74
abbrev reelLink_FLITS_RX_LO : Nat := 0x78
abbrev reelLink_FLITS_RX_HI : Nat := 0x7c
abbrev reelLink_DELAY : Nat := 0x80
abbrev caller_TICK_CFG : Nat := 0x40
abbrev caller_SLOTS_USED : Nat := 0x44
abbrev caller_TIMERS_USED : Nat := 0x48
abbrev caller_TMPL_VALID : Nat := 0x4c
abbrev caller_TOKENS_LO : Nat := 0x50
abbrev caller_TOKENS_HI : Nat := 0x54
abbrev caller_DISPATCHED_LO : Nat := 0x58
abbrev caller_DISPATCHED_HI : Nat := 0x5c
abbrev caller_RELEASED_LO : Nat := 0x60
abbrev caller_RELEASED_HI : Nat := 0x64
abbrev caller_BAD_TOKENS : Nat := 0x68
abbrev caller_STALE_SEQ : Nat := 0x6c
abbrev caller_NEAR_MISS : Nat := 0x70
abbrev caller_TIMEOUTS : Nat := 0x74
abbrev caller_NOT_OK : Nat := 0x78
abbrev caller_CANCELLED : Nat := 0x7c
abbrev caller_DEPTH : Nat := 0x1040
abbrev caller_MAX_DEPTH : Nat := 0x1044
abbrev caller_Q_DISPATCHED : Nat := 0x1048
abbrev caller_OLDEST : Nat := 0x104c
abbrev caller_HIST0 : Nat := 0x1080
abbrev caller_HIST1 : Nat := 0x1084
abbrev caller_HIST2 : Nat := 0x1088
abbrev caller_HIST3 : Nat := 0x108c
abbrev caller_HIST4 : Nat := 0x1090
abbrev caller_HIST5 : Nat := 0x1094
abbrev caller_HIST6 : Nat := 0x1098
abbrev caller_HIST7 : Nat := 0x109c
abbrev caller_HIST8 : Nat := 0x10a0
abbrev caller_HIST9 : Nat := 0x10a4
abbrev caller_HIST10 : Nat := 0x10a8
abbrev caller_HIST11 : Nat := 0x10ac
abbrev caller_HIST12 : Nat := 0x10b0
abbrev caller_HIST13 : Nat := 0x10b4
abbrev caller_HIST14 : Nat := 0x10b8
abbrev caller_HIST15 : Nat := 0x10bc
abbrev caller_NEXT_FULL : Nat := 0x2040
abbrev caller_TASKS : Nat := 0x2044
abbrev caller_BUSY_TICKS : Nat := 0x2048
abbrev caller_RUN_TASK : Nat := 0x204c
abbrev caller_NEXT_TASK : Nat := 0x2050
abbrev caller_TMPL_SEL : Nat := 0x3040
abbrev caller_TMPL_WORD : Nat := 0x3080
abbrev caller_FLOW_SEL : Nat := 0x4040
abbrev caller_FLOW_STAT : Nat := 0x4044
abbrev caller_NEXT_POS : Nat := 0x4048
abbrev caller_REL_POS : Nat := 0x404c
abbrev caller_HEAD_AGE : Nat := 0x4050
abbrev merge_GRP_SEL : Nat := 0x40
abbrev merge_GRP_STAT : Nat := 0x44
abbrev merge_GRP_INST : Nat := 0x48
abbrev merge_INSTANCES_LO : Nat := 0x50
abbrev merge_INSTANCES_HI : Nat := 0x54
abbrev merge_ENTRIES_LO : Nat := 0x58
abbrev merge_ENTRIES_HI : Nat := 0x5c
abbrev merge_DUPLICATES : Nat := 0x60
abbrev merge_DUP_MISMATCHES : Nat := 0x64
abbrev merge_ABORTED_CT : Nat := 0x68
abbrev merge_REFUSED : Nat := 0x6c
abbrev weaver_COPIES_LO : Nat := 0x40
abbrev weaver_COPIES_HI : Nat := 0x44
abbrev weaver_LINES_READ_LO : Nat := 0x48
abbrev weaver_LINES_READ_HI : Nat := 0x4c
abbrev weaver_LINES_WRITTEN_LO : Nat := 0x50
abbrev weaver_LINES_WRITTEN_HI : Nat := 0x54
abbrev weaver_TILES_LO : Nat := 0x58
abbrev weaver_TILES_HI : Nat := 0x5c
abbrev weaver_DISCARD_BYTES_LO : Nat := 0x60
abbrev weaver_DISCARD_BYTES_HI : Nat := 0x64
abbrev weaver_NOOPS : Nat := 0x68
abbrev weaver_REFUSED : Nat := 0x6c
abbrev weaver_FAILED : Nat := 0x70
abbrev weaver_CTX_VALID : Nat := 0x74
abbrev hbm_SCRUB_CFG : Nat := 0x40
abbrev hbm_MARK_CFG : Nat := 0x44
abbrev hbm_MARKS : Nat := 0x48
abbrev hbm_MEM_INFO : Nat := 0x4c
abbrev hbm_CORRECTED_LO : Nat := 0x50
abbrev hbm_CORRECTED_HI : Nat := 0x54
abbrev hbm_SCRUBBED_LO : Nat := 0x58
abbrev hbm_SCRUBBED_HI : Nat := 0x5c
abbrev hbm_UNCORR : Nat := 0x60
abbrev hbm_POISON_WR : Nat := 0x64
abbrev hbm_POISON_RD : Nat := 0x68
abbrev hbm_WB_DROPPED : Nat := 0x6c
abbrev hbm_LAST_UE_LO : Nat := 0x70
abbrev hbm_LAST_UE_HI : Nat := 0x74
abbrev hbm_KEY_GEN : Nat := 0x78
abbrev hbm_CHECK_LOST : Nat := 0x7c
abbrev assayer_SCRUB_CFG : Nat := 0x40
abbrev assayer_ENTRIES_VALID : Nat := 0x44
abbrev assayer_SCRUB_POS : Nat := 0x48
abbrev assayer_LOST_ROW : Nat := 0x4c
abbrev assayer_LOOKUPS_LO : Nat := 0x50
abbrev assayer_LOOKUPS_HI : Nat := 0x54
abbrev assayer_HITS_LO : Nat := 0x58
abbrev assayer_HITS_HI : Nat := 0x5c
abbrev assayer_MISSES_LO : Nat := 0x60
abbrev assayer_MISSES_HI : Nat := 0x64
abbrev assayer_FALSE_HITS_LO : Nat := 0x68
abbrev assayer_FALSE_HITS_HI : Nat := 0x6c
abbrev assayer_MULTI_LO : Nat := 0x70
abbrev assayer_MULTI_HI : Nat := 0x74
abbrev assayer_KEY_LINES_LO : Nat := 0x78
abbrev assayer_KEY_LINES_HI : Nat := 0x7c
abbrev assayer_LOADS_LO : Nat := 0x80
abbrev assayer_LOADS_HI : Nat := 0x84
abbrev assayer_SCRUB_ROWS_LO : Nat := 0x88
abbrev assayer_SCRUB_ROWS_HI : Nat := 0x8c
abbrev assayer_SCRUB_FIX : Nat := 0x90
abbrev assayer_SCRUB_LOST : Nat := 0x94
abbrev assayer_TBL_CTRL : Nat := 0x100
abbrev assayer_TBL_RANGE : Nat := 0x104
abbrev assayer_FP_SEED_LO : Nat := 0x108
abbrev assayer_FP_SEED_HI : Nat := 0x10c
abbrev assayer_KEY_BASE_LO : Nat := 0x110
abbrev assayer_KEY_BASE_HI : Nat := 0x114
abbrev assayer_ENTRIES : Nat := 0x118
abbrev egp_HEAT_CFG : Nat := 0x40
abbrev egp_HOT_THRESH : Nat := 0x44
abbrev egp_WARM_THRESH : Nat := 0x48
abbrev egp_HRC_USED : Nat := 0x4c
abbrev egp_DIR_SEL : Nat := 0x50
abbrev egp_DIR_WORD : Nat := 0x80
abbrev egp_REQUESTS_LO : Nat := 0x100
abbrev egp_REQUESTS_HI : Nat := 0x104
abbrev egp_POSITIONS_LO : Nat := 0x108
abbrev egp_POSITIONS_HI : Nat := 0x10c
abbrev egp_GROUPS_LO : Nat := 0x110
abbrev egp_GROUPS_HI : Nat := 0x114
abbrev egp_HRC_READS_LO : Nat := 0x118
abbrev egp_HRC_READS_HI : Nat := 0x11c
abbrev egp_REPL_READS_LO : Nat := 0x120
abbrev egp_REPL_READS_HI : Nat := 0x124
abbrev egp_HOME_READS_LO : Nat := 0x128
abbrev egp_HOME_READS_HI : Nat := 0x12c
abbrev egp_ZERO_SKIP_LO : Nat := 0x130
abbrev egp_ZERO_SKIP_HI : Nat := 0x134
abbrev egp_UPD_ENTRIES_LO : Nat := 0x138
abbrev egp_UPD_ENTRIES_HI : Nat := 0x13c
abbrev egp_NULL_IDX : Nat := 0x140
abbrev egp_OOB_IDX : Nat := 0x144
abbrev egp_UPD_REFUSED_CT : Nat := 0x148
abbrev egp_PROMOTIONS : Nat := 0x14c
abbrev egp_DEMOTIONS : Nat := 0x150
abbrev egp_FENCES : Nat := 0x154
abbrev winnower_REQUESTS_LO : Nat := 0x40
abbrev winnower_REQUESTS_HI : Nat := 0x44
abbrev winnower_ROWS_LO : Nat := 0x48
abbrev winnower_ROWS_HI : Nat := 0x4c
abbrev winnower_ELEMENTS_LO : Nat := 0x50
abbrev winnower_ELEMENTS_HI : Nat := 0x54
abbrev winnower_SELECTED_LO : Nat := 0x58
abbrev winnower_SELECTED_HI : Nat := 0x5c
abbrev winnower_TOKENS_LO : Nat := 0x60
abbrev winnower_TOKENS_HI : Nat := 0x64
abbrev winnower_PASSES_LO : Nat := 0x68
abbrev winnower_PASSES_HI : Nat := 0x6c
abbrev winnower_ROWS_SP : Nat := 0x70
abbrev winnower_ROWS_MP : Nat := 0x74
abbrev winnower_ROWS_TH : Nat := 0x78
abbrev winnower_NAN_ELEMS : Nat := 0x7c
abbrev winnower_REFUSED : Nat := 0x80
abbrev winnower_FAILED : Nat := 0x84
abbrev fcore_PC : Nat := 0x40
abbrev fcore_TASK_ID : Nat := 0x44
abbrev fcore_CTX_VALID : Nat := 0x48
abbrev fcore_EXC_PC_LO : Nat := 0x50
abbrev fcore_EXC_PC_HI : Nat := 0x54
abbrev fcore_EXC_VALID : Nat := 0x58
abbrev fcore_INSTR_SCALAR_LO : Nat := 0x60
abbrev fcore_INSTR_SCALAR_HI : Nat := 0x64
abbrev fcore_INSTR_VECTOR_LO : Nat := 0x68
abbrev fcore_INSTR_VECTOR_HI : Nat := 0x6c
abbrev fcore_INSTR_TABLE_LO : Nat := 0x70
abbrev fcore_INSTR_TABLE_HI : Nat := 0x74
abbrev fcore_INSTR_SELECT_LO : Nat := 0x78
abbrev fcore_INSTR_SELECT_HI : Nat := 0x7c
abbrev fcore_INSTR_MATRIX_LO : Nat := 0x80
abbrev fcore_INSTR_MATRIX_HI : Nat := 0x84
abbrev fcore_MAC_CYCLES_LO : Nat := 0x88
abbrev fcore_MAC_CYCLES_HI : Nat := 0x8c
abbrev fcore_TASKS_DONE_LO : Nat := 0x90
abbrev fcore_TASKS_DONE_HI : Nat := 0x94
abbrev fcore_TASKS_ABORTED : Nat := 0x98
abbrev fcore_EXC_COUNT : Nat := 0x9c
abbrev fcore_USER_CTR_LO : Nat := 0xa0
abbrev fcore_USER_CTR_HI : Nat := 0xa4
abbrev fcore_USER_EVT_LOST : Nat := 0xe0
abbrev fcore_SQ_STATE : Nat := 0x200
abbrev fcore_SQ_CARRY : Nat := 0x204
abbrev carter_CYC_TOTAL_LO : Nat := 0x40
abbrev carter_CYC_TOTAL_HI : Nat := 0x44
abbrev carter_CYC_ISSUE_LO : Nat := 0x48
abbrev carter_CYC_ISSUE_HI : Nat := 0x4c
abbrev carter_FETCH_LATE_LO : Nat := 0x50
abbrev carter_FETCH_LATE_HI : Nat := 0x54
abbrev carter_BANK_CONFLICT_LO : Nat := 0x58
abbrev carter_BANK_CONFLICT_HI : Nat := 0x5c
abbrev carter_TASK_WAIT_LO : Nat := 0x60
abbrev carter_TASK_WAIT_HI : Nat := 0x64
abbrev carter_WRITE_BACKPRESSURE_LO : Nat := 0x68
abbrev carter_WRITE_BACKPRESSURE_HI : Nat := 0x6c
abbrev carter_FAULT_LO : Nat := 0x70
abbrev carter_FAULT_HI : Nat := 0x74
abbrev carter_DEADLINE_YIELD_LO : Nat := 0x78
abbrev carter_DEADLINE_YIELD_HI : Nat := 0x7c
abbrev carter_PEER_WAIT_LO : Nat := 0x80
abbrev carter_PEER_WAIT_HI : Nat := 0x84
abbrev carter_THROTTLE_LO : Nat := 0x88
abbrev carter_THROTTLE_HI : Nat := 0x8c
abbrev carter_PED_SENT : Nat := 0x90
abbrev carter_PED_REFUSED : Nat := 0x94
abbrev carter_PED_OUT : Nat := 0x98
abbrev carter_DISCARD_BYTES_LO : Nat := 0xa0
abbrev carter_DISCARD_BYTES_HI : Nat := 0xa4
abbrev carter_SS_STATE : Nat := 0x400
abbrev carter_SS_CODE : Nat := 0x404
abbrev carter_SS_TILES_LO : Nat := 0x408
abbrev carter_SS_TILES_HI : Nat := 0x40c
abbrev carter_SS_FADDR_LO : Nat := 0x410
abbrev carter_SS_FADDR_HI : Nat := 0x414
abbrev carter_SS_POSd0 : Nat := 0x418
abbrev carter_SS_POSd1 : Nat := 0x41c
abbrev carter_SS_POSd2 : Nat := 0x420
abbrev carter_SS_POSd3 : Nat := 0x424
abbrev carter_SS_POSd4 : Nat := 0x428
abbrev carter_SS_POSd5 : Nat := 0x42c
abbrev carter_SS_LATE : Nat := 0x430
abbrev carter_SS_SKIP : Nat := 0x434
abbrev carter_SS_OOB : Nat := 0x438
abbrev carter_SS_LIST_POS : Nat := 0x43c

end Sys2Proof.Off
end

