-- ==== Sys2Proof/Machine/SMap.lean ====
section
/-! DEFINITION. Sparse tables: a list of keys and values in one canonical form, keys strictly
rising, with no entry equal to what an absent key reads as.  The register file, the memories and
every large table of the device are held this way, so that equal contents are equal data. -/

namespace Sys2Proof.Machine

/-- A sparse table from numbers to values. -/
abbrev SMap (α : Type) := List (Nat × α)

/-- The value stored under `k`, if one is. -/
def smFind {α : Type} (k : Nat) : SMap α → Option α
  | [] => none
  | (j, v) :: m => if j = k then some v else smFind k m

/-- The table without the key `k`. -/
def smErase {α : Type} (k : Nat) : SMap α → SMap α
  | [] => []
  | (j, v) :: m => if j = k then smErase k m else (j, v) :: smErase k m

/-- The table with `v` stored under `k`, at its place in rising order. -/
def smInsert {α : Type} (k : Nat) (v : α) : SMap α → SMap α
  | [] => [(k, v)]
  | (j, w) :: m =>
    if j = k then (k, v) :: m
    else if j < k then (j, w) :: smInsert k v m
    else (k, v) :: (j, w) :: m

/-- What `k` reads as when an absent key reads as `d`. -/
def smGet {α : Type} (d : α) (k : Nat) (m : SMap α) : α := (smFind k m).getD d

/-- Write `v` under `k` where an absent key reads as `d`; writing `d` removes the entry. -/
def smPut {α : Type} [DecidableEq α] (d : α) (k : Nat) (v : α) (m : SMap α) : SMap α :=
  if v = d then smErase k m else smInsert k v m

/-- The table without the keys from `lo` to below `hi`. -/
def smClear {α : Type} (lo hi : Nat) (m : SMap α) : SMap α :=
  m.filter (fun e => !(decide (lo ≤ e.1) && decide (e.1 < hi)))

/-- Keys strictly rise. -/
def smSorted {α : Type} : SMap α → Bool
  | [] => true
  | [_] => true
  | (j, _) :: (k, v) :: m => decide (j < k) && smSorted ((k, v) :: m)

/-- The canonical form: keys strictly rise and no entry equals its default `d`. -/
def smWf {α : Type} [DecidableEq α] (d : Nat → α) (m : SMap α) : Bool :=
  smSorted m && m.all (fun e => decide (e.2 ≠ d e.1))

/-- Update the value stored under `k` by `f`, where an absent key reads as `d`. -/
def smMod {α : Type} [DecidableEq α] (d : α) (k : Nat) (f : α → α) (m : SMap α) : SMap α :=
  smPut d k (f (smGet d k m)) m

/-- The keys of a table. -/
def smKeys {α : Type} (m : SMap α) : List Nat := m.map Prod.fst

/-- The least number below `n` that is no key of `m`, searched from `i`. -/
def smFree {α : Type} (m : SMap α) : Nat → Nat → Option Nat
  | 0, _ => none
  | fuel + 1, i => if (smFind i m).isNone then some i else smFree m fuel (i + 1)

end Sys2Proof.Machine
end

