-- ==== Sys2Proof/Machine/Types.lean ====
section
/-! DEFINITION. The parts of the device's state that every chapter shares: event records (R525), the
register and bus side, memories (R395) and the reset and power side (R507 to R517). -/

namespace Sys2Proof.Machine

/-- Who issues a register access: the host over BAR0, or the Factor over its sideband (R42, R45). -/
inductive Requester where
  | host | factor
  deriving DecidableEq, Repr

/-- An event record (R525, Table 20.1); PHASE is given when a queue writes it. -/
structure EvRec where
  ts : Nat
  src : Block
  cls : Nat
  forced : Bool := false
  ctx : Option Nat := none
  afterLoss : Bool := false
  code : Nat
  addr : Nat := 0
  info : Nat := 0
  deriving DecidableEq, Repr

/-- A message that leaves the device: an MSI-X write, a packet or frame, a page request, a sideband
reply (the model's own record of outputs, log entry 5). -/
structure Tx where
  kind : String
  a : Nat := 0
  b : Nat := 0
  data : List Byte := []
  deriving DecidableEq, Repr

/-- The register file, the bus side, the time base, event intake and what is out of service. -/
structure Io where
  /-- BAR0 registers that differ from their reset value, by BAR0 offset (R29, R38). -/
  regs : SMap W32 := []
  /-- Device time base in ticks of 10 ns (R7, R503). -/
  tb : Nat := 0
  /-- Blocks whose BLK_STAT.READY is 0 (R44, Table 2.7). -/
  notReady : List Block := []
  /-- Blocks whose BLK_STAT.OFFLINE is 1 (R534). -/
  offline : List Block := []
  /-- Snapshot of an upper half held for the host and for the Factor, with its pair's offset (R42). -/
  snapHost : Option (Nat × W32) := none
  snapFactor : Option (Nat × W32) := none
  /-- Staged lower half of the host and of the Factor, with its pair's offset (R42). -/
  stageHost : Option (Nat × W32) := none
  stageFactor : Option (Nat × W32) := none
  /-- The 4-byte units that the last register read returned (log entry 5). -/
  read : List W32 := []
  /-- The bytes that the last memory read by the host returned, and its EP bit (R405, log entry 5). -/
  readBytes : List Byte := []
  readEp : Bool := false
  /-- log2 of the BAR4 size in bytes (R29). -/
  bar4Log2 : Nat := 36
  /-- EVTQ intake, oldest first, at most 4,096 (R529). -/
  intake : List EvRec := []
  /-- Records held at their sources while the intake is full, at most 16 each (R529). -/
  held : List EvRec := []
  /-- Sources whose next record carries AFTER_LOSS (R529). -/
  srcLoss : List Block := []
  /-- The record of the last occurrence of an event bit, by page offset × 32 + bit (R39, R528). -/
  occ : SMap (Option EvRec) := []
  /-- Messages that left the device, oldest first (log entry 5). -/
  tx : List Tx := []
  /-- Counter of free values taken (log entry 2). -/
  free : Nat := 0
  deriving DecidableEq, Repr

/-- Phases of a placement move (Table 15.5), with the wait for one of the 16 moves before them; `pinHeld` is
PIN_WAIT of a move that PIN_WAITS has counted. -/
inductive MovePhase where
  | waiting | pinWait | pinHeld | mark | copy | release
  deriving DecidableEq, Repr

/-- A move of a placement page (R411): `frame` is the pool frame it goes to or comes from. -/
structure Move where
  page : Nat
  toPool : Bool
  frame : Nat
  requested : Bool
  phase : MovePhase
  deriving DecidableEq, Repr

/-- A host access through BAR4 held at a moving page (Table 15.5). -/
structure HeldAccess where
  addr : Nat
  len : Nat
  data : Option (List Byte)
  ep : Bool
  deriving DecidableEq, Repr

/-- The memories and their controllers (R395 to R417). -/
structure MemSt where
  /-- Device memory, byte by device address; unlisted bytes read as `memDflt`. -/
  dev : SMap Byte := []
  /-- Poisoned lines of device memory, by line number (R405). -/
  poison : SMap Bool := []
  /-- Host memory as the device reaches it, by bus address. -/
  host : SMap Byte := []
  /-- The device-resident ring area of BAR2, by BAR2 offset (R30, R547). -/
  ring : SMap Byte := []
  /-- Key generations made for tiers 2 and 3 (R407, R408). -/
  keyGen : Nat := 1
  /-- Times that the contents of memory were lost with the rails (R476, R514). -/
  blank : Nat := 0
  /-- Units whose unlisted bytes read zero: stacks zeroed by a wipe, channels and ports zero-filled (R494, R539). -/
  zeroed : List Block := (List.range 8).map (fun h => ⟨.hbm, h⟩)
  /-- Promoted pages, by page number, with their frames (R409). -/
  promoted : SMap Nat := []
  /-- Pages promoted by request in this epoch (R413). -/
  byRequest : List Nat := []
  /-- Moves running and waiting, oldest first (R410, R411). -/
  moves : List Move := []
  /-- BAR4 accesses held at moving pages (Table 15.5). -/
  heldAcc : List HeldAccess := []
  /-- Frames removed from the pool whose pages are still being demoted (R409). -/
  shrinking : List Nat := []
  /-- The placement sketch, page number to count, at most 4,096 (R410). -/
  sketch : SMap Nat := []
  /-- Line requests seen by the sampler since reset (R410). -/
  sampleCt : Nat := 0
  /-- Next line to scrub of each controller, by page offset (R404). -/
  scrubPos : SMap Nat := []
  /-- Corrected symbol errors of the pass, by page offset × 16 + group (R400). -/
  groupErrs : SMap Nat := []
  /-- Tier-3 groups whose check line is lost, by port × 2^40 + group (R402). -/
  checkLost : List Nat := []
  /-- Units lost since the last device reset: stacks, channels, ports (R415). -/
  lost : List Block := []
  /-- Corrective write-backs in flight, by line number (R403). -/
  writeBack : List Nat := []
  /-- Stacks, channels and ports that trained at the last device reset (R397, R398, R415). -/
  hbmUp : List Nat := List.range 8
  ddrUp : List Nat := List.range 12
  cxlUp : List Nat := List.range 2
  /-- Channels whose module differs from the lowest populated channel's (R397). -/
  ddrMismatch : List Nat := []
  /-- Module capacity in bytes and data rate in MT/s of tier 2 (Table 15.3, log entry 9). -/
  ddrBytes : Nat := 128000000000
  ddrRate : Nat := 8800
  /-- Raw capacity of each port's expander in bytes (R398, log entry 9). -/
  cxlRaw : List Nat := [1280000000000, 1280000000000]
  /-- Pool frames whose tier-1 space is taken (R409). -/
  poolFrames : Nat := 0
  deriving DecidableEq, Repr

/-- Reset scopes (R507, Table 19.4); `block` is a block page's own reset. -/
inductive Scope where
  | block (b : Block)
  | core (n : Nat)
  | cluster (c : Nat)
  | die (d : Nat)
  | warm
  | cold
  deriving DecidableEq, Repr

/-- A reset in progress: its scope and cause code, and whether RST_CMD asked for it. -/
structure ResetRun where
  scope : Scope
  cause : Nat
  byCmd : Bool
  deriving DecidableEq, Repr

/-- Power states (R516, Table 19.9); `d3pend` is D3hot entry before its third step (R517). -/
inductive PowerState where
  | off | standby | d0 | d3pend | d3hot
  deriving DecidableEq, Repr

/-- Clocks, resets and power (chapter 19). -/
structure RstSt where
  /-- The device reset in progress, if one is. -/
  device : Option ResetRun := none
  /-- Its phase: 0 none, 1 ASSERT to 7 TEST (Table 19.5). -/
  phase : Nat := 0
  /-- Smaller resets in progress. -/
  units : List ResetRun := []
  /-- Pins as last driven: COLD_RST_N, PERST_N, TEST_EN (R519). -/
  coldRstN : Bool := true
  perstN : Bool := true
  testEn : Bool := false
  /-- Output pins THERMTRIP_N and PWR_GOOD (R519). -/
  thermtripN : Bool := true
  pwrGood : Bool := true
  /-- Supplies present (R513, R514). -/
  vaux : Bool := true
  vin : Bool := true
  /-- A device reset is owed: VIN was lost, or REFCLK, or a thermal shutdown holds the rails down. -/
  vinLost : Bool := false
  refLost : Bool := false
  thermalDown : Bool := false
  /-- REFCLK within range, and whether the standby oscillator runs (R503). -/
  refOk : Bool := true
  osc : Bool := false
  /-- The Factor has booted under VAUX (R514). -/
  factorUp : Bool := true
  power : PowerState := .d0
  /-- CXL ports that the 100 ms bound has taken as empty in this training (R510). -/
  cxlOut : List Nat := []
  /-- The wipe that runs is full (R492, R495). -/
  fullWipe : Bool := false
  deriving DecidableEq, Repr

end Sys2Proof.Machine
end

