-- ==== Sys2Proof/Machine/TypesWork.lean ====
section
/-! DEFINITION. The state of regions and descriptors (chapter 4), the Callers (chapter 13), services and
contexts (chapter 14) and the host side: rings, sessions and interrupts (chapter 16). -/

namespace Sys2Proof.Machine

/-- A registered region (R77, R78): generation, span, permissions and who registered it.  `by` is the
registering ring's key: 0 the control context, CN + 1 a context of a service. -/
structure Region where
  gen : Nat
  used : Bool
  tier : Nat := 0
  base : Nat := 0
  len : Nat := 0
  perm : Nat := 0
  wide : Bool := false
  owner : Nat := 0
  svc : Nat := 0
  deriving DecidableEq, Repr

/-- A descriptor as validated (Table 4.2). -/
structure Desc where
  rank : Nat
  etype : Nat
  tier : Nat
  flags : Nat
  base : Nat
  region : Nat
  blk : List Nat
  scaleBase : Nat
  size : List Nat
  stride : List Int
  deriving DecidableEq, Repr

/-- An entry of a context's descriptor table (R101, R102). -/
structure DescEntry where
  d : Desc
  dead : Bool := false
  deriving DecidableEq, Repr

/-- A sequence binding carried by tokens (R317): core, slot and the sequence's serial number. -/
structure Binding where
  core : Nat
  slot : Nat
  serial : Nat
  deriving DecidableEq, Repr

/-- Where a token came from, for back-pressure (Table 13.4). -/
inductive Source where
  | session (n : Nat)
  | ring (key : Nat)
  | core (n : Nat)
  | winnower (c : Nat)
  | stage
  | routeReturn
  deriving DecidableEq, Repr

/-- A command taken from a submission ring (R360, R363).  `ring` is 0 for the control ring, CN + 1
otherwise; `started` is false while its FENCE waits. -/
structure Cmd where
  ring : Nat
  pos : Nat
  tag : Nat
  op : Nat
  fence : Bool
  silent : Bool
  irq : Bool
  ctx : Nat
  param : List Byte
  deriving DecidableEq, Repr

/-- An operand token (R337). -/
structure Token where
  die : Nat
  tmpl : Nat
  port : Nat
  key : Nat
  val : Nat
  ctx : Nat
  svc : Nat
  binding : Option Binding := none
  flow : Option Nat := none
  rel : Nat := 0
  src : Source
  /-- Ring command that waits for this token's acceptance: ring key and position (TOKEN_PUT). -/
  cmd : Option Cmd := none
  /-- Job class of a deadline job (R390). -/
  cls : Option Nat := none
  /-- Route group that the token is a route of (R312). -/
  grp : Option Nat := none
  /-- Fused instance, stage and buffer entry that the token hands over. -/
  inst : Option (Nat × Nat × Nat) := none
  /-- The ingress record whose arrival it is: context number, source and message number (R434). -/
  arr : Option (Nat × Nat × Nat) := none
  /-- The flow position that holds it for release: die, flow and position (R348). -/
  hold : Option (Nat × Nat × Nat) := none
  deriving DecidableEq, Repr

/-- A command in progress: waiting for its FENCE, started, or stopped by a cancel (R363, R358). -/
structure CmdRun where
  cmd : Cmd
  started : Bool
  cancelled : Bool := false
  deriving DecidableEq, Repr

/-- A task that is ready, in a NEXT register or running (R341, R345). -/
structure Task where
  id : Nat
  die : Nat
  tmpl : Nat
  key : Nat
  opnds : List (Option (Nat × Nat))
  ctx : Nat
  svc : Nat
  binding : Option Binding := none
  flow : Option Nat := none
  pos : Nat := 0
  readyAt : Nat := 0
  rel : Nat := 0
  deadline : Option Nat := none
  missed : Bool := false
  cls : Option Nat := none
  /-- The fused instance, stage and buffer entry it runs, if any. -/
  inst : Option (Nat × Nat × Nat) := none
  /-- Route groups of its operands (R312). -/
  grps : List Nat := []
  /-- Priority of a batch or round task, which its expert stage gives (Table 11.3). -/
  pri : Option Nat := none
  /-- The core that a round gave the task to (R315). -/
  only : Option Nat := none
  /-- Ingress records whose tokens it holds. -/
  arrs : List (Nat × Nat × Nat) := []
  deriving DecidableEq, Repr

/-- What a flow position holds until its release (R348, R349). -/
structure FlowPos where
  pos : Nat
  ctx : Nat
  task : Nat := 0
  ended : Bool := false
  outcome : Nat := 0
  tokens : List Token := []
  /-- EMIT entries waiting for the release: instance, stage and buffer entry. -/
  emits : List (Nat × Nat × Nat) := []
  /-- Completion records waiting for it: ring key, bytes and whether they signal. -/
  records : List (Nat × List Byte × Bool) := []
  /-- Ingress records that pass at its release (R436). -/
  arrs : List (Nat × Nat × Nat) := []
  at_ : Nat := 0
  inst : Option Nat := none
  deriving DecidableEq, Repr

/-- An ordered flow (R348). -/
structure Flow where
  assigned : Bool := false
  next : Nat := 0
  rel : Nat := 0
  window : List FlowPos := []
  deriving DecidableEq, Repr

/-- What a timer entry waits for (R350). -/
inductive TimerFor where
  | instance_ (tmpl key idx : Nat)
  | expert (stage expert serial : Nat)
  | round (set : Nat)
  deriving DecidableEq, Repr

/-- A timer entry: what it is for and the Caller ticks left. -/
structure Timer where
  what : TimerFor
  left : Nat
  deriving DecidableEq, Repr

/-- A stage of a chain (R352, Table 13.5): kind, template with its die bit, buffer entries and bytes.  An EMIT stage's
`dest` is 0 a session, 1 the fabric, 2 the completion ring; `target` is the session, or fabric address × 2^16 + inbox;
a TAIL stage's `target` is its input port. -/
structure Stage where
  kind : Nat
  tmpl : Nat := 0
  dest : Nat := 0
  target : Nat := 0
  entries : Nat := 0
  bytes : Nat := 0
  deriving DecidableEq, Repr

/-- A fused chain declared by a service (R352). -/
structure Chain where
  id : Nat
  svc : Nat
  stages : List Stage
  /-- SRAM offset of each stage buffer on the anchor, from admission. -/
  bufs : List Nat
  deriving DecidableEq, Repr

/-- An entry of a stage buffer: its index, its length and whether its consumer has taken it. -/
structure BufEntry where
  idx : Nat
  len : Nat
  poison : Bool := false
  taken : Bool := false
  deriving DecidableEq, Repr

/-- A fused instance in progress (R353, R354). -/
structure FusedInst where
  id : Nat
  chain : Nat
  svc : Nat
  ctx : Nat
  die : Nat
  key : Nat
  anchor : Option Nat := none
  cmd : Option Cmd := none
  flow : Option Nat := none
  pos : Nat := 0
  stage0Done : Bool := false
  bufs : List (List BufEntry) := []
  failed : Option Nat := none
  /-- Release time, job class and binding that its stages inherit (R390, R177). -/
  rel : Nat := 0
  cls : Option Nat := none
  binding : Option Binding := none
  /-- Outcome and INFO once it has ended and waits for its flow position's release. -/
  ended : Option (Nat × Nat) := none
  deriving DecidableEq, Repr

/-- A task that has ended and whose write streams are still draining (R128): outcome, INFO, STREAM_ERR, cycles,
the core, and whether it retires its slot. -/
structure Ended where
  task : Task
  outcome : Nat
  info : Nat
  serr : Bool
  cycles : Nat
  core : Nat
  retire : Bool
  deriving DecidableEq, Repr

/-- A C-die's Caller (chapter 13). -/
structure CallerSt where
  /-- Templates by number, 128 bytes each as admission wrote them (R336). -/
  tmpls : SMap (List Byte) := []
  /-- Tokens waiting in port queues, in order of acceptance (R338). -/
  toks : List Token := []
  /-- Tokens held at their sources, oldest first (R351). -/
  held : List Token := []
  /-- Ready tasks in order of readiness (R342). -/
  ready : List Task := []
  /-- NEXT registers by core number (R344). -/
  next : SMap Task := []
  /-- Last task ID count given (R341). -/
  lastId : Nat := 0
  flows : SMap Flow := []
  timers : List Timer := []
  ended : List Ended := []
  /-- Ticks of 10 ns into the present Caller tick (R350). -/
  tickPos : Nat := 0
  /-- A TICK_CFG value that waits for the next boundary (R350). -/
  tickNext : Option Nat := none
  deriving DecidableEq, Repr

/-- A stage class charged to a resource (Table 14.7). -/
structure StageClass where
  period : Nat
  burst : Nat
  dl : Nat
  cost : Nat
  deriving DecidableEq, Repr

/-- A charge of a service on a resource instance (R383): costs in thousandths of the resource's unit. -/
structure Charge where
  kind : Nat
  inst : Nat
  cls : StageClass
  blk : Nat := 0
  deriving DecidableEq, Repr

/-- A job class's token bucket parameters and O_s + SUBDL_s of its stages (R390). -/
structure JobClass where
  id : Nat
  period : Nat
  burst : Nat
  source : Nat
  /-- Template (die × 2^14 + number) and O_s + SUBDL_s of each stage. -/
  stages : List (Nat × Nat)
  deriving DecidableEq, Repr

/-- An admitted service (R371). -/
structure Service where
  num : Nat
  deadline : Bool
  home : Nat
  maxCtx : Nat
  quota0 : Nat
  quota1 : Nat
  tmpls : List Nat
  jobs : List JobClass
  descs : List Desc
  tableLen : Nat
  chains : List Chain
  /-- Core, base and length of each instruction range loaded for it (R148). -/
  code : List (Nat × Nat × Nat)
  /-- Descriptors and embedding tables' region handles that its image names (R79). -/
  handles : List Nat
  charges : List Charge
  held : List (Nat × Nat × Nat)
  /-- Carried-state areas given to it: core and slot (R320). -/
  carries : List (Nat × Nat) := []
  short : Bool := false
  deriving DecidableEq, Repr

/-- States of a context (Table 14.1). -/
inductive CtxState where
  | pinned | live | parked | waking | closing
  deriving DecidableEq, Repr

/-- A context of a service (R372, R373). -/
structure Ctx where
  cn : Nat
  svc : Nat
  st : CtxState
  slot : Option Nat
  home : Nat
  /-- Token buckets of the service's job classes: tokens and last time (R390). -/
  buckets : List (Nat × Nat)
  /-- Time of its last command, token, dispatch or arrival (R375). -/
  last : Nat
  descs : SMap DescEntry
  tableLen : Nat
  /-- CTX_WAKE commands that wait for a slot. -/
  wakeCmds : List Cmd := []
  /-- CTX_DESTROY commands that wait for the cancel fence. -/
  closeCmds : List Cmd := []
  /-- Times of its core exceptions in the last second (R533). -/
  excs : List Nat := []
  deriving DecidableEq, Repr

/-- A CANCEL that waits for the cancel fences of the cores it touched (R359). -/
structure CancelRun where
  cmd : Cmd
  stopped : Nat
  cores : List Nat
  deriving DecidableEq, Repr

/-- The admission engine and the context table (chapter 14). -/
structure AdmSt where
  services : SMap Service := []
  ctxs : SMap Ctx := []
  /-- Slots 1 to 4,095 with the CN that holds each. -/
  slots : SMap Nat := []
  /-- WAKING contexts in the order in which they entered it. -/
  waking : List Nat := []
  nextSvc : Nat := 1
  nextCn : Nat := 0
  /-- Guard counts by cluster (R386). -/
  guard : SMap Nat := []
  /-- Commands in progress, oldest first (R363). -/
  cmds : List CmdRun := []
  regions : SMap Region := []
  /-- References that streams and requests hold on descriptor entries: context number and ID (R102). -/
  refs : List (Nat × Nat) := []
  /-- Fused instances and the serial number of the next one. -/
  insts : List FusedInst := []
  cancels : List CancelRun := []
  nextInst : Nat := 1
  deriving DecidableEq, Repr

/-- A submission and completion ring pair (R421 to R428). -/
structure Ring where
  sqBase : Nat := 0
  sqLog2 : Nat := 0
  sqBar2 : Bool := false
  cqBase : Nat := 0
  cqLog2 : Nat := 0
  cqBar2 : Bool := false
  vector : Nat := 0
  irqAll : Bool := false
  modCount : Nat := 0
  modTime : Nat := 0
  inRegion : Nat := 0
  sqHead : Nat := 0
  sqTail : Nat := 0
  cqTail : Nat := 0
  cqHead : Nat := 0
  phase : Bool := true
  armed : Bool := true
  pend : Nat := 0
  pendAt : Nat := 0
  stopped : Bool := false
  /-- Completion records held while the ring is full, with whether each signals (R424). -/
  held : List (List Byte × Bool) := []
  /-- Context ID accepted up to a tail, for entries written before a park (R426). -/
  oldId : Option (Nat × Nat) := none
  deriving DecidableEq, Repr

/-- A device request to the host that is held while Bus Master Enable is 0 (R419). -/
inductive HostReq where
  | write (addr : Nat) (data : List Byte)
  | msix (vec : Nat)
  deriving DecidableEq, Repr

/-- An MSI-X table entry (R427). -/
structure MsixEntry where
  addr : Nat := 0
  data : Nat := 0
  masked : Bool := true
  deriving DecidableEq, Repr

/-- A record in an ingress ring (R434, R436): its source (a session, or 2^20 + inbox × 2^12 + address), its offset
counted without wrapping, its length, and whether its position has been released. -/
structure InRec where
  src : Nat
  off : Nat
  len : Nat
  done : Bool := false
  msg : Nat := 0
  deriving DecidableEq, Repr

/-- The ingress ring of a context (R434 to R436). -/
structure Ingress where
  tail : Nat := 0
  recs : List InRec := []
  /-- Credits outstanding in the order granted: source and MAX_MSG. -/
  resv : List (Nat × Nat) := []
  /-- Source that was offered a credit last (round-robin). -/
  last : Nat := 0
  deriving DecidableEq, Repr

/-- A session or forwarding session (R433, R466). -/
structure Sess where
  st : Nat
  cn : Nat
  tmpl : Nat
  die : Nat
  port : Nat
  eth : Nat
  rqpn : Nat
  mtu : Nat
  psnRx : Nat
  dscp : Nat
  rgid : Nat
  maxMsg : Nat
  psnTx : Nat
  prio : Nat
  classId : Nat
  rnrTimer : Nat
  ackTo : Nat
  sgid : Nat
  flow : Option Nat
  msgs : Nat := 0
  /-- Send rate in 1/1,048,576 of line rate (R432). -/
  rate : Nat := 1048576
  lastCnpTx : Option Nat := none
  lastCnpRx : Option Nat := none
  retries : Nat := 0
  /-- SENDs not yet acknowledged, oldest first: PSN and bytes. -/
  unacked : List (Nat × List Byte) := []
  /-- The session waits for the peer after an RNR NAK. -/
  rnrHeld : Bool := false
  /-- Forwarding target: fabric address and inbox (R466). -/
  fwd : Option (Nat × Nat) := none
  /-- Credits that a forwarding session has advertised and not yet seen used (R466). -/
  credits : Nat := 0
  deriving DecidableEq, Repr

/-- The host attachment and Ethernet side (chapter 16). -/
structure HostSt where
  bme : Bool := false
  heldReq : List HostReq := []
  fnMask : Bool := false
  msix : SMap MsixEntry := []
  pba : List Nat := []
  atsEn : Bool := false
  priEn : Bool := false
  priStopped : Bool := false
  /-- ATS invalidations under way: die and page of 4 KiB (R414). -/
  invs : List (Nat × Nat) := []
  /-- The host read now being served has timed out or completed with an error (R419). -/
  cplErr : Bool := false
  /-- Host pages whose translation ATS cannot give, with a page request out (R414, R420). -/
  priPages : List Nat := []
  /-- Host pages of 4 KiB with no translation since the host invalidated them, and those whose translation
  denies reads or writes (Table 5.6). -/
  unmapped : List Nat := []
  noRead : List Nat := []
  noWrite : List Nat := []
  rings : SMap Ring := []
  /-- Kept slot-0 doorbell before DONE (R50). -/
  keptDb : Option Nat := none
  sess : SMap Sess := []
  ing : SMap Ingress := []
  /-- Arrival tokens held at the session engine for contexts that hold no slot, oldest first (R375, R376). -/
  arrivals : List Token := []
  /-- PTP clock (R439). -/
  ptpSec : Nat := 0
  ptpNs : Nat := 0
  /-- Fraction of a nanosecond, in units of 10^−8 ns. -/
  ptpFrac : Nat := 0
  ptpLocked : Bool := false
  /-- Ethernet ports whose link is up. -/
  ethUp : List Nat := []
  /-- Source GIDs, by port × 64 + index × 4 + word (Table 16.8). -/
  gids : SMap W32 := []
  deriving DecidableEq, Repr

end Sys2Proof.Machine
end

