-- ==== Sys2Proof/Machine/TypesCore.lean ====
section
/-! DEFINITION. The state of the feature cores and their fetch engines (chapters 5 and 6): streams, tiles,
line requests, Pedlar transfers, registers, SRAM, sequence slots and the matrix queue. -/

namespace Sys2Proof.Machine

/-- A zone predicate term (Table 5.5). -/
structure ZoneTerm where
  field : Nat
  type : Nat
  loEn : Bool
  loIncl : Bool
  hiEn : Bool
  hiIncl : Bool
  lo : Nat
  hi : Nat
  deriving DecidableEq, Repr

/-- A tile between its issue and its end (R111, R114): a read tile with the lines not yet returned and the
lines that faulted, or a released write tile.  `ord` counts the tiles that the zone map does not skip. -/
structure Tile where
  pos : Nat
  ord : Nat
  /-- Indices of lines that have not returned, in element order. -/
  wait : List Nat := []
  /-- Faulted lines with their causes. -/
  bad : List (Nat × Nat) := []
  /-- The block's coordinates; none for a null or out-of-range list entry (R97). -/
  blk : Option (List Nat) := none
  /-- A write tile whose pages are translated and pinned and whose lines are being written (R132). -/
  issued : Bool := false
  /-- A write tile that a poisoned task released (Table 15.4). -/
  poison : Bool := false
  deriving DecidableEq, Repr

/-- The fault point of a stream (R129): cause, walk position, list position, element coordinates, address. -/
structure FaultPoint where
  code : Nat
  pos : Nat
  coords : List Nat
  addr : Nat
  deriving DecidableEq, Repr

/-- A stream (R105 to R115).  `st` and `kind` are the codes of Tables 5.10 and 5.1. -/
structure Strm where
  st : Nat := 0
  kind : Nat := 0
  group : Nat := 0
  desc : Option Desc := none
  /-- Instance tag of the open (R115). -/
  inst : Nat := 0
  /-- Context number, service and task for which it was opened. -/
  cn : Nat := 0
  svc : Nat := 0
  task : Nat := 0
  /-- Descriptor-table entries that it references (R102). -/
  refs : List Nat := []
  start : List Nat := []
  count : List Nat := []
  step : List Int := []
  order : List Nat := []
  bufBase : Nat := 0
  /-- Coordinate list: descriptor, format and first entry (Table 4.5). -/
  list : Option (Desc × Nat × Nat) := none
  listCount : Nat := 0
  zone : Option (Desc × List ZoneTerm) := none
  /-- Next walk position to issue, and the ordinal it would take. -/
  next : Nat := 0
  ord : Nat := 0
  /-- Tiles issued and not yet acquired, or released and not yet acknowledged, oldest first. -/
  tiles : List Tile := []
  /-- The tile or slot that the consumer holds, and how many it has released. -/
  held : Option Tile := none
  taken : Nat := 0
  /-- The consumer waits in STREAM.ADVANCE, and since when. -/
  waiting : Bool := false
  waitAt : Nat := 0
  heldAt : Nat := 0
  cpt : Nat := 0
  /-- A line has faulted and the reads in flight are awaited (R129). -/
  halting : Bool := false
  /-- A write stream closed while tiles are still to be written (R115). -/
  closing : Bool := false
  fault : Option FaultPoint := none
  /-- Multicast or rotation instance that it is a member of. -/
  gang : Option Nat := none
  /-- Position and slot offset of the last tile acquired (Table 5.4). -/
  lastPos : Nat := 0
  lastSlot : Nat := 0
  /-- Contributions of this open to an ACCUMULATE destination: element key, order key and code, and what each
  element held before the first of them (R92). -/
  adds : List (Nat × Nat × Nat) := []
  origs : SMap Nat := []
  /-- The slot area handed out for the task that is to run next (R127). -/
  preFor : Option Nat := none
  deriving DecidableEq, Repr

/-- A 64-byte line request of a Carter (R119, R120), waiting at the arbiters of its path or served. -/
structure LineReq where
  core : Nat
  st : Nat
  inst : Nat
  ord : Nat
  idx : Nat
  write : Bool
  tier : Nat
  addr : Nat
  key : Nat
  issued : Nat
  path : List Block
  gang : Option Nat := none
  deriving DecidableEq, Repr

/-- A running instance of a multicast group (R121) or a rotation of a resident set (R122). -/
structure Gang where
  id : Nat
  die : Nat
  group : Nat
  resident : Bool
  running : Bool := false
  /-- Next ring step of a rotation. -/
  step : Nat := 0
  deriving DecidableEq, Repr

/-- A multicast group that a service declared (R121). -/
structure McastDecl where
  die : Nat
  group : Nat
  svc : Nat
  members : Nat
  descId : Nat
  start : List Nat
  count : List Nat
  step : List Int
  order : Nat
  deriving DecidableEq, Repr

/-- A designated resident set (R122): tiles per shard, tile bytes, and the home shard area in every core.
`copy` is the copy that admission keeps, by position × 2^22 + offset in the shard, and `proxy` the positions whose
shards the ring reads from it (R537). -/
structure ResSet where
  die : Nat
  set : Nat
  svc : Nat
  tiles : Nat
  bytes : Nat
  base : Nat
  copy : SMap Byte := []
  proxy : List Nat := []
  deriving DecidableEq, Repr

/-- A Pedlar transfer of a core (R138 to R141). -/
structure Ped where
  blk : Nat
  dest : Nat
  region : Nat
  fabric : Nat
  ack : Bool
  fence : Bool
  offset : Nat
  data : List Byte
  /-- Poisoned lines of the destination, as bits. -/
  poison : Nat
  serial : Nat := 0
  issued : Bool := false
  cancelled : Bool := false
  /-- The remote device's answer (R463). -/
  acked : Option Nat := none
  deriving DecidableEq, Repr

/-- What a core does (R175). -/
inductive CoreRun where
  | waiting | running | between | halted
  deriving DecidableEq, Repr

/-- A sequence slot (Table 6.11): state code, context, chunks, serial number of its binding, the context number
of its previous binding, and the carried-state area. -/
structure Seq where
  st : Nat := 0
  ctx : Nat := 0
  cn : Nat := 0
  svc : Nat := 0
  chunks : Nat := 0
  serial : Nat := 0
  lastCn : Option Nat := none
  carry : Nat := 0
  carryLen : Nat := 0
  /-- Route groups written by tasks of the binding that have not returned (R317). -/
  groups : Nat := 0
  /-- The retiring task's completion has been reported. -/
  reported : Bool := false
  /-- The slot has become FREE and is to be offered to the oldest opening task (R318). -/
  offer : Bool := false
  deriving DecidableEq, Repr

/-- A queued MX.MMA (R169, R170): accumulator, operand tiles as read, shapes and forms. -/
structure Mma where
  acc : Nat
  aOff : Nat
  wOff : Nat
  aType : Nat
  wType : Nat
  k : Nat
  form : Nat
  skip : Bool
  clear : Bool
  drop : Bool := false
  deriving DecidableEq, Repr

/-- A pre-open of the task in the NEXT register (R127): stream, block offset, and its open result once
performed. -/
structure PreOpen where
  st : Nat
  sob : Nat
  task : Nat
  code : Option Nat := none
  deriving DecidableEq, Repr

/-- A VT.ASSAY or VT.ASSAY_LM whose results are awaited (R166): its serial number, destination and mask registers,
the active lanes as bits, whether inactive lanes are zeroed, whether a status word is written too, and the requests
not yet answered.  `got` holds the lanes' results: payload, status word and hit. -/
structure AssayWait where
  serial : Nat
  dst : Nat
  mreg : Nat
  act : Nat
  zm : Bool
  wide : Bool
  left : Nat
  tstat : Nat
  got : List (Nat × Nat × Nat × Bool) := []
  deriving DecidableEq, Repr

/-- An operator instance that waits for its turn at a group or dedup table (R221): its task, and its parameter block as
read at the call. -/
structure OpWait where
  task : Nat
  blk : List Byte
  deriving DecidableEq, Repr

/-- A feature core and its Carter.  Register arrays are sparse, absent entries reading zero. -/
structure CoreSt where
  run : CoreRun := .waiting
  /-- Destination of the TASK.WAIT that waits, if an instruction made it, and when its timeout ends. -/
  waitDst : Option Nat := none
  waitEnd : Option Nat := none
  x : SMap Nat := []
  /-- Lane i of Vn at 64 n + i. -/
  v : SMap Nat := []
  m : SMap Nat := []
  /-- FP32 of row i, column j of An at 2,048 n + 32 i + j. -/
  a : SMap Nat := []
  pc : Nat := 0
  fstat : Nat := 0
  tstat : Nat := 0
  selstat : Nat := 0
  task : Option Task := none
  /-- Time base at the task's start, and at the core's last reset. -/
  startAt : Nat := 0
  resetAt : Nat := 0
  /-- Operands delivered to the task and their area (R345). -/
  nopnd : Nat := 0
  /-- Base and length of the instruction range in force (R148). -/
  range : Nat × Nat := (0, 0)
  /-- Context number of the task that the core ran last (R176). -/
  lastCn : Option Nat := none
  /-- The running task has read a poisoned line (Table 15.4). -/
  poisoned : Bool := false
  /-- SRAM offset of the first poisoned line that it read, until the Caller has recorded it. -/
  poisonAt : Option Nat := none
  /-- SS_CODE of the first stream of the task that ended FAILED (Table 13.2). -/
  failCode : Nat := 0
  /-- Destination of a TASK.EMIT that is blocked. -/
  emitDst : Option Nat := none
  seqs : SMap Seq := []
  /-- Serial number of the last sequence binding. -/
  serial : Nat := 0
  sram : SMap Byte := []
  /-- Poisoned SRAM lines. -/
  sramPoison : SMap Bool := []
  imem : SMap Byte := []
  strms : SMap Strm := []
  /-- Number of stream opens since reset. -/
  opens : Nat := 0
  pres : List PreOpen := []
  peds : List Ped := []
  mmas : List Mma := []
  /-- CORE_CLK cycle of the last USER record (R182). -/
  lastUser : Option Nat := none
  /-- No-overlap mode of Table 5.8, forced mode apart, and tasks still to complete in RECOVERY. -/
  mode : Nat := 0
  recover : Nat := 0
  /-- A cancel fence is outstanding (R134). -/
  fence : Bool := false
  /-- Table requests awaited, and the serial numbers of Assayer waits and Pedlar sends. -/
  assay : List AssayWait := []
  asks : Nat := 0
  sends : Nat := 0
  /-- The operator instance that waits for a FOLD_LOCK. -/
  opWait : Option OpWait := none
  /-- Time base since which the core waits for a task. -/
  idleAt : Nat := 0
  deriving DecidableEq, Repr

/-- What the cores and fetch engines of the device share. -/
structure FetchSt where
  lines : List LineReq := []
  gangs : List Gang := []
  nextGang : Nat := 1
  mcasts : List McastDecl := []
  sets : List ResSet := []
  deriving DecidableEq, Repr

end Sys2Proof.Machine
end

