-- ==== Sys2Proof/Machine/TypesFabric.lean ====
section
/-! DEFINITION. The state of the Reel fabric (chapter 17): links, the database and routes, end-to-end packets,
groups, collectives and inboxes. -/

namespace Sys2Proof.Machine

/-- A packet (R451, Table 17.4). -/
structure Pkt where
  dst : Nat
  src : Nat
  type : Nat
  vc : Nat
  flow : Nat
  eseq : Nat
  poison : Nat
  arg : Nat
  payload : List Byte
  deriving DecidableEq, Repr

/-- A sequenced flit that waits for its acknowledgement, and how often it has been replayed (R444). -/
structure SentFlit where
  seq : Nat
  kind : Nat
  pvc : Nat
  payload : List Byte
  replays : Nat := 0
  deriving DecidableEq, Repr

/-- A Reel link (R444, R445).  `st`: 0 DISABLED, 1 DOWN, 2 TRAINING, 3 HELLO, 4 UP, 5 FAILED. -/
structure LinkSt where
  st : Nat := 1
  signal : Bool := false
  /-- A training failed, and the link tries again after 1 s. -/
  waitRetry : Bool := false
  txSeq : Nat := 0
  unacked : List SentFlit := []
  rxSeq : Nat := 0
  nakSent : Bool := false
  /-- Credits for DATA flits of REQ, RSP and MGMT, and those to return to the peer. -/
  cred : List Nat := [1024, 256, 64]
  give : List Nat := [0, 0, 0]
  /-- Packet bytes that wait to be sent, and those of packets not yet whole, by channel. -/
  outQ : List (List Byte) := [[], [], []]
  inQ : List (List Byte) := [[], [], []]
  /-- The last hello, how often it has come in a row, and which ends have passed the check. -/
  hello : List Byte := []
  same : Nat := 0
  passed : Bool := false
  deriving DecidableEq, Repr

/-- A device in the database of the component (R447): flags, address and UP links with their peers. -/
structure DbEntry where
  flags : Nat
  addr : Nat
  links : List (Nat × Nat)
  deriving DecidableEq, Repr

/-- An entry of the root's address table: the address and when its device was last reachable (R448). -/
structure AddrEntry where
  addr : Nat
  seen : Nat
  gone : Bool := false
  deriving DecidableEq, Repr

/-- A routing entry (R450): next-hop links, lowest first, and hops. -/
structure RouteEnt where
  links : List Nat := []
  hops : Nat := 0
  deriving DecidableEq, Repr

/-- What a packet that waits for its acknowledgement is a part of. -/
inductive OutFor where
  | pedlar (core serial : Nat)
  | update (req : Nat)
  | mark
  | coll (group inst : Nat)
  /-- A message to an inbox: its serial, and whether the packet is the last. -/
  | msg (serial : Nat) (last : Bool)
  deriving DecidableEq, Repr

/-- An unacknowledged packet (R454); `link` is none while its destination has no route (R456). -/
structure OutPkt where
  p : Pkt
  why : OutFor
  link : Option Nat
  deriving DecidableEq, Repr

/-- A group (R459). -/
structure Group where
  svc : Nat
  members : List Nat
  deriving DecidableEq, Repr

/-- What a START carries (R461). -/
structure CollStart where
  kind : Nat
  op : Nat
  etype : Nat
  root : Nat
  elems : Nat
  hash : Nat
  deriving DecidableEq, Repr

/-- A collective instance of this device (R461): its command, descriptors and what has arrived.  `got` holds
block bytes by rank × 2^40 + byte offset, `bad` poisoned 64-byte units of them. -/
structure Coll where
  group : Nat
  inst : Nat
  cmd : Cmd
  cn : Nat
  start : CollStart
  send : Option Desc
  recv : Option Desc
  refs : List Nat
  acceptedAt : Nat
  timeout : Nat
  /-- Members whose START has come, and those to whom START and the data have been sent. -/
  starts : List Nat := []
  told : List Nat := []
  sent : List Nat := []
  mismatch : Bool := false
  got : SMap Byte := []
  bad : SMap Bool := []
  deriving DecidableEq, Repr

/-- An inbox (R465). -/
structure Inbox where
  svc : Nat
  cn : Nat
  tmpl : Nat
  die : Nat
  port : Nat
  maxMsg : Nat
  classId : Nat
  group : Nat
  flow : Option Nat
  /-- By source address: the next message number, and the bytes and poison of a message not yet whole. -/
  count : SMap Nat := []
  part : SMap (List Byte × Bool) := []
  deriving DecidableEq, Repr

/-- What a message to an inbox is for. -/
inductive MsgFor where
  /-- An EMIT entry: instance, stage, entry. -/
  | emit (inst stage entry : Nat)
  /-- A message of a forwarding session. -/
  | session (n : Nat)
  deriving DecidableEq, Repr

/-- A message to an inbox, waiting for a credit or for its acknowledgement. -/
structure OutMsg where
  serial : Nat
  dst : Nat
  inbox : Nat
  data : List Byte
  poison : List Bool
  why : MsgFor
  started : Bool := false
  deriving DecidableEq, Repr

/-- The Reel block. -/
structure FabSt where
  links : SMap LinkSt := []
  /-- Devices by UID; this device's own entry is not listed. -/
  db : SMap DbEntry := []
  rootUid : Nat := 0
  addrs : SMap AddrEntry := []
  routes : SMap RouteEnt := []
  /-- Whether the Factor has computed the table since reset, so that the entries that it lists not are unknown (R450). -/
  routed : Bool := false
  /-- Next ESEQ of each pair this device sends on, and the next it accepts: address × 2^32 + flow. -/
  txSeq : SMap Nat := []
  rxSeq : SMap Nat := []
  out : List OutPkt := []
  /-- Packets for this device that flits have brought, with their link. -/
  arrived : List (Nat × Pkt) := []
  groups : SMap Group := []
  /-- Number of COLL_RUNs of each group so far. -/
  collNext : SMap Nat := []
  colls : List Coll := []
  /-- STARTs, ABORTs and data that arrived before this device's own command: source and packet. -/
  early : List Pkt := []
  inboxes : SMap Inbox := []
  /-- Credits held: address × 2^16 + inbox, count; and each inbox's MAX_MSG. -/
  credits : SMap Nat := []
  maxMsgs : SMap Nat := []
  msgs : List OutMsg := []
  nextMsg : Nat := 1
  /-- Fabric time in 2^−32 ticks, the correction still to slew, and the run of good offsets (R457). -/
  ft : Nat := 0
  slew : Int := 0
  timed : Bool := false
  good : Nat := 0
  deriving DecidableEq, Repr

end Sys2Proof.Machine
end

