-- ==== Sys2Proof/Machine/TypesUnits.lean ====
section
/-! DEFINITION. The state of the cluster units and of conditional computation: requests queued at an EGP or a
Winnower, embedding tables (chapter 9), merge groups (chapter 10), expert stages and rounds (chapter 11). -/

namespace Sys2Proof.Machine

/-- A request block queued at an EGP or a Winnower (R254, R278): who issued it, from which source stage, and
how far it has come. -/
structure UReq where
  serial : Nat
  blk : List Byte
  cn : Nat
  svc : Nat
  /-- Source stage: of a command its run number, of a fused instance the instance and the stage. -/
  run : Option Nat := none
  idx : Nat := 0
  /-- Instance, stage and entry of the input stage buffer. -/
  stage : Option (Nat × Nat × Nat) := none
  /-- Core whose SRAM a LOCAL descriptor or a stage buffer lies in. -/
  core : Option Nat := none
  binding : Option Binding := none
  rel : Nat := 0
  cls : Option Nat := none
  /-- Rows already completed. -/
  rows : Nat := 0
  /-- Route group of a TOKENS request (R312). -/
  group : Option Nat := none
  /-- A REMOTE update whose packets are sent: packets not answered, entries logged, code so far (R464). -/
  sent : Option (Nat × Nat × Nat) := none
  deriving DecidableEq, Repr

/-- An EGP_RUN or WINNOW_RUN in progress (Table 13.9): its blocks enter the unit's queue as places free. -/
structure UnitRun where
  id : Nat
  cmd : Cmd
  egp : Bool
  cn : Nat
  unit : Nat
  desc : Nat
  d : Desc
  first : Nat
  count : Nat
  next : Nat := 0
  done : Nat := 0
  refused : Nat := 0
  firstBad : Option Nat := none
  status : Nat := 0
  deriving DecidableEq, Repr

/-- A logged update of a table (R266): key (source, batch, position), row, value codes and step. -/
structure LogEnt where
  step : Nat
  row : Nat
  src : Nat
  batch : Nat
  pos : Nat
  vals : List Nat
  poison : Bool := false
  deriving DecidableEq, Repr

/-- Phases of a step fence (R269). -/
inductive FencePhase where
  | close | apply | refresh
  deriving DecidableEq, Repr

/-- A step fence of a table: its command, step, and the gathers accepted before CLOSE that it waits for. -/
structure Fence where
  table : Nat
  step : Nat
  phase : FencePhase
  waits : List Nat
  rows : List Nat := []
  applied : Nat := 0
  /-- Rows that failed in APPLY, and markers missing at a cancel (R540). -/
  failed : Nat := 0
  missing : Option Nat := none
  cmd : Cmd
  deriving DecidableEq, Repr

/-- A replicated row: table, row and its heat in the last epoch. -/
structure Replica where
  table : Nat
  row : Nat
  heat : Nat
  deriving DecidableEq, Repr

/-- Embedding tables and their units (chapter 9). -/
structure EgpSt where
  /-- Directory records, 64 bytes each (Table 9.1), and the service of each. -/
  dir : SMap (List Byte) := []
  owner : SMap Nat := []
  /-- Bindings: service, context table ID, directory record (R250). -/
  binds : List (Nat × Nat × Nat) := []
  log : List (Nat × LogEnt) := []
  /-- End-of-step markers received: table, step, source (R269). -/
  marks : List (Nat × Nat × Nat) := []
  fences : List Fence := []
  /-- Heat sketches by unit: table × 2^52 + row (R262). -/
  heat : SMap (SMap Nat) := []
  hot : List Replica := []
  warm : List Replica := []
  /-- Bytes of an entry of EGP_UPD packets not yet whole, by pair. -/
  part : SMap (List Byte) := []
  /-- Hot-row copies that a reset of a unit lost: unit, table, row (R276). -/
  lost : List (Nat × Nat × Nat) := []
  deriving DecidableEq, Repr

/-- An exact sum of a row: how many terms are +∞ and −∞, and the exact sum of the rest (R287). -/
structure RowSum where
  pos : Int := 0
  neg : Int := 0
  /-- The finite part, in units of 2^−1200. -/
  fin : Int := 0
  deriving DecidableEq, Repr

/-- A partial list of one row on its way to the merge tree (R290): entries as index and value code. -/
structure Partial where
  entries : List (Nat × Nat)
  tie : Nat
  nan : Nat
  sel : RowSum
  rest : RowSum
  poison : Bool
  deriving DecidableEq, Repr

/-- What one member has given an instance: its rows. -/
structure MemberPart where
  member : Nat
  /-- Winnower unit and request serial, or none for the other die's partial. -/
  req : Option (Nat × UReq)
  rows : List Partial
  deriving DecidableEq, Repr

/-- A declared merge group (R291). -/
structure MergeGroup where
  die : Nat
  group : Nat
  svc : Nat
  members : Nat
  remote : Bool
  sender : Bool
  k : Nat
  type : Nat
  outMode : Nat
  sum64 : Bool
  outVal : Nat
  outIdx : Nat
  res : Nat
  outFirst : Nat
  resFirst : Nat
  port : Nat
  tag : Nat
  deriving DecidableEq, Repr

/-- An open merge instance: its number, rows and the parts received. -/
structure MergeInst where
  die : Nat
  group : Nat
  n : Nat
  rows : Nat
  parts : List MemberPart
  /-- Members whose request has been checked, or cancelled. -/
  joined : List Nat := []
  aborted : Bool := false
  deriving DecidableEq, Repr

/-- The merge trees (chapter 10). -/
structure MergeSt where
  groups : List MergeGroup := []
  insts : List MergeInst := []
  /-- Sources of each group, die × 2^8 + group, in order of their first request: a source's place is its member
  number. -/
  who : SMap (List Nat) := []
  /-- Requests sent so far by each member: die × 2^20 + group × 2^8 + member. -/
  sent : SMap Nat := []
  /-- Partials on their way: die, group, instance, part. -/
  flight : List (Nat × Nat × Nat × MemberPart) := []
  /-- Instances completed by each group, die × 2^8 + group. -/
  count : SMap Nat := []
  deriving DecidableEq, Repr

/-- A declared expert stage (Table 11.3). -/
structure ExpertStage where
  die : Nat
  stage : Nat
  svc : Nat
  base : Nat
  experts : Nat
  gatherN : Nat
  delay : Nat
  service : Bool
  entry : Nat
  setFirst : Nat
  perSet : Nat
  roundMin : Nat
  roundWait : Nat
  fwdEntry : Nat
  retTmpl : Nat
  retPort : Nat
  pri : Nat
  deriving DecidableEq, Repr

/-- An open expert batch (R309), its tokens in order of arrival. -/
structure Batch where
  serial : Nat
  die : Nat
  entry : Nat
  expert : Nat
  cn : Nat
  toks : List Token
  deriving DecidableEq, Repr

/-- A fired batch of a resident stage that waits for a round (R314). -/
structure FiredBatch where
  die : Nat
  set : Nat
  task : Task
  at_ : Nat
  fwd : Nat
  wait : Nat
  min : Nat
  deriving DecidableEq, Repr

/-- A round in progress on a die: the tasks that it waits for (R314, R315). -/
structure Round where
  die : Nat
  set : Nat
  tasks : List Nat
  deriving DecidableEq, Repr

/-- A route group (R312). -/
structure RouteGroup where
  id : Nat
  die : Nat
  retTmpl : Nat
  retPort : Nat
  tag : Nat
  cn : Nat
  svc : Nat
  binding : Option Binding
  rel : Nat
  cls : Option Nat
  sealed : Bool := false
  routes : Nat := 0
  ok : Nat := 0
  failed : Nat := 0
  /-- The return token waits for a slot; the group has completed. -/
  returning : Bool := false
  deriving DecidableEq, Repr

/-- Conditional computation (chapter 11). -/
structure ExpertSt where
  stages : List ExpertStage := []
  batches : List Batch := []
  nextBatch : Nat := 1
  fired : List FiredBatch := []
  rounds : List Round := []
  groups : List RouteGroup := []
  nextGroup : Nat := 1
  deriving DecidableEq, Repr

/-- The queues of the twelve EGPs and twelve Winnowers, and the runs that fill them. -/
structure QueueSt where
  egp : SMap (List UReq) := []
  win : SMap (List UReq) := []
  runs : List UnitRun := []
  nextRun : Nat := 1
  nextReq : Nat := 1
  deriving DecidableEq, Repr

/-- A row of an associative array, or of its shadow (Table 8.1); `bad` marks a shadow row with an uncorrectable error. -/
structure AssayRow where
  fp : Nat := 0
  prio : Nat := 0
  payload : Nat := 0
  valid : Bool := false
  bad : Bool := false
  deriving DecidableEq, Repr

/-- A lookup or search queued at an Assayer (R166, R248): the core, its wait and lane, the table by unit and slot, the
fingerprint or start word, and the probe key or window as read from SRAM. -/
structure AssayReq where
  core : Nat
  serial : Nat
  lane : Nat
  unit : Nat
  slot : Nat
  lm : Bool
  word : Nat
  key : List Byte
  long : Bool
  deriving DecidableEq, Repr

/-- An upset of a row that the environment brings (R242): array fields that have flipped, or an uncorrectable error of
the shadow. -/
structure AssayUpset where
  unit : Nat
  row : Nat
  fp : Option Nat := none
  valid : Option Bool := none
  shadow : Bool := false
  deriving DecidableEq, Repr

/-- The twelve Assayers (chapter 8): arrays and shadows by unit × 32,768 + row, queues, bindings of context table IDs
(service, ID, unit, slot), tables whose loss has been reported, and rows lost since the last CLEAR of their table. -/
structure AssaySt where
  arr : SMap AssayRow := []
  shadow : SMap AssayRow := []
  queue : SMap (List AssayReq) := []
  binds : List (Nat × Nat × Nat × Nat) := []
  lost : List (Nat × Nat) := []
  holes : List Nat := []
  deriving DecidableEq, Repr

/-- A layout copy (R326): its command, descriptors as validated, and parameters. -/
structure WCopy where
  serial : Nat
  cmd : Cmd
  cn : Nat
  srcId : Nat
  dstId : Nat
  src : Desc
  dst : Desc
  perm : List Nat
  reshape : Bool
  deriving DecidableEq, Repr

/-- A Weaver: its queue and the copies in progress, oldest first (R330). -/
structure WeaverSt where
  queue : List WCopy := []
  active : List WCopy := []
  deriving DecidableEq, Repr

/-- The four Weavers and the serial number of the next copy. -/
structure WeaveSt where
  units : SMap WeaverSt := []
  next : Nat := 1
  deriving DecidableEq, Repr

end Sys2Proof.Machine
end

