-- ==== Sys2Proof/Syntax.lean ====
section
/-! DEFINITION. The commands of the device as syntax: the operand types that only commands use, and one
constructor per row of spec/opcode_table.json. -/

namespace Sys2Proof

open Sys2Proof.Machine (Requester Block BlockKind Scope Cmd Token Chain Desc Pkt MergeGroup ExpertStage McastDecl ResSet)

/-- How a read of a submission entry ended (R423): with data, poisoned, or failed. -/
inductive ReadEnd where
  | ok | poisoned | failed
  deriving DecidableEq, Repr

/-- Which host read timed out or completed with an error (R419). -/
inductive HostRead where
  | ring (key : Nat)
  | stream (core st : Nat)
  | egp (unit op : Nat)
  | winnow (unit op : Nat)
  | weaver (unit serial : Nat)
  deriving DecidableEq, Repr

/-- A PRI page request group response (R420). -/
inductive PrgResp where
  | success (read write : Bool) | invalidRequest | responseFailure
  deriving DecidableEq, Repr

/-- What a RoCEv2 peer answers (R432, R438). -/
inductive AckKind where
  | ack | nak (syndrome : Nat) | rnr
  deriving DecidableEq, Repr

/-- The sections of a service image as its capability list and its directory give them (R377; the spec gives their
contents and not the layout of the list and the directory, log entry 11).  SRAM areas are offsets in the cores of the
die. -/
structure Sections where
  /-- Capability values: row of Table 1.6, counted from 0, and the value. -/
  caps : List (Nat × Nat) := []
  /-- Feature bits that the image depends on (R51). -/
  features : List Nat := []
  /-- Die, number and 128 bytes of each template (Table 13.1). -/
  tmpls : List (Nat × Nat × List Byte) := []
  chains : List Chain := []
  /-- Descriptors by ID, 128 bytes each, and the size of a context's table, if declared. -/
  descs : List (List Byte) := []
  tableLen : Option Nat := none
  /-- The service's code (R148). -/
  code : List Byte := []
  /-- Embedding tables: context table ID and 64 bytes (Table 9.1); replica space per stack (R253). -/
  embeds : List (Nat × List Byte) := []
  replica : Nat := 0
  /-- Assayer bindings: context table ID, die of the stage, unit, slot, and the six words of the slot (Table 8.12). -/
  assays : List (Nat × Nat × Nat × Nat × List Nat) := []
  groups : List MergeGroup := []
  experts : List ExpertStage := []
  mcasts : List McastDecl := []
  sets : List ResSet := []
  /-- Bytes of each resident set's shards by die, set, position and offset in the shard (R122). -/
  shards : List (Nat × Nat × Nat × List Byte) := []
  /-- Carried-state areas: core, slot, SRAM offset and length (R320). -/
  carries : List (Nat × Nat × Nat × Nat) := []
  /-- Sequence stages of a deadline service: MAX_LEN, and the bound of the operator that makes their tokens (R322). -/
  seqs : List (Option Nat × Nat) := []
  deriving DecidableEq, Repr

/-- TAP instructions (Table 18.10): BYPASS, IDCODE, boundary scan, and internal debug's reads and writes of core SRAM and of
block registers and its scan chains (R499). -/
inductive TapOp where
  | bypass | idcode | boundary
  | sramRead (core off len : Nat)
  | sramWrite (core off : Nat) (data : List Byte)
  | regRead (off : Nat)
  | regWrite (off : Nat) (value : W32)
  | scan
  deriving DecidableEq, Repr


/-- The commands of the device: one constructor per row of spec/opcode_table.json, in its order.
Operands carry what the environment brings to the step (addresses, values, packets, readings). -/
inductive Instr where
  /-- REGISTER_WRITE (R41). -/
  | registerWrite (who : Requester) (off size : Nat) (value : W64)
  /-- RC_FIELD_READ (R11). -/
  | rcFieldRead (who : Requester) (off size : Nat)
  /-- PAIR_LO_READ (R42). -/
  | pairLoRead (who : Requester) (off : Nat)
  /-- PAIR_HI_READ (R42). -/
  | pairHiRead (who : Requester) (off : Nat)
  /-- PAIR_LO_WRITE (R42). -/
  | pairLoWrite (who : Requester) (off : Nat) (value : W32)
  /-- PAIR_HI_WRITE (R42). -/
  | pairHiWrite (who : Requester) (off : Nat) (value : W32)
  /-- BLK_CTRL_RESET (R507). -/
  | blkCtrlReset (who : Requester) (b : Block) (value : W32)
  /-- ENABLE (R38). -/
  | enableWrite (who : Requester) (b : Block) (on : Bool)
  /-- EVT_MASK_WRITE (R39). -/
  | evtMaskWrite (who : Requester) (b : Block) (value : W32)
  /-- EVT_FORCE (R39). -/
  | evtForce (who : Requester) (b : Block) (value : W32)
  /-- ERR_CAPT_CLEAR (R40). -/
  | errCaptClear (who : Requester) (b : Block) (err : Option (Nat × Nat))
  /-- CTR_CLEAR (R142). -/
  | ctrClear (who : Requester) (b : Block)
  /-- APERTURE_ACCESS (R31). -/
  | apertureAccess (off len : Nat) (data : Option (List Byte)) (ep : Bool)
  /-- RING_AREA_ACCESS (R547). -/
  | ringAreaAccess (off len : Nat) (data : Option (List Byte))
  /-- DRV_VER_WRITE (R49). -/
  | drvVerWrite (who : Requester) (value : W32)
  /-- NEGOTIATION (R48). -/
  | negotiation
  /-- REGION_REG (R78). -/
  | regionReg (c : Cmd)
  /-- REGION_UNREG (R79). -/
  | regionUnreg (c : Cmd)
  /-- DESC_CREATE (R100). -/
  | descCreate (c : Cmd)
  /-- DESC_DESTROY (R102). -/
  | descDestroy (c : Cmd)
  /-- STREAM_OPEN (R110). -/
  | streamOpen (core : Nat)
  /-- STREAM_ADVANCE (R113). -/
  | streamAdvance (core : Nat)
  /-- STREAM_CLOSE (R115). -/
  | streamClose (core : Nat)
  /-- STREAM_READ (R173). -/
  | streamRead (core : Nat)
  /-- LINE_REQUEST_GRANT (R120). -/
  | lineRequestGrant (arb : Block)
  /-- LINE_RETURN (R113). -/
  | lineReturn (r : Machine.LineReq)
  /-- STREAM_HALT (R129). -/
  | streamHalt (core st : Nat)
  /-- WRITE_ACK (R114). -/
  | writeAck (core st : Nat)
  /-- RING_STEP (R122). -/
  | ringStep (die set : Nat)
  /-- CANCEL_FENCE_DONE (R134). -/
  | cancelFenceDone (core : Nat)
  /-- PEDLAR_SEND (R139). -/
  | pedlarSend (core : Nat)
  /-- PEDLAR_ISSUE (R140). -/
  | pedlarIssue (core : Nat)
  /-- PEDLAR_COMPLETE (R138). -/
  | pedlarComplete (core serial : Nat)
  /-- SCALAR_ALU (R151). -/
  | scalarAlu (core : Nat)
  /-- SCALAR_IMMEDIATE (R151). -/
  | scalarImmediate (core : Nat)
  /-- JAL (R151). -/
  | jal (core : Nat)
  /-- JR (R151). -/
  | jr (core : Nat)
  /-- CONDITIONAL_BRANCH (R151). -/
  | conditionalBranch (core : Nat)
  /-- SCALAR_LOAD (R151). -/
  | scalarLoad (core : Nat)
  /-- SCALAR_STORE (R151). -/
  | scalarStore (core : Nat)
  /-- CSR_RD (R152). -/
  | csrRd (core : Nat)
  /-- CSR_WR (R152). -/
  | csrWr (core : Nat)
  /-- CSR_SET (R152). -/
  | csrSet (core : Nat)
  /-- CSR_CLR (R152). -/
  | csrClr (core : Nat)
  /-- VECTOR_ARITHMETIC (R153). -/
  | vectorArithmetic (core : Nat)
  /-- CVT (R59). -/
  | cvt (core : Nat)
  /-- REDSUM (R155). -/
  | redsum (core : Nat)
  /-- VECTOR_COMPARE (R156). -/
  | vectorCompare (core : Nat)
  /-- VLD (R159). -/
  | vld (core : Nat)
  /-- VLDS (R159). -/
  | vlds (core : Nat)
  /-- VLDG (R159). -/
  | vldg (core : Nat)
  /-- VST (R160). -/
  | vst (core : Nat)
  /-- VSTS (R159). -/
  | vsts (core : Nat)
  /-- VSTG (R160). -/
  | vstg (core : Nat)
  /-- VT_HASH (R163). -/
  | vtHash (core : Nat)
  /-- VT_BUCKET (R164). -/
  | vtBucket (core : Nat)
  /-- VT_LOOKUP (R165). -/
  | vtLookup (core : Nat)
  /-- VT_ASSAY (R166). -/
  | vtAssay (core : Nat)
  /-- VT_ASSAY_LM (R238). -/
  | vtAssayLm (core : Nat)
  /-- ASSAY_LOOKUP (R234). -/
  | assayLookup (unit : Nat) (ups : List Machine.AssayUpset)
  /-- ASSAY_LM_SEARCH (R238). -/
  | assayLmSearch (unit : Nat) (ups : List Machine.AssayUpset)
  /-- SEL_TOPK (R167). -/
  | selTopk (core : Nat)
  /-- SEL_MERGE (R168). -/
  | selMerge (core : Nat)
  /-- MX_MMA (R169). -/
  | mxMma (core : Nat)
  /-- MMA_EXECUTE (R301). -/
  | mmaExecute (core : Nat)
  /-- MX_ZERO (R172). -/
  | mxZero (core : Nat)
  /-- MX_LOADACC (R172). -/
  | mxLoadacc (core : Nat)
  /-- MX_STOREACC (R172). -/
  | mxStoreacc (core : Nat)
  /-- TASK_WAIT (R175). -/
  | taskWait (core : Nat)
  /-- TASK_WAIT_TIMEOUT (R175). -/
  | taskWaitTimeout (core : Nat)
  /-- TASK_EMIT (R177). -/
  | taskEmit (core : Nat)
  /-- TASK_DONE (R178). -/
  | taskDone (core : Nat)
  /-- NOP (R150). -/
  | nop (core : Nat)
  /-- FENCE_TABLE (R181). -/
  | fenceTable (core : Nat)
  /-- FENCE_WRITE (R181). -/
  | fenceWrite (core : Nat)
  /-- FENCE_ALL (R181). -/
  | fenceAll (core : Nat)
  /-- EVT_RAISE (R182). -/
  | evtRaise (core : Nat)
  /-- EVT_COUNT (R182). -/
  | evtCount (core : Nat)
  /-- TASK_OVERRUN (R346). -/
  | taskOverrun (core : Nat)
  /-- SCAN (R199). -/
  | opScan (core : Nat)
  /-- FILTER (R202). -/
  | opFilter (core : Nat)
  /-- PROJECT (R205). -/
  | opProject (core : Nat)
  /-- HASH (R206). -/
  | opHash (core : Nat)
  /-- JOIN_BUILD (R209). -/
  | joinBuild (core : Nat)
  /-- JOIN_PROBE (R211). -/
  | joinProbe (core : Nat)
  /-- DICT_LOOKUP (R214). -/
  | dictLookup (core : Nat)
  /-- BUCKETIZE (R215). -/
  | bucketize (core : Nat)
  /-- NORMALIZE (R219). -/
  | normalize (core : Nat)
  /-- STATS (R218). -/
  | opStats (core : Nat)
  /-- GROUP_AGG (R220). -/
  | groupAgg (core : Nat)
  /-- DEDUP (R222). -/
  | opDedup (core : Nat)
  /-- TOKENIZE (R245). -/
  | tokenize (core : Nat)
  /-- FOLD_LOCK_POLL (R221). -/
  | foldLockPoll (core : Nat)
  /-- ASSAY_LOAD (R230). -/
  | assayLoad (c : Cmd)
  /-- SCRUB_ROW (R241). -/
  | scrubRow (unit : Nat) (ups : List Machine.AssayUpset)
  /-- FP_SEED_WRITE (R249). -/
  | fpSeedWrite (who : Requester) (unit slot : Nat) (value : W64)
  /-- EGP_RUN (R254). -/
  | egpRun (c : Cmd)
  /-- GATHER (R259). -/
  | gather (unit : Nat)
  /-- SUM (R258). -/
  | poolSum (unit : Nat)
  /-- MEAN (R258). -/
  | poolMean (unit : Nat)
  /-- WEIGHTED_SUM (R258). -/
  | weightedSum (unit : Nat)
  /-- UPDATE (R266). -/
  | egpUpdate (unit : Nat)
  /-- HEAT_EPOCH (R262). -/
  | heatEpoch
  /-- STEP_FENCE (R269). -/
  | stepFence (c : Cmd)
  /-- FENCE_APPLY (R268). -/
  | fenceApply (table : Nat)
  /-- FENCE_REFRESH (R269). -/
  | fenceRefresh (table : Nat)
  /-- FENCE_OPEN (R269). -/
  | fenceOpen (table : Nat)
  /-- WINNOW_RUN (R278). -/
  | winnowRun (c : Cmd)
  /-- TOPK (R279). -/
  | topk (unit : Nat)
  /-- LISTMERGE (R290). -/
  | listmerge (unit : Nat)
  /-- MERGE_PARTIAL (R291). -/
  | mergePartial (die group : Nat)
  /-- EXPERT_BATCH_EXPIRY (R309). -/
  | expertBatchExpiry (die serial : Nat)
  /-- ROUND_WAIT_EXPIRY (R314). -/
  | roundWaitExpiry (die set : Nat)
  /-- WEAVE (R327). -/
  | weave (c : Cmd)
  /-- WEAVE_COPY_START (R330). -/
  | weaveCopyStart (unit : Nat)
  /-- WEAVE_COPY_DONE (R329). -/
  | weaveCopyDone (unit serial : Nat)
  /-- TOKEN_ACCEPT (R338). -/
  | tokenAccept (t : Token)
  /-- HELD_TOKEN_ACCEPTED (R339). -/
  | heldTokenAccepted (die : Nat)
  /-- OPERAND_TIMEOUT (R340). -/
  | operandTimeout (die tmpl key idx : Nat)
  /-- DISPATCH (R344). -/
  | dispatch (die : Nat)
  /-- FLOW_RELEASE (R349). -/
  | flowRelease (die flow : Nat)
  /-- FUSED_RUN (R353). -/
  | fusedRun (c : Cmd)
  /-- TOKEN_PUT (R337). -/
  | tokenPut (c : Cmd)
  /-- CANCEL (R358). -/
  | cancelCmd (c : Cmd)
  /-- CMD_NOP (R361). -/
  | cmdNop (c : Cmd)
  /-- FENCED_COMMAND_START (R364). -/
  | fencedCommandStart (ring pos : Nat)
  /-- SUBMISSION_ENTRY_READ (R423). -/
  | submissionEntryRead (ring : Nat) (how : ReadEnd)
  /-- TICK_CFG_WRITE (R350). -/
  | tickCfgWrite (who : Requester) (die : Nat) (value : W32)
  /-- SVC_ADMIT (R379). -/
  | svcAdmit (c : Cmd) (secs : Sections) (ticks : Nat)
  /-- SVC_QUERY (R379). -/
  | svcQuery (c : Cmd) (secs : Sections) (ticks : Nat)
  /-- SVC_REMOVE (R379). -/
  | svcRemove (c : Cmd)
  /-- CTX_CREATE (R374). -/
  | ctxCreate (c : Cmd)
  /-- CTX_DESTROY (R379). -/
  | ctxDestroy (c : Cmd)
  /-- CTX_WAKE (R379). -/
  | ctxWake (c : Cmd)
  /-- CTX_WIN_SLOT (R375). -/
  | ctxWinSlot
  /-- DEADLINE_MISS (R392). -/
  | deadlineMiss (die id : Nat)
  /-- ADM_CEIL_WRITE (R394). -/
  | admCeilWrite (who : Requester) (value : W32)
  /-- POWER_LIMIT_WRITE (R394). -/
  | powerLimitWrite (who : Requester) (value : W32)
  /-- MEMORY_READ (R403). -/
  | memoryRead (b : Block) (addr : Nat) (errs : List Nat) (checkPoisoned : Bool)
  /-- MEMORY_WRITE (R402). -/
  | memoryWrite (addr : Nat) (data : List Byte) (poison : Bool)
  /-- MEM_SCRUB (R404). -/
  | memScrub (b : Block) (errs : List Nat)
  /-- MIGR_EPOCH (R410). -/
  | migrEpoch
  /-- PROMOTE (R413). -/
  | promote (who : Requester)
  /-- DEMOTE (R413). -/
  | demote (who : Requester)
  /-- POOL_WRITE (R409). -/
  | poolWrite (who : Requester) (value : W32)
  /-- MOVE_MARK (R411). -/
  | moveMark (page : Nat)
  /-- MOVE_COPY (R411). -/
  | moveCopy (page : Nat)
  /-- MOVE_RELEASE (R411). -/
  | moveRelease (page : Nat)
  /-- ATS_INVALIDATION (R414). -/
  | atsInvalidation (die page : Nat)
  /-- ATS_INVALIDATION_DONE (R414). -/
  | atsInvalidationDone (die page : Nat)
  /-- BUS_MASTER_ENABLE (R419). -/
  | busMasterEnable (on : Bool)
  /-- FUNCTION_LEVEL_RESET (R419). -/
  | functionLevelReset
  /-- CPL_TIMEOUT (R419). -/
  | cplTimeout (what : HostRead)
  /-- PRG_RESPONSE (R420). -/
  | prgResponse (page : Nat) (resp : PrgResp)
  /-- CTRL_RING_WRITE (R421). -/
  | ctrlRingWrite (who : Requester) (off : Nat) (value : W64)
  /-- RING_SET (R422). -/
  | ringSet (c : Cmd)
  /-- SQ_DB (R425). -/
  | sqDb (slot : Nat) (value : W32)
  /-- CQ_DB (R425). -/
  | cqDb (slot : Nat) (value : W32)
  /-- CQ_ARM (R428). -/
  | cqArm (slot : Nat) (value : W32)
  /-- MOD_TIME_EXPIRY (R428). -/
  | modTimeExpiry (ring : Nat)
  /-- SESS_BIND (R433). -/
  | sessBind (c : Cmd)
  /-- SESS_UNBIND (R437). -/
  | sessUnbind (c : Cmd)
  /-- SEND_MESSAGE (R434). -/
  | sendMessage (sess : Nat) (data : Option (List Byte))
  /-- ECN_CE_RECEIVED (R432). -/
  | ecnCeReceived (sess : Nat)
  /-- CNP_RECEIVED (R432). -/
  | cnpReceived (sess : Nat)
  /-- RATE_INCREASE (R432). -/
  | rateIncrease (sess : Nat)
  /-- ETH_LINK_CHANGE (R440). -/
  | ethLinkChange (port : Nat) (up : Bool)
  /-- PTP_MESSAGE (R439). -/
  | ptpMessage (sec ns : Nat) (locked : Bool) (ppb : W32)
  /-- SNAP (R439). -/
  | snap (who : Requester)
  /-- CXL_LINK_DOWN (R430). -/
  | cxlLinkDown (port : Nat)
  /-- CXL_HOT_ADD (R430). -/
  | cxlHotAdd (port raw speed width : Nat) (type3 : Bool)
  /-- D3HOT_ENTRY (R517). -/
  | d3hotEntry
  /-- D0_RETURN (R517). -/
  | d0Return
  /-- FLIT_RECEIVE (R444). -/
  | flitReceive (link : Nat) (flit : List Byte) (corrected : Nat) (uncorrectable : Bool)
  /-- REPLAY_TIMEOUT (R444). -/
  | replayTimeout (link : Nat)
  /-- LINK_TRAINING (R445). -/
  | linkTraining (link : Nat) (hello : Bool)
  /-- TRAINING_TIMEOUT (R445). -/
  | trainingTimeout (link : Nat)
  /-- RETRAIN_RETRY (R445). -/
  | retrainRetry (link : Nat)
  /-- LINK_SILENT (R455). -/
  | linkSilent (link : Nat)
  /-- LINK_SIGNAL_LOSS (R455). -/
  | linkSignalLoss (link : Nat)
  /-- LINK_STATE (R447). -/
  | linkState (link uid flags addr req : Nat) (links : List (Nat × Nat))
  /-- ADDR_ASSIGN (R448). -/
  | addrAssign (link uid addr : Nat)
  /-- ADDR_HOLD_EXPIRY (R448). -/
  | addrHoldExpiry (uid : Nat)
  /-- TIME_EXCHANGE (R457). -/
  | timeExchange (link : Nat)
  /-- TIME (R457). -/
  | timePacket (link t1 t2 t3 t4 parentFt : Nat)
  /-- FT_SNAP (R457). -/
  | ftSnap (who : Requester)
  /-- ROUTE_ENT_WRITE (R450). -/
  | routeEntWrite (who : Requester) (value : W32)
  /-- PEDLAR_WR (R463). -/
  | pedlarWr (p : Pkt)
  /-- EGP_UPD (R464). -/
  | egpUpd (p : Pkt)
  /-- EGP_RES (R464). -/
  | egpRes (p : Pkt)
  /-- STEP_MARK (R464). -/
  | stepMark (p : Pkt)
  /-- COLL_CTRL (R461). -/
  | collCtrl (p : Pkt)
  /-- COLL_DATA (R461). -/
  | collData (p : Pkt)
  /-- COLL_COMPLETE (R461). -/
  | collComplete (group inst : Nat)
  /-- INBOX_MSG (R465). -/
  | inboxMsg (p : Pkt)
  /-- INBOX_CREDIT (R465). -/
  | inboxCredit (p : Pkt)
  /-- E2E_ACK (R454). -/
  | e2eAck (p : Pkt)
  /-- E2E_TIMEOUT (R454). -/
  | e2eTimeout (dst flow : Nat)
  /-- UNREACHABLE_TIMEOUT (R456). -/
  | unreachableTimeout (dst : Nat)
  /-- PAIR_FORGET (R454). -/
  | pairForget (src flow : Nat)
  /-- GROUP_SET (R459). -/
  | groupSet (c : Cmd)
  /-- GROUP_CLEAR (R458). -/
  | groupClear (c : Cmd)
  /-- COLL_RUN (R460). -/
  | collRun (c : Cmd)
  /-- COLL_TIMEOUT (R462). -/
  | collTimeout (group inst : Nat)
  /-- INBOX_BIND (R465). -/
  | inboxBind (c : Cmd)
  /-- INBOX_UNBIND (R465). -/
  | inboxUnbind (c : Cmd)
  /-- SESS_FWD (R466). -/
  | sessFwd (c : Cmd)
  /-- MBX_DOORBELL (R473). -/
  | mbxDoorbell (who : Requester) (value : W32)
  /-- GET_INFO (R474). -/
  | getInfo (src : Option (Nat × List Byte))
  /-- LOG_READ (R481). -/
  | logRead (src : Option (Nat × List Byte))
  /-- THRESH_SET (R476). -/
  | threshSet (src : Option (Nat × List Byte))
  /-- WIPE_POLICY (R494). -/
  | wipePolicy (src : Option (Nat × List Byte))
  /-- CAL_READ (R496). -/
  | calRead (src : Option (Nat × List Byte))
  /-- CAL_WRITE (R498). -/
  | calWrite (src : Option (Nat × List Byte)) (ok : Bool)
  /-- FW_ACTIVATE (R486). -/
  | fwActivate (src : Option (Nat × List Byte))
  /-- FW_RAISE_FLOOR (R487). -/
  | fwRaiseFloor (src : Option (Nat × List Byte)) (burns : Nat)
  /-- LC_CHALLENGE (R491). -/
  | lcChallenge (src : Option (Nat × List Byte)) (nonce : List Byte)
  /-- NONCE_EXPIRY (R491). -/
  | nonceExpiry
  /-- LC_TRANSITION (R492). -/
  | lcTransition (src : Option (Nat × List Byte)) (burned : Bool)
  /-- POWER_LIMIT_SET (R501). -/
  | powerLimitSet (src : Option (Nat × List Byte))
  /-- MCTP_CONTROL (R482). -/
  | mctpControl (transport : Nat) (msg : List Byte)
  /-- PLDM_SENSOR_READ (R482). -/
  | pldmSensorRead (transport : Nat) (msg : List Byte)
  /-- REQUEST_FIRMWARE_DATA (R485). -/
  | requestFirmwareData (transport : Nat) (start : Bool) (off : Nat) (data : List Byte)
  /-- VERIFY_COMPLETE (R485). -/
  | verifyComplete (transport : Nat)
  /-- ACTIVATE_FIRMWARE (R485). -/
  | activateFirmware (transport : Nat)
  /-- SPDM_REQUEST (R488). -/
  | spdmRequest (transport : Nat) (msg rnd : List Byte)
  /-- SENSOR_SAMPLE (R475). -/
  | sensorSample (therm volt : List Int)
  /-- THERMAL_DUTY_UPDATE (R476). -/
  | thermalDutyUpdate
  /-- POWER_DUTY_UPDATE (R477). -/
  | powerDutyUpdate (p vin iin : Nat)
  /-- OVERCURRENT (R477). -/
  | overcurrent
  /-- LOG_FLUSH_TIMEOUT (R480). -/
  | logFlushTimeout
  /-- LOG_PAGE_WRITTEN (R480). -/
  | logPageWritten
  /-- BOOT_WATCHDOG (R484). -/
  | bootWatchdog
  /-- TAP_INSTRUCTION (R499). -/
  | tapInstruction (code : Nat) (op : TapOp)
  /-- DEVICE_WARM (R507). -/
  | deviceWarm (who : Requester)
  /-- DEVICE_COLD (R507). -/
  | deviceCold (who : Requester)
  /-- DIE (R507). -/
  | dieReset (who : Requester) (target : Nat)
  /-- CLUSTER (R507). -/
  | clusterReset (who : Requester) (target : Nat)
  /-- CORE (R507). -/
  | coreReset (who : Requester) (target : Nat)
  /-- RESET_PHASE_COMPLETE (R510). -/
  | resetPhaseComplete (micros : Nat) (trained : List Block) (cxl : List (Nat × Nat × Nat × Nat)) (fails wipes : List Nat)
  /-- UNIT_RESET_COMPLETE (R512). -/
  | unitResetComplete (scope : Scope) (fail : Option Nat)
  /-- CXL_TRAIN_TIMEOUT (R510). -/
  | cxlTrainTimeout (port : Nat)
  /-- VAUX_RISE (R507). -/
  | vauxRise
  /-- VAUX_LOSS (R514). -/
  | vauxLoss
  /-- VIN_LOSS (R514). -/
  | vinLoss (mv : Nat)
  /-- VIN_OV (R514). -/
  | vinOv (mv : Nat)
  /-- VIN_RETURN (R514). -/
  | vinReturn
  /-- REFCLK_LOSS (R503). -/
  | refclkLoss
  /-- REFCLK_RETURN (R503). -/
  | refclkReturn
  /-- COLD_RST_N (R507). -/
  | coldRstN (low : Bool)
  /-- PERST_N (R507). -/
  | perstN (low : Bool)
  /-- PCIE_HOT_RESET (R507). -/
  | pcieHotReset
  /-- EVENT_RECORD_INTAKE (R529). -/
  | eventRecordIntake
  /-- EVENT_BATCH_TIMEOUT (R532). -/
  | eventBatchTimeout (q : Nat)
  /-- ARM (R531). -/
  | armWrite (who : Requester) (q : Nat) (value : W32)
  /-- QUEUE_CFG_WRITE (R543). -/
  | queueCfgWrite (who : Requester) (q : Nat) (value : W32)
  /-- HW_ERROR (R533). -/
  | hwError (b : Block) (code loc : Nat)
  /-- ONLINE (R534). -/
  | onlineWrite (who : Requester) (value : W32)
  /-- VIN_RISE (R514). -/
  | vinRise
  /-- MSIX_VECTOR_UNMASK (R427). -/
  | msixVectorUnmask (off : Nat) (value : W32)
  /-- ATS_PRI_ENABLE (R420). -/
  | atsPriEnable (ats pri : Bool)
  /-- RESIZABLE_BAR (R47). -/
  | resizableBar (log2 : Nat)
  /-- ILLEGAL_INSTR (R27). -/
  | illegalInstr (core : Nat)
  /-- ROCE_ACK (R438). -/
  | roceAck (sess psn : Nat) (kind : AckKind)
  /-- LOCAL_ACK_TIMEOUT (R432). -/
  | localAckTimeout (sess : Nat)
  /-- NON_ROCE_FRAME (R431). -/
  | nonRoceFrame (port : Nat)
  /-- HELLO_TRANSMIT (R445). -/
  | helloTransmit (link : Nat)
  deriving DecidableEq, Repr

end Sys2Proof
end

