-- ==== Sys2Proof/Config.lean ====
section
/-! DEFINITION. What an implementation fixes and what the spec leaves open.  The opaque constants have
no body, so that nothing can be proved of their values: they are the model's free values. -/

namespace Sys2Proof.Config

/-- A value the spec leaves open, one per use; the step reads and advances the counter `Io.free`
(log entry 2). -/
opaque freeValue : Nat → W64

/-- What a byte of a tier that no wipe has zeroed reads as before it is written, `g` key generations and losses of power on:
R408 says that tiers 2 and 3 decrypt to values that cannot be predicted (log entry 6). -/
opaque wipedByte : (g addr : Nat) → Byte

/-- The FP32 bits of VT.* EXP of a finite ordinary argument: within 1 ulp, the exact result is not
stated (log entry 7). -/
opaque expBits : W32 → W32

/-- The FP32 bits of LOG1P of an ordinary argument, within 1 ulp (log entry 7). -/
opaque log1pBits : W32 → W32

/-- SHA-384 of a message, which the spec names by its standard (log entry 8). -/
opaque sha384 : List Byte → List Byte

/-- Whether an ECDSA P-384 signature verifies, as its standard defines it (log entry 8). -/
opaque ecdsaVerify : (key msg sig : List Byte) → Bool

/-- The ECDSA P-384 signature that the device's key makes of a message (log entry 8). -/
opaque deviceSign : List Byte → List Byte

/-- The CRC that the spec names by its standard polynomial only (log entry 8). -/
opaque crcOf : List Byte → W32

/-- Byte `i` of a stretch of data that the spec leaves open, under the free value taken for it (log entry 2). -/
opaque freeByte : (v : W64) → (i : Nat) → Byte

/-- The device UID, from fuses (Table 2.12, log entry 3). -/
opaque deviceUid : W64

/-- The silicon stepping, from fuses (Table 2.12, log entry 3). -/
opaque stepping : Byte

/-- The vendor public keys of the four fuse slots (R483; the image header does not carry the key, log entry 8). -/
opaque vendorKey : Nat → List Byte

/-- The contents of the Factor ROM, which measurement 1 digests (Table 18.6). -/
opaque factorRom : List Byte

/-- The bytes of certificate chain `slot` for the booted image (R488; the spec does not give them, log entry 8). -/
opaque certChain : (slot : Nat) → (image : List Byte) → List Byte

end Sys2Proof.Config
end

