-- ==== Sys2Proof/Machine/Num.lean ====
section
/-! DEFINITION. Element types, floating-point values, rounding, conversion and MX blocks: R52 to R63.
A finite value is held exactly as a sign, a natural significand and an exponent of two. -/

namespace Sys2Proof.Num

/-- Element type codes of Table 3.1. -/
abbrev U8 : Nat := 0x01
abbrev I8 : Nat := 0x02
abbrev U16 : Nat := 0x03
abbrev I16 : Nat := 0x04
abbrev U32 : Nat := 0x05
abbrev I32 : Nat := 0x06
abbrev U64 : Nat := 0x07
abbrev I64 : Nat := 0x08
abbrev FP64 : Nat := 0x10
abbrev FP32 : Nat := 0x11
abbrev BF16 : Nat := 0x12
abbrev FP16 : Nat := 0x13
abbrev E4M3 : Nat := 0x14
abbrev E5M2 : Nat := 0x15
abbrev MXE4M3 : Nat := 0x20
abbrev MXE5M2 : Nat := 0x21
abbrev MXE3M2 : Nat := 0x22
abbrev MXE2M3 : Nat := 0x23
abbrev MXE2M1 : Nat := 0x24
abbrev MXINT8 : Nat := 0x25
abbrev E8M0 : Nat := 0x28

/-- Width in bits of an element (Table 3.1); 0 for a reserved code. -/
def width (et : Nat) : Nat :=
  match et with
  | 0x01 | 0x02 => 8
  | 0x03 | 0x04 => 16
  | 0x05 | 0x06 => 32
  | 0x07 | 0x08 => 64
  | 0x10 => 64
  | 0x11 => 32
  | 0x12 | 0x13 => 16
  | 0x14 | 0x15 => 8
  | 0x20 | 0x21 => 8
  | 0x22 | 0x23 => 6
  | 0x24 => 4
  | 0x25 | 0x28 => 8
  | _ => 0

/-- Whether a code is listed in Table 3.1 (R52). -/
def valid (et : Nat) : Bool := decide (width et ≠ 0)

/-- Integer types. -/
def isInt (et : Nat) : Bool := decide (1 ≤ et) && decide (et ≤ 8)

/-- Signed integer types: the even codes. -/
def isSigned (et : Nat) : Bool := isInt et && decide (et % 2 = 0)

/-- Scalar floating-point types. -/
def isFloat (et : Nat) : Bool := decide (0x10 ≤ et) && decide (et ≤ 0x15)

/-- MX block types. -/
def isMx (et : Nat) : Bool := decide (0x20 ≤ et) && decide (et ≤ 0x25)

/-- A floating-point layout (Table 3.2): exponent and mantissa widths, bias, whether it has infinities,
and its NaN codes: 0 none, 1 the all-ones code only, 2 as IEEE 754. -/
structure Fmt where
  eb : Nat
  mb : Nat
  bias : Nat
  inf : Bool
  nan : Nat
  deriving DecidableEq, Repr

/-- Table 3.2, by element type; MX types give their element encoding. -/
def fmtOf (et : Nat) : Fmt :=
  match et with
  | 0x10 => ⟨11, 52, 1023, true, 2⟩
  | 0x11 => ⟨8, 23, 127, true, 2⟩
  | 0x12 => ⟨8, 7, 127, true, 2⟩
  | 0x13 => ⟨5, 10, 15, true, 2⟩
  | 0x14 | 0x20 => ⟨4, 3, 7, false, 1⟩
  | 0x15 | 0x21 => ⟨5, 2, 15, true, 2⟩
  | 0x22 => ⟨3, 2, 3, false, 0⟩
  | 0x23 => ⟨2, 3, 1, false, 0⟩
  | _ => ⟨2, 1, 1, false, 0⟩

/-- A value: NaN, an infinity, or (−1)^neg × m × 2^e. -/
inductive FVal where
  | nan
  | inf (neg : Bool)
  | fin (neg : Bool) (m : Nat) (e : Int)
  deriving DecidableEq, Repr

/-- Floating-point exception flags of one operation. -/
structure FFlags where
  nv : Bool := false
  dz : Bool := false
  of : Bool := false
  uf : Bool := false
  nx : Bool := false
  deriving DecidableEq, Repr

/-- Flags accumulate. -/
def FFlags.or (a b : FFlags) : FFlags := ⟨a.nv || b.nv, a.dz || b.dz, a.of || b.of, a.uf || b.uf, a.nx || b.nx⟩

/-- The value of a code (R53, Table 3.2). -/
def decodeF (f : Fmt) (bits : Nat) : FVal :=
  let neg := bitOf bits (f.eb + f.mb)
  let e := bitsOf bits (f.eb + f.mb - 1) f.mb
  let m := bits % 2 ^ f.mb
  let top := 2 ^ f.eb - 1
  if f.nan = 2 ∧ e = top then (if m = 0 then .inf neg else .nan)
  else if f.nan = 1 ∧ e = top ∧ m = 2 ^ f.mb - 1 then .nan
  else if e = 0 then .fin neg m (1 - (f.bias : Int) - f.mb)
  else .fin neg (2 ^ f.mb + m) ((e : Int) - f.bias - f.mb)

/-- Whether a code is a signalling NaN: an IEEE NaN whose top mantissa bit is clear (R61). -/
def isSNaN (f : Fmt) (bits : Nat) : Bool :=
  decide (f.nan = 2) && decide (decodeF f bits = .nan) && !bitOf bits (f.mb - 1)

/-- The canonical quiet NaN of a layout (R61); the largest finite value where it has none. -/
def canonNaN (f : Fmt) : Nat :=
  if f.nan = 2 then (2 ^ f.eb - 1) * 2 ^ f.mb + 2 ^ (f.mb - 1)
  else 2 ^ (f.eb + f.mb) - 1

/-- Magnitude code of the largest finite value (Table 3.2). -/
def maxCode (f : Fmt) : Nat :=
  if f.nan = 2 then (2 ^ f.eb - 1) * 2 ^ f.mb - 1
  else if f.nan = 1 then 2 ^ (f.eb + f.mb) - 2
  else 2 ^ (f.eb + f.mb) - 1

/-- The number of bits of a natural number, looked for up to `fuel`. -/
def bitLenFrom (n : Nat) : Nat → Nat → Nat
  | 0, k => k
  | fuel + 1, k => if n < 2 ^ k then k else bitLenFrom n fuel (k + 1)

/-- The number of bits of a natural number. -/
def bitLen (n : Nat) : Nat := if n = 0 then 0 else Nat.log2 n + 1

/-- Round `m / 2^sh` to an integer under a rounding mode (Table 3.4). -/
def roundShift (rm : Nat) (neg : Bool) (m sh : Nat) : Nat :=
  let q := m / 2 ^ sh
  let r := m % 2 ^ sh
  if r = 0 then q
  else match rm with
    | 0 => if 2 * r < 2 ^ sh then q else if 2 * r = 2 ^ sh then q + q % 2 else q + 1
    | 1 => q
    | 2 => if neg then q + 1 else q
    | _ => if neg then q else q + 1

/-- The overflow result (Table 3.4): infinity or the largest finite value. -/
def overflowCode (f : Fmt) (rm : Nat) (sat neg : Bool) : Nat :=
  let toInf := !sat && f.inf && (match rm with
    | 0 => true
    | 1 => false
    | 2 => neg
    | _ => !neg)
  if toInf then (2 ^ f.eb - 1) * 2 ^ f.mb else maxCode f

/-- Sign bit of a layout. -/
def signBit (f : Fmt) (neg : Bool) : Nat := if neg then 2 ^ (f.eb + f.mb) else 0

/-- Round a value to a layout once (R58, R59): the code and the flags it raises. -/
def encodeF (f : Fmt) (rm : Nat) (sat : Bool) (v : FVal) : Nat × FFlags :=
  match v with
  | .nan => (canonNaN f, {})
  | .inf neg =>
    if f.inf then (signBit f neg + (2 ^ f.eb - 1) * 2 ^ f.mb, {})
    else if sat then (signBit f neg + maxCode f, {})
    else (canonNaN f, {})
  | .fin neg 0 _ => (signBit f neg, {})
  | .fin neg m e =>
    let top : Int := e + bitLen m - 1
    let emin : Int := 1 - f.bias
    let q : Int := max top emin - f.mb
    let exact := decide (q ≤ e) || decide (m % 2 ^ (q - e).toNat = 0)
    let r := if q ≤ e then m * 2 ^ (e - q).toNat else roundShift rm neg m (q - e).toNat
    let code :=
      if r < 2 ^ f.mb then r
      else (q + f.mb + f.bias).toNat * 2 ^ f.mb + (r - 2 ^ f.mb)
    if maxCode f < code then (signBit f neg + overflowCode f rm sat neg, { of := true, nx := true })
    else (signBit f neg + code, { uf := decide (top < emin) && !exact, nx := !exact })

/-- Negate a value. -/
def negV : FVal → FVal
  | .nan => .nan
  | .inf n => .inf (!n)
  | .fin n m e => .fin (!n) m e

/-- Absolute value. -/
def absV : FVal → FVal
  | .nan => .nan
  | .inf _ => .inf false
  | .fin _ m e => .fin false m e

/-- The signed integer significand of a finite value at a common exponent `e0 ≤ e`. -/
def sigAt (neg : Bool) (m : Nat) (e e0 : Int) : Int :=
  let z : Int := (m * 2 ^ (e - e0).toNat : Nat)
  if neg then -z else z

/-- Exact sum; the flag says that the operation was invalid (∞ − ∞).  A zero sum of unlike signs is −0
only when rounding toward −∞. -/
def addV (rm : Nat) (a b : FVal) : FVal × Bool :=
  match a, b with
  | .nan, _ => (.nan, false)
  | _, .nan => (.nan, false)
  | .inf n, .inf k => if n = k then (.inf n, false) else (.nan, true)
  | .inf n, _ => (.inf n, false)
  | _, .inf k => (.inf k, false)
  | .fin n m e, .fin k p g =>
    let e0 := min e g
    let z := sigAt n m e e0 + sigAt k p g e0
    if z = 0 then
      (.fin (if m = 0 ∧ p = 0 ∧ n = k then n else decide (rm = 2)) 0 e0, false)
    else (.fin (decide (z < 0)) z.natAbs e0, false)

/-- Exact product; the flag says that the operation was invalid (0 × ∞). -/
def mulV (a b : FVal) : FVal × Bool :=
  match a, b with
  | .nan, _ => (.nan, false)
  | _, .nan => (.nan, false)
  | .inf n, .inf k => (.inf (n != k), false)
  | .inf n, .fin k p _ => if p = 0 then (.nan, true) else (.inf (n != k), false)
  | .fin n m _, .inf k => if m = 0 then (.nan, true) else (.inf (n != k), false)
  | .fin n m e, .fin k p g => (.fin (n != k) (m * p) (e + g), false)

/-- Quotient to well over any layout's precision with a sticky last bit; flags: invalid, division by zero. -/
def divV (a b : FVal) : FVal × Bool × Bool :=
  match a, b with
  | .nan, _ => (.nan, false, false)
  | _, .nan => (.nan, false, false)
  | .inf _, .inf _ => (.nan, true, false)
  | .inf n, .fin k _ _ => (.inf (n != k), false, false)
  | .fin n _ _, .inf k => (.fin (n != k) 0 0, false, false)
  | .fin n m e, .fin k p g =>
    if p = 0 then (if m = 0 then (.nan, true, false) else (.inf (n != k), false, true))
    else if m = 0 then (.fin (n != k) 0 0, false, false)
    else
      let sh := bitLen p + 70
      let q := m * 2 ^ sh / p
      let r := m * 2 ^ sh % p
      (.fin (n != k) (2 * q + (if r = 0 then 0 else 1)) (e - g - sh - 1), false, false)

/-- Integer square root, bit by bit from bit `k` down. -/
def isqrtBits (n : Nat) : Nat → Nat → Nat
  | 0, r => r
  | k + 1, r => if (r + 2 ^ k) * (r + 2 ^ k) ≤ n then isqrtBits n k (r + 2 ^ k) else isqrtBits n k r

/-- Integer square root. -/
def isqrt (n : Nat) : Nat := isqrtBits n (bitLen n / 2 + 1) 0

/-- Square root with a sticky last bit; the flag says that the operation was invalid. -/
def sqrtV (a : FVal) : FVal × Bool :=
  match a with
  | .nan => (.nan, false)
  | .inf n => if n then (.nan, true) else (.inf false, false)
  | .fin n m e =>
    if m = 0 then (.fin n 0 0, false)
    else if n then (.nan, true)
    else
      let odd := decide (e % 2 ≠ 0)
      let m1 := (if odd then 2 * m else m) * 2 ^ 140
      let e1 := (if odd then e - 1 else e) - 140
      let r := isqrt m1
      (.fin false (2 * r + (if r * r = m1 then 0 else 1)) (e1 / 2 - 1), false)

/-- Compare two values that are not NaN: −0 and +0 are equal (R63). -/
def cmpV (a b : FVal) : Ordering :=
  match a, b with
  | .inf n, .inf k => if n = k then .eq else if n then .lt else .gt
  | .inf n, _ => if n then .lt else .gt
  | _, .inf k => if k then .gt else .lt
  | .fin n m e, .fin k p g =>
    let e0 := min e g
    let x := sigAt n m e e0
    let y := sigAt k p g e0
    if x < y then .lt else if x = y then .eq else .gt
  | _, _ => .eq

/-- Whether a value is NaN. -/
def isNaN : FVal → Bool
  | .nan => true
  | _ => false

/-- Whether a value is negative (its sign, for zero and infinity too). -/
def negOf : FVal → Bool
  | .nan => false
  | .inf n => n
  | .fin n _ _ => n

/-- Whether a value is zero. -/
def isZero : FVal → Bool
  | .fin _ 0 _ => true
  | _ => false

/-- The exact value of an integer. -/
def ofInt (z : Int) : FVal := .fin (decide (z < 0)) z.natAbs 0

/-- A finite value rounded to an integer under a rounding mode. -/
def roundInt (rm : Nat) (neg : Bool) (m : Nat) (e : Int) : Int :=
  let r : Nat := if 0 ≤ e then m * 2 ^ e.toNat else roundShift rm neg m (-e).toNat
  if neg then -(r : Int) else r

/-- The least and largest value of an integer type. -/
def intMin (et : Nat) : Int := if isSigned et then -((2 ^ (width et - 1) : Nat) : Int) else 0
def intMax (et : Nat) : Int :=
  if isSigned et then ((2 ^ (width et - 1) : Nat) : Int) - 1 else ((2 ^ width et : Nat) : Int) - 1

/-- The integer that a code of an integer type stands for. -/
def intOf (et bits : Nat) : Int :=
  if isSigned et then signed (width et) bits else ((bits % 2 ^ width et : Nat) : Int)

/-- The code of an integer in a type, truncated or clamped (R59, R62). -/
def intCode (et : Nat) (sat : Bool) (z : Int) : Nat :=
  let z := if sat then (if z < intMin et then intMin et else if intMax et < z then intMax et else z) else z
  unsignedOf (width et) z

/-- Float to integer (R59): out of range clamps, NaN gives 0, and either sets INVALID. -/
def toInt (et rm : Nat) (v : FVal) : Nat × FFlags :=
  match v with
  | .nan => (0, { nv := true })
  | .inf n => (intCode et true (if n then intMin et else intMax et), { nv := true })
  | .fin n m e =>
    let z := roundInt rm n m e
    let exact := decide (0 ≤ e) || decide (m % 2 ^ (-e).toNat = 0)
    if z < intMin et ∨ intMax et < z then (intCode et true z, { nv := true })
    else (unsignedOf (width et) z, { nx := !exact })

/-- The value of an E8M0 byte (R56). -/
def e8m0 (s : Nat) : FVal := if s = 0xFF then .nan else .fin false 1 ((s : Int) - 127)

/-- Into E8M0 (R59). -/
def toE8m0 (rm : Nat) (sat : Bool) (v : FVal) : Nat × FFlags :=
  match v with
  | .nan => (0xFF, {})
  | .inf n => if n then (0xFF, { nv := true }) else (if sat then 0xFE else 0xFF, {})
  | .fin _ 0 _ => (0x00, { uf := true })
  | .fin true _ _ => (0xFF, { nv := true })
  | .fin false m e =>
    let k : Int := e + bitLen m - 1
    let frac := m - 2 ^ (bitLen m - 1)
    let half := 2 ^ (bitLen m - 1)
    let up := match rm with
      | 0 => if 2 * frac < half then false else if 2 * frac = half then decide ((k + 127) % 2 ≠ 0) else true
      | 3 => decide (frac ≠ 0)
      | _ => false
    let r : Int := if up then k + 1 else k
    if 127 < r then (0xFE, { of := true })
    else if r < -127 then (0x00, { uf := true })
    else ((r + 127).toNat, {})

/-- The value of a scalar element code: integers exactly, floats by layout, E8M0 as a scale. -/
def value (et bits : Nat) : FVal :=
  if isInt et then ofInt (intOf et bits)
  else if et = E8M0 then e8m0 bits
  else decodeF (fmtOf et) bits

/-- The value of an MX element code under its scale byte (R56). -/
def mxValue (et scale bits : Nat) : FVal :=
  if scale = 0xFF then .nan
  else
    let v := if et = MXINT8 then
        (match ofInt (signed 8 bits) with
         | .fin n m e => .fin n m (e - 6)
         | x => x)
      else decodeF (fmtOf et) bits
    match v with
    | .fin n m e => .fin n m (e + scale - 127)
    | x => x

/-- Conversion of a scalar code between non-MX types (R59). -/
def convert (src dst rm : Nat) (sat : Bool) (bits : Nat) : Nat × FFlags :=
  let sn : FFlags := { nv := isFloat src && isSNaN (fmtOf src) bits }
  if isInt src then
    if isInt dst then (intCode dst sat (intOf src bits), {})
    else if dst = E8M0 then toE8m0 rm sat (value src bits)
    else encodeF (fmtOf dst) rm sat (value src bits)
  else
    let v := value src bits
    if isInt dst then
      let (r, f) := toInt dst rm v
      (r, f.or sn)
    else if dst = E8M0 then
      let (r, f) := toE8m0 rm sat v
      (r, f.or sn)
    else
      let (r, f) := encodeF (fmtOf dst) rm sat v
      (r, f.or sn)

/-- Table 3.3: emax and the code of maxv. -/
def mxEmax (et : Nat) : Int :=
  match et with
  | 0x20 => 8
  | 0x21 => 15
  | 0x22 => 4
  | 0x23 => 2
  | 0x24 => 2
  | _ => 0

/-- One element of a quantised block: the value scaled by 2^−e, rounded to nearest even and clamped to
±maxv (R57). -/
def mxElem (et : Nat) (e : Int) (v : FVal) : Nat :=
  match v with
  | .fin n m x =>
    if et = MXINT8 then
      let z := roundInt 0 n m (x - e + 6)
      unsignedOf 8 (if z < -127 then -127 else if 127 < z then 127 else z)
    else (encodeF (fmtOf et) 0 true (.fin n m (x - e))).1
  | _ => 0

/-- The fixed element code of a block that holds a NaN or an infinity (R57). -/
def mxNonfinite (et : Nat) : Nat := if et = MXE4M3 then 0x7F else if et = MXE5M2 then 0x7E else 0

/-- floor(log2) of a non-zero finite value. -/
def floorLog2 : FVal → Int
  | .fin _ m e => e + bitLen m - 1
  | _ => 0

/-- Quantise 32 values into one MX block: scale byte, element codes, and whether it was non-finite (R57). -/
def mxBlock (et : Nat) (vs : List FVal) : Nat × List Nat × Bool :=
  if vs.any (fun v => match v with
      | .fin _ _ _ => false
      | _ => true) then (0xFF, vs.map (fun _ => mxNonfinite et), true)
  else
    let amax := vs.foldl (fun a v => if cmpV a (absV v) == .lt then absV v else a) (.fin false 0 0)
    if isZero amax then (0x7F, vs.map (fun _ => 0), false)
    else
      let e := floorLog2 amax - mxEmax et
      let e := if e < -127 then -127 else if 127 < e then 127 else e
      ((e + 127).toNat, vs.map (mxElem et e), false)

/-- Canonical form of a key field's code: −0 becomes +0 and every NaN the canonical NaN (R64). -/
def canonKey (et bits : Nat) : Nat :=
  if isFloat et then
    match decodeF (fmtOf et) bits with
    | .nan => canonNaN (fmtOf et)
    | .fin _ 0 _ => 0
    | _ => bits % 2 ^ width et
  else bits % 2 ^ width et

end Sys2Proof.Num
end

