-- ==== Sys2Proof/Machine/Flags.lean ====
section
/-! DEFINITION. Floating-point operations on codes with the flags that they raise (R58 to R63, R153 to R155):
every flag computation of the device. -/

namespace Sys2Proof.Machine

open Sys2Proof.Num

/-- The FSTAT bits of raised flags (Table 6.6): INVALID, DIVZERO, OVERFLOW, UNDERFLOW, INEXACT. -/
def flagBits (f : FFlags) : Nat := b2n f.nv + 2 * b2n f.dz + 4 * b2n f.of + 8 * b2n f.uf + 16 * b2n f.nx

/-- INVALID of a signalling NaN among the operands (R61). -/
def snanFlag (et : Nat) (xs : List Nat) : FFlags := { nv := xs.any (fun x => isSNaN (fmtOf et) x) }

/-- Round a value to a float type, with extra flags. -/
def roundTo (et rm : Nat) (sat : Bool) (v : FVal) (f : FFlags) : Nat × FFlags :=
  let (c, g) := encodeF (fmtOf et) rm sat v
  (c, g.or f)

/-- d = a + b, rounded once. -/
def fAdd (et rm : Nat) (sat : Bool) (a b : Nat) : Nat × FFlags :=
  let (v, bad) := addV rm (value et a) (value et b)
  roundTo et rm sat v ((snanFlag et [a, b]).or { nv := bad })

/-- d = a − b, rounded once. -/
def fSub (et rm : Nat) (sat : Bool) (a b : Nat) : Nat × FFlags :=
  let (v, bad) := addV rm (value et a) (negV (value et b))
  roundTo et rm sat v ((snanFlag et [a, b]).or { nv := bad })

/-- d = a × b, rounded once. -/
def fMul (et rm : Nat) (sat : Bool) (a b : Nat) : Nat × FFlags :=
  let (v, bad) := mulV (value et a) (value et b)
  roundTo et rm sat v ((snanFlag et [a, b]).or { nv := bad })

/-- d = a × b + c, rounded once. -/
def fFma (et rm : Nat) (sat : Bool) (a b c : Nat) : Nat × FFlags :=
  let (p, bad) := mulV (value et a) (value et b)
  let (v, bad2) := addV rm p (value et c)
  roundTo et rm sat v ((snanFlag et [a, b, c]).or { nv := bad || bad2 })

/-- d = a ÷ b, correctly rounded. -/
def fDiv (et rm : Nat) (sat : Bool) (a b : Nat) : Nat × FFlags :=
  let (v, bad, dz) := divV (value et a) (value et b)
  roundTo et rm sat v ((snanFlag et [a, b]).or { nv := bad, dz := dz })

/-- d = √a, correctly rounded. -/
def fSqrt (et rm : Nat) (sat : Bool) (a : Nat) : Nat × FFlags :=
  let (v, bad) := sqrtV (value et a)
  roundTo et rm sat v ((snanFlag et [a]).or { nv := bad })

/-- ABS and NEG change the sign bit alone; a NaN gives the canonical quiet NaN (Table 6.7). -/
def fSign (et : Nat) (neg : Bool) (a : Nat) : Nat × FFlags :=
  let top := 2 ^ (width et - 1)
  if isNaN (value et a) then (canonNaN (fmtOf et), snanFlag et [a])
  else if neg then (if bitOf a (width et - 1) then a - top else a + top, {})
  else (a % top, {})

/-- MIN and MAX under ORD_MINMAX (Table 3.5). -/
def fMinMax (et : Nat) (mx : Bool) (a b : Nat) : Nat × FFlags :=
  let x := value et a
  let y := value et b
  let f := snanFlag et [a, b]
  if isNaN x ∧ isNaN y then (canonNaN (fmtOf et), f)
  else if isNaN x then (b, f)
  else if isNaN y then (a, f)
  else match cmpV x y with
    | .lt => (if mx then b else a, f)
    | .gt => (if mx then a else b, f)
    | .eq => (if isZero x ∧ negOf x ≠ negOf y then (if negOf x = mx then b else a) else a, f)

/-- A comparison under ORD_IEEE (Table 3.5): codes 0 EQ, 1 NE, 2 LT, 3 LE, 4 GT, 5 GE. -/
def fCompare (et op a b : Nat) : Bool × FFlags :=
  let x := value et a
  let y := value et b
  let f := snanFlag et [a, b]
  if isNaN x ∨ isNaN y then (op == 1, f)
  else
    let o := cmpV x y
    (match op with
     | 0 => o == .eq
     | 1 => !(o == .eq)
     | 2 => o == .lt
     | 3 => !(o == .gt)
     | 4 => o == .gt
     | _ => !(o == .lt), f)

/-- The same comparison of integers under the signedness of their type. -/
def iCompare (et op a b : Nat) : Bool :=
  let x := intOf et a
  let y := intOf et b
  match op with
  | 0 => x == y
  | 1 => !(x == y)
  | 2 => decide (x < y)
  | 3 => decide (x ≤ y)
  | 4 => decide (y < x)
  | _ => decide (y ≤ x)

/-- FP32 addition, fused multiply-add and division to nearest even without status (R58, R258). -/
def rne32Add (a b : Nat) : Nat := (fAdd FP32 0 false a b).1
def rne32Fma (a b c : Nat) : Nat := (fFma FP32 0 false a b c).1
def rne32Div (a b : Nat) : Nat := (fDiv FP32 0 false a b).1

/-- A value rounded to FP32, nearest even. -/
def toF32 (v : FVal) : Nat := (encodeF (fmtOf FP32) 0 false v).1

/-- A value rounded to FP64, nearest even. -/
def toF64 (v : FVal) : Nat := (encodeF (fmtOf FP64) 0 false v).1

/-- FP32 1.0 and the FP32 code of a natural number. -/
def one32 : Nat := 0x3F800000
def natF32 (n : Nat) : Nat := toF32 (ofInt n)

end Sys2Proof.Machine
end

