-- ==== Sys2Proof/Machine/RegTable.lean ====
section
/-! DEFINITION. The block-specific registers of every page of BAR0, transcribed from the register
tables of the spec: Tables 2.12, 2.14, 5.8–5.10, 6.13–6.14, 8.10–8.12, 9.8–9.9, 10.6–10.9,
12.6–12.7, 13.13–13.17, 14.10–14.11, 15.6–15.9, 16.7–16.9, 17.8–17.11, 18.11–18.13, 19.16–19.17
and 20.6–20.8.  A register is given by its offset from the block's first page, the number of
copies and their distance, whether it is the `_LO` half of a 64-bit pair (R42), and its fields;
reserved bits have no field.  A field whose Reset column is `—` carries 0 here: fuses, training
results and windows, which other definitions supply (`Regs.live`, log entry 3). -/

namespace Sys2Proof.Machine

/-- Access kinds of R11; reserved bits have no field and read zero. -/
inductive Access where
  | ro | rw | w1c | w1s | rc | wo
  deriving DecidableEq, Repr

/-- A field of a 32-bit register: bits `hi` to `lo`, its access kind and its reset value. -/
structure Field where
  hi : Nat
  lo : Nat
  acc : Access
  rst : Nat
  deriving DecidableEq, Repr

/-- One register of a block, or `count` copies of it `stride` bytes apart. -/
structure RegSpec where
  off : Nat
  count : Nat
  stride : Nat
  pairLo : Bool
  flds : List Field
  deriving DecidableEq, Repr

/-- Registers of the glb block (Table 2.12). -/
def glbRegs : List RegSpec := [
  ⟨0x40, 1, 0x0, false, [⟨23,16,.ro,1⟩, ⟨15,8,.ro,2⟩, ⟨7,0,.ro,0⟩]⟩,
  ⟨0x44, 1, 0x0, false, [⟨23,20,.ro,1⟩, ⟨19,16,.ro,1⟩, ⟨15,12,.ro,1⟩, ⟨11,8,.ro,6⟩, ⟨7,4,.ro,1⟩, ⟨3,0,.ro,0xc⟩]⟩,
  ⟨0x48, 1, 0x0, true, [⟨31,0,.ro,0⟩]⟩,
  ⟨0x4c, 1, 0x0, false, [⟨31,0,.ro,0⟩]⟩,
  ⟨0x50, 1, 0x0, false, [⟨20,16,.ro,0xe⟩, ⟨12,8,.ro,0x10⟩, ⟨4,0,.ro,0xc⟩]⟩,
  ⟨0x54, 1, 0x0, false, [⟨31,24,.rw,0⟩, ⟨23,16,.rw,0⟩, ⟨15,0,.rw,0⟩]⟩,
  ⟨0x58, 1, 0x0, true, [⟨31,0,.ro,0⟩]⟩,
  ⟨0x5c, 1, 0x0, false, [⟨31,0,.ro,0⟩]⟩,
  ⟨0x60, 1, 0x0, false, [⟨31,24,.ro,0⟩, ⟨23,16,.ro,0⟩, ⟨1,0,.ro,0⟩]⟩,
  ⟨0x64, 1, 0x0, false, [⟨5,5,.ro,0⟩, ⟨4,2,.ro,0⟩, ⟨1,1,.ro,0⟩, ⟨0,0,.ro,0⟩]⟩,
  ⟨0x68, 1, 0x0, false, [⟨31,0,.rw,0⟩]⟩,
  ⟨0x1040, 1, 0x0, false, [⟨5,0,.ro,0⟩]⟩,
  ⟨0x1048, 16, 0x8, true, [⟨31,26,.rw,0⟩, ⟨0,0,.rw,0⟩]⟩,
  ⟨0x104c, 16, 0x8, false, [⟨19,0,.rw,0⟩]⟩]

/-- Registers of the clkrst block (Table 19.17). -/
def clkrstRegs : List RegSpec := [
  ⟨0x40, 1, 0x0, false, [⟨31,28,.wo,0⟩, ⟨7,0,.wo,0⟩]⟩,
  ⟨0x44, 1, 0x0, false, [⟨31,28,.ro,5⟩, ⟨27,24,.ro,0⟩, ⟨7,0,.ro,0⟩]⟩,
  ⟨0x48, 1, 0x0, false, [⟨31,31,.ro,0⟩, ⟨30,30,.ro,0⟩, ⟨29,29,.ro,0⟩, ⟨4,0,.ro,0⟩]⟩,
  ⟨0x60, 7, 0x4, false, [⟨31,0,.ro,0⟩]⟩,
  ⟨0x80, 1, 0x0, false, [⟨31,0,.rc,0⟩]⟩,
  ⟨0x84, 1, 0x0, false, [⟨31,0,.rc,0⟩]⟩,
  ⟨0x88, 1, 0x0, true, [⟨31,0,.ro,0⟩]⟩,
  ⟨0x8c, 1, 0x0, false, [⟨31,0,.ro,0⟩]⟩,
  ⟨0x90, 1, 0x0, true, [⟨31,0,.ro,0⟩]⟩,
  ⟨0x94, 1, 0x0, false, [⟨31,0,.ro,0⟩]⟩]

/-- Registers of the time block (Table 16.8). -/
def timeRegs : List RegSpec := [
  ⟨0x40, 1, 0x0, true, [⟨31,0,.ro,0⟩]⟩,
  ⟨0x44, 1, 0x0, false, [⟨31,0,.ro,0⟩]⟩,
  ⟨0x48, 1, 0x0, true, [⟨31,0,.ro,0⟩]⟩,
  ⟨0x4c, 1, 0x0, false, [⟨15,0,.ro,0⟩]⟩,
  ⟨0x50, 1, 0x0, false, [⟨31,0,.ro,0⟩]⟩,
  ⟨0x58, 1, 0x0, true, [⟨31,0,.ro,0⟩]⟩,
  ⟨0x5c, 1, 0x0, false, [⟨31,0,.ro,0⟩]⟩,
  ⟨0x60, 1, 0x0, false, [⟨0,0,.wo,0⟩]⟩,
  ⟨0x64, 1, 0x0, false, [⟨15,8,.rw,0⟩, ⟨2,2,.rw,0⟩, ⟨1,1,.rw,1⟩, ⟨0,0,.rw,0⟩]⟩,
  ⟨0x68, 1, 0x0, false, [⟨31,0,.rw,0⟩]⟩]

/-- Registers of the evtq block (Tables 20.7, 20.8). -/
def evtqRegs : List RegSpec := [
  ⟨0x40, 1, 0x0, false, [⟨16,0,.rw,0x3ffc⟩]⟩,
  ⟨0x44, 1, 0x0, false, [⟨31,16,.rw,0x40⟩, ⟨15,8,.rw,3⟩, ⟨7,0,.rw,0x3c⟩]⟩,
  ⟨0x48, 1, 0x0, false, [⟨31,28,.wo,0⟩, ⟨7,0,.wo,0⟩]⟩,
  ⟨0x50, 1, 0x0, true, [⟨31,0,.ro,0⟩]⟩,
  ⟨0x54, 1, 0x0, false, [⟨31,0,.ro,0⟩]⟩,
  ⟨0x58, 1, 0x0, false, [⟨31,0,.ro,0⟩]⟩,
  ⟨0x5c, 1, 0x0, false, [⟨13,12,.ro,0⟩, ⟨11,0,.ro,0⟩]⟩,
  ⟨0x60, 1, 0x0, false, [⟨31,0,.rc,0⟩]⟩,
  ⟨0x64, 1, 0x0, false, [⟨31,0,.rc,0⟩]⟩,
  ⟨0x68, 1, 0x0, true, [⟨31,0,.ro,0⟩]⟩,
  ⟨0x6c, 1, 0x0, false, [⟨31,0,.ro,0⟩]⟩,
  ⟨0x1040, 16, 0x40, true, [⟨31,0,.rw,0⟩]⟩,
  ⟨0x1044, 16, 0x40, false, [⟨31,0,.rw,0⟩]⟩,
  ⟨0x1048, 16, 0x40, false, [⟨31,31,.rw,0⟩, ⟨30,30,.rw,0⟩, ⟨29,25,.rw,0⟩, ⟨24,14,.rw,0⟩, ⟨13,0,.rw,0⟩]⟩,
  ⟨0x104c, 16, 0x40, false, [⟨16,0,.rw,0⟩]⟩,
  ⟨0x1050, 16, 0x40, false, [⟨31,31,.rw,0⟩, ⟨11,0,.rw,0⟩]⟩,
  ⟨0x1054, 16, 0x40, false, [⟨15,0,.ro,0⟩]⟩,
  ⟨0x1058, 16, 0x40, false, [⟨31,31,.wo,0⟩, ⟨15,0,.rw,0⟩]⟩,
  ⟨0x105c, 16, 0x40, false, [⟨31,0,.rc,0⟩]⟩]

/-- Registers of the factor block (Table 18.12). -/
def factorRegs : List RegSpec := [
  ⟨0x40, 1, 0x0, false, [⟨31,26,.ro,0⟩, ⟨25,20,.ro,0⟩, ⟨1,1,.ro,0⟩, ⟨0,0,.ro,0⟩]⟩,
  ⟨0x44, 1, 0x0, false, [⟨31,0,.ro,0⟩]⟩,
  ⟨0x48, 1, 0x0, false, [⟨31,16,.wo,0⟩, ⟨12,0,.wo,0⟩]⟩,
  ⟨0x4c, 1, 0x0, false, [⟨31,30,.ro,0⟩, ⟨15,0,.ro,0⟩]⟩,
  ⟨0x50, 1, 0x0, false, [⟨31,31,.ro,0⟩, ⟨2,0,.ro,0⟩]⟩,
  ⟨0x54, 1, 0x0, false, [⟨2,2,.ro,0⟩, ⟨1,1,.ro,0⟩, ⟨0,0,.ro,0⟩]⟩,
  ⟨0x58, 1, 0x0, false, [⟨31,31,.ro,0⟩, ⟨30,0,.ro,0⟩]⟩,
  ⟨0x5c, 1, 0x0, false, [⟨15,0,.ro,0x5f0⟩]⟩,
  ⟨0x60, 1, 0x0, false, [⟨31,24,.ro,0⟩, ⟨15,0,.ro,0⟩]⟩,
  ⟨0x64, 1, 0x0, false, [⟨11,8,.ro,8⟩, ⟨7,4,.ro,8⟩, ⟨3,0,.ro,8⟩]⟩,
  ⟨0x68, 1, 0x0, true, [⟨31,0,.ro,0⟩]⟩,
  ⟨0x6c, 1, 0x0, false, [⟨31,0,.ro,0⟩]⟩,
  ⟨0x70, 1, 0x0, false, [⟨31,0,.rc,0⟩]⟩,
  ⟨0x74, 1, 0x0, false, [⟨31,0,.ro,0⟩]⟩,
  ⟨0x1040, 1008, 0x4, false, [⟨31,0,.rw,0⟩]⟩,
  ⟨0x2040, 1008, 0x4, false, [⟨31,0,.ro,0⟩]⟩,
  ⟨0x3040, 72, 0x4, false, [⟨31,0,.ro,0⟩]⟩,
  ⟨0x3160, 40, 0x4, false, [⟨31,0,.ro,0⟩]⟩]

/-- Registers of the power block (Table 18.13). -/
def powerRegs : List RegSpec := [
  ⟨0x40, 1, 0x0, false, [⟨31,0,.ro,0⟩]⟩,
  ⟨0x44, 1, 0x0, false, [⟨31,0,.ro,0⟩]⟩,
  ⟨0x48, 1, 0x0, false, [⟨31,0,.ro,0⟩]⟩,
  ⟨0x4c, 1, 0x0, false, [⟨31,0,.ro,0⟩]⟩,
  ⟨0x50, 1, 0x0, false, [⟨31,0,.rc,0⟩]⟩,
  ⟨0x54, 1, 0x0, false, [⟨9,0,.rw,0x2ee⟩]⟩,
  ⟨0x58, 1, 0x0, true, [⟨31,0,.ro,0⟩]⟩,
  ⟨0x5c, 1, 0x0, false, [⟨31,0,.ro,0⟩]⟩,
  ⟨0x60, 1, 0x0, false, [⟨31,0,.rc,0⟩]⟩]

/-- Registers of the admission page (Table 14.11). -/
def admitRegs : List RegSpec := [
  ⟨0x40, 1, 0x0, false, [⟨31,24,.rw,0x55⟩, ⟨23,16,.rw,0x55⟩, ⟨15,8,.rw,0x55⟩, ⟨7,0,.rw,0x55⟩]⟩,
  ⟨0x44, 1, 0x0, false, [⟨9,0,.rw,0x2ee⟩]⟩,
  ⟨0x48, 1, 0x0, false, [⟨12,0,.ro,1⟩]⟩,
  ⟨0x4c, 1, 0x0, false, [⟨12,0,.ro,0⟩]⟩,
  ⟨0x50, 1, 0x0, false, [⟨16,0,.ro,0⟩]⟩,
  ⟨0x54, 1, 0x0, false, [⟨12,0,.ro,0⟩]⟩,
  ⟨0x58, 1, 0x0, true, [⟨31,0,.ro,0⟩]⟩,
  ⟨0x5c, 1, 0x0, false, [⟨15,0,.ro,0⟩]⟩,
  ⟨0x60, 1, 0x0, false, [⟨31,0,.ro,0⟩]⟩,
  ⟨0x68, 1, 0x0, true, [⟨31,0,.ro,0⟩]⟩,
  ⟨0x6c, 1, 0x0, false, [⟨31,0,.ro,0⟩]⟩,
  ⟨0x70, 1, 0x0, true, [⟨31,0,.ro,0⟩]⟩,
  ⟨0x74, 1, 0x0, false, [⟨31,0,.ro,0⟩]⟩,
  ⟨0x78, 1, 0x0, false, [⟨31,0,.rc,0⟩]⟩,
  ⟨0x7c, 1, 0x0, false, [⟨31,0,.rc,0⟩]⟩,
  ⟨0x80, 1, 0x0, false, [⟨31,0,.rc,0⟩]⟩,
  ⟨0x84, 1, 0x0, false, [⟨31,0,.rc,0⟩]⟩,
  ⟨0x88, 1, 0x0, false, [⟨31,0,.rc,0⟩]⟩]

/-- Registers of the migr block (Table 15.9). -/
def migrRegs : List RegSpec := [
  ⟨0x40, 1, 0x0, false, [⟨31,16,.rw,0x3e8⟩, ⟨15,0,.rw,0x40⟩]⟩,
  ⟨0x44, 1, 0x0, false, [⟨3,0,.rw,6⟩]⟩,
  ⟨0x48, 1, 0x0, false, [⟨18,0,.rw,0⟩]⟩,
  ⟨0x4c, 1, 0x0, false, [⟨18,0,.ro,0⟩]⟩,
  ⟨0x50, 1, 0x0, true, [⟨31,0,.rw,0⟩]⟩,
  ⟨0x54, 1, 0x0, false, [⟨31,0,.rw,0⟩]⟩,
  ⟨0x58, 1, 0x0, false, [⟨1,0,.wo,0⟩]⟩,
  ⟨0x5c, 1, 0x0, false, [⟨31,30,.ro,0⟩, ⟨15,0,.ro,0⟩]⟩,
  ⟨0x60, 8, 0x8, true, [⟨31,0,.ro,0⟩]⟩,
  ⟨0x64, 8, 0x8, false, [⟨31,0,.ro,0⟩]⟩,
  ⟨0xa0, 1, 0x0, true, [⟨31,0,.ro,0⟩]⟩,
  ⟨0xa4, 1, 0x0, false, [⟨31,0,.ro,0⟩]⟩,
  ⟨0xa8, 2, 0x8, true, [⟨31,0,.ro,0⟩]⟩,
  ⟨0xac, 2, 0x8, false, [⟨31,0,.ro,0⟩]⟩,
  ⟨0xc0, 1, 0x0, true, [⟨31,0,.ro,0⟩]⟩,
  ⟨0xc4, 1, 0x0, false, [⟨31,0,.ro,0⟩]⟩,
  ⟨0xc8, 1, 0x0, true, [⟨31,0,.ro,0⟩]⟩,
  ⟨0xcc, 1, 0x0, false, [⟨31,0,.ro,0⟩]⟩,
  ⟨0xd0, 1, 0x0, false, [⟨31,0,.rc,0⟩]⟩,
  ⟨0xd4, 1, 0x0, false, [⟨31,0,.rc,0⟩]⟩,
  ⟨0xd8, 1, 0x0, false, [⟨31,0,.rc,0⟩]⟩]

/-- Registers of the pcie block (Table 16.8). -/
def pcieRegs : List RegSpec := [
  ⟨0x40, 1, 0x0, false, [⟨7,4,.ro,0⟩, ⟨3,0,.ro,0⟩]⟩,
  ⟨0x44, 1, 0x0, false, [⟨31,31,.ro,0⟩, ⟨9,0,.ro,0⟩]⟩,
  ⟨0x48, 1, 0x0, false, [⟨31,0,.rc,0⟩]⟩,
  ⟨0x4c, 1, 0x0, false, [⟨31,0,.rc,0⟩]⟩]

/-- Registers of the eth block (Table 16.8). -/
def ethRegs : List RegSpec := [
  ⟨0x40, 1, 0x0, false, [⟨0,0,.rw,0⟩]⟩,
  ⟨0x48, 1, 0x0, true, [⟨31,0,.rw,0⟩]⟩,
  ⟨0x4c, 1, 0x0, false, [⟨15,0,.rw,0⟩]⟩,
  ⟨0x50, 1, 0x0, false, [⟨15,0,.rw,0⟩]⟩,
  ⟨0x54, 1, 0x0, false, [⟨3,0,.rw,0⟩]⟩,
  ⟨0x60, 4, 0x4, false, [⟨31,0,.rw,0⟩]⟩,
  ⟨0x70, 1, 0x0, true, [⟨31,0,.ro,0⟩]⟩,
  ⟨0x74, 1, 0x0, false, [⟨31,0,.ro,0⟩]⟩,
  ⟨0x78, 1, 0x0, false, [⟨31,0,.rc,0⟩]⟩,
  ⟨0x7c, 1, 0x0, false, [⟨31,0,.rc,0⟩]⟩]

/-- Registers of the session block (Table 16.8). -/
def sessionRegs : List RegSpec := [
  ⟨0x40, 1, 0x0, false, [⟨2,0,.rw,4⟩]⟩,
  ⟨0x44, 1, 0x0, false, [⟨13,0,.rw,0⟩]⟩,
  ⟨0x48, 1, 0x0, false, [⟨31,30,.ro,0⟩, ⟨29,27,.ro,0⟩, ⟨15,0,.ro,0⟩]⟩,
  ⟨0x50, 1, 0x0, true, [⟨31,0,.ro,0⟩]⟩,
  ⟨0x54, 1, 0x0, false, [⟨31,0,.ro,0⟩]⟩,
  ⟨0x58, 1, 0x0, false, [⟨31,0,.rc,0⟩]⟩]

/-- Registers of the ctxt block (Table 16.8). -/
def ctxtRegs : List RegSpec := [
  ⟨0x40, 1, 0x0, true, [⟨31,0,.rw,0⟩]⟩,
  ⟨0x44, 1, 0x0, false, [⟨31,0,.rw,0⟩]⟩,
  ⟨0x48, 1, 0x0, true, [⟨31,0,.rw,0⟩]⟩,
  ⟨0x4c, 1, 0x0, false, [⟨31,0,.rw,0⟩]⟩,
  ⟨0x50, 1, 0x0, false, [⟨31,21,.rw,0⟩, ⟨20,16,.rw,0⟩, ⟨15,11,.rw,0⟩, ⟨10,10,.rw,0⟩, ⟨9,9,.rw,0⟩]⟩,
  ⟨0x54, 1, 0x0, false, [⟨31,0,.rc,0⟩]⟩]

/-- Registers of the ddr block (Table 15.7). -/
def ddrRegs : List RegSpec := [
  ⟨0x40, 1, 0x0, false, [⟨15,0,.rw,0x18⟩]⟩,
  ⟨0x44, 1, 0x0, false, [⟨7,0,.rw,0x10⟩]⟩,
  ⟨0x48, 1, 0x0, false, [⟨8,0,.ro,0⟩]⟩,
  ⟨0x4c, 1, 0x0, false, [⟨31,16,.ro,0⟩, ⟨15,0,.ro,0⟩]⟩,
  ⟨0x50, 1, 0x0, true, [⟨31,0,.ro,0⟩]⟩,
  ⟨0x54, 1, 0x0, false, [⟨31,0,.ro,0⟩]⟩,
  ⟨0x58, 1, 0x0, true, [⟨31,0,.ro,0⟩]⟩,
  ⟨0x5c, 1, 0x0, false, [⟨31,0,.ro,0⟩]⟩,
  ⟨0x60, 1, 0x0, false, [⟨31,0,.rc,0⟩]⟩,
  ⟨0x64, 1, 0x0, false, [⟨31,0,.rc,0⟩]⟩,
  ⟨0x68, 1, 0x0, false, [⟨31,0,.rc,0⟩]⟩,
  ⟨0x6c, 1, 0x0, false, [⟨31,0,.rc,0⟩]⟩,
  ⟨0x70, 1, 0x0, true, [⟨31,0,.ro,0⟩]⟩,
  ⟨0x74, 1, 0x0, false, [⟨31,0,.ro,0⟩]⟩,
  ⟨0x78, 1, 0x0, false, [⟨31,0,.ro,0⟩]⟩,
  ⟨0x7c, 1, 0x0, false, [⟨31,0,.rc,0⟩]⟩]

/-- Registers of the cxl block (Tables 15.7, 16.9). -/
def cxlRegs : List RegSpec := [
  ⟨0x40, 1, 0x0, false, [⟨15,0,.rw,0x30⟩]⟩,
  ⟨0x44, 1, 0x0, false, [⟨7,0,.ro,0⟩]⟩,
  ⟨0x48, 1, 0x0, false, [⟨8,0,.ro,0⟩]⟩,
  ⟨0x4c, 1, 0x0, false, [⟨31,16,.ro,0⟩, ⟨15,0,.ro,0⟩]⟩,
  ⟨0x50, 1, 0x0, true, [⟨31,0,.ro,0⟩]⟩,
  ⟨0x54, 1, 0x0, false, [⟨31,0,.ro,0⟩]⟩,
  ⟨0x58, 1, 0x0, true, [⟨31,0,.ro,0⟩]⟩,
  ⟨0x5c, 1, 0x0, false, [⟨31,0,.ro,0⟩]⟩,
  ⟨0x60, 1, 0x0, false, [⟨31,0,.rc,0⟩]⟩,
  ⟨0x64, 1, 0x0, false, [⟨31,0,.rc,0⟩]⟩,
  ⟨0x68, 1, 0x0, false, [⟨31,0,.rc,0⟩]⟩,
  ⟨0x6c, 1, 0x0, false, [⟨31,0,.rc,0⟩]⟩,
  ⟨0x70, 1, 0x0, true, [⟨31,0,.ro,0⟩]⟩,
  ⟨0x74, 1, 0x0, false, [⟨31,0,.ro,0⟩]⟩,
  ⟨0x78, 1, 0x0, false, [⟨31,0,.ro,0⟩]⟩,
  ⟨0x7c, 1, 0x0, false, [⟨31,0,.rc,0⟩]⟩,
  ⟨0x100, 1, 0x0, false, [⟨31,31,.ro,0⟩, ⟨7,4,.ro,0⟩, ⟨3,0,.ro,0⟩]⟩,
  ⟨0x104, 1, 0x0, false, [⟨31,0,.rc,0⟩]⟩,
  ⟨0x108, 1, 0x0, true, [⟨31,0,.ro,0⟩]⟩,
  ⟨0x10c, 1, 0x0, false, [⟨31,0,.ro,0⟩]⟩]

/-- Registers of the reel block (Table 17.9). -/
def reelRegs : List RegSpec := [
  ⟨0x40, 1, 0x0, false, [⟨31,28,.ro,0⟩, ⟨27,27,.ro,0⟩, ⟨15,0,.ro,0xffff⟩]⟩,
  ⟨0x44, 1, 0x0, false, [⟨1,1,.rw,0⟩, ⟨0,0,.rw,1⟩]⟩,
  ⟨0x48, 1, 0x0, false, [⟨31,31,.rw,0⟩, ⟨11,0,.rw,0⟩]⟩,
  ⟨0x4c, 1, 0x0, false, [⟨15,0,.ro,0xffff⟩]⟩,
  ⟨0x50, 1, 0x0, true, [⟨31,0,.ro,0⟩]⟩,
  ⟨0x54, 1, 0x0, false, [⟨31,0,.ro,0⟩]⟩,
  ⟨0x58, 1, 0x0, false, [⟨12,0,.ro,0⟩]⟩,
  ⟨0x5c, 1, 0x0, false, [⟨15,0,.rw,0xa⟩]⟩,
  ⟨0x60, 1, 0x0, false, [⟨0,0,.rw,0⟩]⟩,
  ⟨0x64, 1, 0x0, false, [⟨15,0,.rw,0x32⟩]⟩,
  ⟨0x68, 1, 0x0, true, [⟨31,0,.ro,0⟩]⟩,
  ⟨0x6c, 1, 0x0, false, [⟨31,0,.ro,0⟩]⟩,
  ⟨0x70, 1, 0x0, false, [⟨0,0,.wo,0⟩]⟩,
  ⟨0x78, 1, 0x0, true, [⟨31,0,.ro,0⟩]⟩,
  ⟨0x7c, 1, 0x0, false, [⟨31,0,.ro,0⟩]⟩,
  ⟨0x80, 1, 0x0, true, [⟨31,0,.ro,0⟩]⟩,
  ⟨0x84, 1, 0x0, false, [⟨31,0,.ro,0⟩]⟩,
  ⟨0x88, 1, 0x0, false, [⟨31,0,.ro,0⟩]⟩,
  ⟨0x90, 1, 0x0, true, [⟨31,0,.ro,0⟩]⟩,
  ⟨0x94, 1, 0x0, false, [⟨31,0,.ro,0⟩]⟩,
  ⟨0x98, 1, 0x0, true, [⟨31,0,.ro,0⟩]⟩,
  ⟨0x9c, 1, 0x0, false, [⟨31,0,.ro,0⟩]⟩,
  ⟨0xa0, 1, 0x0, false, [⟨31,0,.rc,0⟩]⟩,
  ⟨0xa4, 1, 0x0, false, [⟨31,0,.rc,0⟩]⟩,
  ⟨0xa8, 1, 0x0, false, [⟨31,0,.rc,0⟩]⟩,
  ⟨0xac, 1, 0x0, false, [⟨31,0,.rc,0⟩]⟩,
  ⟨0xb0, 1, 0x0, false, [⟨31,0,.rc,0⟩]⟩,
  ⟨0xb4, 1, 0x0, false, [⟨31,0,.rc,0⟩]⟩,
  ⟨0x1040, 1, 0x0, false, [⟨11,0,.rw,0⟩]⟩,
  ⟨0x1044, 1, 0x0, false, [⟨30,28,.rw,0⟩, ⟨27,20,.ro,0⟩, ⟨15,0,.rw,0⟩]⟩,
  ⟨0x1048, 1, 0x0, true, [⟨31,0,.ro,0⟩]⟩,
  ⟨0x104c, 1, 0x0, false, [⟨31,0,.ro,0⟩]⟩]

/-- Registers of the reelLink block (Table 17.11). -/
def reelLinkRegs : List RegSpec := [
  ⟨0x40, 1, 0x0, false, [⟨31,31,.ro,0⟩, ⟨27,24,.ro,0⟩, ⟨15,0,.ro,0xffff⟩]⟩,
  ⟨0x48, 1, 0x0, true, [⟨31,0,.ro,0⟩]⟩,
  ⟨0x4c, 1, 0x0, false, [⟨31,0,.ro,0⟩]⟩,
  ⟨0x50, 1, 0x0, false, [⟨7,0,.ro,0⟩]⟩,
  ⟨0x54, 1, 0x0, false, [⟨3,0,.ro,0⟩]⟩,
  ⟨0x58, 1, 0x0, true, [⟨31,0,.ro,0⟩]⟩,
  ⟨0x5c, 1, 0x0, false, [⟨31,0,.ro,0⟩]⟩,
  ⟨0x60, 1, 0x0, false, [⟨31,0,.rc,0⟩]⟩,
  ⟨0x64, 1, 0x0, false, [⟨31,0,.rc,0⟩]⟩,
  ⟨0x68, 1, 0x0, false, [⟨31,0,.rc,0⟩]⟩,
  ⟨0x70, 1, 0x0, true, [⟨31,0,.ro,0⟩]⟩,
  ⟨0x74, 1, 0x0, false, [⟨31,0,.ro,0⟩]⟩,
  ⟨0x78, 1, 0x0, true, [⟨31,0,.ro,0⟩]⟩,
  ⟨0x7c, 1, 0x0, false, [⟨31,0,.ro,0⟩]⟩,
  ⟨0x80, 1, 0x0, false, [⟨15,0,.ro,0⟩]⟩]

/-- Registers of the caller block (Tables 13.14, 13.15, 13.16, 13.17). -/
def callerRegs0 : List RegSpec := [
  ⟨0x40, 1, 0x0, false, [⟨19,0,.rw,0x64⟩]⟩,
  ⟨0x44, 1, 0x0, false, [⟨17,0,.ro,0⟩]⟩,
  ⟨0x48, 1, 0x0, false, [⟨16,0,.ro,0⟩]⟩,
  ⟨0x4c, 1, 0x0, false, [⟨14,0,.ro,0⟩]⟩,
  ⟨0x50, 1, 0x0, true, [⟨31,0,.ro,0⟩]⟩,
  ⟨0x54, 1, 0x0, false, [⟨31,0,.ro,0⟩]⟩,
  ⟨0x58, 1, 0x0, true, [⟨31,0,.ro,0⟩]⟩,
  ⟨0x5c, 1, 0x0, false, [⟨31,0,.ro,0⟩]⟩,
  ⟨0x60, 1, 0x0, true, [⟨31,0,.ro,0⟩]⟩,
  ⟨0x64, 1, 0x0, false, [⟨31,0,.ro,0⟩]⟩,
  ⟨0x68, 1, 0x0, false, [⟨31,0,.rc,0⟩]⟩,
  ⟨0x6c, 1, 0x0, false, [⟨31,0,.rc,0⟩]⟩,
  ⟨0x70, 1, 0x0, false, [⟨31,0,.rc,0⟩]⟩,
  ⟨0x74, 1, 0x0, false, [⟨31,0,.rc,0⟩]⟩,
  ⟨0x78, 1, 0x0, false, [⟨31,0,.rc,0⟩]⟩,
  ⟨0x7c, 1, 0x0, false, [⟨31,0,.rc,0⟩]⟩,
  ⟨0x1040, 8, 0x80, false, [⟨17,0,.ro,0⟩]⟩,
  ⟨0x1044, 8, 0x80, false, [⟨31,0,.rc,0⟩]⟩,
  ⟨0x1048, 8, 0x80, false, [⟨31,0,.rc,0⟩]⟩,
  ⟨0x104c, 8, 0x80, false, [⟨31,0,.ro,0⟩]⟩,
  ⟨0x1080, 8, 0x80, false, [⟨31,0,.rc,0⟩]⟩,
  ⟨0x1084, 8, 0x80, false, [⟨31,0,.rc,0⟩]⟩,
  ⟨0x1088, 8, 0x80, false, [⟨31,0,.rc,0⟩]⟩,
  ⟨0x108c, 8, 0x80, false, [⟨31,0,.rc,0⟩]⟩,
  ⟨0x1090, 8, 0x80, false, [⟨31,0,.rc,0⟩]⟩,
  ⟨0x1094, 8, 0x80, false, [⟨31,0,.rc,0⟩]⟩,
  ⟨0x1098, 8, 0x80, false, [⟨31,0,.rc,0⟩]⟩,
  ⟨0x109c, 8, 0x80, false, [⟨31,0,.rc,0⟩]⟩,
  ⟨0x10a0, 8, 0x80, false, [⟨31,0,.rc,0⟩]⟩,
  ⟨0x10a4, 8, 0x80, false, [⟨31,0,.rc,0⟩]⟩,
  ⟨0x10a8, 8, 0x80, false, [⟨31,0,.rc,0⟩]⟩,
  ⟨0x10ac, 8, 0x80, false, [⟨31,0,.rc,0⟩]⟩,
  ⟨0x10b0, 8, 0x80, false, [⟨31,0,.rc,0⟩]⟩,
  ⟨0x10b4, 8, 0x80, false, [⟨31,0,.rc,0⟩]⟩,
  ⟨0x10b8, 8, 0x80, false, [⟨31,0,.rc,0⟩]⟩,
  ⟨0x10bc, 8, 0x80, false, [⟨31,0,.rc,0⟩]⟩,
  ⟨0x2040, 48, 0x20, false, [⟨1,1,.ro,0⟩, ⟨0,0,.ro,0⟩]⟩,
  ⟨0x2044, 48, 0x20, false, [⟨31,0,.rc,0⟩]⟩,
  ⟨0x2048, 48, 0x20, false, [⟨31,0,.rc,0⟩]⟩,
  ⟨0x204c, 48, 0x20, false, [⟨31,0,.ro,0⟩]⟩]

/-- Registers of the caller block (Tables 13.14, 13.15, 13.16, 13.17). -/
def callerRegs1 : List RegSpec := [
  ⟨0x2050, 48, 0x20, false, [⟨31,0,.ro,0⟩]⟩,
  ⟨0x3040, 1, 0x0, false, [⟨13,0,.rw,0⟩]⟩,
  ⟨0x3080, 32, 0x4, false, [⟨31,0,.ro,0⟩]⟩,
  ⟨0x4040, 1, 0x0, false, [⟨12,0,.rw,0⟩]⟩,
  ⟨0x4044, 1, 0x0, false, [⟨31,31,.ro,0⟩, ⟨10,0,.ro,0⟩]⟩,
  ⟨0x4048, 1, 0x0, false, [⟨31,0,.ro,0⟩]⟩,
  ⟨0x404c, 1, 0x0, false, [⟨31,0,.ro,0⟩]⟩,
  ⟨0x4050, 1, 0x0, false, [⟨31,0,.ro,0⟩]⟩]

/-- Registers of the caller block. -/
def callerRegs : List RegSpec := callerRegs0 ++ callerRegs1

/-- Registers of the merge block (Table 10.9). -/
def mergeRegs : List RegSpec := [
  ⟨0x40, 1, 0x0, false, [⟨7,0,.rw,0⟩]⟩,
  ⟨0x44, 1, 0x0, false, [⟨31,31,.ro,0⟩, ⟨30,30,.ro,0⟩, ⟨29,29,.ro,0⟩, ⟨22,16,.ro,0⟩, ⟨6,0,.ro,0⟩]⟩,
  ⟨0x48, 1, 0x0, false, [⟨31,0,.ro,0⟩]⟩,
  ⟨0x50, 1, 0x0, true, [⟨31,0,.ro,0⟩]⟩,
  ⟨0x54, 1, 0x0, false, [⟨31,0,.ro,0⟩]⟩,
  ⟨0x58, 1, 0x0, true, [⟨31,0,.ro,0⟩]⟩,
  ⟨0x5c, 1, 0x0, false, [⟨31,0,.ro,0⟩]⟩,
  ⟨0x60, 1, 0x0, false, [⟨31,0,.rc,0⟩]⟩,
  ⟨0x64, 1, 0x0, false, [⟨31,0,.rc,0⟩]⟩,
  ⟨0x68, 1, 0x0, false, [⟨31,0,.rc,0⟩]⟩,
  ⟨0x6c, 1, 0x0, false, [⟨31,0,.rc,0⟩]⟩]

/-- Registers of the weaver block (Table 12.7). -/
def weaverRegs : List RegSpec := [
  ⟨0x40, 1, 0x0, true, [⟨31,0,.ro,0⟩]⟩,
  ⟨0x44, 1, 0x0, false, [⟨31,0,.ro,0⟩]⟩,
  ⟨0x48, 1, 0x0, true, [⟨31,0,.ro,0⟩]⟩,
  ⟨0x4c, 1, 0x0, false, [⟨31,0,.ro,0⟩]⟩,
  ⟨0x50, 1, 0x0, true, [⟨31,0,.ro,0⟩]⟩,
  ⟨0x54, 1, 0x0, false, [⟨31,0,.ro,0⟩]⟩,
  ⟨0x58, 1, 0x0, true, [⟨31,0,.ro,0⟩]⟩,
  ⟨0x5c, 1, 0x0, false, [⟨31,0,.ro,0⟩]⟩,
  ⟨0x60, 1, 0x0, true, [⟨31,0,.ro,0⟩]⟩,
  ⟨0x64, 1, 0x0, false, [⟨31,0,.ro,0⟩]⟩,
  ⟨0x68, 1, 0x0, false, [⟨31,0,.rc,0⟩]⟩,
  ⟨0x6c, 1, 0x0, false, [⟨31,0,.rc,0⟩]⟩,
  ⟨0x70, 1, 0x0, false, [⟨31,0,.rc,0⟩]⟩,
  ⟨0x74, 1, 0x0, false, [⟨31,31,.ro,0⟩, ⟨11,0,.ro,0⟩]⟩]

/-- Registers of the hbm block (Table 15.7). -/
def hbmRegs : List RegSpec := [
  ⟨0x40, 1, 0x0, false, [⟨15,0,.rw,0x18⟩]⟩,
  ⟨0x44, 1, 0x0, false, [⟨7,0,.rw,0x10⟩]⟩,
  ⟨0x48, 1, 0x0, false, [⟨8,0,.ro,0⟩]⟩,
  ⟨0x4c, 1, 0x0, false, [⟨31,16,.ro,0⟩, ⟨15,0,.ro,0⟩]⟩,
  ⟨0x50, 1, 0x0, true, [⟨31,0,.ro,0⟩]⟩,
  ⟨0x54, 1, 0x0, false, [⟨31,0,.ro,0⟩]⟩,
  ⟨0x58, 1, 0x0, true, [⟨31,0,.ro,0⟩]⟩,
  ⟨0x5c, 1, 0x0, false, [⟨31,0,.ro,0⟩]⟩,
  ⟨0x60, 1, 0x0, false, [⟨31,0,.rc,0⟩]⟩,
  ⟨0x64, 1, 0x0, false, [⟨31,0,.rc,0⟩]⟩,
  ⟨0x68, 1, 0x0, false, [⟨31,0,.rc,0⟩]⟩,
  ⟨0x6c, 1, 0x0, false, [⟨31,0,.rc,0⟩]⟩,
  ⟨0x70, 1, 0x0, true, [⟨31,0,.ro,0⟩]⟩,
  ⟨0x74, 1, 0x0, false, [⟨31,0,.ro,0⟩]⟩,
  ⟨0x78, 1, 0x0, false, [⟨31,0,.ro,0⟩]⟩,
  ⟨0x7c, 1, 0x0, false, [⟨31,0,.rc,0⟩]⟩]

/-- Registers of the assayer block (Tables 8.11, 8.12). -/
def assayerRegs : List RegSpec := [
  ⟨0x40, 1, 0x0, false, [⟨15,8,.rw,0xa⟩]⟩,
  ⟨0x44, 1, 0x0, false, [⟨16,0,.ro,0⟩]⟩,
  ⟨0x48, 1, 0x0, false, [⟨14,0,.ro,0⟩]⟩,
  ⟨0x4c, 1, 0x0, false, [⟨31,31,.w1c,0⟩, ⟨14,0,.ro,0⟩]⟩,
  ⟨0x50, 1, 0x0, true, [⟨31,0,.ro,0⟩]⟩,
  ⟨0x54, 1, 0x0, false, [⟨31,0,.ro,0⟩]⟩,
  ⟨0x58, 1, 0x0, true, [⟨31,0,.ro,0⟩]⟩,
  ⟨0x5c, 1, 0x0, false, [⟨31,0,.ro,0⟩]⟩,
  ⟨0x60, 1, 0x0, true, [⟨31,0,.ro,0⟩]⟩,
  ⟨0x64, 1, 0x0, false, [⟨31,0,.ro,0⟩]⟩,
  ⟨0x68, 1, 0x0, true, [⟨31,0,.ro,0⟩]⟩,
  ⟨0x6c, 1, 0x0, false, [⟨31,0,.ro,0⟩]⟩,
  ⟨0x70, 1, 0x0, true, [⟨31,0,.ro,0⟩]⟩,
  ⟨0x74, 1, 0x0, false, [⟨31,0,.ro,0⟩]⟩,
  ⟨0x78, 1, 0x0, true, [⟨31,0,.ro,0⟩]⟩,
  ⟨0x7c, 1, 0x0, false, [⟨31,0,.ro,0⟩]⟩,
  ⟨0x80, 1, 0x0, true, [⟨31,0,.ro,0⟩]⟩,
  ⟨0x84, 1, 0x0, false, [⟨31,0,.ro,0⟩]⟩,
  ⟨0x88, 1, 0x0, true, [⟨31,0,.ro,0⟩]⟩,
  ⟨0x8c, 1, 0x0, false, [⟨31,0,.ro,0⟩]⟩,
  ⟨0x90, 1, 0x0, false, [⟨31,0,.rc,0⟩]⟩,
  ⟨0x94, 1, 0x0, false, [⟨31,0,.rc,0⟩]⟩,
  ⟨0x100, 8, 0x40, false, [⟨31,31,.rw,0⟩, ⟨30,30,.rw,0⟩, ⟨29,29,.rw,0⟩, ⟨28,28,.rw,0⟩, ⟨27,22,.rw,0⟩, ⟨21,15,.rw,0⟩, ⟨14,8,.rw,0⟩]⟩,
  ⟨0x104, 8, 0x40, false, [⟨21,16,.rw,0⟩, ⟨4,0,.rw,0⟩]⟩,
  ⟨0x108, 8, 0x40, true, [⟨31,0,.rw,0⟩]⟩,
  ⟨0x10c, 8, 0x40, false, [⟨31,0,.rw,0⟩]⟩,
  ⟨0x110, 8, 0x40, true, [⟨31,0,.rw,0⟩]⟩,
  ⟨0x114, 8, 0x40, false, [⟨31,0,.rw,0⟩]⟩,
  ⟨0x118, 8, 0x40, false, [⟨17,0,.ro,0⟩]⟩]

/-- Registers of the egp block (Table 9.9). -/
def egpRegs : List RegSpec := [
  ⟨0x40, 1, 0x0, false, [⟨31,16,.rw,0x64⟩]⟩,
  ⟨0x44, 1, 0x0, false, [⟨31,0,.rw,0x1000⟩]⟩,
  ⟨0x48, 1, 0x0, false, [⟨31,0,.rw,0x100⟩]⟩,
  ⟨0x4c, 1, 0x0, false, [⟨17,0,.ro,0⟩]⟩,
  ⟨0x50, 1, 0x0, false, [⟨9,0,.rw,0⟩]⟩,
  ⟨0x80, 16, 0x4, false, [⟨31,0,.ro,0⟩]⟩,
  ⟨0x100, 1, 0x0, true, [⟨31,0,.ro,0⟩]⟩,
  ⟨0x104, 1, 0x0, false, [⟨31,0,.ro,0⟩]⟩,
  ⟨0x108, 1, 0x0, true, [⟨31,0,.ro,0⟩]⟩,
  ⟨0x10c, 1, 0x0, false, [⟨31,0,.ro,0⟩]⟩,
  ⟨0x110, 1, 0x0, true, [⟨31,0,.ro,0⟩]⟩,
  ⟨0x114, 1, 0x0, false, [⟨31,0,.ro,0⟩]⟩,
  ⟨0x118, 1, 0x0, true, [⟨31,0,.ro,0⟩]⟩,
  ⟨0x11c, 1, 0x0, false, [⟨31,0,.ro,0⟩]⟩,
  ⟨0x120, 1, 0x0, true, [⟨31,0,.ro,0⟩]⟩,
  ⟨0x124, 1, 0x0, false, [⟨31,0,.ro,0⟩]⟩,
  ⟨0x128, 1, 0x0, true, [⟨31,0,.ro,0⟩]⟩,
  ⟨0x12c, 1, 0x0, false, [⟨31,0,.ro,0⟩]⟩,
  ⟨0x130, 1, 0x0, true, [⟨31,0,.ro,0⟩]⟩,
  ⟨0x134, 1, 0x0, false, [⟨31,0,.ro,0⟩]⟩,
  ⟨0x138, 1, 0x0, true, [⟨31,0,.ro,0⟩]⟩,
  ⟨0x13c, 1, 0x0, false, [⟨31,0,.ro,0⟩]⟩,
  ⟨0x140, 1, 0x0, false, [⟨31,0,.rc,0⟩]⟩,
  ⟨0x144, 1, 0x0, false, [⟨31,0,.rc,0⟩]⟩,
  ⟨0x148, 1, 0x0, false, [⟨31,0,.rc,0⟩]⟩,
  ⟨0x14c, 1, 0x0, false, [⟨31,0,.rc,0⟩]⟩,
  ⟨0x150, 1, 0x0, false, [⟨31,0,.rc,0⟩]⟩,
  ⟨0x154, 1, 0x0, false, [⟨31,0,.rc,0⟩]⟩]

/-- Registers of the winnower block (Table 10.7). -/
def winnowerRegs : List RegSpec := [
  ⟨0x40, 1, 0x0, true, [⟨31,0,.ro,0⟩]⟩,
  ⟨0x44, 1, 0x0, false, [⟨31,0,.ro,0⟩]⟩,
  ⟨0x48, 1, 0x0, true, [⟨31,0,.ro,0⟩]⟩,
  ⟨0x4c, 1, 0x0, false, [⟨31,0,.ro,0⟩]⟩,
  ⟨0x50, 1, 0x0, true, [⟨31,0,.ro,0⟩]⟩,
  ⟨0x54, 1, 0x0, false, [⟨31,0,.ro,0⟩]⟩,
  ⟨0x58, 1, 0x0, true, [⟨31,0,.ro,0⟩]⟩,
  ⟨0x5c, 1, 0x0, false, [⟨31,0,.ro,0⟩]⟩,
  ⟨0x60, 1, 0x0, true, [⟨31,0,.ro,0⟩]⟩,
  ⟨0x64, 1, 0x0, false, [⟨31,0,.ro,0⟩]⟩,
  ⟨0x68, 1, 0x0, true, [⟨31,0,.ro,0⟩]⟩,
  ⟨0x6c, 1, 0x0, false, [⟨31,0,.ro,0⟩]⟩,
  ⟨0x70, 1, 0x0, false, [⟨31,0,.rc,0⟩]⟩,
  ⟨0x74, 1, 0x0, false, [⟨31,0,.rc,0⟩]⟩,
  ⟨0x78, 1, 0x0, false, [⟨31,0,.rc,0⟩]⟩,
  ⟨0x7c, 1, 0x0, false, [⟨31,0,.rc,0⟩]⟩,
  ⟨0x80, 1, 0x0, false, [⟨31,0,.rc,0⟩]⟩,
  ⟨0x84, 1, 0x0, false, [⟨31,0,.rc,0⟩]⟩]

/-- Registers of the fcore block (Table 6.14). -/
def fcoreRegs : List RegSpec := [
  ⟨0x40, 1, 0x0, false, [⟨31,0,.ro,0⟩]⟩,
  ⟨0x44, 1, 0x0, false, [⟨31,0,.ro,0⟩]⟩,
  ⟨0x48, 1, 0x0, false, [⟨31,31,.ro,0⟩, ⟨11,0,.ro,0⟩]⟩,
  ⟨0x50, 1, 0x0, true, [⟨31,0,.ro,0⟩]⟩,
  ⟨0x54, 1, 0x0, false, [⟨31,0,.ro,0⟩]⟩,
  ⟨0x58, 1, 0x0, false, [⟨31,31,.w1c,0⟩, ⟨15,0,.ro,0⟩]⟩,
  ⟨0x60, 1, 0x0, true, [⟨31,0,.ro,0⟩]⟩,
  ⟨0x64, 1, 0x0, false, [⟨31,0,.ro,0⟩]⟩,
  ⟨0x68, 1, 0x0, true, [⟨31,0,.ro,0⟩]⟩,
  ⟨0x6c, 1, 0x0, false, [⟨31,0,.ro,0⟩]⟩,
  ⟨0x70, 1, 0x0, true, [⟨31,0,.ro,0⟩]⟩,
  ⟨0x74, 1, 0x0, false, [⟨31,0,.ro,0⟩]⟩,
  ⟨0x78, 1, 0x0, true, [⟨31,0,.ro,0⟩]⟩,
  ⟨0x7c, 1, 0x0, false, [⟨31,0,.ro,0⟩]⟩,
  ⟨0x80, 1, 0x0, true, [⟨31,0,.ro,0⟩]⟩,
  ⟨0x84, 1, 0x0, false, [⟨31,0,.ro,0⟩]⟩,
  ⟨0x88, 1, 0x0, true, [⟨31,0,.ro,0⟩]⟩,
  ⟨0x8c, 1, 0x0, false, [⟨31,0,.ro,0⟩]⟩,
  ⟨0x90, 1, 0x0, true, [⟨31,0,.ro,0⟩]⟩,
  ⟨0x94, 1, 0x0, false, [⟨31,0,.ro,0⟩]⟩,
  ⟨0x98, 1, 0x0, false, [⟨31,0,.rc,0⟩]⟩,
  ⟨0x9c, 1, 0x0, false, [⟨31,0,.rc,0⟩]⟩,
  ⟨0xa0, 8, 0x8, true, [⟨31,0,.ro,0⟩]⟩,
  ⟨0xa4, 8, 0x8, false, [⟨31,0,.ro,0⟩]⟩,
  ⟨0xe0, 1, 0x0, false, [⟨31,0,.rc,0⟩]⟩,
  ⟨0x200, 16, 0x8, false, [⟨31,30,.ro,0⟩, ⟨27,16,.ro,0⟩, ⟨15,0,.ro,0⟩]⟩,
  ⟨0x204, 16, 0x8, false, [⟨21,0,.ro,0⟩]⟩]

/-- Registers of the carter block (Tables 5.9, 5.10). -/
def carterRegs0 : List RegSpec := [
  ⟨0x40, 1, 0x0, true, [⟨31,0,.ro,0⟩]⟩,
  ⟨0x44, 1, 0x0, false, [⟨31,0,.ro,0⟩]⟩,
  ⟨0x48, 1, 0x0, true, [⟨31,0,.ro,0⟩]⟩,
  ⟨0x4c, 1, 0x0, false, [⟨31,0,.ro,0⟩]⟩,
  ⟨0x50, 1, 0x0, true, [⟨31,0,.ro,0⟩]⟩,
  ⟨0x54, 1, 0x0, false, [⟨31,0,.ro,0⟩]⟩,
  ⟨0x58, 1, 0x0, true, [⟨31,0,.ro,0⟩]⟩,
  ⟨0x5c, 1, 0x0, false, [⟨31,0,.ro,0⟩]⟩,
  ⟨0x60, 1, 0x0, true, [⟨31,0,.ro,0⟩]⟩,
  ⟨0x64, 1, 0x0, false, [⟨31,0,.ro,0⟩]⟩,
  ⟨0x68, 1, 0x0, true, [⟨31,0,.ro,0⟩]⟩,
  ⟨0x6c, 1, 0x0, false, [⟨31,0,.ro,0⟩]⟩,
  ⟨0x70, 1, 0x0, true, [⟨31,0,.ro,0⟩]⟩,
  ⟨0x74, 1, 0x0, false, [⟨31,0,.ro,0⟩]⟩,
  ⟨0x78, 1, 0x0, true, [⟨31,0,.ro,0⟩]⟩,
  ⟨0x7c, 1, 0x0, false, [⟨31,0,.ro,0⟩]⟩,
  ⟨0x80, 1, 0x0, true, [⟨31,0,.ro,0⟩]⟩,
  ⟨0x84, 1, 0x0, false, [⟨31,0,.ro,0⟩]⟩,
  ⟨0x88, 1, 0x0, true, [⟨31,0,.ro,0⟩]⟩,
  ⟨0x8c, 1, 0x0, false, [⟨31,0,.ro,0⟩]⟩,
  ⟨0x90, 1, 0x0, false, [⟨31,0,.rc,0⟩]⟩,
  ⟨0x94, 1, 0x0, false, [⟨31,0,.rc,0⟩]⟩,
  ⟨0x98, 1, 0x0, false, [⟨3,0,.ro,0⟩]⟩,
  ⟨0xa0, 1, 0x0, true, [⟨31,0,.rc,0⟩]⟩,
  ⟨0xa4, 1, 0x0, false, [⟨31,0,.rc,0⟩]⟩,
  ⟨0x400, 16, 0x40, false, [⟨31,28,.ro,0⟩, ⟨27,24,.ro,0⟩, ⟨19,16,.ro,0⟩, ⟨15,12,.ro,0⟩, ⟨7,0,.ro,0⟩]⟩,
  ⟨0x404, 16, 0x40, false, [⟨15,0,.ro,0⟩]⟩,
  ⟨0x408, 16, 0x40, true, [⟨31,0,.ro,0⟩]⟩,
  ⟨0x40c, 16, 0x40, false, [⟨31,0,.ro,0⟩]⟩,
  ⟨0x410, 16, 0x40, true, [⟨31,0,.ro,0⟩]⟩,
  ⟨0x414, 16, 0x40, false, [⟨31,0,.ro,0⟩]⟩,
  ⟨0x418, 16, 0x40, false, [⟨31,0,.ro,0⟩]⟩,
  ⟨0x41c, 16, 0x40, false, [⟨31,0,.ro,0⟩]⟩,
  ⟨0x420, 16, 0x40, false, [⟨31,0,.ro,0⟩]⟩,
  ⟨0x424, 16, 0x40, false, [⟨31,0,.ro,0⟩]⟩,
  ⟨0x428, 16, 0x40, false, [⟨31,0,.ro,0⟩]⟩,
  ⟨0x42c, 16, 0x40, false, [⟨31,0,.ro,0⟩]⟩,
  ⟨0x430, 16, 0x40, false, [⟨31,0,.rc,0⟩]⟩,
  ⟨0x434, 16, 0x40, false, [⟨31,0,.rc,0⟩]⟩,
  ⟨0x438, 16, 0x40, false, [⟨31,0,.rc,0⟩]⟩]

/-- Registers of the carter block (Tables 5.9, 5.10). -/
def carterRegs1 : List RegSpec := [
  ⟨0x43c, 16, 0x40, false, [⟨31,0,.ro,0⟩]⟩]

/-- Registers of the carter block. -/
def carterRegs : List RegSpec := carterRegs0 ++ carterRegs1

/-- The block-specific registers of a block (R36: every other offset reads zero). -/
def regsOf : BlockKind → List RegSpec
  | .glb => glbRegs
  | .clkrst => clkrstRegs
  | .time => timeRegs
  | .evtq => evtqRegs
  | .factor => factorRegs
  | .power => powerRegs
  | .admission => admitRegs
  | .migr => migrRegs
  | .pcie => pcieRegs
  | .d2d => []
  | .eth => ethRegs
  | .session => sessionRegs
  | .ctxt => ctxtRegs
  | .ddr => ddrRegs
  | .cxl => cxlRegs
  | .reel => reelRegs
  | .reelLink => reelLinkRegs
  | .caller => callerRegs
  | .noc => []
  | .merge => mergeRegs
  | .weaver => weaverRegs
  | .hbm => hbmRegs
  | .assayer => assayerRegs
  | .egp => egpRegs
  | .winnower => winnowerRegs
  | .fcore => fcoreRegs
  | .carter => carterRegs

/-- The block-specific fields that a block adds to its common header (R38 and the header tables). -/
def headerExtra : BlockKind → Nat → List Field
  | .glb, 0x10 => [⟨2,2,.w1c,0⟩]
  | .clkrst, 0x4 => [⟨15,8,.ro,0x60⟩, ⟨7,0,.ro,0x64⟩]
  | .clkrst, 0x8 => [⟨9,9,.wo,0⟩, ⟨8,8,.rw,0⟩]
  | .clkrst, 0xc => [⟨11,8,.ro,0⟩]
  | .clkrst, 0x10 => [⟨4,4,.w1c,0⟩, ⟨3,3,.w1c,0⟩, ⟨2,2,.w1c,0⟩]
  | .time, 0x8 => [⟨9,9,.wo,0⟩, ⟨8,8,.rw,0⟩]
  | .time, 0x10 => [⟨2,2,.w1c,0⟩]
  | .evtq, 0x4 => [⟨12,8,.ro,0xc⟩, ⟨4,0,.ro,4⟩]
  | .evtq, 0x8 => [⟨9,9,.wo,0⟩, ⟨8,8,.rw,0⟩]
  | .evtq, 0x10 => [⟨3,3,.w1c,0⟩, ⟨2,2,.w1c,0⟩]
  | .factor, 0x4 => [⟨15,8,.ro,0x28⟩, ⟨7,0,.ro,0x48⟩]
  | .factor, 0x10 => [⟨7,7,.w1c,0⟩, ⟨6,6,.w1c,0⟩, ⟨5,5,.w1c,0⟩, ⟨4,4,.w1c,0⟩, ⟨3,3,.w1c,0⟩, ⟨2,2,.w1c,0⟩]
  | .admission, 0x4 => [⟨20,16,.ro,0x10⟩, ⟨15,12,.ro,8⟩, ⟨7,4,.ro,0xc⟩]
  | .admission, 0x8 => [⟨9,9,.wo,0⟩, ⟨8,8,.rw,0⟩]
  | .admission, 0xc => [⟨8,8,.ro,0⟩]
  | .admission, 0x10 => [⟨5,5,.w1c,0⟩, ⟨4,4,.w1c,0⟩, ⟨3,3,.w1c,0⟩, ⟨2,2,.w1c,0⟩]
  | .migr, 0x4 => [⟨15,12,.ro,4⟩, ⟨11,8,.ro,0xc⟩, ⟨4,0,.ro,0x10⟩]
  | .migr, 0x8 => [⟨9,9,.wo,0⟩, ⟨8,8,.rw,0⟩]
  | .migr, 0xc => [⟨12,8,.ro,0⟩]
  | .migr, 0x10 => [⟨3,3,.w1c,0⟩, ⟨2,2,.w1c,0⟩]
  | .pcie, 0x8 => [⟨9,9,.wo,0⟩, ⟨8,8,.rw,0⟩]
  | .pcie, 0x10 => [⟨3,3,.w1c,0⟩, ⟨2,2,.w1c,0⟩]
  | .eth, 0x8 => [⟨9,9,.wo,0⟩, ⟨8,8,.rw,0⟩]
  | .eth, 0xc => [⟨8,8,.ro,0⟩]
  | .eth, 0x10 => [⟨2,2,.w1c,0⟩]
  | .session, 0x8 => [⟨9,9,.wo,0⟩, ⟨8,8,.rw,0⟩]
  | .session, 0x4 => [⟨4,0,.ro,0xe⟩]
  | .session, 0x10 => [⟨2,2,.w1c,0⟩]
  | .ctxt, 0x8 => [⟨9,9,.wo,0⟩, ⟨8,8,.rw,0⟩]
  | .ctxt, 0x10 => [⟨2,2,.w1c,0⟩]
  | .ddr, 0x4 => [⟨17,17,.ro,0⟩, ⟨16,16,.ro,1⟩, ⟨11,8,.ro,9⟩, ⟨1,0,.ro,2⟩]
  | .ddr, 0x8 => [⟨9,9,.wo,0⟩, ⟨8,8,.rw,0⟩]
  | .ddr, 0xc => [⟨10,10,.ro,0⟩, ⟨9,9,.ro,0⟩, ⟨8,8,.ro,0⟩]
  | .ddr, 0x10 => [⟨5,5,.w1c,0⟩, ⟨4,4,.w1c,0⟩, ⟨3,3,.w1c,0⟩, ⟨2,2,.w1c,0⟩]
  | .cxl, 0x4 => [⟨17,17,.ro,1⟩, ⟨16,16,.ro,1⟩, ⟨11,8,.ro,0⟩, ⟨1,0,.ro,3⟩]
  | .cxl, 0x8 => [⟨9,9,.wo,0⟩, ⟨8,8,.rw,0⟩]
  | .cxl, 0xc => [⟨10,10,.ro,0⟩, ⟨9,9,.ro,0⟩, ⟨8,8,.ro,0⟩]
  | .cxl, 0x10 => [⟨5,5,.w1c,0⟩, ⟨4,4,.w1c,0⟩, ⟨3,3,.w1c,0⟩, ⟨2,2,.w1c,0⟩]
  | .reel, 0x4 => [⟨24,21,.ro,0xc⟩, ⟨20,17,.ro,0xa⟩, ⟨16,14,.ro,4⟩, ⟨13,10,.ro,0xc⟩, ⟨9,5,.ro,0xc⟩, ⟨4,0,.ro,0xc⟩]
  | .reel, 0x8 => [⟨9,9,.wo,0⟩, ⟨8,8,.rw,0⟩]
  | .reel, 0xc => [⟨8,8,.ro,0⟩]
  | .reel, 0x10 => [⟨7,7,.w1c,0⟩, ⟨6,6,.w1c,0⟩, ⟨5,5,.w1c,0⟩, ⟨4,4,.w1c,0⟩, ⟨3,3,.w1c,0⟩, ⟨2,2,.w1c,0⟩]
  | .reelLink, 0x4 => [⟨15,8,.ro,1⟩, ⟨7,4,.ro,1⟩, ⟨3,0,.ro,4⟩]
  | .reelLink, 0x8 => [⟨9,9,.wo,0⟩, ⟨8,8,.rw,0⟩]
  | .reelLink, 0xc => [⟨10,8,.ro,0⟩]
  | .reelLink, 0x10 => [⟨4,4,.w1c,0⟩, ⟨3,3,.w1c,0⟩, ⟨2,2,.w1c,0⟩]
  | .caller, 0x4 => [⟨23,22,.ro,3⟩, ⟨21,17,.ro,0x10⟩, ⟨16,13,.ro,0xa⟩, ⟨12,9,.ro,0xd⟩, ⟨8,5,.ro,0xe⟩, ⟨4,0,.ro,0x11⟩]
  | .caller, 0x8 => [⟨10,10,.rw,0⟩, ⟨9,9,.wo,0⟩, ⟨8,8,.rw,0⟩]
  | .caller, 0xc => [⟨14,8,.ro,0⟩]
  | .caller, 0x10 => [⟨6,6,.w1c,0⟩, ⟨5,5,.w1c,0⟩, ⟨4,4,.w1c,0⟩, ⟨3,3,.w1c,0⟩, ⟨2,2,.w1c,0⟩]
  | .merge, 0x4 => [⟨20,16,.ro,0x15⟩, ⟨15,12,.ro,0xc⟩, ⟨11,8,.ro,6⟩, ⟨3,0,.ro,8⟩]
  | .merge, 0x8 => [⟨9,9,.wo,0⟩, ⟨8,8,.rw,0⟩]
  | .merge, 0xc => [⟨16,8,.ro,0⟩]
  | .merge, 0x10 => [⟨3,3,.w1c,0⟩, ⟨2,2,.w1c,0⟩]
  | .weaver, 0x4 => [⟨19,15,.ro,0x14⟩, ⟨14,12,.ro,5⟩, ⟨11,8,.ro,5⟩, ⟨7,4,.ro,5⟩, ⟨3,0,.ro,5⟩]
  | .weaver, 0x8 => [⟨9,9,.wo,0⟩, ⟨8,8,.rw,0⟩]
  | .weaver, 0xc => [⟨15,10,.ro,0⟩, ⟨9,8,.ro,0⟩]
  | .weaver, 0x10 => [⟨5,5,.w1c,0⟩, ⟨4,4,.w1c,0⟩, ⟨3,3,.w1c,0⟩, ⟨2,2,.w1c,0⟩]
  | .hbm, 0x4 => [⟨17,17,.ro,0⟩, ⟨16,16,.ro,0⟩, ⟨11,8,.ro,9⟩, ⟨1,0,.ro,1⟩]
  | .hbm, 0x8 => [⟨9,9,.wo,0⟩, ⟨8,8,.rw,0⟩]
  | .hbm, 0xc => [⟨10,10,.ro,0⟩, ⟨9,9,.ro,0⟩, ⟨8,8,.ro,0⟩]
  | .hbm, 0x10 => [⟨5,5,.w1c,0⟩, ⟨4,4,.w1c,0⟩, ⟨3,3,.w1c,0⟩, ⟨2,2,.w1c,0⟩]
  | .assayer, 0x4 => [⟨19,16,.ro,3⟩, ⟨15,12,.ro,6⟩, ⟨10,8,.ro,6⟩, ⟨4,0,.ro,0xf⟩]
  | .assayer, 0x8 => [⟨9,9,.wo,0⟩, ⟨8,8,.rw,0⟩]
  | .assayer, 0xc => [⟨17,17,.ro,0⟩, ⟨16,8,.ro,0⟩]
  | .assayer, 0x10 => [⟨4,4,.w1c,0⟩, ⟨3,3,.w1c,0⟩, ⟨2,2,.w1c,0⟩]
  | .egp, 0x4 => [⟨23,19,.ro,0x17⟩, ⟨18,15,.ro,4⟩, ⟨12,8,.ro,0xc⟩, ⟨4,0,.ro,0xc⟩]
  | .egp, 0x8 => [⟨10,10,.rw,0⟩, ⟨9,9,.wo,0⟩, ⟨8,8,.rw,0⟩]
  | .egp, 0xc => [⟨22,16,.ro,0⟩, ⟨9,9,.ro,0⟩, ⟨8,8,.ro,0⟩]
  | .egp, 0x10 => [⟨5,5,.w1c,0⟩, ⟨4,4,.w1c,0⟩, ⟨3,3,.w1c,0⟩, ⟨2,2,.w1c,0⟩]
  | .winnower, 0x4 => [⟨23,19,.ro,0x18⟩, ⟨18,15,.ro,5⟩, ⟨14,10,.ro,0x10⟩, ⟨9,5,.ro,0xc⟩, ⟨4,0,.ro,6⟩]
  | .winnower, 0x8 => [⟨9,9,.wo,0⟩, ⟨8,8,.rw,0⟩]
  | .winnower, 0xc => [⟨22,16,.ro,0⟩, ⟨9,8,.ro,0⟩]
  | .winnower, 0x10 => [⟨4,4,.w1c,0⟩, ⟨3,3,.w1c,0⟩, ⟨2,2,.w1c,0⟩]
  | .fcore, 0x4 => [⟨25,21,.ro,0x11⟩, ⟨20,16,.ro,0x16⟩, ⟨15,12,.ro,5⟩, ⟨11,10,.ro,2⟩, ⟨7,4,.ro,4⟩, ⟨3,0,.ro,6⟩]
  | .fcore, 0x8 => [⟨10,10,.rw,0⟩, ⟨9,9,.wo,0⟩, ⟨8,8,.rw,0⟩]
  | .fcore, 0xc => [⟨31,16,.ro,0⟩, ⟨9,9,.ro,0⟩, ⟨8,8,.ro,0⟩]
  | .fcore, 0x10 => [⟨3,3,.w1c,0⟩, ⟨2,2,.w1c,0⟩]
  | .carter, 0x4 => [⟨26,24,.ro,3⟩, ⟨23,20,.ro,8⟩, ⟨19,16,.ro,2⟩, ⟨12,8,.ro,0x10⟩, ⟨7,4,.ro,2⟩, ⟨3,0,.ro,4⟩]
  | .carter, 0x8 => [⟨10,10,.rw,0⟩, ⟨9,9,.wo,0⟩, ⟨8,8,.rw,0⟩]
  | .carter, 0xc => [⟨31,16,.ro,0⟩, ⟨15,13,.ro,1⟩, ⟨9,9,.ro,0⟩, ⟨8,8,.ro,0⟩]
  | .carter, 0x10 => [⟨6,6,.w1c,0⟩, ⟨5,5,.w1c,0⟩, ⟨4,4,.w1c,0⟩, ⟨3,3,.w1c,0⟩, ⟨2,2,.w1c,0⟩]
  | _, _ => []

end Sys2Proof.Machine
end

