-- ==== Sys2Proof/Machine/Regs.lean ====
section
/-! DEFINITION. The register file: the common page header (R36 to R40, Tables 2.4 to 2.11), the fields
at an offset, reset values, and the reads and writes that the device itself makes.  Register
numbers here are BAR0 byte offsets; a block's own register is its base plus a named offset. -/

namespace Sys2Proof.Machine

/-- A field list with only the reset word `v`, read-only. -/
def roWord (v : Nat) : List Field := [⟨31, 0, .ro, v⟩]

/-- ENABLE once a device reset has ended: 1 on the always-on blocks (Table 2.6) and on the blocks that the Factor's
firmware then enables, which are all but MIGR, whose policy ENABLE turns on (R184, R410, R445, R544; log entry 4). -/
def BlockKind.enableReset : BlockKind → Nat
  | .migr => 0
  | _ => 1

/-- The fields of the common header of page `p` of block `b` at page offset `o` (Tables 2.5 to 2.11). -/
def headerFields (b : Block) (p o : Nat) : List Field :=
  let r := catRow b.kind
  match o with
  | 0x000 => roWord (r.code * 2 ^ 24 + b.inst * 2 ^ 16 + 0x0100)
  | 0x004 => headerExtra b.kind 0x004
  | 0x008 => headerExtra b.kind 0x008 ++ [⟨1, 1, .wo, 0⟩, ⟨0, 0, .rw, b.kind.enableReset⟩]
  | 0x00C => headerExtra b.kind 0x00C ++ [⟨3, 3, .ro, 0⟩, ⟨2, 2, .ro, 0⟩, ⟨1, 1, .ro, 0⟩, ⟨0, 0, .ro, 0⟩]
  | 0x010 => headerExtra b.kind 0x010 ++ [⟨1, 1, .w1c, 0⟩, ⟨0, 0, .w1c, 0⟩]
  | 0x014 => [⟨31, 0, .rw, 0xFFFFFFFF⟩]
  | 0x018 => [⟨31, 0, .wo, 0⟩]
  | 0x01C => [⟨31, 31, .w1c, 0⟩, ⟨30, 30, .ro, 0⟩, ⟨23, 16, .ro, 0⟩, ⟨15, 0, .ro, 0⟩]
  | 0x020 => roWord 0
  | 0x024 => roWord 0
  | 0x028 => [⟨31, 0, .rc, 0⟩]
  | 0x02C => roWord (p * 2 ^ 24 + r.pages * 2 ^ 16 + b.die * 2 ^ 8 + (if b.hostWr then 0x80 else 0))
  | _ => []

/-- Whether a register row covers block offset `o`. -/
def RegSpec.covers (r : RegSpec) (o : Nat) : Bool :=
  if r.count ≤ 1 then decide (o = r.off)
  else decide (r.off ≤ o) && decide ((o - r.off) % r.stride = 0) && decide ((o - r.off) / r.stride < r.count)

/-- The register row of a block at block offset `o`. -/
def regAt (k : BlockKind) (o : Nat) : Option RegSpec := (regsOf k).find? (fun r => r.covers o)

/-- The BAR0 offset that holds a register: header offsets 0x004 to 0x028 of later pages are aliases of
page 0 (R37). -/
def normOff (off : Nat) : Nat :=
  match pageAt off with
  | some (b, _) =>
    let o := off % 0x1000
    if 0x004 ≤ o ∧ o ≤ 0x028 then b.base + o else off
  | none => off

/-- The fields of the register at a BAR0 offset; none at an offset that is not listed (R33, R36). -/
def fieldsAt (off : Nat) : List Field :=
  match pageAt off with
  | none => []
  | some (b, p) =>
    let o := off % 0x1000
    if o < 0x040 then headerFields b p o
    else ((regAt b.kind (off - b.base)).map (fun r => r.flds)).getD []

/-- Whether the register at a BAR0 offset is the `_LO` half of a 64-bit pair (R42). -/
def isPairLo (off : Nat) : Bool :=
  match pageAt off with
  | none => false
  | some (b, _) =>
    let o := off % 0x1000
    if o < 0x040 then decide (o = 0x020)
    else ((regAt b.kind (off - b.base)).map (fun r => r.pairLo)).getD false

/-- Whether the register at a BAR0 offset is the `_HI` half of a 64-bit pair (R42). -/
def isPairHi (off : Nat) : Bool := decide (4 ≤ off) && isPairLo (off - 4)

/-- The reset word of a field list. -/
def resetOf (fs : List Field) : Nat := fs.foldl (fun a f => a + f.rst % 2 ^ (f.hi + 1 - f.lo) * 2 ^ f.lo) 0

/-- The reset value of the register at a BAR0 offset (R38). -/
def resetWord (off : Nat) : W32 := BitVec.ofNat 32 (resetOf (fieldsAt off))

/-- `v` with bits `hi` to `lo` replaced by `x`. -/
def putBits (v hi lo x : Nat) : Nat :=
  v - bitsOf v hi lo * 2 ^ lo + x % 2 ^ (hi + 1 - lo) * 2 ^ lo

namespace Io

/-- The stored value of the register at a BAR0 offset. -/
def reg (io : Io) (off : Nat) : Nat :=
  let o := normOff off
  (smGet (resetWord o) o io.regs).toNat

/-- The device's own write of a whole register. -/
def setReg (io : Io) (off v : Nat) : Io :=
  let o := normOff off
  { io with regs := smPut (resetWord o) o (BitVec.ofNat 32 v) io.regs }

/-- Bits `hi` to `lo` of a register. -/
def fld (io : Io) (off hi lo : Nat) : Nat := bitsOf (io.reg off) hi lo

/-- The device's own write of a field. -/
def setFld (io : Io) (off hi lo x : Nat) : Io := io.setReg off (putBits (io.reg off) hi lo x)

/-- The 64-bit pair whose `_LO` half is at `off` (R42). -/
def reg64 (io : Io) (off : Nat) : Nat := io.reg off + 2 ^ 32 * io.reg (off + 4)

/-- The device's own write of a pair. -/
def setReg64 (io : Io) (off v : Nat) : Io := (io.setReg off v).setReg (off + 4) (v / 2 ^ 32)

/-- A block's register by its named offset. -/
def br (io : Io) (b : Block) (o : Nat) : Nat := io.reg (b.base + o)

/-- A field of a block's register. -/
def bf (io : Io) (b : Block) (o hi lo : Nat) : Nat := io.fld (b.base + o) hi lo

/-- Write a field of a block's register. -/
def setBf (io : Io) (b : Block) (o hi lo x : Nat) : Io := io.setFld (b.base + o) hi lo x

/-- BLK_CTRL.ENABLE of a block. -/
def enabled (io : Io) (b : Block) : Bool := decide (io.bf b 0x008 0 0 = 1)

/-- BLK_STAT.READY of a block (Table 2.7). -/
def ready (io : Io) (b : Block) : Bool := !io.notReady.contains b

/-- BLK_STAT.OFFLINE of a block. -/
def isOffline (io : Io) (b : Block) : Bool := io.offline.contains b

/-- CTR_FREEZE of a block: bit 10 on FCORE and CARTER, bit 8 on every block that has it. -/
def frozen (io : Io) (b : Block) : Bool :=
  match b.kind with
  | .fcore | .carter => decide (io.bf b 0x008 10 10 = 1)
  | .glb | .noc | .d2d | .factor | .power => false
  | _ => decide (io.bf b 0x008 8 8 = 1)

/-- Add `n` to a 32-bit counter of a block, saturating, unless CTR_FREEZE holds it. -/
def count (io : Io) (b : Block) (o n : Nat) : Io :=
  if io.frozen b then io
  else io.setReg (b.base + o) (min 0xFFFFFFFF (io.reg (b.base + o) + n))

/-- Add `n` to a 64-bit counter of a block, saturating, unless CTR_FREEZE holds it. -/
def count64 (io : Io) (b : Block) (o n : Nat) : Io :=
  if io.frozen b then io
  else io.setReg64 (b.base + o) (min 0xFFFFFFFFFFFFFFFF (io.reg64 (b.base + o) + n))

/-- The next free value, and the state that has taken it. -/
def takeFree (io : Io) : W64 × Io := (Config.freeValue io.free, { io with free := io.free + 1 })

/-- A message leaves the device. -/
def send (io : Io) (t : Tx) : Io := { io with tx := io.tx ++ [t] }

/-- The registers of a block return to their reset values (R38). -/
def resetRegs (io : Io) (b : Block) : Io :=
  { io with regs := smClear b.base (b.base + 0x1000 * (catRow b.kind).pages) io.regs }

/-- Only ENABLE of a block is cleared. -/
def disable (io : Io) (b : Block) : Io := io.setBf b 0x008 0 0 0

end Io

/-- What a write of `v` makes of a register's value by the access kinds of its fields (R11). -/
def applyWrite (fs : List Field) (old v : Nat) : Nat :=
  fs.foldl (fun a f =>
    match f.acc with
    | .rw => putBits a f.hi f.lo (bitsOf v f.hi f.lo)
    | .w1c => putBits a f.hi f.lo (Nat.land (bitsOf a f.hi f.lo) (2 ^ (f.hi + 1 - f.lo) - 1 - bitsOf v f.hi f.lo))
    | .w1s => putBits a f.hi f.lo (Nat.lor (bitsOf a f.hi f.lo) (bitsOf v f.hi f.lo))
    | .ro | .rc | .wo => a) old

/-- What a read leaves in a register: RC fields clear (R11). -/
def afterRead (fs : List Field) (old : Nat) : Nat :=
  fs.foldl (fun a f => match f.acc with
    | .rc => putBits a f.hi f.lo 0
    | _ => a) old

/-- What a read returns of write-only fields: zero (R11). -/
def readable (fs : List Field) (v : Nat) : Nat :=
  fs.foldl (fun a f => match f.acc with
    | .wo => putBits a f.hi f.lo 0
    | _ => a) v

/-- Registers that count and that CTR_CLEAR zeroes: RC registers and the 64-bit RO totals, but not
addresses, identifiers, captures and clocks (R142 and its like). -/
def isCounter (k : BlockKind) (r : RegSpec) : Bool :=
  (r.flds.any (fun f => f.acc == .rc)) ||
  (let hi := (regsOf k).any (fun q => q.pairLo && decide (q.off + 4 = r.off) && decide (q.stride = r.stride))
   (r.pairLo || hi) && r.flds.all (fun f => f.acc == .ro) &&
   (let o := if hi && !r.pairLo then r.off - 4 else r.off
    match k with
    | .glb => false
    | .time => false
    | .fcore => !(o == Off.fcore_EXC_PC_LO)
    | .carter => !(o == Off.carter_SS_FADDR_LO)
    | .admission => !(o == Off.admit_GUARD_LO)
    | .hbm => !(o == Off.hbm_LAST_UE_LO)
    | .ddr => !(o == Off.ddr_LAST_UE_LO)
    | .cxl => !(o == Off.cxl_LAST_UE_LO)
    | .migr => (o == Off.migr_PROMOTIONS_LO) || (o == Off.migr_DEMOTIONS_LO)
    | .reel => (o == Off.reel_PKTS_TX_LO) || (o == Off.reel_PKTS_RX_LO)
    | .reelLink => !(o == Off.reelLink_PEER_UID_LO)
    | .evtq => (o == Off.evtq_RECORDS_LO)
    | .factor => false
    | _ => true))

/-- Every copy of a register row, as block offsets. -/
def RegSpec.offsets (r : RegSpec) : List Nat := (List.range (max 1 r.count)).map (fun i => r.off + r.stride * i)

/-- CTR_CLEAR: every counter of the block reads zero (R142). -/
def Io.clearCounters (io : Io) (b : Block) : Io :=
  ((regsOf b.kind).filter (isCounter b.kind)).foldl
    (fun io r => r.offsets.foldl (fun io o => io.setReg (b.base + o) 0) io) io

end Sys2Proof.Machine
end

