-- ==== Sys2Proof/Machine/Events.lean ====
section
/-! DEFINITION. Event bits, event records and error capture: R39, R40, R525 to R529. -/

namespace Sys2Proof.Machine

namespace Io

/-- Give a record to event delivery: into the intake of 4,096, or held at its source (at most 16), or
lost and counted (R529). -/
def emit (io : Io) (r : EvRec) : Io :=
  if io.intake.length < 4096 ∧ io.held = [] then
    { io with intake := io.intake ++ [{ r with afterLoss := io.srcLoss.contains r.src }],
              srcLoss := io.srcLoss.filter (fun b => !(b == r.src)) }
  else if (io.held.filter (fun h => h.src == r.src)).length < 16 then
    { io with held := io.held ++ [{ r with afterLoss := io.srcLoss.contains r.src }],
              srcLoss := io.srcLoss.filter (fun b => !(b == r.src)) }
  else
    let q : Block := ⟨.evtq, 0⟩
    let io := io.count q Off.evtq_SRC_LOST 1
    let st := io.br q 0x010
    let io := io.setReg (q.base + 0x010) (putBits st 2 2 1)
    { io with srcLoss := if io.srcLoss.contains r.src then io.srcLoss else io.srcLoss ++ [r.src] }

/-- A record of block `b`, stamped with the time base (Table 20.1). -/
def mkRec (io : Io) (b : Block) (cls code : Nat) (ctx : Option Nat := none) (addr info : Nat := 0) : EvRec :=
  { ts := io.tb, src := b, cls := cls, ctx := ctx, code := code, addr := addr, info := info }

/-- Emit a record whatever the event bits (a record that its chapter emits for every occurrence). -/
def note (io : Io) (b : Block) (cls code : Nat) (ctx : Option Nat := none) (addr info : Nat := 0) : Io :=
  io.emit (io.mkRec b cls code ctx addr info)

/-- Key of an event bit in the table of last occurrences. -/
def occKey (b : Block) (bit : Nat) : Nat := b.base * 32 + bit

/-- An event bit of a block occurs with the record `r`: when the bit rises and is not masked the record
is emitted (R39). -/
def riseWith (io : Io) (b : Block) (bit : Nat) (r : Option EvRec) : Io :=
  let st := io.br b 0x010
  if bitOf st bit then io
  else
    let io := io.setReg (b.base + 0x010) (putBits st bit bit 1)
    let io := { io with occ := smPut none (occKey b bit) r io.occ }
    if bitOf (io.br b 0x014) bit then io
    else match r with
      | some r => io.emit r
      | none => io

/-- An event bit with no named record: class BLOCK_EVENT, code 0x0E00 + bit, EVT_STAT after the rise in
INFO (R528). -/
def rise (io : Io) (b : Block) (bit : Nat) (ctx : Option Nat := none) : Io :=
  io.riseWith b bit (some (io.mkRec b Cls.BLOCK_EVENT (0x0E00 + bit) ctx 0 (putBits (io.br b 0x010) bit bit 1)))

/-- An event bit with a record that its chapter names (R528). -/
def riseNamed (io : Io) (b : Block) (bit cls code : Nat) (ctx : Option Nat := none) (addr info : Nat := 0) : Io :=
  io.riseWith b bit (some (io.mkRec b cls code ctx addr info))

/-- An event bit that emits no record of its own: its chapter emits one for every occurrence (R528). -/
def riseQuiet (io : Io) (b : Block) (bit : Nat) : Io := io.riseWith b bit none

/-- The class that a code of Table 20.3 has in a record. -/
def classOf (code : Nat) : Nat :=
  if 0x0280 ≤ code ∧ code < 0x0300 then Cls.FAULT
  else if 0x0300 ≤ code ∧ code < 0x0400 then Cls.TASK
  else if Code.OPERAND_TIMEOUT ≤ code ∧ code < 0x0700 then Cls.TASK
  else Cls.ERROR

/-- Error capture (R40): the first error sets the capture and ERR_CAPTURED, a further one sets OVERFLOW,
and every one increments ERR_COUNT. -/
def capture (io : Io) (b : Block) (code addr : Nat) (ctx : Option Nat := none) : Io :=
  let cap := io.br b 0x01C
  let io :=
    if bitOf cap 31 then io.setReg (b.base + 0x01C) (putBits cap 30 30 1)
    else
      let io := io.setReg (b.base + 0x01C) (2 ^ 31 + classOf code * 2 ^ 16 + code)
      let io := io.setReg64 (b.base + 0x020) addr
      io.riseNamed b 0 (classOf code) code ctx addr 0
  io.setReg (b.base + 0x028) (min 0xFFFFFFFF (io.reg (b.base + 0x028) + 1))

/-- Writing 1 to ERR_CAPT.VALID (R40). -/
def clearCapture (io : Io) (b : Block) : Io :=
  (io.setReg (b.base + 0x01C) 0).setReg64 (b.base + 0x020) 0

/-- The record that names event bit `bit` of a kind of block, where a chapter names one (R528). -/
def namedRec : BlockKind → Nat → Option (Nat × Nat)
  | _, 1 => some (Cls.CONTAINMENT, Code.OFFLINED)
  | .ctxt, 2 => some (Cls.LINK, Code.RING_FAULT)
  | .session, 2 => some (Cls.LINK, Code.SESSION_ERROR)
  | .admission, 4 => some (Cls.SERVICE, Code.DEADLINE_MISS)
  | .admission, 5 => some (Cls.SERVICE, Code.RESERVATION_SHORT)
  | .clkrst, 2 => some (Cls.FATAL, Code.REFCLK_LOSS)
  | .factor, 5 => some (Cls.SECURITY, Code.LC_CHANGE)
  | .factor, 6 => some (Cls.SECURITY, Code.CAL_BAD)
  | .factor, 7 => some (Cls.LOG, Code.LOG_LOST)
  | .factor, 3 => some (Cls.ENVIRONMENT, Code.THERMAL_WARN)
  | .reel, 7 => some (Cls.LINK, Code.ADDR_CHANGED)
  | .hbm, 3 | .ddr, 3 | .cxl, 3 => some (Cls.POISON, Code.MEM_UE)
  | _, _ => none

/-- The forced record of an event bit (R39): class and code of the bit's own record, context, address
and detail zero but for ERR_ADDR of ERR_CAPTURED and EVT_STAT of a BLOCK_EVENT. -/
def forcedRec (io : Io) (b : Block) (bit stat : Nat) : EvRec :=
  if bit = 0 then
    let cap := io.br b 0x01C
    if bitOf cap 31 then
      { ts := io.tb, src := b, cls := bitsOf cap 23 16, forced := true, code := bitsOf cap 15 0, addr := io.reg64 (b.base + 0x020) }
    else { ts := io.tb, src := b, cls := Cls.ERROR, forced := true, code := Code.OK, addr := io.reg64 (b.base + 0x020) }
  else match namedRec b.kind bit with
    | some (c, k) => { ts := io.tb, src := b, cls := c, forced := true, code := k }
    | none => { ts := io.tb, src := b, cls := Cls.BLOCK_EVENT, forced := true, code := 0x0E00 + bit, info := stat }

/-- The event bits that a block has: the W1C fields of its EVT_STAT. -/
def eventBits (b : Block) : List Nat :=
  (List.range 32).filter (fun i => (fieldsAt (b.base + 0x010)).any (fun f => decide (f.lo ≤ i) && decide (i ≤ f.hi)))

/-- A write of EVT_FORCE: each 1 sets its bit as if the event had occurred, with a forced record (R39). -/
def force (io : Io) (b : Block) (v : Nat) : Io :=
  ((eventBits b).filter (fun i => bitOf v i)).foldl
    (fun io i => io.riseWith b i (some (io.forcedRec b i (putBits (io.br b 0x010) i i 1)))) io

/-- A write of EVT_MASK: clearing the mask of a set status bit emits that bit's record (R39). -/
def writeMask (io : Io) (b : Block) (v : Nat) : Io :=
  let old := io.br b 0x014
  let st := io.br b 0x010
  let io := io.setReg (b.base + 0x014) v
  ((List.range 32).filter (fun i => bitOf st i && bitOf old i && !bitOf v i)).foldl
    (fun io i =>
      match smGet none (occKey b i) io.occ with
      | some r => io.emit { r with ts := io.tb }
      | none => io.emit { io.mkRec b Cls.BLOCK_EVENT (0x0E00 + i) none 0 st with forced := false }) io

end Io

end Sys2Proof.Machine
end

