-- ==== Sys2Proof/Machine/TypesFactor.lean ====
section
/-! DEFINITION. The state of the Factor (chapter 18): fuses, flash, mailbox, sensors, duties and log; and of event delivery
and containment (chapter 20). -/

namespace Sys2Proof.Machine

/-- A record of the Factor's log (Table 18.5). -/
structure LogRec where
  ev : EvRec
  seq : Nat
  boot : Nat
  fromFactor : Bool
  afterLoss : Bool
  deriving DecidableEq, Repr

/-- The fuses (R483, R487, R489). -/
structure Fuses where
  /-- SHA-384 of the owner key, once provisioned. -/
  owner : Option (List Byte) := none
  commit : Bool := false
  opens : Nat := 0
  closes : Nat := 0
  returned : Bool := false
  /-- SVN floor bits burned. -/
  floor : Nat := 0
  /-- Vendor key slots: the hash each holds, and whether it is revoked. -/
  keys : List (List Byte) := [[], [], [], []]
  revoked : List Bool := [false, false, false, false]
  deriving DecidableEq, Repr

/-- A copy of the calibration set (R496): its bytes where they are not zero, its generation, and whether its CRC is good. -/
structure CalCopy where
  data : SMap Byte := []
  gen : Nat := 0
  good : Bool := true
  deriving DecidableEq, Repr

/-- A PLDM firmware update in progress (R485): the transport, the image so far, and whether it has been verified. -/
structure FwUpdate where
  transport : Nat
  slot : Nat
  image : List Byte := []
  verified : Bool := false
  deriving DecidableEq, Repr

/-- A life-cycle transition under way (R492): who asked, and the state it goes to. -/
structure LcRun where
  /-- None for the host mailbox, else the MCTP transport. -/
  transport : Option Nat
  target : Nat
  deriving DecidableEq, Repr

/-- What the Factor knows of a sensor: its last raw value, for how many samples it has stayed, and whether it has failed. -/
structure Sensor where
  last : Int := 0
  same : Nat := 0
  failed : Bool := false
  deriving DecidableEq, Repr

/-- The Factor: fuses, flash, its SRAM and the sensors (R472 to R501). -/
structure FactorSt where
  fuses : Fuses := { owner := some (List.replicate 48 0), commit := true }
  /-- Firmware slots A and B, empty when erased, and whether each is marked failed (Table 18.1, R484). -/
  slots : List (List Byte) := [1 :: List.replicate 511 0, []]
  failed : List Bool := [false, false]
  cal : List CalCopy := [{ gen := 1 }, {}]
  /-- The policy block (Table 18.1). -/
  active : Nat := 0
  zfT2 : Bool := false
  zfT3 : Bool := false
  wipePending : Bool := false
  bootCount : Nat := 1
  /-- Records in flash and in SRAM, oldest first; the number of the latter that a page write now takes; the next sequence
  number; records lost since the last one logged (R480). -/
  flash : List LogRec := []
  sram : List LogRec := []
  writing : Nat := 0
  nextSeq : Nat := 0
  logLoss : Bool := false
  /-- Booted slot; none in the recovery state of R484. -/
  booted : Option Nat := some 0
  /-- Life-cycle state (R489): 0 BLANK, 1 PROVISIONED, 2 OPERATIONAL, 3 DEBUG_OPEN, 4 RETURNED. -/
  lc : Nat := 2
  /-- The host's request in the mailbox (R473): its sequence number and bytes. -/
  mbx : Option (Nat × List Byte) := none
  nonce : Option (List Byte) := none
  lcRun : Option LcRun := none
  update : Option FwUpdate := none
  /-- Endpoint IDs of the two MCTP transports, 0 PCIe VDM and 1 I3C (R482). -/
  eids : List Nat := [0, 0]
  sensors : SMap Sensor := []
  /-- A THERMAL_WARN record has been emitted, and the readings have not yet fallen far enough (R476). -/
  warned : Bool := false
  /-- The last sample had a reading at or above 115 °C. -/
  hot : Bool := false
  /-- The last ten power samples in mW, oldest first, and current samples in a row below 21 A (R477). -/
  power : List Nat := []
  lowAmps : Nat := 0
  /-- SPDM messages exchanged so far on each transport, which signatures cover (R488). -/
  spdm : List (List Byte) := [[], []]
  /-- The TAP is in internal debug (R499). -/
  tap : Bool := false
  /-- Zero-fills of the wipe now running (R494, R495). -/
  fillT2 : Bool := false
  fillT3 : Bool := false
  deriving DecidableEq, Repr

/-- Run state of an event queue besides its registers (R531, R532). -/
structure EvtQueue where
  phase : Bool := true
  armed : Bool := false
  afterLoss : Bool := false
  /-- Records that wait for a session, oldest first. -/
  batch : List EvRec := []
  deriving DecidableEq, Repr

/-- Event delivery and containment (R529 to R537). -/
structure EvtSt where
  queues : SMap EvtQueue := []
  /-- Times of containment resets by scope (R534). -/
  contained : List (Scope × Nat) := []
  /-- Resets that ONLINE writes have asked for (R534). -/
  onlining : List Scope := []
  deriving DecidableEq, Repr

end Sys2Proof.Machine
end

