-- ==== Sys2Proof/Machine/State.lean ====
section
/-! DEFINITION. The state of the device. -/

namespace Sys2Proof.Machine

/-- The whole state: every register, buffer, table, mode and pin that the spec gives the device, and the
queue of commands that wait. -/
structure State where
  io : Io := {}
  mem : MemSt := {}
  rst : RstSt := {}
  adm : AdmSt := {}
  call : SMap CallerSt := []
  host : HostSt := {}
  cores : SMap CoreSt := []
  fetch : FetchSt := {}
  queue : QueueSt := {}
  egp : EgpSt := {}
  assay : AssaySt := {}
  merge : MergeSt := {}
  expert : ExpertSt := {}
  weave : WeaveSt := {}
  fab : FabSt := {}
  fac : FactorSt := {}
  evt : EvtSt := {}
  pending : List Instr := []
  deriving DecidableEq, Repr

/-- Faults of the machine.  The device reports its own errors in its registers, records and results, so that no command ends
a run. -/
inductive Fault where
  /-- A command to which the spec gives no effect.  No meaning of this model raises it; it would be safe, since the machine
  stops where the device might go on. -/
  | unspecified (what : String)
  deriving DecidableEq, Repr

/-- Refusals of the model. -/
inductive Refusal where
  /-- A command without a meaning in this model, by the mnemonic of its row.  No arm of `exec` raises it now; it is safe. -/
  | notModelled (mnemonic : String)
  deriving DecidableEq, Repr

/-- The registers that reset leaves at a value of the device's population: PCIE.LINK and the two CXL LINK registers at full
width and speed (Tables 16.8 and 16.9; log entry 9). -/
def resetRegisters : SMap W32 := [(0xF040, 0x46), (0x50100, 0x80000046), (0x51100, 0x80000046)]

/-- The device at the end of its first cold reset: every page reports READY, every register has its reset value, and no
driver has negotiated (R38, R49, R510; log entry 9). -/
def State.reset : State := { io := { regs := resetRegisters } }

end Sys2Proof.Machine
end

