-- ==== Sys2Proof/Machine/Memory.lean ====
section
/-! DEFINITION. Memory tiers, protection and placement: R395 to R417. -/

namespace Sys2Proof.Machine

/-- Bytes of a stack outside its device-reserved area, in whole placement pages: 48 GB less 1 GiB
(R395; the size of the reserved area is log entry 9). -/
def t1Capacity : Nat := 716037 * 65536

/-- MIGR.T1_LEN[h]: the stack's capacity less its share of the pool; zero for a stack that did not train
(R395, R409, R415). -/
def MemSt.t1Len (m : MemSt) (h : Nat) : Nat :=
  if m.hbmUp.contains h then t1Capacity - m.poolFrames / 8 * 65536 else 0

/-- MIGR.T2_LEN: channels trained times module capacity (R397). -/
def MemSt.t2Len (m : MemSt) : Nat := m.ddrUp.length * m.ddrBytes

/-- MIGR.T3_LEN[p]: eight ninths of the raw capacity used, in whole pages (R398). -/
def MemSt.t3Len (m : MemSt) (p : Nat) : Nat :=
  if m.cxlUp.contains p then min (m.cxlRaw.getD p 0) 1280000000000 / 73728 * 65536 else 0

/-- The window of a device address: its tier, and the stack or port (Table 15.1). -/
inductive Window where
  | t1 (h : Nat)
  | t2
  | t3 (p : Nat)
  deriving DecidableEq, Repr

/-- Table 15.1: the window that an address lies in and its offset there. -/
def windowOf (a : Nat) : Option (Window × Nat) :=
  if a < 0x8000000000 then some (.t1 (a / 0x1000000000), a % 0x1000000000)
  else if 0x10000000000 ≤ a ∧ a < 0x30000000000 then some (.t2, a - 0x10000000000)
  else if 0x40000000000 ≤ a ∧ a < 0x60000000000 then some (.t3 0, a - 0x40000000000)
  else if 0x60000000000 ≤ a ∧ a < 0x80000000000 then some (.t3 1, a - 0x60000000000)
  else none

/-- The populated length of a window. -/
def MemSt.winLen (m : MemSt) : Window → Nat
  | .t1 h => m.t1Len h
  | .t2 => m.t2Len
  | .t3 p => m.t3Len p

/-- Tier number of a window. -/
def Window.tier : Window → Nat
  | .t1 _ => 1
  | .t2 => 2
  | .t3 _ => 3

/-- Whether an address lies in a populated length (R395). -/
def MemSt.mapped (m : MemSt) (a : Nat) : Bool :=
  match windowOf a with
  | some (w, o) => decide (o < m.winLen w)
  | none => false

/-- The controller that backs a mapped address: the stack, the interleaved channel (R397), the port. -/
def MemSt.controller (m : MemSt) (a : Nat) : Option Block :=
  match windowOf a with
  | some (.t1 h, _) => some ⟨.hbm, h⟩
  | some (.t2, o) => some ⟨.ddr, m.ddrUp.getD ((o / 256) % m.ddrUp.length) 0⟩
  | some (.t3 p, _) => some ⟨.cxl, p⟩
  | none => none

/-- Byte offset of a tier-2 address on its channel (R397). -/
def MemSt.channelOffset (m : MemSt) (o : Nat) : Nat := (o / 256) / m.ddrUp.length * 256 + o % 256

/-- The expander line of usable line `n` of a port, and the line of its check symbols (R402). -/
def expanderLine (n : Nat) : Nat := n / 8 * 9 + n % 8
def expanderCheckLine (n : Nat) : Nat := n / 8 * 9 + 8

/-- The end of the windows of tier 1: bytes below are plain, bytes above are encrypted (R407). -/
def tier1End : Nat := 0x8000000000

/-- Whether a byte of device memory that nothing has written reads as zero: its unit has been zeroed or zero-filled
(R494), or the address is unmapped. -/
def MemSt.readsZero (m : MemSt) (a : Nat) : Bool :=
  match m.controller a with
  | some b => m.zeroed.contains b
  | none => true

/-- What a byte of device memory that nothing has written reads as: zero where a wipe has zeroed it, and else a value
that the spec leaves open under the present keys, or since power was lost (R408, R514, R539). -/
def MemSt.dflt (m : MemSt) (a : Nat) : Byte := if m.readsZero a then 0 else Config.wipedByte (m.keyGen + m.blank) a

/-- One byte of device memory. -/
def MemSt.byte (m : MemSt) (a : Nat) : Byte := (smFind a m.dev).getD (m.dflt a)

/-- Write one byte of device memory. -/
def MemSt.putByte (m : MemSt) (a : Nat) (v : Byte) : MemSt :=
  { m with dev := if m.readsZero a && decide (v = 0) then smErase a m.dev else smInsert a v m.dev }

/-- `n` bytes from address `a`. -/
def MemSt.bytes (m : MemSt) (a n : Nat) : List Byte := (List.range n).map (fun i => m.byte (a + i))

/-- Write bytes from address `a`. -/
def MemSt.putBytes (m : MemSt) (a : Nat) : List Byte → MemSt
  | [] => m
  | b :: bs => (m.putByte a b).putBytes (a + 1) bs

/-- A little-endian number of `n` bytes at `a` (R6). -/
def MemSt.num (m : MemSt) (a n : Nat) : Nat := leNat (m.bytes a n)

/-- The canonical form of device memory: rising addresses and no zero listed where an unlisted byte reads zero. -/
def MemSt.devWf (m : MemSt) : Bool :=
  smSorted m.dev && m.dev.all (fun e => !(m.readsZero e.1 && decide (e.2 = 0)))

/-- The canonical form of a plain byte memory: rising addresses and no zero listed. -/
def cellsWf (m : SMap Byte) : Bool := smSorted m && m.all (fun e => decide (e.2 ≠ 0))

/-- The canonical form of every memory of the device. -/
def MemSt.wf (m : MemSt) : Bool := m.devWf && cellsWf m.host && cellsWf m.ring

/-- One byte of host memory; a byte that nothing has written reads as zero (log entry 10). -/
def MemSt.hostByte (m : MemSt) (a : Nat) : Byte := smGet 0 a m.host

/-- Write one byte of host memory. -/
def MemSt.putHostByte (m : MemSt) (a : Nat) (v : Byte) : MemSt := { m with host := smPut 0 a v m.host }

/-- Write bytes of host memory. -/
def MemSt.putHost (m : MemSt) (a : Nat) : List Byte → MemSt
  | [] => m
  | b :: bs => (m.putHostByte a b).putHost (a + 1) bs

/-- `n` bytes of host memory. -/
def MemSt.hostBytes (m : MemSt) (a n : Nat) : List Byte := (List.range n).map (fun i => m.hostByte (a + i))

/-- One byte of the BAR2 ring area, by BAR2 offset. -/
def MemSt.ringByte (m : MemSt) (a : Nat) : Byte := smGet 0 a m.ring

/-- Write one byte of the ring area. -/
def MemSt.putRingByte (m : MemSt) (a : Nat) (v : Byte) : MemSt := { m with ring := smPut 0 a v m.ring }

/-- Write bytes of the ring area. -/
def MemSt.putRing (m : MemSt) (a : Nat) : List Byte → MemSt
  | [] => m
  | b :: bs => (m.putRingByte a b).putRing (a + 1) bs

/-- `n` bytes of the ring area. -/
def MemSt.ringBytes (m : MemSt) (a n : Nat) : List Byte := (List.range n).map (fun i => m.ringByte (a + i))

/-- The numbers of the 64-byte lines that `n` bytes at `a` touch. -/
def linesOf (a n : Nat) : List Nat :=
  if n = 0 then [] else (List.range ((a + n - 1) / 64 - a / 64 + 1)).map (fun i => a / 64 + i)

/-- Whether a line is poisoned. -/
def MemSt.poisoned (m : MemSt) (line : Nat) : Bool := smGet false line m.poison

/-- Whether any line under `n` bytes at `a` is poisoned (R405). -/
def MemSt.anyPoison (m : MemSt) (a n : Nat) : Bool := (linesOf a n).any (fun l => m.poisoned l)

/-- Set or clear a line's poison. -/
def MemSt.setPoison (m : MemSt) (line : Nat) (p : Bool) : MemSt := { m with poison := smPut false line p m.poison }

/-- The poison of each line after a write of `n` bytes at `a`: a poisoned write poisons; a clean write of a
whole line clears; a clean write of part of a line leaves it (R405, R406). -/
def MemSt.writePoison (m : MemSt) (a n : Nat) (p : Bool) : MemSt :=
  (linesOf a n).foldl (fun m l =>
    if p then m.setPoison l true
    else if a ≤ l * 64 ∧ l * 64 + 64 ≤ a + n then m.setPoison l false
    else m) m

/-- A write of bytes with their poison. -/
def MemSt.write (m : MemSt) (a : Nat) (bs : List Byte) (p : Bool) : MemSt :=
  (m.putBytes a bs).writePoison a bs.length p

/-- The placement page of an address is marked moving (Table 15.5, MARK to SWITCH). -/
def MemSt.moving (m : MemSt) (a : Nat) : Bool :=
  m.moves.any (fun v => decide (v.page = a / 65536) && (v.phase == .mark || v.phase == .copy || v.phase == .release))

/-- What an engine's access to a mapped device address meets: TIER_OFFLINE on a lost unit unless the page
is promoted (R415), MIGRATING on a moving page (R411), or nothing. -/
def MemSt.accessFault (m : MemSt) (a : Nat) : Option Nat :=
  let promoted := (smFind (a / 65536) m.promoted).isSome
  match m.controller a with
  | some b => if m.lost.contains b && !promoted then some Code.TIER_OFFLINE
              else if m.moving a then some Code.MIGRATING else none
  | none => some Code.TIER_OFFLINE

/-- The first fault that an access of `n` bytes meets, line by line, with its line. -/
def MemSt.rangeFault (m : MemSt) (a n : Nat) : Option (Nat × Nat) :=
  (linesOf a n).findSome? (fun l => (m.accessFault (l * 64)).map (fun c => (c, l)))

/-- The key of the MIGR block. -/
def bMigr : Block := ⟨.migr, 0⟩
def bGlb : Block := ⟨.glb, 0⟩

/-- Fault an access at a moving page: MIGR_FAULTS counts it (Table 15.9). -/
def Io.countMigrFault (io : Io) (code : Nat) : Io :=
  if code = Code.MIGRATING then io.count bMigr Off.migr_MIGR_FAULTS 1 else io

/-- The entry of a sketch with the smallest count (R262). -/
def sketchMin : SMap Nat → Option (Nat × Nat)
  | [] => none
  | e :: m => match sketchMin m with
    | none => some e
    | some f => if f.2 < e.2 then some f else some e

/-- Add `n` to the entry of `k` in a sketch of at most `cap` entries; when full, a new key replaces the
entry with the smallest count and starts from that count plus its own (R262). -/
def sketchAdd (cap k n : Nat) (m : SMap Nat) : SMap Nat :=
  match smFind k m with
  | some c => smInsert k (min (c + n) 0xFFFFFFFF) m
  | none =>
    if m.length < cap then smInsert k n m
    else match sketchMin m with
      | some (j, c) => smInsert k (min (c + n) 0xFFFFFFFF) (smErase j m)
      | none => m

/-- MIGR sampling of a line request to tier 2 or 3: one in 2^RATE_LOG2 is counted (R410). -/
def MemSt.sample (m : MemSt) (io : Io) (a : Nat) : MemSt :=
  if a < tier1End ∨ !io.enabled bMigr then m
  else
    let rate := 2 ^ io.bf bMigr Off.migr_SAMPLE 3 0
    let n := m.sampleCt + 1
    if n % rate = 0 then { m with sampleCt := n, sketch := sketchAdd 4096 (a / 65536) 1 m.sketch }
    else { m with sampleCt := n }

namespace State

/-- Bytes of device memory. -/
def dbytes (s : State) (a n : Nat) : List Byte := s.mem.bytes a n

/-- A number in device memory. -/
def dnum (s : State) (a n : Nat) : Nat := s.mem.num a n

/-- A device write of bytes. -/
def dwrite (s : State) (a : Nat) (bs : List Byte) (p : Bool := false) : State := { s with mem := s.mem.write a bs p }

/-- Change the register and event side. -/
def mapIo (s : State) (f : Io → Io) : State := { s with io := f s.io }

end State

/-- The erasure group of symbol `i` of a line: eight data bytes to a group, the check symbols group 8 (R400). -/
def symGroup (i : Nat) : Nat := i / 8

/-- Whether RS(72,64) corrects errors at the symbols `errs` with `e` marked groups erased: 2t + e ≤ 8,
where t counts the errors outside the marked group and the erased symbols are the group's eight (R399, R400). -/
def correctable (errs : List Nat) (marks : Nat) : Bool :=
  let marked := (List.range 9).filter (fun g => bitOf marks g)
  let t := (errs.filter (fun i => !marked.contains (symGroup i))).length
  decide (2 * t + 8 * marked.length ≤ 8)

/-- A controller finds an uncorrectable line: delivered and written back poisoned, recorded in LAST_UE,
counted, and the event bit set (R403; the write-back is a line written poisoned, log entry 77). -/
def uncorrectable (s : State) (b : Block) (a : Nat) : State :=
  let io := s.io.setReg64 (b.base + Off.hbm_LAST_UE_LO) a
  let io := (io.count b Off.hbm_UNCORR 1).count b Off.hbm_POISON_WR 1
  let tier := io.bf b 0x004 1 0
  let io := io.riseNamed b 3 Cls.POISON Code.MEM_UE none a tier
  { s with io := io, mem := s.mem.setPoison (a / 64) true }

/-- Corrected symbol errors confined to one group add to the group's count of the pass; at THRESH the
group is marked, unless a group is marked already (R400, R401). -/
def markGroups (s : State) (b : Block) (errs : List Nat) : State :=
  match errs with
  | [] => s
  | e :: _ =>
    let g := symGroup e
    if b.kind = .cxl ∨ !(errs.all (fun i => symGroup i == g)) then s
    else
      let k := b.base * 16 + g
      let n := smGet 0 k s.mem.groupErrs + errs.length
      let s := { s with mem := { s.mem with groupErrs := smPut 0 k n s.mem.groupErrs } }
      let th := s.io.bf b Off.hbm_MARK_CFG 7 0
      if th ≠ 0 ∧ th ≤ n ∧ s.io.br b Off.hbm_MARKS = 0 then
        let io := s.io.setReg (b.base + Off.hbm_MARKS) (2 ^ g)
        { s with io := io.rise b 4 }
      else s

/-- What a controller's read of a line does: correct and write back, or find it uncorrectable (R403).
On tier 3 a poisoned check line leaves the group under the expander's own protection (R402). -/
def readLine (s : State) (b : Block) (a : Nat) (errs : List Nat) (checkPoisoned : Bool) : State :=
  if b.kind = .cxl ∧ checkPoisoned then
    let port := b.inst
    let o := a - (if port = 0 then 0x40000000000 else 0x60000000000)
    { s with io := s.io.count b Off.cxl_CHECK_LOST 1,
             mem := { s.mem with checkLost := (port * 2 ^ 40 + o / 512) :: s.mem.checkLost } }
  else if s.mem.poisoned (a / 64) then { s with io := s.io.count b Off.hbm_POISON_RD 1 }
  else if errs = [] then s
  else if correctable errs (s.io.br b Off.hbm_MARKS) then
    let s := { s with io := (s.io.count64 b Off.hbm_CORRECTED_LO 1).rise b 2,
                      mem := { s.mem with writeBack := (a / 64) :: s.mem.writeBack } }
    markGroups s b errs
  else { uncorrectable s b a with io := (uncorrectable s b a).io.count b Off.hbm_POISON_RD 1 }

/-- MEMORY_READ: the controller of a line serves a read of it (R403), sampled for placement (R410). -/
def execMemoryRead (b : Block) (addr : Nat) (errs : List Nat) (checkPoisoned : Bool) (s : State) :
    Host.Outcome State Fault Refusal :=
  if s.mem.controller addr ≠ some b then .next s
  else .next (readLine { s with mem := s.mem.sample s.io addr } b (addr / 64 * 64) errs checkPoisoned)

/-- MEMORY_WRITE: a controller writes bytes of lines; a corrective write-back of the same line is dropped
(R403), a poisoned line is counted, and on tier 3 the write of a group whose check line was lost
restores the check line (R402). -/
def execMemoryWrite (addr : Nat) (data : List Byte) (poison : Bool) (s : State) :
    Host.Outcome State Fault Refusal :=
  match s.mem.controller addr with
  | none => .next s
  | some b =>
    let ls := linesOf addr data.length
    let m := (s.mem.sample s.io addr).write addr data poison
    let dropped := (m.writeBack.filter (fun l => ls.contains l)).length
    let io := if dropped = 0 then s.io else s.io.count b Off.hbm_WB_DROPPED dropped
    let io := if poison then io.count b Off.hbm_POISON_WR ls.length else io
    let m := { m with writeBack := m.writeBack.filter (fun l => !ls.contains l) }
    let m := if b.kind = .cxl then
        let base := if b.inst = 0 then 0x40000000000 else 0x60000000000
        let back : Nat → Bool := fun g => ls.any (fun l => decide (g = b.inst * 2 ^ 40 + (l * 64 - base) / 512))
        { m with checkLost := m.checkLost.filter (fun g => !back g) }
      else m
    .next { s with io := io, mem := m }

/-- The memory controllers of the device (Table 15.7). -/
def isController (b : Block) : Bool :=
  match b.kind with
  | .hbm | .ddr | .cxl => decide (b.inst < instances b.kind)
  | _ => false

/-- The first device address of a controller's populated space, and the lines a pass reads: a stack's
window, or a port's; a channel scrubs its own lines of the interleave. -/
def scrubSpan (m : MemSt) (b : Block) : Nat × Nat :=
  match b.kind with
  | .hbm => (b.inst * 0x1000000000, m.t1Len b.inst / 64)
  | .ddr => (0x10000000000, m.ddrBytes / 64)
  | _ => (if b.inst = 0 then 0x40000000000 else 0x60000000000, m.t3Len b.inst / 64)

/-- The device address of line `n` of a controller's scrub pass. -/
def scrubAddr (m : MemSt) (b : Block) (n : Nat) : Nat :=
  let (base, _) := scrubSpan m b
  if b.kind = .ddr then
    let pos := m.ddrUp.findIdx (fun c => c == b.inst)
    base + (n / 4 * m.ddrUp.length + pos) * 256 + n % 4 * 64
  else base + n * 64

/-- MEM_SCRUB: the next patrol read, in ascending order; lines of moving pages are skipped, poisoned
lines left, and SCRUB_PASS set at the end of a pass (R404). -/
def execMemScrub (b : Block) (errs : List Nat) (s : State) : Host.Outcome State Fault Refusal :=
  if !isController b ∨ s.io.bf b Off.hbm_SCRUB_CFG 15 0 = 0 then .next s
  else
    let n := smGet 0 b.base s.mem.scrubPos
    let (_, total) := scrubSpan s.mem b
    if total = 0 then .next s
    else
      let a := scrubAddr s.mem b n
      let s1 :=
        if s.mem.moving a then s
        else if s.mem.poisoned (a / 64) then { s with io := s.io.count64 b Off.hbm_SCRUBBED_LO 1 }
        else readLine { s with io := s.io.count64 b Off.hbm_SCRUBBED_LO 1 } b a errs false
      if n + 1 < total then
        .next { s1 with mem := { s1.mem with scrubPos := smPut 0 b.base (n + 1) s1.mem.scrubPos } }
      else
        .next { s1 with io := s1.io.rise b 5,
                        mem := { s1.mem with scrubPos := smPut 0 b.base 0 s1.mem.scrubPos,
                                             groupErrs := smClear (b.base * 16) (b.base * 16 + 16) s1.mem.groupErrs } }

/-- Frames in use by promoted pages or by moves under way. -/
def MemSt.framesUsed (m : MemSt) : List Nat :=
  m.promoted.map Prod.snd ++ (m.moves.filter (fun v => v.toPool)).map (fun v => v.frame)

/-- The lowest free pool frame below FRAMES whose stack trained (R409, R415). -/
def MemSt.freeFrame (m : MemSt) (frames : Nat) : Option Nat :=
  let used := m.framesUsed
  (List.range (used.length + 1 + 8 * (8 - m.hbmUp.length))).find?
    (fun f => decide (f < frames) && !used.contains f && m.hbmUp.contains (f % 8))

/-- Moves under way, at most 16 at once (R410). -/
def MemSt.running (m : MemSt) : List Move := m.moves.filter (fun v => v.phase != .waiting)

/-- Start waiting moves while fewer than 16 run. -/
def MemSt.startMoves (m : MemSt) : MemSt :=
  let room := 16 - m.running.length
  let go := (m.moves.filter (fun v => v.phase == .waiting)).take room
  { m with moves := m.moves.map (fun v => if go.contains v then { v with phase := .pinWait } else v) }

/-- Add a move in the order listed. -/
def MemSt.addMove (m : MemSt) (v : Move) : MemSt := { m with moves := m.moves ++ [v] }.startMoves

/-- Insert by descending count and then ascending page (R410). -/
def insertCand (e : Nat × Nat) : List (Nat × Nat) → List (Nat × Nat)
  | [] => [e]
  | f :: l => if f.2 < e.2 ∨ (f.2 = e.2 ∧ e.1 < f.1) then e :: f :: l else f :: insertCand e l

/-- The promoted page with the lowest count of the epoch that a candidate may displace: not one promoted
by request in the epoch, nor one already moving, nor one whose home is lost; unsampled pages count 0 (R410, R413, R415). -/
def MemSt.victim (m : MemSt) (taken : List Nat) : Option (Nat × Nat × Nat) :=
  let cs := m.promoted.filter (fun e => !m.byRequest.contains e.1 && !taken.contains e.1 &&
    !(m.moves.any (fun v => v.page == e.1)) && !((m.controller (e.1 * 65536)).any (fun b => m.lost.contains b)))
  cs.foldl (fun best e =>
    let c := smGet 0 e.1 m.sketch
    match best with
    | none => some (e.1, e.2, c)
    | some (_, _, c') => if c < c' then some (e.1, e.2, c) else best) none

/-- Promote one candidate page: into a free frame, or by displacing a page with a lower count (R410). -/
def MemSt.promoteCand (m : MemSt) (frames : Nat) (page cnt : Nat) : MemSt :=
  if (smFind page m.promoted).isSome ∨ m.moves.any (fun v => v.page == page) then m
  else match m.freeFrame frames with
    | some f => m.addMove ⟨page, true, f, false, .waiting⟩
    | none =>
      match m.victim [] with
      | some (vp, vf, vc) =>
        if vc < cnt then
          (m.addMove ⟨vp, false, vf, false, .waiting⟩).addMove ⟨page, true, vf, false, .waiting⟩
        else m
      | none => m

/-- MIGR_EPOCH: at an epoch's end hot pages are promoted in descending count and ascending address, and the
sketch is cleared (R410). -/
def execMigrEpoch (s : State) : Host.Outcome State Fault Refusal :=
  if !s.io.enabled bMigr then .next s
  else
    let th := s.io.bf bMigr Off.migr_MIGR_CFG 15 0
    let frames := s.io.bf bMigr Off.migr_POOL 18 0
    let cands := (s.mem.sketch.filter (fun e => decide (th ≤ e.2))).foldl (fun l e => insertCand e l) []
    let m := cands.foldl (fun m e => m.promoteCand frames e.1 e.2) s.mem
    .next { s with mem := { m with sketch := [], byRequest := [] } }

/-- MOVE_STAT of a refused request (R413). -/
def moveRefused (s : State) (code : Nat) : State :=
  let io := s.io.setReg (bMigr.base + Off.migr_MOVE_STAT) (3 * 2 ^ 30 + code)
  let io := io.count bMigr Off.migr_MOVE_FAILS 1
  { s with io := io.rise bMigr 2 }

/-- A MOVE_CMD write: OP 1 promotes, OP 2 demotes the page of MOVE_ADDR (R413). -/
def moveCmd (s : State) (promote : Bool) : State :=
  let io := s.io
  if io.bf bMigr Off.migr_MOVE_STAT 31 30 = 1 then
    { s with io := io.capture bMigr Code.MOVE_BUSY (bMigr.base + Off.migr_MOVE_CMD) }
  else
    let a := io.reg64 (bMigr.base + Off.migr_MOVE_ADDR_LO)
    let page := a / 65536
    let m := s.mem
    let homeOk := match windowOf (page * 65536) with
      | some (.t1 _, _) => false
      | some (w, o) => decide (o < m.winLen w) && !((m.controller (page * 65536)).any (fun b => m.lost.contains b))
      | none => false
    let frame := smFind page m.promoted
    let busyPage := m.moves.any (fun v => v.page == page)
    if !homeOk then moveRefused s Code.MOVE_TIER
    else if busyPage ∨ frame.isSome = promote then moveRefused s Code.MOVE_STATE
    else
      let free := m.freeFrame (io.bf bMigr Off.migr_POOL 18 0)
      if promote ∧ free.isNone then moveRefused s Code.POOL_FULL
      else if 16 ≤ m.running.length then moveRefused s Code.MOVE_BUSY
      else
        let f := if promote then free.getD 0 else frame.getD 0
        { s with io := io.setReg (bMigr.base + Off.migr_MOVE_STAT) (1 * 2 ^ 30),
                 mem := { m with moves := m.moves ++ [⟨page, promote, f, true, .pinWait⟩] } }

/-- Whether a write of a page's registers is let in: HOST_WR (R43) and READY (R44); a refusal is captured. -/
def writeAllowed (io : Io) (who : Requester) (b : Block) (off : Nat) : Option Io :=
  if !io.ready b then some (io.capture bGlb Code.WRITE_NOT_READY off)
  else if who = .host ∧ !b.hostWr then some (io.capture b Code.HOST_WRITE_DENIED off)
  else none

/-- PROMOTE: a MOVE_CMD write of OP 1 (R413). -/
def execPromote (who : Requester) (s : State) : Host.Outcome State Fault Refusal :=
  match writeAllowed s.io who bMigr (bMigr.base + Off.migr_MOVE_CMD) with
  | some io => .next { s with io := io }
  | none => .next (moveCmd s true)

/-- DEMOTE: a MOVE_CMD write of OP 2 (R413). -/
def execDemote (who : Requester) (s : State) : Host.Outcome State Fault Refusal :=
  match writeAllowed s.io who bMigr (bMigr.base + Off.migr_MOVE_CMD) with
  | some io => .next { s with io := io }
  | none => .next (moveCmd s false)

/-- MOVE_COPY: earlier accesses have drained and the lines are copied; poison goes with them, and the
device address of every byte is unchanged (R411, Table 15.5). -/
def execMoveCopy (page : Nat) (s : State) : Host.Outcome State Fault Refusal :=
  let go : Move → Move := fun v => if v.page = page ∧ v.phase = .mark then { v with phase := .copy } else v
  .next { s with mem := { s.mem with moves := s.mem.moves.map go } }

end Sys2Proof.Machine
end

