-- ==== Sys2Proof/Machine/Ops.lean ====
section
/-! DEFINITION. Operations that every family shares: contexts and slots, host writes and MSI-X, rings and
completion records (R360 to R365, R419 to R428). -/

namespace Sys2Proof.Machine

def bCtxt : Block := ⟨.ctxt, 0⟩
def bAdmit : Block := ⟨.admission, 0⟩
def bSession : Block := ⟨.session, 0⟩
def bPcie : Block := ⟨.pcie, 0⟩
def bEvtq : Block := ⟨.evtq, 0⟩
def bFactor : Block := ⟨.factor, 0⟩
def bPower : Block := ⟨.power, 0⟩
def bClkrst : Block := ⟨.clkrst, 0⟩
def bTime : Block := ⟨.time, 0⟩
def bReel : Block := ⟨.reel, 0⟩
def bCaller (d : Nat) : Block := ⟨.caller, d⟩
def bCore (n : Nat) : Block := ⟨.fcore, n⟩
def bCarter (n : Nat) : Block := ⟨.carter, n⟩
def bAssayer (u : Nat) : Block := ⟨.assayer, u⟩
def bEgp (u : Nat) : Block := ⟨.egp, u⟩
def bWinnower (u : Nat) : Block := ⟨.winnower, u⟩
def bMerge (d : Nat) : Block := ⟨.merge, d⟩
def bWeaver (i : Nat) : Block := ⟨.weaver, i⟩
def bLink (l : Nat) : Block := ⟨.reelLink, l⟩
def bEth (p : Nat) : Block := ⟨.eth, p⟩

/-- GLB.NEG_STAT.STATE: 0 IDLE, 1 PENDING, 2 DONE, 3 REFUSED. -/
def negState (io : Io) : Nat := io.bf bGlb Off.glb_NEG_STAT 1 0

/-- Whether a bit of the feature mask reads 1 (Table 2.13). -/
def feature (io : Io) (b : Nat) : Bool := bitOf (io.reg64 (bGlb.base + Off.glb_FEAT_LO)) b

/-- A feature bit takes a new value; a change after DONE sets GLB.EVT_STAT.FEAT_CHANGE (R51). -/
def setFeature (io : Io) (b : Nat) (on : Bool) : Io :=
  if negState io ≠ 2 ∨ feature io b = on then io
  else
    let v := io.reg64 (bGlb.base + Off.glb_FEAT_LO)
    let io := io.setReg64 (bGlb.base + Off.glb_FEAT_LO) (putBits v b b (b2n on))
    io.rise bGlb 2

namespace State

/-- A context by its number. -/
def ctx? (s : State) (cn : Nat) : Option Ctx := smFind cn s.adm.ctxs

/-- The context number that holds a slot. -/
def cnOfSlot (s : State) (slot : Nat) : Option Nat := smFind slot s.adm.slots

/-- The context that holds a slot. -/
def ctxOfSlot (s : State) (slot : Nat) : Option Ctx := (s.cnOfSlot slot).bind s.ctx?

/-- Store a context. -/
def setCtx (s : State) (c : Ctx) : State := { s with adm := { s.adm with ctxs := smInsert c.cn c s.adm.ctxs } }

/-- A context does something: its inactivity starts again (R375). -/
def touchCtx (s : State) (slot : Nat) : State :=
  match s.ctxOfSlot slot with
  | some c => s.setCtx { c with last := s.io.tb }
  | none => s

/-- A service by its number. -/
def service? (s : State) (n : Nat) : Option Service := smFind n s.adm.services

/-- The service of a context ID. -/
def svcOfSlot (s : State) (slot : Nat) : Nat := ((s.ctxOfSlot slot).map (fun c => c.svc)).getD 0

/-- The Caller of a die. -/
def caller (s : State) (d : Nat) : CallerSt := smGet {} d s.call

/-- Store a Caller. -/
def setCaller (s : State) (d : Nat) (c : CallerSt) : State := { s with call := smPut {} d c s.call }

/-- A ring pair by its key: 0 the control rings, CN + 1 otherwise. -/
def ring? (s : State) (k : Nat) : Option Ring := smFind k s.host.rings

/-- Store a ring pair. -/
def setRing (s : State) (k : Nat) (r : Ring) : State :=
  { s with host := { s.host with rings := smInsert k r s.host.rings } }

/-- Registers and events change. -/
def withIo (s : State) (io : Io) : State := { s with io := io }

end State

/-- The ring key of the context in a slot. -/
def ringKeyOfSlot (s : State) (slot : Nat) : Nat :=
  if slot = 0 then 0 else ((s.cnOfSlot slot).map (fun n => n + 1)).getD 0

/-- The context ID that a ring's commands carry: slot 0 for the control ring. -/
def slotOfRing (s : State) (k : Nat) : Option Nat :=
  if k = 0 then some 0 else ((s.ctx? (k - 1)).bind (fun c => c.slot))

/-- A device write to host memory: made, or held while Bus Master Enable is 0 (R419). -/
def hostWrite (s : State) (a : Nat) (bs : List Byte) : State :=
  if s.host.bme ∧ s.host.heldReq = [] then { s with mem := s.mem.putHost a bs }
  else { s with host := { s.host with heldReq := s.host.heldReq ++ [.write a bs] } }

/-- Send an MSI-X message or set its pending bit while it is masked (R427). -/
def msixNow (s : State) (v : Nat) : State :=
  let e := smGet {} v s.host.msix
  if e.masked ∨ s.host.fnMask then
    { s with host := { s.host with pba := if s.host.pba.contains v then s.host.pba else s.host.pba ++ [v] } }
  else { s with io := s.io.send ⟨"MSIX", e.addr, e.data, []⟩ }

/-- Fire a vector: held in order behind earlier requests while Bus Master Enable is 0 (R419, R428). -/
def fireVector (s : State) (v : Nat) : State :=
  if s.host.bme ∧ s.host.heldReq = [] then msixNow s v
  else { s with host := { s.host with heldReq := s.host.heldReq ++ [.msix v] } }

/-- Write bytes at a ring position in host memory or in the BAR2 ring area (R421). -/
def ringStore (s : State) (bar2 : Bool) (a : Nat) (bs : List Byte) : State :=
  if bar2 then { s with mem := s.mem.putRing a bs } else hostWrite s a bs

/-- The 64 bytes of a ring entry. -/
def ringFetch (s : State) (bar2 : Bool) (a : Nat) : List Byte :=
  if bar2 then s.mem.ringBytes a 64 else s.mem.hostBytes a 64

/-- Records not yet consumed on a completion ring. -/
def Ring.unconsumed (r : Ring) : Nat := (r.cqTail + 2 ^ r.cqLog2 - r.cqHead) % 2 ^ r.cqLog2

/-- The 64 bytes of a record with PHASE, bit 31 of the word at 0x3C, set to the ring's phase (Table 13.11). -/
def withPhase (bs : List Byte) (ph : Bool) : List Byte :=
  let top := (bs.getD 63 0).toNat % 128 + (if ph then 128 else 0)
  bs.take 63 ++ [BitVec.ofNat 8 top]

/-- Fire or count a signalling record on an armed ring (R428): it fires when MOD_COUNT records are pending,
0 meaning 1 (Table 16.2); firing disarms. -/
def signalRing (s : State) (k : Nat) : State :=
  match s.ring? k with
  | none => s
  | some r =>
    let r1 := { r with pend := r.pend + 1, pendAt := if r.pend = 0 then s.io.tb else r.pendAt }
    if r1.armed ∧ max 1 r.modCount ≤ r1.pend then
      fireVector (s.setRing k { r1 with armed := false, pend := 0 }) r.vector
    else s.setRing k r1

/-- Write a record at the completion tail and signal it (R424). -/
def writeRecord (s : State) (k : Nat) (bs : List Byte) (sig : Bool) : State :=
  match s.ring? k with
  | none => s
  | some r =>
    let s := ringStore s r.cqBar2 (r.cqBase + 64 * r.cqTail) (withPhase bs r.phase)
    let wrap := decide (r.cqTail + 1 = 2 ^ r.cqLog2)
    let s := s.setRing k { r with cqTail := if wrap then 0 else r.cqTail + 1, phase := if wrap then !r.phase else r.phase }
    if sig || r.irqAll then signalRing s k else s

/-- A completion record is written, or held while the ring is full (R424). -/
def postRecord (s : State) (k : Nat) (bs : List Byte) (sig : Bool) : State :=
  match s.ring? k with
  | none => s
  | some r =>
    if r.held = [] ∧ r.unconsumed + 1 < 2 ^ r.cqLog2 then writeRecord s k bs sig
    else s.setRing k { r with held := r.held ++ [(bs, sig)] }

/-- Held records are written while the ring has room (R424). -/
def drainRing (s : State) (k : Nat) : Nat → State
  | 0 => s
  | fuel + 1 =>
    match s.ring? k with
    | none => s
    | some r =>
      match r.held with
      | [] => s
      | (bs, sig) :: rest =>
        if r.unconsumed + 1 < 2 ^ r.cqLog2 then
          drainRing (writeRecord (s.setRing k { r with held := rest }) k bs sig) k fuel
        else s

/-- `n` bytes of `bs` from offset `o`, as a little-endian number (R6). -/
def fieldAt (bs : List Byte) (o n : Nat) : Nat := leNat ((bs.drop o).take n)

/-- A list of bytes cut or zero-filled to `n`. -/
def padTo (n : Nat) (bs : List Byte) : List Byte := bs.take n ++ List.replicate (n - bs.length) 0

/-- The 64 bytes of a completion record, PHASE clear (Table 13.11). -/
def recordBytes (tag op : Nat) (streamErr : Bool) (status ctx pos : Nat) (result : List Byte) (time info : Nat) : List Byte :=
  leBytes 8 tag ++ leBytes 1 op ++ leBytes 1 (b2n streamErr) ++ leBytes 2 status ++ leBytes 2 ctx ++ leBytes 2 pos
    ++ padTo 32 result ++ leBytes 8 time ++ leBytes 4 info ++ leBytes 4 0

/-- A parameter of a command: `n` bytes at envelope offset `o` (Table 13.9). -/
def Cmd.p (c : Cmd) (o n : Nat) : Nat := fieldAt c.param (o - 0x10) n

/-- A command ends: it is no longer in progress, and its record is written unless it is SILENT and OK (R360,
R363, R365). -/
def finish (s : State) (c : Cmd) (status : Nat) (result : List Byte := []) (info : Nat := 0) : State :=
  let s := { s with adm := { s.adm with cmds := s.adm.cmds.filter (fun r => !(r.cmd == c)) } }
  if c.silent ∧ status = Code.OK then s
  else postRecord s c.ring (recordBytes c.tag c.op false status ((slotOfRing s c.ring).getD c.ctx) c.pos result s.io.tb info) c.irq

/-- The state of a command that a refusal leaves: only its record (R364). -/
def refuse (s : State) (c : Cmd) (status : Nat) (info : Nat := 0) : State := finish s c status [] info

/-- A command has been cancelled before it began: it completes CANCELLED (R358). -/
def Cmd.isCancelled (s : State) (c : Cmd) : Bool := s.adm.cmds.any (fun r => r.cmd == c && r.cancelled)

/-- The issuer of a command as a region or descriptor owner: ring key, and its service. -/
def Cmd.issuerSvc (s : State) (c : Cmd) : Nat :=
  if c.ring = 0 then 0 else ((s.ctx? (c.ring - 1)).map (fun x => x.svc)).getD 0

/-- The context of a command's ring, unless it is the control ring. -/
def Cmd.context (s : State) (c : Cmd) : Option Ctx := if c.ring = 0 then none else s.ctx? (c.ring - 1)

/-- C-die of a core, cluster of a core, die of a cluster. -/
def dieOfCore (n : Nat) : Nat := n / 48
def clusterOfCore (n : Nat) : Nat := n / 8
def dieOfCluster (c : Nat) : Nat := c / 6

end Sys2Proof.Machine
end

