-- ==== Sys2Proof/Machine/Desc.lean ====
section
/-! DEFINITION. Regions and descriptors: R77 to R104, and the commands REGION_REG, REGION_UNREG,
DESC_CREATE and DESC_DESTROY. -/

namespace Sys2Proof.Machine

/-- The region entry that a handle names: none when the handle is stale or names no region (R77). -/
def regionOf (s : State) (h : Nat) : Option Region :=
  let i := h % 65536
  let g := h / 65536
  if i = 0 then none
  else match smFind i s.adm.regions with
    | some r => if r.used ∧ r.gen = g then some r else none
    | none => none

/-- Who names a region or descriptor: a ring key (0 control, CN + 1) and its service. -/
structure Namer where
  key : Nat
  svc : Nat
  deriving DecidableEq, Repr

/-- Whether a region may be named (R88): its own context, contexts of its service, or, for the control
context's regions, the control context alone or everyone at device scope. -/
def scopeOk (r : Region) (n : Namer) : Bool :=
  if r.owner = 0 then (r.wide || decide (n.key = 0))
  else if r.wide then decide (n.svc = r.svc) && decide (n.key ≠ 0)
  else decide (n.key = r.owner)

/-- A descriptor read from its 128 bytes (Table 4.2). -/
def parseDesc (bs : List Byte) : Desc :=
  { rank := fieldAt bs 1 1
    etype := fieldAt bs 2 1
    tier := fieldAt bs 3 1 % 16
    flags := fieldAt bs 4 4
    base := fieldAt bs 8 8 % 2 ^ 52
    region := fieldAt bs 0x10 4
    blk := (List.range 6).map (fun d => bitsOf (fieldAt bs 0x14 4) (4 * d + 3) (4 * d))
    scaleBase := fieldAt bs 0x18 8 % 2 ^ 52
    size := (List.range 6).map (fun d => fieldAt bs (0x20 + 4 * d) 4)
    stride := (List.range 6).map (fun d => signed 64 (fieldAt bs (0x40 + 8 * d) 8)) }

namespace Desc

/-- SIZE and STRIDE of a dimension. -/
def sz (d : Desc) (i : Nat) : Nat := d.size.getD i 0
def st (d : Desc) (i : Nat) : Int := d.stride.getD i 0

/-- Flags of Table 4.3. -/
def canRead (d : Desc) : Bool := bitOf d.flags 0
def canWrite (d : Desc) : Bool := bitOf d.flags 1
def accum (d : Desc) : Bool := bitOf d.flags 2

/-- Element width in bits. -/
def bits (d : Desc) : Nat := Num.width d.etype

/-- Dimensions in use. -/
def dims (d : Desc) : List Nat := List.range d.rank

/-- An empty descriptor (R85). -/
def empty (d : Desc) : Bool := d.dims.any (fun i => decide (d.sz i = 0))

/-- Byte extent of a plane (R86). -/
def extentOf (base rank : Nat) (size : Nat → Nat) (stride : Nat → Int) (bits : Nat) : Int × Int :=
  let ds := List.range rank
  if ds.any (fun i => decide (size i = 0)) then (0, 0)
  else
    let spans := ds.map (fun i => stride i * ((size i : Int) - 1))
    let lo := spans.foldl (fun a x => if x < 0 then a + x else a) 0
    let hi := spans.foldl (fun a x => if x < 0 then a else a + x) 0
    ((base : Int) + lo * bits / 8, (base : Int) + ((hi + 1) * bits + 7) / 8)

/-- Extent of the element plane. -/
def extent (d : Desc) : Int × Int := extentOf d.base d.rank d.sz d.st d.bits

/-- Extent of the scale plane (R86). -/
def scaleExtent (d : Desc) : Int × Int :=
  extentOf d.scaleBase d.rank (fun i => if i = 0 then d.sz 0 / 32 else d.sz i)
    (fun i => if i = 0 then 1 else d.st i / 32) 8

/-- Insert a dimension by ascending |stride|. -/
def insertDim (d : Desc) (i : Nat) : List Nat → List Nat
  | [] => [i]
  | j :: l => if (d.st i).natAbs ≤ (d.st j).natAbs then i :: j :: l else j :: insertDim d i l

/-- The write-injectivity test (R89): the loop with the extent of the dimensions inside. -/
def injLoop (d : Desc) : List Nat → Nat → Bool
  | [], _ => true
  | i :: l, inner =>
    let a := (d.st i).natAbs
    if a < inner then false else injLoop d l (inner + a * (d.sz i - 1))

/-- The write-injectivity test (R89). -/
def injective (d : Desc) : Bool :=
  injLoop d ((d.dims.filter (fun i => decide (1 < d.sz i))).foldl (fun l i => insertDim d i l) []) 1

/-- Block length of a dimension (R94). -/
def blockLen (d : Desc) (i : Nat) : Nat :=
  let b := 2 ^ d.blk.getD i 0
  if d.sz i ≤ b then d.sz i else b

/-- Blocks along a dimension (R95). -/
def grid (d : Desc) (i : Nat) : Nat := if d.blockLen i = 0 then 0 else cdiv (d.sz i) (d.blockLen i)

/-- Bytes of a full block. -/
def blockBytes (d : Desc) : Nat := (d.dims.foldl (fun a i => a * d.blockLen i) d.bits) / 8

/-- The byte address of an element, for whole-byte types, by its coordinates (R80). -/
def elemOff (d : Desc) (cs : List Nat) : Int :=
  (d.dims.map (fun i => (cs.getD i 0 : Int) * d.st i)).foldl (fun a b => a + b) 0

/-- The byte address of an element (R80); for packed types, of the byte that holds its first bit. -/
def addrOf (d : Desc) (cs : List Nat) : Nat := ((d.base : Int) + d.elemOff cs * d.bits / 8).toNat

/-- The address of an element's scale byte (R84). -/
def scaleAddr (d : Desc) (cs : List Nat) : Nat :=
  ((d.scaleBase : Int) + (cs.getD 0 0 / 32 : Nat) +
    ((d.dims.drop 1).map (fun i => (cs.getD i 0 : Int) * (d.st i / 32))).foldl (fun a b => a + b) 0).toNat

/-- Coordinates of linear position `n` in a box of the given lengths, dimension 0 fastest. -/
def coordsIn : List Nat → Nat → List Nat
  | [], _ => []
  | l :: ls, n => (if l = 0 then 0 else n % l) :: coordsIn ls (if l = 0 then 0 else n / l)

/-- Coordinates of linear element `n`, dimension 0 fastest. -/
def coords (d : Desc) (n : Nat) : List Nat := coordsIn (d.size.take d.rank) n

/-- Number of elements. -/
def count (d : Desc) : Nat := d.dims.foldl (fun a i => a * d.sz i) 1

end Desc

/-- The permitted range of a descriptor: its region's span, or a core's SRAM (R87). -/
def permitted (r : Option Region) : Int × Int :=
  match r with
  | some r => (r.base, (r.base + r.len : Nat))
  | none => (0, 0x400000)

/-- The address that a failed extent check captures, when it fails (R87). -/
def extentBad (first last : Int) (rng : Int × Int) : Option Int :=
  if first < rng.1 ∨ first < 0 then some first
  else if rng.2 < last ∨ (2 ^ 52 : Int) ≤ last - first then some last
  else none

/-- Reserved parts of a descriptor that must be zero (R81). -/
def descRsv (bs : List Byte) (d : Desc) : Bool :=
  decide (fieldAt bs 3 1 / 16 ≠ 0) || decide (d.flags / 8 ≠ 0) || decide (fieldAt bs 8 8 / 2 ^ 52 ≠ 0)
  || decide (fieldAt bs 0x14 4 / 2 ^ 24 ≠ 0) || decide (fieldAt bs 0x18 8 / 2 ^ 52 ≠ 0)
  || decide (fieldAt bs 0x38 8 ≠ 0) || decide (fieldAt bs 0x70 16 ≠ 0)
  || (List.range 6).any (fun i => decide (d.rank ≤ i) &&
      (decide (d.sz i ≠ 0) || decide (d.st i ≠ 0) || decide (d.blk.getD i 0 ≠ 0)))

/-- Types that ACCUMULATE may add in (R92). -/
def accumType (et : Nat) : Bool := Num.isInt et || et == Num.FP64 || et == Num.FP32 || et == Num.BF16 || et == Num.FP16

/-- The checks of creation in the order of Table 4.6: the first that fails, with the address it captures. -/
def checkDesc (s : State) (n : Namer) (bs : List Byte) : Option (Nat × Nat) :=
  let d := parseDesc bs
  let r := regionOf s d.region
  let outer := (d.dims.drop 1)
  if fieldAt bs 0 1 ≠ 1 then some (Code.BAD_VERSION, 0)
  else if d.rank = 0 ∨ 6 < d.rank then some (Code.BAD_RANK, 0)
  else if descRsv bs d then some (Code.RSV_NONZERO, 0)
  else if !Num.valid d.etype then some (Code.BAD_ELEM_TYPE, 0)
  else if 4 < d.tier then some (Code.BAD_TIER, 0)
  else if (!d.canRead && !d.canWrite) || (d.accum && !d.canWrite) then some (Code.BAD_FLAGS, 0)
  else if d.accum && !accumType d.etype then some (Code.ACCUM_TYPE, 0)
  else if d.st 0 ≠ 1 then some (Code.INNER_STRIDE, 0)
  else if d.base % 64 ≠ 0 ∨ outer.any (fun i => decide (d.st i * (d.bits : Int) % 512 ≠ 0)) then some (Code.BAD_ALIGN, 0)
  else if Num.isMx d.etype ∧ d.sz 0 % 32 ≠ 0 then some (Code.MX_BLOCK_ALIGN, 0)
  else if !Num.isMx d.etype ∧ d.scaleBase ≠ 0 then some (Code.BAD_SCALE, 0)
  else if (d.blockLen 0 * d.bits % 512 ≠ 0 ∧ d.blockLen 0 ≠ d.sz 0) ∨ 65536 < d.blockBytes
      ∨ (Num.isMx d.etype ∧ d.blockLen 0 % 32 ≠ 0) then some (Code.BAD_BLOCK_SHAPE, 0)
  else if (d.region % 65536 ≠ 0 ∧ r.isNone) ∨ (d.region % 65536 = 0 ∧ d.region ≠ 0) then some (Code.BAD_REGION, 0)
  else if (d.tier = 0 ∧ d.region ≠ 0) ∨ (d.tier ≠ 0 ∧ r.all (fun q => decide (q.tier ≠ d.tier))) then some (Code.TIER_MISMATCH, 0)
  else if r.any (fun q => !scopeOk q n || (d.canRead && !bitOf q.perm 0) || (d.canWrite && !bitOf q.perm 1)
      || (d.accum && !bitOf q.perm 2)) then some (Code.REGION_PERM, 0)
  else
    let rng := permitted r
    let (f, l) := d.extent
    let (sf, sl) := d.scaleExtent
    let bad := if d.empty then none
      else (extentBad f l rng).or (if Num.isMx d.etype then extentBad sf sl rng else none)
    match bad with
    | some a => some (Code.EXTENT_RANGE, a.toNat)
    | none =>
      if d.canWrite ∧ !d.accum ∧ !d.empty ∧ !d.injective then some (Code.ALIAS_WRITE, 0)
      else if d.canWrite ∧ Num.isMx d.etype ∧ !d.empty ∧ f < sl ∧ sf < l then some (Code.ALIAS_WRITE, 0)
      else none

/-- Whether a span lies inside the populated part of one window of its tier (R78). -/
def spanOk (m : MemSt) (tier base len : Nat) : Bool :=
  match windowOf base with
  | some (w, o) => decide (w.tier = tier) && decide (o + len ≤ m.winLen w)
  | none => false

/-- REGION_REG: the first check that fails (R78). -/
def regionRegCheck (s : State) (c : Cmd) : Option Nat :=
  let base := c.p 0x10 8
  let len := c.p 0x18 8
  let tier := c.p 0x20 1 % 16
  let perm := c.p 0x21 1 % 8
  if 4 < tier then some Code.BAD_TIER
  else if tier = 0 ∨ base % 4096 ≠ 0 ∨ len % 4096 ≠ 0 ∨ len = 0 then some Code.BAD_REGION_PARAM
  else if bitOf perm 2 ∧ !bitOf perm 1 then some Code.BAD_REGION_PARAM
  else if tier = 4 ∧ 2 ^ 52 < base + len then some Code.BAD_REGION_PARAM
  else if tier ≠ 4 ∧ !spanOk s.mem tier base len then some Code.BAD_REGION_PARAM
  else if 65535 ≤ (s.adm.regions.filter (fun e => e.2.used)).length then some Code.REGION_FULL
  else none

/-- The lowest free region index from `i`. -/
def freeIndex (m : SMap Region) : Nat → Nat → Nat
  | 0, i => i
  | fuel + 1, i => if (smFind i m).any (fun r => r.used) then freeIndex m fuel (i + 1) else i

/-- REGION_REG: register a region and return its handle, or refuse (R78). -/
def execRegionReg (c : Cmd) (s : State) : Host.Outcome State Fault Refusal :=
  match regionRegCheck s c with
  | some code => .next (refuse s c code)
  | none =>
    let i := freeIndex s.adm.regions (s.adm.regions.length + 1) 1
    let gen := ((smFind i s.adm.regions).map (fun r => r.gen)).getD 1
    let r : Region := { gen := gen, used := true, tier := c.p 0x20 1 % 16, base := c.p 0x10 8, len := c.p 0x18 8,
                        perm := c.p 0x21 1 % 8, wide := bitOf (c.p 0x21 1) 3, owner := c.ring, svc := c.issuerSvc s }
    let s := { s with adm := { s.adm with regions := smInsert i r s.adm.regions } }
    .next (finish s c Code.OK (leBytes 4 (gen * 65536 + i)))

/-- Descriptor-table entries, of every context, that name a region handle. -/
def descsNaming (s : State) (h : Nat) : Bool :=
  s.adm.ctxs.any (fun e => e.2.descs.any (fun d => decide (d.2.d.region = h)))

/-- Free a region entry and advance its generation: 1 to 0xFFFF, then 1 (R77, R79). -/
def freeRegion (s : State) (i : Nat) : State :=
  match smFind i s.adm.regions with
  | some r => { s with adm := { s.adm with regions := smInsert i { gen := if r.gen = 0xFFFF then 1 else r.gen + 1, used := false } s.adm.regions } }
  | none => s

end Sys2Proof.Machine
end

