-- ==== Sys2Proof/Machine/Access.lean ====
section
/-! DEFINITION. Access to core SRAM and to memory by tier, with poison and faults (R157, R405, R406, R414,
R415), and element access through descriptors (R54, R80 to R84). -/

namespace Sys2Proof.Machine

/-- Write bytes of a plain byte memory. -/
def putCells (m : SMap Byte) (a : Nat) : List Byte → SMap Byte
  | [] => m
  | b :: bs => putCells (smPut 0 a b m) (a + 1) bs

/-- Bytes of a plain byte memory. -/
def cells (m : SMap Byte) (a n : Nat) : List Byte := (List.range n).map (fun i => smGet 0 (a + i) m)

namespace CoreSt

/-- Bytes of SRAM from an offset. -/
def bytes (c : CoreSt) (a n : Nat) : List Byte := cells c.sram a n

/-- A little-endian number in SRAM (R6). -/
def num (c : CoreSt) (a n : Nat) : Nat := leNat (c.bytes a n)

/-- Whether any SRAM line under `n` bytes at `a` is poisoned (Table 15.4). -/
def anyPoison (c : CoreSt) (a n : Nat) : Bool := (linesOf a n).any (fun l => smGet false l c.sramPoison)

/-- The poison of the lines after a write: a poisoned write sets it; a clean write of a whole line clears it
when `whole` allows (R406). -/
def poisonLines (c : CoreSt) (a n : Nat) (p whole : Bool) : CoreSt :=
  { c with sramPoison := (linesOf a n).foldl (fun m l =>
      if p then smPut false l true m
      else if whole && decide (a ≤ l * 64) && decide (l * 64 + 64 ≤ a + n) then smPut false l false m else m) c.sramPoison }

/-- A unit's or Carter's write of bytes to SRAM with their poison (Table 15.4, R406). -/
def unitWrite (c : CoreSt) (a : Nat) (bs : List Byte) (p : Bool) : CoreSt :=
  { c with sram := putCells c.sram a bs }.poisonLines a bs.length p true

/-- A store by the running task: poisoned lines if the task is poisoned; only a clean VST of a whole line
clears (R406). -/
def store (c : CoreSt) (a : Nat) (bs : List Byte) (vst : Bool) : CoreSt :=
  { c with sram := putCells c.sram a bs }.poisonLines a bs.length c.poisoned vst

end CoreSt

namespace State

/-- A feature core. -/
def core (s : State) (n : Nat) : CoreSt := smGet {} n s.cores

/-- Store a feature core. -/
def setCore (s : State) (n : Nat) (c : CoreSt) : State := { s with cores := smPut {} n c s.cores }

/-- A stream of a core. -/
def strm (s : State) (n k : Nat) : Strm := smGet {} k (s.core n).strms

/-- Store a stream. -/
def setStrm (s : State) (n k : Nat) (x : Strm) : State :=
  s.setCore n { s.core n with strms := smPut {} k x (s.core n).strms }

/-- Bytes of a tier: 0 the core's SRAM, 4 host memory, else device memory (Table 4.4). -/
def tBytes (s : State) (core tier a n : Nat) : List Byte :=
  if tier = 0 then (s.core core).bytes a n
  else if tier = 4 then s.mem.hostBytes a n
  else s.mem.bytes a n

/-- A number in a tier. -/
def tNum (s : State) (core tier a n : Nat) : Nat := leNat (s.tBytes core tier a n)

/-- Whether a line under a span of a tier is poisoned. -/
def tPoison (s : State) (core tier a n : Nat) : Bool :=
  if tier = 0 then (s.core core).anyPoison a n
  else if tier = 4 then false
  else s.mem.anyPoison a n

/-- Write bytes of a tier with their poison. -/
def tWrite (s : State) (core tier a : Nat) (bs : List Byte) (p : Bool := false) : State :=
  if tier = 0 then s.setCore core ((s.core core).unitWrite a bs p)
  else if tier = 4 then { s with mem := s.mem.putHost a bs }
  else { s with mem := (s.mem.sample s.io a).write a bs p }

end State

/-- A fault of an access to a host page (R414, R419, R420): no translation, or one that denies the access. -/
def hostFault (h : HostSt) (page : Nat) (write : Bool) : Option Nat :=
  if h.cplErr && !write then some Code.HOST_DENIED
  else if h.unmapped.contains page then
    some (if h.atsEn ∧ h.priEn ∧ !h.priStopped then Code.HOST_NOT_PRESENT else Code.HOST_DENIED)
  else if (if write then h.noWrite.contains page else h.noRead.contains page) then some Code.HOST_DENIED
  else none

/-- The first fault that an access of `n` bytes of a tier meets, with the address of its line. -/
def tFault (s : State) (tier a n : Nat) (write : Bool) : Option (Nat × Nat) :=
  if tier = 0 then none
  else if tier = 4 then
    (linesOf a n).findSome? (fun l => (hostFault s.host (l / 64) write).map (fun c => (c, l * 64)))
  else (s.mem.rangeFault a n).map (fun e => (e.1, e.2 * 64))

/-- Whether an access to an address of a tier is held for now: host traffic while Bus Master Enable is 0 (R419), and
memory whose controller is being reset (R416; on tier 2, any channel of the interleave). -/
def tHeld (s : State) (tier a : Nat) : Bool :=
  if tier = 0 then false
  else if tier = 4 then !s.host.bme
  else if tier = 2 then s.mem.ddrUp.any (fun c => s.io.notReady.contains ⟨.ddr, c⟩)
  else (s.mem.controller a).any (fun b => s.io.notReady.contains b)

/-- Mark of an access that is held for now (R416, R419), beside the fault codes. -/
abbrev heldMark : Nat := 0x10000

/-- An access that meets a fault: MIGR_FAULTS counts one at a moving page (Table 15.9; DESIGN CHOICE, log entry 82). -/
abbrev State.migrFault (s : State) (code : Nat) : State := s.mapIo (fun io => io.countMigrFault code)

/-- Bit offset of an element in the element plane, from the descriptor's BASE (R54, R80). -/
def Desc.bitOff (d : Desc) (cs : List Nat) : Int := d.elemOff cs * (d.bits : Int)

/-- `w` bits at bit offset `b` past byte address `a` of a tier (R54). -/
def tBits (s : State) (core tier a : Nat) (b : Int) (w : Nat) : Nat :=
  let bit := ((a : Int) * 8 + b).toNat
  bitsOf (s.tNum core tier (bit / 8) ((bit % 8 + w + 7) / 8)) (bit % 8 + w - 1) (bit % 8)

/-- The code of an element through a descriptor. -/
def elemCode (s : State) (core : Nat) (d : Desc) (cs : List Nat) : Nat := tBits s core d.tier d.base (d.bitOff cs) d.bits

/-- The value of an element through a descriptor, scaled for MX types (R56). -/
def elemVal (s : State) (core : Nat) (d : Desc) (cs : List Nat) : Num.FVal :=
  if Num.isMx d.etype then
    Num.mxValue d.etype (s.tNum core d.tier (d.scaleAddr cs) 1) (elemCode s core d cs)
  else Num.value d.etype (elemCode s core d cs)

/-- Whether the line of an element is poisoned. -/
def elemPoison (s : State) (core : Nat) (d : Desc) (cs : List Nat) : Bool :=
  s.tPoison core d.tier (d.addrOf cs) (max 1 (d.bits / 8))

/-- Write the code of an element through a descriptor; packed types keep their neighbours' bits (R54). -/
def putElem (s : State) (core : Nat) (d : Desc) (cs : List Nat) (code : Nat) (p : Bool) : State :=
  let bit := ((d.base : Int) * 8 + d.bitOff cs).toNat
  let n := (bit % 8 + d.bits + 7) / 8
  let old := s.tNum core d.tier (bit / 8) n
  s.tWrite core d.tier (bit / 8) (leBytes n (putBits old (bit % 8 + d.bits - 1) (bit % 8) code)) p

/-- The sum that an ACCUMULATE write leaves: rounded once in the element's type, integers wrapping (R92). -/
def accumCode (et old new : Nat) : Nat :=
  if Num.isInt et then (old + new) % 2 ^ Num.width et
  else (Num.encodeF (Num.fmtOf et) 0 false (Num.addV 0 (Num.value et old) (Num.value et new)).1).1

/-- Lines that a descriptor's elements touch, each once, the scale plane included. -/
def touched (d : Desc) (cs : List (List Nat × Bool)) : List Nat :=
  cs.foldl (fun a c =>
    let l := d.addrOf c.1 / 64
    let a := if a.contains l then a else a ++ [l]
    if c.2 then (let k := d.scaleAddr c.1 / 64; if a.contains k then a else a ++ [k]) else a) []

/-- Bits of a line that elements cover, with the scale bytes of those marked. -/
def lineBits (d : Desc) (cs : List (List Nat × Bool)) (l : Nat) : Nat :=
  cs.foldl (fun a c => a + (if d.addrOf c.1 / 64 = l then d.bits else 0) + (if c.2 ∧ d.scaleAddr c.1 / 64 = l then 8 else 0)) 0

/-- A line of a tier is clean. -/
def State.clearLine (s : State) (core tier l : Nat) : State :=
  if tier = 0 then s.setCore core { s.core core with sramPoison := smPut false l false (s.core core).sramPoison }
  else if tier = 4 then s
  else { s with mem := s.mem.setPoison l false }

/-- After elements have been written one by one: the lines that they cover whole are clean, but for those that take poison
and for ACCUMULATE additions (R406). -/
def clearWhole (s : State) (core : Nat) (d : Desc) (cs : List (List Nat × Bool)) (bad : List Nat) : State :=
  if d.accum then s
  else (touched d cs).foldl (fun s l => if bad.contains l ∨ lineBits d cs l < 512 then s else s.clearLine core d.tier l) s

/-- Write or accumulate an element (R92). -/
def storeElem (s : State) (core : Nat) (d : Desc) (cs : List Nat) (code : Nat) (p : Bool) : State :=
  if d.accum then
    let q := p || elemPoison s core d cs
    putElem s core d cs (accumCode d.etype (elemCode s core d cs) code) q
  else putElem s core d cs code p


end Sys2Proof.Machine
end

