-- ==== Sys2Proof/Machine/Tiles.lean ====
section
/-! DEFINITION. Tiles: their lines and slots, walks and coordinate lists, zone maps and dry-time keys (R94 to
R98, R105 to R120). -/

namespace Sys2Proof.Machine

/-- CORE_CLK cycles in `t` ticks of the time base: 1.92 GHz against 10 ns (Table 19.1). -/
def cyclesOf (t : Nat) : Nat := t * 96 / 5

/-- A line of a tile: its memory address, its length in bytes and its offset in the slot. -/
structure LineSpec where
  addr : Nat
  len : Nat
  off : Nat
  deriving DecidableEq, Repr

namespace Desc

/-- First element and element count of block coordinate `c` along dimension `i` (R95). -/
def blockLo (d : Desc) (i c : Nat) : Nat := c * d.blockLen i
def blockN (d : Desc) (i c : Nat) : Nat := min (d.blockLen i) (d.sz i - d.blockLo i c)

/-- Elements of a full block. -/
def blockElems (d : Desc) : Nat := d.dims.foldl (fun a i => a * d.blockLen i) 1

/-- Bytes of a slot: the block's elements and, for MX types, its scales, rounded up to 64 (R106, log entry 12). -/
def slotBytes (d : Desc) : Nat :=
  cdiv (d.blockBytes + (if Num.isMx d.etype then d.blockElems / 32 else 0)) 64 * 64

/-- The coordinates, within the block, of the rows of a block that lie in SIZE: dimension 1 fastest. -/
def rowsIn (d : Desc) (blk : List Nat) : List (List Nat) :=
  let lens := ((d.dims).drop 1).map (fun i => d.blockN i (blk.getD i 0))
  let n := lens.foldl (fun a b => a * b) 1
  (List.range n).map (fun r => coordsIn lens r)

/-- Linear position of an element in the block, dimension 0 fastest, full block lengths. -/
def blockPos (d : Desc) (cs : List Nat) : Nat :=
  (d.dims.reverse).foldl (fun a i => a * d.blockLen i + cs.getD i 0) 0

/-- Cut `n` bytes at memory address `a` and slot offset `o` at the 64-byte lines of memory. -/
def cutLines (a o : Nat) : Nat → Nat → List LineSpec
  | 0, _ => []
  | fuel + 1, n =>
    if n = 0 then []
    else
      let k := min n (64 - a % 64)
      ⟨a, k, o⟩ :: cutLines (a + k) (o + k) fuel (n - k)

/-- The lines of a block in element order: the element plane, then the scale plane (R106, R129). -/
def tileLines (d : Desc) (blk : List Nat) : List LineSpec :=
  let lo := d.dims.map (fun i => d.blockLo i (blk.getD i 0))
  let n0 := d.blockN 0 (blk.getD 0 0)
  let rows := d.rowsIn blk
  let at_ : List Nat → List Nat := fun r => d.dims.map (fun i => lo.getD i 0 + (0 :: r).getD i 0)
  let elems := rows.flatMap (fun r =>
    let bytes := (n0 * d.bits + 7) / 8
    cutLines (d.addrOf (at_ r)) (d.blockPos (0 :: r) * d.bits / 8) (bytes + 1) bytes)
  let scales := if Num.isMx d.etype then
      rows.flatMap (fun r =>
        let bytes := n0 / 32
        cutLines (d.scaleAddr (at_ r)) (d.blockBytes + d.blockPos (0 :: r) / 32) (bytes + 1) bytes)
    else []
  elems ++ scales

/-- The element coordinates of the first element that a line of a tile holds. -/
def lineCoords (d : Desc) (blk : List Nat) (off : Nat) : List Nat :=
  let e := if off < d.blockBytes then off * 8 / d.bits else (off - d.blockBytes) * 32
  let cs := coordsIn (d.dims.map d.blockLen) e
  d.dims.map (fun i => d.blockLo i (blk.getD i 0) + cs.getD i 0)

/-- What a slot holds before its lines arrive: +0, and scale 0x7F for MX types (R97, R106). -/
def blankSlot (d : Desc) : List Byte :=
  let n := d.blockBytes
  List.replicate n 0 ++ (if Num.isMx d.etype then List.replicate (d.blockElems / 32) 0x7F else [])

/-- The grid, and the block coordinates of a linear block index (R95). -/
def grids (d : Desc) : List Nat := d.dims.map d.grid
def blockOf (d : Desc) (l : Nat) : List Nat := coordsIn d.grids l
def blocks (d : Desc) : Nat := d.grids.foldl (fun a b => a * b) 1
def blockIndex (d : Desc) (blk : List Nat) : Nat :=
  (d.dims.reverse).foldl (fun a i => a * d.grid i + blk.getD i 0) 0

end Desc

/-- The block coordinates of walk position `k` (R109), loop level 0 fastest. -/
def walkFrom (start count : List Nat) (step : List Int) : List Nat → Nat → List (Nat × Int)
  | [], _ => []
  | d :: ds, r =>
    let n := count.getD d 0
    (d, (start.getD d 0 : Int) + step.getD d 0 * ((r % n : Nat) : Int)) :: walkFrom start count step ds (r / n)

/-- Walk position `k` as coordinates by dimension. -/
def Strm.walkTile (x : Strm) (rank k : Nat) : List Nat :=
  let ps := walkFrom x.start x.count x.step x.order k
  (List.range rank).map (fun d => (((ps.find? (fun p => p.1 == d)).map Prod.snd).getD 0).toNat)

/-- The entry of a coordinate list (R96, R97): a block, a null entry, an entry out of range, or an entry in a
poisoned line. -/
inductive ListEntry where
  | block (c : List Nat)
  | null
  | outOfRange
  | poisoned
  deriving DecidableEq, Repr

/-- Byte address and length of entry `k` of a list (Table 4.5): tuple rows lie along dimension 1. -/
def listEntryAt (l : Desc) (fmt k : Nat) : Nat × Nat :=
  if fmt = 0 then (l.addrOf [k], 4)
  else if fmt = 1 then (l.addrOf [k], 8)
  else if 2 ≤ l.rank then (l.addrOf [0, k], 32)
  else (l.addrOf [8 * k], 32)

/-- Entries that a list descriptor holds. -/
def listLen (l : Desc) (fmt : Nat) : Nat :=
  if fmt = 2 then (if 2 ≤ l.rank then l.sz 1 else l.sz 0 / 8) else l.sz 0

/-- Read entry `k` of a list for descriptor `d` (R96, R97). -/
def readEntry (s : State) (core : Nat) (d l : Desc) (fmt k : Nat) : ListEntry :=
  let (a, n) := listEntryAt l fmt k
  let bs := s.tBytes core l.tier a n
  if s.tPoison core l.tier a n then .poisoned
  else if fmt = 2 then
    let cs := (List.range 6).map (fun i => fieldAt bs (4 * i) 4)
    if cs.getD 0 0 = 0xFFFFFFFF then .null
    else if fieldAt bs 24 8 ≠ 0 ∨ (List.range 6).any (fun i => decide (d.rank ≤ i) && decide (cs.getD i 0 ≠ 0)) then .outOfRange
    else if d.dims.any (fun i => decide (d.grid i ≤ cs.getD i 0)) then .outOfRange
    else .block (cs.take d.rank)
  else
    let v := leNat bs
    if v = 256 ^ n - 1 then .null
    else if d.blocks ≤ v then .outOfRange
    else .block (d.blockOf v)

/-- Comparison of two zone values under a term's TYPE (R118): unsigned, signed or FP64; none for NaN. -/
def zoneCmp (type a b : Nat) : Option Ordering :=
  if type = 0x10 then
    let x := Num.value Num.FP64 a
    let y := Num.value Num.FP64 b
    if Num.isNaN x ∨ Num.isNaN y then none else some (Num.cmpV x y)
  else if type = 0x08 then some (compare (signed 64 a) (signed 64 b))
  else some (compare a b)

/-- Whether a field's range cannot meet a term (R118). -/
def ZoneTerm.excludes (t : ZoneTerm) (mn mx : Nat) : Bool :=
  match zoneCmp t.type mn mx with
  | none => false
  | some .gt => true
  | some _ =>
    (t.loEn && (zoneCmp t.type mx t.lo == some .lt || (zoneCmp t.type mx t.lo == some .eq && !t.loIncl))) ||
    (t.hiEn && (zoneCmp t.type mn t.hi == some .gt || (zoneCmp t.type mn t.hi == some .eq && !t.hiIncl)))

/-- Whether the zone row of linear block `l` lets Carter skip the tile; a poisoned row never does
(R118, Table 15.4). -/
def zoneSkips (s : State) (core : Nat) (z : Desc) (ts : List ZoneTerm) (l : Nat) : Bool :=
  let at_ : Nat → Nat := fun e => s.tNum core z.tier (z.addrOf [e, l]) 8
  !s.tPoison core z.tier (z.addrOf [0, l]) 128 &&
    ts.any (fun t => t.excludes (at_ (2 * t.field)) (at_ (2 * t.field + 1)))

/-- The dry-time key of a stream (R119). -/
def dryKey (now ready held elapsed cpt : Nat) (stalled : Bool) (since : Nat) : Nat :=
  if stalled then since % 2 ^ 24
  else (now + min ((cpt * (ready + held) - elapsed) * 5 / 6) 0x7FFFFF) % 2 ^ 24

/-- `a` comes before `b` in 24-bit key order (R120). -/
def keyBefore (a b : Nat) : Bool :=
  let d := (a + 2 ^ 24 - b) % 2 ^ 24
  decide (2 ^ 23 ≤ d)

/-- The effective key of a request: the lesser of its key and its issue time plus 0x4000 (R120). -/
def LineReq.effective (r : LineReq) : Nat :=
  let cap := (r.issued + 0x4000) % 2 ^ 24
  if keyBefore cap r.key then cap else r.key

/-- Whether request `a` is granted before request `b` (R120). -/
def LineReq.before (a b : LineReq) : Bool :=
  if a.effective ≠ b.effective then keyBefore a.effective b.effective
  else if a.issued ≠ b.issued then keyBefore (a.issued % 2 ^ 24) (b.issued % 2 ^ 24)
  else decide (a.core < b.core) || (decide (a.core = b.core) && decide (a.st ≤ b.st))

/-- The die that a controller or the endpoint is reached on: 0 and 1 the C-dies, 2 the X-die. -/
def sideOf (b : Block) : Nat := if b.kind = .hbm then b.inst / 4 else 2

/-- The arbiters on the path from die `d` to a memory (R120): the link port between dies, then its controller,
or the PCIe endpoint for host memory; none for the core's own SRAM. -/
def pathTo (m : MemSt) (d tier a : Nat) : List Block :=
  if tier = 0 then []
  else if tier = 4 then [⟨.d2d, d⟩, bPcie]
  else match m.controller a with
    | none => []
    | some b => if sideOf b = d then [b] else if sideOf b = 2 then [⟨.d2d, d⟩, b] else [⟨.d2d, 2⟩, b]

end Sys2Proof.Machine
end

