-- ==== Sys2Proof/Machine/Fetch.lean ====
section
/-! DEFINITION. Streams at work: run-ahead, releases, faults, cancels and gangs (R110 to R137), and references
on descriptor entries (R102). -/

namespace Sys2Proof.Machine

/-- Take references on descriptor entries of a context (R102). -/
def takeRefs (s : State) (cn : Nat) (ids : List Nat) : State :=
  { s with adm := { s.adm with refs := s.adm.refs ++ ids.map (fun i => (cn, i)) } }

/-- Release one reference: a dead entry is freed when its last reference is released (R102). -/
def dropRef (s : State) (cn id : Nat) : State :=
  let s := { s with adm := { s.adm with refs := s.adm.refs.erase (cn, id) } }
  match s.ctx? cn with
  | none => s
  | some c =>
    match smFind id c.descs with
    | some e => if e.dead ∧ !s.adm.refs.contains (cn, id) then s.setCtx { c with descs := smErase id c.descs } else s
    | none => s

/-- Release references. -/
def dropRefs (s : State) (cn : Nat) (ids : List Nat) : State := ids.foldl (fun s i => dropRef s cn i) s

/-- A live entry of a context's descriptor table, or the code that refuses its use (R101, R102). -/
def useDesc (s : State) (cn id : Nat) : Except Nat Desc :=
  match s.ctx? cn with
  | none => .error Code.BAD_DESC_ID
  | some c =>
    if id = 0xFFFF ∨ c.tableLen ≤ id then .error Code.BAD_DESC_ID
    else match smFind id c.descs with
      | none => .error Code.BAD_DESC_ID
      | some e => if e.dead then .error Code.DESC_DEAD else .ok e.d

/-- The same with a direction check (R103). -/
def useDescDir (s : State) (cn id : Nat) (write : Bool) : Except Nat Desc :=
  match useDesc s cn id with
  | .error e => .error e
  | .ok d => if (if write then d.canWrite else d.canRead) then .ok d else .error Code.DESC_DIR

/-- No-overlap mode of a core's Carter (R125): FORCED takes precedence. -/
def coreMode (s : State) (n : Nat) : Nat :=
  if s.io.bf (bCarter n) 0x008 8 8 = 1 then 4 else (s.core n).mode

/-- A core's MODE changes: MODE_CHANGE is set when the reported mode differs (R125). -/
def setMode (s : State) (n mode recover : Nat) : State :=
  let old := coreMode s n
  let s := s.setCore n { s.core n with mode := mode, recover := recover }
  if coreMode s n = old then s else s.mapIo (fun io => io.rise (bCarter n) 6)

/-- Whether a stream's kind reads into the core. -/
def Strm.reads (x : Strm) : Bool := x.kind == 0 || x.kind == 1 || x.kind == 4

/-- Positions of a stream: the walk's product, the list's count, or a rotation's 48 shards (R109, R122). -/
def Strm.total (x : Strm) (tiles : Nat) : Nat :=
  if x.kind = 4 then 48 * tiles
  else if x.kind = 1 ∨ x.kind = 3 then x.listCount
  else match x.desc with
    | some d => (List.range d.rank).foldl (fun a i => a * x.count.getD i 0) 1
    | none => 0

/-- The designated resident set of a die (R122). -/
def resSet (s : State) (die set : Nat) : Option ResSet :=
  s.fetch.sets.find? (fun r => decide (r.die = die) && decide (r.set = set))

/-- Tiles per shard of the set that a RESIDENT stream follows. -/
def setTiles (s : State) (n : Nat) (x : Strm) : Nat :=
  if x.kind = 4 then ((resSet s (dieOfCore n) x.group).map (fun r => r.tiles)).getD 0 else 0

/-- Positions of a stream of a core. -/
def strmTotal (s : State) (n : Nat) (x : Strm) : Nat := x.total (setTiles s n x)

/-- Bytes of a slot of a stream. -/
def slotLen (s : State) (n : Nat) (x : Strm) : Nat :=
  if x.kind = 4 then ((resSet s (dieOfCore n) x.group).map (fun r => cdiv r.bytes 64 * 64)).getD 0
  else (x.desc.map Desc.slotBytes).getD 0

/-- SRAM offset of a tile's slot: five slots, by ordinal modulo 5 (R111, log entry 13). -/
def slotOff (s : State) (n : Nat) (x : Strm) (ord : Nat) : Nat := x.bufBase + slotLen s n x * (ord % 5)

/-- How many ordinals may be issued: four beyond the tile held or waited for; in no-overlap mode only the
tile that the consumer waits for (R111, R125). -/
def issueLimit (s : State) (n : Nat) (x : Strm) : Nat :=
  if coreMode s n ≠ 0 then (if x.waiting then x.taken + 1 else 0)
  else match x.held with
    | some t => t.ord + 5
    | none => if x.waiting then x.taken + 5 else x.taken + 4

/-- Every (core, stream) pair of the device that is open. -/
def openStrms (s : State) : List (Nat × Nat × Strm) :=
  s.cores.flatMap (fun e => e.2.strms.map (fun f => (e.1, f.1, f.2)))

/-- The streams that move together with a stream: its gang's members, or itself. -/
def gangOf (s : State) (n k : Nat) : List (Nat × Nat) :=
  match (s.strm n k).gang with
  | none => [(n, k)]
  | some g => ((openStrms s).filter (fun e => e.2.2.gang == some g)).map (fun e => (e.1, e.2.1))

/-- Change every stream of a list. -/
def mapStrms (s : State) (l : List (Nat × Nat)) (f : Strm → Strm) : State :=
  l.foldl (fun s e => s.setStrm e.1 e.2 (f (s.strm e.1 e.2))) s

/-- Offset of a per-stream register of Table 5.10. -/
def ssOff (k o : Nat) : Nat := o + 0x40 * k

/-- Add to a per-stream counter. -/
def ssCount (s : State) (n k o v : Nat) : State := s.mapIo (fun io => io.count (bCarter n) (ssOff k o) v)

/-- Bytes read and discarded (R135). -/
def discard (s : State) (n bytes : Nat) : State :=
  s.mapIo (fun io => io.count64 (bCarter n) Off.carter_DISCARD_BYTES_LO bytes)

/-- Returned bytes of tiles that are thrown away. -/
def returnedBytes (d : Desc) (t : Tile) : Nat :=
  match t.blk with
  | none => 0
  | some b => ((d.tileLines b).zipIdx.filter (fun e => !t.wait.contains e.2)).foldl (fun a e => a + e.1.len) 0

/-- The dry key of a stream now (R119). -/
def strmKey (s : State) (n k : Nat) : Nat :=
  let x := s.strm n k
  let now := s.io.tb * 16
  let ready := if x.reads then (x.tiles.filter (fun t => t.wait == [])).length else 4 - min 4 x.tiles.length
  dryKey now ready (b2n x.held.isSome) (cyclesOf (s.io.tb - x.heldAt)) x.cpt x.waiting (x.waitAt * 16)

/-- What the next walk position of a stream gives. -/
inductive NextTile where
  | done
  | skip
  | fault (code addr : Nat) (coords : List Nat)
  | tile (blk : Option (List Nat)) (oob poison : Bool)
  | hold
  deriving DecidableEq, Repr

/-- Look at walk position `x.next`: its list entry (R97), its zone row (R118), and a fault of either read (R133). -/
def nextTile (s : State) (n : Nat) (x : Strm) : NextTile :=
  match x.desc with
  | none => .done
  | some d =>
    if strmTotal s n x ≤ x.next then .done
    else if x.list.any (fun l => tHeld s l.1.tier l.1.base) || x.zone.any (fun z => tHeld s z.1.tier z.1.base) then .hold
    else
      let entry : Except (Nat × Nat) (Option ListEntry) :=
        match x.list with
        | none => .ok none
        | some (l, fmt, first) =>
          let (a, w) := listEntryAt l fmt (first + x.next)
          match tFault s l.tier a w false with
          | some f => .error f
          | none => .ok (some (readEntry s n d l fmt (first + x.next)))
      match entry with
      | .error (c, a) => .fault c a []
      | .ok e =>
        let blk : Option (List Nat) := match e with
          | none => some (x.walkTile d.rank x.next)
          | some (.block c) => some c
          | some _ => none
        match blk with
        | none => .tile none (e == some .outOfRange) (e == some .poisoned)
        | some b =>
          match x.zone with
          | none => .tile (some b) false false
          | some (z, ts) =>
            let l := d.blockIndex b
            match tFault s z.tier (z.addrOf [0, l]) 128 false with
            | some (c, a) => .fault c a (d.dims.map (fun i => d.blockLo i (b.getD i 0)))
            | none => if zoneSkips s n z ts l then .skip else .tile (some b) false false

/-- Record an out-of-range list entry: counted, its first position kept, COORD_OOB set (R97). -/
def countOob (s : State) (n k pos : Nat) : State :=
  let o := (bCarter n).base + ssOff k Off.carter_SS_OOB
  let first := decide (s.io.reg o = 0)
  let s := ssCount s n k Off.carter_SS_OOB 1
  let s := if first then s.mapIo (fun io => io.setReg ((bCarter n).base + ssOff k Off.carter_SS_LIST_POS) pos) else s
  s.mapIo (fun io => io.rise (bCarter n) 5)

/-- TILE_FETCH_ISSUE of one tile for every member: slots blanked, and one request for each line (R106, R111,
R121). -/
def issueTile (s : State) (n k : Nat) (blk : Option (List Nat)) (poison : Bool) : State :=
  let x := s.strm n k
  match x.desc with
  | none => s
  | some d =>
    let ls := match blk with
      | some b => d.tileLines b
      | none => []
    let ms := gangOf s n k
    let key := ms.foldl (fun a e => let b := strmKey s e.1 e.2; if keyBefore b a then b else a) (strmKey s n k)
    let t : Tile := { pos := x.next, ord := x.ord, wait := List.range ls.length, blk := blk }
    let reqs := ls.zipIdx.map (fun e =>
      { core := n, st := k, inst := x.inst, ord := x.ord, idx := e.2, write := false, tier := d.tier,
        addr := e.1.addr, key := key, issued := s.io.tb * 16,
        path := pathTo s.mem (dieOfCore n) d.tier e.1.addr, gang := x.gang : LineReq })
    let s := ms.foldl (fun s e =>
      let y := s.strm e.1 e.2
      let c := (s.core e.1).unitWrite (slotOff s e.1 y y.ord) (d.blankSlot) poison
      (s.setCore e.1 c).setStrm e.1 e.2 { y with tiles := y.tiles ++ [t], next := y.next + 1, ord := y.ord + 1 }) s
    { s with fetch := { s.fetch with lines := s.fetch.lines ++ reqs } }

/-- Whether Carter may issue the next tile of a stream for all its members (R111, R121). -/
def mayIssue (s : State) (n k : Nat) : Bool :=
  (gangOf s n k).all (fun e =>
    let x := s.strm e.1 e.2
    decide (x.st = 1) && !x.halting && decide (x.ord < issueLimit s e.1 x))

/-- Run-ahead: issue tiles while the depth allows, skipping what the zone map excludes (R111, R118). -/
def runAhead (s : State) (n k : Nat) : Nat → State
  | 0 => s
  | fuel + 1 =>
    if !mayIssue s n k then s
    else
      let x := s.strm n k
      match nextTile s n x with
      | .done => s
      | .hold => s
      | .skip =>
        let ms := gangOf s n k
        let s := mapStrms s ms (fun y => { y with next := y.next + 1 })
        runAhead (ms.foldl (fun s e => ssCount s e.1 e.2 Off.carter_SS_SKIP 1) s) n k fuel
      | .fault c a cs =>
        mapStrms s (gangOf s n k) (fun y => { y with halting := true, fault := some ⟨c, y.next, cs, a⟩ })
      | .tile blk oob p =>
        let s := if oob then countOob s n k x.next else s
        runAhead (issueTile s n k blk p) n k fuel

/-- Run-ahead of a read stream that fetches from memory. -/
def fetchMore (s : State) (n k : Nat) : State :=
  let x := s.strm n k
  if x.kind = 0 ∨ x.kind = 1 then runAhead s n k (strmTotal s n x + 1) else s

/-- The pages of a write tile that its writes touch: addresses of its lines. -/
def tileSpans (d : Desc) (t : Tile) : List LineSpec :=
  match t.blk with
  | some b => d.tileLines b
  | none => []

/-- Save a stream's fault point in its registers (R129, R132). -/
def saveFault (s : State) (n k : Nat) (f : FaultPoint) : State :=
  let b := (bCarter n).base
  s.mapIo (fun io =>
    let io := io.setReg64 (b + ssOff k Off.carter_SS_FADDR_LO) f.addr
    let io := (List.range 6).foldl (fun io i => io.setReg (b + ssOff k Off.carter_SS_POSd0 + 4 * i) (f.coords.getD i 0)) io
    if (s.strm n k).list.isSome then io.setReg (b + ssOff k Off.carter_SS_LIST_POS) f.pos else io)

/-- Ask the host for a page (R414): at most 512 requests are outstanding and further ones wait. -/
def requestPage (s : State) (page : Nat) : State :=
  if s.host.priPages.contains page then s
  else
    let s := { s with host := { s.host with priPages := s.host.priPages ++ [page] } }
    if s.host.priPages.length ≤ 512 then s.mapIo (fun io => io.send ⟨"PRI", page, 0, []⟩) else s

/-- A stream becomes CLOSED: its references are released; its halt registers and the position of the last
tile stay (R112, R115). -/
def closeStrm (s : State) (n k : Nat) : State :=
  let x := s.strm n k
  let s := s.setStrm n k { inst := x.inst, lastPos := x.lastPos, lastSlot := x.lastSlot }
  dropRefs s x.cn x.refs

/-- A stream halts or fails at its fault point (R129 to R131): registers, STREAM_FAULT and one record. -/
def haltStrm (s : State) (n k : Nat) (f : FaultPoint) : State :=
  let failed := decide (f.code = Code.HOST_DENIED) || decide (f.code = Code.TIER_OFFLINE)
  let st := if failed then 7 else 3
  let s := saveFault s n k f
  let x := s.strm n k
  let s := s.setStrm n k { x with st := st, halting := false, fault := some f }
  let c := s.core n
  let s := if failed ∧ c.failCode = 0 ∧ (c.task.map (fun t => t.id)) = some x.task then s.setCore n { c with failCode := f.code } else s
  let s := if failed then s.mapIo (fun io => io.setReg ((bCarter n).base + ssOff k Off.carter_SS_CODE) f.code) else s
  let s := if f.code = Code.HOST_NOT_PRESENT then requestPage s (f.addr / 4096) else s.migrFault f.code
  let slot := (s.ctx? x.cn).bind (fun q => q.slot)
  let s := s.mapIo (fun io => (io.riseQuiet (bCarter n) 2).note (bCarter n) Cls.FAULT f.code slot f.addr (k + 16 * st))
  if failed ∧ x.closing then
    let left := x.tiles.filter (fun t => t.issued)
    if left = [] then closeStrm s n k else s.setStrm n k { s.strm n k with tiles := left }
  else s

/-- WRITE_TILE_ISSUE: released tiles in walk order, each translated and pinned whole before any line is
written; a fault halts the stream at the tile (R132). -/
def issueWrites (s : State) (n k : Nat) : Nat → State
  | 0 => s
  | fuel + 1 =>
    let x := s.strm n k
    match x.desc, x.tiles.find? (fun t => !t.issued) with
    | some d, some t =>
      if x.st = 3 ∨ x.st = 7 then s
      else
        let ls := tileSpans d t
        if tHeld s d.tier d.base then s
        else match ls.findSome? (fun l => tFault s d.tier l.addr l.len true) with
          | some (c, a) =>
            let page := if d.tier = 4 then a / 4096 * 4096 else a / 65536 * 65536
            if x.st = 4 then
              if c = Code.HOST_DENIED ∨ c = Code.TIER_OFFLINE then
                s.setStrm n k { x with tiles := x.tiles.filter (fun u => u.issued) }
              else s
            else haltStrm s n k ⟨c, t.pos, d.lineCoords (t.blk.getD []) 0, page⟩
          | none =>
            let key := strmKey s n k
            let reqs := ls.zipIdx.map (fun e =>
              { core := n, st := k, inst := x.inst, ord := t.ord, idx := e.2, write := true, tier := d.tier,
                addr := e.1.addr, key := key, issued := s.io.tb * 16,
                path := pathTo s.mem (dieOfCore n) d.tier e.1.addr : LineReq })
            let s := s.setStrm n k { x with tiles := x.tiles.map (fun u => if u.ord = t.ord then { u with issued := true } else u) }
            issueWrites { s with fetch := { s.fetch with lines := s.fetch.lines ++ reqs } } n k fuel
    | _, _ => s

/-- WRITE_TILE_ISSUE for a stream. -/
def writeMore (s : State) (n k : Nat) : State := issueWrites s n k ((s.strm n k).tiles.length + 1)

/-- The tiles that a read stream has ready or in part are thrown away and charged (R135). -/
def throwTiles (s : State) (n : Nat) (x : Strm) : State :=
  match x.desc with
  | some d => discard s n (x.tiles.foldl (fun a t => a + returnedBytes d t) 0)
  | none => s

/-- Reads of a stream instance still on their way. -/
def inFlight (s : State) (n k inst : Nat) : Bool :=
  s.fetch.lines.any (fun r => decide (r.core = n) && decide (r.st = k) && decide (r.inst = inst) && !r.write)

/-- A gang whose last member has left ends (R121). -/
def endGangs (s : State) : State :=
  { s with fetch := { s.fetch with gangs := s.fetch.gangs.filter (fun g =>
      (openStrms s).any (fun e => e.2.2.gang == some g.id)) } }

/-- STREAM.CLOSE of a read stream, or a member's leaving: CLOSED in the same cycle (R115, R121); the rest of a
gang goes on. -/
def closeRead (s : State) (n k : Nat) : State :=
  let x := s.strm n k
  let others := (gangOf s n k).filter (fun e => !(e.1 == n && e.2 == k))
  let s := throwTiles s n x
  let s := { s with fetch := { s.fetch with lines := s.fetch.lines.map (fun r =>
      if r.core = n ∧ r.st = k ∧ r.inst = x.inst ∧ x.gang.isSome then
        match others with
        | (c, j) :: _ => { r with core := c, st := j, inst := (s.strm c j).inst }
        | [] => r
      else r) } }
  let s := endGangs (closeStrm s n k)
  match others with
  | (c, j) :: _ => fetchMore s c j
  | [] => s

/-- STREAM.CLOSE of a write stream: the held slot is released as ADVANCE would, and the stream drains (R115). -/
def closeWrite (s : State) (n k : Nat) : State :=
  let x := s.strm n k
  let c := s.core n
  let tiles : List Tile := match x.held with
    | some t => x.tiles ++ [{ t with poison := c.poisoned }]
    | none => x.tiles
  let tiles : List Tile := if x.st = 7 then tiles.filter (fun t => t.issued) else tiles
  let y := { x with held := none, waiting := false, closing := true, tiles := tiles, taken := x.taken + b2n x.held.isSome }
  if tiles = [] then closeStrm (s.setStrm n k y) n k
  else writeMore (s.setStrm n k { y with st := if x.st = 3 ∨ x.st = 7 then x.st else 5 }) n k

/-- Close a stream of either direction; a FAILED write stream loses its unwritten tiles. -/
def closeAny (s : State) (n k : Nat) : State :=
  let x := s.strm n k
  if x.st = 0 ∨ x.closing then s
  else if x.reads then closeRead s n k
  else closeWrite s n k

/-- A cancel reaches a stream (R134): CANCELLING, ready and held tiles discarded, released write tiles still
written, a halt abandoned. -/
def cancelStrm (s : State) (n k : Nat) : State :=
  let x := s.strm n k
  if x.st = 0 then s
  else
    let others := (gangOf s n k).filter (fun e => !(e.1 == n && e.2 == k))
    let s := if x.reads then throwTiles s n x else s
    let y := { x with st := 4, held := none, waiting := false, halting := false, fault := none, gang := none,
                      tiles := if x.reads then [] else x.tiles }
    let s := s.setStrm n k y
    let s := if x.reads then endGangs s else writeMore s n k
    let s := s.setCore n { s.core n with fence := true }
    match others with
    | (c, j) :: _ => fetchMore s c j
    | [] => s

/-- The streams of a core that a predicate selects. -/
def strmsOf (s : State) (n : Nat) (p : Strm → Bool) : List Nat :=
  ((s.core n).strms.filter (fun e => p e.2)).map Prod.fst

/-- STREAM_RESUME: a halted stream restarts from its saved point (R131, R132). -/
def resumeStrm (s : State) (n k : Nat) : State :=
  let x := s.strm n k
  if x.st ≠ 3 then s
  else
    let s := s.setStrm n k { x with st := if x.closing then 5 else 1, fault := none }
    if !x.reads then writeMore s n k
    else
      match x.desc with
      | none => s
      | some d =>
        let reqs := x.tiles.flatMap (fun t =>
          match t.blk with
          | none => []
          | some b => ((d.tileLines b).zipIdx.filter (fun e => t.wait.contains e.2)).map (fun e =>
              { core := n, st := k, inst := x.inst, ord := t.ord, idx := e.2, write := false, tier := d.tier,
                addr := e.1.addr, key := strmKey s n k, issued := s.io.tb * 16,
                path := pathTo s.mem (dieOfCore n) d.tier e.1.addr, gang := x.gang : LineReq }))
        let lead := (gangOf s n k).head? == some (n, k)
        let s := if lead then { s with fetch := { s.fetch with lines := s.fetch.lines ++ reqs } } else s
        fetchMore s n k

/-- Every halted stream whose fault a predicate on its code and address selects resumes (R131). -/
def resumeWhere (s : State) (p : Nat → Nat → Bool) : State :=
  let s := ((openStrms s).filter (fun e => decide (e.2.2.st = 4) && !e.2.2.reads)).foldl (fun s e => writeMore s e.1 e.2.1) s
  ((openStrms s).filter (fun e => decide (e.2.2.st = 3) && e.2.2.fault.any (fun f => p f.code f.addr))).foldl
    (fun s e => resumeStrm s e.1 e.2.1) s

/-- Every halted stream whose fault a predicate selects fails with a code (R131, R420). -/
def failWhere (s : State) (code : Nat) (p : Nat → Nat → Bool) : State :=
  ((openStrms s).filter (fun e => decide (e.2.2.st = 3) && e.2.2.fault.any (fun f => p f.code f.addr))).foldl
    (fun s e => match e.2.2.fault with
      | some f => haltStrm s e.1 e.2.1 { f with code := code }
      | none => s) s

/-- Placement pages on which a write stream holds a translation pin (R132, R411). -/
def pinned (s : State) (page : Nat) : Bool :=
  (openStrms s).any (fun e => match e.2.2.desc with
    | some d => !e.2.2.reads && decide (1 ≤ d.tier) && decide (d.tier ≤ 3) &&
        e.2.2.tiles.any (fun t => t.issued && (tileSpans d t).any (fun l => decide (l.addr / 65536 = page)))
    | none => false)

/-- The stream register STn (Table 5.4). -/
def stReg (s : State) (n k : Nat) : Nat :=
  let x := s.strm n k
  let left := decide (x.st = 1 ∨ x.st = 3 ∨ x.st = 6) && decide (x.next < strmTotal s n x)
  let more := if !x.reads then left else match x.tiles with
    | t :: _ => !(decide (x.st = 7) && decide (t.wait ≠ []))
    | [] => left
  let endf := decide (x.st = 2) || ((x.held.isSome || decide (x.st = 7)) && decide (x.st ≠ 0) && !more)
  x.lastPos % 2 ^ 32 * 2 ^ 32 + b2n (decide (x.st = 7)) * 2 ^ 25 + b2n (decide (x.st = 3)) * 2 ^ 24
    + b2n endf * 2 ^ 23 + b2n x.held.isSome * 2 ^ 22 + x.lastSlot % 2 ^ 22

end Sys2Proof.Machine
end

