-- ==== Sys2Proof/Machine/Caller.lean ====
section
/-! DEFINITION. The Caller: templates, tokens, matching, expert batches, route groups and flows (R307 to R319,
R336 to R351). -/

namespace Sys2Proof.Machine

/-- A task template (Table 13.1). -/
structure Tmpl where
  bs : List Byte
  deriving DecidableEq, Repr

namespace Tmpl
def b0 (t : Tmpl) : Nat := fieldAt t.bs 0 1
def valid (t : Tmpl) : Bool := bitOf t.b0 0
def keyed (t : Tmpl) : Bool := bitOf t.b0 1
def seq (t : Tmpl) : Nat := bitsOf t.b0 3 2
def complete (t : Tmpl) : Nat := bitsOf t.b0 5 4
def kind (t : Tmpl) : Nat := bitsOf t.b0 7 6
def pri (t : Tmpl) : Nat := bitsOf (fieldAt t.bs 1 1) 2 0
def deadline (t : Tmpl) : Bool := bitOf (fieldAt t.bs 1 1) 3
def service (t : Tmpl) : Nat := fieldAt t.bs 2 2
def entry (t : Tmpl) : Nat := fieldAt t.bs 4 4
def nin (t : Tmpl) : Nat := fieldAt t.bs 8 1 % 32
def flowMode (t : Tmpl) : Nat := fieldAt t.bs 9 1 % 4
def flow (t : Tmpl) : Nat := fieldAt t.bs 10 2 % 8192
def budget (t : Tmpl) : Nat := fieldAt t.bs 12 4
def timeout (t : Tmpl) : Nat := fieldAt t.bs 16 3
def partialFire (t : Tmpl) : Bool := bitOf (fieldAt t.bs 19 1) 0
def chain (t : Tmpl) : Nat := fieldAt t.bs 0x14 2
def stage (t : Tmpl) : Nat := fieldAt t.bs 0x16 1
def preopen (t : Tmpl) (i : Nat) : Nat := fieldAt t.bs (0x18 + 4 * i) 4
def out (t : Tmpl) (p : Nat) : Nat := if p < 8 then fieldAt t.bs (0x28 + 4 * p) 4 else 0
def opndOff (t : Tmpl) : Nat := fieldAt t.bs 0x48 4 % 2 ^ 22
end Tmpl

/-- A template of a die; an absent one is not VALID. -/
def tmplOf (s : State) (die n : Nat) : Tmpl := ⟨(smFind n (s.caller die).tmpls).getD []⟩

/-- Change a Caller. -/
def State.mapCaller (s : State) (d : Nat) (f : CallerSt → CallerSt) : State := s.setCaller d (f (s.caller d))

/-- A context does something (R375). -/
def touchCn (s : State) (cn : Nat) : State :=
  match s.ctx? cn with
  | some c => s.setCtx { c with last := s.io.tb }
  | none => s

/-- The slot of a context number, or 0xFFFF. -/
def slotOf (s : State) (cn : Nat) : Nat := ((s.ctx? cn).bind (fun c => c.slot)).getD 0xFFFF

/-- A sequence slot of a core (Table 6.11). -/
def seqOf (s : State) (n k : Nat) : Seq := smGet {} k (s.core n).seqs

/-- A sequence slot of a core takes a new value; a RETIRING slot whose completion has been reported and whose route
groups have returned is FREE (R317). -/
def setSeq (s : State) (n k : Nat) (q : Seq) : State :=
  let q : Seq := if q.st = 3 ∧ q.reported ∧ q.groups = 0 then { q with st := 0, lastCn := some q.cn, offer := true } else q
  s.setCore n { s.core n with seqs := smPut {} k q (s.core n).seqs }

/-- Whether a binding is still the slot's present one and has not retired (R317, R319); a return token stops at a
retiring slot too. -/
def bindingLive (s : State) (b : Binding) (ret : Bool) : Bool :=
  let q := seqOf s b.core b.slot
  decide (q.serial = b.serial) && decide (q.st ≠ 0) && !(ret && decide (q.st = 3))

/-- Operand slots that a service's tokens hold on a die: one service number for each slot (R339). -/
def slotHolders (s : State) (die : Nat) : List Nat :=
  let c := s.caller die
  let ops : Task → List Nat := fun t => (t.opnds.filter (fun o => o.isSome)).map (fun _ => t.svc)
  c.toks.map (fun t => t.svc)
    ++ (s.expert.batches.filter (fun b => b.die == die)).flatMap (fun b => b.toks.map (fun t => t.svc))
    ++ c.ready.flatMap ops ++ c.next.flatMap (fun e => ops e.2)
    ++ (s.expert.fired.filter (fun f => f.die == die)).flatMap (fun f => ops f.task)
    ++ s.call.flatMap (fun d => d.2.flows.flatMap (fun e => e.2.window.flatMap (fun w => (w.tokens.filter (fun t => t.die == die)).map (fun t => t.svc))))
    ++ (s.expert.groups.filter (fun g => g.die == die)).map (fun g => g.svc)

/-- Operand slots held on a die. -/
def slotsUsed (s : State) (die : Nat) : Nat := (slotHolders s die).length

/-- Whether a token of a service finds a slot within the store and its quota (R339). -/
def slotFree (s : State) (die svc : Nat) : Bool :=
  let h := slotHolders s die
  let q := match s.service? svc with
    | some v => if die = 0 then v.quota0 else v.quota1
    | none => 131072
  decide (h.length < 131072) && decide ((h.filter (fun x => x == svc)).length < q)

/-- The expert stage that an EXPERT template is the batch template of (Table 11.3). -/
def stageOf (s : State) (die entry : Nat) : Option ExpertStage :=
  s.expert.stages.find? (fun e => e.die == die && e.entry == entry)

/-- The key by which tokens of a template meet: none unless KEYED (R338). -/
def meetKey (t : Tmpl) (key : Nat) : Nat := if t.keyed then key else 0

/-- Tokens waiting on a port of a template under a meeting key, oldest first (R338). -/
def portQueue (c : CallerSt) (t : Tmpl) (n p key : Nat) : List Token :=
  c.toks.filter (fun k => k.tmpl == n && k.port == p && meetKey t k.key == key)

/-- Remove timer entries for a purpose, counting NEAR_MISS of one that ends in this tick (R393). -/
def dropTimer (s : State) (die : Nat) (w : TimerFor) : State :=
  let c := s.caller die
  let near := c.timers.any (fun t => t.what == w && decide (t.left = 0))
  let s := s.setCaller die { c with timers := c.timers.filter (fun t => t.what != w) }
  if near then s.mapIo (fun io => io.count (bCaller die) Off.caller_NEAR_MISS 1) else s

/-- Set a timer entry for `d` ticks, this tick included (R350). -/
def setTimer (s : State) (die : Nat) (w : TimerFor) (d : Nat) : State :=
  s.mapCaller die (fun c => { c with timers := c.timers ++ [⟨w, d⟩] })

/-- Whether a timer entry is free (R350). -/
def timerFree (s : State) (die : Nat) : Bool := decide ((s.caller die).timers.length < 65536)

/-- The next task ID of a die (R341). -/
def nextTaskId (s : State) (die : Nat) : Nat × State :=
  let n := (s.caller die).lastId
  let n := if n = 0x7FFFFFFF then 1 else n + 1
  (die * 2 ^ 31 + n, s.mapCaller die (fun c => { c with lastId := n }))

/-- The absolute deadline of a job's task of a template: r + O_s + SUBDL_s (R390). -/
def deadlineOf (s : State) (svc : Nat) (cls : Option Nat) (die n rel : Nat) : Option Nat :=
  match s.service? svc, cls with
  | some v, some k =>
    (v.jobs.find? (fun j => j.id == k)).bind (fun j =>
      (j.stages.find? (fun e => e.1 == die * 16384 + n)).map (fun e => rel + e.2))
  | _, _ => none

/-- The priority level of a task. -/
def taskPri (s : State) (t : Task) : Nat := t.pri.getD (tmplOf s t.die t.tmpl).pri

/-- The flow that a task of a template joins (R348). -/
def flowOf (t : Tmpl) (first : Option Token) : Option Nat :=
  if t.flowMode = 1 then some t.flow else if t.flowMode = 2 then first.bind (fun k => k.flow) else none

/-- Whether a flow's window is full (R348). -/
def windowFull (s : State) (die : Nat) (f : Option Nat) : Bool :=
  match f with
  | some f => decide (1024 ≤ (smGet {} f (s.caller die).flows).window.length)
  | none => false

/-- A task takes the next position of its flow (R348). -/
def takePos (s : State) (die : Nat) (f : Option Nat) (cn task : Nat) (inst : Option Nat) (arrs : List (Nat × Nat × Nat)) :
    Nat × State :=
  match f with
  | none => (0, s)
  | some f =>
    let c := s.caller die
    let fl := smGet {} f c.flows
    let w : FlowPos := { pos := fl.next, ctx := cn, task := task, at_ := s.io.tb, inst := inst, arrs := arrs }
    let fl' : Flow := { fl with next := (fl.next + 1) % 2 ^ 32, window := fl.window ++ [w] }
    let s := s.setCaller die { c with flows := smPut {} f fl' c.flows }
    (fl.next, if fl'.window.length = 1024 then s.mapIo (fun io => io.rise (bCaller die) 2) else s)

/-- Largest DEPTH of a level since its last read (Table 13.15). -/
def noteDepth (s : State) (die l : Nat) : State :=
  let d := ((s.caller die).ready.filter (fun t => taskPri s t == l)).length
  let o := (bCaller die).base + 0x1040 + 0x80 * l + 4
  if s.io.frozen (bCaller die) ∨ d ≤ s.io.reg o then s else s.mapIo (fun io => io.setReg o d)

/-- Operands become a task: its ID, its flow position, and its fused instance when its template heads a chain
(R341, R348, R353).  `place` queues it. -/
def makeTask (s : State) (die n : Nat) (ops : List (Option Token)) : Task × State :=
  let t := tmplOf s die n
  let have_ := ops.filterMap id
  let first := (ops.head?.join).or have_.head?
  let cn := (first.map (fun k => k.ctx)).getD 0
  let svc := t.service
  let flow := flowOf t first
  let arrs := have_.filterMap (fun k => k.arr)
  let (id, s) := nextTaskId s die
  let old := have_.findSome? (fun k => k.inst)
  let heads := old.isNone && decide (t.chain ≠ 0xFFFF) && decide (t.stage = 0)
  let iid := s.adm.nextInst
  let (pos, s) := if old.isNone then takePos s die flow cn id (if heads then some iid else none) arrs else (0, s)
  let cmd := have_.findSome? (fun k => k.cmd.bind (fun c => if c.op = 0x10 then some c else none))
  let inst : FusedInst :=
    { id := iid, chain := t.chain, svc := svc, ctx := cn, die := die, key := (first.map (fun k => k.key)).getD 0, cmd := cmd,
      flow := flow, pos := pos, bufs := List.replicate 6 [], rel := (first.map (fun k => k.rel)).getD 0,
      cls := first.bind (fun k => k.cls) }
  let s := if heads then { s with adm := { s.adm with insts := s.adm.insts ++ [inst], nextInst := iid + 1 } } else s
  let rel := (first.map (fun k => k.rel)).getD 0
  let cls := first.bind (fun k => k.cls)
  ({ id := id, die := die, tmpl := n, key := (first.map (fun k => k.key)).getD 0,
     opnds := ops.map (fun o => o.map (fun k => (k.key, k.val))), ctx := cn, svc := svc,
     binding := if t.seq = 2 then first.bind (fun k => k.binding) else none,
     flow := if old.isNone then flow else none, pos := pos, readyAt := s.io.tb, rel := rel, cls := cls,
     deadline := if t.deadline then deadlineOf s svc cls die n rel else none,
     inst := if heads then some (iid, 0, 0) else old, grps := have_.filterMap (fun k => k.grp), arrs := arrs }, s)

/-- Queue a ready task. -/
def queueTask (s : State) (t : Task) : State :=
  let s := s.mapCaller t.die (fun c => { c with ready := c.ready ++ [t] })
  noteDepth s t.die (taskPri s t)

/-- Tokens leave the port queues. -/
def takeToks (s : State) (die : Nat) (ks : List Token) : State :=
  s.mapCaller die (fun c => { c with toks := ks.foldl (fun l k => l.erase k) c.toks })

/-- Timers of later instances of a template and key move up by one. -/
def shiftTimers (s : State) (die n key idx : Nat) : State :=
  s.mapCaller die (fun c => { c with timers := c.timers.map (fun t => match t.what with
    | .instance_ m k i => if m = n ∧ k = key ∧ idx < i then { t with what := .instance_ m k (i - 1) } else t
    | _ => t) })

/-- The tokens of instance `idx` of a template and key, by port (R338). -/
def instanceToks (s : State) (die n key idx : Nat) : List (Option Token) :=
  let t := tmplOf s die n
  let c := s.caller die
  (List.range t.nin).map (fun p => (portQueue c t n p key)[idx]?)

/-- The oldest instance of a template and key becomes ready when every port holds a token and its flow's window
allows (R338, R348). -/
def tryForm (s : State) (die n key : Nat) : State :=
  let t := tmplOf s die n
  let ops := instanceToks s die n key 0
  if t.nin = 0 ∨ ops.any (fun o => o.isNone) then s
  else if windowFull s die (flowOf t (ops.head?.join)) then s
  else
    let s := takeToks s die (ops.filterMap id)
    let s := shiftTimers (dropTimer s die (.instance_ n key 0)) die n key 0
    let (task, s) := makeTask s die n ops
    queueTask s task

/-- Try a template and key until nothing forms. -/
def formAll (s : State) (die n key : Nat) : Nat → State
  | 0 => s
  | fuel + 1 =>
    let s' := tryForm s die n key
    if (s'.caller die).toks.length = (s.caller die).toks.length then s else formAll s' die n key fuel

/-- A token joins its port queue, setting a timer when it is the first of its instance (R338, R340). -/
def joinPort (s : State) (k : Token) : State :=
  let t := tmplOf s k.die k.tmpl
  let key := meetKey t k.key
  let c := s.caller k.die
  let q := (portQueue c t k.tmpl k.port key).length
  let first := (List.range t.nin).all (fun p => decide ((portQueue c t k.tmpl p key).length ≤ q))
  let s := s.setCaller k.die { c with toks := c.toks ++ [k] }
  let s := if first ∧ t.timeout ≠ 0 then setTimer s k.die (.instance_ k.tmpl key q) t.timeout else s
  tryForm s k.die k.tmpl key

/-- Whether a token would need a timer entry (R340, R309). -/
def needsTimer (s : State) (k : Token) : Bool :=
  let t := tmplOf s k.die k.tmpl
  if t.kind = 1 then
    match stageOf s k.die k.tmpl with
    | none => false
    | some e => !(s.expert.batches.any (fun b => b.die == k.die && b.entry == k.tmpl && b.expert == k.key - e.base
        && (e.service || b.cn == k.ctx)))
  else
    let key := meetKey t k.key
    let c := s.caller k.die
    let q := (portQueue c t k.tmpl k.port key).length
    let first := (List.range t.nin).all (fun p => decide ((portQueue c t k.tmpl p key).length ≤ q))
    first && decide (t.timeout ≠ 0) && decide (1 < t.nin)

/-- The resident set that holds an expert (Table 11.3). -/
def expertSet (e : ExpertStage) (x : Nat) : Option Nat :=
  if e.setFirst = 0xFF then none else some (e.setFirst + (if e.perSet = 0 then 0 else x / e.perSet))

/-- A batch fires: one batch task at PRI, queued, or waiting for a round of its set (R311, R314). -/
def fireBatch (s : State) (b : Batch) : State :=
  match stageOf s b.die b.entry with
  | none => s
  | some e =>
    let s := { s with expert := { s.expert with batches := s.expert.batches.filter (fun x => x.serial ≠ b.serial) } }
    let (t, s) := makeTask s b.die b.entry (b.toks.map some)
    let t := { t with pri := some e.pri }
    match expertSet e b.expert with
    | none => queueTask s t
    | some set =>
      let f : FiredBatch := { die := b.die, set := set, task := t, at_ := s.io.tb, fwd := e.fwdEntry, wait := e.roundWait, min := e.roundMin }
      let first := !(s.expert.fired.any (fun x => x.die == b.die && x.set == set))
      let s := { s with expert := { s.expert with fired := s.expert.fired ++ [f] } }
      if first then setTimer s b.die (.round set) e.roundWait else s

/-- A token joins the open batch of its expert, or opens one; a full batch fires at once (R308, R309). -/
def joinBatch (s : State) (e : ExpertStage) (k : Token) : State :=
  let x := k.key - e.base
  match s.expert.batches.find? (fun b => b.die == k.die && b.entry == k.tmpl && b.expert == x && (e.service || b.cn == k.ctx)) with
  | some b =>
    let b' := { b with toks := b.toks ++ [k] }
    let s := { s with expert := { s.expert with batches := s.expert.batches.map (fun y => if y.serial = b.serial then b' else y) } }
    if e.gatherN ≤ b'.toks.length then fireBatch (dropTimer s k.die (.expert e.stage x b.serial)) b' else s
  | none =>
    let n := s.expert.nextBatch
    let b : Batch := ⟨n, k.die, k.tmpl, x, k.ctx, [k]⟩
    let s := { s with expert := { s.expert with batches := s.expert.batches ++ [b], nextBatch := n + 1 } }
    if e.gatherN ≤ 1 then fireBatch s b else setTimer s k.die (.expert e.stage x n) e.delay

/-- What becomes of a token that is offered to a Caller. -/
inductive Offer where
  | accepted
  | held
  | refused
  | stale
  | badRoute
  deriving DecidableEq, Repr

/-- A token's own checks: its template, its port and its binding (R336, R308, R319); a template of an offlined die drops it
(R536). -/
def tokenCheck (s : State) (k : Token) : Option Offer :=
  let t := tmplOf s k.die k.tmpl
  if !t.valid ∨ s.io.isOffline (bCaller k.die) ∨ t.service ≠ k.svc ∨ t.kind = 2 ∨ (t.kind = 0 ∧ t.nin ≤ k.port) then some .refused
  else if k.binding.any (fun b => !bindingLive s b (k.src == .routeReturn)) then some .stale
  else if t.kind = 1 then
    match stageOf s k.die k.tmpl with
    | none => some .refused
    | some e => if k.key < e.base ∨ e.base + e.experts ≤ k.key then some .badRoute else none
  else none

/-- A token of a flowed task is held in the matching store until its position's release (R348, R349). -/
def holdToken (s : State) (k : Token) (die f pos : Nat) : State :=
  s.mapCaller die (fun c =>
    let fl := smGet {} f c.flows
    { c with flows := smPut {} f { fl with window := fl.window.map (fun w =>
        if w.pos = pos then { w with tokens := w.tokens ++ [{ k with hold := none }] } else w) } c.flows })

/-- A token is taken into the matching store (R338, R363). -/
def acceptToken (s : State) (k : Token) : State :=
  let s := s.mapIo (fun io => io.count64 (bCaller k.die) Off.caller_TOKENS_LO 1)
  let s := touchCn s k.ctx
  let s := match k.src, k.grp with
    | .routeReturn, some g => { s with expert := { s.expert with groups := s.expert.groups.filter (fun x => x.id ≠ g) } }
    | _, _ => s
  let s := match k.cmd with
    | some c => if c.op = 0x11 then finish s c Code.OK else s
    | none => s
  let k : Token := { k with grp := if k.src = .routeReturn then none else k.grp,
                            cmd := k.cmd.bind (fun c => if c.op = 0x10 then some c else none) }
  match (tmplOf s k.die k.tmpl).kind, stageOf s k.die k.tmpl with
  | 1, some e => joinBatch s e k
  | _, _ => joinPort s k

/-- Offer a token without accounting for a failed route: accepted, held at its source in order, or dropped
(R336, R339, R351). -/
def offerBase (s : State) (k : Token) : State × Offer :=
  match tokenCheck s k with
  | some .stale => (s.mapIo (fun io => io.count (bCaller k.die) Off.caller_STALE_SEQ 1), .stale)
  | some o => (s.mapIo (fun io => (io.count (bCaller k.die) Off.caller_BAD_TOKENS 1).rise (bCaller k.die) 5), o)
  | none =>
    let c := s.caller k.die
    let behind := c.held.any (fun h => h.src == k.src)
    let noSlot := !slotFree s k.die k.svc
    let noTimer := k.hold.isNone && needsTimer s k && !timerFree s k.die
    if behind ∨ noSlot ∨ noTimer ∨ !(s.io.enabled (bCaller k.die) && s.io.ready (bCaller k.die)) then
      let s := s.setCaller k.die { c with held := c.held ++ [k] }
      let s := if noSlot then s.mapIo (fun io => io.rise (bCaller k.die) 3) else s
      (if noTimer then s.mapIo (fun io => io.rise (bCaller k.die) 4) else s, .held)
    else match k.hold with
      | some (d, f, p) => (holdToken s k d f p, .accepted)
      | none => (acceptToken s k, .accepted)

/-- ROUTE_GROUP_RETURN: a sealed group whose routes have completed delivers its return token (R312). -/
def groupReturn (s : State) (id : Nat) : State :=
  match s.expert.groups.find? (fun g => g.id == id) with
  | none => s
  | some g =>
    if !g.sealed ∨ g.ok + g.failed < g.routes ∨ g.returning then s
    else
      let set : RouteGroup → RouteGroup := fun x => if x.id = id then { x with returning := true } else x
      let s := { s with expert := { s.expert with groups := s.expert.groups.map set } }
      let k : Token := { die := g.die, tmpl := g.retTmpl, port := g.retPort, key := g.tag, val := g.ok % 2 ^ 32 + g.failed % 2 ^ 32 * 2 ^ 32,
                         ctx := g.cn, svc := g.svc, binding := g.binding, rel := g.rel, cls := g.cls, src := .routeReturn, grp := some id }
      let s := match g.binding with
        | some b =>
          let q := seqOf s b.core b.slot
          if q.serial = b.serial then setSeq s b.core b.slot { q with groups := q.groups - 1 } else s
        | none => s
      let (s, o) := offerBase s k
      if o = .held ∨ o = .accepted then s
      else { s with expert := { s.expert with groups := s.expert.groups.filter (fun x => x.id ≠ id) } }

/-- A route of a group completes (R312). -/
def routeDone (s : State) (id : Nat) (ok : Bool) : State :=
  let set : RouteGroup → RouteGroup := fun x =>
    if x.id = id then (if ok then { x with ok := x.ok + 1 } else { x with failed := x.failed + 1 }) else x
  groupReturn { s with expert := { s.expert with groups := s.expert.groups.map set } } id

/-- Offer a token to a Caller (R337 to R340). -/
def offerToken (s : State) (k : Token) : State × Offer :=
  let (s, o) := offerBase s k
  match o, k.grp with
  | .badRoute, some g => (if k.src = .routeReturn then s else routeDone s g false, o)
  | _, _ => (s, o)

/-- Deliver a token whatever becomes of it. -/
def deliver (s : State) (k : Token) : State := (offerToken s k).1

/-- The first held token of a die that can be accepted now, the first of its source (R351). -/
def acceptableHeld (s : State) (die : Nat) : Option Token :=
  let h := (s.caller die).held
  h.find? (fun k => s.io.enabled (bCaller die) && s.io.ready (bCaller die) && (h.find? (fun j => j.src == k.src)) == some k &&
    ((tokenCheck s k).isSome || (slotFree s die k.svc && (k.hold.isSome || !needsTimer s k || timerFree s die))))

/-- A held token is accepted at last, or dropped for a binding or template that has gone meanwhile. -/
def acceptHeld (s : State) (die : Nat) : State :=
  match acceptableHeld s die with
  | none => s
  | some k =>
    let s := s.mapCaller die (fun c => { c with held := c.held.erase k })
    let rest := (s.caller die).held
    let s := s.mapCaller die (fun c => { c with held := [] })
    let (s, o) := offerToken s k
    let s := s.mapCaller die (fun c => { c with held := rest ++ c.held })
    match k.src with
    | .core n =>
      let c := s.core n
      match c.emitDst with
      | some d =>
        let x := if d = 0 ∨ o ≠ .accepted then c.x else smPut 0 d 0 c.x
        s.setCore n { c with emitDst := none, x := x, pc := c.pc + 8 }
      | none => s
    | _ => s

/-- TOKEN_ACCEPT: a Caller is offered an operand token (R338). -/
def execTokenAccept (t : Token) (s : State) : Host.Outcome State Fault Refusal := .next (deliver s t)

/-- HELD_TOKEN_ACCEPTED: a slot frees and the oldest acceptable held token is taken (R339). -/
def execHeldTokenAccepted (die : Nat) (s : State) : Host.Outcome State Fault Refusal := .next (acceptHeld s die)

/-- The outcome counters and event of a task that is not OK (Tables 13.13, 13.14). -/
def countNotOk (s : State) (die : Nat) : State :=
  s.mapIo (fun io => (io.count (bCaller die) Off.caller_NOT_OK 1).rise (bCaller die) 6)

/-- A TASK_DONE record (R347, Table 13.12). -/
def taskRecord (s : State) (t : Task) (outcome info : Nat) (serr : Bool) (cycles : Nat) : List Byte :=
  recordBytes t.key 0x80 serr outcome (slotOf s t.ctx) 0
    (leBytes 4 t.id ++ leBytes 2 t.tmpl ++ leBytes 2 0 ++ leBytes 4 t.pos ++ leBytes 4 (min 0xFFFFFFFF cycles)) s.io.tb info

/-- A completion record of a task or instance: at once, or with its flow position (R347, R349). -/
def flowRecord (s : State) (die : Nat) (f : Option Nat) (pos key : Nat) (bs : List Byte) (sig : Bool) : State :=
  match f with
  | none => postRecord s key bs sig
  | some f => s.mapCaller die (fun c =>
      let fl := smGet {} f c.flows
      { c with flows := smPut {} f { fl with window := fl.window.map (fun w =>
          if w.pos = pos then { w with records := w.records ++ [(key, bs, sig)] } else w) } c.flows })

/-- A flow position has ended with an outcome and may be released (R349). -/
def endPos (s : State) (die : Nat) (f : Option Nat) (pos outcome : Nat) : State :=
  match f with
  | none => s
  | some f => s.mapCaller die (fun c =>
      let fl := smGet {} f c.flows
      { c with flows := smPut {} f { fl with window := fl.window.map (fun w =>
          if w.pos = pos then { w with ended := true, outcome := outcome } else w) } c.flows })

/-- An instance that its timeout drops reports OPERAND_TIMEOUT with the ports present (R340, R346). -/
def dropInstance (s : State) (die n : Nat) (ops : List (Option Token)) : State :=
  let t := tmplOf s die n
  let mask := ops.zipIdx.foldl (fun a e => if e.1.isSome then a + 2 ^ e.2 else a) 0
  match ops.findSome? id with
  | none => s
  | some k =>
    let s := countNotOk s die
    let tk : Task := { id := 0, die := die, tmpl := n, key := k.key, opnds := [], ctx := k.ctx, svc := k.svc }
    if t.complete = 1 ∨ t.complete = 2 then
      postRecord s (k.ctx + 1) (taskRecord s tk Code.OPERAND_TIMEOUT mask false 0) false
    else s

/-- OPERAND_TIMEOUT: an instance's entry has run out: fired with the ports it holds, or dropped (R340, R393). -/
def execOperandTimeout (die tmpl key idx : Nat) (s : State) : Host.Outcome State Fault Refusal :=
  let w : TimerFor := .instance_ tmpl key idx
  let ops := instanceToks s die tmpl key idx
  if !((s.caller die).timers.any (fun t => t.what == w && decide (t.left = 0))) ∨ ops.all (fun o => o.isSome) then .next s
  else
    let t := tmplOf s die tmpl
    let s := s.mapCaller die (fun c => { c with timers := c.timers.filter (fun t => t.what != w) })
    let s := shiftTimers (takeToks s die (ops.filterMap id)) die tmpl key idx
    let s := s.mapIo (fun io => io.count (bCaller die) Off.caller_TIMEOUTS 1)
    if t.partialFire then
      let (task, s) := makeTask s die tmpl ops
      .next (queueTask s task)
    else .next (dropInstance s die tmpl ops)

/-- EXPERT_BATCH_EXPIRY: a batch whose DELAY has run out fires with the tokens it holds (R309, R310). -/
def execExpertBatchExpiry (die serial : Nat) (s : State) : Host.Outcome State Fault Refusal :=
  match s.expert.batches.find? (fun b => b.die == die && b.serial == serial) with
  | none => .next s
  | some b =>
    match stageOf s die b.entry with
    | none => .next s
    | some e =>
      let w : TimerFor := .expert e.stage b.expert serial
      if !((s.caller die).timers.any (fun t => t.what == w && decide (t.left = 0))) then .next s
      else
        let s := s.mapCaller die (fun c => { c with timers := c.timers.filter (fun t => t.what != w) })
        .next (fireBatch s b)

/-- TICK_CFG_WRITE: a new tick, from the next boundary on, or BAD_TICK (R350). -/
def execTickCfgWrite (who : Requester) (die : Nat) (value : W32) (s : State) : Host.Outcome State Fault Refusal :=
  let b := bCaller die
  let off := b.base + Off.caller_TICK_CFG
  match writeAllowed s.io who b off with
  | some io => .next { s with io := io }
  | none =>
    let v := bitsOf value.toNat 19 0
    if v < 10 ∨ 1000000 < v then .next (s.mapIo (fun io => io.capture b Code.BAD_TICK off))
    else .next (s.mapCaller die (fun c => { c with tickNext := some v }))

end Sys2Proof.Machine
end

