-- ==== Sys2Proof/Machine/Hash.lean ====
section
/-! DEFINITION. Keys and hash functions: R64 to R75. -/

namespace Sys2Proof.Hash

def M64 : Nat := 2 ^ 64
def K1 : Nat := 0x9F3AC5B71D62E84B
def K2 : Nat := 0xC6D15A3EF0872B59

/-- Rotation left of a 64-bit word (R68). -/
def rotl64 (x r : Nat) : Nat := (x * 2 ^ r % M64) + x / 2 ^ (64 - r)

/-- The bijective finish of SMX64 (R68). -/
def fmix64 (x : Nat) : Nat :=
  let x := Nat.xor x (x / 2 ^ 33)
  let x := x * K1 % M64
  let x := Nat.xor x (x / 2 ^ 33)
  let x := x * K2 % M64
  Nat.xor x (x / 2 ^ 33)

/-- Absorb bytes in 8-byte little-endian words, the last one zero-filled (R68): `w` the word so far and
`i` the bytes in it. -/
def absorb (h w i : Nat) : List Byte → Nat
  | [] => if i = 0 then h else rotl64 (Nat.xor h w) 27 * 5 % M64
  | b :: bs =>
    let w := w + b.toNat * 2 ^ (8 * i)
    if i = 7 then absorb (rotl64 (Nat.xor h w) 27 * 5 % M64) 0 0 bs
    else absorb h w (i + 1) bs

/-- SMX64 (R68). -/
def smx64 (d : List Byte) (seed : Nat) : Nat :=
  fmix64 (Nat.xor (absorb (seed % M64) 0 0 d) (d.length % M64))

/-- One byte of CRC-32C, reflected polynomial 0x82F63B78 (R71). -/
def crcBits : Nat → Nat → Nat
  | 0, c => c
  | k + 1, c => crcBits k (if c % 2 = 1 then Nat.xor (c / 2) 0x82F63B78 else c / 2)

/-- CRC-32C of bytes, continuing a previous result (R71); start from 0. -/
def crc32c (start : Nat) (d : List Byte) : Nat :=
  Nat.xor (d.foldl (fun c b => crcBits 8 (Nat.xor c b.toNat)) (Nat.xor start 0xFFFFFFFF)) 0xFFFFFFFF

/-- Signed feature hash: index below m and sign (R72). -/
def featureHash (key : List Byte) (seed m : Nat) (sgn : Bool) : Nat × Int :=
  let h := smx64 key seed
  ((h % 2 ^ 32) * m / 2 ^ 32, if sgn && bitOf h 63 then -1 else 1)

/-- The lane value of a shingle hash in MinHash (R73). -/
def lane (b j : Nat) : Nat := fmix64 (Nat.xor b ((j + 1) * 0xB4E90C5762A3F18D % M64))

/-- The shingles of a token sequence: every k consecutive tokens, or all of them when fewer (R73). -/
def shingles (tok : List Nat) (k : Nat) : List (List Byte) :=
  let t := tok.length
  if t = 0 then []
  else
    let ns := if k ≤ t then t - k + 1 else 1
    let len := if k ≤ t then k else t
    (List.range ns).map (fun s => ((tok.drop s).take len).flatMap (fun x => leBytes 4 x))

/-- MinHash signature of `lanes` lanes (R73). -/
def minhash (tok : List Nat) (k lanes seed : Nat) : List Nat :=
  let hs := (shingles tok k).map (fun d => smx64 d seed)
  (List.range lanes).map (fun j => hs.foldl (fun a b => min a (lane b j)) 0xFFFFFFFFFFFFFFFF)

/-- Key bytes of a scalar field (R64). -/
def fieldKey (et bits : Nat) : List Byte := leBytes (Num.width et / 8) (Num.canonKey et bits)

/-- Whether a type can be a key field (R64). -/
def keyType (et : Nat) : Bool := Num.isInt et || Num.isFloat et

/-- Key bytes of a byte-string field of a composite key: a U16 length, then at most 65,535 bytes (R65). -/
def stringKey (d : List Byte) : List Byte :=
  let d := d.take 65535
  leBytes 2 d.length ++ d

/-- The stored form of a key: long form above 64 bytes (R66). -/
def storedKey (d : List Byte) : List Byte × Bool :=
  if d.length ≤ 64 then (d, false) else (d.take 56 ++ leBytes 8 (smx64 d 0), true)

/-- Whether two keys compare equal in their stored forms (R66). -/
def keyEq (a b : List Byte) : Bool := decide (storedKey a = storedKey b)

end Sys2Proof.Hash
end

