-- ==== Sys2Proof/Machine/Reel.lean ====
section
/-! DEFINITION. Reel links, the database, root election, addresses, routes and end-to-end packets: R442 to R457. -/

namespace Sys2Proof.Machine

namespace State

/-- A Reel link. -/
def link (s : State) (l : Nat) : LinkSt := smGet {} l s.fab.links

/-- Store a Reel link. -/
def setLink (s : State) (l : Nat) (x : LinkSt) : State := { s with fab := { s.fab with links := smPut {} l x s.fab.links } }

end State

/-- This device's UID. -/
def ownUid (_s : State) : Nat := Config.deviceUid.toNat

/-- This device's fabric address, when it has one. -/
def ownAddr (s : State) : Option Nat :=
  if s.io.bf bReel Off.reel_FAB_STAT 27 27 = 1 then some (s.io.bf bReel Off.reel_FAB_STAT 15 0) else none

/-- The source address of entries and packets: the fabric address, or 0 while FABRIC is 0 (R266). -/
def sourceAddr (s : State) : Nat := if feature s.io 3 then (ownAddr s).getD 0 else 0

/-- Links that are UP. -/
def upLinks (s : State) : List Nat := (List.range 12).filter (fun l => decide ((s.link l).st = 4))

/-- Change one of three channel values. -/
def setAt {α : Type} (l : List α) (i : Nat) (v : α) : List α := l.zipIdx.map (fun e => if e.2 = i then v else e.1)

/-- A flit (R443, Table 17.2). -/
def flitBytes (seq kind ack credit cvc pvc : Nat) (payload : List Byte) : List Byte :=
  let body := leBytes 2 (seq % 4096 + kind * 4096) ++ leBytes 2 (ack % 4096) ++ leBytes 2 (credit % 16384 + cvc * 16384)
    ++ leBytes 4 (pvc % 4) ++ padTo 242 payload
  body ++ leBytes 4 (Hash.crc32c 0 body)

/-- The credits that the next flit returns: the first channel that has any. -/
def creditField (x : LinkSt) : Nat × Nat :=
  match x.give.zipIdx.find? (fun e => decide (0 < e.1)) with
  | some (n, c) => (n, c)
  | none => (0, 3)

/-- Send a flit on a link with the acknowledgement and credits due (R443, R444). -/
def sendFlit (s : State) (l seq kind pvc : Nat) (payload : List Byte) : State :=
  let x := s.link l
  let (n, c) := creditField x
  let s := s.setLink l { x with give := if c < 3 then setAt x.give c 0 else x.give }
  s.mapIo (fun io => io.send ⟨"FLIT", l, 0, flitBytes seq kind ((x.rxSeq + 4095) % 4096) n c pvc payload⟩)

/-- A new sequenced flit: kept until it is acknowledged (R444). -/
def sendSeq (s : State) (l kind pvc : Nat) (payload : List Byte) : State :=
  let x := s.link l
  let s := sendFlit s l x.txSeq kind pvc payload
  let x := s.link l
  let s := s.setLink l { x with txSeq := (x.txSeq + 1) % 4096, unacked := x.unacked ++ [⟨x.txSeq, kind, pvc, payload, 0⟩] }
  if kind = 1 then s.mapIo (fun io => io.count64 (bLink l) Off.reelLink_FLITS_TX_LO 1) else s

/-- Send waiting bytes of a channel while credits and the 512 outstanding flits allow (R443, R444). -/
def pumpVc (s : State) (l vc : Nat) : Nat → State
  | 0 => s
  | fuel + 1 =>
    let x := s.link l
    let q := x.outQ.getD vc []
    if q = [] ∨ x.cred.getD vc 0 = 0 ∨ 512 ≤ x.unacked.length ∨ x.st ≠ 4 then s
    else
      let s := s.setLink l { x with outQ := setAt x.outQ vc (q.drop 242), cred := setAt x.cred vc (x.cred.getD vc 0 - 1) }
      pumpVc (sendSeq s l 1 vc (q.take 242)) l vc fuel

/-- Send what waits on a link: MGMT, then RSP, then REQ. -/
def pumpLink (s : State) (l : Nat) : State :=
  [2, 1, 0].foldl (fun s vc => pumpVc s l vc 512) s

/-- The bytes of a packet (Table 17.4). -/
def pktBytes (p : Pkt) : List Byte :=
  leBytes 2 p.dst ++ leBytes 2 p.src ++ leBytes 1 p.type ++ leBytes 1 p.vc ++ leBytes 2 p.payload.length ++ leBytes 4 p.flow
    ++ leBytes 4 p.eseq ++ leBytes 8 p.poison ++ leBytes 8 p.arg ++ p.payload

/-- The packet that a header and payload spell (Table 17.4). -/
def parsePkt (bs : List Byte) : Pkt :=
  { dst := fieldAt bs 0 2, src := fieldAt bs 2 2, type := fieldAt bs 4 1, vc := fieldAt bs 5 1 % 4, flow := fieldAt bs 8 4
    eseq := fieldAt bs 12 4, poison := fieldAt bs 16 8, arg := fieldAt bs 24 8, payload := (bs.drop 32).take (fieldAt bs 6 2) }

/-- A packet goes out on a link. -/
def sendOn (s : State) (l : Nat) (p : Pkt) : State :=
  let x := s.link l
  pumpLink (s.setLink l { x with outQ := setAt x.outQ p.vc (x.outQ.getD p.vc [] ++ pktBytes p) }) l

/-- The link that a packet takes (R453). -/
def nextHop (s : State) (src dst flow : Nat) : Option Nat :=
  let e := smGet {} dst s.fab.routes
  let h := Hash.smx64 (leBytes 2 src ++ leBytes 2 dst ++ leBytes 4 flow) 0
  e.links[(h % 2 ^ 32) * e.links.length / 2 ^ 32]?

/-- A packet type's channel (Table 17.5). -/
def vcOf (type : Nat) : Nat := if type = 3 ∨ type = 8 ∨ type = 9 then 1 else if 0x10 ≤ type then 2 else 0

/-- A response packet: sent once along its route, neither numbered nor kept (R454 numbers REQ packets). -/
def respond (s : State) (dst type flow eseq arg : Nat) (payload : List Byte) : State :=
  let src := sourceAddr s
  match nextHop s src dst flow with
  | some l => (sendOn s l ⟨dst, src, type, 1, flow, eseq, 0, arg, payload⟩).mapIo (fun io => io.count64 bReel Off.reel_PKTS_TX_LO 1)
  | none => s

/-- Acknowledge a pair's packets up to `eseq`, with a refusal code (R454). -/
def ackPair (s : State) (dst flow eseq status : Nat) : State := respond s dst 9 flow 0 (eseq + status * 2 ^ 32) []

/-- Key of a pair. -/
def pairKey (addr flow : Nat) : Nat := addr * 2 ^ 32 + flow

/-- Send a REQ packet end to end: numbered, kept until acknowledged, held while it has no route (R454, R456). -/
def transmit (s : State) (dst type flow poison arg : Nat) (payload : List Byte) (why : OutFor) : State :=
  let src := sourceAddr s
  let k := pairKey dst flow
  let n := smGet 0 k s.fab.txSeq
  let p : Pkt := ⟨dst, src, type, 0, flow, n, poison, arg, payload⟩
  let l := nextHop s src dst flow
  let o : OutPkt := ⟨p, why, l⟩
  let s := { s with fab := { s.fab with txSeq := smPut 0 k ((n + 1) % 2 ^ 32) s.fab.txSeq, out := s.fab.out ++ [o] } }
  let s := s.mapIo (fun io => io.count64 bReel Off.reel_PKTS_TX_LO 1)
  match l with
  | some l => sendOn s l p
  | none => s

/-- Whether a sender may send: fewer than 16,384 packets are unacknowledged (R454). -/
def maySend (s : State) : Bool := decide (s.fab.out.length < 16384)

/-- Why a command or request that names a remote device, or needs this device's address, is refused (R449). -/
def fabCheck (s : State) : Option Nat :=
  if !feature s.io 3 then some Code.FEATURE_OFF
  else if s.io.bf bReel Off.reel_FAB_STAT 31 28 ≠ 2 then some Code.FAB_NOT_READY
  else none

/-- Whether an address has a routing entry (R456). -/
def reachable (s : State) (dst : Nat) : Bool := !((smGet {} dst s.fab.routes).links == [])

/-- Resend unacknowledged packets that a predicate selects, in order, on the routes as they stand (R454, R455). -/
def resend (s : State) (p : OutPkt → Bool) : State :=
  (s.fab.out.filter p).foldl (fun s o =>
    let l := nextHop s o.p.src o.p.dst o.p.flow
    let s := { s with fab := { s.fab with out := s.fab.out.map (fun q => if q = o then { q with link := l } else q) } }
    match l with
    | some l => (sendOn s l o.p).mapIo (fun io => io.count bReel Off.reel_RESENT 1)
    | none => s) s

/-- Peer UID of a link as its last hello gave it. -/
def peerUid (s : State) (l : Nat) : Nat := s.io.reg64 ((bLink l).base + Off.reelLink_PEER_UID_LO)

/-- Flags that this device sends (Table 17.3). -/
def ownFlags (s : State) : Nat := s.io.bf bReel Off.reel_ROOT_CFG 1 0

/-- The devices that a device lists as peers of its UP links. -/
def peersOf (s : State) (uid : Nat) : List Nat :=
  if uid = ownUid s then (upLinks s).map (peerUid s)
  else match smFind uid s.fab.db with
    | some e => e.links.map Prod.snd
    | none => []

/-- Breadth-first distances over the database: rounds until `fuel` ends. -/
def growDist (s : State) : Nat → List (Nat × Nat) → List (Nat × Nat)
  | 0, ds => ds
  | fuel + 1, ds =>
    let far := ds.foldl (fun m e => max m e.2) 0
    let new := (ds.filter (fun e => e.2 == far)).flatMap (fun e => peersOf s e.1)
    let add := new.foldl (fun a u => if ds.any (fun e => e.1 == u) || a.contains u then a else a ++ [u]) []
    if add = [] then ds else growDist s fuel (ds ++ add.map (fun u => (u, far + 1)))

/-- Distances in hops from a device to every device of the component. -/
def distFrom (s : State) (uid : Nat) : List (Nat × Nat) := growDist s (s.fab.db.length + 1) [(uid, 0)]

/-- The UIDs of the component, this device's included. -/
def component (s : State) : List Nat := (distFrom s (ownUid s)).map Prod.fst

/-- Flags and address of a device of the component. -/
def devFlags (s : State) (uid : Nat) : Nat := if uid = ownUid s then ownFlags s else ((smFind uid s.fab.db).map (fun e => e.flags)).getD 0
def devAddr (s : State) (uid : Nat) : Option Nat :=
  if uid = ownUid s then ownAddr s
  else match smFind uid s.fab.db with
    | some e => if e.addr < 4096 then some e.addr else none
    | none => none

/-- The least of a list. -/
def leastOf : List Nat → Option Nat
  | [] => none
  | x :: xs => some (xs.foldl min x)

/-- The root of the component (R447): the lowest UID with FORCE_ROOT, else with ROOT_ELIGIBLE. -/
def electRoot (s : State) : Option Nat :=
  let c := component s
  (leastOf (c.filter (fun u => bitOf (devFlags s u) 1))).or (leastOf (c.filter (fun u => bitOf (devFlags s u) 0)))

/-- A management packet floods over UP links, but for one (R447). -/
def flood (s : State) (type arg : Nat) (payload : List Byte) (except : Option Nat) : State :=
  ((upLinks s).filter (fun l => some l ≠ except)).foldl (fun s l =>
    sendOn s l ⟨0xFFFF, (ownAddr s).getD 0xFFFF, type, 2, 0xFF000000, 0, 0, arg, payload⟩) s

/-- This device floods its own state (R447; the payload's layout is the model's, log entry 30). -/
def floodOwn (s : State) : State :=
  let links := (upLinks s).flatMap (fun l => leBytes 8 l ++ leBytes 8 (peerUid s l))
  flood s 0x10 0 (leBytes 8 (ownUid s) ++ leBytes 2 (ownFlags s) ++ leBytes 2 ((ownAddr s).getD 0xFFFF)
    ++ leBytes 4 (s.io.br bReel Off.reel_ADDR_REQ) ++ links) none

/-- This device's own address changes (R448). -/
def setOwnAddr (s : State) (a : Nat) : State :=
  let old := ownAddr s
  let s := s.mapIo (fun io => (io.setBf bReel Off.reel_FAB_STAT 15 0 a).setBf bReel Off.reel_FAB_STAT 27 27 1)
  if old = some a then s
  else
    let s := if old.isSome then s.mapIo (fun io => io.riseNamed bReel 7 Cls.LINK Code.ADDR_CHANGED none 0 (old.getD 0 * 65536 + a)) else s
    floodOwn s

/-- The address of a device is set: this device's own, or sent to the device in ADDR_ASSIGN. -/
def giveAddr (s : State) (uid a : Nat) : State :=
  let e : AddrEntry := { addr := a, seen := s.io.tb }
  let s := { s with fab := { s.fab with addrs := smInsert uid e s.fab.addrs } }
  if uid = ownUid s then setOwnAddr s a
  else
    let s := match smFind uid s.fab.db with
      | some d => { s with fab := { s.fab with db := smInsert uid { d with addr := a } s.fab.db } }
      | none => s
    flood s 0x11 0 (leBytes 8 uid ++ leBytes 2 a) none

/-- Addresses in use in the root's table. -/
def addrUsed (s : State) (a uid : Nat) : Bool := s.fab.addrs.any (fun e => decide (e.2.addr = a) && decide (e.1 ≠ uid))

/-- The requested address of a device: this device's ADDR_REQ, or the one its LINK_STATE carried (log entry 30). -/
def requested (s : State) (reqs : SMap Nat) (uid : Nat) : Option Nat :=
  let r := if uid = ownUid s then s.io.br bReel Off.reel_ADDR_REQ else smGet 0 uid reqs
  if bitOf r 31 then some (r % 4096) else none

/-- The address that the root gives a device (R448): requested and free, held, or the lowest free. -/
def pickAddr (s : State) (reqs : SMap Nat) (uid : Nat) : Option Nat :=
  match requested s reqs uid with
  | some a =>
    if !addrUsed s a uid then some a
    else match smFind uid s.fab.addrs with
      | some e => some e.addr
      | none => (List.range 4096).find? (fun a => !addrUsed s a uid)
  | none => match smFind uid s.fab.addrs with
    | some e => some e.addr
    | none => (List.range 4096).find? (fun a => !addrUsed s a uid)

/-- Insert a number in rising order. -/
def insertNat (x : Nat) : List Nat → List Nat
  | [] => [x]
  | y :: l => if x ≤ y then x :: y :: l else y :: insertNat x l

/-- Rising order. -/
def sortNat (l : List Nat) : List Nat := l.foldl (fun a x => insertNat x a) []

/-- A new root adopts the addresses that devices report; of two that report one address, the one in its table or
the lower UID keeps it (R448). -/
def adopt (s : State) : State :=
  let c := sortNat (component s)
  let kept := c.filter (fun u => match devAddr s u with
    | none => false
    | some a => !(c.any (fun v => decide (v ≠ u) && decide (devAddr s v = some a) &&
        (if (smFind u s.fab.addrs).isSome = (smFind v s.fab.addrs).isSome then decide (v < u) else (smFind v s.fab.addrs).isSome))))
  let tab := kept.foldl (fun t u => smInsert u { addr := (devAddr s u).getD 0, seen := s.io.tb } t)
    (s.fab.addrs.filter (fun e => !(c.contains e.1)))
  { s with fab := { s.fab with addrs := tab } }

/-- ADDRESS_ROUND: the root gives addresses to devices that became reachable, in ascending UID (R448). -/
def addressRound (s : State) (reqs : SMap Nat) : State :=
  let c := sortNat (component s)
  let new := c.filter (fun u => match smFind u s.fab.addrs with
    | some e => e.gone || decide (devAddr s u ≠ some e.addr)
    | none => true)
  new.foldl (fun s u =>
    if u = ownUid s then
      let a := match requested s reqs u with
        | some a => if !addrUsed s a u then some a else none
        | none => none
      let a := a.or (((smFind u s.fab.addrs).map (fun e => e.addr)).or (if addrUsed s 0 u then none else some 0))
      match a with
      | some a => giveAddr s u a
      | none => s
    else match pickAddr s reqs u with
      | some a => giveAddr s u a
      | none => s) s

/-- The root's table notes which devices are reachable now. -/
def noteReach (s : State) : State :=
  let c := component s
  { s with fab := { s.fab with addrs := s.fab.addrs.map (fun e =>
      if c.contains e.1 then (e.1, if e.2.gone then e.2 else { e.2 with seen := s.io.tb })
      else (e.1, if e.2.gone then e.2 else { e.2 with gone := true, seen := s.io.tb })) } }

/-- The table of minimum-hop routes that the Factor computes (R450). -/
def autoRoutes (s : State) : SMap RouteEnt :=
  let me := ownUid s
  ((component s).filter (fun u => u ≠ me)).foldl (fun t u =>
    match devAddr s u with
    | none => t
    | some a =>
      let ds := distFrom s me
      let d := ((ds.find? (fun e => e.1 == u)).map Prod.snd).getD 0
      let near := (upLinks s).filter (fun l => ((distFrom s (peerUid s l)).any (fun e => e.1 == u && e.2 + 1 == d)))
      smInsert a { links := near.take 4, hops := d } t) ((ownAddr s).toList.map (fun a => (a, {})))

/-- HOPS of a routing entry: 0xFF when unknown (Table 17.9). -/
def hopsOf (s : State) (a : Nat) : Nat :=
  match smFind a s.fab.routes with
  | some e => e.hops
  | none => if s.fab.routed then 0xFF else 0

/-- FAB_STAT.STATE as it stands (R449). -/
def fabState (s : State) : Nat :=
  if upLinks s = [] then 0
  else if s.fab.rootUid = 0 then 3
  else match ownAddr s with
    | none => if s.fab.rootUid = ownUid s ∨ (List.range 4096).all (fun a => s.fab.db.any (fun e => e.2.addr == a)) then 4 else 1
    | some _ => if (component s).all (fun u => (devAddr s u).isSome) then 2 else 1

/-- Routes and states follow the database: election, address round, routing table, FAB_STAT (R447 to R450). -/
def fabUpdate (s : State) (reqs : SMap Nat := []) : State :=
  let me := ownUid s
  let root := if upLinks s = [] then 0 else (electRoot s).getD 0
  let newRoot := decide (root ≠ s.fab.rootUid)
  let s := { s with fab := { s.fab with rootUid := root } }
  let s := s.mapIo (fun io => io.setReg64 (bReel.base + Off.reel_ROOT_UID_LO) root)
  let s := if newRoot ∧ root ≠ 0 then s.mapIo (fun io => io.rise bReel 5) else s
  let s := if newRoot ∧ root = me ∧ root ≠ 0 then adopt s else s
  let s := if root = me ∧ root ≠ 0 then addressRound (noteReach s) reqs else s
  let s := if s.io.bf bReel Off.reel_ROUTE_CTRL 0 0 = 1 then s
    else { s with fab := { s.fab with routes := autoRoutes s, routed := true } }
  let c := component s
  let s := s.mapIo (fun io => (io.setReg (bReel.base + Off.reel_ROOT_ADDR)
      (if root = 0 then 0xFFFF else (devAddr s root).getD 0xFFFF)).setReg (bReel.base + Off.reel_DEVICES)
      (if upLinks s = [] then 0 else (c.filter (fun u => (devAddr s u).isSome)).length))
  let st := fabState s
  let s := if st = s.io.bf bReel Off.reel_FAB_STAT 31 28 then s
    else s.mapIo (fun io => (io.setBf bReel Off.reel_FAB_STAT 31 28 st).rise bReel 2)
  let up := !(upLinks s == [])
  let s := s.mapIo (fun io => setFeature (setFeature io 3 up) 7 up)
  resend s (fun o => o.link.isNone)

/-- A link enters a state; entering or leaving UP sets UP_CHANGE (R445). -/
def linkTo (s : State) (l st : Nat) : State :=
  let x := s.link l
  let s := s.setLink l { st := st, signal := x.signal }
  if (x.st == 4) = (st == 4) then s else s.mapIo (fun io => io.rise (bLink l) 2)

/-- A link comes UP (R445, R446): the database follows, and this device floods its state. -/
def linkUp (s : State) (l : Nat) : State := floodOwn (fabUpdate (linkTo s l 4))

/-- REROUTE: a link that fails leaves the routes, and its unacknowledged packets are resent (R455). -/
def reroute (s : State) (l : Nat) : State :=
  let s := if s.io.bf bReel Off.reel_ROUTE_CTRL 0 0 = 1 then
      { s with fab := { s.fab with routes := s.fab.routes.map (fun e => (e.1, { e.2 with links := e.2.links.filter (fun k => k ≠ l) })) } }
    else s
  let s := fabUpdate s
  let s := s.mapIo (fun io => (io.count bReel Off.reel_REROUTES 1).rise bReel 4)
  floodOwn (resend s (fun o => o.link == some l))

/-- A link fails with a cause: back to DOWN, or FAILED for VERSION and LOOPBACK (R445, R446, R455). -/
def linkFail (s : State) (l cause : Nat) : State :=
  let was := (s.link l).st
  let s := linkTo s l (if cause = 1 ∨ cause = 2 then 5 else 1)
  let s := s.mapIo (fun io => io.setBf (bLink l) Off.reelLink_FAIL 3 0 cause)
  let s := if cause = 1 ∨ cause = 2 then s.mapIo (fun io => io.rise (bLink l) 3) else s
  let s := if cause = 3 then s.mapIo (fun io => io.rise (bLink l) 4) else s
  if was = 4 then reroute s l else s

/-- The link's ENABLE is written 0: DISABLED (R445). -/
def linkDisable (s : State) (l : Nat) : State :=
  let was := (s.link l).st
  let s := linkTo s l 0
  if was = 4 then reroute s l else s

/-- A replay from the flit after `ack` (R444): a flit replayed 8 times already fails the link. -/
def replay (s : State) (l : Nat) : State :=
  let x := s.link l
  if x.unacked = [] then s
  else if x.unacked.any (fun f => decide (8 ≤ f.replays)) then linkFail s l 3
  else
    let s := s.setLink l { x with unacked := x.unacked.map (fun f => { f with replays := f.replays + 1 }) }
    let s := s.mapIo (fun io => io.count (bLink l) Off.reelLink_REPLAYS 1)
    x.unacked.foldl (fun s f => sendFlit s l f.seq f.kind f.pvc f.payload) s

/-- An acknowledgement frees the flits up to it (R444). -/
def linkAck (s : State) (l ack : Nat) : State :=
  let x := s.link l
  s.setLink l { x with unacked := x.unacked.filter (fun f => decide (2048 ≤ (ack + 4096 - f.seq) % 4096)) }

/-- The packets that a channel's bytes hold, and the bytes left: bytes of zero after a packet are fill (R443, log
entry 31). -/
def takePkts : Nat → List Byte → List Pkt × List Byte
  | 0, bs => ([], bs)
  | fuel + 1, bs =>
    if bs.length < 32 then ([], if bs.all (fun b => b == 0) then [] else bs)
    else if fieldAt bs 4 1 = 0 then ([], [])
    else
      let n := 32 + fieldAt bs 6 2
      if bs.length < n then ([], bs)
      else
        let (ps, rest) := takePkts fuel (bs.drop n)
        (parsePkt (bs.take n) :: ps, rest)

/-- A packet type of Table 17.5. -/
def knownType (t : Nat) : Bool := (decide (1 ≤ t) && decide (t ≤ 9)) || (decide (0x10 ≤ t) && decide (t ≤ 0x12))

/-- A packet has come whole: forwarded, discarded for its type, or kept for its step (R452, R453). -/
def packetIn (s : State) (l : Nat) (p : Pkt) : State :=
  if p.vc ≠ 2 ∧ some p.dst ≠ ownAddr s then
    match nextHop s p.src p.dst p.flow with
    | some k => sendOn s k p
    | none => s
  else if !knownType p.type then s.mapIo (fun io => io.count bReel Off.reel_BAD_PKT 1)
  else { s with fab := { s.fab with arrived := s.fab.arrived ++ [(l, p)] } }

/-- DATA payload accepted on a link. -/
def dataIn (s : State) (l pvc : Nat) (payload : List Byte) : State :=
  let x := s.link l
  let (ps, rest) := takePkts 16 (x.inQ.getD pvc [] ++ payload)
  let s := s.setLink l { x with inQ := setAt x.inQ pvc rest, give := setAt x.give pvc (x.give.getD pvc 0 + 1) }
  let s := s.mapIo (fun io => io.count64 (bLink l) Off.reelLink_FLITS_RX_LO 1)
  ps.foldl (fun s p => packetIn s l p) s

/-- This device's hello (Table 17.3). -/
def helloBytes (s : State) (l : Nat) : List Byte :=
  leBytes 4 (1 + 256 + l * 65536 + (ownFlags s + 4 * b2n (s.link l).passed) * 2 ^ 24) ++ leBytes 4 0 ++ leBytes 8 (ownUid s)
    ++ leBytes 2 ((ownAddr s).getD 0xFFFF)

/-- A hello in HELLO (R445, R446): two identical ones in a row are checked, and the link comes UP once both ends
have passed. -/
def helloIn (s : State) (l : Nat) (h : List Byte) : State :=
  let x := s.link l
  let same := if h = x.hello then x.same + 1 else 1
  let s := s.setLink l { x with hello := h, same := same }
  if same < 2 then s
  else
    let b := (bLink l).base
    let ver := min 1 (fieldAt h 0 1)
    let s := s.mapIo (fun io => (io.setReg (b + Off.reelLink_PEER) (2 ^ 31 + fieldAt h 2 1 % 16 * 2 ^ 24 + fieldAt h 0x10 2)).setReg64
      (b + Off.reelLink_PEER_UID_LO) (fieldAt h 8 8))
    if ver < 1 ∨ ver < fieldAt h 1 1 then linkFail s l 1
    else if fieldAt h 8 8 = ownUid s then linkFail s l 2
    else
      let s := s.mapIo (fun io => io.setReg (b + Off.reelLink_VERSION) ver)
      let s := s.setLink l { s.link l with passed := true }
      if bitOf (fieldAt h 3 1) 2 then linkUp s l else s

/-- KIND and SEQ of a flit (Table 17.2). -/
def flitKind (flit : List Byte) : Nat := fieldAt flit 0 2 / 4096
def flitSeq (flit : List Byte) : Nat := fieldAt flit 0 2 % 4096

/-- A flit that is received as a CRC failure (R444, Table 17.2). -/
def flitBad (flit : List Byte) (uncorrectable : Bool) : Bool :=
  uncorrectable || decide (3 < flitKind flit) || decide (fieldAt flit 0xFC 4 ≠ Hash.crc32c 0 (flit.take 252))

/-- The counters of a received flit (Table 17.11). -/
def flitCount (io : Io) (l : Nat) (flit : List Byte) (corrected : Nat) (uncorrectable : Bool) : Io :=
  let io := io.count64 (bLink l) Off.reelLink_FEC_CORR_LO corrected
  let io := if uncorrectable then io.count (bLink l) Off.reelLink_FEC_UNCORR 1 else io
  if flitBad flit uncorrectable then io.count (bLink l) Off.reelLink_CRC_ERR 1 else io

/-- What a good flit says of this device's own: its ACK, and the credits that it returns (R443, R444). -/
def flitTells (s : State) (l : Nat) (flit : List Byte) : State :=
  let s := linkAck s l (fieldAt flit 2 2 % 4096)
  let cr := fieldAt flit 4 2
  let x := s.link l
  if cr / 16384 < 3 then s.setLink l { x with cred := setAt x.cred (cr / 16384) (x.cred.getD (cr / 16384) 0 + cr % 16384) } else s

/-- A sequenced flit in order: its payload is taken and it is acknowledged (R444). -/
def flitTake (s : State) (l : Nat) (flit : List Byte) : State :=
  let s := s.setLink l { s.link l with rxSeq := (flitSeq flit + 1) % 4096, nakSent := false }
  let s := if flitKind flit = 1 then dataIn s l (fieldAt flit 6 1 % 4) ((flit.drop 10).take 242) else s
  sendFlit s l 0 0 0 []

/-- A flit is discarded: the first of a run is answered with a NAK (R444). -/
def flitDrop (s : State) (l : Nat) : State :=
  if (s.link l).nakSent then s else sendFlit (s.setLink l { s.link l with nakSent := true }) l 0 3 0 []

/-- A flit on an UP link (R444). -/
def flitUp (s : State) (l : Nat) (flit : List Byte) (bad : Bool) : State :=
  if bad then flitDrop s l
  else
    let s := flitTells s l flit
    if flitKind flit = 0 then s
    else if flitKind flit = 3 then replay s l
    else if flitSeq flit = (s.link l).rxSeq then flitTake s l flit
    else flitDrop s l

/-- FLIT_RECEIVE: a flit with the number of codewords corrected, or an uncorrectable one (R444). -/
def execFlitReceive (l : Nat) (flit : List Byte) (corrected : Nat) (uncorrectable : Bool) (s : State) :
    Host.Outcome State Fault Refusal :=
  if 12 ≤ l then .next s
  else
    let bad := flitBad flit uncorrectable
    let s := s.mapIo (fun io => flitCount io l flit corrected uncorrectable)
    match (s.link l).st with
    | 3 => .next (if !bad ∧ flitKind flit = 2 then helloIn s l ((flit.drop 10).take 242) else s)
    | 4 => .next (pumpLink (flitUp s l flit bad) l)
    | _ => .next s

/-- REPLAY_TIMEOUT: ACK has not advanced for 2 µs while flits are outstanding (R444). -/
def execReplayTimeout (l : Nat) (s : State) : Host.Outcome State Fault Refusal :=
  .next (if (s.link l).st = 4 then replay s l else s)

/-- LINK_TRAINING: an enabled link with signal leaves DOWN and, its training done, reaches HELLO (R445). -/
def execLinkTraining (l : Nat) (hello : Bool) (s : State) : Host.Outcome State Fault Refusal :=
  let x := s.link l
  if 12 ≤ l ∨ !s.io.enabled (bLink l) then .next s
  else if x.st = 1 ∧ !x.waitRetry then .next (s.setLink l { x with st := if hello then 3 else 2, signal := true })
  else if x.st = 2 ∧ hello then .next (s.setLink l { x with st := 3 })
  else .next s

/-- TRAINING_TIMEOUT: no HELLO within 50 ms: DOWN with cause TRAINING (R445). -/
def execTrainingTimeout (l : Nat) (s : State) : Host.Outcome State Fault Refusal :=
  if (s.link l).st ≠ 2 then .next s
  else
    let s := linkFail s l 5
    .next (s.setLink l { s.link l with waitRetry := true })

/-- RETRAIN_RETRY: one second after a training failure the link trains again (R445). -/
def execRetrainRetry (l : Nat) (s : State) : Host.Outcome State Fault Refusal :=
  let x := s.link l
  if x.waitRetry then .next (s.setLink l { x with waitRetry := false, st := if s.io.enabled (bLink l) ∧ x.signal then 2 else x.st })
  else .next s

/-- HELLO_TRANSMIT: every 1 µs a link in HELLO sends its hello in an unsequenced CTRL flit (R445). -/
def execHelloTransmit (l : Nat) (s : State) : Host.Outcome State Fault Refusal :=
  if (s.link l).st = 3 then .next (s.mapIo (fun io => io.send ⟨"FLIT", l, 0, flitBytes 0 2 0 0 3 0 (helloBytes s l)⟩)) else .next s

/-- LINK_SILENT: an UP link without a valid flit for 1 µs fails (R455). -/
def execLinkSilent (l : Nat) (s : State) : Host.Outcome State Fault Refusal :=
  .next (if (s.link l).st = 4 then linkFail s l 6 else s)

/-- LINK_SIGNAL_LOSS: a link loses signal: an UP link fails, one in training returns to DOWN (R455, R445). -/
def execLinkSignalLoss (l : Nat) (s : State) : Host.Outcome State Fault Refusal :=
  let x := s.link l
  if 12 ≤ l then .next s
  else
    let s := if x.st = 2 ∨ x.st = 3 ∨ x.st = 4 then linkFail s l 4 else s
    .next (s.setLink l { s.link l with signal := false })

/-- A management packet that flits brought is taken by its step. -/
def takeMgmt (s : State) (l type : Nat) : State :=
  match s.fab.arrived.find? (fun e => e.1 == l && e.2.type == type) with
  | some e => { s with fab := { s.fab with arrived := s.fab.arrived.erase e } }
  | none => s

/-- LINK_STATE: a device's state updates the database and is flooded on, and the election is repeated (R447). -/
def execLinkState (l uid flags addr req : Nat) (links : List (Nat × Nat)) (s : State) : Host.Outcome State Fault Refusal :=
  let s := takeMgmt s l 0x10
  let e : DbEntry := ⟨flags % 4, addr, links⟩
  if uid = ownUid s ∨ smFind uid s.fab.db = some e then .next s
  else
    let s := { s with fab := { s.fab with db := smInsert uid e s.fab.db } }
    let body := links.flatMap (fun k => leBytes 8 k.1 ++ leBytes 8 k.2)
    let s := flood s 0x10 0 (leBytes 8 uid ++ leBytes 2 flags ++ leBytes 2 addr ++ leBytes 4 req ++ body) (some l)
    .next (fabUpdate s [(uid, req)])

/-- ADDR_ASSIGN: this device takes its address, or passes the assignment on (R448). -/
def execAddrAssign (l uid addr : Nat) (s : State) : Host.Outcome State Fault Refusal :=
  let s := takeMgmt s l 0x11
  if uid = ownUid s then .next (fabUpdate (setOwnAddr s (addr % 4096)))
  else match smFind uid s.fab.db with
    | some d =>
      if d.addr = addr then .next s
      else
        let s := { s with fab := { s.fab with db := smInsert uid { d with addr := addr } s.fab.db } }
        .next (fabUpdate (flood s 0x11 0 (leBytes 8 uid ++ leBytes 2 addr) (some l)))
    | none => .next s

/-- ADDR_HOLD_EXPIRY: the root drops the entry of a device unreachable for HOLD seconds (R448). -/
def execAddrHoldExpiry (uid : Nat) (s : State) : Host.Outcome State Fault Refusal :=
  match smFind uid s.fab.addrs with
  | some e =>
    if e.gone ∧ e.seen + s.io.bf bReel Off.reel_HOLD 15 0 * 100000000 ≤ s.io.tb then
      .next (fabUpdate { s with fab := { s.fab with addrs := smErase uid s.fab.addrs } })
    else .next s
  | none => .next s

/-- ROUTE_ENT_WRITE: an entry of the routing table in MANUAL mode, or ROUTE_AUTO (R450). -/
def execRouteEntWrite (who : Requester) (value : W32) (s : State) : Host.Outcome State Fault Refusal :=
  let off := bReel.base + Off.reel_ROUTE_ENT
  match writeAllowed s.io who bReel off with
  | some io => .next { s with io := io }
  | none =>
    if s.io.bf bReel Off.reel_ROUTE_CTRL 0 0 = 0 then .next (s.mapIo (fun io => io.capture bReel Code.ROUTE_AUTO off))
    else
      let v := value.toNat
      let n := min 4 (bitsOf v 30 28)
      let i := s.io.bf bReel Off.reel_ROUTE_SEL 11 0
      let e : RouteEnt := { links := (List.range n).map (fun k => bitsOf v (4 * k + 3) (4 * k)), hops := hopsOf s i }
      let s := { s with fab := { s.fab with routes := smInsert i e s.fab.routes } }
      .next (resend s (fun o => o.link.isNone))

/-- FT and the time base are captured in the same cycle (R457). -/
def ftSnap (s : State) : State :=
  s.mapIo (fun io => (io.setReg64 (bReel.base + Off.reel_SNAP_FT_LO) (s.fab.ft / 2 ^ 32)).setReg64 (bReel.base + Off.reel_SNAP_TB_LO) io.tb)

/-- FT_SNAP: a write of 1 to FT_SNAP.SNAP (R457). -/
def execFtSnap (who : Requester) (s : State) : Host.Outcome State Fault Refusal :=
  match writeAllowed s.io who bReel (bReel.base + Off.reel_FT_SNAP) with
  | some io => .next { s with io := io }
  | none => .next (ftSnap s)

/-- TIME_EXCHANGE: each millisecond a link carries a TIME packet with this device's time (R457). -/
def execTimeExchange (l : Nat) (s : State) : Host.Outcome State Fault Refusal :=
  if (s.link l).st = 4 then
    .next (sendOn s l ⟨0xFFFF, (ownAddr s).getD 0xFFFF, 0x12, 2, 0xFF000000, 0, 0, 0, leBytes 16 s.fab.ft⟩)
  else .next s

/-- The parent link for fabric time: the lowest UP link on a minimum-hop path to the root (R457). -/
def timeParent (s : State) : Option Nat :=
  let d := ((distFrom s (ownUid s)).find? (fun e => e.1 == s.fab.rootUid)).map Prod.snd
  if s.fab.rootUid = 0 ∨ s.fab.rootUid = ownUid s then none
  else (upLinks s).find? (fun l => (distFrom s (peerUid s l)).any (fun e => e.1 == s.fab.rootUid && some (e.2 + 1) == d))

/-- TIME: an exchange's stamps t1 to t4 in ns and the parent's time (R457): the link delay, the offset, the first
lock, and then only slewing. -/
def execTimePacket (l t1 t2 t3 t4 parentFt : Nat) (s : State) : Host.Outcome State Fault Refusal :=
  if 12 ≤ l then .next s else
  let s := takeMgmt s l 0x12
  let i : Nat → Int := fun n => n
  let delay := ((i t4 - i t1) - (i t3 - i t2)) / 2
  let s := s.mapIo (fun io => io.setReg ((bLink l).base + Off.reelLink_DELAY) (delay.toNat % 65536))
  if timeParent s ≠ some l then .next s
  else
    let off := ((i t2 - i t1) + (i t3 - i t4)) / 2
    let s := s.mapIo (fun io => io.setReg (bReel.base + Off.reel_FT_OFFSET) (unsignedOf 32 off))
    let wasLocked := decide (10 ≤ s.fab.good)
    let good := if off.natAbs < 20 then s.fab.good + 1 else 0
    let s := if s.fab.timed then { s with fab := { s.fab with slew := off * (2 ^ 32 : Nat) / 10, good := good } }
      else { s with fab := { s.fab with ft := parentFt + delay.toNat * 2 ^ 32 / 10, timed := true, slew := 0, good := good } }
    .next (if wasLocked = decide (10 ≤ good) then s else s.mapIo (fun io => io.rise bReel 6))

/-- Fabric time advances by one tick, slewed by at most 200 ppm (R457); at the root it is the time base. -/
def ftTick (s : State) : State :=
  if s.fab.rootUid ≠ 0 ∧ s.fab.rootUid = ownUid s then { s with fab := { s.fab with ft := s.io.tb * 2 ^ 32, timed := true, slew := 0 } }
  else
    let c : Int := if s.fab.slew < -858993 then -858993 else if 858993 < s.fab.slew then 858993 else s.fab.slew
    { s with fab := { s.fab with ft := ((s.fab.ft : Int) + (2 ^ 32 : Nat) + c).toNat, slew := s.fab.slew - c } }

/-- What the end-to-end check makes of a REQ packet (R454). -/
inductive E2e where
  | accept | duplicate | gap
  deriving DecidableEq, Repr

/-- The end-to-end check: the next expected ESEQ of the pair, a lower one, or a gap; an untracked pair starts at the
packet that comes. -/
def e2eCheck (s : State) (p : Pkt) : E2e :=
  match smFind (pairKey p.src p.flow) s.fab.rxSeq with
  | none => .accept
  | some n => if n = p.eseq then .accept else if (n + 2 ^ 32 - p.eseq) % 2 ^ 32 < 2 ^ 31 then .duplicate else .gap

/-- Take a REQ packet off its link: accepted ones advance the pair; others are acknowledged again and discarded
(R454).  None when the packet is not for a step. -/
def e2eAccept (s : State) (p : Pkt) : State × Bool :=
  let s := match s.fab.arrived.find? (fun e => e.2 == p) with
    | some e => { s with fab := { s.fab with arrived := s.fab.arrived.erase e } }
    | none => s
  let k := pairKey p.src p.flow
  let n := smGet 0 k s.fab.rxSeq
  match e2eCheck s p with
  | .accept =>
    if (smFind k s.fab.rxSeq).isNone ∧ 65536 ≤ s.fab.rxSeq.length then (s, false)
    else ({ s with fab := { s.fab with rxSeq := smInsert k ((p.eseq + 1) % 2 ^ 32) s.fab.rxSeq } }.mapIo
      (fun io => io.count64 bReel Off.reel_PKTS_RX_LO 1), true)
  | .duplicate => (ackPair (s.mapIo (fun io => io.count bReel Off.reel_DUP_RX 1)) p.src p.flow ((n + 2 ^ 32 - 1) % 2 ^ 32) 0, false)
  | .gap => (ackPair s p.src p.flow ((n + 2 ^ 32 - 1) % 2 ^ 32) 0, false)

/-- Acknowledge an accepted packet, with its refusal code when it is refused (R454). -/
def e2eReply (s : State) (p : Pkt) (status : Nat) : State :=
  let s := if status = 0 then s else s.mapIo (fun io => io.count bReel Off.reel_DENIED 1)
  ackPair s p.src p.flow p.eseq status

/-- E2E_TIMEOUT: the pair's unacknowledged packets are resent in order (R454). -/
def execE2eTimeout (dst flow : Nat) (s : State) : Host.Outcome State Fault Refusal :=
  .next (resend s (fun o => decide (o.p.dst = dst) && decide (o.p.flow = flow) && o.link.isSome))

/-- PAIR_FORGET: a destination forgets a pair quiet for 100 ms (R454). -/
def execPairForget (src flow : Nat) (s : State) : Host.Outcome State Fault Refusal :=
  .next { s with fab := { s.fab with rxSeq := smErase (pairKey src flow) s.fab.rxSeq } }

end Sys2Proof.Machine
end

