-- ==== Sys2Proof/Machine/Emit.lean ====
section
/-! DEFINITION. Ingress rings and credits (R434 to R436, R465), sending on sessions (R432, R438), messages to
inboxes (R465 to R467) and the hand-over of EMIT records (R353, R438). -/

namespace Sys2Proof.Machine

/-- Where a message of a reservation size is placed at or after position `pos` of a ring of `size` bytes: it never
wraps (R434). -/
def placeAt (size max pos : Nat) : Nat := if size - pos % size < max then (pos / size + 1) * size else pos

/-- Bytes that a message of `n` bytes occupies: whole 64-byte lines. -/
def lines64 (n : Nat) : Nat := cdiv n 64 * 64

/-- Length and base of a context's ingress ring: its IN_REGION (R422). -/
def inRegion (s : State) (cn : Nat) : Option (Nat × Nat) :=
  match s.ring? (cn + 1) with
  | none => none
  | some r =>
    if r.inRegion = 0 then none
    else
      let i := r.inRegion % 65536
      match smFind i s.adm.regions with
      | some g => if g.used ∧ g.gen = r.inRegion / 65536 then some (g.len, g.base) else none
      | none => none

/-- A context's ingress ring state. -/
def ingress (s : State) (cn : Nat) : Ingress := smGet {} cn s.host.ing

/-- Store a context's ingress ring state. -/
def setIngress (s : State) (cn : Nat) (g : Ingress) : State := { s with host := { s.host with ing := smPut {} cn g s.host.ing } }

/-- The oldest occupied byte: the start of the oldest record not passed, or the tail (R436). -/
def Ingress.head (g : Ingress) : Nat := match g.recs with
  | r :: _ => r.off
  | [] => g.tail

/-- Where a further reservation of `max` bytes would end (R435). -/
def Ingress.resvEnd (g : Ingress) (size max : Nat) : Nat :=
  let step : Nat → Nat → Nat := fun pos m => placeAt size m pos + lines64 m
  step (g.resv.foldl (fun p e => step p e.2) g.tail) max

/-- Credits that a source has outstanding. -/
def Ingress.creditsOf (g : Ingress) (src : Nat) : Nat := (g.resv.filter (fun e => e.1 == src)).length

/-- A source of an ingress ring: a session, or an inbox and a sender's address. -/
def inboxSrc (inbox addr : Nat) : Nat := 2 ^ 20 + inbox * 4096 + addr

/-- The sources that may be offered credits on a context's ring, with MAX_MSG, ascending (R435, R465). -/
def creditSources (s : State) (cn : Nat) : List (Nat × Nat) :=
  (s.host.sess.filter (fun e => decide (e.2.st = 1) && decide (e.2.cn = cn) && e.2.fwd.isNone)).map (fun e => (e.1, e.2.maxMsg))
    ++ (s.fab.inboxes.filter (fun e => e.2.cn == cn)).flatMap (fun e =>
      let from_ := if e.2.group = 0 then s.fab.db.map (fun d => d.2.addr) else (smGet ⟨0, []⟩ e.2.group s.fab.groups).members
      (sortNat (from_.filter (fun a => decide (a < 4096) && some a ≠ ownAddr s))).map (fun a => (inboxSrc e.1 a, e.2.maxMsg)))

/-- CREDIT_MAX. -/
def creditMax (s : State) : Nat := s.io.bf bSession Off.session_CREDIT_MAX 2 0

/-- Whether an arrival token of a source is held at a Caller (R435). -/
def arrivalHeld (s : State) (src : Nat) : Bool :=
  let of_ : Token → Bool := fun k => match k.arr with
    | some (_, a, _) => a == src
    | none => false
  s.call.any (fun e => e.2.held.any of_) || s.host.arrivals.any of_

/-- Tell a source of a new credit: the AETH credit of a session, or an INBOX_CREDIT packet (R435, R465). -/
def tellCredit (s : State) (src max : Nat) : State :=
  if src < 2 ^ 20 then s.mapIo (fun io => io.send ⟨"ROCE_CREDIT", src, 1, []⟩)
  else
    let inbox := (src - 2 ^ 20) / 4096
    let addr := (src - 2 ^ 20) % 4096
    respond s addr 8 (0x03000000 + inbox) 0 (1 + max * 2 ^ 32) []

/-- CREDIT_GRANT: credits are offered round-robin while reservations fit (R435). -/
def grantCredits (s : State) (cn : Nat) : Nat → State
  | 0 => s
  | fuel + 1 =>
    match inRegion s cn, s.ctx? cn with
    | some (size, _), some c =>
      if c.st = .waking ∨ s.rst.power ≠ .d0 then s
      else
        let g := ingress s cn
        let srcs := creditSources s cn
        let order := srcs.filter (fun e => decide (g.last < e.1)) ++ srcs.filter (fun e => decide (e.1 ≤ g.last))
        let fit := order.find? (fun e => decide (g.creditsOf e.1 < creditMax s) && !arrivalHeld s e.1 &&
          decide (g.resvEnd size e.2 ≤ g.head + size))
        match fit with
        | none => s
        | some (src, max) =>
          grantCredits (tellCredit (setIngress s cn { g with resv := g.resv ++ [(src, max)], last := src }) src max) cn fuel
    | _, _ => s

/-- Credits of a context as far as they go. -/
def creditsFor (s : State) (cn : Nat) : State := grantCredits s cn (8 * ((creditSources s cn).length + 1))

/-- Drop one element that a predicate selects. -/
def dropFirst {α : Type} (p : α → Bool) : List α → List α
  | [] => []
  | x :: xs => if p x then xs else x :: dropFirst p xs

/-- A message that arrives on a credit is written to the ingress ring: its offset in the ring, and the state with
the credit used and the tail advanced (R434, R435). -/
def placeMessage (s : State) (cn src msg max : Nat) (data : List Byte) (poison : Bool) : Nat × State :=
  match inRegion s cn with
  | none => (0, s)
  | some (size, base) =>
    let g := ingress s cn
    let at_ := placeAt size max g.tail
    let g : Ingress := { g with tail := at_ + lines64 data.length, recs := g.recs ++ [⟨src, at_, data.length, false, msg⟩],
                                resv := dropFirst (fun e => e.1 == src) g.resv }
    (at_ % size, (setIngress s cn g).dwrite (base + at_ % size) data poison)

/-- Records whose positions have been released are passed in order (R436). -/
def passRecords (s : State) (cn : Nat) (done : List (Nat × Nat × Nat)) : State :=
  let g := ingress s cn
  let recs := g.recs.map (fun r => if done.contains (cn, r.src, r.msg) then { r with done := true } else r)
  let s := setIngress s cn { g with recs := recs.dropWhile (fun r => r.done) }
  if done = [] then s else creditsFor s cn

/-- The job class of a token's source: its release time under the class's bucket (R390). -/
def releaseAt (s : State) (cn svc cls : Nat) : Nat × State :=
  match s.ctx? cn, (s.service? svc).bind (fun v => (v.jobs.zipIdx.find? (fun e => e.1.id == cls))) with
  | some c, some (j, i) =>
    let a := s.io.tb
    let (tok, last) := c.buckets.getD i (j.burst, a)
    let k := if j.period = 0 then 0 else (a - last) / j.period
    let tok := min j.burst (tok + k)
    let last := last + k * j.period
    let (r, b) := if 1 ≤ tok then (a, (tok - 1, last)) else (last + j.period, (tok, last + j.period))
    let s := if 1 ≤ tok then s else s.mapIo (fun io => io.count64 bAdmit Off.admit_OVER_ENVELOPE_LO 1)
    let base := if c.buckets.length ≤ i then c.buckets ++ List.replicate (i + 1 - c.buckets.length) (j.burst, a) else c.buckets
    (r, s.setCtx { c with buckets := setAt base i b })
  | _, _ => (s.io.tb, s)

/-- A session's bytes per packet. -/
def Sess.mtuBytes (x : Sess) : Nat := if x.mtu = 3 then 1024 else if x.mtu = 4 then 2048 else 4096

/-- Store a session. -/
def setSess (s : State) (n : Nat) (x : Sess) : State := { s with host := { s.host with sess := smInsert n x s.host.sess } }

/-- A session enters ERROR with its cause (R437). -/
def sessError (s : State) (n code : Nat) : State :=
  match smFind n s.host.sess with
  | none => s
  | some x =>
    if x.st = 2 then s
    else
      let s := setSess s n { x with st := 2, unacked := [] }
      let s := setIngress s x.cn { ingress s x.cn with resv := (ingress s x.cn).resv.filter (fun e => e.1 ≠ n) }
      s.mapIo (fun io => io.riseNamed bSession 2 Cls.LINK Code.SESSION_ERROR ((s.ctx? x.cn).bind (fun c => c.slot)) 0 (n * 65536 + code))

/-- One SEND message goes out on a session (R432, R438): packets by MTU, kept until acknowledged. -/
def sessSend (s : State) (n : Nat) (x : Sess) (data : List Byte) : State :=
  let pk := max 1 (cdiv data.length x.mtuBytes)
  let s := setSess s n { x with psnTx := (x.psnTx + pk) % 2 ^ 24, unacked := x.unacked ++ [((x.psnTx + pk - 1) % 2 ^ 24, data)] }
  s.mapIo (fun io => io.send ⟨"ROCE_SEND", n, x.psnTx, data⟩)

/-- The first packets of messages to an inbox go out while a credit is held (R465, R467): 4,096 bytes each, with the
message's length and offset. -/
def pumpMsgs (s : State) : Nat → State
  | 0 => s
  | fuel + 1 =>
    let key : OutMsg → Nat := fun m => m.dst * 65536 + m.inbox
    match s.fab.msgs.find? (fun m => !m.started && decide (0 < smGet 0 (key m) s.fab.credits) &&
        (s.fab.msgs.find? (fun q => !q.started && key q == key m)) == some m) with
    | none => s
    | some m =>
      if !maySend s then s
      else
        let go : OutMsg → OutMsg := fun q => if q.serial = m.serial then { q with started := true } else q
        let s := { s with fab := { s.fab with msgs := s.fab.msgs.map go, credits := smMod 0 (key m) (fun c => c - 1) s.fab.credits } }
        let n := max 1 (cdiv m.data.length 4096)
        let s := (List.range n).foldl (fun s i =>
          let bs := (m.data.drop (4096 * i)).take 4096
          let poison := ((m.poison.drop (64 * i)).take 64).zipIdx.foldl (fun a e => if e.1 then a + 2 ^ e.2 else a) 0
          transmit s m.dst 7 (0x03000000 + m.inbox) poison (m.data.length * 2 ^ 32 + 4096 * i) bs (.msg m.serial (decide (i + 1 = n)))) s
        pumpMsgs s fuel

/-- Queue a message to an inbox. -/
def queueMsg (s : State) (dst inbox : Nat) (data : List Byte) (poison : List Bool) (why : MsgFor) : State :=
  let m : OutMsg := { serial := s.fab.nextMsg, dst := dst, inbox := inbox, data := data, poison := poison, why := why }
  let s := { s with fab := { s.fab with msgs := s.fab.msgs ++ [m], nextMsg := s.fab.nextMsg + 1 } }
  pumpMsgs s (s.fab.msgs.length + 1)

/-- A fused instance, and its chain. -/
def instOf (s : State) (i : Nat) : Option FusedInst := s.adm.insts.find? (fun x => x.id == i)
def chainOf (s : State) (x : FusedInst) : Option Chain := (s.service? x.svc).bind (fun v => v.chains.find? (fun c => c.id == x.chain))

/-- Store a fused instance. -/
def setInst (s : State) (x : FusedInst) : State :=
  { s with adm := { s.adm with insts := s.adm.insts.map (fun y => if y.id = x.id then x else y) } }

/-- SRAM offset of entry `idx` of the buffer after stage `st`. -/
def entryOff (c : Chain) (st idx : Nat) : Nat := c.bufs.getD st 0 + idx * ((c.stages.getD st ⟨0, 0, 0, 0, 0, 0⟩).bytes)

/-- A stage of an instance has failed: the first failure stands (R356). -/
def stageFail (s : State) (i st code : Nat) : State :=
  match instOf s i with
  | some x => if x.failed.isSome then s else setInst s { x with failed := some (st * 2 ^ 24 + code) }
  | none => s

/-- An entry is freed: its consumer has finished with it (R353). -/
def freeEntry (s : State) (i st idx : Nat) : State :=
  match instOf s i with
  | some x => setInst s { x with bufs := x.bufs.zipIdx.map (fun e => if e.2 = st then e.1.filter (fun b => b.idx ≠ idx) else e.1) }
  | none => s

/-- What the EMIT engine does with a record. -/
inductive Sent where
  | sent
  | held
  | refused (code : Nat)
  deriving DecidableEq, Repr

/-- EMIT_RECORD_SEND: an entry is handed to its engine, held, or refused (R438, R467). -/
def sendEmit (s : State) (i st idx : Nat) : State × Sent :=
  match instOf s i with
  | none => (s, .sent)
  | some x =>
    match chainOf s x, (x.bufs.getD (st - 1) []).find? (fun b => b.idx == idx), x.anchor with
    | some c, some b, some core =>
      let stg := c.stages.getD st ⟨0, 0, 0, 0, 0, 0⟩
      let off := entryOff c (st - 1) idx
      let bs := (s.core core).bytes off b.len
      let bad := (s.core core).anyPoison off b.len
      if stg.dest = 0 then
        match smFind stg.target s.host.sess with
        | none => (s, .refused Code.SESS_DOWN)
        | some q =>
          if q.st ≠ 1 then (s, .refused Code.SESS_DOWN)
          else if q.maxMsg < b.len then (s, .refused Code.MSG_SIZE)
          else if bad then (s, .refused Code.POISONED)
          else if q.rnrHeld then (s, .held)
          else (freeEntry (sessSend s stg.target q bs) i (st - 1) idx, .sent)
      else if stg.dest = 1 then
        let dst := stg.target / 65536
        let inbox := stg.target % 65536
        match fabCheck s with
        | some code => (s, .refused (if code = Code.FEATURE_OFF then Code.FAB_NOT_READY else code))
        | none =>
          if !reachable s dst then (s, .refused Code.UNREACHABLE)
          else
            let key := dst * 65536 + inbox
            if (smFind key s.fab.maxMsgs).any (fun m => decide (m < b.len)) then (s, .refused Code.MSG_SIZE)
            else if smGet 0 key s.fab.credits = 0 ∨ s.fab.msgs.any (fun m => !m.started && m.dst == dst && m.inbox == inbox) then (s, .held)
            else
              let poison := (linesOf off b.len).map (fun l => smGet false l (s.core core).sramPoison)
              (freeEntry (queueMsg s dst inbox bs poison (.emit i st idx)) i (st - 1) idx, .sent)
      else if b.len ≠ 64 then (s, .refused Code.MSG_SIZE)
      else (freeEntry (postRecord s (x.ctx + 1) bs false) i (st - 1) idx, .sent)
    | _, _, _ => (s, .sent)

end Sys2Proof.Machine
end

