-- ==== Sys2Proof/Machine/Fused.lean ====
section
/-! DEFINITION. Fused instances: stage buffers, hand-over and the queues of the table units (R352 to R356, R254,
R278), and results of unit requests. -/

namespace Sys2Proof.Machine

/-- A stage of a chain. -/
def Chain.stage (c : Chain) (st : Nat) : Stage := c.stages.getD st ⟨0, 0, 0, 0, 0, 0⟩

/-- The next free entry of the buffer after stage `st`: the areas are shared by the chain's instances on one anchor
(R353). -/
def entryFree (s : State) (x : FusedInst) (c : Chain) (st : Nat) : Option Nat :=
  let used := (s.adm.insts.filter (fun y => y.svc == x.svc && y.chain == x.chain && y.anchor == x.anchor)).flatMap
    (fun y => (y.bufs.getD st []).map (fun b => b.idx))
  (List.range (c.stage st).entries).find? (fun i => !used.contains i)

/-- Queue of a unit: twelve EGPs, twelve Winnowers. -/
def unitQueue (s : State) (egp : Bool) (u : Nat) : List UReq := smGet [] u (if egp then s.queue.egp else s.queue.win)

/-- Whether a unit takes new requests: enabled, in service, and with a place in its queue (Table 2.6, R254, R534). -/
def unitTakes (s : State) (egp : Bool) (u : Nat) : Bool :=
  let b := if egp then bEgp u else bWinnower u
  s.io.enabled b && s.io.ready b && !s.io.isOffline b && decide ((unitQueue s egp u).length < 64)

/-- Store a unit's queue. -/
def setQueue (s : State) (egp : Bool) (u : Nat) (q : List UReq) : State :=
  if egp then { s with queue := { s.queue with egp := smPut [] u q s.queue.egp } }
  else { s with queue := { s.queue with win := smPut [] u q s.queue.win } }

/-- A request block enters a unit's queue (R254, R278). -/
def pushReq (s : State) (egp : Bool) (u : Nat) (r : UReq) : State :=
  let n := s.queue.nextReq
  let s := setQueue s egp u (unitQueue s egp u ++ [{ r with serial := n }])
  { s with queue := { s.queue with nextReq := n + 1 } }

/-- The first entry of a buffer that its consumer has not taken. -/
def nextEntry (x : FusedInst) (st : Nat) : Option BufEntry := (x.bufs.getD st []).find? (fun b => !b.taken)

/-- Mark an entry taken. -/
def takeEntry (s : State) (i st idx : Nat) : State :=
  match instOf s i with
  | some x => setInst s { x with bufs := x.bufs.zipIdx.map (fun e =>
      if e.2 = st then e.1.map (fun b => if b.idx = idx then { b with taken := true } else b) else e.1) }
  | none => s

/-- The next stage takes what waits in the buffer after stage `st`: units while their queues have room, core and
TAIL stages as tokens, EMIT on release or, without a flow, at once (R353, Table 13.5). -/
def feedStage (s : State) (i st : Nat) : Nat → State
  | 0 => s
  | fuel + 1 =>
    match instOf s i with
    | none => s
    | some x =>
      match chainOf s x, nextEntry x st, x.anchor with
      | some c, some b, some core =>
        let g := c.stage (st + 1)
        let off := entryOff c st b.idx
        if g.kind = 2 ∨ g.kind = 3 then
          let u := clusterOfCore core
          if !unitTakes s (g.kind == 2) u then s
          else
            let r : UReq := { serial := 0, blk := (s.core core).bytes off 64, cn := x.ctx, svc := x.svc, stage := some (i, st, b.idx),
                              core := some core, binding := x.binding, rel := x.rel, cls := x.cls }
            feedStage (pushReq (takeEntry s i st b.idx) (g.kind == 2) u r) i st fuel
        else if g.kind = 1 ∨ g.kind = 5 then
          let k : Token := { die := g.tmpl / 32768, tmpl := g.tmpl % 16384, port := if g.kind = 1 then 0 else g.target, key := x.key,
                             val := b.len % 2 ^ 32 * 2 ^ 32 + off, ctx := x.ctx, svc := x.svc, binding := x.binding, rel := x.rel,
                             src := .stage, cls := x.cls, inst := if g.kind = 1 then some (i, st + 1, b.idx) else none }
          let s := deliver (takeEntry s i st b.idx) k
          feedStage (if g.kind = 5 then freeEntry s i st b.idx else s) i st fuel
        else if g.kind = 4 then
          let s := takeEntry s i st b.idx
          match x.flow with
          | some f =>
            let s := s.mapCaller x.die (fun cl =>
              let fl := smGet {} f cl.flows
              { cl with flows := smPut {} f { fl with window := fl.window.map (fun w =>
                  if w.pos = x.pos then { w with emits := w.emits ++ [(i, st + 1, b.idx)] } else w) } cl.flows })
            feedStage s i st fuel
          | none =>
            match sendEmit s i (st + 1) b.idx with
            | (s, .refused code) => stageFail s i (st + 1) code
            | (s, .sent) => feedStage s i st fuel
            | (s, .held) =>
              setInst s { x with bufs := x.bufs }
        else s
      | _, _, _ => s

/-- Feed every buffer of an instance. -/
def feedInst (s : State) (i : Nat) : State := (List.range 5).foldl (fun s st => feedStage s i st 65) s

/-- Feed every instance (a unit's queue or a credit has freed). -/
def feedAll (s : State) : State := s.adm.insts.foldl (fun s x => if x.failed.isSome then s else feedInst s x.id) s

/-- A stage hands an entry over: copied into the next free entry and given to the next stage; none while no entry is
free (R351, R353). -/
def putEntry (s : State) (i st : Nat) (bs : List Byte) (poison : Bool) : Option State :=
  match instOf s i with
  | none => some s
  | some x =>
    match chainOf s x, x.anchor with
    | some c, some core =>
      match entryFree s x c st with
      | none => none
      | some idx =>
        let b : BufEntry := { idx := idx, len := bs.length, poison := poison }
        let s := s.setCore core ((s.core core).unitWrite (entryOff c st idx) bs poison)
        let s := setInst s { x with bufs := x.bufs.zipIdx.map (fun e => if e.2 = st then e.1 ++ [b] else e.1) }
        some (feedStage s i st 65)
    | _, _ => some s

/-- Whether an instance has nothing left to do but its EMIT records' release (R354). -/
def instDone (s : State) (x : FusedInst) : Bool :=
  match chainOf s x with
  | none => x.stage0Done
  | some c => x.stage0Done && x.bufs.zipIdx.all (fun e => e.1 == [] || ((c.stage (e.2 + 1)).kind == 4 && x.flow.isSome))

/-- A descriptor that a request block names, or a refusal (R101 to R103, R254). -/
def reqDesc (s : State) (cn id : Nat) (write : Bool) : Option Desc :=
  match useDescDir s cn id write with
  | .ok d => some d
  | .error _ => none

/-- Bytes of a U8 descriptor from linear element `first`, element by element. -/
def descBytes (s : State) (core : Nat) (d : Desc) (first n : Nat) : List Byte :=
  (List.range n).map (fun i => BitVec.ofNat 8 (elemCode s core d (d.coords (first + i))))

/-- Write bytes through a U8 descriptor from linear element `first`. -/
def putDescBytes (s : State) (core : Nat) (d : Desc) (first : Nat) (bs : List Byte) (p : Bool) : State :=
  bs.zipIdx.foldl (fun s e => putElem s core d (d.coords (first + e.2)) e.1.toNat p) s

/-- Why an access of elements through a descriptor fails now, if it does: the first code, element by element. -/
def descFault (s : State) (d : Desc) (first n : Nat) (write : Bool) : Option Nat :=
  (List.range n).findSome? (fun i => (tFault s d.tier (d.addrOf (d.coords (first + i))) (max 1 (d.bits / 8)) write).map Prod.fst)

/-- A fault that waits, or one that fails (Table 5.6). -/
def faultWaits (c : Nat) : Bool := c == Code.MIGRATING || c == Code.HOST_NOT_PRESENT || c == heldMark

/-- Whether a block's code says that its checks refused it; the others of Tables 9.4 and 10.3 are of its run (DEDUCED,
log entry 78). -/
def blockRefused (code : Nat) : Bool :=
  !(code == Code.OK || code == Code.INPUT_FAILED || code == Code.MERGE_ABORTED || code == Code.BLOCK_RESET)

/-- The counters of a unit's run: a block has ended (Table 13.12). -/
def runBlock (s : State) (r : UReq) (code : Nat) : State :=
  match r.run with
  | none => s
  | some id =>
    let f : UnitRun → UnitRun := fun u =>
      if u.id = id then
        { u with done := u.done + b2n (!blockRefused code), refused := u.refused + b2n (blockRefused code),
                 firstBad := if code ≠ Code.OK ∧ u.firstBad.all (fun b => decide (r.idx < b)) then some r.idx else u.firstBad }
      else u
    { s with queue := { s.queue with runs := s.queue.runs.map f } }

/-- A run whose blocks have all ended completes its command (R254, R363). -/
def runEnd (s : State) (id : Nat) : State :=
  match s.queue.runs.find? (fun u => u.id == id) with
  | none => s
  | some u =>
    if u.done + u.refused < u.next ∨ (u.next < u.count ∧ u.status = 0) then s
    else
      let s := { s with queue := { s.queue with runs := s.queue.runs.filter (fun v => v.id ≠ id) } }
      let s := dropRef s u.cn u.desc
      finish s u.cmd u.status (leBytes 4 u.done ++ leBytes 4 u.refused ++ leBytes 4 (u.firstBad.getD 0xFFFFFFFF))

/-- Blocks of runs enter their unit's queue as places free (R254, R275). -/
def fillRun (s : State) (id : Nat) : Nat → State
  | 0 => s
  | fuel + 1 =>
    match s.queue.runs.find? (fun u => u.id == id) with
    | none => s
    | some u =>
      if u.count ≤ u.next ∨ u.status ≠ 0 ∨ !unitTakes s u.egp u.unit then s
      else
        let set : (UnitRun → UnitRun) → State → State := fun f s =>
          { s with queue := { s.queue with runs := s.queue.runs.map (fun v => if v.id = id then f v else v) } }
        let at_ := u.first + 64 * u.next
        match descFault s u.d at_ 64 false with
        | some c => if faultWaits c ∨ tHeld s u.d.tier u.d.base then s else set (fun v => { v with status := c }) s
        | none =>
          if tHeld s u.d.tier u.d.base then s
          else
            let r : UReq := { serial := 0, blk := descBytes s 0 u.d at_ 64, cn := u.cn, svc := (s.ctx? u.cn).map (fun x => x.svc) |>.getD 0,
                              run := some id, idx := u.next, rel := s.io.tb }
            fillRun (pushReq (set (fun v => { v with next := v.next + 1 }) s) u.egp u.unit r) id fuel

/-- Every run goes on as far as it can. -/
def pumpRuns (s : State) : State :=
  s.queue.runs.foldl (fun s u => runEnd (fillRun s u.id 65) u.id) s

/-- A request has ended with a code: it leaves its queue, its run counts it, its stage fails on a code other than OK,
its input entry is freed, and waiting work moves up (R257, R353, R356). -/
def endReq (s : State) (egp : Bool) (u : Nat) (r : UReq) (code : Nat) : State :=
  let s := setQueue s egp u ((unitQueue s egp u).filter (fun q => q.serial ≠ r.serial))
  let s := runBlock s r code
  let s := match r.stage with
    | some (i, st, idx) =>
      let s := freeEntry s i st idx
      if code = Code.OK then s else stageFail s i (st + 1) code
    | none => s
  pumpRuns (feedAll s)

end Sys2Proof.Machine
end

