-- ==== Sys2Proof/Machine/Egp.lean ====
section
/-! DEFINITION. The embedding gather-pool unit: tables, requests, pooling, heat and replicas, updates and step fences
(chapter 9, R464, R540). -/

namespace Sys2Proof.Machine

/-- A table record (Table 9.1). -/
structure Tab where
  bs : List Byte
  deriving DecidableEq, Repr

namespace Tab
def f (t : Tab) (o n : Nat) : Nat := fieldAt t.bs o n
def state (t : Tab) : Nat := t.f 1 1
def etype (t : Tab) : Nat := t.f 2 1
def tier (t : Tab) : Nat := t.f 3 1 % 16
def home (t : Tab) : Nat := t.f 3 1 / 16
def mode (t : Tab) : Nat := t.f 4 1
def det (t : Tab) : Bool := bitOf (t.f 5 1) 0
def remoteUpd (t : Tab) : Bool := bitOf (t.f 5 1) 1
def replEn (t : Tab) : Bool := bitOf (t.f 5 1) 2
def width (t : Tab) : Nat := t.f 6 2
def rows (t : Tab) : Nat := t.f 8 8 % 2 ^ 52
def base (t : Tab) : Nat := t.f 0x10 8 % 2 ^ 52
def pitch (t : Tab) : Nat := t.f 0x18 4
def quota (t : Tab) : Nat := t.f 0x1C 2
def peers (t : Tab) : Nat := t.f 0x1E 2
def scaleBase (t : Tab) : Nat := t.f 0x20 8 % 2 ^ 52
def replRows (t : Tab) : Nat := t.f 0x28 4
def updCap (t : Tab) : Nat := t.f 0x2C 4
def step (t : Tab) : Nat := t.f 0x30 4
def group (t : Tab) : Nat := t.f 0x34 2
/-- Bytes of a row's elements. -/
def rowBytes (t : Tab) : Nat := (t.width * Num.width t.etype + 7) / 8
end Tab

/-- A directory record by index. -/
def tabAt (s : State) (i : Nat) : Option Tab := (smFind i s.egp.dir).map (fun b => ⟨b⟩)

/-- The directory record that a context table ID of a service is bound to (R250). -/
def bindOf (s : State) (svc id : Nat) : Option Nat :=
  ((s.egp.binds.find? (fun b => b.1 == svc && b.2.1 == id)).map (fun b => b.2.2))

/-- Store bytes of a directory record. -/
def setTab (s : State) (i o n v : Nat) : State :=
  { s with egp := { s.egp with dir := match smFind i s.egp.dir with
      | some bs => smInsert i (bs.take o ++ leBytes n v ++ bs.drop (o + n)) s.egp.dir
      | none => s.egp.dir } }

/-- The decision unit of a table: the EGP of the lowest cluster of its home die that is not offlined (R262, R536). -/
def decider (s : State) (t : Tab) : Nat :=
  let all := (List.range 6).map (fun i => 6 * (t.home % 2) + i)
  (all.find? (fun u => !s.io.isOffline (bEgp u))).getD (6 * (t.home % 2))

/-- An EGP request block (Table 9.3). -/
structure EgpBlk where
  bs : List Byte
  deriving DecidableEq, Repr

namespace EgpBlk
def f (b : EgpBlk) (o n : Nat) : Nat := fieldAt b.bs o n
def op (b : EgpBlk) : Nat := b.f 1 1
def idx64 (b : EgpBlk) : Bool := bitOf (b.f 4 1) 0
def remote (b : EgpBlk) : Bool := bitOf (b.f 4 1) 1
def count (b : EgpBlk) : Nat := b.f 8 4
end EgpBlk

/-- Where a request finds a list: a descriptor, or its input stage buffer from a byte offset (R254). -/
inductive Src where
  | desc (d : Desc)
  | buf (core off len : Nat)
  | none
  deriving DecidableEq, Repr

/-- The input that a descriptor field names (R101 to R103, R254): none where it is refused. -/
def reqSrc (s : State) (r : UReq) (id : Nat) (write : Bool) : Option Src :=
  if id = 0xFFFF then
    match r.stage with
    | some (i, st, idx) =>
      match instOf s i with
      | some x => match chainOf s x, (x.bufs.getD st []).find? (fun b => b.idx == idx), r.core with
        | some c, some b, some n => some (.buf n (entryOff c st idx) b.len)
        | _, _, _ => none
      | none => none
    | none => none
  else match reqDesc s r.cn id write with
    | some d => if d.tier = 0 ∧ r.core.isNone then none else some (.desc d)
    | none => none

/-- Core of a request for LOCAL descriptors. -/
def UReq.home (r : UReq) : Nat := r.core.getD 0

/-- Whether a source holds `n` elements of `w` bytes and a type from element `first`. -/
def Src.holds (x : Src) (first n w : Nat) (types : List Nat) : Bool :=
  match x with
  | .desc d => types.contains d.etype && decide (first + n ≤ d.count)
  | .buf _ _ len => decide ((first + n) * w ≤ len)
  | .none => true

/-- The code of element `k` of a source of `w`-byte elements. -/
def Src.code (x : Src) (s : State) (core k w : Nat) : Nat :=
  match x with
  | .desc d => elemCode s core d (d.coords k)
  | .buf n off _ => (s.core n).num (off + k * w) w
  | .none => 0

/-- Why reading element `k` of a source fails now. -/
def Src.fault (x : Src) (s : State) (k w : Nat) : Option Nat :=
  match x with
  | .desc d => if tHeld s d.tier d.base then some heldMark else (tFault s d.tier (d.addrOf (d.coords k)) w false).map Prod.fst
  | _ => Option.none

/-- Whether the line of element `k` of a source is poisoned. -/
def Src.poisoned (x : Src) (s : State) (core k w : Nat) : Bool :=
  match x with
  | .desc d => elemPoison s core d (d.coords k)
  | .buf n off _ => (s.core n).anyPoison (off + k * w) w
  | .none => false

/-- An index's position: null, out of range, or a row (R256). -/
inductive Pos where
  | null
  | oob
  | row (r : Nat)
  deriving DecidableEq, Repr

/-- How an index is treated (R256). -/
def posOf (idx64 : Bool) (rows code : Nat) : Pos :=
  if code = (if idx64 then 2 ^ 64 - 1 else 2 ^ 32 - 1) then .null else if rows ≤ code then .oob else .row code

/-- Address of a row, and of its scale bytes. -/
def Tab.rowAddr (t : Tab) (r : Nat) : Nat := t.base + r * t.pitch
def Tab.scaleAt (t : Tab) (r : Nat) : Nat := t.scaleBase + r * t.width / 32

/-- The stored code and the FP32 code of element `j` of a row (R252). -/
def rowCode (s : State) (t : Tab) (r j : Nat) : Nat := tBits s 0 t.tier (t.rowAddr r) ((j * Num.width t.etype : Nat) : Int) (Num.width t.etype)
def rowScale (s : State) (t : Tab) (r j : Nat) : Nat := s.tNum 0 t.tier (t.scaleAt r + j / 32) 1
def rowVal (s : State) (t : Tab) (r j : Nat) : Num.FVal :=
  if Num.isMx t.etype then Num.mxValue t.etype (rowScale s t r j) (rowCode s t r j) else Num.value t.etype (rowCode s t r j)

/-- The widened FP32 code of a row's element; a NaN is the canonical one. -/
def rowF32 (s : State) (t : Tab) (r j : Nat) : Nat :=
  if t.etype = Num.FP32 then rowCode s t r j else toF32 (rowVal s t r j)

/-- Whether a line of a row is poisoned. -/
def rowPoison (s : State) (t : Tab) (r : Nat) : Bool :=
  s.tPoison 0 t.tier (t.rowAddr r) t.rowBytes || (Num.isMx t.etype && s.tPoison 0 t.tier (t.scaleAt r) (t.width / 32))

/-- Whether a unit holds a row's HOT copy, and whether the row has WARM copies (R265, R276). -/
def hotCopy (s : State) (u ti r : Nat) : Bool :=
  s.egp.hot.any (fun e => e.table == ti && e.row == r) && !s.egp.lost.contains (u, ti, r)
def warmCopy (s : State) (ti r : Nat) : Bool := s.egp.warm.any (fun e => e.table == ti && e.row == r)

/-- Why a row read fails now: only a read of the home row can (R265, R272). -/
def rowFault (s : State) (u ti : Nat) (t : Tab) (r : Nat) : Option Nat :=
  if hotCopy s u ti r ∨ warmCopy s ti r then none
  else if tHeld s t.tier t.base then some heldMark
  else ((tFault s t.tier (t.rowAddr r) t.rowBytes false).or
    (if Num.isMx t.etype then tFault s t.tier (t.scaleAt r) (t.width / 32) false else none)).map Prod.fst

/-- Count a row read by the copy that served it (R265). -/
def countRead (s : State) (u ti r : Nat) : State :=
  let o := if hotCopy s u ti r then Off.egp_HRC_READS_LO else if warmCopy s ti r then Off.egp_REPL_READS_LO else Off.egp_HOME_READS_LO
  s.mapIo (fun io => io.count64 (bEgp u) o 1)

/-- Heat of a group of positions of one row (R262). -/
def addHeat (s : State) (u ti : Nat) (t : Tab) (r n : Nat) : State :=
  if !t.replEn then s
  else { s with egp := { s.egp with heat := smMod [] u (sketchAdd 1024 (ti * 2 ^ 52 + r) n) s.egp.heat } }

/-- The sequence of log units that a step's entries use (R267). -/
def logUsed (s : State) (ti : Nat) (t : Tab) (step : Nat) : Nat :=
  let es := (s.egp.log.filter (fun e => e.1 == ti && e.2.step == step)).map Prod.snd
  if t.mode = 1 ∧ t.det then es.length else (es.foldl (fun a e => if a.contains e.row then a else e.row :: a) []).length

/-- The types that OUT_TYPE may be for an op on a table (R252, R260, Table 9.2). -/
def typeOk (b : EgpBlk) (t : Tab) : Bool :=
  let ot := b.f 3 1
  let isF := ot == Num.FP32 || ot == Num.BF16 || ot == Num.FP16
  if b.op = 4 then ot == 0
  else if Num.isInt t.etype then b.op == 0 && ot == 0
  else isF || (b.op == 0 && ot == 0)

/-- Type of the value or output rows that a request names. -/
def rowType (b : EgpBlk) (t : Tab) : Nat :=
  if b.op = 4 then (if Num.isInt t.etype then t.etype else Num.FP32)
  else if b.f 3 1 = 0 then t.etype else b.f 3 1

/-- Reserved and unused fields of a request block. -/
def egpRsv (b : EgpBlk) : Bool :=
  decide (b.f 4 1 / 4 ≠ 0) || decide (b.f 5 1 ≠ 0) || decide (b.f 0x30 16 ≠ 0)
    || (b.op ≠ 4 && (decide (b.f 6 2 ≠ 0) || decide (b.f 0x28 4 ≠ 0) || b.remote))
    || (b.op ≠ 3 && (decide (b.f 0x12 2 ≠ 0) || decide (b.f 0x1C 4 ≠ 0)))
    || (!b.remote && (decide (b.f 0x2C 2 ≠ 0) || decide (b.f 0x2E 2 ≠ 0)))

/-- Whether the output or value rows fit their descriptor (R260). -/
def rowsFit (x : Src) (b : EgpBlk) (t : Tab) (first n : Nat) : Bool :=
  match x with
  | .desc d => decide (d.etype = rowType b t) && decide (d.rank = 2) && decide (t.width ≤ d.sz 0) && decide (first + n ≤ d.sz 1)
  | .buf _ _ len => b.op ≠ 4 || decide ((first + n) * ((t.width * Num.width (rowType b t) + 7) / 8) ≤ len)
  | .none => true

/-- The inputs and outputs of a checked request. -/
structure EgpIn where
  ti : Nat
  t : Tab
  idx : Src
  wt : Src
  out : Src
  res : Src
  deriving DecidableEq, Repr

/-- The checks of Table 9.4 before any index is read: the inputs, or the first code. -/
def egpCheck (s : State) (r : UReq) : Except Nat EgpIn :=
  let b : EgpBlk := ⟨r.blk⟩
  if b.f 0 1 ≠ 1 then .error Code.BAD_VERSION
  else if 4 < b.op then .error Code.BAD_EGP_OP
  else if egpRsv b then .error Code.RSV_NONZERO
  else match bindOf s r.svc (b.f 2 1) with
  | none => .error Code.BAD_TABLE
  | some ti =>
    match tabAt s ti with
    | none => .error Code.BAD_TABLE
    | some t =>
      if b.remote ∧ (!feature s.io 3 ∨ (t.det ∧ !feature s.io 7)) then .error Code.FEATURE_OFF
      else if b.remote ∧ (fabCheck s).isSome then .error Code.FAB_NOT_READY
      else if b.remote ∧ !reachable s (b.f 0x2C 2) then .error Code.UNREACHABLE
      else if !typeOk b t then .error Code.EGP_TYPE
      else if b.count = 0 ∨ 16777216 < b.count then .error Code.COUNT_RANGE
      else
        let idx := reqSrc s r (b.f 0x10 2) false
        let wt := if b.op = 3 then reqSrc s r (b.f 0x12 2) false else some Src.none
        let out := reqSrc s r (b.f 0x14 2) (b.op ≠ 4)
        let res := reqSrc s r (b.f 0x16 2) true
        match idx, wt, out, res with
        | some idx, some wt, some out, some res =>
          let iw := if b.idx64 then 8 else 4
          let first := b.f 0x20 4
          let n := if b.op = 0 ∨ b.op = 4 then b.count else 1
          let resOk := match res with
            | .desc d => decide (d.etype = Num.U8) && decide (b.f 0x24 4 + 32 ≤ d.count) && decide (b.f 0x24 4 % 32 = 0)
            | _ => true
          if !idx.holds (b.f 0x18 4) b.count iw [if b.idx64 then Num.U64 else Num.U32]
            ∨ !wt.holds (b.f 0x1C 4) b.count 4 [Num.FP32] ∨ !rowsFit out b t first n ∨ !resOk then .error Code.BAD_COLUMN
          else if b.op = 4 ∧ !b.remote ∧ t.mode = 0 then .error Code.UPD_MODE
          else if b.op = 4 ∧ !b.remote ∧ b.f 0x28 4 < t.step then .error Code.STEP_CLOSED
          else if b.op = 4 ∧ !b.remote ∧ t.step < b.f 0x28 4 then .error Code.STEP_AHEAD
          else if b.op = 4 ∧ !b.remote ∧ t.updCap < logUsed s ti t (b.f 0x28 4) + b.count then .error Code.UPD_LOG_FULL
          else .ok ⟨ti, t, idx, wt, out, res⟩
        | _, _, _, _ => .error Code.BAD_COLUMN

/-- The result of a request (Table 9.5). -/
structure EgpRes where
  code : Nat := 0
  empty : Bool := false
  poison : Bool := false
  mergedZero : Bool := false
  indices : Nat := 0
  contrib : Nat := 0
  groups : Nat := 0
  nulls : Nat := 0
  oob : Nat := 0
  firstBad : Nat := 0xFFFFFFFF
  deriving DecidableEq, Repr

/-- The 32 bytes of a result (Table 9.5). -/
def EgpRes.bytes (r : EgpRes) (tag : Nat) : List Byte :=
  leBytes 2 r.code ++ leBytes 2 (b2n r.empty + 2 * b2n r.poison + 4 * b2n r.mergedZero) ++ leBytes 4 tag ++ leBytes 4 r.indices
    ++ leBytes 4 r.contrib ++ leBytes 4 r.groups ++ leBytes 4 r.nulls ++ leBytes 4 r.oob ++ leBytes 4 r.firstBad

/-- A group of one window: its row, its merged FP32 weight, and its positions (R258, R261). -/
structure Grp where
  row : Nat
  w : Nat
  n : Nat
  at_ : Nat
  deriving DecidableEq, Repr

/-- One position merges into the groups of its window, in order of first appearance (R258). -/
def mergePos (gs : List Grp) (row w p : Nat) : List Grp :=
  if gs.any (fun g => g.row == row) then
    gs.map (fun g => if g.row = row then { g with w := rne32Add g.w w, n := g.n + 1 } else g)
  else gs ++ [⟨row, w, 1, p⟩]

/-- FP32 ±0. -/
def isZero32 (c : Nat) : Bool := c % 2 ^ 31 == 0

/-- The groups of every window, in order, with the counts of a request (R256, R258). -/
def egpGroups (b : EgpBlk) (rows : Nat) (ix wt : Nat → Nat) : List (List Grp) × EgpRes × Nat :=
  let n := b.count
  let win : Nat → List Grp × EgpRes × Nat → List Grp × EgpRes × Nat := fun lo acc =>
    (List.range (min 4096 (n - lo))).foldl (fun (gs, r, z) k =>
      let p := lo + k
      match posOf b.idx64 rows (ix p) with
      | .null => (gs, { r with nulls := r.nulls + 1 }, z)
      | .oob => (gs, { r with oob := r.oob + 1 }, z)
      | .row row =>
        let v := if b.op = 3 then wt p else one32
        if b.op = 3 ∧ isZero32 v then (gs, r, z + 1)
        else (mergePos gs row v p, { r with contrib := r.contrib + 1 }, z)) acc
  (List.range (cdiv n 4096)).foldl (fun (ws, r, z) w =>
    let (gs, r, z) := win (4096 * w) ([], r, z)
    (ws ++ [gs], { r with groups := r.groups + gs.length }, z)) ([], { indices := n }, 0)

/-- Whether a group's row is read: a merged weight of zskip is not, in a pooled request (R258). -/
def Grp.read (g : Grp) (op : Nat) : Bool := op == 0 || !isZero32 g.w

/-- The pooled vector (R258). -/
def poolVector (s : State) (t : Tab) (op cnt : Nat) (ws : List (List Grp)) : List Nat :=
  (List.range t.width).map (fun j =>
    let acc := ws.flatten.foldl (fun a g => if g.read op then rne32Fma g.w (rowF32 s t g.row j) a else a) 0
    if op = 2 ∧ 0 < cnt then rne32Div acc (natF32 cnt) else acc)

/-- An FP32 code converted to an output type (R260). -/
def outCode (ot c : Nat) : Nat := (Num.convert Num.FP32 ot 0 true c).1

/-- Write an output row: its codes by element, with their scales for MX types; a line written whole and clean loses its
poison (R406). -/
def putRow (s : State) (core : Nat) (d : Desc) (row : Nat) (codes : List Nat) (scales : List Nat) (p : Bool) : State :=
  let s := codes.zipIdx.foldl (fun s e => putElem s core d [e.2, row] e.1 p) s
  let s := scales.zipIdx.foldl (fun s e => s.tWrite core d.tier (d.scaleAddr [32 * e.2, row]) (leBytes 1 e.1) p) s
  if p then s
  else clearWhole s core d ((List.range codes.length).map (fun j => ([j, row], !scales.isEmpty && j % 32 == 0))) []

/-- The bytes of a row of codes. -/
def packCodes (w : Nat) (codes : List Nat) : List Byte :=
  leBytes ((codes.length * w + 7) / 8) (codes.zipIdx.foldl (fun a e => a + e.1 % 2 ^ w * 2 ^ (w * e.2)) 0)

/-- The output row of a gathered position (R256, R259, R260): codes, scales and poison. -/
def gatherRow (s : State) (t : Tab) (ot : Nat) (p : Pos) : List Nat × List Nat × Bool :=
  match p with
  | .row r =>
    let codes := (List.range t.width).map (fun j => if ot = 0 then rowCode s t r j else outCode ot (rowF32 s t r j))
    (codes, if ot = 0 ∧ Num.isMx t.etype then (List.range (t.width / 32)).map (fun k => rowScale s t r (32 * k)) else [], rowPoison s t r)
  | _ => (List.replicate t.width 0, if ot = 0 ∧ Num.isMx t.etype then List.replicate (t.width / 32) 0x7F else [], false)

/-- How a request ends. -/
inductive Served where
  | wait (code : Nat)
  | done (s : State) (code : Nat)
  deriving Repr

/-- Write a request's result, and for a stage its output entry (R257); none while no output entry is free. -/
def egpFinish (s : State) (r : UReq) (i : EgpIn) (res : EgpRes) (entry : List Byte) (poison : Bool) : Option State :=
  let b : EgpBlk := ⟨r.blk⟩
  let bs := res.bytes (b.f 0x0C 4)
  let toBuf := match i.res, i.out with
    | .buf _ _ _, _ => true
    | _, .buf _ _ _ => b.op ≠ 4
    | _, _ => false
  let s := match i.res with
    | .desc d => putDescBytes s r.home d (b.f 0x24 4) bs false
    | _ => s
  match toBuf, r.stage with
  | true, some (n, st, _) => putEntry s n (st + 1) (entry ++ (match i.res with | .buf _ _ _ => bs | _ => [])) poison
  | _, _ => some s

/-- The first fault that a request's reads meet, position by position: waiting, or failed at a position; a row that a
zero or a zero merged weight leaves unread meets none (R258, R272). -/
def egpFault (s : State) (u : Nat) (r : UReq) (i : EgpIn) : Option (Nat × Nat) :=
  let b : EgpBlk := ⟨r.blk⟩
  let iw := if b.idx64 then 8 else 4
  let rb := (i.t.width * Num.width (rowType b i.t) + 7) / 8
  let wins := (egpGroups b i.t.rows (fun p => i.idx.code s r.home (b.f 0x18 4 + p) iw) (fun p => i.wt.code s r.home (b.f 0x1C 4 + p) 4)).1
  (List.range b.count).findSome? (fun p =>
    match (i.idx.fault s (b.f 0x18 4 + p) iw).or ((i.wt.fault s (b.f 0x1C 4 + p) 4)) with
    | some c => some (c, p)
    | none =>
      if b.op = 4 then
        (match i.out with
         | .desc d => (tFault s d.tier (d.addrOf [0, b.f 0x20 4 + p]) rb false).map (fun e => (e.1, p))
         | _ => none)
      else match posOf b.idx64 i.t.rows (i.idx.code s r.home (b.f 0x18 4 + p) iw) with
        | .row row =>
          if b.op = 3 ∧ (isZero32 (i.wt.code s r.home (b.f 0x1C 4 + p) 4) ∨ !((wins.getD (p / 4096) []).any (fun g => g.row == row && g.read b.op))) then none
          else (rowFault s u i.ti i.t row).map (fun c => (c, p))
        | _ => none)

/-- GATHER writes its output rows, those before `stop` (R259, R272). -/
def gatherRows (s : State) (r : UReq) (i : EgpIn) (stop : Nat) : State × List Byte × Bool :=
  let b : EgpBlk := ⟨r.blk⟩
  let ot := b.f 3 1
  let iw := if b.idx64 then 8 else 4
  (List.range stop).foldl (fun (s, bs, pz) k =>
    let (codes, scales, p) := gatherRow s i.t ot (posOf b.idx64 i.t.rows (i.idx.code s r.home (b.f 0x18 4 + k) iw))
    match i.out with
    | .desc d => (putRow s r.home d (b.f 0x20 4 + k) codes scales p, bs, pz || p)
    | _ => (s, bs ++ packCodes (Num.width (rowType b i.t)) codes ++ packCodes 8 scales, pz || p)) (s, [], false)

/-- The source address and marker of entries logged here (R266). -/
def logEntry (ti : Nat) (e : LogEnt) (s : State) : State := { s with egp := { s.egp with log := s.egp.log ++ [(ti, e)] } }

/-- A value row of an UPDATE: codes and poison. -/
def valueRow (s : State) (r : UReq) (i : EgpIn) (p : Nat) : List Nat × Bool :=
  let b : EgpBlk := ⟨r.blk⟩
  let w := Num.width (rowType b i.t)
  let k := b.f 0x20 4 + p
  match i.out with
  | .desc d => ((List.range i.t.width).map (fun j => elemCode s r.home d [j, k]),
      (List.range i.t.width).any (fun j => elemPoison s r.home d [j, k]))
  | .buf n off _ =>
    let rb := (i.t.width * w + 7) / 8
    ((List.range i.t.width).map (fun j => bitsOf ((s.core n).num (off + k * rb + j * w / 8) (w / 8)) (w - 1) 0),
     (s.core n).anyPoison (off + k * rb) rb)
  | .none => ([], false)

/-- Count and signal the end of a request on its unit's page (Tables 9.8, 9.9). -/
def egpCount (s : State) (u : Nat) (b : EgpBlk) (res : EgpRes) (zskip : Nat) : State :=
  s.mapIo (fun io =>
    let e := bEgp u
    let io := io.count64 e Off.egp_REQUESTS_LO 1
    let io := io.count64 e Off.egp_POSITIONS_LO res.indices
    let io := io.count64 e Off.egp_GROUPS_LO res.groups
    let io := io.count64 e Off.egp_ZERO_SKIP_LO zskip
    let io := io.count e Off.egp_NULL_IDX res.nulls
    let io := io.count e Off.egp_OOB_IDX res.oob
    let io := if res.code = Code.INPUT_FAILED then io.rise e 2 else io
    let io := if res.poison then io.rise e 3 else io
    if b.op = 4 ∧ res.code ≠ 0 then (io.count e Off.egp_UPD_REFUSED_CT 1).rise e 5 else io)

/-- A remote update's entries as bytes (Table 17.5). -/
def updBytes (s : State) (r : UReq) (i : EgpIn) : List Byte × Bool :=
  let b : EgpBlk := ⟨r.blk⟩
  let iw := if b.idx64 then 8 else 4
  (List.range b.count).foldl (fun (bs, pz) p =>
    match posOf b.idx64 (2 ^ 64) (i.idx.code s r.home (b.f 0x18 4 + p) iw) with
    | .row row =>
      let (v, q) := valueRow s r i p
      (bs ++ leBytes 8 row ++ leBytes 4 p ++ leBytes 4 0 ++ packCodes (Num.width (rowType b i.t)) v, pz || q)
    | _ => (bs, pz)) ([], false)

/-- Whether a request's weights are poisoned, which poisons what is written from them (R405; DEDUCED, log entry 79). -/
def wtPoison (s : State) (r : UReq) (i : EgpIn) : Bool :=
  let b : EgpBlk := ⟨r.blk⟩
  b.op == 3 && (List.range b.count).any (fun p => i.wt.poisoned s r.home (b.f 0x1C 4 + p) 4)

/-- Serve a request that is whole at once: it waits, or ends (R254 to R273). -/
def egpServe (s : State) (u : Nat) (r : UReq) : Served :=
  let b : EgpBlk := ⟨r.blk⟩
  match egpCheck s r with
  | .error c =>
    let res : EgpRes := { code := c }
    -- only CODE of the result is written, where a result descriptor can take it (R255, R257)
    let s := match reqSrc s r (b.f 0x16 2) true with
      | some (.desc d) => if d.etype = Num.U8 ∧ b.f 0x24 4 + 2 ≤ d.count then putDescBytes s r.home d (b.f 0x24 4) (leBytes 2 c) false else s
      | _ => s
    .done (egpCount s u b res 0) c
  | .ok i =>
    let iw := if b.idx64 then 8 else 4
    let ix : Nat → Nat := fun p => i.idx.code s r.home (b.f 0x18 4 + p) iw
    let wt : Nat → Nat := fun p => i.wt.code s r.home (b.f 0x1C 4 + p) 4
    let outHeld := match i.out, i.res with
      | .desc d, .desc e => tHeld s d.tier d.base || tHeld s e.tier e.base
      | .desc d, _ => tHeld s d.tier d.base
      | _, .desc e => tHeld s e.tier e.base
      | _, _ => false
    if outHeld then .wait heldMark
    else
      let (ws, res, zskip) := egpGroups b i.t.rows ix wt
      match egpFault s u r i with
      | some (c, p) =>
        if faultWaits c then .wait c
        else
          let res : EgpRes := { res with code := Code.INPUT_FAILED, firstBad := p }
          let s1 := if b.op = 0 then (gatherRows s r i p).1 else s
          match egpFinish s1 r i res [] false with
          | some s => .done (egpCount s u b res zskip) Code.INPUT_FAILED
          | none => .wait 0
      | none =>
        if b.op = 4 then
          let step := b.f 0x28 4
          let s1 := (List.range b.count).foldl (fun s p =>
            match posOf b.idx64 i.t.rows (ix p) with
            | .row row =>
              let (v, q) := valueRow s r i p
              (logEntry i.ti ⟨step, row, sourceAddr s, b.f 6 2, p, v, q⟩ s).mapIo (fun io => io.count64 (bEgp u) Off.egp_UPD_ENTRIES_LO 1)
            | _ => s) s
          match egpFinish s1 r i res [] false with
          | some s => .done (egpCount s u b res zskip) 0
          | none => .wait 0
        else
          let read := ws.flatten.filter (fun g => g.read b.op)
          let pz := read.any (fun g => rowPoison s i.t g.row)
          let res : EgpRes := { res with poison := pz, empty := b.op ≠ 0 && res.contrib == 0,
                                         mergedZero := b.op ≠ 0 && ws.flatten.any (fun g => isZero32 g.w) }
          let s1 := read.foldl (fun s g => addHeat (countRead s u i.ti g.row) u i.ti i.t g.row g.n) s
          let s1 := (ws.flatten.filter (fun g => !g.read b.op)).foldl (fun s g => addHeat s u i.ti i.t g.row g.n) s1
          let (s2, entry, p2) :=
            if b.op = 0 then gatherRows s1 r i b.count
            else
              let codes := (poolVector s i.t b.op res.contrib ws).map (outCode (b.f 3 1))
              let pw := pz || wtPoison s r i
              match i.out with
              | .desc d => (putRow s1 r.home d (b.f 0x20 4) codes [] pw, [], pw)
              | _ => (s1, packCodes (Num.width (b.f 3 1)) codes, pw)
          match egpFinish s2 r i res entry p2 with
          | some s => .done (egpCount s u b res zskip) 0
          | none => .wait 0

/-- Whether a request's table is FENCING and the request gathers: it is held unless the fence waits for it (R269). -/
def egpHeld (s : State) (r : UReq) : Bool :=
  let b : EgpBlk := ⟨r.blk⟩
  match bindOf s r.svc (b.f 2 1) with
  | some ti => b.op ≠ 4 && s.egp.fences.any (fun f => f.table == ti && !f.waits.contains r.serial)
  | none => false

/-- Whether two requests are of one source stage, whose order is kept (R254). -/
def sameSource (a b : UReq) : Bool :=
  match a.run, b.run with
  | some x, some y => x == y
  | none, none => (a.stage.map (fun e => (e.1, e.2.1))) == (b.stage.map (fun e => (e.1, e.2.1)))
  | _, _ => false

/-- The request that a unit serves next: the first with none of its source before it, not held and not waiting for
remote answers. -/
def nextReq (q : List UReq) (held : UReq → Bool) : Option UReq :=
  q.find? (fun r => (q.find? (fun a => sameSource a r)) == some r && !held r && r.sent.isNone)

/-- A remote update goes out in EGP_UPD packets, or its issue is put off while the device may not send (R464). -/
def sendUpdate (s : State) (u : Nat) (r : UReq) (i : EgpIn) : State :=
  let b : EgpBlk := ⟨r.blk⟩
  let (bs, pz) := updBytes s r i
  let n := max 1 (cdiv bs.length 4096)
  let flow := 0x01000000 + i.t.group
  let s := (List.range n).foldl (fun s k =>
    transmit s (b.f 0x2C 2) 2 flow (if pz then 2 ^ 64 - 1 else 0) (r.serial % 65536 + b.f 6 2 * 2 ^ 16 + b.f 0x28 4 * 2 ^ 32)
      ((bs.drop (4096 * k)).take 4096) (.update r.serial)) s
  setQueue s true u ((unitQueue s true u).map (fun q => if q.serial = r.serial then { q with sent := some (n, 0, 0) } else q))

/-- A fence no longer waits for a request that has ended. -/
def fenceForget (s : State) (serial : Nat) : State :=
  { s with egp := { s.egp with fences := s.egp.fences.map (fun f => { f with waits := f.waits.filter (fun w => w ≠ serial) }) } }

/-- A unit serves its next request when that request has the row's operation; a reserved one is refused with
the gathers. -/
def egpStep (s : State) (u op : Nat) : State :=
  match nextReq (unitQueue s true u) (egpHeld s) with
  | none => s
  | some r =>
    let b : EgpBlk := ⟨r.blk⟩
    if (if 4 < b.op then 0 else b.op) ≠ op then s
    else if b.op = 4 ∧ b.remote ∧ (egpCheck s r).isOk then
      match egpCheck s r with
      | .ok i => if maySend s ∧ (egpFault s u r i).isNone then sendUpdate s u r i else s
      | .error _ => s
    else match egpServe s u r with
      | .wait c => s.migrFault c
      | .done s c => fenceForget (endReq s true u r c) r.serial

/-- A remote update is answered by one packet: when all have been, the request ends with its result (R464). -/
def updateAnswer (s : State) (serial code n : Nat) : State :=
  (List.range 12).foldl (fun s u =>
    match (unitQueue s true u).find? (fun r => r.serial == serial && r.sent.isSome) with
    | none => s
    | some r =>
      let (left, got, c) := r.sent.getD (0, 0, 0)
      let c := if c = 0 then code else c
      let sent := (left - 1, got + n, c)
      if 1 < left then
        setQueue s true u ((unitQueue s true u).map (fun q => if q.serial = serial then { q with sent := some sent } else q))
      else
        let b : EgpBlk := ⟨r.blk⟩
        let res : EgpRes := { code := c, indices := b.count, contrib := got + n }
        match egpCheck s r with
        | .ok i => match egpFinish s r i res [] false with
          | some s => fenceForget (endReq (egpCount s u b res 0) true u r c) serial
          | none => s
        | .error e => fenceForget (endReq (egpCount s u b { res with code := e } 0) true u r e) serial) s

/-- One row's entries applied to its home value (R268, Table 9.6): codes of the row. -/
def applyRow (s : State) (t : Tab) (es : List LogEnt) (row : Nat) : List Nat :=
  let key : LogEnt → Nat := fun e => (e.src * 65536 + e.batch) * 2 ^ 32 + e.pos
  let ins : LogEnt → List LogEnt → List LogEnt := fun e l => (l.takeWhile (fun x => decide (key x ≤ key e))) ++ [e] ++ (l.dropWhile (fun x => decide (key x ≤ key e)))
  let sorted := es.foldl (fun l e => ins e l) []
  (List.range t.width).map (fun j =>
    let v : LogEnt → Nat := fun e => e.vals.getD j 0
    let w := Num.width t.etype
    if Num.isInt t.etype then
      let x := rowCode s t row j
      if t.mode = 1 then es.foldl (fun a e => (a + v e) % 2 ^ w) x
      else if t.mode = 2 then (sorted.getLast?.map v).getD x
      else es.foldl (fun a e => if Num.intOf t.etype a < Num.intOf t.etype (v e) then v e else a) x
    else
      let x := rowF32 s t row j
      let y := if t.mode = 1 then
          (if t.det then sorted.foldl (fun a e => rne32Add a (v e)) x
           else match es with
             | [] => x
             | e :: rest => rne32Add x (rest.foldl (fun a e => rne32Add a (v e)) (v e)))
        else if t.mode = 2 then (sorted.getLast?.map v).getD x
        else es.foldl (fun a e => (fMinMax Num.FP32 true a (v e)).1) x
      if Num.isMx t.etype then y else (Num.convert Num.FP32 t.etype 0 true y).1)

/-- Write a row's home value: MX rows are quantised block by block (R57). -/
def writeRow (s : State) (t : Tab) (row : Nat) (codes : List Nat) (p : Bool) : State :=
  let w := Num.width t.etype
  if Num.isMx t.etype then
    (List.range (t.width / 32)).foldl (fun s k =>
      let (sc, cs, _) := Num.mxBlock t.etype ((List.range 32).map (fun j => Num.value Num.FP32 (codes.getD (32 * k + j) 0)))
      (s.tWrite 0 t.tier (t.rowAddr row + 4 * k * w) (packCodes w cs) p).tWrite 0 t.tier (t.scaleAt row + k) (leBytes 1 sc) p) s
  else s.tWrite 0 t.tier (t.rowAddr row) (packCodes w codes) p

/-- Store a fence. -/
def setFence (s : State) (f : Fence) : State :=
  { s with egp := { s.egp with fences := s.egp.fences.map (fun g => if g.table = f.table then f else g) } }

/-- Markers that a fence still misses (R269). -/
def marksMissing (s : State) (t : Tab) (f : Fence) : Nat :=
  if t.peers ≤ 1 then 0
  else (t.peers - 1) - (s.egp.marks.filter (fun m => m.1 == f.table && m.2.1 == f.step)).length

/-- Demote a row: its replicas are freed (R264, R540). -/
def dropReplicas (s : State) (ti row : Nat) : State :=
  let p : Replica → Bool := fun e => !(e.table == ti && e.row == row)
  { s with egp := { s.egp with hot := s.egp.hot.filter p, warm := s.egp.warm.filter p } }

/-- FENCE_CLOSE: STATE FENCING, CUR_STEP s + 1, gathers accepted before are waited for, the marker goes to every peer
(R269, R464). -/
def fenceClose (s : State) (ti : Nat) (t : Tab) (c : Cmd) : State :=
  let step := t.step
  let s := setTab (setTab s ti 1 1 2) ti 0x30 4 ((step + 1) % 2 ^ 32)
  let waits := (List.range 12).flatMap (fun u => ((unitQueue s true u).filter (fun r =>
    let b : EgpBlk := ⟨r.blk⟩
    b.op ≠ 4 && bindOf s r.svc (b.f 2 1) == some ti)).map (fun r => r.serial))
  let f : Fence := { table := ti, step := step, phase := .close, waits := waits, cmd := c }
  let s := { s with egp := { s.egp with fences := s.egp.fences ++ [f] } }
  if t.peers ≤ 1 then s
  else
    let g := smGet ⟨0, []⟩ t.group s.fab.groups
    let hash := Hash.crc32c 0 (g.members.flatMap (fun a => leBytes 2 a))
    (g.members.filter (fun a => some a ≠ ownAddr s)).foldl (fun s a =>
      transmit s a 4 (0x01000000 + t.group) 0 (hash + step * 2 ^ 32) [] .mark) s

/-- The checks of STEP_FENCE (R269, R459). -/
def fenceCheck (s : State) (c : Cmd) : Except Nat (Nat × Tab) :=
  match bindOf s (c.issuerSvc s) (c.p 0x10 1) with
  | none => .error Code.BAD_TABLE
  | some ti =>
    match tabAt s ti with
    | none => .error Code.BAD_TABLE
    | some t =>
      if 1 < t.peers ∧ (smGet ⟨0, []⟩ t.group s.fab.groups).members.length ≠ t.peers then .error Code.FAB_GROUP_BAD
      else if c.p 0x14 4 < t.step then .error Code.STEP_CLOSED
      else if t.step < c.p 0x14 4 then .error Code.STEP_AHEAD
      else if t.state = 2 then .error Code.FENCE_BUSY
      else .ok (ti, t)

/-- FENCE_APPLY of one table: the step's entries reach the home rows once nothing is waited for (R268, R269, R540). -/
def fenceApply (s : State) (ti : Nat) : State :=
  match s.egp.fences.find? (fun f => f.table == ti), tabAt s ti with
  | some f, some t =>
    if f.phase ≠ .close ∨ f.waits ≠ [] ∨ (f.missing.isNone ∧ marksMissing s t f ≠ 0) then s
    else
      let es := (s.egp.log.filter (fun e => e.1 == ti && e.2.step == f.step)).map Prod.snd
      let rows := es.foldl (fun a e => if a.contains e.row then a else a ++ [e.row]) []
      let fault : Nat → Option Nat := fun row =>
        if tHeld s t.tier t.base then some heldMark else (tFault s t.tier (t.rowAddr row) t.rowBytes true).map Prod.fst
      if rows.any (fun row => (fault row).any faultWaits) then s.migrFault ((rows.findSome? fault).getD 0)
      else
        let good := rows.filter (fun row => (fault row).isNone)
        let bad := rows.filter (fun row => (fault row).isSome)
        let s1 := good.foldl (fun s row =>
          let mine := es.filter (fun e => e.row == row)
          writeRow s t row (applyRow s t mine row) (rowPoison s t row || mine.any (fun e => e.poison))) s
        let s1 := bad.foldl (fun s row => dropReplicas s ti row) s1
        let s1 := { s1 with egp := { s1.egp with log := s1.egp.log.filter (fun e => !(e.1 == ti && e.2.step == f.step)) } }
        setFence s1 { f with phase := .apply, rows := good, failed := bad.length,
                             applied := (es.filter (fun e => good.contains e.row)).length }
  | _, _ => s

/-- FENCE_REFRESH: every replica of an updated row takes the new home value; the model reads every copy as the home
value (R265, R269), so only the phase moves. -/
def fenceRefresh (s : State) (ti : Nat) : State :=
  match s.egp.fences.find? (fun f => f.table == ti) with
  | some f => if f.phase = .apply then setFence s { f with phase := .refresh } else s
  | none => s

/-- FENCE_OPEN: STATE READY, held gathers proceed, the command completes (R269, R540). -/
def fenceOpen (s : State) (ti : Nat) : State :=
  match s.egp.fences.find? (fun f => f.table == ti), tabAt s ti with
  | some f, some t =>
    if f.phase ≠ .refresh then s
    else
      let s := setTab s ti 1 1 1
      let s := { s with egp := { s.egp with fences := s.egp.fences.filter (fun g => g.table ≠ ti),
                                            marks := s.egp.marks.filter (fun m => !(m.1 == ti && decide (m.2.1 ≤ f.step))) } }
      let s := s.mapIo (fun io => (io.count (bEgp (decider s t)) Off.egp_FENCES 1).rise (bEgp (decider s t)) 4)
      let res := leBytes 4 f.step ++ leBytes 4 f.applied
      if f.failed ≠ 0 then finish s f.cmd Code.APPLY_FAILED res f.failed
      else match f.missing with
        | some m => finish s f.cmd Code.PEER_MISSING res m
        | none => finish s f.cmd Code.OK res
  | _, _ => s

/-- The summed heat reports of an epoch: every unit's entries at or above its WARM_THRESH (R262). -/
def heatReports (s : State) : SMap Nat :=
  (List.range 12).foldl (fun m u =>
    let th := s.io.br (bEgp u) Off.egp_WARM_THRESH
    ((smGet [] u s.egp.heat).filter (fun e => decide (th ≤ e.2))).foldl (fun m e => smInsert e.1 (smGet 0 e.1 m + e.2) m) m) []

/-- Places of a class for a table: HOT rows in its cache quota, WARM rows in its replica slots. -/
def replicaRoom (t : Tab) (hot : Bool) : Nat :=
  if hot then (if t.pitch = 0 then 0 else t.quota * 65536 / t.pitch) else t.replRows

/-- A row is promoted into a class, displacing the coldest replicated row when the places are full (R264). -/
def promoteRow (room : Nat) (l : List Replica) (e : Replica) : List Replica × Nat × Nat :=
  if l.any (fun r => r.table == e.table && r.row == e.row) then
    (l.map (fun r => if r.table = e.table ∧ r.row = e.row then e else r), 0, 0)
  else
    let mine := l.filter (fun r => r.table == e.table)
    if mine.length < room then (l ++ [e], 1, 0)
    else
      let cold := mine.foldl (fun (b : Option Replica) r => match b with
        | none => some r
        | some q => if r.heat < q.heat then some r else b) none
      match cold with
      | some q => if q.heat < e.heat then (l.erase q ++ [e], 1, 1) else (l, 0, 0)
      | none => (l, 0, 0)

/-- HEAT_EPOCH: reports are summed and rows are classified, demoted and promoted by their table's decision unit
(R262 to R264). -/
def heatEpoch (s : State) : State :=
  let rep := heatReports s
  let th : Nat → Bool → Nat := fun ti hot => match tabAt s ti with
    | some t => s.io.br (bEgp (decider s t)) (if hot then Off.egp_HOT_THRESH else Off.egp_WARM_THRESH)
    | none => 0
  let heat : Replica → Nat := fun r => smGet 0 (r.table * 2 ^ 52 + r.row) rep
  let keep : Bool → List Replica → List Replica := fun hot l =>
    (l.filter (fun r => decide (th r.table hot ≤ 2 * heat r) && decide (heat r ≠ 0))).map (fun r => { r with heat := heat r })
  let drops : Bool → List Replica → List Replica := fun hot l => l.filter (fun r => !(keep hot l).any (fun q => q.table == r.table && q.row == r.row))
  let count : State → Nat → Nat → Nat → State := fun s ti o n => match tabAt s ti with
    | some t => s.mapIo (fun io => io.count (bEgp (decider s t)) o n)
    | none => s
  let gone := drops true s.egp.hot ++ drops false s.egp.warm
  let s := gone.foldl (fun s r => count s r.table Off.egp_DEMOTIONS 1) s
  let s := { s with egp := { s.egp with hot := keep true s.egp.hot, warm := keep false s.egp.warm, heat := [] } }
  rep.foldl (fun s e =>
    let ti := e.1 / 2 ^ 52
    let row := e.1 % 2 ^ 52
    match tabAt s ti with
    | none => s
    | some t =>
      let hold := t.state == 2 || decide (s.io.bf (bEgp (decider s t)) 0x008 10 10 = 1) || !t.replEn
      if hold then s
      else
        let r : Replica := ⟨ti, row, e.2⟩
        let (hot, p1, d1) := if th ti true ≤ e.2 then promoteRow (replicaRoom t true) s.egp.hot r else (s.egp.hot, 0, 0)
        let (warm, p2, d2) := if th ti false ≤ e.2 then promoteRow (replicaRoom t false) s.egp.warm r else (s.egp.warm, 0, 0)
        let lost := if p1 = 1 then s.egp.lost.filter (fun x => !(x.2.1 == ti && x.2.2 == row)) else s.egp.lost
        let s := { s with egp := { s.egp with hot := hot, warm := warm, lost := lost } }
        count (count s ti Off.egp_PROMOTIONS (p1 + p2)) ti Off.egp_DEMOTIONS (d1 + d2)) s

end Sys2Proof.Machine
end

