-- ==== Sys2Proof/Machine/Winnower.lean ====
section
/-! DEFINITION. Selection: order, counts and sums of the Winnower and the merge trees (R277 to R293). -/

namespace Sys2Proof.Machine

/-- Values by ORD_SELECT (Table 3.5, R281): a NaN equals every NaN and lies below −∞. -/
def selCmp (et a b : Nat) : Ordering :=
  let x := Num.value et a
  let y := Num.value et b
  if Num.isInt et then compare (Num.intOf et a) (Num.intOf et b)
  else if Num.isNaN x then (if Num.isNaN y then .eq else .lt)
  else if Num.isNaN y then .gt
  else Num.cmpV x y

/-- Whether entry `a` ranks above entry `b`: the larger value, then the lower index (R282). -/
def selAbove (et : Nat) (a b : Nat × Nat) : Bool :=
  match selCmp et a.2 b.2 with
  | .gt => true
  | .lt => false
  | .eq => decide (a.1 < b.1)

/-- Insert an entry in ranking order. -/
def selInsert (et : Nat) (e : Nat × Nat) : List (Nat × Nat) → List (Nat × Nat)
  | [] => [e]
  | x :: l => if selAbove et e x then e :: x :: l else x :: selInsert et e l

/-- The `k` highest-ranking of some candidates, in ranking order (R282). -/
def selTop (et k : Nat) (cs : List (Nat × Nat)) : List (Nat × Nat) := cs.foldl (fun l e => (selInsert et e l).take k) []

/-- Candidates not selected whose value equals that of the K-th selected (R283). -/
def selTies (et k : Nat) (cs sel : List (Nat × Nat)) : Nat :=
  match sel.getLast? with
  | some l => if sel.length < k then 0
              else (cs.filter (fun e => selCmp et e.2 l.2 == .eq)).length - (sel.filter (fun e => selCmp et e.2 l.2 == .eq)).length
  | none => 0

/-- Whether a code is a NaN of its type. -/
def codeNaN (et c : Nat) : Bool := !Num.isInt et && Num.isNaN (Num.value et c)

namespace RowSum

/-- A term of a sum (R287): NaN adds nothing. -/
def ofCode (et c : Nat) : RowSum :=
  if Num.isInt et then { fin := Num.intOf et c * (2 ^ 1200 : Nat) }
  else match Num.value et c with
    | .nan => {}
    | .inf n => if n then { neg := 1 } else { pos := 1 }
    | .fin n m e => { fin := Num.sigAt n m e (-1200) }

/-- Sum and difference of exact sums. -/
def add (a b : RowSum) : RowSum := ⟨a.pos + b.pos, a.neg + b.neg, a.fin + b.fin⟩
def sub (a b : RowSum) : RowSum := ⟨a.pos - b.pos, a.neg - b.neg, a.fin - b.fin⟩

/-- The exact sum of codes. -/
def total (et : Nat) (cs : List Nat) : RowSum := cs.foldl (fun a c => a.add (ofCode et c)) {}

/-- The 64 bits of a sum as a result holds it, rounded once (R287, Table 10.4). -/
def code (r : RowSum) (et : Nat) (s64 : Bool) : Nat :=
  if Num.isInt et then unsignedOf 64 (r.fin / ((2 ^ 1200 : Nat) : Int))
  else
    let f := Num.fmtOf (if s64 then Num.FP64 else Num.FP32)
    if 0 < r.pos ∧ 0 < r.neg then Num.canonNaN f
    else if 0 < r.pos then (Num.encodeF f 0 false (.inf false)).1
    else if 0 < r.neg then (Num.encodeF f 0 false (.inf true)).1
    else (Num.encodeF f 0 false (.fin (decide (r.fin < 0)) r.fin.natAbs (-1200))).1

/-- The sum that a stored result's 64 bits spell; a NaN stands for both infinities. -/
def ofStored (et : Nat) (s64 : Bool) (v : Nat) : RowSum :=
  if Num.isInt et then { fin := (if Num.isSigned et then signed 64 v else (v : Int)) * (2 ^ 1200 : Nat) }
  else
    let t := if s64 then Num.FP64 else Num.FP32
    if codeNaN t v then { pos := 1, neg := 1 } else ofCode t (if s64 then v else v % 2 ^ 32)

end RowSum

/-- The index and code of a padding entry (R283). -/
def padIdx : Nat := 0xFFFFFFFF
def padCode (et : Nat) : Nat := if Num.isInt et then Num.intCode et false (Num.intMin et) else (Num.encodeF (Num.fmtOf et) 0 false (.inf true)).1

/-- A selected value as written in its type (R282), and as 32 bits (R289). -/
def outVal (et c : Nat) : Nat := if codeNaN et c then Num.canonNaN (Num.fmtOf et) else c
def outVal32 (et c : Nat) : Nat := if Num.isInt et ∨ et = Num.FP32 then outVal et c else toF32 (Num.value et c)

/-- A row's selection (R279 to R287): `fb` is ORD_SELECT_FB, where NaN elements are no candidates. -/
def selectRow (et k : Nat) (fb : Bool) (cs : List (Nat × Nat)) (poison : Bool) : Partial :=
  let cand := if fb then cs.filter (fun e => !codeNaN et e.2) else cs
  let sel := selTop et k cand
  let ss := RowSum.total et (sel.map Prod.snd)
  { entries := sel, tie := selTies et k cand sel, nan := (cs.filter (fun e => codeNaN et e.2)).length, sel := ss,
    rest := (RowSum.total et (cs.map Prod.snd)).sub ss, poison := poison }

/-- What a merge yields besides its row: duplicates dropped, and those that differed. -/
structure Merged where
  row : Partial
  dups : Nat
  diffs : Nat
  deriving DecidableEq, Repr

/-- The kept entries of lists in member order, with the values of the dropped duplicates and how many differed (R290). -/
def keepEntries (et : Nat) (es : List (Nat × Nat)) : List (Nat × Nat) × List Nat × Nat :=
  es.foldl (fun (kept, dropped, diffs) e =>
    if e.1 = padIdx then (kept, dropped, diffs)
    else match kept.find? (fun q => q.1 == e.1) with
      | none => (kept ++ [e], dropped, diffs)
      | some q =>
        match selCmp et e.2 q.2 with
        | .gt => (kept.map (fun x => if x.1 = e.1 then e else x), dropped ++ [q.2], diffs + 1)
        | .eq => (kept, dropped ++ [e.2], diffs)
        | .lt => (kept, dropped ++ [e.2], diffs + 1)) ([], [], 0)

/-- Merge partial lists in member order; a list is full when it has `full` entries (R290). -/
def mergeRows (et k full : Nat) (ps : List Partial) : Merged :=
  let (kept, dropped, diffs) := keepEntries et (ps.flatMap (fun p => p.entries))
  let sel := selTop et k kept
  let ss := RowSum.total et (sel.map Prod.snd)
  let tot : RowSum := ps.foldl (fun a p => a.add (p.sel.add p.rest)) {}
  let extra := match sel.getLast? with
    | some l => if sel.length < k then 0
                else (ps.filter (fun p => decide (p.entries.length = full) && (match p.entries.getLast? with
                  | some e => selCmp et e.2 l.2 == .eq
                  | none => false))).foldl (fun a p => a + p.tie) 0
    | none => 0
  { row := { entries := sel, tie := selTies et k kept sel + extra, nan := ps.foldl (fun a p => a + p.nan) 0, sel := ss,
             rest := (tot.sub ss).sub (RowSum.total et dropped), poison := ps.any (fun p => p.poison) },
    dups := dropped.length, diffs := diffs }

/-- The 32 bytes of a row result (Table 10.4). -/
def rowResult (et : Nat) (s64 : Bool) (code path : Nat) (dup : Bool) (p : Partial) : List Byte :=
  leBytes 2 code ++ leBytes 2 (path + 4 * b2n dup + 8 * b2n p.poison) ++ leBytes 4 p.entries.length ++ leBytes 4 p.tie ++ leBytes 4 p.nan
    ++ leBytes 8 (p.sel.code et s64) ++ leBytes 8 (p.rest.code et s64)

/-- A row's 32-bit key that preserves ORD_SELECT_FB (R286). -/
def selKey (et c : Nat) : Nat :=
  if et = Num.U32 then c
  else if et = Num.I32 then Nat.xor c 0x80000000
  else
    let b := outVal32 et c
    let b := if b = 0x80000000 then 0 else b
    if 2 ^ 31 ≤ b then 2 ^ 32 - 1 - b else b + 2 ^ 31

/-- The bucket of the K-th candidate: from bucket `b` down while fewer than `k` lie above (R286). -/
def bucketDown (h : Nat → Nat) (k : Nat) : Nat → Nat → Nat × Nat
  | 0, a => (0, a)
  | b + 1, a => if a + h (b + 1) < k then bucketDown h k b (a + h (b + 1)) else (b + 1, a)

/-- The histogram passes of a threshold row: prefix, its width, candidates above it, and passes made (R286). -/
def narrow (keys : List Nat) (k : Nat) : List Nat → Nat × Nat × Nat × Nat → Nat × Nat × Nat × Nat
  | [], st => st
  | wb :: rest, (p, pw, a, n) =>
    let sh := 32 - pw - wb
    let ds := (keys.filter (fun x => decide (pw = 0) || decide (x / 2 ^ (32 - pw) = p))).map (fun x => x / 2 ^ sh % 2 ^ wb)
    let h : Nat → Nat := fun b => (ds.filter (fun d => d == b)).length
    let (b, a) := bucketDown h k (2 ^ wb - 1) a
    let st := (p * 2 ^ wb + b, pw + wb, a, n + 1)
    if a + h b ≤ 2 * k ∨ pw + wb = 32 then st else narrow keys k rest st

/-- The entries that the compaction pass writes to scratch, in index order, and the passes over the row (R286). -/
def compaction (et k : Nat) (cs : List (Nat × Nat)) : List (Nat × Nat) × Nat :=
  let cand := cs.filter (fun e => !codeNaN et e.2)
  let (p, pw, a, n) := narrow (cand.map (fun e => selKey et e.2)) k [12, 12, 8] (0, 0, 0, 0)
  let pre : Nat × Nat → Nat := fun e => selKey et e.2 / 2 ^ (32 - pw)
  let (es, _) := cand.foldl (fun (l, eq) e =>
    if p < pre e then (l ++ [e], eq)
    else if pre e = p ∧ (pw < 32 ∨ eq < k - a) then (l ++ [e], eq + 1) else (l, eq)) (([] : List (Nat × Nat)), 0)
  (es, n + 1)

/-- A Winnower request block (Table 10.2). -/
structure WinBlk where
  bs : List Byte
  deriving DecidableEq, Repr

namespace WinBlk
def f (b : WinBlk) (o n : Nat) : Nat := fieldAt b.bs o n
def op (b : WinBlk) : Nat := b.f 1 1
def type (b : WinBlk) : Nat := b.f 2 1
def mode (b : WinBlk) : Nat := b.f 3 1 % 4
def sum64 (b : WinBlk) : Bool := bitOf (b.f 3 1) 2
def k (b : WinBlk) : Nat := b.f 4 4
def len (b : WinBlk) : Nat := b.f 8 4
def rows (b : WinBlk) : Nat := b.f 0xC 4
def group (b : WinBlk) : Nat := b.f 0x1E 1
def rowFirst (b : WinBlk) : Nat := b.f 0x20 4
def base (b : WinBlk) : Nat := b.f 0x24 4
def outFirst (b : WinBlk) : Nat := b.f 0x28 4
def resFirst (b : WinBlk) : Nat := b.f 0x2C 4
def tag (b : WinBlk) : Nat := b.f 0x30 4
/-- Rows of output and results. -/
def outRows (b : WinBlk) : Nat := if b.op = 1 then 1 else b.rows
/-- The path of a row (R279): 3 a merge. -/
def path (b : WinBlk) : Nat :=
  if b.op = 1 then 3
  else if 4096 < b.k ∨ 2 ^ 24 < b.len then 2
  else if b.k ≤ 64 then 0 else 1
end WinBlk

/-- Reserved fields, and fields that OP or OUT_MODE does not use (Table 10.3, check 3). -/
def winRsv (b : WinBlk) : Bool :=
  decide (8 ≤ b.f 3 1) || decide (b.f 0x1F 1 ≠ 0) || decide (b.f 0x34 12 ≠ 0) || (b.sum64 && Num.isInt b.type)
    || (b.op = 0 && (decide (b.f 0x12 2 ≠ 0) || decide (b.f 0x1C 2 ≠ 0)))
    || (b.op = 1 && decide (b.base ≠ 0))
    || (b.path ≠ 2 && decide (b.f 0x1A 2 ≠ 0))
    || (2 ≤ b.mode && (decide (b.f 0x14 2 ≠ 0) || decide (b.outFirst ≠ 0)))
    || (b.mode ≠ 0 && decide (b.f 0x16 2 ≠ 0))
    || (b.mode ≤ 1 && decide (b.group ≠ 0))
    || (b.mode ≠ 2 && decide (b.tag ≠ 0))

/-- The OUT word of the task template that wrote a request: that of the last CORE stage before the unit (R289). -/
def reqOut (s : State) (r : UReq) (p : Nat) : Option Nat :=
  match r.stage with
  | none => none
  | some (i, st, _) =>
    match (instOf s i).bind (fun x => chainOf s x) with
    | none => none
    | some c =>
      match ((List.range (st + 1)).reverse).find? (fun j => (c.stage j).kind == 1) with
      | none => none
      | some j =>
        let w := (tmplOf s ((c.stage j).tmpl / 32768) ((c.stage j).tmpl % 16384)).out p
        if bitsOf w 31 30 = 1 then some w else none

/-- Source of a member of a merge group: the anchor core of its instance and its chain's stage, or the context and unit
of its command. -/
def memberKey (s : State) (u : Nat) (r : UReq) : Nat :=
  match r.stage, r.core with
  | some (i, st, _), some n => 2 ^ 60 + (((instOf s i).map (fun x => x.chain)).getD 0 * 8 + st) * 2 ^ 20 + n
  | _, _ => r.cn * 16 + u

/-- Key of a group on a die. -/
def groupKey (die g : Nat) : Nat := die * 256 + g

/-- A declared group. -/
def mergeGroup (s : State) (die g : Nat) : Option MergeGroup := s.merge.groups.find? (fun x => x.die == die && x.group == g)

/-- The member number of a source: its place, or the next. -/
def memberOf (s : State) (die g key : Nat) : Nat := (smGet [] (groupKey die g) s.merge.who).idxOf key

/-- Requests that a member has sent. -/
def memberSent (s : State) (die g m : Nat) : Nat := smGet 0 (die * 2 ^ 20 + g * 256 + m) s.merge.sent

/-- An open instance of a group. -/
def mergeInst (s : State) (die g n : Nat) : Option MergeInst := s.merge.insts.find? (fun x => x.die == die && x.group == g && x.n == n)

/-- Why a TO_MERGE request is refused (R291): its group, K and ROWS. -/
def groupCheck (s : State) (u : Nat) (r : UReq) : Option Nat :=
  let b : WinBlk := ⟨r.blk⟩
  let die := u / 6
  match mergeGroup s die b.group with
  | none => some Code.BAD_GROUP
  | some g =>
    if g.svc ≠ r.svc then some Code.BAD_GROUP
    else
      let m := memberOf s die b.group (memberKey s u r)
      if g.members ≤ m ∨ g.k ≠ b.k ∨ g.type ≠ b.type then some Code.MERGE_MISMATCH
      else match mergeInst s die b.group (memberSent s die b.group m) with
        | some x => if x.joined ≠ [] ∧ x.rows ≠ b.rows then some Code.MERGE_MISMATCH else none
        | none => none

/-- The inputs and outputs of a checked Winnower request. -/
structure WinIn where
  inp : Src
  idx : Src
  sum : Src
  val : Src
  oidx : Src
  scr : Src
  res : Src
  deriving DecidableEq, Repr

/-- Whether a source is a stage buffer. -/
def Src.isBuf : Src → Bool
  | .buf _ _ _ => true
  | _ => false

/-- Whether a rank-2 source has `w` elements a row to row `n`, of a type; a buffer holds its rows behind the block. -/
def Src.rowsHold (x : Src) (et w first n ew : Nat) : Bool :=
  match x with
  | .desc d => decide (d.etype = et) && decide (d.rank = 2) && decide (w ≤ d.sz 0) && decide (first + n ≤ d.sz 1)
  | .buf _ _ len => decide (64 + n * w * ew ≤ len)
  | .none => true

/-- Whether an output that names the stage's own output buffer may: only inside a fused command. -/
def Src.outHold (x : Src) (et w first n : Nat) : Bool :=
  match x with
  | .desc d => decide (d.etype = et) && decide (d.rank = 2) && decide (w ≤ d.sz 0) && decide (first + n ≤ d.sz 1)
  | _ => true

/-- Whether a U8 descriptor holds `n` bytes from `first`. -/
def Src.bytesHold (x : Src) (first n : Nat) : Bool :=
  match x with
  | .desc d => decide (d.etype = Num.U8) && decide (d.rank = 1) && decide (first + n ≤ d.sz 0)
  | _ => true

/-- The checks of Table 10.3 before any element is read: the inputs, or the code and whether RES_DESC can take it. -/
def winCheck (s : State) (u : Nat) (r : UReq) : Except Nat WinIn :=
  let b : WinBlk := ⟨r.blk⟩
  let types := [Num.FP32, Num.BF16, Num.FP16, Num.U32, Num.I32]
  if b.f 0 1 ≠ 1 then .error Code.BAD_VERSION
  else if 1 < b.op then .error Code.BAD_WIN_OP
  else if winRsv b then .error Code.RSV_NONZERO
  else if !types.contains b.type ∨ (b.mode = 3 ∧ b.op = 1) then .error Code.WIN_TYPE
  else if b.k = 0 ∨ 65536 < b.k ∨ (b.mode = 3 ∧ 4096 < b.k) then .error Code.K_RANGE
  else if b.len = 0 ∨ (if b.op = 1 then b.rows < 2 ∨ 64 < b.rows else b.rows = 0 ∨ 16777216 < b.rows) then .error Code.LEN_RANGE
  else if 0xFFFFFFFE < b.base + b.len - 1 then .error Code.IDX_RANGE
  else
    let use : Bool → Nat → Bool → Option Src := fun want o w => if want then reqSrc s r (b.f o 2) w else some Src.none
    let ew := Num.width b.type / 8
    match use true 0x10 false, use (b.op = 1) 0x12 false, use (b.op = 1) 0x1C false, use (b.mode ≤ 1) 0x14 true,
        use (b.mode = 0) 0x16 true, use (b.path = 2) 0x1A true, use true 0x18 true with
    | some inp, some idx, some sum, some val, some oidx, some scr, some res =>
      if !inp.rowsHold b.type b.len b.rowFirst b.rows ew
        ∨ idx.isBuf ∨ !idx.rowsHold Num.U32 b.len b.rowFirst b.rows 4
        ∨ sum.isBuf ∨ !sum.bytesHold 0 (32 * (b.rowFirst + b.rows))
        ∨ !val.outHold (if b.mode = 1 then Num.U32 else b.type) (if b.mode = 1 then 2 * b.k else b.k) b.outFirst b.outRows
        ∨ !oidx.outHold Num.U32 b.k b.outFirst b.outRows
        ∨ scr.isBuf ∨ !scr.bytesHold 0 0
        ∨ !res.bytesHold b.resFirst (32 * b.outRows) ∨ b.resFirst % 32 ≠ 0 then .error Code.BAD_COLUMN
      else if b.path ≠ 0 ∧ b.path ≠ 3 ∧ inp.isBuf then .error Code.PATH_SOURCE
      else if b.path = 2 ∧ !scr.bytesHold 0 (16 * b.k) then .error Code.SCRATCH_SHORT
      else match (if b.mode = 3 then groupCheck s u r else none) with
        | some c => .error c
        | none => if b.mode = 2 ∧ (reqOut s r b.group).isNone then .error Code.BAD_PORT else .ok ⟨inp, idx, sum, val, oidx, scr, res⟩
    | _, _, _, _, _, _, _ => .error Code.BAD_COLUMN

/-- The code of element `j` of row `row` of an input; `n` elements a row. -/
def Src.at2 (x : Src) (s : State) (core : Nat) (first row n j w : Nat) : Nat :=
  match x with
  | .desc d => elemCode s core d [j, first + row]
  | .buf c off _ => (s.core c).num (off + 64 + (row * n + j) * w) w
  | .none => 0

/-- Whether a row of an input holds a poisoned element. -/
def Src.rowPoison (x : Src) (s : State) (core : Nat) (first row n w : Nat) : Bool :=
  match x with
  | .desc d => (List.range n).any (fun j => elemPoison s core d [j, first + row])
  | .buf c off _ => (s.core c).anyPoison (off + 64 + row * n * w) (n * w)
  | .none => false

/-- Why the elements of a row cannot be read or written now. -/
def Src.rowFaults (x : Src) (s : State) (row n : Nat) (write : Bool) : Option Nat :=
  match x with
  | .desc d => if tHeld s d.tier d.base then some heldMark
               else (List.range n).findSome? (fun j => (tFault s d.tier (d.addrOf [j, row]) (max 1 (d.bits / 8)) write).map Prod.fst)
  | _ => Option.none

/-- The same for bytes of a U8 descriptor. -/
def Src.byteFaults (x : Src) (s : State) (first n : Nat) (write : Bool) : Option Nat :=
  match x with
  | .desc d => if tHeld s d.tier d.base then some heldMark else descFault s d first n write
  | _ => Option.none

/-- Write bytes to a result or scratch descriptor. -/
def Src.put (x : Src) (s : State) (core first : Nat) (bs : List Byte) (p : Bool) : State :=
  match x with
  | .desc d => putDescBytes s core d first bs p
  | _ => s

/-- The K entries of a row with its padding (R283). -/
def padded (et k : Nat) (es : List (Nat × Nat)) : List (Nat × Nat) := es ++ List.replicate (k - es.length) (padIdx, padCode et)

/-- A row's pair words (R289). -/
def pairWords (et k : Nat) (es : List (Nat × Nat)) : List Nat := (padded et k es).flatMap (fun e => [e.1, outVal32 et e.2])

/-- Write an output row in PLANES or PAIRS, or give its bytes for the next stage's buffer (R289). -/
def putRowOut (s : State) (core et mode : Nat) (val oidx : Src) (row k : Nat) (p : Partial) : State × List Byte :=
  if mode = 1 then
    match val with
    | .desc d => (putRow s core d row (pairWords et k p.entries) [] p.poison, [])
    | _ => (s, packCodes 32 (pairWords et k p.entries))
  else if mode = 0 then
    let vs := (padded et k p.entries).map (fun e => outVal et e.2)
    let is := (padded et k p.entries).map Prod.fst
    let (s, a) := match val with
      | .desc d => (putRow s core d row vs [] p.poison, [])
      | _ => (s, packCodes (Num.width et) vs)
    match oidx with
    | .desc d => (putRow s core d row is [] p.poison, a)
    | _ => (s, a ++ packCodes 32 is)
  else (s, [])

/-- Deliver one TOKENS entry (R289, R312). -/
def winToken (s : State) (u : Nat) (r : UReq) (w : Nat) (g : Option Nat) (key val : Nat) : State :=
  let k : Token := { die := bitsOf w 15 15, tmpl := bitsOf w 29 16, port := bitsOf w 3 0, key := key, val := val, ctx := r.cn, svc := r.svc,
                     binding := if g.isSome then none else r.binding, rel := r.rel, src := .winnower u, cls := r.cls, grp := g }
  let set : RouteGroup → RouteGroup := fun x => if some x.id = g then { x with routes := x.routes + 1 } else x
  let back : RouteGroup → RouteGroup := fun x => if some x.id = g then { x with routes := x.routes - 1 } else x
  let s := { s with expert := { s.expert with groups := s.expert.groups.map set } }
  let (s, o) := offerToken s k
  let s := s.mapIo (fun io => io.count64 (bWinnower u) Off.winnower_TOKENS_LO 1)
  if o = .refused ∨ o = .stale then { s with expert := { s.expert with groups := s.expert.groups.map back } } else s

/-- The route group of a TOKENS request: opened when its port is an expert stage's (R312). -/
def openGroup (s : State) (r : UReq) (tag w : Nat) : State × Option Nat :=
  match r.group with
  | some g => (s, some g)
  | none =>
    match stageOf s (bitsOf w 15 15) (bitsOf w 29 16) with
    | none => (s, none)
    | some e =>
      let id := s.expert.nextGroup
      let g : RouteGroup := { id := id, die := e.die, retTmpl := e.retTmpl, retPort := e.retPort, tag := tag, cn := r.cn, svc := r.svc,
                              binding := r.binding, rel := r.rel, cls := r.cls }
      let s := { s with expert := { s.expert with groups := s.expert.groups ++ [g], nextGroup := id + 1 } }
      let s := match r.binding with
        | some b =>
          let q := seqOf s b.core b.slot
          let c := s.core b.core
          if q.serial = b.serial then s.setCore b.core { c with seqs := smPut {} b.slot { q with groups := q.groups + 1 } c.seqs } else s
        | none => s
      (s, some id)

/-- The last token of a request has been delivered: its group is sealed (R312). -/
def sealGroup (s : State) (g : Option Nat) : State :=
  match g with
  | none => s
  | some id =>
    let set : RouteGroup → RouteGroup := fun x => if x.id = id then { x with sealed := true } else x
    groupReturn { s with expert := { s.expert with groups := s.expert.groups.map set } } id

/-- A stored list of a LISTMERGE as a member's partial (R290). -/
def storedList (s : State) (core : Nat) (b : WinBlk) (i : WinIn) (m : Nat) : Partial :=
  let w := Num.width b.type / 8
  let es := (List.range b.len).map (fun j => (i.idx.at2 s core b.rowFirst m b.len j 4, i.inp.at2 s core b.rowFirst m b.len j w))
  let es := es.filter (fun e => e.1 ≠ padIdx)
  let rec_ := match i.sum with
    | .desc d => descBytes s core d (32 * (b.rowFirst + m)) 32
    | _ => []
  let listed := RowSum.total b.type (es.map Prod.snd)
  let stored := RowSum.ofStored b.type b.sum64 (fieldAt rec_ 0x10 8)
  { entries := es, tie := fieldAt rec_ 8 4, nan := fieldAt rec_ 12 4, sel := { listed with fin := if stored.pos = 0 ∧ stored.neg = 0 then stored.fin else listed.fin },
    rest := RowSum.ofStored b.type b.sum64 (fieldAt rec_ 0x18 8),
    poison := i.inp.rowPoison s core b.rowFirst m b.len w || i.idx.rowPoison s core b.rowFirst m b.len 4 || bitOf (fieldAt rec_ 2 2) 3 }

/-- How a row goes. -/
inductive RowEnd where
  | wait (code : Nat)
  | failed
  | row (m : Merged) (s : State) (passes : Nat)
  deriving Repr

/-- Read a row and select: scratch of a threshold row is written (R284 to R286, R292). -/
def readRow (s : State) (r : UReq) (i : WinIn) (row : Nat) : RowEnd :=
  let b : WinBlk := ⟨r.blk⟩
  let core := r.home
  let w := Num.width b.type / 8
  let reads : List (Option Nat) :=
    if b.op = 1 then
      (List.range b.rows).flatMap (fun m => [i.inp.rowFaults s (b.rowFirst + m) b.len false, i.idx.rowFaults s (b.rowFirst + m) b.len false])
        ++ [i.sum.byteFaults s (32 * b.rowFirst) (32 * b.rows) false]
    else [i.inp.rowFaults s (b.rowFirst + row) b.len false]
  let outs := [i.val.rowFaults s (b.outFirst + row) (if b.mode = 1 then 2 * b.k else b.k) true, i.oidx.rowFaults s (b.outFirst + row) b.k true,
    i.res.byteFaults s (b.resFirst + 32 * row) 32 true]
  match (reads ++ outs).findSome? id with
  | some c => if faultWaits c then .wait c else .failed
  | none =>
    if b.op = 1 then .row (mergeRows b.type b.k b.len ((List.range b.rows).map (fun m => storedList s core b i m))) s 1
    else
      let cs := (List.range b.len).map (fun j => (b.base + j, i.inp.at2 s core b.rowFirst row b.len j w))
      let p := selectRow b.type b.k (b.path ≠ 0) cs (i.inp.rowPoison s core b.rowFirst row b.len w)
      if b.path = 2 then
        let (es, n) := compaction b.type b.k cs
        match i.scr.byteFaults s 0 (8 * es.length) true with
        | some c => if faultWaits c then .wait c else .failed
        | none =>
          let bs := es.flatMap (fun e => leBytes 4 e.1 ++ leBytes 4 (outVal32 b.type e.2))
          .row ⟨p, 0, 0⟩ (i.scr.put s core 0 bs p.poison) n
      else .row ⟨p, 0, 0⟩ s (if b.path = 1 then cdiv b.k 64 else 1)

/-- The counters of a row (Table 10.7). -/
def countRow (s : State) (u : Nat) (b : WinBlk) (p : Partial) (passes : Nat) : State :=
  let n := if b.op = 1 then b.rows * b.len else b.len
  s.mapIo (fun io =>
    let w := bWinnower u
    let io := io.count64 w Off.winnower_ROWS_LO 1
    let io := io.count64 w Off.winnower_ELEMENTS_LO (n * passes)
    let io := io.count64 w Off.winnower_SELECTED_LO p.entries.length
    let io := io.count64 w Off.winnower_PASSES_LO passes
    let io := if b.path = 3 then io else io.count w (if b.path = 0 then Off.winnower_ROWS_SP else if b.path = 1 then Off.winnower_ROWS_MP else Off.winnower_ROWS_TH) 1
    let io := io.count w Off.winnower_NAN_ELEMS p.nan
    if p.poison then io.rise w 4 else io)

/-- Progress of a request's rows: the state, the request as it stands, bytes for the next buffer with their poison, the
partials of a TO_MERGE request, and how it ended. -/
structure WinRun where
  s : State
  r : UReq
  bytes : List Byte := []
  poison : Bool := false
  parts : List Partial := []
  ended : Option Nat := none
  waits : Bool := false
  /-- The fault at which it waits. -/
  waitCode : Nat := 0

/-- One row of a request (R288, R289, R292). -/
def winRow (u : Nat) (i : WinIn) (x : WinRun) (row : Nat) : WinRun :=
  if x.waits ∨ x.ended.isSome ∨ row < x.r.rows then x
  else
    let b : WinBlk := ⟨x.r.blk⟩
    let core := x.r.home
    let src : Source := .winnower u
    if b.mode = 2 ∧ (List.range 2).any (fun d => (x.s.caller d).held.any (fun k => k.src == src)) then { x with waits := true }
    else
      let toBuf : List Byte → List Byte := fun bs => match i.res with
        | .buf _ _ _ => bs
        | _ => []
      match readRow x.s x.r i row with
      | .wait c => { x with waits := true, waitCode := c }
      | .failed =>
        let bs := rowResult b.type b.sum64 Code.INPUT_FAILED b.path false ⟨[], 0, 0, {}, {}, false⟩
        let s := i.res.put x.s core (b.resFirst + 32 * row) (leBytes 2 Code.INPUT_FAILED ++ List.replicate 30 0) false
        { x with s := s, bytes := x.bytes ++ toBuf bs, ended := some Code.INPUT_FAILED }
      | .row m s passes =>
        if b.mode = 3 then { x with s := countRow s u b m.row passes, parts := x.parts ++ [m.row] }
        else
          let (s, out) := putRowOut s core b.type b.mode i.val i.oidx (b.outFirst + row) b.k m.row
          let bs := rowResult b.type b.sum64 Code.OK b.path (decide (0 < m.diffs)) m.row
          let s := i.res.put s core (b.resFirst + 32 * row) bs false
          let s := countRow s u b m.row passes
          let s := if b.mode = 2 then
              (match reqOut s x.r b.group with
               | some w => m.row.entries.foldl (fun s e =>
                   winToken s u x.r w x.r.group e.1 ((b.tag + row) % 2 ^ 32 * 2 ^ 32 + outVal32 b.type e.2)) s
               | none => s)
            else s
          { x with s := s, bytes := x.bytes ++ out ++ toBuf bs, poison := x.poison || m.row.poison, r := { x.r with rows := row + 1 } }

/-- Whether a request's output or results go to the next stage's buffer. -/
def winBuffered (i : WinIn) : Bool :=
  [i.val, i.oidx, i.res].any Src.isBuf

end Sys2Proof.Machine
end

