-- ==== Sys2Proof/Machine/Merge.lean ====
section
/-! DEFINITION. Winnower requests and the merge trees at work, and cancels of unit requests (R274, R280, R291 to R293). -/

namespace Sys2Proof.Machine

/-- Partials that an instance of a group waits for. -/
def MergeGroup.total (g : MergeGroup) : Nat := g.members + b2n g.remote

/-- Change the instances of the merge trees. -/
def setMergeInst (s : State) (x : MergeInst) : State :=
  let same : MergeInst → Bool := fun y => y.die == x.die && y.group == x.group && y.n == x.n
  let l := if s.merge.insts.any same then s.merge.insts.map (fun y => if same y then x else y) else s.merge.insts ++ [x]
  { s with merge := { s.merge with insts := l } }

/-- Remove an instance. -/
def dropMergeInst (s : State) (die g n : Nat) : State :=
  { s with merge := { s.merge with insts := s.merge.insts.filter (fun y => !(y.die == die && y.group == g && y.n == n)) } }

/-- The instance that a member's next request belongs to: its number, opened if need be, with the member joined. -/
def joinInst (s : State) (die g : Nat) (key rows : Nat) : Nat × Nat × MergeInst × State :=
  let who := smGet [] (groupKey die g) s.merge.who
  let who := if who.contains key then who else who ++ [key]
  let m := who.idxOf key
  let n := memberSent s die g m
  let x := (mergeInst s die g n).getD { die := die, group := g, n := n, rows := rows, parts := [] }
  let x := { x with joined := x.joined ++ [m], rows := if x.joined = [] then rows else x.rows }
  let s := { s with merge := { s.merge with who := smInsert (groupKey die g) who s.merge.who,
                                            sent := smPut 0 (die * 2 ^ 20 + g * 256 + m) (n + 1) s.merge.sent } }
  (m, n, x, setMergeInst s x)

/-- A member's rows complete with a CODE alone, and its request ends with it. -/
def endMember (s : State) (u : Nat) (r : UReq) (code : Nat) : State :=
  let b : WinBlk := ⟨r.blk⟩
  let s := if code = Code.OK then s
    else match reqSrc s r (b.f 0x18 2) true with
      | some res =>
        if (res.byteFaults s b.resFirst (32 * b.rows) true).isSome then s
        else (List.range b.rows).foldl (fun s k => res.put s r.home (b.resFirst + 32 * k) (leBytes 2 code ++ List.replicate 30 0) false) s
      | none => s
  let s := s.mapIo (fun io => io.count64 (bWinnower u) Off.winnower_REQUESTS_LO 1)
  endReq s false u r code

/-- An instance is aborted: its partials are dropped, the other members' rows complete MERGE_ABORTED (R291). -/
def mergeAbortOne (s : State) (die g n : Nat) : State :=
  match mergeInst s die g n with
  | none => s
  | some x =>
    if x.aborted then s
    else
      let mine : Nat × Nat × Nat × MemberPart → Bool := fun e => e.1 == die && e.2.1 == g && e.2.2.1 == n
      let ps := x.parts ++ (s.merge.flight.filter mine).map (fun e => e.2.2.2)
      let s := { s with merge := { s.merge with flight := s.merge.flight.filter (fun e => !mine e) } }
      let s := setMergeInst s { x with aborted := true, parts := [] }
      let s := s.mapIo (fun io => (io.count (bMerge die) Off.merge_ABORTED_CT 1).rise (bMerge die) 2)
      ps.foldl (fun s p => match p.req with
        | some (u, r) => endMember s u r Code.MERGE_ABORTED
        | none => s) s

/-- An abort on the sending die reaches the other die's instance, whose partial will not come (R291). -/
def mergeAbort (s : State) (die g n : Nat) : State :=
  let s := mergeAbortOne s die g n
  match mergeGroup s die g with
  | some d =>
    if !d.sender then s
    else match mergeGroup s (1 - die) g with
      | some e =>
        let x := (mergeInst s (1 - die) g n).getD { die := 1 - die, group := g, n := n, rows := 0, parts := [] }
        mergeAbortOne (setMergeInst s { x with joined := x.joined ++ [e.members] }) (1 - die) g n
      | none => s
  | none => s

/-- Outcome of writing a completed instance. -/
inductive MergeOut where
  | wait (code : Nat)
  | failed (code : Nat)
  | ok (s : State)
  deriving Repr

/-- Write the rows of a completed instance under the group's declaration (R288 to R291). -/
def writeInst (s : State) (g : MergeGroup) (ms : List Merged) (u : Nat) (r : UReq) : MergeOut :=
  let use : Bool → Nat → Option Src := fun want id => if want then reqSrc s r id true else some Src.none
  match use (g.outMode ≤ 1) g.outVal, use (g.outMode = 0) g.outIdx, use true g.res with
  | some val, some oidx, some res =>
    let n := ms.length
    if !val.outHold (if g.outMode = 1 then Num.U32 else g.type) (if g.outMode = 1 then 2 * g.k else g.k) g.outFirst n
      ∨ !oidx.outHold Num.U32 g.k g.outFirst n ∨ !res.bytesHold g.resFirst (32 * n) then .failed Code.BAD_COLUMN
    else
      let faults := (List.range n).flatMap (fun k =>
        [val.rowFaults s (g.outFirst + k) (if g.outMode = 1 then 2 * g.k else g.k) true, oidx.rowFaults s (g.outFirst + k) g.k true])
        ++ [res.byteFaults s g.resFirst (32 * n) true]
      match faults.findSome? id with
      | some c => if faultWaits c then .wait c else .failed Code.INPUT_FAILED
      | none =>
        let w := reqOut s r g.port
        let (s, grp) := match g.outMode, w with
          | 2, some w => openGroup s r g.tag w
          | _, _ => (s, none)
        let s := ms.zipIdx.foldl (fun s e =>
          let m := e.1
          let (s, _) := putRowOut s r.home g.type g.outMode val oidx (g.outFirst + e.2) g.k m.row
          let s := res.put s r.home (g.resFirst + 32 * e.2) (rowResult g.type g.sum64 Code.OK 3 (decide (0 < m.diffs)) m.row) false
          match g.outMode, w with
          | 2, some w => m.row.entries.foldl (fun s q =>
              winToken s u r w grp q.1 ((g.tag + e.2) % 2 ^ 32 * 2 ^ 32 + outVal32 g.type q.2)) s
          | _, _ => s) s
        .ok (sealGroup s grp)
  | _, _, _ => .failed Code.BAD_COLUMN

/-- Parts of an instance in member order. -/
def sortParts (ps : List MemberPart) : List MemberPart :=
  (List.range 65).flatMap (fun m => ps.filter (fun p => p.member == m))

/-- The oldest open instance of a group. -/
def oldestInst (s : State) (die g : Nat) : Option MergeInst :=
  (s.merge.insts.filter (fun x => x.die == die && x.group == g)).foldl (fun (a : Option MergeInst) x => match a with
    | none => some x
    | some y => if x.n < y.n then some x else some y) none

/-- Complete the oldest instances of a group, in instance order (R291). -/
def completeInsts (s : State) (die g : Nat) : Nat → State
  | 0 => s
  | fuel + 1 =>
    match mergeGroup s die g, oldestInst s die g with
    | some d, some x =>
      if x.aborted then
        if x.joined.length < d.total then s else completeInsts (dropMergeInst s die g x.n) die g fuel
      else if x.parts.length < d.total then s
      else
        let ps := sortParts x.parts
        let ms := (List.range x.rows).map (fun k =>
          mergeRows d.type d.k d.k (ps.map (fun p => p.rows.getD k ⟨[], 0, 0, {}, {}, false⟩)))
        let done : State → State := fun s =>
          let s := dropMergeInst s die g x.n
          let s := { s with merge := { s.merge with count := smMod 0 (groupKey die g) (fun n => n + 1) s.merge.count } }
          s.mapIo (fun io =>
            let b := bMerge die
            let io := io.count64 b Off.merge_INSTANCES_LO 1
            let io := io.count64 b Off.merge_ENTRIES_LO (ps.foldl (fun a p => a + p.rows.foldl (fun a q => a + q.entries.length) 0) 0)
            let io := io.count b Off.merge_DUPLICATES (ms.foldl (fun a m => a + m.dups) 0)
            let io := io.count b Off.merge_DUP_MISMATCHES (ms.foldl (fun a m => a + m.diffs) 0)
            if ms.any (fun m => decide (0 < m.diffs)) then io.rise b 3 else io)
        let ends : Nat → State → State := fun code s => ps.foldl (fun s p => match p.req with
          | some (u, r) => endMember s u r code
          | none => s) s
        if d.sender then
          let s := done s
          let p : MemberPart := { member := ((mergeGroup s (1 - die) g).map (fun e => e.members)).getD 0, req := none, rows := ms.map (fun m => m.row) }
          let s := { s with merge := { s.merge with flight := s.merge.flight ++ [(1 - die, g, x.n, p)] } }
          completeInsts (ends Code.OK s) die g fuel
        else match ps.findSome? (fun p => p.req) with
          | none => completeInsts (done s) die g fuel
          | some (u, r) =>
            match writeInst s d ms u r with
            | .wait c => s.migrFault c
            | .failed c => completeInsts (ends c (done s)) die g fuel
            | .ok s => completeInsts (ends Code.OK (done s)) die g fuel
    | _, _ => s

/-- A partial arrives at the merge tree (R291). -/
def mergeArrive (s : State) (die g : Nat) : State :=
  let s := match s.merge.flight.find? (fun e => e.1 == die && e.2.1 == g) with
    | none => s
    | some e =>
      let (_, _, n, p) := e
      let s := { s with merge := { s.merge with flight := s.merge.flight.erase e } }
      let x := (mergeInst s die g n).getD { die := die, group := g, n := n, rows := p.rows.length, parts := [] }
      let x := if p.req.isNone then { x with joined := x.joined ++ [p.member] } else x
      setMergeInst s (if x.aborted then x else { x with parts := x.parts ++ [p] })
  completeInsts s die g (s.merge.insts.length + 1)

/-- A Winnower serves its next request when it has the row's operation (R278 to R292). -/
def winStep (s : State) (u op : Nat) : State :=
  match nextReq (unitQueue s false u) (fun _ => false) with
  | none => s
  | some r =>
    let b : WinBlk := ⟨r.blk⟩
    let wu := bWinnower u
    if (if b.op = 1 then 1 else 0) ≠ op then s
    else match winCheck s u r with
    | .error c =>
      let bs := leBytes 2 c ++ List.replicate 30 0
      let s := s.mapIo (fun io => io.count wu Off.winnower_REFUSED 1)
      let s := if c = Code.BAD_GROUP ∨ c = Code.MERGE_MISMATCH then s.mapIo (fun io => io.count (bMerge (u / 6)) Off.merge_REFUSED 1) else s
      let s := match reqSrc s r (b.f 0x18 2) true with
        | some (.desc d) =>
          let x : Src := .desc d
          if x.bytesHold b.resFirst 32 ∧ b.resFirst % 32 = 0 ∧ (x.byteFaults s b.resFirst 32 true).isNone then x.put s r.home b.resFirst bs false
          else s.mapIo (fun io => io.capture wu c 0)
        | some _ => s
        | none => s.mapIo (fun io => io.capture wu c 0)
      endReq (s.mapIo (fun io => io.rise wu 3)) false u r c
    | .ok i =>
      let expert := b.mode == 2 && (match reqOut s r b.group with
        | some w => (stageOf s (bitsOf w 15 15) (bitsOf w 29 16)).isSome
        | none => false)
      if expert ∧ r.group.isNone ∧ !slotFree s (u / 6) r.svc then s
      else
        let (s1, g) := match b.mode, reqOut s r b.group with
          | 2, some w => openGroup s r b.tag w
          | _, _ => (s, none)
        let x := (List.range b.outRows).foldl (winRow u i) { s := s1, r := { r with group := g } }
        let done : State → State := fun s => s.mapIo (fun io => io.count64 wu Off.winnower_REQUESTS_LO 1)
        if x.waits then
          let t := (if winBuffered i ∨ b.mode = 3 then s else x.s).migrFault x.waitCode
          if winBuffered i ∨ b.mode = 3 then t
          else setQueue t false u ((unitQueue x.s false u).map (fun q => if q.serial = r.serial then x.r else q))
        else match x.ended with
          | some c =>
            let s := (done x.s).mapIo (fun io => (io.count wu Off.winnower_FAILED 1).rise wu 2)
            endReq (sealGroup s g) false u r c
          | none =>
            if b.mode = 3 then
              let die := u / 6
              let (m, n, y, s) := joinInst x.s die b.group (memberKey s u r) b.rows
              let s := setQueue s false u ((unitQueue s false u).filter (fun q => q.serial ≠ r.serial))
              if y.aborted then completeInsts (endMember s u r Code.MERGE_ABORTED) die b.group (s.merge.insts.length + 1)
              else
                let p : MemberPart := { member := m, req := some (u, r), rows := x.parts }
                pumpRuns (feedAll { s with merge := { s.merge with flight := s.merge.flight ++ [(die, b.group, n, p)] } })
            else
              let put := match winBuffered i, r.stage with
                | true, some (n, st, _) => putEntry x.s n (st + 1) x.bytes x.poison
                | _, _ => some x.s
              match put with
              | none => s
              | some s => endReq (sealGroup (done s) g) false u r Code.OK

/-- A request of a unit's queue is cancelled: dropped, with its merge instance aborted (R274, R293). -/
def cancelOne (s : State) (egp : Bool) (u : Nat) (r : UReq) : State :=
  let s := setQueue s egp u ((unitQueue s egp u).filter (fun q => q.serial ≠ r.serial))
  if egp then fenceForget s r.serial
  else
    let b : WinBlk := ⟨r.blk⟩
    let s := sealGroup s r.group
    if b.mode = 3 ∧ b.op = 0 ∧ (mergeGroup s (u / 6) b.group).any (fun g => g.svc == r.svc) then
      let (_, n, _, s) := joinInst s (u / 6) b.group (memberKey s u r) b.rows
      let s := mergeAbort s (u / 6) b.group n
      completeInsts s (u / 6) b.group (s.merge.insts.length + 1)
    else s

/-- Cancel every unit request of a kind, wherever it is: queued, or a part of an open merge instance. -/
def cancelReqs (s : State) (p : UReq → Bool) : State :=
  let s := (List.range 12).foldl (fun s u =>
    let s := ((unitQueue s true u).filter p).foldl (fun s r => cancelOne s true u r) s
    ((unitQueue s false u).filter p).foldl (fun s r => cancelOne s false u r) s) s
  let hit : MemberPart → Bool := fun q => match q.req with
    | some (_, r) => p r
    | none => false
  let insts := (s.merge.insts.filter (fun x => x.parts.any hit)).map (fun x => (x.die, x.group, x.n))
    ++ (s.merge.flight.filter (fun e => hit e.2.2.2)).map (fun e => (e.1, e.2.1, e.2.2.1))
  let clear : MemberPart → MemberPart := fun q => if hit q then { q with req := none } else q
  let s := { s with merge := { s.merge with
    insts := s.merge.insts.map (fun x => { x with parts := x.parts.map clear }),
    flight := s.merge.flight.map (fun e => (e.1, e.2.1, e.2.2.1, clear e.2.2.2)) } }
  insts.foldl (fun s e => completeInsts (mergeAbort s e.1 e.2.1 e.2.2) e.1 e.2.1 (s.merge.insts.length + 1)) s

/-- An EGP_RUN or WINNOW_RUN ends with a status before its blocks have: its requests are dropped (R357, R509). -/
def stopRun (s : State) (id status : Nat) : State :=
  match s.queue.runs.find? (fun u => u.id == id) with
  | none => s
  | some x =>
    let s := { s with queue := { s.queue with runs := s.queue.runs.filter (fun v => v.id ≠ id) } }
    let s := cancelReqs s (fun r => r.run == some id)
    let s := dropRef s x.cn x.desc
    finish s x.cmd status (leBytes 4 x.done ++ leBytes 4 x.refused ++ leBytes 4 (x.firstBad.getD 0xFFFFFFFF))

/-- The runs whose unit is reset end BLOCK_RESET (R509). -/
def resetRuns (s : State) (egp : Bool) (u : Nat) : State :=
  (s.queue.runs.filter (fun v => v.egp == egp && v.unit == u)).foldl (fun s v => stopRun s v.id Code.BLOCK_RESET) s

end Sys2Proof.Machine
end

