-- ==== Sys2Proof/Machine/Coll.lean ====
section
/-! DEFINITION. Groups and collectives of the Reel fabric: R458 to R462, R468. -/

namespace Sys2Proof.Machine

/-- A group of this device. -/
def groupOf (s : State) (g : Nat) : Option Group := smFind g s.fab.groups

/-- Rank of an address in a group, its place in the list (R459). -/
def rankOf (g : Group) (a : Nat) : Nat := g.members.idxOf a

/-- The group hash: the CRC-32C of the list's bytes (R459). -/
def groupHash (g : Group) : Nat := Hash.crc32c 0 (g.members.flatMap (fun a => leBytes 2 a))

/-- Members other than this device. -/
def othersOf (s : State) (g : Group) : List Nat := g.members.filter (fun a => some a ≠ ownAddr s)

/-- A group is in use while a collective of it runs, or while a fence waits for its markers (R459). -/
def groupInUse (s : State) (g : Nat) : Bool :=
  s.fab.colls.any (fun c => c.group == g) || s.egp.fences.any (fun f => match tabAt s f.table with
    | some t => t.group == g && decide (1 < t.peers) && f.phase == .close
    | none => false)

/-- Addresses that a LIST_DESC names. -/
def listAddrs (s : State) (d : Desc) (n : Nat) : List Nat := (List.range n).map (fun i => elemCode s 0 d [i])

/-- The checks of GROUP_SET in order (Table 17.6): the member list, or a code. -/
def groupSetCheck (s : State) (c : Cmd) : Except Nat (List Nat) :=
  let g := c.p 0x10 2
  let n := c.p 0x14 2
  match fabCheck s with
  | some e => .error e
  | none =>
    match useDescDir s (c.ring - 1) (c.p 0x12 2) false with
    | .error _ => .error Code.BAD_COLUMN
    | .ok d =>
      if d.etype ≠ Num.U16 ∨ d.rank ≠ 1 ∨ d.tier = 0 ∨ d.count < n then .error Code.BAD_COLUMN
      else match descFault s d 0 n false with
      | some e => .error e
      | none =>
        let l := listAddrs s d n
        let own := (ownAddr s).getD 0
        if g = 0 ∨ 1023 < g ∨ n < 2 ∨ 4096 < n ∨ l.any (fun a => decide (4096 ≤ a) || decide (1 < l.count a)) ∨ l.count own ≠ 1 then
          .error Code.FAB_GROUP_BAD
        else if (groupOf s g).any (fun q => decide (q.svc ≠ c.issuerSvc s) || groupInUse s g) then .error Code.FAB_GROUP_BUSY
        else .ok l

/-- GROUP_SET: the issuer's service defines a group; its instances count from the first again (R459). -/
def execGroupSet (c : Cmd) (s : State) : Host.Outcome State Fault Refusal :=
  match groupSetCheck s c with
  | .error e => .next (refuse s c e)
  | .ok l =>
    let g := c.p 0x10 2
    let s := { s with fab := { s.fab with groups := smInsert g ⟨c.issuerSvc s, l⟩ s.fab.groups, collNext := smErase g s.fab.collNext } }
    .next (finish s c Code.OK)

/-- GROUP_CLEAR: the group is removed (Table 17.6). -/
def execGroupClear (c : Cmd) (s : State) : Host.Outcome State Fault Refusal :=
  let g := c.p 0x10 2
  match groupOf s g with
  | none => .next (refuse s c Code.FAB_GROUP_BAD)
  | some q =>
    if q.svc ≠ c.issuerSvc s then .next (refuse s c Code.FAB_GROUP_BAD)
    else if groupInUse s g then .next (refuse s c Code.FAB_GROUP_BUSY)
    else
      let s := { s with fab := { s.fab with groups := smErase g s.fab.groups, collNext := smErase g s.fab.collNext } }
      .next (finish s c Code.OK)

namespace Desc

/-- SIZE of the outermost dimension. -/
def outer (d : Desc) : Nat := d.sz (d.rank - 1)

/-- Elements of a block: those with one value of the outermost coordinate (R460). -/
def perBlock (d : Desc) : Nat := (List.range (d.rank - 1)).foldl (fun a i => a * d.sz i) 1

/-- Bytes that `n` elements of a block travel as: the element codes packed, then the scale bytes of an MX type. -/
def travelBytes (d : Desc) (n : Nat) : Nat := (n * d.bits + 7) / 8 + (if Num.isMx d.etype then n / 32 else 0)

/-- Linear position of element `e` of block `b`: the outermost dimension is slowest. -/
def blockElem (d : Desc) (b e : Nat) : List Nat := d.coords (b * d.perBlock + e)

end Desc

/-- Codes of `n` elements from linear position `first`. -/
def spanCodes (s : State) (d : Desc) (first n : Nat) : List Nat := (List.range n).map (fun i => elemCode s 0 d (d.coords (first + i)))

/-- Scale bytes of the same span. -/
def spanScales (s : State) (d : Desc) (first n : Nat) : List Byte :=
  if Num.isMx d.etype then (List.range (n / 32)).map (fun i => BitVec.ofNat 8 (s.tNum 0 d.tier (d.scaleAddr (d.coords (first + 32 * i))) 1)) else []

/-- The bytes as which a span travels. -/
def spanBytes (s : State) (d : Desc) (first n : Nat) : List Byte := packCodes d.bits (spanCodes s d first n) ++ spanScales s d first n

/-- Which 64-byte units of a travelling span come from poisoned lines (R468). -/
def spanBad (s : State) (d : Desc) (first n : Nat) : List Bool :=
  (List.range (cdiv (d.travelBytes n) 64)).map (fun u =>
    (List.range n).any (fun i => decide (i * d.bits / 512 = u) && elemPoison s 0 d (d.coords (first + i))))

/-- Write a span of elements by code, with the poison of each element: a line of which any element is poisoned is
poisoned, one written whole and clean is clean, and one written in part keeps its poison (R405, R406, R468). -/
def putSpan (s : State) (d : Desc) (first : Nat) (codes : List Nat) (scales : List Byte) (bad : Nat → Bool) : State :=
  let cs : Nat → List Nat := fun i => d.coords (first + i)
  let s := codes.zipIdx.foldl (fun s e => putElem s 0 d (cs e.2) e.1 (bad e.2)) s
  let s := scales.zipIdx.foldl (fun s e => s.tWrite 0 d.tier (d.scaleAddr (cs (32 * e.2))) [e.1]) s
  let is := List.range codes.length
  clearWhole s 0 d (is.map (fun i => (cs i, !scales.isEmpty && i % 32 == 0))) ((is.filter bad).map (fun i => d.addrOf (cs i) / 64))

/-- Types that REDUCE_SCATTER takes (R460). -/
def reduceType (et : Nat) : Bool :=
  et == Num.FP32 || et == Num.BF16 || et == Num.FP16 || et == Num.I32 || et == Num.U32 || et == Num.I64 || et == Num.U64

/-- A descriptor of COLL_RUN: none for 0xFFFF, or BAD_COLUMN. -/
def collDesc (s : State) (cn id : Nat) (write : Bool) : Except Nat (Option Desc) :=
  if id = 0xFFFF then .ok none
  else match useDescDir s cn id write with
    | .error _ => .error Code.BAD_COLUMN
    | .ok d => .ok (some d)

/-- Why the descriptors of a collective do not fit it: COLL_SHAPE, then COLL_TYPE (R460). -/
def collShape (kind root rank G : Nat) (send recv : Option Desc) : Option Nat :=
  let tierBad := fun (d : Option Desc) => d.any (fun d => decide (d.tier = 0 ∨ d.tier = 4))
  let typeBad : Bool := match send, recv with
    | some a, some b => decide (a.etype ≠ b.etype)
    | _, _ => false
  if tierBad send ∨ tierBad recv then some Code.COLL_SHAPE
  else if kind = 2 then
    if G ≤ root ∨ send.isSome ≠ decide (rank = root) then some Code.COLL_SHAPE
    else match send, recv with
      | some a, some b => if a.count ≠ b.count then some Code.COLL_SHAPE else if typeBad then some Code.COLL_TYPE else none
      | _, _ => none
  else if root ≠ 0 then some Code.COLL_SHAPE
  else match send, recv with
    | some a, some b =>
      if a.outer ≠ G ∨ b.outer ≠ (if kind = 0 then G else 1) ∨ a.perBlock ≠ b.perBlock then some Code.COLL_SHAPE
      else if typeBad ∨ (kind = 1 ∧ !reduceType a.etype) then some Code.COLL_TYPE
      else none
    | _, _ => some Code.COLL_SHAPE

/-- The checks of COLL_RUN in order (Table 17.6). -/
def collCheck (s : State) (c : Cmd) : Except Nat (Group × Option Desc × Option Desc) :=
  match fabCheck s with
  | some e => .error e
  | none =>
    match groupOf s (c.p 0x10 2) with
    | none => .error Code.FAB_GROUP_BAD
    | some g =>
      let kind := c.p 0x12 1
      let op := c.p 0x13 1
      if g.svc ≠ c.issuerSvc s then .error Code.FAB_GROUP_BAD
      else if 2 < kind ∨ 2 < op ∨ (kind ≠ 1 ∧ op ≠ 0) then .error Code.COLL_KIND
      else match collDesc s (c.ring - 1) (c.p 0x14 2) false, collDesc s (c.ring - 1) (c.p 0x16 2) true with
      | .ok a, .ok b =>
        match collShape kind (c.p 0x18 2) (rankOf g ((ownAddr s).getD 0)) g.members.length a b with
        | some e => .error e
        | none => .ok (g, a, b)
      | _, _ => .error Code.BAD_COLUMN

/-- The bytes of a START (R461; their layout is the model's, log entry 30). -/
def startBytes (t : CollStart) : List Byte :=
  leBytes 1 t.kind ++ leBytes 1 t.op ++ leBytes 1 t.etype ++ [0] ++ leBytes 2 t.root ++ [0, 0] ++ leBytes 8 t.elems ++ leBytes 4 t.hash

/-- The START that a payload spells. -/
def parseStart (bs : List Byte) : CollStart :=
  ⟨fieldAt bs 0 1, fieldAt bs 1 1, fieldAt bs 2 1, fieldAt bs 4 2, fieldAt bs 8 8, fieldAt bs 16 4⟩

/-- Two STARTs of one instance agree; a broadcast member that names no descriptor gives neither type nor size. -/
def startsAgree (a b : CollStart) : Bool :=
  let open_ := decide (a.kind = 2) && (decide (a.elems = 0) || decide (b.elems = 0))
  a.kind == b.kind && a.op == b.op && a.root == b.root && a.hash == b.hash && (open_ || (a.etype == b.etype && a.elems == b.elems))

/-- FLOW of a collective's packets (Table 17.5). -/
def collFlow (g inst : Nat) : Nat := 0x02000000 + g * 256 + inst % 256

/-- Store a collective. -/
def setColl (s : State) (c : Coll) : State :=
  { s with fab := { s.fab with colls := s.fab.colls.map (fun x => if x.group = c.group ∧ x.inst = c.inst then c else x) } }

/-- A collective of this device. -/
def collOf (s : State) (g i : Nat) : Option Coll := s.fab.colls.find? (fun c => c.group == g && c.inst == i)

/-- What a collective sends to member `j`: the linear span of its send descriptor (R460). -/
def collSpan (c : Coll) (j : Nat) : Option (Desc × Nat × Nat) :=
  c.send.map (fun d => if c.start.kind = 2 then (d, 0, d.count) else (d, j * d.perBlock, d.perBlock))

/-- The data of a collective goes to a member in packets of 4,096 bytes (R461, R468). -/
def collSend (s : State) (c : Coll) (a j : Nat) : State :=
  match collSpan c j with
  | none => s
  | some (d, first, n) =>
    let bs := spanBytes s d first n
    let bad := spanBad s d first n
    (List.range (cdiv bs.length 4096)).foldl (fun s k =>
      let p := ((bad.drop (64 * k)).take 64).zipIdx.foldl (fun x e => if e.1 then x + 2 ^ e.2 else x) 0
      transmit s a 6 (collFlow c.group c.inst) p (c.inst % 2 ^ 32 + 64 * k * 2 ^ 32) ((bs.drop (4096 * k)).take 4096) (.coll c.group c.inst)) s

/-- A collective ends: its references are released and its command completes. -/
def collEnd (s : State) (c : Coll) (status : Nat) (result : List Byte) : State :=
  let s := { s with fab := { s.fab with colls := s.fab.colls.filter (fun x => !(x.group == c.group && x.inst == c.inst)) } }
  finish (dropRefs s c.cn c.refs) c.cmd status result

/-- The instance number as RESULT (R461). -/
def collResult (c : Coll) : List Byte := leBytes 4 c.inst

/-- A collective ends early: ABORT to every other member, and the command completes with a code (R462). -/
def collAbort (s : State) (c : Coll) (code : Nat) : State :=
  match groupOf s c.group with
  | none => collEnd s c code (collResult c)
  | some g =>
    let s := (othersOf s g).foldl (fun s a =>
      transmit s a 5 (collFlow c.group c.inst) 0 (2 ^ 56 + c.inst % 2 ^ 32) [] (.coll c.group c.inst)) s
    collEnd s c code (collResult c)

/-- A collective goes on: STARTs to every member, then data to each member whose START has come, while this device
may send and its send descriptor can be read (R454, R461). -/
def collPump (s : State) (g i : Nat) : State :=
  match collOf s g i, groupOf s g with
  | some c, some q =>
    let s := (othersOf s q).foldl (fun s a =>
      match collOf s g i with
      | some c =>
        if c.told.contains a ∨ !maySend s then s
        else setColl (transmit s a 5 (collFlow g i) 0 (i % 2 ^ 32) (startBytes c.start) (.coll g i)) { c with told := c.told ++ [a] }
      | none => s) s
    let bad := c.send.bind (fun d => descFault s d 0 d.count false)
    match bad with
    | some e => if faultWaits e then s.migrFault e else collAbort s c e
    | none =>
      (othersOf s q).foldl (fun s a =>
        match collOf s g i with
        | some c =>
          if !c.starts.contains a ∨ c.sent.contains a ∨ !maySend s ∨ !c.told.contains a then s
          else setColl (collSend s c a (rankOf q a)) { c with sent := c.sent ++ [a] }
        | none => s) s
  | _, _ => s

/-- Every collective goes on as far as it can. -/
def pumpColls (s : State) : State := s.fab.colls.foldl (fun s c => collPump s c.group c.inst) s

/-- A START or an ABORT reaches this device's instance (R461, R462). -/
def collCtrl (s : State) (c : Coll) (src kind : Nat) (payload : List Byte) : State :=
  if kind = 1 then collEnd s c Code.COLL_ABORTED (collResult c)
  else if !startsAgree (parseStart payload) c.start then collEnd s c Code.COLL_MISMATCH (collResult c)
  else if c.starts.contains src then s
  else collPump (setColl s { c with starts := c.starts ++ [src] }) c.group c.inst

/-- COLL_CTRL: a START or ABORT; one that comes before this device's own command waits for it (R461, R462). -/
def execCollCtrl (p : Pkt) (s : State) : Host.Outcome State Fault Refusal :=
  let (s, ok) := e2eAccept s p
  if !ok then .next s
  else
    let s := e2eReply s p 0
    let g := p.flow / 256 % 65536
    let i := p.arg % 2 ^ 32
    match collOf s g i with
    | some c => .next (collCtrl s c p.src (p.arg / 2 ^ 56) p.payload)
    | none =>
      if i ≤ smGet 0 g s.fab.collNext then .next s
      else .next { s with fab := { s.fab with early := s.fab.early ++ [p] } }

/-- COLL_RUN: the n-th of a group forms instance n: STARTs go out, and those that came early are taken (R460, R461). -/
def execCollRun (c : Cmd) (s : State) : Host.Outcome State Fault Refusal :=
  match collCheck s c with
  | .error e => .next (refuse s c e)
  | .ok (g, send, recv) =>
    let gi := c.p 0x10 2
    let n := smGet 0 gi s.fab.collNext + 1
    let d := send.or recv
    let kind := c.p 0x12 1
    let elems := match d with
      | some d => if kind = 2 then d.count else d.perBlock
      | none => 0
    let refs := [c.p 0x14 2, c.p 0x16 2].filter (fun i => i ≠ 0xFFFF)
    let x : Coll :=
      { group := gi, inst := n, cmd := c, cn := c.ring - 1, send := send, recv := recv, refs := refs, acceptedAt := s.io.tb,
        timeout := c.p 0x1C 4,
        start := { kind := kind, op := c.p 0x13 1, etype := (d.map (fun d => d.etype)).getD 0, root := c.p 0x18 2, elems := elems, hash := groupHash g } }
    let s := takeRefs s (c.ring - 1) refs
    let mine : Pkt → Bool := fun p => p.flow / 256 % 65536 == gi && p.arg % 2 ^ 32 == n
    let early := s.fab.early.filter mine
    let s := { s with fab := { s.fab with colls := s.fab.colls ++ [x], collNext := smPut 0 gi n s.fab.collNext,
                                          early := s.fab.early.filter (fun p => !mine p) } }
    let s := collPump s gi n
    .next (early.foldl (fun s p => match collOf s gi n with
      | some c => collCtrl s c p.src (p.arg / 2 ^ 56) p.payload
      | none => s) s)

/-- COLL_DATA: block data of a member is kept until the instance completes (R461, R468). -/
def execCollData (p : Pkt) (s : State) : Host.Outcome State Fault Refusal :=
  let (s, ok) := e2eAccept s p
  if !ok then .next s
  else
    let s := e2eReply s p 0
    let g := p.flow / 256 % 65536
    match collOf s g (p.arg % 2 ^ 32), groupOf s g with
    | some c, some q =>
      let base := rankOf q p.src * 2 ^ 40
      let off := p.arg / 2 ^ 32 * 64
      let got := p.payload.zipIdx.foldl (fun m e => smInsert (base + off + e.2) e.1 m) c.got
      let bad := (List.range 64).foldl (fun m i => if bitOf p.poison i then smPut false (base + off / 64 + i) true m else m) c.bad
      .next (setColl s { c with got := got, bad := bad })
    | _, _ => .next s

/-- Ranks whose data a member receives from others (R460). -/
def collFrom (c : Coll) (rank G : Nat) : List Nat :=
  if c.recv.isNone then []
  else if c.start.kind = 2 then (if rank = c.start.root then [] else [c.start.root])
  else (List.range G).filter (fun m => m ≠ rank)

/-- Bytes that a member is to receive from each of those ranks. -/
def collLen (c : Coll) : Nat :=
  match c.recv with
  | some d => d.travelBytes (if c.start.kind = 2 then d.count else d.perBlock)
  | none => 0

/-- All of a rank's data has come. -/
def collWhole (c : Coll) (m : Nat) : Bool :=
  (c.got.filter (fun e => decide (e.1 / 2 ^ 40 = m))).length == collLen c

/-- Element `e` of a travelling span. -/
def travelCode (w : Nat) (bs : List Byte) (e : Nat) : Nat :=
  bitsOf (fieldAt bs (e * w / 8) ((e * w % 8 + w + 7) / 8)) (e * w % 8 + w - 1) (e * w % 8)

/-- Ascending-rank reduction of one element (R461). -/
def reduceElem (et op : Nat) (xs : List Nat) : Nat :=
  match xs with
  | [] => 0
  | x :: rest =>
    if Num.isInt et then
      rest.foldl (fun a b =>
        if op = 0 then (a + b) % 2 ^ Num.width et
        else
          let up := decide (Num.intOf et a < Num.intOf et b)
          if up = decide (op = 1) then b else a) x
    else
      let f : Nat → Nat := fun c => toF32 (Num.value et c)
      let acc := rest.foldl (fun a b =>
        if op = 0 then rne32Add a (f b) else (fMinMax Num.FP32 (decide (op = 1)) a (f b)).1) (f x)
      (Num.convert Num.FP32 et 0 true acc).1

/-- What a member receives from rank `m`, as bytes and as poisoned units: its own contribution is read now. -/
def collIn (s : State) (c : Coll) (rank : Nat) (m : Nat) : List Byte × (Nat → Bool) :=
  if m = rank then
    match collSpan c rank with
    | some (d, first, n) =>
      let b := spanBad s d first n
      (spanBytes s d first n, fun u => b.getD u false)
    | none => ([], fun _ => false)
  else ((List.range (collLen c)).map (fun i => smGet 0 (m * 2 ^ 40 + i) c.got), fun u => smGet false (m * 2 ^ 40 + u) c.bad)

/-- One block that came whole is written to a receive block (R460, R468). -/
def collPut (s : State) (d : Desc) (first n : Nat) (x : List Byte × (Nat → Bool)) : State :=
  let codes := (List.range n).map (travelCode d.bits x.1)
  putSpan s d first codes (x.1.drop ((n * d.bits + 7) / 8)) (fun i => x.2 (i * d.bits / 512))

/-- The receive descriptor of an instance is written (R460, R461). -/
def collWrite (s : State) (c : Coll) (rank G : Nat) : State :=
  match c.recv with
  | none => s
  | some d =>
    if c.start.kind = 0 then
      let ins := (List.range G).map (collIn s c rank)
      ins.zipIdx.foldl (fun s e => collPut s d (e.2 * d.perBlock) d.perBlock e.1) s
    else if c.start.kind = 2 then collPut s d 0 d.count (collIn s c rank c.start.root)
    else
      let ins := (List.range G).map (collIn s c rank)
      let codes := (List.range d.perBlock).map (fun e => reduceElem d.etype c.start.op (ins.map (fun x => travelCode d.bits x.1 e)))
      putSpan s d 0 codes [] (fun i => ins.any (fun x => x.2 (i * d.bits / 512)))

/-- COLL_COMPLETE: an instance whose data has all come is written and completes, once everything that it sent has been
acknowledged; one that still has something to send goes on (R461). -/
def execCollComplete (group inst : Nat) (s : State) : Host.Outcome State Fault Refusal :=
  let s := collPump s group inst
  match collOf s group inst, groupOf s group with
  | some c, some g =>
    let rank := rankOf g ((ownAddr s).getD 0)
    let G := g.members.length
    let others := othersOf s g
    if others.any (fun a => !c.starts.contains a || !c.sent.contains a) ∨ (collFrom c rank G).any (fun m => !collWhole c m)
      ∨ s.fab.out.any (fun o => o.why == .coll group inst) then .next s
    else match c.recv.bind (fun d => descFault s d 0 d.count true) with
    | some e => if faultWaits e then .next (s.migrFault e) else .next (collAbort s c e)
    | none => .next (collEnd (collWrite s c rank G) c Code.OK (collResult c))
  | _, _ => .next s

/-- COLL_TIMEOUT: an instance that has not completed TIMEOUT ticks after acceptance is aborted (R462). -/
def execCollTimeout (group inst : Nat) (s : State) : Host.Outcome State Fault Refusal :=
  match collOf s group inst with
  | some c => if c.timeout ≠ 0 ∧ c.acceptedAt + c.timeout ≤ s.io.tb then .next (collAbort s c Code.COLL_TIMEOUT) else .next s
  | none => .next s

end Sys2Proof.Machine
end

