-- ==== Sys2Proof/Machine/Streams.lean ====
section
/-! DEFINITION. Opening, advancing and serving streams: R108 to R118, R121, R122, R127, R129. -/

namespace Sys2Proof.Machine

/-- A stream open block as read (Table 5.2). -/
structure Sob where
  bs : List Byte
  deriving DecidableEq, Repr

namespace Sob
def u8 (b : Sob) (o : Nat) : Nat := fieldAt b.bs o 1
def u16 (b : Sob) (o : Nat) : Nat := fieldAt b.bs o 2
def u32 (b : Sob) (o : Nat) : Nat := fieldAt b.bs o 4
def kind (b : Sob) : Nat := b.u8 1
def listFmt (b : Sob) : Nat := b.u8 2 % 4
def isLocal (b : Sob) : Bool := bitOf (b.u8 3) 0
def zone (b : Sob) : Bool := bitOf (b.u8 3) 1
def mcast (b : Sob) : Bool := bitOf (b.u8 3) 2
def group (b : Sob) : Nat := b.u8 0x12
def start (b : Sob) (d : Nat) : Nat := b.u32 (0x20 + 4 * d)
def count (b : Sob) (d : Nat) : Nat := b.u32 (0x38 + 4 * d)
def stepBits (b : Sob) (d : Nat) : Nat := b.u32 (0x50 + 4 * d)
def step (b : Sob) (d : Nat) : Int := signed 32 (b.stepBits d)
def orderWord (b : Sob) : Nat := b.u32 0x68 % 2 ^ 24
def order (b : Sob) (l : Nat) : Nat := bitsOf b.orderWord (4 * l + 3) (4 * l)
def isList (b : Sob) : Bool := b.kind == 1 || b.kind == 3
def isWalk (b : Sob) : Bool := b.kind == 0 || b.kind == 2
def writes (b : Sob) : Bool := b.kind == 2 || b.kind == 3
end Sob

/-- One zone predicate term of 32 bytes, or a refusal (R117, Table 5.5): none for a disabled all-zero term. -/
def parseTerm (bs : List Byte) : Except Unit (Option ZoneTerm) :=
  let w := fieldAt bs 2 1
  let ty := fieldAt bs 1 1
  let lo := fieldAt bs 8 8
  let hi := fieldAt bs 16 8
  if !bitOf w 7 then (if leNat bs = 0 then .ok none else .error ())
  else if (ty ≠ 0x07 ∧ ty ≠ 0x08 ∧ ty ≠ 0x10) ∨ 7 < fieldAt bs 0 1 then .error ()
  else if ty = 0x10 ∧ (Num.isNaN (Num.value Num.FP64 lo) ∨ Num.isNaN (Num.value Num.FP64 hi)) then .error ()
  else if bitsOf w 6 4 ≠ 0 ∨ fieldAt bs 3 5 ≠ 0 ∨ fieldAt bs 24 8 ≠ 0 then .error ()
  else .ok (some ⟨fieldAt bs 0 1, ty, bitOf w 0, bitOf w 1, bitOf w 2, bitOf w 3, lo, hi⟩)

/-- The four terms of a zone predicate block (R117): at least one is enabled. -/
def parseTerms (bs : List Byte) : Option (List ZoneTerm) :=
  let ts := (List.range 4).map (fun i => parseTerm ((bs.drop (32 * i)).take 32))
  if ts.any (fun t => match t with | .error _ => true | .ok _ => false) then none
  else
    let l := ts.filterMap (fun t => match t with | .ok o => o | .error _ => none)
    if l = [] then none else some l

/-- The context, service and task for which a stream is opened. -/
structure Opener where
  cn : Nat
  svc : Nat
  task : Nat
  deriving DecidableEq, Repr

/-- The data descriptor of an open, from SRAM or from the context's table (checks 4 and 5 of Table 5.3). -/
def sobDesc (s : State) (n : Nat) (o : Opener) (b : Sob) : Except Nat Desc :=
  if b.isLocal then
    let off := b.u32 8
    let bs := (s.core n).bytes off 128
    if off % 128 ≠ 0 then .error Code.BAD_ALIGN
    else if 0x400000 < off + 128 then .error Code.EXTENT_RANGE
    else match checkDesc s ⟨o.cn + 1, o.svc⟩ bs with
      | some (c, _) => .error c
      | none =>
        let d := parseDesc bs
        if (if b.writes then d.canWrite else d.canRead) then .ok d else .error Code.DESC_DIR
  else useDescDir s o.cn (b.u16 4) b.writes

/-- Reserved and unused fields of a stream open block (check 6 of Table 5.3). -/
def sobRsv (b : Sob) (rank : Nat) : Bool :=
  let walkZero := (List.range 6).all (fun d => decide (b.start d = 0) && decide (b.count d = 0) && decide (b.stepBits d = 0)) &&
    decide (b.orderWord = 0)
  let listZero := decide (b.listFmt = 0) && decide (b.u16 6 = 0) && decide (b.u32 0x14 = 0) && decide (b.u32 0x18 = 0)
  decide (b.u8 2 / 4 ≠ 0) || decide (b.u8 3 / 8 ≠ 0) || decide (b.u8 0x13 ≠ 0) || decide (b.u8 0x6B ≠ 0)
    || decide (leNat (b.bs.drop 0x6C) ≠ 0) || (b.isLocal && decide (b.u16 4 ≠ 0))
    || (!b.mcast && decide (b.kind ≠ 4) && decide (b.group ≠ 0))
    || (if b.isWalk then
          !listZero || (List.range 6).any (fun d => decide (rank ≤ d) &&
            (decide (b.start d ≠ 0) || decide (b.count d ≠ 1) || decide (b.stepBits d ≠ 0)))
        else !walkZero || (!b.isList && !listZero))

/-- BAD_WALK_ORDER: the low RANK nibbles are no permutation, or a higher one is not zero. -/
def badOrder (b : Sob) (rank : Nat) : Bool :=
  !((List.range rank).all (fun d => (List.range rank).any (fun l => decide (b.order l = d))))
    || (List.range 6).any (fun l => decide (rank ≤ l) && decide (b.order l ≠ 0))

/-- WALK_RANGE: some visited coordinate lies outside the grid. -/
def badWalk (b : Sob) (d : Desc) : Bool :=
  !(d.dims.any (fun i => decide (b.count i = 0))) && d.dims.any (fun i =>
    let last : Int := (b.start i : Int) + b.step i * ((b.count i : Int) - 1)
    decide ((d.grid i : Int) ≤ (b.start i : Int)) || decide (last < 0) || decide ((d.grid i : Int) ≤ last))

/-- Two spans meet. -/
def spansMeet (a n b m : Nat) : Bool := decide (a < b + m) && decide (b < a + n)

/-- BUF_OVERLAP: another open stream's slots or a home shard area (check 12). -/
def slotsMeet (s : State) (n k base len : Nat) : Bool :=
  (s.core n).strms.any (fun e => decide (e.1 ≠ k) && decide (e.2.st ≠ 0) && spansMeet base len e.2.bufBase (5 * slotLen s n e.2))
  || s.fetch.sets.any (fun r => decide (r.die = dieOfCore n) && spansMeet base len r.base (r.tiles * r.bytes))

/-- The multicast declaration that an open joins (R121). -/
def mcastOf (s : State) (n g : Nat) : Option McastDecl :=
  s.fetch.mcasts.find? (fun m => decide (m.die = dieOfCore n) && decide (m.group = g))

/-- FEATURE_OFF, MCAST_MISMATCH and RESIDENT_SET (check 15, R121, R122). -/
def sharedCheck (s : State) (n : Nat) (b : Sob) : Option Nat :=
  if b.mcast then
    match mcastOf s n b.group with
    | none => some Code.MCAST_MISMATCH
    | some m =>
      if b.isLocal ∨ m.descId ≠ b.u16 4 ∨ m.order ≠ b.orderWord
        ∨ (List.range 6).any (fun d => decide (m.start.getD d 0 ≠ b.start d) || decide (m.count.getD d 1 ≠ b.count d)
            || decide (m.step.getD d 0 ≠ b.step d)) then some Code.MCAST_MISMATCH
      else none
  else if b.kind = 4 then
    if !feature s.io 8 then some Code.FEATURE_OFF
    else if (resSet s (dieOfCore n) b.group).isNone then some Code.RESIDENT_SET
    else none
  else none

/-- The checks of STREAM.OPEN in the order of Table 5.3: the stream to open, or the first code that fails. -/
def openCheck (s : State) (n k : Nat) (o : Opener) (off : Nat) : Except Nat Strm :=
  let b : Sob := ⟨(s.core n).bytes off 128⟩
  if (s.strm n k).st ≠ 0 then .error Code.STREAM_BUSY
  else if b.u8 0 ≠ 1 then .error Code.BAD_VERSION
  else if 4 < b.kind ∨ (b.zone ∧ b.kind ≠ 0 ∧ b.kind ≠ 1) ∨ (b.mcast ∧ b.kind ≠ 0) ∨ (b.kind = 4 ∧ 3 < b.group) then
    .error Code.BAD_STREAM_KIND
  else match sobDesc s n o b with
  | .error c => .error c
  | .ok d =>
    let list : Except Nat (Option Desc) := if b.isList then
        (match useDescDir s o.cn (b.u16 6) false with | .error c => .error c | .ok l => .ok (some l)) else .ok none
    let zone : Except Nat (Option Desc) := if b.zone then
        (match useDescDir s o.cn (b.u16 0x10) false with | .error c => .error c | .ok z => .ok (some z)) else .ok none
    match list, zone with
    | .error c, _ => .error c
    | _, .error c => .error c
    | .ok list, .ok zone =>
      let x : Strm :=
        { st := if b.mcast || b.kind == 4 then 6 else 1, kind := b.kind, group := b.group, desc := some d,
          inst := (s.core n).opens + 1, cn := o.cn, svc := o.svc, task := o.task,
          refs := (if b.isLocal then [] else [b.u16 4]) ++ (if b.isList then [b.u16 6] else []) ++ (if b.zone then [b.u16 0x10] else []),
          start := (List.range 6).map b.start, count := (List.range 6).map b.count, step := (List.range 6).map b.step,
          order := (List.range d.rank).map b.order, bufBase := b.u32 0x0C,
          list := list.map (fun l => (l, b.listFmt, b.u32 0x14)), listCount := b.u32 0x18,
          heldAt := s.io.tb, waitAt := s.io.tb }
      if sobRsv b d.rank then .error Code.RSV_NONZERO
      else if b.isList ∧ b.listFmt = 3 then .error Code.BAD_LIST_FMT
      else if b.isWalk ∧ badOrder b d.rank then .error Code.BAD_WALK_ORDER
      else if (b.isWalk ∧ badWalk b d) ∨ list.any (fun l => decide (listLen l b.listFmt < b.u32 0x14 + b.u32 0x18)) then
        .error Code.WALK_RANGE
      else if b.kind = 2 ∧ !d.accum ∧ d.dims.any (fun i => decide (b.step i = 0) && decide (1 < b.count i)) then
        .error Code.ALIAS_WRITE
      else if 0x400000 < x.bufBase + 5 * slotLen s n x ∨ x.bufBase % 64 ≠ 0 then .error Code.BUF_RANGE
      else if slotsMeet s n k x.bufBase (5 * slotLen s n x) then .error Code.BUF_OVERLAP
      else
        let zp := b.u32 0x1C
        let terms := if zp % 64 = 0 ∧ zp + 128 ≤ 0x400000 then parseTerms ((s.core n).bytes zp 128) else none
        match zone, terms with
        | some _, none => .error Code.BAD_ZONE_TERM
        | some z, some ts =>
          if z.etype ≠ Num.U64 ∨ z.rank ≠ 2 ∨ z.sz 0 ≠ 16 ∨ z.sz 1 < d.blocks then .error Code.ZONE_MAP_SHORT
          else match sharedCheck s n b with
            | some c => .error c
            | none => .ok { x with zone := some (z, ts) }
        | none, _ => match sharedCheck s n b with
            | some c => .error c
            | none => .ok x

/-- GANG_START or ROTATION_START when the last member has joined (R121, R122). -/
def startGang (s : State) (g : Gang) : State :=
  let ms := (openStrms s).filter (fun e => e.2.2.gang == some g.id)
  let due := if g.resident then
      (List.range 48).all (fun p => s.io.isOffline (bCore (48 * g.die + p)) || ms.any (fun e => decide (e.1 = 48 * g.die + p)))
    else match s.fetch.mcasts.find? (fun m => decide (m.die = g.die) && decide (m.group = g.group)) with
      | some m => decide (m.members ≤ ms.length)
      | none => false
  if g.running ∨ !due then s
  else
    let s := { s with fetch := { s.fetch with gangs := s.fetch.gangs.map (fun h => if h.id = g.id then { h with running := true } else h) } }
    let s := mapStrms s (ms.map (fun e => (e.1, e.2.1))) (fun y => { y with st := 1 })
    match ms with
    | (n, k, _) :: _ => fetchMore s n k
    | [] => s

/-- A stream that shares weights joins the instance that is forming, or a new one (R121, R122). -/
def joinGang (s : State) (n k : Nat) : State :=
  let x := s.strm n k
  let die := dieOfCore n
  let forming := s.fetch.gangs.find? (fun g => decide (g.die = die) && decide (g.group = x.group) &&
    (g.resident == (x.kind == 4)) && !g.running)
  let g := forming.getD { id := s.fetch.nextGang, die := die, group := x.group, resident := x.kind == 4 }
  let s := if forming.isSome then s
    else { s with fetch := { s.fetch with gangs := s.fetch.gangs ++ [g], nextGang := s.fetch.nextGang + 1 } }
  startGang (s.setStrm n k { x with gang := some g.id }) g

/-- Perform an open that has passed its checks: references taken, per-open registers cleared, run-ahead begun. -/
def doOpen (s : State) (n k : Nat) (x : Strm) : State :=
  let s := takeRefs s x.cn x.refs
  let s := s.setCore n { s.core n with opens := x.inst }
  let s := s.setStrm n k x
  let b := (bCarter n).base + ssOff k 0
  let s := s.mapIo (fun io =>
    let io := io.setReg (b + Off.carter_SS_CODE) 0
    let io := io.setReg64 (b + Off.carter_SS_TILES_LO) 0
    let io := io.setReg64 (b + Off.carter_SS_FADDR_LO) 0
    let io := (List.range 6).foldl (fun io i => io.setReg (b + Off.carter_SS_POSd0 + 4 * i) 0) io
    io.setReg (b + Off.carter_SS_LIST_POS) 0)
  if x.st = 6 then joinGang s n k else fetchMore s n k

/-- STREAM.OPEN for an opener: the code that it returns (R110); a refusal leaves the stream as it was and sets
OPEN_REFUSED. -/
def openStrm (s : State) (n k : Nat) (o : Opener) (off : Nat) : State × Nat :=
  match openCheck s n k o off with
  | .ok x => (doOpen s n k x, 0)
  | .error c =>
    (s.mapIo (fun io => (io.setReg ((bCarter n).base + ssOff k Off.carter_SS_CODE) c).rise (bCarter n) 3), c)

/-- Hold-time estimate after a release (R119). -/
def nextCpt (first : Bool) (cpt sample : Nat) : Nat :=
  if first then sample else ((cpt : Int) + ((sample : Int) - (cpt : Int)) / 8).toNat

/-- STREAM.ADVANCE acquires the next complete tile of a read stream, or ends; false when the tile is awaited. -/
def acquireRead (s : State) (n k : Nat) : State × Bool :=
  let x := s.strm n k
  match x.tiles with
  | t :: rest =>
    if t.wait = [] then
      let s := s.setStrm n k { x with held := some t, tiles := rest, waiting := false, heldAt := s.io.tb,
                                      lastPos := t.pos, lastSlot := slotOff s n x t.ord }
      let s := s.mapIo (fun io => io.count64 (bCarter n) (ssOff k Off.carter_SS_TILES_LO) 1)
      (fetchMore s n k, true)
    else if x.st = 7 then (s.setStrm n k { x with waiting := false }, true)
    else (s, false)
  | [] =>
    if x.st = 7 then (s.setStrm n k { x with waiting := false }, true)
    else if (x.st = 1 ∨ x.st = 2) ∧ !x.halting ∧ strmTotal s n x ≤ x.next then
      (s.setStrm n k { x with st := 2, waiting := false }, true)
    else (s, false)

/-- STREAM.ADVANCE of a read stream (R113). -/
def advanceRead (s : State) (n k : Nat) : State × Bool :=
  let x := s.strm n k
  let s := if x.waiting then s
    else
      let cpt := if x.held.isSome then nextCpt (x.taken == 0) x.cpt (cyclesOf (s.io.tb - x.heldAt)) else x.cpt
      s.setStrm n k { x with held := none, taken := x.taken + b2n x.held.isSome, cpt := cpt, waiting := true, waitAt := s.io.tb }
  acquireRead (fetchMore s n k) n k

/-- STREAM.ADVANCE acquires the next free slot of a write stream, or ends; false when none is free. -/
def acquireWrite (s : State) (n k : Nat) : State × Bool :=
  let x := s.strm n k
  if x.st = 7 then (s.setStrm n k { x with waiting := false }, true)
  else if coreMode s n ≠ 0 ∧ x.tiles ≠ [] then (s, false)
  else if x.st = 3 ∧ 5 ≤ x.tiles.length then (s, false)
  else match nextTile s n x with
    | .done => (s.setStrm n k { x with st := if x.st = 1 then 2 else x.st, waiting := false }, true)
    | .skip => (s, false)
    | .hold => (s, false)
    | .fault c a cs => (haltStrm s n k ⟨c, x.next, cs, a⟩, false)
    | .tile blk oob _ =>
      if 5 ≤ x.tiles.length then (s, false)
      else
        let s := if oob then countOob s n k x.next else s
        (s.setStrm n k { x with held := some { pos := x.next, ord := x.ord, blk := blk }, next := x.next + 1,
                                ord := x.ord + 1, waiting := false, heldAt := s.io.tb, lastPos := x.next,
                                lastSlot := slotOff s n x x.ord }, true)

/-- STREAM.ADVANCE of a write stream: the held slot is released for writing (R114). -/
def advanceWrite (s : State) (n k : Nat) : State × Bool :=
  let x := s.strm n k
  let p := (s.core n).poisoned
  let s := if x.waiting then s
    else
      let cpt := if x.held.isSome then nextCpt (x.taken == 0) x.cpt (cyclesOf (s.io.tb - x.heldAt)) else x.cpt
      let more := match x.held with
        | some t => [{ t with poison := p }]
        | none => []
      writeMore (s.setStrm n k { x with held := none, tiles := x.tiles ++ more, taken := x.taken + more.length,
                                        cpt := cpt, waiting := true, waitAt := s.io.tb }) n k
  acquireWrite s n k

/-- The stall that an ADVANCE which cannot complete counts (R113, R114, R124): FAULT on a halted stream. -/
def stallOff (x : Strm) : Nat :=
  if x.st = 3 then Off.carter_FAULT_LO
  else if x.reads then Off.carter_FETCH_LATE_LO else Off.carter_WRITE_BACKPRESSURE_LO

/-- LINE_REQUEST_GRANT: an arbiter grants the waiting request with the smallest effective key (R120). -/
def grantLine (s : State) (arb : Block) : State :=
  let w := s.fetch.lines.filter (fun r => r.path.head? == some arb)
  match w with
  | [] => s
  | r :: rs =>
    let best := rs.foldl (fun a b => if b.before a && !(a.before b) then b else a) r
    { s with fetch := { s.fetch with lines := s.fetch.lines.map (fun q => if q = best then { q with path := q.path.drop 1 } else q) } }

/-- The data of a returned line goes into the slots of every member, or its fault is noted (R113, R121, R129). -/
def deliverLine (s : State) (r : LineReq) (ms : List (Nat × Nat)) : State :=
  match (s.strm r.core r.st).desc with
  | none => s
  | some d =>
    match tFault s r.tier r.addr 1 false with
    | some (c, _) =>
      mapStrms s ms (fun y => { y with halting := true, tiles := y.tiles.map (fun t =>
        if t.ord = r.ord then { t with bad := t.bad ++ [(r.idx, c)] } else t) })
    | none =>
      let ls := match (s.strm r.core r.st).tiles.find? (fun t => t.ord == r.ord) with
        | some t => tileSpans d t
        | none => []
      match ls[r.idx]? with
      | none => s
      | some l =>
        let bs := s.tBytes r.core r.tier l.addr l.len
        let p := s.tPoison r.core r.tier l.addr l.len
        let s := if r.tier = 0 ∨ r.tier = 4 then s else { s with mem := s.mem.sample s.io l.addr }
        ms.foldl (fun s e =>
          let y := s.strm e.1 e.2
          let c := (s.core e.1).unitWrite (slotOff s e.1 y r.ord + l.off) bs p
          (s.setCore e.1 c).setStrm e.1 e.2 { y with tiles := y.tiles.map (fun t =>
            if t.ord = r.ord then { t with wait := t.wait.filter (fun i => i ≠ r.idx) } else t) }) s

/-- A line that memory has served returns to its core; a line of an older instance is dropped and charged
(R113, R115, R135). -/
def returnLine (s : State) (r : LineReq) : State :=
  let s := { s with fetch := { s.fetch with lines := s.fetch.lines.erase r } }
  let x := s.strm r.core r.st
  let ms := match r.gang with
    | some g => ((openStrms s).filter (fun e => e.2.2.gang == some g)).map (fun e => (e.1, e.2.1))
    | none => if x.inst = r.inst ∧ x.st ≠ 0 ∧ x.st ≠ 4 then [(r.core, r.st)] else []
  match ms with
  | [] => discard s r.core 64
  | (n, k) :: _ => deliverLine s { r with core := n, st := k } ms

/-- The fault point of a halting stream: the first faulted line in walk order, or the zone or list read that
faulted (R129, R133). -/
def faultPoint (x : Strm) (d : Desc) : Option (FaultPoint × Option (Nat × Nat)) :=
  match x.tiles.find? (fun t => !(t.bad == [])) with
  | some t =>
    let e := t.bad.foldl (fun (a : Nat × Nat) b => if b.1 < a.1 then b else a) (t.bad.headD (0, 0))
    match (tileSpans d t)[e.1]? with
    | some l => some (⟨e.2, t.pos, d.lineCoords (t.blk.getD []) l.off, l.addr / 64 * 64⟩, some (t.ord, e.1))
    | none => none
  | none => x.fault.map (fun f => (f, none))

/-- STREAM_HALT of one stream: lines before the fault point stay, the rest is dropped and charged (R129). -/
def settleHalt (s : State) (n k : Nat) : State :=
  let x := s.strm n k
  match x.desc with
  | none => s
  | some d =>
    match faultPoint x d with
    | none => s
    | some (f, none) => haltStrm s n k f
    | some (f, some (ord, idx)) =>
      let later := x.tiles.filter (fun t => decide (ord < t.ord))
      let ft := x.tiles.filter (fun t => t.ord == ord)
      let lost := ft.foldl (fun a t => a + ((tileSpans d t).zipIdx.filter (fun e => decide (idx < e.2) && !t.wait.contains e.2)).foldl
          (fun a e => a + e.1.len) 0) 0
      let s := discard s n (lost + later.foldl (fun a t => a + returnedBytes d t) 0)
      let keep := (x.tiles.filter (fun t => decide (t.ord ≤ ord))).map (fun t =>
        if t.ord = ord then { t with bad := [], wait := (List.range (tileSpans d t).length).filter (fun i => decide (idx ≤ i)) } else t)
      let pos := (ft.head?.map (fun t => t.pos)).getD x.next
      haltStrm (s.setStrm n k { x with tiles := keep, next := pos + 1, ord := ord + 1 }) n k f

/-- The order key of an addition (R92, R98): list position, then linear coordinate. -/
def addKey (x : Strm) (d : Desc) (t : Tile) (cs : List Nat) : Nat :=
  let lin := (d.dims.reverse).foldl (fun a i => a * d.sz i + cs.getD i 0) 0
  if x.list.isSome then t.pos * 2 ^ 200 + lin else lin

/-- Insert an addition by ascending order key, later ones after equal ones. -/
def insertAdd (k v : Nat) : List (Nat × Nat) → List (Nat × Nat)
  | [] => [(k, v)]
  | e :: l => if k < e.1 then (k, v) :: e :: l else e :: insertAdd k v l

/-- One element of a write tile reaches memory: stored, or added so that the additions of the stream to the
element stand in the order of R92. -/
def writeElem (s : State) (n k : Nat) (d : Desc) (t : Tile) (cs : List Nat) (p : Bool) : State :=
  let x := s.strm n k
  let lo := d.dims.map (fun i => d.blockLo i ((t.blk.getD []).getD i 0))
  let within := d.dims.map (fun i => cs.getD i 0 - lo.getD i 0)
  let bit := slotOff s n x t.ord * 8 + d.blockPos within * d.bits
  let code := bitsOf ((s.core n).num (bit / 8) ((bit % 8 + d.bits + 7) / 8)) (bit % 8 + d.bits - 1) (bit % 8)
  if !d.accum then putElem s n d cs code p
  else
    let key := ((d.base : Int) * 8 + d.bitOff cs).toNat
    let orig := smGet (elemCode s n d cs) key x.origs
    let all := insertAdd (addKey x d t cs) code ((x.adds.filter (fun e => e.1 == key)).map Prod.snd)
    let v := all.foldl (fun a e => accumCode d.etype a e.2) orig
    let q := p || elemPoison s n d cs
    let s := s.setStrm n k { x with origs := smInsert key orig x.origs,
                                    adds := x.adds.filter (fun e => !(e.1 == key)) ++ all.map (fun e => (key, e)) }
    putElem s n d cs v q

/-- The elements of a block that lie in SIZE, dimension 0 fastest. -/
def blockElemsIn (d : Desc) (blk : List Nat) : List (List Nat) :=
  let lens := d.dims.map (fun i => d.blockN i (blk.getD i 0))
  (List.range (lens.foldl (fun a b => a * b) 1)).map (fun e =>
    let cs := Desc.coordsIn lens e
    d.dims.map (fun i => d.blockLo i (blk.getD i 0) + cs.getD i 0))

/-- The writes of a released tile take effect (R106, R114): plain tiles line by line, ACCUMULATE tiles element
by element. -/
def writeTile (s : State) (n k : Nat) (d : Desc) (t : Tile) : State :=
  match t.blk with
  | none => s
  | some b =>
    let x := s.strm n k
    let off := slotOff s n x t.ord
    let linePoison : LineSpec → Bool := fun l => t.poison || (s.core n).anyPoison (off + l.off) l.len
    if d.accum then
      (blockElemsIn d b).foldl (fun s cs => writeElem s n k d t cs t.poison) s
    else (d.tileLines b).foldl (fun s l => s.tWrite n d.tier l.addr ((s.core n).bytes (off + l.off) l.len) (linePoison l)) s

/-- WRITE_ACK of a stream's oldest tile, once memory has taken all its lines (R114): the tile's slot is free,
and a closed stream whose last tile it was becomes CLOSED. -/
def ackTile (s : State) (n k : Nat) : State :=
  let x := s.strm n k
  let mine : LineReq → Bool := fun r => r.write && decide (r.core = n) && decide (r.st = k) && decide (r.inst = x.inst)
  match x.desc, x.tiles with
  | some d, t :: rest =>
    let ofTile := s.fetch.lines.filter (fun r => mine r && decide (r.ord = t.ord))
    if x.reads ∨ !t.issued ∨ ofTile.any (fun r => !(r.path == [])) then s
    else
      let s := { s with fetch := { s.fetch with lines := s.fetch.lines.filter (fun r => !(mine r && decide (r.ord = t.ord))) } }
      let s := writeTile s n k d t
      let s := s.mapIo (fun io => io.count64 (bCarter n) (ssOff k Off.carter_SS_TILES_LO) 1)
      let s := s.setStrm n k { s.strm n k with tiles := rest }
      if rest = [] ∧ x.closing ∧ x.st ≠ 4 then closeStrm s n k else writeMore s n k
  | _, _ => s

/-- A tile of the shard of a die position, and its poison: from its core's SRAM, or for a proxy from the copy (R122,
R537). -/
def shardTile (s : State) (r : ResSet) (p k : Nat) : List Byte × Bool :=
  let a := r.base + k * r.bytes
  if r.proxy.contains p then (cells r.copy (p * 2 ^ 22 + k * r.bytes) r.bytes, false)
  else ((s.core (48 * r.die + p)).bytes a r.bytes, (s.core (48 * r.die + p)).anyPoison a r.bytes)

/-- RING_STEP: one tile goes to every member once all have released the step four behind (R122). -/
def ringStep (s : State) (die set : Nat) : State :=
  match resSet s die set, s.fetch.gangs.find? (fun g => g.resident && decide (g.die = die) && decide (g.group = set) && g.running) with
  | some r, some g =>
    let ms := (openStrms s).filter (fun e => e.2.2.gang == some g.id)
    let u := g.step
    if 48 * r.tiles ≤ u ∨ ms.any (fun e => decide (e.2.2.taken + 3 < u)) then s
    else
      let s := ms.foldl (fun s e =>
        let p := e.1 % 48
        let (bs, bad) := shardTile s r ((p + 48 - u / r.tiles % 48) % 48) (u % r.tiles)
        let y := s.strm e.1 e.2.1
        let c := (s.core e.1).unitWrite (slotOff s e.1 y u) bs bad
        (s.setCore e.1 c).setStrm e.1 e.2.1 { y with tiles := y.tiles ++ [{ pos := u, ord := u, blk := none }], next := u + 1, ord := u + 1 }) s
      { s with fetch := { s.fetch with gangs := s.fetch.gangs.map (fun h => if h.id = g.id then { h with step := u + 1 } else h) } }
  | _, _ => s

/-- Whether the cancel fence of a core may complete (R134). -/
def fenceReady (s : State) (n : Nat) : Bool :=
  (s.core n).fence && (s.core n).strms.all (fun e => decide (e.2.st ≠ 4) || (decide (e.2.tiles = []) && !inFlight s n e.1 e.2.inst))

/-- The cancel fence completes: CANCELLING streams become CLOSED and CANCEL_DONE is set (R134). -/
def fenceDone (s : State) (n : Nat) : State :=
  let s := (strmsOf s n (fun x => x.st == 4)).foldl (fun s k => closeStrm s n k) s
  let s := s.setCore n { s.core n with fence := false }
  s.mapIo (fun io => io.rise (bCarter n) 4)

end Sys2Proof.Machine
end

