-- ==== Sys2Proof/Machine/Weaver.lean ====
section
/-! DEFINITION. The Weaver layout copy engine (chapter 12). -/

namespace Sys2Proof.Machine

/-- A Weaver. -/
def weaver (s : State) (u : Nat) : WeaverSt := smGet {} u s.weave.units

/-- Store a Weaver. -/
def setWeaver (s : State) (u : Nat) (w : WeaverSt) : State := { s with weave := { s.weave with units := smPut {} u w s.weave.units } }

namespace WCopy

/-- Logical sizes: dimension l is source dimension perm[l] (R323). -/
def lsize (w : WCopy) : List Nat := w.perm.map (fun p => w.src.sz p)

/-- Source and destination coordinates of logical element `t` (R323). -/
def coords (w : WCopy) (t : Nat) : List Nat × List Nat :=
  let c := Desc.coordsIn w.lsize t
  let i := (List.range w.src.rank).map (fun d => ((w.perm.zip c).find? (fun e => e.1 == d)).map Prod.snd |>.getD 0)
  (i, if w.reshape then w.dst.coords t else c)

/-- Elements of the copy. -/
def count (w : WCopy) : Nat := w.lsize.foldl (fun a n => a * n) 1

/-- Transpose mode (Table 12.3). -/
def transpose (w : WCopy) : Bool := w.perm.headD 0 != 0

/-- Tiles staged in transpose mode: 32 × 32 elements (R331). -/
def tiles (w : WCopy) : Nat :=
  if !w.transpose then 0
  else
    let p := w.perm.headD 0
    w.src.dims.foldl (fun a d => a * (if d = 0 ∨ d = p then cdiv (w.src.sz d) 32 else w.src.sz d)) 1

end WCopy

/-- One element of a copy: source and destination coordinates and whether it begins an MX block. -/
structure WElem where
  i : List Nat
  e : List Nat
  scale : Bool
  deriving DecidableEq, Repr

/-- The elements of a copy in logical order. -/
def WCopy.elems (w : WCopy) : List WElem :=
  (List.range w.count).map (fun t =>
    let c := w.coords t
    ⟨c.1, c.2, Num.isMx w.src.etype && decide (c.1.headD 0 % 32 = 0)⟩)

/-- Whether the 128 bytes of two descriptors agree: the entries hold the same descriptor (R328). -/
def sameDesc (a b : Desc) : Bool := decide (a = b)

/-- Half-open ranges of a descriptor that a copy compares (R328). -/
def planes (d : Desc) : List (Int × Int) := if Num.isMx d.etype then [d.extent, d.scaleExtent] else [d.extent]

/-- Whether any range of one descriptor meets any of another in one address space (R328). -/
def descsMeet (a b : Desc) : Bool :=
  ((a.tier == 4) == (b.tier == 4)) &&
    (planes a).any (fun x => (planes b).any (fun y => decide (x.1 < y.2) && decide (y.1 < x.2)))

/-- PERM is a permutation of the rank, zero beyond it, with a rank-6 source's outermost dimension in place (R325). -/
def permOk (rank perm : Nat) : Bool :=
  let ns := (List.range 6).map (fun l => bitsOf perm (4 * l + 3) (4 * l))
  (List.range rank).all (fun d => (ns.take rank).contains d) && (ns.drop rank).all (fun n => n == 0)
    && (rank ≠ 6 || ns.getD 5 0 == 5)

/-- What the checks of Table 12.2 make of a WEAVE: a code, nothing to copy (with the NOOP flag), or a copy. -/
inductive WeaveAns where
  | refused (code : Nat)
  | nothing (noop : Bool)
  | copy (w : WCopy)
  deriving Repr

/-- The checks of Table 12.2, in order. -/
def weaveCheck (s : State) (c : Cmd) (cn : Nat) : WeaveAns :=
  let mode := c.p 0x18 1
  let unit := c.p 0x19 1
  let perm := c.p 0x14 4 % 2 ^ 24
  if 2 ≤ mode ∨ 3 ≤ unit then .refused Code.RSV_NONZERO
  else match useDesc s cn (c.p 0x10 2), useDesc s cn (c.p 0x12 2) with
  | .error e, _ => .refused e
  | _, .error e => .refused e
  | .ok a, .ok b =>
    let reshape := bitOf mode 0
    let na := a.count
    let nb := b.count
    let ns := (List.range a.rank).map (fun l => bitsOf perm (4 * l + 3) (4 * l))
    let w : WCopy := { serial := 0, cmd := c, cn := cn, srcId := c.p 0x10 2, dstId := c.p 0x12 2, src := a, dst := b, perm := ns, reshape := reshape }
    if !a.canRead ∨ !b.canWrite then .refused Code.DESC_DIR
    else if a.tier = 0 ∨ b.tier = 0 then .refused Code.WEAVE_TIER
    else if a.etype ≠ b.etype ∨ (Num.isMx a.etype ∧ ns.headD 0 ≠ 0) then .refused Code.WEAVE_TYPE
    else if !permOk a.rank perm then .refused Code.BAD_PERM
    else if (if reshape then na ≠ nb else b.rank ≠ a.rank ∨ w.lsize ≠ b.size.take b.rank) then .refused Code.WEAVE_SHAPE
    else if a.empty ∨ b.empty then .nothing false
    else if [a.tier, b.tier].any (fun t => (t == 2 && !feature s.io 1) || (t == 3 && !feature s.io 2)) then .refused Code.FEATURE_OFF
    else if sameDesc a b ∧ ns = List.range a.rank ∧ !reshape ∧ !b.accum then .nothing true
    else if descsMeet a b then .refused Code.OVERLAP
    else .copy w

/-- RESULT of a WEAVE: the fields of Table 12.3 after CODE, in order (Table 13.12). -/
def weaveResult (flags unit read written faddr : Nat) : List Byte :=
  leBytes 1 flags ++ leBytes 1 unit ++ leBytes 4 read ++ leBytes 4 written ++ leBytes 8 faddr

/-- The unit that a WEAVE names, or the one of its die with fewer commands (Table 12.1); a reserved UNIT, which is refused,
names none. -/
def weaveUnit (s : State) (die unit : Nat) : Nat :=
  let n : Nat → Nat := fun u => (weaver s u).queue.length + (weaver s u).active.length
  if unit = 0 ∨ 3 ≤ unit then (if n (2 * die + 1) < n (2 * die) then 2 * die + 1 else 2 * die) else 2 * die + unit - 1

/-- WEAVE: the copy is checked and queued, completes at once, or is refused; a full queue holds it (R326 to R330). -/
def weaveRun (s : State) (c : Cmd) : State :=
  match c.context s with
  | none => finish s c Code.BAD_CONTEXT
  | some x =>
    let u := weaveUnit s (x.home % 2) (c.p 0x19 1)
    let b := bWeaver u
    match weaveCheck s c x.cn with
    | .refused code => finish (s.mapIo (fun io => (io.count b Off.weaver_REFUSED 1).rise b 3)) c code (weaveResult 0 u 0 0 0)
    | .nothing noop =>
      let s := s.mapIo (fun io => (if noop then io.count b Off.weaver_NOOPS 1 else io).count64 b Off.weaver_COPIES_LO 1)
      finish s c Code.OK (weaveResult (b2n noop) u 0 0 0)
    | .copy w =>
      let q := weaver s u
      if 32 ≤ q.queue.length ∨ !s.io.enabled b then s
      else
        let s := takeRefs s x.cn [w.srcId, w.dstId]
        let s := setWeaver s u { q with queue := q.queue ++ [{ w with serial := s.weave.next }] }
        { s with weave := { s.weave with next := s.weave.next + 1 } }

/-- WEAVE_COPY_START: the oldest queued copy takes a free copy place (R330). -/
def weaveStart (s : State) (u : Nat) : State :=
  let q := weaver s u
  match q.queue with
  | w :: rest => if q.active.length < 2 then setWeaver s u { queue := rest, active := q.active ++ [w] } else s
  | [] => s

/-- A copy has ended: its references go and its command completes. -/
def weaveEnd (s : State) (u : Nat) (w : WCopy) (status flags read written faddr : Nat) : State :=
  let q := weaver s u
  let s := setWeaver s u { queue := q.queue.filter (fun x => x.serial ≠ w.serial), active := q.active.filter (fun x => x.serial ≠ w.serial) }
  let s := dropRefs s w.cn [w.srcId, w.dstId]
  finish s w.cmd status (weaveResult flags u read written faddr)

/-- Why an element of a copy cannot be read or written now, with the address of the line (R332). -/
def weaveFault (s : State) (w : WCopy) (x : WElem) : Option (Nat × Nat) :=
  let one : Desc → List Nat → Bool → Option (Nat × Nat) := fun d cs wr =>
    if tHeld s d.tier d.base then some (heldMark, d.addrOf cs)
    else (tFault s d.tier (d.addrOf cs) (max 1 (d.bits / 8)) wr).or (if x.scale then tFault s d.tier (d.scaleAddr cs) 1 wr else none)
  (one w.src x.i false).or (one w.dst x.e true)

/-- Destination lines that receive an element, or the scale byte, of a poisoned source line (R331, R405). -/
def weavePoison (s : State) (w : WCopy) (es : List WElem) : List Nat :=
  es.foldl (fun a x =>
    let l := w.dst.addrOf x.e / 64
    let k := w.dst.scaleAddr x.e / 64
    let a := if elemPoison s 0 w.src x.i ∧ !a.contains l then a ++ [l] else a
    if x.scale ∧ s.tPoison 0 w.src.tier (w.src.scaleAddr x.i) 1 ∧ !a.contains k then a ++ [k] else a) []

/-- Store one element of a copy, with its block's scale. -/
def weaveElem (s : State) (w : WCopy) (bad : List Nat) (x : WElem) : State :=
  let s := storeElem s 0 w.dst x.e (elemCode s 0 w.src x.i) (bad.contains (w.dst.addrOf x.e / 64))
  if x.scale then
    s.tWrite 0 w.dst.tier (w.dst.scaleAddr x.e) (s.tBytes 0 w.src.tier (w.src.scaleAddr x.i) 1) (bad.contains (w.dst.scaleAddr x.e / 64))
  else s

/-- The elements of a copy are written, line by line: a clean line written whole loses its poison (R406). -/
def weaveWrite (s : State) (w : WCopy) (bad : List Nat) (es : List WElem) : State :=
  clearWhole (es.foldl (fun s x => weaveElem s w bad x) s) 0 w.dst (es.map (fun x => (x.e, x.scale))) bad

/-- What a copy that ends before it is whole had done: destination lines written, source lines read and used, tiles staged,
lines still in flight, and whether a poisoned line was copied. -/
structure WeaveEnd where
  written : Nat
  read : Nat
  tiles : Nat
  dropped : Nat
  poison : Bool
  deriving DecidableEq, Repr

/-- A free value of at most `m`. -/
def freeUpTo (s : State) (m : Nat) : Nat × State :=
  let (v, io) := s.io.takeFree
  (v.toNat % (m + 1), { s with io := io })

/-- A copy that ends before it is whole: every destination line holds its old contents or all of its new ones, which is
open (R333): a free value decides for each line whose elements can all be read and written.  How far its reads had come
is open too: at least to the lines that were written, and at most 512 reads were in flight (Table 12.5). -/
def weavePart (s : State) (w : WCopy) : State × WeaveEnd :=
  let es := w.elems
  let bad := weavePoison s w es
  let r := (touched w.dst (es.map (fun x => (x.e, false)))).foldl (fun (p : State × List Nat) l =>
    let mine := es.filter (fun x => w.dst.addrOf x.e / 64 == l)
    let f := freeUpTo p.1 1
    if f.1 = 1 ∧ mine.all (fun x => (weaveFault p.1 w x).isNone) then (weaveWrite f.2 w bad mine, p.2 ++ [l]) else (f.2, p.2)) (s, [])
  let done := es.filter (fun x => r.2.contains (w.dst.addrOf x.e / 64))
  let used := (touched w.src (done.map (fun x => (x.i, x.scale)))).length
  let all := (touched w.src (es.map (fun x => (x.i, x.scale)))).length
  let rd := freeUpTo r.1 (all - used)
  let dr := freeUpTo rd.2 (min 512 (all - used - rd.1))
  let ti := freeUpTo dr.2 w.tiles
  (ti.2, { written := r.2.length, read := used + rd.1, tiles := ti.1, dropped := dr.1, poison := r.2.any (fun l => bad.contains l) })

/-- FLAGS of a copy that ends early (Table 12.3). -/
def WeaveEnd.flags (e : WeaveEnd) (w : WCopy) : Nat := 2 * b2n e.poison + 4 * b2n w.transpose

/-- The counters and the status bit of a copy that ends early (Tables 12.6 and 12.7). -/
def weaveEndCount (s : State) (u : Nat) (e : WeaveEnd) : State :=
  let b := bWeaver u
  s.mapIo (fun io =>
    let io := io.count64 b Off.weaver_LINES_READ_LO e.read
    let io := io.count64 b Off.weaver_LINES_WRITTEN_LO e.written
    let io := io.count64 b Off.weaver_TILES_LO e.tiles
    if e.poison then io.rise b 4 else io)

/-- WEAVE_COPY_DONE: a copy in progress writes its destination and completes; it waits while a page faults, and fails at
a line that cannot be reached (R323, R329, R331, R332). -/
def weaveDone (s : State) (u serial : Nat) : State :=
  match (weaver s u).active.find? (fun w => w.serial == serial) with
  | none => s
  | some w =>
    let b := bWeaver u
    let es := w.elems
    let t := 4 * b2n w.transpose
    match es.findSome? (weaveFault s w) with
    | some (c, a) =>
      if faultWaits c then s.migrFault c
      else
        let r := weavePart s w
        let s := (weaveEndCount r.1 u r.2).mapIo (fun io => (io.count b Off.weaver_FAILED 1).rise b 2)
        weaveEnd s u w Code.WEAVE_FAILED (r.2.flags w) r.2.read r.2.written (a / 64 * 64)
    | none =>
      let bad := weavePoison s w es
      let rd := (touched w.src (es.map (fun x => (x.i, x.scale)))).length
      let wr := (touched w.dst (es.map (fun x => (x.e, x.scale)))).length
      let s := weaveWrite s w bad es
      let s := s.mapIo (fun io =>
        let io := io.count64 b Off.weaver_COPIES_LO 1
        let io := io.count64 b Off.weaver_LINES_READ_LO rd
        let io := io.count64 b Off.weaver_LINES_WRITTEN_LO wr
        let io := io.count64 b Off.weaver_TILES_LO w.tiles
        if bad = [] then io else io.rise b 4)
      weaveEnd s u w Code.OK (2 * b2n (bad ≠ []) + t) rd wr 0

/-- Copies that a predicate selects are cancelled or ended by a reset (R333). -/
def stopCopies (s : State) (p : WCopy → Bool) (us : List Nat) (status : Nat) : State :=
  us.foldl (fun s u =>
    let b := bWeaver u
    let q := weaver s u
    let note : State → State := fun s =>
      s.mapIo (fun io => if status = Code.CANCELLED then io.rise b 5 else io.count b Off.weaver_FAILED 1)
    let s := (q.active.filter p).foldl (fun s w =>
      let r := weavePart s w
      let s := weaveEndCount r.1 u r.2
      let s := if status = Code.CANCELLED then s.mapIo (fun io => io.count64 b Off.weaver_DISCARD_BYTES_LO (64 * r.2.dropped)) else s
      note (weaveEnd s u w status (r.2.flags w) r.2.read r.2.written 0)) s
    (q.queue.filter p).foldl (fun s w => note (weaveEnd s u w status 0 0 0 0)) s) s

/-- WEAVE (R326 to R330). -/
def execWeave (c : Cmd) (s : State) : Host.Outcome State Fault Refusal := .next (weaveRun s c)

/-- WEAVE_COPY_START (R330). -/
def execWeaveCopyStart (unit : Nat) (s : State) : Host.Outcome State Fault Refusal := .next (weaveStart s unit)

/-- WEAVE_COPY_DONE (R329). -/
def execWeaveCopyDone (unit serial : Nat) (s : State) : Host.Outcome State Fault Refusal := .next (weaveDone s unit serial)

end Sys2Proof.Machine
end

