-- ==== Sys2Proof/Machine/CoreCtl.lean ====
section
/-! DEFINITION. Tasks on cores: start, end, outcomes, exceptions, cancels, sequences, fused instances and ordered
release (R127, R128, R134, R175 to R183, R314 to R320, R341 to R359, R386, R391, R533). -/

namespace Sys2Proof.Machine

/-- Streams of a core that belong to a task and are open. -/
def taskStrms (s : State) (n id : Nat) : List Nat := strmsOf s n (fun x => x.st != 0 && x.task == id)

/-- STATUS of a Pedlar request block (Table 5.7). -/
def pedStatus (s : State) (n blk code : Nat) : State := s.setCore n ((s.core n).unitWrite (blk + 0x18) (leBytes 2 code) false)

/-- Pedlar transfers not yet issued are dropped with CANCELLED (R134). -/
def dropPeds (s : State) (n : Nat) : State :=
  let c := s.core n
  let s := (c.peds.filter (fun p => !p.issued)).foldl (fun s p => pedStatus s n p.blk Code.CANCELLED) s
  s.setCore n { s.core n with peds := c.peds.filter (fun p => p.issued) }

/-- The slot of a task's binding while the binding is the slot's own. -/
def taskSeq (s : State) (t : Task) : Option (Nat × Nat × Seq) :=
  t.binding.bind (fun b => let q := seqOf s b.core b.slot; if q.serial = b.serial then some (b.core, b.slot, q) else none)

/-- What is left of a task in its core is stopped (R134, R179): streams cancelled, transfers and results dropped. -/
def stopWork (s : State) (n id : Nat) : State :=
  let s := (taskStrms s n id).foldl (fun s k => cancelStrm s n k) s
  let s := dropPeds s n
  let s := s.call.foldl (fun s e => s.mapCaller e.1 (fun cl => { cl with held := cl.held.filter (fun k => !(k.src == .core n)) })) s
  s.setCore n { s.core n with emitDst := none, assay := [], mmas := (s.core n).mmas.map (fun m => { m with drop := true }) }

/-- A running task ends: it leaves its core and its completion waits for its write streams (R128, R178, R179). -/
def leaveTask (s : State) (n outcome info : Nat) (retire : Bool) (run : CoreRun) : State :=
  let c := s.core n
  match c.task with
  | none => s
  | some t =>
    let done := decide (outcome = Code.OK ∨ outcome = Code.STREAM_FAILED ∨ outcome = Code.TASK_FAILED)
    let e : Ended := { task := t, outcome := outcome, info := info, serr := decide (c.failCode ≠ 0), cycles := cyclesOf (s.io.tb - c.startAt),
                       core := n, retire := retire || !done }
    let s := s.mapIo (fun io => if done then io.count64 (bCore n) Off.fcore_TASKS_DONE_LO 1 else io.count (bCore n) Off.fcore_TASKS_ABORTED 1)
    let s := match taskSeq s t with
      | some (m, k, q) =>
        let q : Seq := { q with st := if e.retire then 3 else 1, reported := false, chunks := if done then min 0xFFFF (q.chunks + 1) else q.chunks }
        setSeq s m k q
      | none => s
    let s := s.setCore n { s.core n with task := none, run := run, poisoned := false, poisonAt := none, failCode := 0, idleAt := s.io.tb, waitDst := none, waitEnd := none }
    let c := s.core n
    let s := if coreMode s n = 3 then (if c.recover ≤ 1 then setMode s n 0 0 else s.setCore n { c with recover := c.recover - 1 }) else s
    s.mapCaller t.die (fun cl => { cl with ended := cl.ended ++ [e] })

/-- A task that never started ends with an outcome (R358): its pre-opened streams are cancelled. -/
def dropTask (s : State) (t : Task) (core : Nat) (outcome : Nat) : State :=
  let s := (taskStrms s core t.id).foldl (fun s k => cancelStrm s core k) s
  let s := s.setCore core { s.core core with pres := (s.core core).pres.filter (fun p => p.task ≠ t.id) }
  let e : Ended := { task := t, outcome := outcome, info := 0, serr := false, cycles := 0, core := core, retire := false }
  s.mapCaller t.die (fun cl => { cl with ready := cl.ready.filter (fun u => u.id ≠ t.id), next := cl.next.filter (fun e => e.2.id ≠ t.id),
                                         ended := cl.ended ++ [e] })

/-- The completion result of a fused instance (Table 13.12). -/
def instResult (x : FusedInst) : List Byte := leBytes 4 x.pos ++ leBytes 1 (x.anchor.getD 0)

/-- The completion of an ended fused instance is written: the FUSED_RUN's, or CHAIN_DONE (R354, R361). -/
def instComplete (s : State) (x : FusedInst) (outcome info : Nat) : State :=
  let s := { s with adm := { s.adm with insts := s.adm.insts.filter (fun y => y.id ≠ x.id) } }
  match x.cmd with
  | some c => finish s c outcome (instResult x) info
  | none =>
    let t := match chainOf s x with
      | some c => tmplOf s ((c.stage 0).tmpl / 32768) ((c.stage 0).tmpl % 16384)
      | none => ⟨[]⟩
    if t.complete = 1 ∨ (t.complete = 2 ∧ outcome ≠ Code.OK) then
      postRecord s (x.ctx + 1) (recordBytes x.key 0x81 false outcome (slotOf s x.ctx) 0 (instResult x) s.io.tb info) false
    else s

/-- The failed marker of an instance that a cancel stopped. -/
def markCancelled : Nat := 2 ^ 40

/-- Outcome and INFO of a failed instance (R356, R358). -/
def instOutcome (failed : Option Nat) : Nat × Nat :=
  match failed with
  | none => (Code.OK, 0)
  | some m => if m = markCancelled then (Code.CANCELLED, 0) else (Code.STAGE_FAILED, m)

/-- Whether a stage reference names an instance. -/
def refersTo (i : Nat) (o : Option (Nat × Nat × Nat)) : Bool := o.any (fun e => e.1 == i)

/-- Tasks and tokens of an instance that have not ended. -/
def instBusy (s : State) (i : Nat) : Bool :=
  s.call.any (fun e => e.2.ready.any (fun t => refersTo i t.inst) || e.2.next.any (fun f => refersTo i f.2.inst)
      || e.2.toks.any (fun k => refersTo i k.inst) || e.2.held.any (fun k => refersTo i k.inst))
    || s.cores.any (fun e => e.2.task.any (fun t => refersTo i t.inst))

/-- Tasks of an instance whose write streams drain. -/
def instDrains (s : State) (i : Nat) : Bool := s.call.any (fun e => e.2.ended.any (fun d => refersTo i d.task.inst))

/-- The instance has ended: its completion is written, or waits for its flow position (R349, R354). -/
def instEnd (s : State) (x : FusedInst) : State :=
  let (o, info) := instOutcome x.failed
  match x.flow with
  | none => instComplete s x o info
  | some f => endPos (setInst s { x with ended := some (o, info) }) x.die (some f) x.pos o

/-- A core in the waiting state whose NEXT register holds a task starts it; the caller of `startNext` gives the
operation that starts a task. -/
def takeNext (s : State) (n : Nat) : Option (Task × State) :=
  let cl := s.caller (dieOfCore n)
  match smFind n cl.next with
  | some t => some (t, s.setCaller (dieOfCore n) { cl with next := smErase n cl.next })
  | none => none

/-- The instruction range of a service on a core (R148). -/
def codeRange (s : State) (svc n : Nat) : Option (Nat × Nat) :=
  (s.service? svc).bind (fun v => (v.code.find? (fun e => e.1 == n)).map Prod.snd)

/-- The opener of a task's streams. -/
def Task.opener (t : Task) : Opener := ⟨t.ctx, t.svc, t.id⟩

/-- The pre-opens of a template: stream and block offset (Table 13.1, R127). -/
def preOpens (s : State) (t : Task) : List (Nat × Nat) :=
  (List.range 4).filterMap (fun i =>
    let w := (tmplOf s t.die t.tmpl).preopen i
    if bitOf w 4 then some (w % 16, w / 65536 * 64) else none)

/-- Whether a pre-open must wait for its task's start (R127). -/
def preLate (s : State) (n : Nat) (t : Task) (st off : Nat) : Bool :=
  match openCheck s n st t.opener off with
  | .error code => code == Code.STREAM_BUSY || code == Code.BUF_OVERLAP
  | .ok _ => false

/-- One pre-open of a task is kept with its result, once it has one. -/
def putPre (s : State) (n : Nat) (t : Task) (st off : Nat) (code : Option Nat) : State :=
  let c := s.core n
  s.setCore n { c with pres := c.pres.filter (fun p => !(p.task == t.id && p.st == st)) ++ [⟨st, off, t.id, code⟩] }

/-- One pre-open of a task: performed, or put off to the start when the stream or its slot area is taken (R127). -/
def preOpenOne (final : Bool) (n : Nat) (t : Task) (s : State) (e : Nat × Nat) : State :=
  if (s.core n).pres.any (fun p => p.task == t.id && p.st == e.1 && p.code.isSome) then s
  else if !final && preLate s n t e.1 e.2 then putPre s n t e.1 e.2 none
  else
    let r := openStrm s n e.1 t.opener e.2
    putPre r.1 n t e.1 e.2 (some r.2)

/-- Pre-open streams when a task enters a NEXT register, and again when it starts. -/
def preOpenAll (s : State) (n : Nat) (t : Task) (final : Bool) : State :=
  (preOpens s t).foldl (preOpenOne final n t) s

/-- Operand bytes of a task: key and value of each, all ones for an operand that never came (R340, R345). -/
def operandBytes (t : Task) : List Byte :=
  t.opnds.flatMap (fun o => match o with
    | some (k, v) => leBytes 8 k ++ leBytes 8 v
    | none => List.replicate 16 0xFF)

/-- A sequence slot is bound for an opening task (R318, R320): the lowest FREE slot, its area zeroed for a new context. -/
def bindSlot (s : State) (n : Nat) (t : Task) : State × Option Binding :=
  match (List.range 16).find? (fun k => (seqOf s n k).st = 0) with
  | none => (s, none)
  | some k =>
    let q := seqOf s n k
    let c := s.core n
    let serial := c.serial + 1
    let fresh := decide (q.lastCn ≠ some t.ctx)
    let c := { c with serial := serial }
    let c := if fresh then c.unitWrite q.carry (List.replicate q.carryLen 0) false else c
    let s := s.setCore n c
    let s := if fresh then s.mapIo (fun io => io.count64 (bCarter n) Off.carter_TASK_WAIT_LO (q.carryLen / 256)) else s
    let q := { q with st := 2, ctx := slotOf s t.ctx, cn := t.ctx, svc := t.svc, chunks := 0, serial := serial, groups := 0, reported := false }
    (setSeq s n k q, some ⟨n, k, serial⟩)

/-- A core as a task starts on it: registers of another context zeroed (R176), X[DST] of its TASK.WAIT zero, the status
CSRs cleared, PC at the template's entry in the service's code, and the operands at OPND_OFF (R148, R175, R345). -/
def startCore (s : State) (n : Nat) (t : Task) : CoreSt :=
  let tm := tmplOf s t.die t.tmpl
  let c := s.core n
  let new := decide (c.lastCn ≠ some t.ctx)
  let x := if new then [] else c.x
  let x := match c.waitDst with
    | some d => if d = 0 then x else smPut 0 d 0 x
    | none => x
  let r := (codeRange s t.svc n).getD (0, 0)
  let c := { c with x := x, v := if new then [] else c.v, m := if new then [] else c.m, a := if new then [] else c.a,
                    run := .running, waitDst := none, waitEnd := none, task := some t, startAt := s.io.tb, nopnd := t.opnds.length,
                    range := r, pc := r.1 + tm.entry, fstat := 0, tstat := 0, selstat := 0, lastCn := some t.ctx,
                    poisoned := false, poisonAt := none, failCode := 0 }
  c.unitWrite tm.opndOff (operandBytes t) false

/-- Cycles of TASK_WAIT that a start ends: since the core began to wait, and 64 for zeroing registers (R176). -/
def startWait (s : State) (n : Nat) (t : Task) : Nat :=
  cyclesOf (s.io.tb - (s.core n).idleAt) + (if (s.core n).lastCn ≠ some t.ctx then 64 else 0)

/-- The sequence slot of a starting task: an opening task takes one, and it is RUNNING (R317, R318). -/
def startSeq (s : State) (n : Nat) (t : Task) : State × Task :=
  let (s, b) := if (tmplOf s t.die t.tmpl).seq = 1 then bindSlot s n t else (s, t.binding)
  let t := { t with binding := b }
  (match taskSeq s t with
    | some (m, k, q) => setSeq s m k { q with st := 2 }
    | none => s, t)

/-- A task starts on a waiting core (R175, R176, R345). -/
def startTask (s : State) (n : Nat) (t : Task) : State :=
  let (s, t) := startSeq s n t
  let wait := startWait s n t
  let s := s.setCore n (startCore s n t)
  let s := s.mapIo (fun io => (io.count64 (bCarter n) Off.carter_TASK_WAIT_LO wait).count (bCaller t.die)
    (Off.caller_TASKS + 0x20 * (n % 48)) 1)
  let s := match t.inst with
    | some (i, 0, _) => (match instOf s i with
      | some y => setInst s { y with anchor := some n, binding := t.binding }
      | none => s)
    | _ => s
  touchCn (preOpenAll s n t true) t.ctx

/-- A waiting core starts the task of its NEXT register, if it has one (R344). -/
def startNext (s : State) (n : Nat) : State :=
  if (s.core n).run ≠ .waiting then s
  else match takeNext s n with
    | some (t, s) => startTask s n t
    | none => s

/-- A task stops on its core: aborted or cancelled (R179, R183); the core waits, and takes its next task. -/
def abortTask (s : State) (n outcome info : Nat) : State :=
  match (s.core n).task with
  | none => startNext (s.setCore n { s.core n with run := .waiting, waitDst := none, waitEnd := none, idleAt := s.io.tb }) n
  | some t => startNext (leaveTask (stopWork s n t.id) n outcome info true .waiting) n

/-- The unit requests and the collective or copy work of fused stages stop with their instance (R358). -/
def instStop (s : State) (x : FusedInst) : State :=
  let mine := refersTo x.id
  let s := s.call.foldl (fun s e =>
    let s := (e.2.ready.filter (fun t => mine t.inst)).foldl (fun s t => dropTask s t 0 Code.CANCELLED) s
    let s := (e.2.next.filter (fun f => mine f.2.inst)).foldl (fun s f => dropTask s f.2 f.1 Code.CANCELLED) s
    s.mapCaller e.1 (fun cl => { cl with toks := cl.toks.filter (fun k => !mine k.inst), held := cl.held.filter (fun k => !mine k.inst) })) s
  let s := (s.cores.filter (fun e => e.2.task.any (fun t => mine t.inst))).foldl (fun s e => abortTask s e.1 Code.CANCELLED 0) s
  let s := cancelReqs s (fun r => mine r.stage)
  let s := { s with fab := { s.fab with msgs := s.fab.msgs.filter (fun m => match m.why with
    | .emit i _ _ => m.started || i != x.id
    | _ => true) } }
  let s := match x.flow with
    | some f => s.mapCaller x.die (fun cl =>
        let fl := smGet {} f cl.flows
        { cl with flows := smPut {} f { fl with window := fl.window.map (fun w =>
            if w.pos = x.pos then { w with emits := w.emits.filter (fun e => e.1 ≠ x.id) } else w) } cl.flows })
    | none => s
  match instOf s x.id with
  | some y => setInst s { y with bufs := List.replicate 6 [], stage0Done := true }
  | none => s

/-- Instances that have failed stop, and instances with nothing left to do end (R354, R356). -/
def settle (s : State) : Nat → State
  | 0 => s
  | fuel + 1 =>
    match s.adm.insts.find? (fun x => x.failed.isSome && x.ended.isNone && (!x.stage0Done || x.bufs.any (fun b => b != []) || instBusy s x.id)) with
    | some x => settle (instStop s x) fuel
    | none =>
      match s.adm.insts.find? (fun x => x.ended.isNone && !instBusy s x.id && !instDrains s x.id && (x.failed.isSome || instDone s x)) with
      | some y => settle (instEnd s y) fuel
      | none => s

/-- Settle every instance. -/
def settleAll (s : State) : State := settle s (3 * s.adm.insts.length + 3)

/-- A round of a die loses a task that has ended (R314, R315). -/
def roundEnd (s : State) (id : Nat) : State :=
  let rs := (s.expert.rounds.map (fun r => { r with tasks := r.tasks.filter (fun t => t ≠ id) })).filter (fun r => r.tasks ≠ [])
  { s with expert := { s.expert with rounds := rs } }

/-- A task's completion is reported: its slot, its stage, its routes, its record and its position (R128, R346, R347). -/
def reportOne (s : State) (die : Nat) (e : Ended) : State :=
  let t := e.task
  let s := s.mapCaller die (fun cl => { cl with ended := dropFirst (fun d => d.task.id == t.id) cl.ended })
  let s := match taskSeq s t with
    | some (m, k, q) => if q.st = 3 then setSeq s m k { q with reported := true } else s
    | none => s
  let ok := decide (e.outcome = Code.OK)
  let s := match t.inst with
    | some (i, st, idx) =>
      let s := if ok then s else stageFail s i st e.outcome
      if st = 0 then (match instOf s i with
        | some x => setInst s { x with stage0Done := true }
        | none => s)
      else freeEntry s i (st - 1) idx
    | none => s
  let s := t.grps.foldl (fun s g => routeDone s g (ok || e.outcome == Code.STREAM_FAILED)) s
  let s := if ok then s else countNotOk s die
  let s := if e.outcome = Code.CANCELLED then s.mapIo (fun io => io.count (bCaller die) Off.caller_CANCELLED 1) else s
  let tm := tmplOf s die t.tmpl
  let s := if tm.complete = 1 ∨ (tm.complete = 2 ∧ !ok) then
      flowRecord s die t.flow t.pos (t.ctx + 1) (taskRecord s t e.outcome e.info e.serr e.cycles) false
    else s
  let heads := match t.inst with
    | some (_, 0, _) => true
    | _ => false
  let s := match t.flow with
    | some f => if heads then s else endPos s die (some f) t.pos e.outcome
    | none => passRecords s t.ctx t.arrs
  feedAll (roundEnd s t.id)

/-- Every completion whose streams are CLOSED is reported, and instances settle (R128). -/
def reportAll (s : State) : Nat → State
  | 0 => s
  | fuel + 1 =>
    match s.call.findSome? (fun c => (c.2.ended.find? (fun e => taskStrms s e.core e.task.id == [])).map (fun e => (c.1, e))) with
    | some (die, e) => reportAll (settleAll (reportOne s die e)) fuel
    | none => settleAll s

/-- Report and settle until nothing more is due. -/
def housekeep (s : State) : State :=
  reportAll s (s.call.foldl (fun a c => a + c.2.ended.length + c.2.ready.length + c.2.next.length) 0 + s.cores.length + 4)

/-- Retry templates whose flow window was full (R348). -/
def retryFlow (s : State) (die : Nat) : State :=
  let ks := (s.caller die).toks.foldl (fun a k =>
    let e := (k.tmpl, meetKey (tmplOf s die k.tmpl) k.key)
    if a.contains e then a else a ++ [e]) []
  ks.foldl (fun s e => formAll s die e.1 e.2 ((s.caller die).toks.length + 1)) s

/-- The oldest position of a flow is released: its tokens, its EMIT records, its completion records (R349); none while an
EMIT record is held or the position has not ended. -/
def releaseOne (s : State) (die f : Nat) : Option State :=
  match (smGet {} f (s.caller die).flows).window with
  | [] => none
  | w :: _ =>
    let put : FlowPos → State → State := fun w s => s.mapCaller die (fun cl =>
      let fl := smGet {} f cl.flows
      { cl with flows := smPut {} f { fl with window := w :: fl.window.drop 1 } cl.flows })
    if !w.ended then none
    else
      let s := w.tokens.foldl (fun s k => deliver s k) (put { w with tokens := [] } s)
      let (s, left) := w.emits.foldl (fun (a : State × List (Nat × Nat × Nat)) e =>
        let (s, left) := a
        if left ≠ [] then (s, left ++ [e])
        else match sendEmit s e.1 e.2.1 e.2.2 with
          | (s, .sent) => (s, [])
          | (s, .held) => (s, [e])
          | (s, .refused code) => (stageFail s e.1 e.2.1 code, [])) (s, [])
      let s := put { w with tokens := [], emits := left } s
      if left ≠ [] then some s
      else
        let s := w.records.foldl (fun s r => postRecord s r.1 r.2.1 r.2.2) s
        let s := match w.inst.bind (instOf s) with
          | some x =>
            let (o, info) := if x.failed.isSome then instOutcome x.failed else x.ended.getD (Code.OK, 0)
            instComplete s x o info
          | none => s
        let s := passRecords s w.ctx w.arrs
        let s := s.mapCaller die (fun cl =>
          let fl := smGet {} f cl.flows
          { cl with flows := smPut {} f { fl with rel := (w.pos + 1) % 2 ^ 32, window := fl.window.drop 1 } cl.flows })
        some (retryFlow (s.mapIo (fun io => io.count64 (bCaller die) Off.caller_RELEASED_LO 1)) die)

/-- Release what a flow can release. -/
def releaseFlow (s : State) (die f : Nat) : Nat → State
  | 0 => s
  | fuel + 1 =>
    let n := (smGet {} f (s.caller die).flows).window.length
    match releaseOne s die f with
    | none => s
    | some s' => if (smGet {} f (s'.caller die).flows).window.length < n then releaseFlow s' die f fuel else s'

/-- Eligible cores of a cluster for deadline work, by rising die position (R386). -/
def deadlineCores (s : State) (cl : Nat) : List Nat :=
  (List.range 8).map (fun i => 8 * cl + i) |>.filter (fun n => s.io.enabled (bCore n) && !s.io.isOffline (bCore n) && decide (coreMode s n = 0))

/-- Whether a core is a guard core: one of the G_c eligible cores with the highest positions (R386). -/
def isGuard (s : State) (n : Nat) : Bool :=
  let cl := clusterOfCore n
  let g := smGet 0 cl s.adm.guard
  let cs := deadlineCores s cl
  (cs.drop (cs.length - g)).contains n

/-- A forward-only task of a round carries no batch (R315). -/
def Task.forwards (t : Task) : Bool := t.only.isSome && t.opnds == []

/-- Whether a core may take a task (R126, R318, R343, R386). -/
def eligible (s : State) (t : Task) (n : Nat) : Bool :=
  let tm := tmplOf s t.die t.tmpl
  let dl := (s.service? t.svc).any (fun v => v.deadline)
  decide (dieOfCore n = t.die) && s.io.enabled (bCore n) && s.io.ready (bCore n) && !s.io.isOffline (bCore n) && (codeRange s t.svc n).isSome
    && ((!dl || t.forwards || decide (coreMode s n = 0)))
    && (!isGuard s n || tm.deadline)
    && (tm.seq ≠ 1 || (List.range 16).any (fun k => (seqOf s n k).st = 0))
    && (match t.binding with
        | some b => tm.seq ≠ 2 || b.core == n
        | none => true)
    && (match t.inst with
        | some (i, st, _) => st == 0 || (instOf s i).any (fun x => x.anchor == some n)
        | none => true)
    && (match t.only with
        | some m => m == n
        | none => true)

/-- Whether task `a` comes before task `b` (R315, R342, R391). -/
def taskBefore (s : State) (a b : Task) : Bool :=
  let pa := taskPri s a
  let pb := taskPri s b
  let key : Task → Nat × Nat × Nat × Nat := fun t =>
    let d := if taskPri s t = 0 ∧ (tmplOf s t.die t.tmpl).deadline then (1, t.deadline.getD (2 ^ 64)) else (2, 0)
    (if t.only.isSome then 0 else d.1, d.2, t.readyAt, t.tmpl)
  let (a1, a2, a3, a4) := key a
  let (b1, b2, b3, b4) := key b
  if pa ≠ pb then decide (pa < pb) else if a1 ≠ b1 then decide (a1 < b1) else if a2 ≠ b2 then decide (a2 < b2)
  else if a3 ≠ b3 then decide (a3 < b3) else decide (a4 < b4)

/-- Insert a task in dispatch order, after its equals. -/
def insertTask (s : State) (t : Task) : List Task → List Task
  | [] => [t]
  | u :: l => if taskBefore s t u then t :: u :: l else u :: insertTask s t l

/-- The ready tasks of a die in dispatch order. -/
def readyOrder (s : State) (die : Nat) : List Task := (s.caller die).ready.foldl (fun l t => insertTask s t l) []

/-- The core that a task goes to now, and whether it starts there at once (R344). -/
def chooseCore (s : State) (t : Task) : Option (Nat × Bool) :=
  let cl := s.caller t.die
  let cs := ((List.range 48).map (fun p => 48 * t.die + p)).filter (eligible s t)
  let idle := cs.filter (fun n => (s.core n).run == .waiting && (smFind n cl.next).isNone)
  match (idle.find? (fun n => (s.core n).lastCn == some t.ctx)).or idle.head? with
  | some n => some (n, true)
  | none =>
    let busy := cs.filter (fun n => ((s.core n).run == .running || (s.core n).run == .between) && (smFind n cl.next).isNone)
    match busy with
    | [] => none
    | n :: rest => some (rest.foldl (fun a b => if (s.core b).startAt < (s.core a).startAt then b else a) n, false)

/-- The wait bin of a dispatch (R368). -/
def waitBin (w : Nat) : Nat := if w < 8 then 0 else min (Nat.log2 w - 2) 15

/-- A task goes to a core: it starts, or takes the NEXT register and pre-opens its streams (R127, R344). -/
def placeTask (s : State) (t : Task) (n : Nat) (now : Bool) : State :=
  let b := bCaller t.die
  let l := taskPri s t
  let q := 0x1040 + 0x80 * l
  let s := s.mapCaller t.die (fun cl => { cl with ready := cl.ready.filter (fun u => u.id ≠ t.id) })
  let s := s.mapIo (fun io => ((io.count64 b Off.caller_DISPATCHED_LO 1).count b (q + 8) 1).count b (q + 0x40 + 4 * waitBin (io.tb - t.readyAt)) 1)
  let s := touchCn s t.ctx
  if now then startTask s n t
  else
    let s := s.mapCaller t.die (fun cl => { cl with next := smInsert n t cl.next })
    preOpenAll s n t false

/-- The first batches of a set that wait on a die. -/
def waitingBatches (s : State) (die set : Nat) : List FiredBatch := s.expert.fired.filter (fun f => f.die == die && f.set == set)

/-- ROUND_FORM: when no round runs on the die, the due set with the oldest batch gives its batches to cores, and every
other core a forward-only task (R314, R315). -/
def formRound (s : State) (die : Nat) : State :=
  if s.expert.rounds.any (fun r => r.die == die) then s
  else
    let due : FiredBatch → Bool := fun f => decide (f.min ≤ (waitingBatches s die f.set).length)
    match s.expert.fired.find? (fun f => f.die == die && due f) with
    | none => s
    | some f =>
      let bs := waitingBatches s die f.set
      let all := ((List.range 48).map (fun p => 48 * die + p)).filter (fun n => !s.io.isOffline (bCore n))
      let cores := all.filter (fun n => s.io.enabled (bCore n) && decide (coreMode s n = 0))
      let take := (bs.take cores.length).zip cores
      let rest := all.filter (fun n => !(take.any (fun e => e.2 == n)))
      let ids := take.map (fun e => e.1.task.id)
      let s := { s with expert := { s.expert with fired := s.expert.fired.filter (fun g => !(ids.contains g.task.id)) } }
      let s := if (waitingBatches s die f.set) = [] then dropTimer s die (.round f.set) else s
      let s := take.foldl (fun s e => queueTask s { e.1.task with only := some e.2, readyAt := s.io.tb }) s
      let (s, fw) := rest.foldl (fun (a : State × List Nat) n =>
        let (t, s) := makeTask a.1 die f.fwd []
        let t := { t with only := some n, pri := f.task.pri, ctx := f.task.ctx, svc := f.task.svc }
        (queueTask s t, a.2 ++ [t.id])) (s, [])
      { s with expert := { s.expert with rounds := s.expert.rounds ++ [⟨die, f.set, ids ++ fw⟩] } }

/-- A task whose binding has retired is dropped and counted (R319, R343). -/
def dropStale (s : State) (die : Nat) : State :=
  let stale := (s.caller die).ready.filter (fun t => decide ((tmplOf s die t.tmpl).seq = 2) && t.binding.all (fun b => !bindingLive s b false))
  stale.foldl (fun s t =>
    let s := s.mapIo (fun io => io.count (bCaller die) Off.caller_STALE_SEQ 1)
    dropTask s t 0 Code.CANCELLED) s

/-- A slot of a core became FREE: the oldest opening task of the highest level takes it before any other task (R318). -/
def refill (s : State) (n : Nat) : State :=
  let die := dieOfCore n
  if s.io.bf (bCaller die) 0x008 10 10 = 1 then s
  else
    let want := (readyOrder s die).filter (fun t => decide ((tmplOf s die t.tmpl).seq = 1) && eligible s t n)
    let cl := s.caller die
    match want with
    | [] => s
    | t :: _ =>
      if (smFind n cl.next).isSome ∨ (s.core n).run = .halted then s
      else placeTask s t n ((s.core n).run == .waiting)

/-- Slots of a die that have become FREE are offered. -/
def refillAll (s : State) (die : Nat) : State :=
  (s.cores.filter (fun e => decide (dieOfCore e.1 = die) && e.2.seqs.any (fun q => q.2.offer))).foldl (fun s e =>
    let c := s.core e.1
    let clear : Nat × Seq → Nat × Seq := fun q => (q.1, { q.2 with offer := false })
    refill (s.setCore e.1 { c with seqs := c.seqs.map clear }) e.1) s

/-- One dispatch of a Caller: the first task in order that has a core (R342, R391). -/
def dispatchOne (s : State) (die : Nat) : State :=
  if s.io.bf (bCaller die) 0x008 10 10 = 1 then s
  else
    let s := refillAll (housekeep (dropStale (formRound s die) die)) die
    match (readyOrder s die).findSome? (fun t => (chooseCore s t).map (fun e => (t, e))) with
    | some (t, n, now) => placeTask s t n now
    | none => s

/-- DISPATCH of a die (R342 to R344). -/
def execDispatch (die : Nat) (s : State) : Host.Outcome State Fault Refusal := .next (dispatchOne s die)

/-- FLOW_RELEASE: releasable positions of a flow are released in order (R349). -/
def execFlowRelease (die flow : Nat) (s : State) : Host.Outcome State Fault Refusal :=
  .next (housekeep (releaseFlow (housekeep s) die flow 1025))

/-- ROUND_WAIT_EXPIRY: the oldest batch of a set has waited ROUND_WAIT ticks, and its round is due (R314, R393). -/
def execRoundWaitExpiry (die set : Nat) (s : State) : Host.Outcome State Fault Refusal :=
  let w : TimerFor := .round set
  if !((s.caller die).timers.any (fun t => t.what == w && decide (t.left = 0))) then .next s
  else
    let s := s.mapCaller die (fun cl => { cl with timers := cl.timers.filter (fun t => t.what != w) })
    let go : FiredBatch → FiredBatch := fun f => if f.die = die ∧ f.set = set then { f with min := 0 } else f
    let s := { s with expert := { s.expert with fired := s.expert.fired.map go } }
    .next (formRound s die)

end Sys2Proof.Machine
end

