-- ==== Sys2Proof/Machine/Cancel.lean ====
section
/-! DEFINITION. Cancels (R357 to R359), core exceptions and context containment (R183, R533), and the commands FUSED_RUN,
TOKEN_PUT, NOP and CANCEL (R353, R337, R361). -/

namespace Sys2Proof.Machine

/-- The job class of a command's token: the service's class of SOURCE 1 whose first stage is the template (R378, R390). -/
def classOfPut (s : State) (svc die n : Nat) : Option Nat :=
  (s.service? svc).bind (fun v => (v.jobs.find? (fun j => j.source == 1 && (j.stages.head?.any (fun e => e.1 == die * 16384 + n)))).map (fun j => j.id))

/-- Release time and class of a command's token (R390). -/
def putRelease (s : State) (cn svc die n : Nat) : Nat × Option Nat × State :=
  match classOfPut s svc die n with
  | some j => let (r, s) := releaseAt s cn svc j; (r, some j, s)
  | none => (s.io.tb, none, s)

/-- An instance is cancelled with everything of it, unless it has failed or ended (R358, R359). -/
def cancelInst (s : State) (i : Nat) : State × Nat :=
  match instOf s i with
  | none => (s, 0)
  | some x =>
    if x.failed.isSome ∨ x.ended.isSome then (s, 0)
    else
      let s := setInst s { x with failed := some markCancelled }
      let s := s.mapIo (fun io => io.count (bCaller x.die) Off.caller_CANCELLED 1)
      (settleAll (instStop s { x with failed := some markCancelled }), 1)

/-- A fired batch task that waits for its round is dropped. -/
def dropFired (s : State) (t : Task) : State :=
  dropTask { s with expert := { s.expert with fired := s.expert.fired.filter (fun f => f.task.id ≠ t.id) } } t 0 Code.CANCELLED

/-- One task is cancelled, wherever it is; the stage of an instance cancels the instance (R357). -/
def cancelTask (s : State) (t : Task) (core : Option Nat) : State × Nat :=
  match t.inst with
  | some (i, _, _) => cancelInst s i
  | none =>
    match core with
    | some n => (abortTask s n Code.CANCELLED 0, 1)
    | none =>
      if s.expert.fired.any (fun f => f.task.id == t.id) then (dropFired s t, 1)
      else
        let n := ((s.caller t.die).next.find? (fun e => e.2.id == t.id)).map Prod.fst
        (dropTask s t (n.getD 0) Code.CANCELLED, 1)

/-- Tasks that a predicate selects and that have not ended, waiting ones first, with the core of a running one. -/
def liveTasks (s : State) (p : Task → Bool) : List (Task × Option Nat) :=
  ((s.call.flatMap (fun e => e.2.next.map Prod.snd ++ e.2.ready) ++ s.expert.fired.map (fun f => f.task)).filter p).map (fun t => (t, none))
    ++ (s.cores.filterMap (fun e => e.2.task.map (fun t => (t, some e.1)))).filter (fun e => p e.1)

/-- Cancel every task that a predicate selects, where it then is; those that a first cancel stopped with its instance are
counted once. -/
def cancelTasks (s : State) (p : Task → Bool) : State × Nat :=
  (liveTasks s p).foldl (fun (a : State × Nat) e =>
    match (liveTasks a.1 p).find? (fun f => f.1.id == e.1.id) with
    | some f =>
      let (s, n) := cancelTask a.1 f.1 f.2
      (s, a.2 + n)
    | none => a) (s, 0)

/-- Remove the tokens that a predicate selects from ports, sources and batches, with the timers that they leave behind;
commands that wait for one complete CANCELLED, and ingress records of removed tokens are passed (R358, R436). -/
def dropTokens (s : State) (p : Token → Bool) : State :=
  let waiting := s.host.arrivals.filter p
  let s := { s with host := { s.host with arrivals := s.host.arrivals.filter (fun k => !p k) } }
  let s := waiting.foldl (fun s k => passRecords s k.ctx (k.arr.toList)) s
  s.call.foldl (fun s e =>
    let die := e.1
    let cl := s.caller die
    let gone := (cl.toks ++ cl.held).filter p
    let batches := s.expert.batches.filter (fun b => b.die == die && b.toks.any p)
    let s := s.mapCaller die (fun cl => { cl with toks := cl.toks.filter (fun k => !p k), held := cl.held.filter (fun k => !p k) })
    let s := s.mapCaller die (fun cl => { cl with timers := cl.timers.filter (fun t => match t.what with
      | .instance_ n key idx => (instanceToks s die n key idx).any (fun o => o.isSome)
      | _ => true) })
    let s := batches.foldl (fun s b =>
      let left := b.toks.filter (fun k => !p k)
      let s := { s with expert := { s.expert with batches := s.expert.batches.filterMap (fun x =>
        if x.serial = b.serial then (if left = [] then none else some { x with toks := left }) else some x) } }
      match left, stageOf s die b.entry with
      | [], some g => s.mapCaller die (fun cl => { cl with timers := cl.timers.filter (fun t => t.what != .expert g.stage b.expert b.serial) })
      | _, _ => s) s
    let gone := gone ++ batches.flatMap (fun b => b.toks.filter p)
    let s := gone.foldl (fun s k => match k.grp with
      | some g => if k.src = .routeReturn then { s with expert := { s.expert with groups := s.expert.groups.filter (fun x => x.id ≠ g) } } else routeDone s g false
      | none => s) s
    let s := gone.foldl (fun s k => match k.cmd with
      | some c => finish s c Code.CANCELLED
      | none => s) s
    gone.foldl (fun s k => passRecords s k.ctx (k.arr.toList)) s) s

/-- A taken command is stopped, with everything that it started (R357, R358): the state, and how many it stopped. -/
def stopCmd (s : State) (r : CmdRun) : State × Nat :=
  let c := r.cmd
  if !r.started then (finish s c Code.CANCELLED, 1)
  else if c.op = 0x10 then
    match s.adm.insts.find? (fun x => x.cmd == some c) with
    | some x => cancelInst s x.id
    | none => (finish s c Code.CANCELLED, 1)
  else if c.op = 0x11 then (dropTokens (finish s c Code.CANCELLED) (fun k => k.cmd == some c), 1)
  else if c.op = 0x09 ∨ c.op = 0x0B then
    match s.queue.runs.find? (fun u => u.cmd == c) with
    | some u => (stopRun s u.id Code.CANCELLED, 1)
    | none => (finish s c Code.CANCELLED, 1)
  else if c.op = 0x0A then
    match s.egp.fences.find? (fun f => f.cmd == c) with
    | some f =>
      match tabAt s f.table with
      | some t => if f.phase = .close ∧ f.missing.isNone ∧ marksMissing s t f ≠ 0 then (setFence s { f with missing := some (marksMissing s t f) }, 1) else (s, 0)
      | none => (s, 0)
    | none => (finish s c Code.CANCELLED, 1)
  else if c.op = 0x0C then
    if (List.range 4).any (fun u => ((weaver s u).queue ++ (weaver s u).active).any (fun w => w.cmd == c)) then
      (stopCopies s (fun w => w.cmd == c) (List.range 4) Code.CANCELLED, 1)
    else (finish s c Code.CANCELLED, 1)
  else if c.op = 0x42 then
    match s.fab.colls.find? (fun x => x.cmd == c) with
    | some x => (collAbort s x Code.CANCELLED, 1)
    | none => (finish s c Code.CANCELLED, 1)
  else
    match s.adm.ctxs.find? (fun e => e.2.wakeCmds.contains c) with
    | some (_, x) => (finish (s.setCtx { x with wakeCmds := x.wakeCmds.filter (fun d => !(d == c)) }) c Code.CANCELLED, 1)
    | none => (s, 0)

/-- Stop every command that a predicate selects. -/
def stopCmds (s : State) (p : CmdRun → Bool) : State × Nat :=
  (s.adm.cmds.filter p).foldl (fun (a : State × Nat) r =>
    if a.1.adm.cmds.any (fun q => q.cmd == r.cmd) then
      let (s, n) := stopCmd a.1 r
      (s, a.2 + n)
    else a) (s, 0)

/-- Sequence slots of a context are retired and their sequences lost (R358). -/
def retireSlots (s : State) (cn : Nat) : State :=
  s.cores.foldl (fun s e =>
    (e.2.seqs.filter (fun f => decide (f.2.cn = cn) && decide (f.2.st = 1 ∨ f.2.st = 2))).foldl (fun s f =>
      setSeq s e.1 f.1 { f.2 with st := 3, reported := decide (f.2.st = 1) }) s) s

/-- A cancel of scope CONTEXT (R358): everything of a context but one command. -/
def cancelContext (s : State) (cn : Nat) (keep : Option Cmd) : State × Nat :=
  let (s, n) := stopCmds s (fun r => r.cmd.ring == cn + 1 && some r.cmd != keep)
  let (s, m) := cancelTasks s (fun t => t.ctx == cn)
  let (s, k) := (s.adm.insts.filter (fun x => x.ctx == cn)).foldl (fun (a : State × Nat) x =>
    let (s, j) := cancelInst a.1 x.id
    (s, a.2 + j)) (s, 0)
  let s := retireSlots s cn
  let s := cancelReqs s (fun r => r.cn == cn)
  let mine : Token → Bool := fun t => t.ctx == cn
  let open_ := s.expert.groups.filter (fun g => g.cn == cn && !g.returning)
  let s := dropTokens s mine
  let s := open_.foldl (fun s g =>
    let close : RouteGroup → RouteGroup := fun x => if x.id = g.id ∧ !x.returning then { x with sealed := true, failed := x.routes - x.ok } else x
    groupReturn { s with expert := { s.expert with groups := s.expert.groups.map close } } g.id) s
  let (s, _) := cancelTasks (dropTokens s mine) (fun t => t.ctx == cn)
  (housekeep s, n + m + k)

/-- Every flow releases what it can. -/
def releaseAll (s : State) : State :=
  s.call.foldl (fun s e => e.2.flows.foldl (fun s f => releaseFlow s e.1 f.1 1025) s) s

/-- A flow is free again (R437). -/
def freeFlow (s : State) (die : Nat) (f : Option Nat) : State :=
  match f with
  | some f => s.mapCaller die (fun c => { c with flows := smErase f c.flows })
  | none => s

/-- A session is unbound: its queue pair is reset and its flow is free (R437). -/
def unbindSess (s : State) (n : Nat) : State :=
  match smFind n s.host.sess with
  | none => s
  | some x =>
    let s := { s with host := { s.host with sess := smErase n s.host.sess } }
    let s := setIngress s x.cn { ingress s x.cn with resv := (ingress s x.cn).resv.filter (fun e => e.1 ≠ n) }
    freeFlow s ((s.ctx? x.cn).map (fun c => c.home) |>.getD 0) x.flow

/-- An inbox is unbound: credits that senders hold are void (R465). -/
def unbindInbox (s : State) (n : Nat) : State :=
  match smFind n s.fab.inboxes with
  | none => s
  | some x =>
    let s := { s with fab := { s.fab with inboxes := smErase n s.fab.inboxes } }
    let of_ : Nat → Bool := fun src => decide (2 ^ 20 ≤ src) && decide ((src - 2 ^ 20) / 4096 = n)
    let s := setIngress s x.cn { ingress s x.cn with resv := (ingress s x.cn).resv.filter (fun e => !of_ e.1) }
    freeFlow s ((s.ctx? x.cn).map (fun c => c.home) |>.getD 0) x.flow

/-- A context is gone after its cancel fence: its sessions and inboxes, descriptor table, regions of context scope,
rings, slot and number (R79, R379, R437). -/
def closeContext (s : State) (cn : Nat) : State :=
  match s.ctx? cn with
  | none => s
  | some c =>
    let s := (s.host.sess.filter (fun e => decide (e.2.cn = cn))).foldl (fun s e => unbindSess s e.1) s
    let s := (s.fab.inboxes.filter (fun e => decide (e.2.cn = cn))).foldl (fun s e => unbindInbox s e.1) s
    let s := s.setCtx { c with descs := [] }
    let s := (s.adm.regions.filter (fun e => e.2.used && e.2.owner == cn + 1 && !e.2.wide)).foldl (fun s e => freeRegion s e.1) s
    let s := c.closeCmds.foldl (fun s d => finish s d Code.OK) s
    { s with adm := { s.adm with ctxs := smErase cn s.adm.ctxs, slots := s.adm.slots.filter (fun e => e.2 ≠ cn),
                                 refs := s.adm.refs.filter (fun r => r.1 ≠ cn) },
             host := { s.host with rings := smErase (cn + 1) s.host.rings, ing := smErase cn s.host.ing } }

/-- Cancels whose fences have completed complete, after the records of what they released (R359); a CTX_DESTROY then
frees its context. -/
def finishCancels (s : State) : State :=
  s.adm.cancels.foldl (fun s r =>
    if r.cores.any (fun n => (s.core n).fence) then s
    else
      let s := { s with adm := { s.adm with cancels := s.adm.cancels.filter (fun q => !(q.cmd == r.cmd)) } }
      let s := releaseAll (housekeep s)
      if r.cmd.op = 0x24 then closeContext s (r.cmd.p 0x10 2) else finish s r.cmd Code.OK (leBytes 4 r.stopped)) s

/-- The CANCEL command (R357 to R359). -/
def cancelRun (s : State) (c : Cmd) : State :=
  let scope := c.p 0x10 1
  let tag := c.p 0x18 8
  let id := c.p 0x14 4
  if 2 < scope then refuse s c Code.BAD_CANCEL
  else
    let (s, n) :=
      if scope = 0 then cancelTasks s (fun t => t.id == id && c.ring == t.ctx + 1)
      else if scope = 1 then stopCmds s (fun r => r.cmd.ring == c.ring && r.cmd.tag == tag && r.cmd != c)
      else if c.ring = 0 then stopCmds s (fun r => r.cmd.ring == 0 && r.cmd != c)
      else cancelContext s (c.ring - 1) (some c)
    let s := housekeep s
    let cores := (s.cores.filter (fun e => e.2.fence)).map Prod.fst
    finishCancels { s with adm := { s.adm with cancels := s.adm.cancels ++ [⟨c, n, cores⟩] } }

/-- CONTEXT_CONTAINED: a context whose tasks raise too many exceptions in one second is cancelled (R533). -/
def containContext (s : State) (cn : Nat) : State :=
  match s.ctx? cn with
  | none => s
  | some c =>
    let excs := c.excs.filter (fun t => decide (s.io.tb < t + 100000000)) ++ [s.io.tb]
    let limit := s.io.bf bEvtq Off.evtq_CONTAIN_CFG 31 16
    if limit = 0 ∨ excs.length ≤ limit then s.setCtx { c with excs := excs }
    else
      let s := s.setCtx { c with excs := [] }
      let s := s.mapIo (fun io => (io.count bEvtq Off.evtq_CONTAINED 1).note bEvtq Cls.CONTAINMENT Code.CONTEXT_CONTAINED c.slot 0 excs.length)
      (cancelContext s cn none).1

/-- CORE_EXCEPTION: recorded, the task aborted or the core halted, and the context contained when it raises too many
(R183, R184). -/
def raiseExc (s : State) (n code : Nat) : State :=
  let c := s.core n
  let b := bCore n
  let ctx := c.task.bind (fun t => (s.ctx? t.ctx).bind (fun x => x.slot))
  let s := s.mapIo (fun io =>
    let io := (io.setReg64 (b.base + Off.fcore_EXC_PC_LO) c.pc).setReg (b.base + Off.fcore_EXC_VALID) (2 ^ 31 + code)
    ((io.count b Off.fcore_EXC_COUNT 1).capture b code c.pc ctx).rise b 2 ctx)
  if s.io.bf b 0x008 8 8 = 1 ∧ s.fac.lc = 3 then s.setCore n { s.core n with run := .halted }
  else
    let cn := c.task.map (fun t => t.ctx)
    let s := housekeep (abortTask s n Code.CORE_EXC code)
    match cn with
    | some k => containContext s k
    | none => s

/-- TOKEN_PUT: an operand token from a ring (R337); it completes when the token is accepted (R363). -/
def tokenPut (s : State) (c : Cmd) : State :=
  let w := c.p 0x10 2
  let die := w / 32768
  let cn := c.ring - 1
  let svc := c.issuerSvc s
  let (r, cls, s) := putRelease s cn svc die (w % 16384)
  let k : Token := { die := die, tmpl := w % 16384, port := c.p 0x12 1, key := c.p 0x18 8, val := c.p 0x20 8, ctx := cn, svc := svc,
                     rel := r, src := .ring c.ring, cmd := some c, cls := cls }
  match offerToken s k with
  | (s, .accepted) => s
  | (s, .held) => s
  | (s, _) => finish s c Code.BAD_TEMPLATE

/-- FUSED_RUN: the operands of a chain's head task make its instance, once slots and the flow's window allow (R348,
R351, R353). -/
def fusedRun (s : State) (c : Cmd) : State :=
  let cn := c.ring - 1
  let svc := c.issuerSvc s
  match (s.service? svc).bind (fun v => v.chains.find? (fun x => x.id == c.p 0x10 2)) with
  | none => refuse s c Code.BAD_CHAIN
  | some x =>
    let h := (x.stage 0).tmpl
    let die := h / 32768
    let n := h % 16384
    let t := tmplOf s die n
    let used := slotHolders s die
    let q := match s.service? svc with
      | some v => if die = 0 then v.quota0 else v.quota1
      | none => 131072
    if 131072 < used.length + t.nin ∨ q < (used.filter (fun v => v == svc)).length + t.nin then
      s.mapIo (fun io => io.rise (bCaller die) 3)
    else if windowFull s die (flowOf t none) then s
    else
      let (r, cls, s) := putRelease s cn svc die n
      let ks := (List.range t.nin).map (fun i =>
        ({ die := die, tmpl := n, port := i, key := c.p 0x18 8, val := c.p (0x20 + 8 * i) 8, ctx := cn, svc := svc, rel := r,
           src := .ring c.ring, cmd := some c, cls := cls } : Token))
      let s := s.mapIo (fun io => io.count64 (bCaller die) Off.caller_TOKENS_LO t.nin)
      let (task, s) := makeTask s die n (ks.map some)
      touchCn (queueTask s task) cn

/-- CANCEL (R357). -/
def execCancelCmd (c : Cmd) (s : State) : Host.Outcome State Fault Refusal := .next (cancelRun s c)

/-- NOP: it completes (Table 13.8). -/
def execCmdNop (c : Cmd) (s : State) : Host.Outcome State Fault Refusal := .next (finish s c Code.OK)

/-- TOKEN_PUT (R337). -/
def execTokenPut (c : Cmd) (s : State) : Host.Outcome State Fault Refusal := .next (tokenPut s c)

/-- FUSED_RUN (R353). -/
def execFusedRun (c : Cmd) (s : State) : Host.Outcome State Fault Refusal := .next (fusedRun s c)

/-- FENCED_COMMAND_START: a command with FENCE starts once every earlier command of its ring has completed (R363). -/
def execFencedCommandStart (ring pos : Nat) (s : State) : Host.Outcome State Fault Refusal :=
  let before := s.adm.cmds.takeWhile (fun r => !(r.cmd.ring == ring && r.cmd.pos == pos))
  if before.any (fun r => r.cmd.ring == ring) then .next s
  else
    let go : CmdRun → CmdRun := fun r => if r.cmd.ring = ring ∧ r.cmd.pos = pos then { r with started := true } else r
    .next { s with adm := { s.adm with cmds := s.adm.cmds.map go } }

end Sys2Proof.Machine
end

