-- ==== Sys2Proof/Machine/Contexts.lean ====
section
/-! DEFINITION. Contexts and slots: R372 to R376, R379, R392, R394, R426. -/

namespace Sys2Proof.Machine

/-- Slots pinned or reserved: slot 0 and MAX_CTX of every deadline service (R374). -/
def slotsPinned (s : State) : Nat :=
  s.adm.services.foldl (fun a e => if e.2.deadline then a + e.2.maxCtx else a) 1

/-- Slots that best-effort contexts hold. -/
def slotsBest (s : State) : Nat :=
  (s.adm.slots.filter (fun e => (s.ctx? e.2).any (fun c => (s.service? c.svc).any (fun v => !v.deadline)))).length

/-- The least number from `i` on that is not used. -/
def leastFree (used : Nat → Bool) : Nat → Nat → Nat
  | 0, i => i
  | fuel + 1, i => if used i then leastFree used fuel (i + 1) else i

/-- The lowest slot that no context holds. -/
def freeSlot (s : State) : Option Nat :=
  let i := leastFree (fun k => (smFind k s.adm.slots).isSome) (s.adm.slots.length + 1) 1
  if i < 4096 then some i else none

/-- The lowest free slot, while one is left beside the reserved ones (R374). -/
def freeUnreserved (s : State) : Option Nat := if slotsPinned s + slotsBest s < 4096 then freeSlot s else none

/-- The next number in issue order that is not in use (R371, R372). -/
def issueNumber (lo hi : Nat) (used : Nat → Bool) : Nat → Nat → Nat
  | 0, i => i
  | fuel + 1, i =>
    let i := if hi < i then lo else i
    if used i then issueNumber lo hi used fuel (i + 1) else i

/-- The ACTIVE condition (R373). -/
def ctxActive (s : State) (cn : Nat) : Bool :=
  s.adm.cmds.any (fun r => r.cmd.ring == cn + 1)
    || s.call.any (fun e => (e.2.toks ++ e.2.held).any (fun k => k.ctx == cn) || e.2.ready.any (fun t => t.ctx == cn)
      || e.2.next.any (fun t => t.2.ctx == cn) || e.2.ended.any (fun t => t.task.ctx == cn)
      || e.2.flows.any (fun f => f.2.window.any (fun w => w.ctx == cn)))
    || s.expert.batches.any (fun b => b.toks.any (fun k => k.ctx == cn)) || s.expert.fired.any (fun f => f.task.ctx == cn)
    || s.cores.any (fun e => e.2.task.any (fun t => t.ctx == cn))
    || (openStrms s).any (fun e => e.2.2.cn == cn)
    || (s.ring? (cn + 1)).any (fun r => r.sqHead != r.sqTail)

/-- PARKED or LIVE record of a context: CN and slot, whatever the mask (R375, R528). -/
def slotRecord (s : State) (code cn slot : Nat) : State :=
  s.mapIo (fun io => (io.riseQuiet bAdmit 3).note bAdmit Cls.SERVICE code none 0 (cn * 65536 + slot))

/-- A context is parked: its slot is free, and entries not taken keep the ID of that slot (R375, R426). -/
def parkCtx (s : State) (c : Ctx) (slot : Nat) : State :=
  let s := { s with adm := { s.adm with slots := smErase slot s.adm.slots } }
  let s := match s.ring? (c.cn + 1) with
    | some r => if r.sqHead ≠ r.sqTail then s.setRing (c.cn + 1) { r with oldId := some (slot, r.sqTail) } else s
    | none => s
  let s := s.setCtx { c with st := .parked, slot := none }
  slotRecord (s.mapIo (fun io => io.count bAdmit Off.admit_PARKS 1)) Code.CTX_PARKED c.cn slot

/-- The LIVE best-effort context, not ACTIVE, that has been inactive the longest; of equals the one in the lower slot
(R375). -/
def parkVictim (s : State) : Option (Ctx × Nat) :=
  s.adm.slots.foldl (fun best e =>
    match s.ctx? e.2 with
    | some c =>
      if c.st = .live ∧ !ctxActive s c.cn then
        match best with
        | none => some (c, e.1)
        | some (b, _) => if c.last < b.last then some (c, e.1) else best
      else best
    | none => best) none

/-- A slot for a WAKING context: free, or that of a context parked for it (R375). -/
def winnable (s : State) : Option (Nat × State) :=
  match freeUnreserved s with
  | some k => some (k, s)
  | none => (parkVictim s).map (fun e => (e.2, parkCtx s e.1 e.2))

/-- Arrival tokens held for a context are delivered in order (R375, R376). -/
def deliverArrivals (s : State) (cn : Nat) : State :=
  let mine := s.host.arrivals.filter (fun k => k.ctx == cn)
  let s := { s with host := { s.host with arrivals := s.host.arrivals.filter (fun k => !(k.ctx == cn)) } }
  creditsFor (mine.foldl deliver s) cn

/-- The WAKING context that has waited longest wins a slot, if one can be won (R375). -/
def winSlot (s : State) : State :=
  match s.adm.waking with
  | [] => s
  | cn :: rest =>
    match s.ctx? cn, winnable s with
    | some _, some (slot, s) =>
      match s.ctx? cn with
      | none => s
      | some c =>
        let cmds := c.wakeCmds
        let s := s.setCtx { c with st := .live, slot := some slot, last := s.io.tb, wakeCmds := [] }
        let s := { s with adm := { s.adm with waking := rest, slots := smInsert slot cn s.adm.slots } }
        let s := slotRecord (s.mapIo (fun io => io.count bAdmit Off.admit_WAKES 1)) Code.CTX_LIVE cn slot
        let s := cmds.foldl (fun s d => finish s d Code.OK (leBytes 2 slot)) s
        deliverArrivals s cn
    | _, _ => s

/-- A PARKED context becomes WAKING (R375). -/
def wakeCtx (s : State) (c : Ctx) : State :=
  if c.st = .parked then
    let s := s.setCtx { c with st := .waking }
    { s with adm := { s.adm with waking := s.adm.waking ++ [c.cn] } }
  else s

/-- An arrival for a context: its token is delivered, or held while the context holds no slot, which makes a PARKED one
WAKING (R375, R376). -/
def arrive (s : State) (k : Token) : State :=
  match s.ctx? k.ctx with
  | none => s
  | some c =>
    if c.st = .pinned ∨ c.st = .live then creditsFor (deliver (touchCn s k.ctx) k) k.ctx
    else if c.st = .closing then passRecords s k.ctx k.arr.toList
    else
      let s := wakeCtx (s.setCtx { c with last := s.io.tb }) { c with last := s.io.tb }
      { s with host := { s.host with arrivals := s.host.arrivals ++ [k] } }

/-- Contexts of a service. -/
def ctxsOf (s : State) (svc : Nat) : List Ctx := (s.adm.ctxs.filter (fun e => e.2.svc == svc)).map Prod.snd

/-- The home die of a new context (R377). -/
def homeOf (s : State) (v : Service) : Nat :=
  if v.home < 2 then v.home
  else
    let n : Nat → Nat := fun d => ((ctxsOf s v.num).filter (fun c => c.home == d)).length
    if n 1 < n 0 then 1 else 0

/-- Whether the SVC_REMOVE of a service that holds no context is in progress (R379, R380). -/
def beingRemoved (s : State) (n : Nat) : Bool :=
  (ctxsOf s n).isEmpty && s.adm.cmds.any (fun q => q.started && q.cmd.op == 0x22 && q.cmd.p 0x10 2 == n)

/-- CTX_CREATE: the first check that fails (R372, R374, R379, R380), or the slot.  A deadline context takes a reserved slot
that a LIVE best-effort context still holds by having it parked (DEDUCED, log entry 54). -/
def ctxCreateCheck (s : State) (n : Nat) : Except Nat (Service × Option Nat) :=
  match s.service? n with
  | none => .error Code.NO_SERVICE
  | some v =>
    if beingRemoved s n then .error Code.SVC_BUSY
    else if 65536 ≤ s.adm.ctxs.length then .error Code.CTX_FULL
    else if v.maxCtx ≤ (ctxsOf s n).length then .error Code.CTX_SLOTS
    else if v.deadline then
      match (freeSlot s).or ((parkVictim s).map Prod.snd) with
      | some k => .ok (v, some k)
      | none => .error Code.CTX_SLOTS
    else .ok (v, freeUnreserved s)

/-- State code of a context (Table 14.1). -/
def CtxState.code : CtxState → Nat
  | .pinned => 0
  | .live => 1
  | .parked => 2
  | .waking => 3
  | .closing => 4

/-- INFO of a refused CTX_CREATE: the limit that a CTX_SLOTS names (R374). -/
def ctxCreateInfo (s : State) (n code : Nat) : Nat :=
  match s.service? n with
  | some v => if code ≠ Code.CTX_SLOTS then 0 else if v.maxCtx ≤ (ctxsOf s n).length then v.maxCtx else 4096
  | none => 0

/-- CTX_CREATE (R374). -/
def execCtxCreate (c : Cmd) (s : State) : Host.Outcome State Fault Refusal :=
  match ctxCreateCheck s (c.p 0x10 2) with
  | .error e => .next (refuse s c e (ctxCreateInfo s (c.p 0x10 2) e))
  | .ok (v, slot) =>
    let s := match slot.bind s.ctxOfSlot with
      | some x => parkCtx s x (slot.getD 0)
      | none => s
    let cn := issueNumber 0 65535 (fun i => (smFind i s.adm.ctxs).isSome) (s.adm.ctxs.length + 1) s.adm.nextCn
    let st : CtxState := if v.deadline then .pinned else if slot.isSome then .live else .parked
    let x : Ctx :=
      { cn := cn, svc := v.num, st := st, slot := slot, home := homeOf s v, buckets := [], last := s.io.tb,
        descs := v.descs.zipIdx.foldl (fun m e => smInsert e.2 ⟨e.1, false⟩ m) [], tableLen := v.tableLen }
    let s := s.setCtx x
    let s := { s with adm := { s.adm with nextCn := cn + 1, slots := match slot with
      | some k => smInsert k cn s.adm.slots
      | none => s.adm.slots } }
    .next (finish s c Code.OK (leBytes 2 cn ++ leBytes 2 (slot.getD 0xFFFF) ++ leBytes 1 st.code))

/-- CTX_DESTROY: a cancel of the context; it is freed after the cancel fence (R379, R437). -/
def ctxDestroy (s : State) (c : Cmd) : State :=
  let cn := c.p 0x10 2
  match s.ctx? cn with
  | none => refuse s c Code.NO_CONTEXT
  | some x =>
    if x.st = .closing then s.setCtx { x with closeCmds := x.closeCmds ++ [c] }
    else
      let s := s.setCtx { x with st := .closing, closeCmds := [c], wakeCmds := [] }
      let s := { s with adm := { s.adm with waking := s.adm.waking.filter (fun k => k ≠ cn) } }
      let s := x.wakeCmds.foldl (fun s d => finish s d Code.NO_CONTEXT (leBytes 2 0xFFFF)) s
      let s := (s.host.sess.filter (fun e => decide (e.2.cn = cn))).foldl (fun s e => sessError s e.1 Code.NO_CONTEXT) s
      let (s, n) := cancelContext s cn none
      let cores := (s.cores.filter (fun e => e.2.fence)).map Prod.fst
      finishCancels { s with adm := { s.adm with cancels := s.adm.cancels ++ [⟨c, n, cores⟩] } }

/-- CTX_DESTROY (R379). -/
def execCtxDestroy (c : Cmd) (s : State) : Host.Outcome State Fault Refusal := .next (ctxDestroy s c)

/-- CTX_WAKE: it completes once the context has a slot (R375, R379). -/
def execCtxWake (c : Cmd) (s : State) : Host.Outcome State Fault Refusal :=
  match s.ctx? (c.p 0x10 2) with
  | none => .next (refuse s c Code.NO_CONTEXT)
  | some x =>
    match x.st, x.slot with
    | .closing, _ => .next (refuse s c Code.NO_CONTEXT)
    | .pinned, some k => .next (finish s c Code.OK (leBytes 2 k))
    | .live, some k => .next (finish s c Code.OK (leBytes 2 k))
    | _, _ =>
      let x : Ctx := { x with wakeCmds := x.wakeCmds ++ [c] }
      .next (wakeCtx (s.setCtx x) x)

/-- CTX_WIN_SLOT (R375). -/
def execCtxWinSlot (s : State) : Host.Outcome State Fault Refusal := .next (winSlot s)

/-- Mark a task of a die as having missed its deadline, wherever it is. -/
def markMissed (s : State) (die id : Nat) : State :=
  let m : Task → Task := fun t => if t.die = die ∧ t.id = id then { t with missed := true } else t
  let s := s.mapCaller die (fun c => { c with ready := c.ready.map m, next := c.next.map (fun e => (e.1, m e.2)) })
  { s with cores := s.cores.map (fun e => (e.1, { e.2 with task := e.2.task.map m })) }

/-- DEADLINE_MISS: a deadline task that has not ended by its absolute deadline is counted and recorded once (R392). -/
def execDeadlineMiss (die id : Nat) (s : State) : Host.Outcome State Fault Refusal :=
  let live := (s.caller die).ready ++ (s.caller die).next.map Prod.snd ++ s.cores.filterMap (fun e => e.2.task)
  match live.find? (fun t => t.die == die && t.id == id) with
  | none => .next s
  | some t =>
    match t.deadline with
    | none => .next s
    | some d =>
      if t.missed ∨ s.io.tb ≤ d then .next s
      else
        let slot := (s.ctx? t.ctx).bind (fun c => c.slot)
        .next ((markMissed s die id).mapIo (fun io =>
          (io.count64 bAdmit Off.admit_DL_MISS_LO 1).riseNamed bAdmit 4 Cls.SERVICE Code.DEADLINE_MISS slot d t.id))

/-- ADM_CEIL_WRITE: each field takes a percentage from 1 to 95; a write with another value leaves that field and is captured
(R394). -/
def execAdmCeilWrite (who : Requester) (value : W32) (s : State) : Host.Outcome State Fault Refusal :=
  let off := bAdmit.base + Off.admit_ADM_CEIL
  match writeAllowed s.io who bAdmit off with
  | some io => .next { s with io := io }
  | none =>
    let v := value.toNat
    let bad : Nat → Bool := fun i => let x := bitsOf v (8 * i + 7) (8 * i); x == 0 || decide (95 < x)
    .next (s.mapIo (fun io =>
      let io := (List.range 4).foldl (fun io i => if bad i then io else io.setFld off (8 * i + 7) (8 * i) (bitsOf v (8 * i + 7) (8 * i))) io
      if (List.range 4).any bad then io.capture bAdmit Code.BAD_CEILING off else io))

/-- POWER_LIMIT_WRITE: 300 to 750 W, or BAD_CEILING (R394). -/
def execPowerLimitWrite (who : Requester) (value : W32) (s : State) : Host.Outcome State Fault Refusal :=
  let off := bAdmit.base + Off.admit_POWER_LIMIT
  match writeAllowed s.io who bAdmit off with
  | some io => .next { s with io := io }
  | none =>
    let x := bitsOf value.toNat 9 0
    .next (s.mapIo (fun io => if x < 300 ∨ 750 < x then io.capture bAdmit Code.BAD_CEILING off else io.setReg off x))

end Sys2Proof.Machine
end

