-- ==== Sys2Proof/Machine/DescRows.lean ====
section
/-! DEFINITION. The commands that end regions and make and end descriptors: R79, R100 to R104, R546. -/

namespace Sys2Proof.Machine

/-- Whether the issuer of a command could have registered a region (R79). -/
def couldRegister (s : State) (c : Cmd) (r : Region) : Bool :=
  if r.owner = 0 then decide (c.ring = 0)
  else if r.wide then decide (c.ring ≠ 0) && decide (c.issuerSvc s = r.svc)
  else decide (c.ring = r.owner)

/-- Whether a region handle is referenced (R79): by descriptor entries, open streams, local Pedlar transfers or admitted
images. -/
def regionBusy (s : State) (h : Nat) : Bool :=
  let names : Option Desc → Bool := fun d => d.any (fun d => decide (d.region = h))
  descsNaming s h
    || (openStrms s).any (fun e => names e.2.2.desc || names (e.2.2.list.map (fun l => l.1)) || names (e.2.2.zone.map (fun z => z.1)))
    || s.cores.any (fun e => e.2.peds.any (fun p => decide (p.dest = 0) && decide (p.region = h)))
    || s.adm.services.any (fun e => e.2.handles.contains h || e.2.descs.any (fun d => decide (d.region = h)))

/-- REGION_UNREG: BAD_REGION, REGION_PERM, REGION_BUSY, or the entry is free and its generation advances (R79). -/
def execRegionUnreg (c : Cmd) (s : State) : Host.Outcome State Fault Refusal :=
  let h := c.p 0x10 4
  match regionOf s h with
  | none => .next (refuse s c Code.BAD_REGION)
  | some r =>
    if !couldRegister s c r then .next (refuse s c Code.REGION_PERM)
    else if regionBusy s h then .next (refuse s c Code.REGION_BUSY)
    else .next (finish (freeRegion s (h % 65536)) c Code.OK)

/-- Number of descriptors that a context's image gives: entries below it are fixed (R101). -/
def fixedDescs (s : State) (x : Ctx) : Nat := ((s.service? x.svc).map (fun v => v.descs.length)).getD 0

/-- The table-entry checks of DESC_CREATE (R101, Table 4.6). -/
def entryCheck (s : State) (x : Ctx) (id : Nat) : Option Nat :=
  if x.tableLen ≤ id ∨ id = 0xFFFF then some Code.BAD_DESC_ID
  else if id < fixedDescs s x then some Code.DESC_FIXED
  else if (smFind id x.descs).isSome then some Code.DESC_BUSY else none

/-- A read by a command through a region it names (R546): the bytes, none while the read is held, or a code. -/
def regionRead (s : State) (n : Namer) (h off len : Nat) : Except Nat (Option (List Byte)) :=
  match regionOf s h with
  | none => .error Code.BAD_REGION
  | some r =>
    if !scopeOk r n ∨ !bitOf r.perm 0 then .error Code.REGION_PERM
    else if r.len < off + len then .error Code.EXTENT_RANGE
    else if tHeld s r.tier r.base then .ok none
    else match tFault s r.tier (r.base + off) len false with
      | some (c, _) => if c = Code.MIGRATING ∨ c = Code.HOST_NOT_PRESENT then .ok none else .error c
      | none => if s.tPoison 0 r.tier (r.base + off) len then .error Code.POISONED else .ok (some (s.tBytes 0 r.tier (r.base + off) len))

/-- A command read that is held asks the host for a translation of its page, or counts a moving page (R414, R546). -/
def askPages (s : State) (h off len : Nat) : State :=
  match regionOf s h with
  | none => s
  | some r =>
    if tHeld s r.tier r.base then s
    else match tFault s r.tier (r.base + off) len false with
      | some (c, a) => if c = Code.HOST_NOT_PRESENT then requestPage s (a / 4096) else s.migrFault c
      | none => s

/-- DESC_CREATE: a descriptor is read, validated and entered, or refused; a held read leaves the command as it is
(R100, R101, R104, R546). -/
def execDescCreate (c : Cmd) (s : State) : Host.Outcome State Fault Refusal :=
  match c.context s with
  | none => .next (refuse s c Code.NO_SERVICE)
  | some x =>
    let id := c.p 0x10 2
    let off := c.p 0x18 8
    let n : Namer := ⟨c.ring, x.svc⟩
    match entryCheck s x id with
    | some e => .next (refuse s c e)
    | none =>
      if off % 128 ≠ 0 then .next (refuse s c Code.BAD_ALIGN)
      else match regionRead s n (c.p 0x14 4) off 128 with
        | .error e => .next (refuse s c e)
        | .ok none => .next (askPages s (c.p 0x14 4) off 128)
        | .ok (some bs) =>
          match checkDesc s n bs with
          | some (e, _) => .next (refuse s c e)
          | none => .next (finish (s.setCtx { x with descs := smInsert id ⟨parseDesc bs, false⟩ x.descs }) c Code.OK (leBytes 2 id))

/-- DESC_DESTROY: the entry is dead at once, and free when nothing references it (R101, R102). -/
def execDescDestroy (c : Cmd) (s : State) : Host.Outcome State Fault Refusal :=
  match c.context s with
  | none => .next (refuse s c Code.NO_SERVICE)
  | some x =>
    let id := c.p 0x10 2
    if id ≠ 0xFFFF ∧ id < x.tableLen ∧ id < fixedDescs s x then .next (refuse s c Code.DESC_FIXED)
    else match useDesc s x.cn id with
      | .error e => .next (refuse s c e)
      | .ok d =>
        let held := s.adm.refs.contains (x.cn, id)
        let descs := if held then smInsert id ⟨d, true⟩ x.descs else smErase id x.descs
        .next (finish (s.setCtx { x with descs := descs }) c Code.OK)

end Sys2Proof.Machine
end

