-- ==== Sys2Proof/Machine/AdmTest.lean ====
section
/-! DEFINITION. The admission test: job classes of an image, charges, placement and the resource tests (R378, R381 to
R387). -/

namespace Sys2Proof.Machine

/-- An operator entry of a stage (Table 14.3). -/
structure OpEnt where
  op : Nat
  rows : Nat
  bound : Nat
  aux : Nat
  deriving DecidableEq, Repr

/-- A traffic entry of a stage (Table 14.3). -/
structure TrafEnt where
  kind : Nat
  dir : Nat
  inst : Nat
  bytes : Nat
  deriving DecidableEq, Repr

/-- A stage entry of a job class (Table 14.3); `cluster` is 0xFF where admission chooses. -/
structure StageEnt where
  die : Nat
  tmpl : Nat
  cluster : Nat
  subdl : Nat
  matrix : Nat
  assay : Nat
  egp : Nat
  win : Nat
  weave : Nat
  ops : List OpEnt
  traf : List TrafEnt
  deriving DecidableEq, Repr

/-- A job class (Table 14.3). -/
structure JobEnt where
  id : Nat
  source : Nat
  period : Nat
  burst : Nat
  deadline : Nat
  stages : List StageEnt
  deriving DecidableEq, Repr

/-- The first `n` bytes at `o` of an image, unless they run outside it (R377). -/
def imgAt (img : List Byte) (o n : Nat) : Option (List Byte) := if o + n ≤ img.length then some ((img.drop o).take n) else none

/-- Operator entries from an offset. -/
def parseOps (img : List Byte) : Nat → Nat → Option (List OpEnt)
  | 0, _ => some []
  | n + 1, o => do
    let b ← imgAt img o 16
    if fieldAt b 1 3 ≠ 0 then none
    else
      let l ← parseOps img n (o + 16)
      some (⟨fieldAt b 0 1, fieldAt b 4 4, fieldAt b 8 4, fieldAt b 12 4⟩ :: l)

/-- Traffic entries from an offset. -/
def parseTraf (img : List Byte) : Nat → Nat → Option (List TrafEnt)
  | 0, _ => some []
  | n + 1, o => do
    let b ← imgAt img o 16
    if 1 < fieldAt b 1 1 ∨ fieldAt b 4 4 ≠ 0 then none
    else
      let l ← parseTraf img n (o + 16)
      some (⟨fieldAt b 0 1, fieldAt b 1 1, fieldAt b 2 2, fieldAt b 8 8⟩ :: l)

/-- Stage entries from an offset, each with its operator and traffic entries behind it; what follows them. -/
def parseStages (img : List Byte) : Nat → Nat → Option (List StageEnt × Nat)
  | 0, o => some ([], o)
  | n + 1, o => do
    let b ← imgAt img o 48
    let nop := fieldAt b 3 1
    let ntr := fieldAt b 0x1C 1
    if 32 < nop ∨ 32 < ntr ∨ bitOf (fieldAt b 0 2) 14 ∨ fieldAt b 0x1D 19 ≠ 0 then none
    else
      let ops ← parseOps img nop (o + 48)
      let traf ← parseTraf img ntr (o + 48 + 16 * nop)
      let (l, e) ← parseStages img n (o + 48 + 16 * nop + 16 * ntr)
      some (⟨fieldAt b 0 2 / 32768, fieldAt b 0 2 % 16384, fieldAt b 2 1, fieldAt b 4 4, fieldAt b 8 4, fieldAt b 12 4,
        fieldAt b 16 4, fieldAt b 20 4, fieldAt b 24 4, ops, traf⟩ :: l, e)

/-- Job classes from an offset (R378). -/
def parseJobs (img : List Byte) : Nat → Nat → Option (List JobEnt)
  | 0, _ => some []
  | n + 1, o => do
    let b ← imgAt img o 32
    let ns := fieldAt b 2 1
    if ns = 0 ∨ 16 < ns ∨ 1 < fieldAt b 3 1 ∨ fieldAt b 10 2 ≠ 0 ∨ fieldAt b 16 16 ≠ 0 then none
    else
      let (st, e) ← parseStages img ns (o + 32)
      let l ← parseJobs img n e
      some (⟨fieldAt b 0 2, fieldAt b 3 1, fieldAt b 4 4, fieldAt b 8 2, fieldAt b 12 4, st⟩ :: l)

/-- Whether an operator's work depends on its data (Table 7.5). -/
def dataDep (op : Nat) : Bool := [0x01, 0x05, 0x06, 0x07, 0x0B, 0x0C, 0x0D].contains op

/-- ⌈log2(n + 1)⌉. -/
def log2Up : Nat → Nat → Nat
  | 0, _ => 0
  | fuel + 1, n => if n = 0 then 0 else log2Up fuel (n / 2) + 1

/-- Cost of an operator entry in core cycles, setup included (Tables 7.7, 8.8, R383).  Quantities that ROWS, BOUND and
AUX do not give count 0 (DESIGN CHOICE, log entry 46). -/
def opCost (o : OpEnt) : Nat :=
  let b := cdiv o.rows 64
  match o.op with
  | 0x01 => 200 + o.rows * (12 + cdiv o.aux 32)
  | 0x02 => 150 + 2 * o.aux + b * o.aux
  | 0x03 => 100
  | 0x04 => 100
  | 0x05 => 300 + 8 * o.rows
  | 0x06 => 300 + 4 * o.rows + 2 * o.rows * o.bound
  | 0x07 => 300 + o.rows * (4 + 3 * o.bound) + 2 * o.rows
  | 0x08 => 100 + cdiv (o.aux * 4) 128 + b * (log2Up 32 o.aux + 2)
  | 0x09 => 150
  | 0x0A => 300
  | 0x0B => 300 + 6 * o.rows + 2 * o.bound
  | 0x0C => 300 + 6 * o.rows
  | 0x0D => 200 + 12 * o.rows + 20 * cdiv (o.rows * o.bound) 64
  | _ => 0

/-- Why admission refuses, and what its record names (Table 14.8). -/
structure AdmFail where
  code : Nat
  kind : Nat := 0
  inst : Nat := 0
  ceil : Nat := 0
  g : Nat := 0
  pos : Nat := 0
  t : Nat := 0
  lhs : Nat := 0
  rhs : Nat := 0
  deriving DecidableEq, Repr

/-- Capacity of one server of a kind in tenths of a unit per tick (Table 14.5). -/
def cap10 (watts kind : Nat) : Nat :=
  match kind with
  | 0x04 => 192
  | 0x05 => 192
  | 0x06 => 320
  | 0x07 => 200000
  | 0x08 => 100000
  | 0x09 => 84480
  | 0x0A => 25600
  | 0x0B => 10000
  | 0x0C => 10000
  | 0x0D => 100 * (watts - 210)
  | _ => 0

/-- Whether a number is an instance of a bandwidth resource (Table 14.5, R378). -/
def bandInst (kind inst : Nat) : Bool :=
  match kind with
  | 0x07 => decide (inst < 8)
  | 0x08 => decide (inst < 2)
  | 0x09 => inst == 0
  | 0x0A => inst == 0
  | 0x0B => decide (inst % 16 < 12) && decide (inst / 16 < 2)
  | 0x0C => decide (inst % 16 < 2) && decide (inst / 16 < 2)
  | _ => false

/-- The refusal of a kind (Table 14.5). -/
def kindCode (kind : Nat) : Nat :=
  match kind with
  | 0x01 => Code.CTX_SLOTS
  | 0x02 => Code.CALLER_SLOTS
  | 0x03 => Code.BUFFER
  | 0x04 => Code.CORE_TIME
  | 0x05 => Code.CORE_TIME
  | 0x06 => Code.CORE_TIME
  | 0x07 => Code.MEM_BW
  | 0x08 => Code.LINK_BW
  | 0x09 => Code.MEM_BW
  | 0x0A => Code.MEM_BW
  | 0x0B => Code.LINK_BW
  | 0x0C => Code.LINK_BW
  | _ => Code.POWER

/-- The ceiling of a kind (R382). -/
def ceilOf (s : State) (kind : Nat) : Nat :=
  let o := Off.admit_ADM_CEIL
  if kind = 0x0D then s.io.bf bAdmit o 31 24
  else if kind = 0x08 ∨ kind = 0x0B ∨ kind = 0x0C then s.io.bf bAdmit o 23 16
  else if kind = 0x07 ∨ kind = 0x09 ∨ kind = 0x0A then s.io.bf bAdmit o 15 8
  else s.io.bf bAdmit o 7 0

/-- Energy of a byte of traffic in picojoule (Table 14.6). -/
def byteEnergy (kind : Nat) : Nat :=
  match kind with
  | 0x07 => 4
  | 0x08 => 2
  | 0x09 => 15
  | 0x0A => 25
  | _ => 10

/-- The template of a stage among those of an image: its 128 bytes (R378). -/
def stageTmpl (tmpls : List (Nat × Nat × List Byte)) (st : StageEnt) : Option Tmpl :=
  (tmpls.find? (fun e => e.1 == st.die && e.2.1 == st.tmpl)).map (fun e => ⟨e.2.2⟩)

/-- What an image's stages are charged with beside its job classes: templates, Assayer units of its bindings, expert
stages, and how many contexts it may hold. -/
structure ImgWork where
  jobs : List JobEnt
  tmpls : List (Nat × Nat × List Byte)
  /-- Assayer units that hold a table which the service binds. -/
  units : List Nat
  experts : List ExpertStage
  maxCtx : Nat
  /-- Ticks of a Caller tick of each die. -/
  tick : Nat → Nat

/-- Charges of one stage on the cluster `cl`, in thousandths of each resource's unit (R383, R384, Table 14.7); `before` is
O_s.  A batch template of an expert stage is charged for its batches (R313, DEDUCED, log entry 47). -/
def stageCharges (w : ImgWork) (j : JobEnt) (st : StageEnt) (before cl : Nat) : List Charge :=
  let c := ((stageTmpl w.tmpls st).map (fun t => t.budget)).getD 0 * 1024
  let cls : Nat → StageClass := fun cost => ⟨j.period, j.burst + cdiv before j.period, st.subdl, cost⟩
  let core : List Charge :=
    match w.experts.find? (fun e => e.die == st.die && e.entry == st.tmpl) with
    | some e =>
      let n := e.experts * (if e.service then 1 else max 1 w.maxCtx)
      [⟨4, cl, ⟨j.period * e.gatherN, j.burst + cdiv before j.period, st.subdl, 1000 * c⟩, c⟩,
       ⟨4, cl, ⟨e.delay * w.tick st.die, 1, st.subdl, 1000 * c * n⟩, c⟩]
    | none => [⟨4, cl, cls (1000 * c), c⟩]
  let units : List Charge := (w.units.filter (fun u => decide (u / 6 = st.die))).map (fun u => ⟨5, u + 256, cls (1000 * st.assay), 0⟩)
  let traf : List Charge := st.traf.flatMap (fun t =>
    let one : Charge := ⟨t.kind, t.inst, cls (1000 * t.bytes), 0⟩
    if t.kind = 7 ∧ t.inst / 4 ≠ st.die then [one, ⟨8, if t.dir = 0 then t.inst / 4 else st.die, cls (1000 * t.bytes), 0⟩] else [one])
  let energy := 550 * c + 1900 * st.matrix + 120 * (st.assay + st.egp + st.win) + 300 * st.weave
    + traf.foldl (fun a t => a + byteEnergy t.kind * (t.cls.cost / 1000)) 0
  let rest : List Charge := [⟨5, cl + 512, cls (1000 * st.egp), 0⟩, ⟨5, cl + 768, cls (1000 * st.win), 0⟩,
    ⟨6, st.die, cls (1000 * st.weave), 0⟩, ⟨0x0D, 0, cls energy, 0⟩]
  (core ++ units ++ traf ++ rest).filter (fun x => decide (x.cls.cost ≠ 0))

/-- Charges of the stages of a job class whose clusters are given: none for a stage not placed yet. -/
def jobCharges (w : ImgWork) (j : JobEnt) : List (StageEnt × Option Nat) → Nat → List Charge
  | [], _ => []
  | (st, cl) :: l, before => (match cl with
      | some c => stageCharges w j st before c
      | none => []) ++ jobCharges w j l (before + st.subdl)

/-- Charges of an image under a placement: one entry a stage, in image order. -/
def imageCharges (w : ImgWork) : List JobEnt → List (Option Nat) → List Charge
  | [], _ => []
  | j :: js, pl => jobCharges w j (j.stages.zip (pl.take j.stages.length)) 0 ++ imageCharges w js (pl.drop j.stages.length)

/-- Utilisation of stage classes as a fraction: numerator and denominator (R385). -/
def utilOf (cls : List StageClass) : Nat × Nat := cls.foldl (fun a j => (a.1 * j.period + j.cost * a.2, a.2 * j.period)) (0, 1)

/-- The sum of cost × (burst − dl ÷ period) over the denominator of `utilOf` (R385). -/
def excess (cls : List StageClass) : Int :=
  (cls.foldl (fun (a : Int × Nat) j => (a.1 * j.period + (j.cost : Int) * ((j.burst * j.period : Nat) - (j.dl : Int)) * a.2, a.2 * j.period)) (0, 1)).1

/-- Demand with deadline at or before `t` (R385). -/
def dbf (cls : List StageClass) (t : Nat) : Nat :=
  cls.foldl (fun d j => if j.dl ≤ t then d + j.cost * (j.burst + (t - j.dl) / j.period) else d) 0

/-- The horizon up to which checkpoints are tested (R385): costs in thousandths, `blk` in units. -/
def horizon (cls : List StageClass) (bound blk : Nat) : Nat :=
  let u := utilOf cls
  let far := cls.foldl (fun a j => max a j.dl) 0
  if bound * u.2 ≤ u.1 then 2 ^ 32
  else
    let num : Int := (1000 * blk * u.2 : Nat) + excess cls
    let den : Int := (bound * u.2 : Nat) - (u.1 : Int)
    min (2 ^ 32) (max far (-((-num) / den)).toNat)

/-- The least checkpoint above `t`, or from 0 on when `t` is none (R385). -/
def nextCheck (cls : List StageClass) (t : Option Nat) : Option Nat :=
  cls.foldl (fun best j =>
    let c := match t with
      | none => j.dl
      | some t => if t < j.dl then j.dl else j.dl + ((t - j.dl) / j.period + 1) * j.period
    some (match best with
      | none => c
      | some b => min b c)) none

/-- The result of a resource's tests: passed with the least slack in millionths, or the first failing comparison. -/
inductive TestEnd where
  | pass (slack : Nat)
  | fail (t lhs rhs : Nat)
  deriving DecidableEq, Repr

/-- The checkpoints in order, up to the horizon (R385). -/
def checkAll (cls : List StageClass) (bound blk h : Nat) : Nat → Option Nat → Nat → TestEnd
  | 0, _, slack => .pass slack
  | fuel + 1, t, slack =>
    match nextCheck cls t with
    | none => .pass slack
    | some t =>
      if h < t then .pass slack
      else
        let lhs := dbf cls t + 1000 * blk
        let rhs := bound * t
        if rhs < lhs then .fail t lhs rhs
        else checkAll cls bound blk h fuel (some t) (min slack (if rhs = 0 then 1000000 else 1000000 * (rhs - lhs) / rhs))

/-- The tests of a resource with `g` servers (R385): the ceiling, and the demand-bound test unless the kind is power. -/
def passes (cls : List StageClass) (cap g ceil blk : Nat) (edf : Bool) : TestEnd :=
  let u := utilOf cls
  let bound := ceil * g * cap
  if cls.isEmpty then .pass 0
  else if bound * u.2 < u.1 then .fail 0 (u.1 / u.2) bound
  else if !edf then .pass 0
  else
    let h := horizon cls bound blk
    let n := cls.foldl (fun a j => a + (if j.dl ≤ h then (h - j.dl) / max 1 j.period + 1 else 0)) 1
    checkAll cls bound blk h n none 1000000

/-- The least number of guard cores that passes, from `g` on, or the failure with `e` (R386). -/
def guardSearch (cls : List StageClass) (ceil blk e : Nat) : Nat → Nat → Nat × TestEnd
  | 0, _ => (e, passes cls 192 e ceil blk true)
  | fuel + 1, g =>
    match passes cls 192 g ceil blk true with
    | .pass x => (g, .pass x)
    | .fail .. => guardSearch cls ceil blk e fuel (g + 1)

/-- Stage classes charged to an instance. -/
def classesOn (cs : List Charge) (kind inst : Nat) : List StageClass := (cs.filter (fun c => c.kind == kind && c.inst == inst)).map (fun c => c.cls)

/-- The blocking term of a cluster (R383). -/
def blkOn (cs : List Charge) (inst : Nat) : Nat := (cs.filter (fun c => c.kind == 4 && c.inst == inst)).foldl (fun a c => max a c.blk) 0

/-- Insert a resource instance in test order. -/
def insertRes (x : Nat × Nat) : List (Nat × Nat) → List (Nat × Nat)
  | [] => [x]
  | y :: l => if x = y then y :: l else if x.1 < y.1 ∨ (x.1 = y.1 ∧ x.2 < y.2) then x :: y :: l else y :: insertRes x l

/-- The instances that charges fall on, in test order (R381, R387). -/
def resources (cs : List Charge) : List (Nat × Nat) := cs.foldl (fun l c => insertRes (c.kind, c.inst) l) []

/-- A tested resource instance of an entry of the record (Table 14.9). -/
structure ResEnt where
  kind : Nat
  g : Nat
  inst : Nat
  util : Nat
  held : Nat
  slack : Nat
  deriving DecidableEq, Repr

/-- Dies that hold resident sets. -/
def setsOn (s : State) (die : Nat) : Bool := s.fetch.sets.any (fun r => r.die == die)

/-- Tests of the time-shared resources and power that `mine` is charged to, together with the charges of `others` (R385,
R386).  `sets` are the dies on which resident sets stand. -/
def testRes (s : State) (others mine : List Charge) (sets : Nat → Bool) : List (Nat × Nat) → Except AdmFail (List ResEnt)
  | [] => .ok []
  | (kind, inst) :: l =>
    let cs := others ++ mine
    let cls := classesOn cs kind inst
    let ceil := ceilOf s kind
    let cap := cap10 (s.io.bf bAdmit Off.admit_POWER_LIMIT 9 0) kind
    let blk := if kind = 4 then blkOn cs inst else 0
    let e := (deadlineCores s inst).length
    let (g, r) := if kind = 4 then guardSearch cls ceil blk e e 1 else (1, passes cls cap 1 ceil 0 (decide (kind ≠ 0x0D)))
    match r with
    | .fail t lhs rhs => .error { code := kindCode kind, kind := kind, inst := inst, ceil := ceil, g := g, t := t, lhs := lhs, rhs := rhs }
    | .pass slack =>
      if kind = 4 ∧ sets (inst / 6) then .error { code := Code.CORE_TIME, kind := 4, inst := inst, ceil := ceil, g := g }
      else
        let u := utilOf cls
        let util := if g * cap = 0 then 0 else 10000 * u.1 / (u.2 * g * cap)
        match testRes s others mine sets l with
        | .error f => .error f
        | .ok es => .ok (⟨kind, g, inst, util, 0, slack⟩ :: es)

/-- Charges of every admitted service but one. -/
def chargesOf (s : State) (but : Option Nat) : List Charge :=
  s.adm.services.flatMap (fun e => if some e.1 = but then [] else e.2.charges)

/-- Placement of the stages with CLUSTER 0xFF (R387): each on the first cluster of its die where every resource test
passes, given the fixed clusters and those of earlier stages (DEDUCED, log entry 48), or on the lowest. -/
def placeFrom (w : ImgWork) (test : List Charge → Bool) (dies : List Nat) : Nat → Nat → List (Option Nat) → List (Option Nat)
  | 0, _, pl => pl
  | fuel + 1, i, pl =>
    match pl.getD i (some 0) with
    | some _ => placeFrom w test dies fuel (i + 1) pl
    | none =>
      let lo := 6 * dies.getD i 0
      let c := (((List.range 6).map (fun k => lo + k)).find? (fun c => test (imageCharges w w.jobs (pl.set i (some c))))).getD lo
      placeFrom w test dies fuel (i + 1) (pl.set i (some c))

/-- The placement of an image (R387): one cluster a stage, in image order. -/
def placement (w : ImgWork) (test : List Charge → Bool) : List (Option Nat) :=
  let sts := w.jobs.flatMap (fun j => j.stages)
  placeFrom w test (sts.map (fun st => st.die)) sts.length 0 (sts.map (fun st => if st.cluster = 0xFF then none else some st.cluster))

/-- Guard counts of the clusters that entries name. -/
def guardsOf (es : List ResEnt) : List (Nat × Nat) := (es.filter (fun e => e.kind == 4)).map (fun e => (e.inst, e.g))

/-- RESERVATION_SHORT of a service (R386, R535). -/
def shortRecord (s : State) (svc kind inst : Nat) : State :=
  s.mapIo (fun io => io.riseNamed bAdmit 5 Cls.SERVICE Code.RESERVATION_SHORT none 0 (svc * 2 ^ 48 + kind * 2 ^ 40 + inst * 2 ^ 24))

/-- The rerun of the test for one service against the reservations of those before it that passed (R535). -/
def retestOne (x : State × List Charge) (v : Service) : State × List Charge :=
  match testRes x.1 x.2 v.charges (fun _ => false) (resources v.charges) with
  | .ok _ => ({ x.1 with adm := { x.1.adm with services := smInsert v.num { v with short := false } x.1.adm.services } }, x.2 ++ v.charges)
  | .error f =>
    let s := { x.1 with adm := { x.1.adm with services := smInsert v.num { v with short := true } x.1.adm.services } }
    (shortRecord s v.num f.kind f.inst, x.2)

/-- The test is rerun for every deadline service in ascending number (R535). -/
def retest (s : State) : State :=
  (((s.adm.services.filter (fun e => e.2.deadline)).map Prod.snd).foldl retestOne (s, [])).1

/-- After a change of what cores are eligible: services with core time in a cluster that has fallen below its guard count
are reported short (R386). -/
def guardLost (s : State) (cl was : Nat) : State :=
  let g := smGet 0 cl s.adm.guard
  let now := (deadlineCores s cl).length
  if now < g ∧ g ≤ was then
    (s.adm.services.filter (fun e => e.2.charges.any (fun c => c.kind == 4 && c.inst == cl))).foldl (fun s e => shortRecord s e.1 4 cl) s
  else s

/-- Guard counts from the charges that stand (R379, R386). -/
def reguard (s : State) : State :=
  let cs := chargesOf s none
  let g := (resources cs).filterMap (fun r =>
    if r.1 = 4 then
      let e := (deadlineCores s r.2).length
      some (r.2, (guardSearch (classesOn cs 4 r.2) (ceilOf s 4) (blkOn cs r.2) e e 1).1)
    else none)
  { s with adm := { s.adm with guard := g.foldl (fun m e => smInsert e.1 e.2 m) [] } }

end Sys2Proof.Machine
end

