-- ==== Sys2Proof/Machine/Operands.lean ====
section
/-! DEFINITION. The instruction word and its operands (R143 to R150, R157, R158): fields, registers, lanes and masks, the
fetch of the word at PC, and how an instruction ends. -/

namespace Sys2Proof.Machine

/-- An instruction word (Table 6.3). -/
structure Ins where
  w : Nat
  deriving DecidableEq, Repr

namespace Ins
def major (i : Ins) : Nat := bitsOf i.w 63 58
def sub (i : Ins) : Nat := bitsOf i.w 57 52
def dst (i : Ins) : Nat := bitsOf i.w 51 47
def s1 (i : Ins) : Nat := bitsOf i.w 46 42
def s2 (i : Ins) : Nat := bitsOf i.w 41 37
def s3 (i : Ins) : Nat := bitsOf i.w 36 32
def type (i : Ins) : Nat := bitsOf i.w 31 24
def pe (i : Ins) : Bool := bitOf i.w 23
def msk (i : Ins) : Nat := bitsOf i.w 22 20
def zm (i : Ins) : Bool := bitOf i.w 19
def rm (i : Ins) : Nat := bitsOf i.w 18 17
def sat (i : Ins) : Bool := bitOf i.w 16
def imm16 (i : Ins) : Nat := bitsOf i.w 15 0
def imm16s (i : Ins) : Int := signed 16 i.w
def imm32 (i : Ins) : Int := signed 32 i.w

/-- Whether every field but those of `keep` (bit ranges) is zero (R149). -/
def onlyUses (i : Ins) (keep : List (Nat × Nat)) : Bool :=
  keep.foldl (fun w e => putBits w e.1 e.2 0) (i.w % 2 ^ 52) == 0
end Ins

/-- Fields of Table 6.3, as bit ranges. -/
def fDst : Nat × Nat := (51, 47)
def fS1 : Nat × Nat := (46, 42)
def fS2 : Nat × Nat := (41, 37)
def fS3 : Nat × Nat := (36, 32)
def fType : Nat × Nat := (31, 24)
def fPred : Nat × Nat := (23, 19)
def fRm : Nat × Nat := (18, 17)
def fSat : Nat × Nat := (16, 16)
def fImm16 : Nat × Nat := (15, 0)
def fImm32 : Nat × Nat := (31, 0)

/-- The sub-opcodes of Table 6.4 that are defined. -/
def knownOp (major sub : Nat) : Bool :=
  match major with
  | 0x01 => decide (sub ≤ 17)
  | 0x02 => decide (sub ≤ 8)
  | 0x03 => decide (sub ≤ 7)
  | 0x04 => decide (sub ≤ 6) || (decide (8 ≤ sub) && decide (sub ≤ 11))
  | 0x05 => decide (sub ≤ 3)
  | 0x08 => decide (sub ≤ 16) || (decide (18 ≤ sub) && decide (sub ≤ 24))
  | 0x09 => decide (sub ≤ 5)
  | 0x0A => decide (sub ≤ 2) || (decide (4 ≤ sub) && decide (sub ≤ 6))
  | 0x0C => decide (sub ≤ 4)
  | 0x0D => decide (sub ≤ 1)
  | 0x10 => decide (sub ≤ 3)
  | 0x14 => decide (sub ≤ 3)
  | 0x15 => sub == 0
  | 0x18 => decide (sub ≤ 2)
  | 0x1C => decide (sub ≤ 3) || sub == 8 || sub == 9
  | _ => false

namespace CoreSt

/-- A scalar register; X0 reads zero (Table 6.1). -/
def xr (c : CoreSt) (n : Nat) : Nat := if n = 0 then 0 else smGet 0 n c.x

/-- Write a scalar register; writes to X0 are discarded. -/
def setX (c : CoreSt) (n v : Nat) : CoreSt := if n = 0 then c else { c with x := smPut 0 n (v % 2 ^ 64) c.x }

/-- A 32-bit lane of a vector register. -/
def vl (c : CoreSt) (n i : Nat) : Nat := smGet 0 (64 * n + i) c.v

/-- Write a 32-bit lane. -/
def setVl (c : CoreSt) (n i v : Nat) : CoreSt := { c with v := smPut 0 (64 * n + i) (v % 2 ^ 32) c.v }

/-- An element of a lane: one register for 32-bit types, an even-odd pair for 64-bit types (R144). -/
def elem (c : CoreSt) (w n i : Nat) : Nat := if w = 64 then c.vl n i + 2 ^ 32 * c.vl (n + 1) i else c.vl n i

/-- Write an element of a lane. -/
def setElem (c : CoreSt) (w n i v : Nat) : CoreSt :=
  if w = 64 then (c.setVl n i v).setVl (n + 1) i (v / 2 ^ 32) else c.setVl n i v

/-- A mask register. -/
def mr (c : CoreSt) (n : Nat) : Nat := smGet 0 n c.m

/-- Write a mask register. -/
def setM (c : CoreSt) (n v : Nat) : CoreSt := { c with m := smPut 0 n (v % 2 ^ 64) c.m }

/-- Whether lane `i` is active under the predicate fields (R145). -/
def active (c : CoreSt) (i : Ins) (l : Nat) : Bool := !i.pe || bitOf (c.mr i.msk) l

/-- Destination lanes of a vector result: active lanes take their value, inactive ones are zeroed or kept (R145). -/
def putLanes (c : CoreSt) (i : Ins) (w n : Nat) (vals : List Nat) : CoreSt :=
  vals.zipIdx.foldl (fun d e =>
    if c.active i e.2 then d.setElem w n e.2 e.1 else if i.zm then d.setElem w n e.2 0 else d) c

/-- Destination mask of a vector result (R145). -/
def putMask (c : CoreSt) (i : Ins) (n : Nat) (bit : Nat → Bool) : CoreSt :=
  c.setM n ((List.range 64).foldl (fun a l =>
    let b := if c.active i l then bit l else if i.zm then false else bitOf (c.mr n) l
    if b then a + 2 ^ l else a) 0)

/-- Raise sticky flags. -/
def orF (c : CoreSt) (f : Nat) : CoreSt := { c with fstat := Nat.lor c.fstat f }
def orT (c : CoreSt) (f : Nat) : CoreSt := { c with tstat := Nat.lor c.tstat f }

/-- The instruction word at PC, when PC lies in the range in force (R148). -/
def fetch (c : CoreSt) : Option Ins :=
  if c.pc % 8 = 0 ∧ c.range.1 ≤ c.pc ∧ c.pc + 8 ≤ c.range.1 + c.range.2 then some ⟨leNat (cells c.imem c.pc 8)⟩ else none

/-- Whether a branch target may be fetched (R148). -/
def inRange (c : CoreSt) (pc : Nat) : Bool :=
  decide (pc % 8 = 0) && decide (c.range.1 ≤ pc) && decide (pc + 8 ≤ c.range.1 + c.range.2)

/-- A read of SRAM by the core: a poisoned line poisons the task (Table 15.4). -/
def noteRead (c : CoreSt) (a n : Nat) : CoreSt :=
  if c.poisoned then c
  else match (linesOf a n).find? (fun l => smGet false l c.sramPoison) with
    | some l => { c with poisoned := true, poisonAt := some (64 * l) }
    | none => c

end CoreSt

/-- The bank of a line (R157). -/
def bankOf (line : Nat) : Nat := Nat.xor (Nat.xor line (line / 2 ^ 5)) (line / 2 ^ 10) % 32

/-- Rounds that accesses at addresses of a width take (R158). -/
def bankRounds (as : List Nat) (w : Nat) : Nat :=
  let ls := as.foldl (fun l a => (linesOf a w).foldl (fun l x => if l.contains x then l else l ++ [x]) l) []
  (List.range 32).foldl (fun m b => max m ((ls.filter (fun x => bankOf x == b)).length)) 1

/-- How an instruction ends. -/
inductive Ran where
  /-- It completes, and PC moves on by one word. -/
  | done (s : State)
  /-- It completes and PC is `pc`. -/
  | jump (s : State) (pc : Nat)
  /-- It waits: one more cycle of a stall cause is counted, by page offset of its counter in CARTER, and the stream that
  it waits on, if any. -/
  | stall (s : State) (cause : Nat) (st : Option Nat)
  /-- It raises a core exception, with no architectural effect (R183). -/
  | exc (code : Nat)

/-- One issue cycle and `conflict` cycles of bank conflicts (R124, R147). -/
def countIssue (s : State) (n conflict : Nat) : State :=
  s.mapIo (fun io =>
    let io := io.count64 (bCarter n) Off.carter_CYC_ISSUE_LO 1
    let io := if conflict = 0 then io else io.count64 (bCarter n) Off.carter_BANK_CONFLICT_LO conflict
    io.count64 (bCarter n) Off.carter_CYC_TOTAL_LO (1 + conflict))

/-- One stalled cycle (R124). -/
def countStall (s : State) (n cause : Nat) (st : Option Nat) : State :=
  let s := s.mapIo (fun io => (io.count64 (bCarter n) cause 1).count64 (bCarter n) Off.carter_CYC_TOTAL_LO 1)
  match st with
  | some k => ssCount s n k Off.carter_SS_LATE 1
  | none => s

/-- The core executes instructions: in a task, or between two. -/
def CoreSt.runs (c : CoreSt) : Bool := c.run == .running || c.run == .between

/-- Vector registers that an instruction may read or write (R146): those of its vector fields, with the odd half of
pairs. -/
def Ins.vregs (i : Ins) : List Nat :=
  let p : Nat → List Nat := fun r => [r, r + 1]
  match i.major with
  | 0x08 => (if i.sub = 24 ∨ (20 ≤ i.sub ∧ i.sub ≤ 22) then [] else p i.dst) ++ (if i.sub = 23 then [] else p i.s1)
      ++ (if i.sub = 18 ∨ 20 ≤ i.sub ∨ bitOf i.w 0 then [] else p i.s2) ++ (if i.sub = 3 then p i.s3 else [])
  | 0x09 => p i.s1 ++ (if bitOf i.w 0 then [] else p i.s2)
  | 0x0A => p i.dst ++ (if i.sub = 2 ∨ i.sub = 6 then p i.s2 else [])
  | 0x0C => p i.dst ++ p i.s1 ++ (if 3 ≤ i.sub then p i.s2 else [])
  | 0x0D => p i.dst ++ p i.s1 ++ (if i.sub = 1 then p i.s2 else [])
  | _ => []

/-- Mask registers that an instruction may read or write. -/
def Ins.mregs (i : Ins) : List Nat :=
  let v := decide (0x08 ≤ i.major) && decide (i.major ≤ 0x0D)
  (if v && i.pe then [i.msk] else []) ++ (if i.major = 0x09 then [i.dst % 8] else []) ++ (if i.major = 0x08 ∧ i.sub = 19 then [bitsOf i.w 10 8] else [])
    ++ (if i.major = 0x0C ∧ 3 ≤ i.sub then [i.s3 % 8] else [])

/-- Whether an instruction needs a register that a table request awaits; TASK.DONE needs them all (R146, R166,
log entry 15). -/
def Ins.awaits (i : Ins) (c : CoreSt) : Bool :=
  c.assay.any (fun w => (i.major == 0x18 && i.sub == 2) || i.vregs.contains w.dst || (w.wide && i.vregs.contains (w.dst + 1)) || i.mregs.contains w.mreg)

/-- The Caller records once that a task has read a poisoned line (Table 15.4). -/
def notePoison (s : State) (n : Nat) : State :=
  let c := s.core n
  match c.poisonAt, c.task with
  | some a, some t =>
    let slot := (s.ctx? t.ctx).bind (fun x => x.slot)
    (s.setCore n { c with poisonAt := none }).mapIo (fun io => io.note (bCaller (dieOfCore n)) Cls.POISON Code.POISON_CONSUMED slot a t.id)
  | _, _ => s

/-- Issue the instruction at PC of a core when it is one of the row's: nothing happens while the core does not run or
stands at another instruction (R146).  `ctr` is the page offset of its instruction counter. -/
def runIns (s : State) (n : Nat) (mine : Ins → Bool) (ctr : Option Nat) (f : State → Ins → Ran) : State :=
  let c := s.core n
  if !c.runs then s
  else match c.fetch with
    | none => s
    | some i =>
      if !mine i then s
      else if c.emitDst.isSome then countStall s n Off.carter_WRITE_BACKPRESSURE_LO none
      else if i.awaits c then countStall s n Off.carter_PEER_WAIT_LO none
      else
        let issue : State → State := fun s =>
          let s := countIssue s n 0
          match ctr with
          | some o => s.mapIo (fun io => io.count64 (bCore n) o 1)
          | none => s
        match f s i with
        | .done t =>
          let t := notePoison t n
          let d := t.core n
          issue (if d.runs ∧ d.pc = c.pc then t.setCore n { d with pc := c.pc + 8 } else t)
        | .jump t pc => issue ((notePoison t n).setCore n { (notePoison t n).core n with pc := pc })
        | .stall t cause st => countStall t n cause st
        | .exc code => raiseExc s n code

/-- The first condition that holds, in the order of Table 6.12. -/
def firstExc (l : List (Bool × Nat)) : Option Nat := (l.find? (fun e => e.1)).map Prod.snd

/-- Run `k` unless a condition raises an exception. -/
def guardExc (l : List (Bool × Nat)) (k : Ran) : Ran :=
  match firstExc l with
  | some c => .exc c
  | none => k

/-- Whether SRAM bytes under a store lie in a home shard area (R123, R161). -/
def inShard (s : State) (n a len : Nat) : Bool :=
  s.fetch.sets.any (fun r => decide (r.die = dieOfCore n) && spansMeet (a / 64 * 64) (cdiv (a % 64 + len) 64 * 64) r.base (r.tiles * r.bytes))

/-- The first BAD_PC, ILLEGAL_INSTR that fetch itself meets (R148 to R150): a word outside the range, or one with a
reserved opcode. -/
def fetchExc (c : CoreSt) : Option Nat :=
  match c.fetch with
  | none => some Code.BAD_PC
  | some i => if knownOp i.major i.sub then none else some Code.ILLEGAL_INSTR

/-- ILLEGAL_INSTR: fetch outside the code range, or a reserved opcode, raises its core exception (R148, R150, R183). -/
def execIllegalInstr (core : Nat) (s : State) : Host.Outcome State Fault Refusal :=
  let c := s.core core
  if !c.runs then .next s
  else match fetchExc c with
    | some code => .next (raiseExc s core code)
    | none => .next s

/-- TASK_OVERRUN: the task has run for its budget of BUDGET × 1,024 cycles (R183, R346). -/
def execTaskOverrun (core : Nat) (s : State) : Host.Outcome State Fault Refusal :=
  let c := s.core core
  match c.task with
  | some t =>
    let b := (tmplOf s t.die t.tmpl).budget
    if b ≠ 0 ∧ b * 1024 ≤ cyclesOf (s.io.tb - c.startAt) then .next (raiseExc s core Code.TASK_OVERRUN) else .next s
  | none => .next s

end Sys2Proof.Machine
end

