-- ==== Sys2Proof/Machine/ScalarInstr.lean ====
section
/-! DEFINITION. Scalar, branch, scalar memory and CSR instructions: R151, R152. -/

namespace Sys2Proof.Machine

/-- A signed reading of a 64-bit register. -/
def i64 (n : Nat) : Int := signed 64 n

/-- The 64 bits of an integer. -/
def u64 (z : Int) : Nat := unsignedOf 64 z

/-- Scalar ALU results (Table 6.5, R151). -/
def aluOp (op a b : Nat) : Nat :=
  match op with
  | 0 => (a + b) % 2 ^ 64
  | 1 => (a + 2 ^ 64 - b) % 2 ^ 64
  | 2 => a * b % 2 ^ 64
  | 3 => a * b / 2 ^ 64
  | 4 => if b = 0 then 2 ^ 64 - 1 else u64 ((i64 a).tdiv (i64 b))
  | 5 => if b = 0 then 2 ^ 64 - 1 else a / b
  | 6 => if b = 0 then a else u64 ((i64 a).tmod (i64 b))
  | 7 => if b = 0 then a else a % b
  | 8 => Nat.land a b
  | 9 => Nat.lor a b
  | 10 => Nat.xor a b
  | 11 => a * 2 ^ (b % 64) % 2 ^ 64
  | 12 => a / 2 ^ (b % 64)
  | 13 => u64 (i64 a / (2 ^ (b % 64) : Nat))
  | 14 => b2n (decide (i64 a < i64 b))
  | 15 => b2n (decide (a < b))
  | 16 => if i64 b < i64 a then b else a
  | _ => if i64 a < i64 b then b else a

/-- Immediate forms as ALU operations: ADDI, ANDI, ORI, XORI, SHLI, SHRI, SRAI. -/
def immAlu (sub : Nat) : Nat := [0, 8, 9, 10, 11, 12, 13].getD sub 0

/-- A scalar ALU instruction. -/
def scalarAlu (n : Nat) (s : State) (i : Ins) : Ran :=
  let c := s.core n
  guardExc [(!i.onlyUses [fDst, fS1, fS2], Code.ILLEGAL_INSTR)] (.done (s.setCore n (c.setX i.dst (aluOp i.sub (c.xr i.s1) (c.xr i.s2)))))

/-- A scalar immediate instruction. -/
def scalarImm (n : Nat) (s : State) (i : Ins) : Ran :=
  let c := s.core n
  let a := c.xr i.s1
  let k := u64 i.imm32
  let v := if i.sub = 7 then k else if i.sub = 8 then i.w % 2 ^ 32 * 2 ^ 32 + a % 2 ^ 32 else aluOp (immAlu i.sub) a k
  guardExc [(!i.onlyUses ([fDst, fImm32] ++ (if i.sub = 7 then [] else [fS1])), Code.ILLEGAL_INSTR)] (.done (s.setCore n (c.setX i.dst v)))

/-- A jump to a target, or BAD_PC (R148). -/
def jumpTo (s : State) (n : Nat) (target : Int) : Ran :=
  if target < 0 ∨ !(s.core n).inRange target.toNat then .exc Code.BAD_PC else .jump s target.toNat

/-- PC + IMM32 × 8. -/
def relTarget (c : CoreSt) (i : Ins) : Int := (c.pc : Int) + i.imm32 * 8

/-- JAL. -/
def jal (n : Nat) (s : State) (i : Ins) : Ran :=
  let c := s.core n
  if !c.inRange (relTarget c i).toNat ∨ relTarget c i < 0 then .exc Code.BAD_PC
  else guardExc [(!i.onlyUses [fDst, fImm32], Code.ILLEGAL_INSTR)] (jumpTo (s.setCore n (c.setX i.dst (c.pc + 8))) n (relTarget c i))

/-- JR: the target is read before X[DST] is written. -/
def jr (n : Nat) (s : State) (i : Ins) : Ran :=
  let c := s.core n
  let t := c.xr i.s1
  if !c.inRange t then .exc Code.BAD_PC
  else guardExc [(!i.onlyUses [fDst, fS1], Code.ILLEGAL_INSTR)] (jumpTo (s.setCore n (c.setX i.dst (c.pc + 8))) n t)

/-- Branch conditions BEQ, BNE, BLT, BGE, BLTU, BGEU. -/
def branchHolds (sub a b : Nat) : Bool :=
  match sub with
  | 2 => a == b
  | 3 => a != b
  | 4 => decide (i64 a < i64 b)
  | 5 => decide (i64 b ≤ i64 a)
  | 6 => decide (a < b)
  | _ => decide (b ≤ a)

/-- A conditional branch. -/
def condBranch (n : Nat) (s : State) (i : Ins) : Ran :=
  let c := s.core n
  let taken := branchHolds i.sub (c.xr i.s1) (c.xr i.s2)
  if taken && (decide (relTarget c i < 0) || !c.inRange (relTarget c i).toNat) then .exc Code.BAD_PC
  else guardExc [(!i.onlyUses [fS1, fS2, fImm32], Code.ILLEGAL_INSTR)] (if taken then jumpTo s n (relTarget c i) else .done s)

/-- Bytes of a scalar memory access. -/
def memWidth (sub : Nat) : Nat := [1, 1, 2, 2, 4, 4, 8, 0, 1, 2, 4, 8].getD sub 8

/-- X[SRC1] + IMM32, modulo 2^64. -/
def memAddr (c : CoreSt) (i : Ins) : Nat := u64 ((c.xr i.s1 : Int) + i.imm32)

/-- A scalar load. -/
def scalarLoad (n : Nat) (s : State) (i : Ins) : Ran :=
  let c := s.core n
  let w := memWidth i.sub
  let a := memAddr c i
  let v := c.num a w
  let v := if i.sub % 2 = 1 then u64 (signed (8 * w) v) else v
  guardExc [(!i.onlyUses [fDst, fS1, fImm32], Code.ILLEGAL_INSTR), (decide (0x400000 < a + w), Code.LOCAL_RANGE), (decide (a % w ≠ 0), Code.MISALIGNED)]
    (.done (s.setCore n ((c.noteRead a w).setX i.dst v)))

/-- A scalar store. -/
def scalarStore (n : Nat) (s : State) (i : Ins) : Ran :=
  let c := s.core n
  let w := memWidth i.sub
  let a := memAddr c i
  guardExc [(!i.onlyUses [fS1, fS2, fImm32], Code.ILLEGAL_INSTR), (decide (0x400000 < a + w), Code.LOCAL_RANGE), (decide (a % w ≠ 0), Code.MISALIGNED),
      (inShard s n a w, Code.RESIDENT_WRITE)]
    (.done (s.setCore n (c.store a (leBytes w (c.xr i.s2)) false)))

/-- A control and status register (Table 6.6); none for a number not listed. -/
def csr (s : State) (n num : Nat) : Option Nat :=
  let c := s.core n
  let tp : (Task → Nat) → Option Nat := fun f => some ((c.task.map f).getD 0)
  match num with
  | 0x000 => some c.fstat
  | 0x001 => some c.tstat
  | 0x002 => some c.selstat
  | 0x010 => tp (fun t => t.id)
  | 0x011 => tp (fun t => t.tmpl)
  | 0x012 => tp (fun t => slotOf s t.ctx)
  | 0x013 => tp (fun t => match t.binding with
      | some b => b.slot
      | none => 0x1F)
  | 0x014 => tp (fun t => (tmplOf s t.die t.tmpl).opndOff)
  | 0x015 => tp (fun _ => c.nopnd)
  | 0x016 => tp (fun t => t.key)
  | 0x017 => tp (fun t => taskPri s t)
  | 0x018 => tp (fun t => match t.flow, t.inst.bind (fun e => instOf s e.1) with
      | some _, _ => t.pos
      | none, some x => if x.flow.isSome then x.pos else 2 ^ 64 - 1
      | none, none => 2 ^ 64 - 1)
  | 0x020 => some n
  | 0x021 => some s.io.tb
  | 0x022 => some (cyclesOf (s.io.tb - c.resetAt) % 2 ^ 64)
  | 0x030 => tp (fun t => match t.binding with
      | some b => (seqOf s b.core b.slot).carry
      | none => 0)
  | _ => none

/-- Write a CSR: FSTAT, TSTAT and SELSTAT keep the bits they define; the rest are RO. -/
def putCsr (c : CoreSt) (num v : Nat) : Option CoreSt :=
  match num with
  | 0x000 => some { c with fstat := v % 2 ^ 6 }
  | 0x001 => some { c with tstat := v % 2 ^ 3 }
  | 0x002 => some { c with selstat := v % 2 ^ 25 }
  | _ => none

/-- CSR number of a CSR instruction. -/
def Ins.csrNum (i : Ins) : Nat := i.imm16 % 4096

/-- CSR.RD. -/
def csrRd (n : Nat) (s : State) (i : Ins) : Ran :=
  if !i.onlyUses [fDst, (11, 0)] then .exc Code.ILLEGAL_INSTR
  else match csr s n i.csrNum with
    | some v => .done (s.setCore n ((s.core n).setX i.dst v))
    | none => .exc Code.ILLEGAL_INSTR

/-- CSR.WR, CSR.SET and CSR.CLR: what a write of X[SRC1] makes of a CSR. -/
def csrPut (f : Nat → Nat → Nat) (n : Nat) (s : State) (i : Ins) : Ran :=
  if !i.onlyUses [fS1, (11, 0)] then .exc Code.ILLEGAL_INSTR
  else match csr s n i.csrNum with
    | some v =>
      match putCsr (s.core n) i.csrNum (f v ((s.core n).xr i.s1)) with
      | some c => .done (s.setCore n c)
      | none => .exc Code.ILLEGAL_INSTR
    | none => .exc Code.ILLEGAL_INSTR

/-- An instruction of a class and a set of sub-opcodes. -/
def isOp (major : Nat) (subs : List Nat) (i : Ins) : Bool := i.major == major && subs.contains i.sub

/-- SCALAR_ALU (R151). -/
def execScalarAlu (core : Nat) (s : State) : Host.Outcome State Fault Refusal :=
  .next (runIns s core (isOp 0x01 (List.range 18)) (some Off.fcore_INSTR_SCALAR_LO) (scalarAlu core))

/-- SCALAR_IMMEDIATE (R151). -/
def execScalarImmediate (core : Nat) (s : State) : Host.Outcome State Fault Refusal :=
  .next (runIns s core (isOp 0x02 (List.range 9)) (some Off.fcore_INSTR_SCALAR_LO) (scalarImm core))

/-- JAL (R151). -/
def execJal (core : Nat) (s : State) : Host.Outcome State Fault Refusal :=
  .next (runIns s core (isOp 0x03 [0]) (some Off.fcore_INSTR_SCALAR_LO) (jal core))

/-- JR (R151). -/
def execJr (core : Nat) (s : State) : Host.Outcome State Fault Refusal :=
  .next (runIns s core (isOp 0x03 [1]) (some Off.fcore_INSTR_SCALAR_LO) (jr core))

/-- CONDITIONAL_BRANCH: BEQ to BGEU (R151). -/
def execConditionalBranch (core : Nat) (s : State) : Host.Outcome State Fault Refusal :=
  .next (runIns s core (isOp 0x03 [2, 3, 4, 5, 6, 7]) (some Off.fcore_INSTR_SCALAR_LO) (condBranch core))

/-- SCALAR_LOAD (R151). -/
def execScalarLoad (core : Nat) (s : State) : Host.Outcome State Fault Refusal :=
  .next (runIns s core (isOp 0x04 (List.range 7)) (some Off.fcore_INSTR_SCALAR_LO) (scalarLoad core))

/-- SCALAR_STORE (R151). -/
def execScalarStore (core : Nat) (s : State) : Host.Outcome State Fault Refusal :=
  .next (runIns s core (isOp 0x04 [8, 9, 10, 11]) (some Off.fcore_INSTR_SCALAR_LO) (scalarStore core))

/-- CSR_RD (R152). -/
def execCsrRd (core : Nat) (s : State) : Host.Outcome State Fault Refusal :=
  .next (runIns s core (isOp 0x05 [0]) (some Off.fcore_INSTR_SCALAR_LO) (csrRd core))

/-- CSR_WR (R152). -/
def execCsrWr (core : Nat) (s : State) : Host.Outcome State Fault Refusal :=
  .next (runIns s core (isOp 0x05 [1]) (some Off.fcore_INSTR_SCALAR_LO) (csrPut (fun _ v => v) core))

/-- CSR_SET (R152). -/
def execCsrSet (core : Nat) (s : State) : Host.Outcome State Fault Refusal :=
  .next (runIns s core (isOp 0x05 [2]) (some Off.fcore_INSTR_SCALAR_LO) (csrPut Nat.lor core))

/-- CSR_CLR (R152). -/
def execCsrClr (core : Nat) (s : State) : Host.Outcome State Fault Refusal :=
  .next (runIns s core (isOp 0x05 [3]) (some Off.fcore_INSTR_SCALAR_LO) (csrPut (fun o v => o - Nat.land o v) core))

end Sys2Proof.Machine
end

