-- ==== Sys2Proof/Machine/VectorInstr.lean ====
section
/-! DEFINITION. Vector arithmetic, compare and memory instructions: R144, R145, R153 to R161. -/

namespace Sys2Proof.Machine

open Sys2Proof.Num (FVal FFlags width isInt isSigned isFloat isMx intOf intCode)

/-- The six register types (R153). -/
def regType (et : Nat) : Bool := et == Num.U32 || et == Num.I32 || et == Num.U64 || et == Num.I64 || et == Num.FP32 || et == Num.FP64

/-- A register whose number is odd although the type takes pairs (R144). -/
def oddPair (et : Nat) (rs : List Nat) : Bool := decide (width et = 64) && rs.any (fun r => decide (r % 2 = 1))

/-- S2X. -/
def Ins.s2x (i : Ins) : Bool := bitOf i.w 0

/-- Lane `l` of the second operand: a vector lane, or X[SRC2] truncated to the element under S2X (R153). -/
def src2 (c : CoreSt) (i : Ins) (w l : Nat) : Nat := if i.s2x then c.xr i.s2 % 2 ^ w else c.elem w i.s2 l

/-- LOG1P of an FP32 code (R154). -/
def log1p (a : Nat) : Nat × FFlags :=
  let sn : FFlags := { nv := Num.isSNaN (Num.fmtOf Num.FP32) a }
  match Num.value Num.FP32 a with
  | .nan => (0x7FC00000, sn)
  | .inf false => (0x7F800000, {})
  | .inf true => (0x7FC00000, { nv := true })
  | .fin n m e =>
    if m = 0 then (a, {})
    else if a = 0xBF800000 then (0xFF800000, { dz := true })
    else if n ∧ Num.cmpV (.fin n m e) (.fin true 1 0) = .lt then (0x7FC00000, { nv := true })
    else
      let r := (Config.log1pBits (BitVec.ofNat 32 a)).toNat
      (r, { nx := true, uf := decide (r % 2 ^ 31 < 2 ^ 23) })

/-- EXP of an FP32 code (R154): overflow begins above 0x42B1_7218, whose exponential still rounds to a finite value. -/
def expOp (sat : Bool) (a : Nat) : Nat × FFlags :=
  let sn : FFlags := { nv := Num.isSNaN (Num.fmtOf Num.FP32) a }
  match Num.value Num.FP32 a with
  | .nan => (0x7FC00000, sn)
  | .inf false => (0x7F800000, {})
  | .inf true => (0, {})
  | .fin n m _ =>
    if m = 0 then (0x3F800000, {})
    else if !n ∧ 0x42B17218 < a then (if sat then 0x7F7FFFFF else 0x7F800000, { of := true, nx := true })
    else
      let r := (Config.expBits (BitVec.ofNat 32 a)).toNat
      (r, { nx := true, uf := decide (r % 2 ^ 31 < 2 ^ 23) })

/-- One lane of vector arithmetic (Table 6.7). -/
def laneOp (sub et rm : Nat) (sat : Bool) (a b d : Nat) : Nat × FFlags :=
  let w := width et
  if isInt et then
    let x := intOf et a
    let y := intOf et b
    let k : Int → Nat × FFlags := fun z => (intCode et sat z, {})
    match sub with
    | 0 => k (x + y)
    | 1 => k (x - y)
    | 2 => k (x * y)
    | 4 => (if y < x then b else a, {})
    | 5 => (if x < y then b else a, {})
    | 6 => k x.natAbs
    | 7 => k (-x)
    | 12 => (Nat.land a b, {})
    | 13 => (Nat.lor a b, {})
    | 14 => (Nat.xor a b, {})
    | 15 => k (x * (2 ^ (b % w) : Nat))
    | _ => (unsignedOf w (x / (2 ^ (b % w) : Nat)), {})
  else match sub with
    | 0 => fAdd et rm sat a b
    | 1 => fSub et rm sat a b
    | 2 => fMul et rm sat a b
    | 3 => fFma et rm sat a b d
    | 4 => fMinMax et false a b
    | 5 => fMinMax et true a b
    | 6 => fSign et false a
    | 7 => fSign et true a
    | 8 => fDiv et rm sat a b
    | 9 => fSqrt et rm sat a
    | 10 => log1p a
    | _ => expOp sat a

/-- Types that a sub-opcode of Table 6.7 takes. -/
def laneTypes (sub et : Nat) : Bool :=
  match sub with
  | 3 | 8 | 9 => et == Num.FP32 || et == Num.FP64
  | 10 | 11 => et == Num.FP32
  | 12 | 13 | 14 | 15 | 16 => isInt et
  | _ => true

/-- Whether a sub-opcode reads a second operand. -/
def hasSrc2 (sub : Nat) : Bool := [0, 1, 2, 3, 4, 5, 8, 12, 13, 14, 15, 16, 19].contains sub

/-- RM is used by float types, but not by LOG1P and EXP; SAT by every vector arithmetic (R58). -/
def roundFields (sub et : Nat) : List (Nat × Nat) := if isInt et ∨ sub = 10 ∨ sub = 11 then [fSat] else [fRm, fSat]

/-- Type checks in order: reserved code, then a type outside the instruction's (R52, R153). -/
def typeExc (et : Nat) (ok : Bool) : List (Bool × Nat) := [(!Num.valid et, Code.BAD_ELEM_TYPE), (!ok, Code.TYPE_CLASS)]

/-- Lane-wise arithmetic and logic: sub-opcodes 0 to 16. -/
def vecLanes (n : Nat) (s : State) (i : Ins) : Ran :=
  let c := s.core n
  let et := i.type
  let w := width et
  let two := hasSrc2 i.sub
  let keep := [fDst, fS1, fType, fPred] ++ (if two then [fS2, (0, 0)] else []) ++ (if i.sub = 3 then [fS3] else []) ++ roundFields i.sub et
  let regs := [i.dst, i.s1] ++ (if two ∧ !i.s2x then [i.s2] else []) ++ (if i.sub = 3 then [i.s3] else [])
  let rs := (List.range 64).map (fun l =>
    laneOp i.sub et i.rm i.sat (c.elem w i.s1 l) (if two then src2 c i w l else 0) (if i.sub = 3 then c.elem w i.s3 l else 0))
  let fl := rs.zipIdx.foldl (fun a e => if c.active i e.2 then Nat.lor a (flagBits e.1.2) else a) 0
  guardExc ([(!i.onlyUses keep, Code.ILLEGAL_INSTR)] ++ typeExc et (regType et && laneTypes i.sub et) ++ [(oddPair et regs, Code.BAD_REG)])
    (.done (s.setCore n ((c.putLanes i w i.dst (rs.map Prod.fst)).orF fl)))

/-- SEL: d = mask bit ? s1 : s2. -/
def vecSel (n : Nat) (s : State) (i : Ins) : Ran :=
  let c := s.core n
  let et := i.type
  let w := width et
  let m := c.mr (bitsOf i.w 10 8)
  let rs := (List.range 64).map (fun l => if bitOf m l then c.elem w i.s1 l else src2 c i w l)
  guardExc ([(!i.onlyUses [fDst, fS1, fS2, fType, fPred, fRm, fSat, (10, 8), (0, 0)] || i.rm != 0 || i.sat, Code.ILLEGAL_INSTR)]
      ++ typeExc et (regType et) ++ [(oddPair et ([i.dst, i.s1] ++ (if i.s2x then [] else [i.s2])), Code.BAD_REG)])
    (.done (s.setCore n (c.putLanes i w i.dst rs)))

/-- BCAST: every active lane = X[SRC1]. -/
def vecBcast (n : Nat) (s : State) (i : Ins) : Ran :=
  let c := s.core n
  let et := i.type
  let w := width et
  guardExc ([(!i.onlyUses [fDst, fS1, fType, fPred], Code.ILLEGAL_INSTR)] ++ typeExc et (regType et) ++ [(oddPair et [i.dst], Code.BAD_REG)])
    (.done (s.setCore n (c.putLanes i w i.dst (List.replicate 64 (c.xr i.s1 % 2 ^ w)))))

/-- A code of a register type in a scalar register: I types are sign-extended, others zero-extended (Table 6.7; log
entry 14 for reductions). -/
def toX (et code : Nat) : Nat := if isSigned et then u64 (signed (width et) code) else code

/-- MOVX: X[DST] = one lane of s1. -/
def vecMovx (n : Nat) (s : State) (i : Ins) : Ran :=
  let c := s.core n
  let et := i.type
  guardExc ([(!i.onlyUses [fDst, fS1, fType, fPred, (13, 8)], Code.ILLEGAL_INSTR)] ++ typeExc et (regType et) ++ [(oddPair et [i.s1], Code.BAD_REG)])
    (.done (s.setCore n (c.setX i.dst (toX et (c.elem (width et) i.s1 (bitsOf i.w 13 8))))))

/-- VECTOR_ARITHMETIC but CVT and the reductions. -/
def vecArith (n : Nat) (s : State) (i : Ins) : Ran :=
  if i.sub ≤ 16 then vecLanes n s i else if i.sub = 19 then vecSel n s i else if i.sub = 23 then vecBcast n s i else vecMovx n s i

/-- CVT: from the type in IMM16[15:8] to TYPE (R59, R153). -/
def vecCvt (n : Nat) (s : State) (i : Ins) : Ran :=
  let c := s.core n
  let src := bitsOf i.w 15 8
  let et := i.type
  let rs := (List.range 64).map (fun l => Num.convert src et i.rm i.sat (c.elem (width src) i.s1 l))
  let fl := rs.zipIdx.foldl (fun a e => if c.active i e.2 then Nat.lor a (flagBits e.1.2) else a) 0
  let keep := [fDst, fS1, fType, fPred, fSat, (15, 8)] ++ (if isInt src ∧ isInt et then [] else [fRm])
  guardExc [(!i.onlyUses keep, Code.ILLEGAL_INSTR), (!Num.valid et || !Num.valid src, Code.BAD_ELEM_TYPE), (!regType et || !regType src, Code.TYPE_CLASS),
      (oddPair et [i.dst] || oddPair src [i.s1], Code.BAD_REG)]
    (.done (s.setCore n ((c.putLanes i (width et) i.dst (rs.map Prod.fst)).orF fl)))

/-- One level of the fixed pairwise tree (R155). -/
def pairUp {α : Type} (f : α → α → α) : List α → List α
  | a :: b :: l => f a b :: pairUp f l
  | l => l

/-- The six levels of the tree over 64 lanes. -/
def tree {α : Type} (f : α → α → α) (l : List α) : List α := (List.range 6).foldl (fun l _ => pairUp f l) l

/-- REDSUM: inactive lanes are +0. -/
def redSum (c : CoreSt) (i : Ins) : Nat × Nat :=
  let et := i.type
  let l := (List.range 64).map (fun k => (if c.active i k then c.elem (width et) i.s1 k else 0, 0))
  let f : Nat × Nat → Nat × Nat → Nat × Nat := fun a b =>
    let r := laneOp 0 et i.rm i.sat a.1 b.1 0
    (r.1, Nat.lor (Nat.lor a.2 b.2) (flagBits r.2))
  (tree f l).headD (0, 0)

/-- REDMAX and REDMIN: inactive lanes are excluded. -/
def redMinMax (c : CoreSt) (i : Ins) (mx : Bool) : Nat × Nat :=
  let et := i.type
  let l := (List.range 64).map (fun k => if c.active i k then some (c.elem (width et) i.s1 k, 0) else none)
  let f : Option (Nat × Nat) → Option (Nat × Nat) → Option (Nat × Nat) := fun a b =>
    match a, b with
    | some a, some b =>
      let r := laneOp (if mx then 5 else 4) et 0 false a.1 b.1 0
      some (r.1, Nat.lor (Nat.lor a.2 b.2) (flagBits r.2))
    | some a, none => some a
    | none, b => b
  match (tree f l).head?.join with
  | some r => r
  | none =>
    if isInt et then (intCode et true (if mx then Num.intMin et else Num.intMax et), 0) else (Num.canonNaN (Num.fmtOf et), 0)

/-- REDSUM, REDMAX, REDMIN (R155). -/
def vecReduce (n : Nat) (s : State) (i : Ins) : Ran :=
  let c := s.core n
  let et := i.type
  let r := if i.sub = 20 then redSum c i else redMinMax c i (i.sub == 21)
  let keep := [fDst, fS1, fType, fPred] ++ (if i.sub = 20 then roundFields 0 et else [])
  guardExc ([(!i.onlyUses keep, Code.ILLEGAL_INSTR)] ++ typeExc et (regType et) ++ [(oddPair et [i.s1], Code.BAD_REG)])
    (.done (s.setCore n ((c.setX i.dst (toX et r.1)).orF r.2)))

/-- Vector compare (R156). -/
def vecCompare (n : Nat) (s : State) (i : Ins) : Ran :=
  let c := s.core n
  let et := i.type
  let w := width et
  let r : Nat → Bool × FFlags := fun l =>
    let a := c.elem w i.s1 l
    let b := src2 c i w l
    if isInt et then (iCompare et i.sub a b, {}) else fCompare et i.sub a b
  let fl := (List.range 64).foldl (fun a l => if c.active i l then Nat.lor a (flagBits (r l).2) else a) 0
  guardExc ([(!i.onlyUses [(49, 47), fS1, fS2, fType, fPred, (0, 0)], Code.ILLEGAL_INSTR)] ++ typeExc et (regType et)
      ++ [(oddPair et ([i.s1] ++ (if i.s2x then [] else [i.s2])), Code.BAD_REG)])
    (.done (s.setCore n ((c.putMask i i.dst (fun l => (r l).1)).orF fl)))

/-- The register type to which an SRAM type widens (R160). -/
def wideType (et : Nat) : Nat :=
  if et = Num.U8 ∨ et = Num.U16 then Num.U32 else if et = Num.I8 ∨ et = Num.I16 then Num.I32
  else if regType et then et else Num.FP32

/-- The byte address of lane `l` by addressing form: 0 contiguous, 1 strided, 2 indexed (Table 6.8). -/
def laneAddr (c : CoreSt) (i : Ins) (form l : Nat) : Nat :=
  let b : Int := c.xr i.s1
  if form = 0 then u64 (b + i.imm16s + ((l * width i.type / 8 : Nat) : Int))
  else if form = 1 then u64 (b + (l : Int) * i64 (c.xr i.s2))
  else u64 (b + (c.vl i.s2 l : Int))

/-- Bytes of an element access. -/
def elemBytes (et : Nat) : Nat := max 1 (width et / 8)

/-- Active lanes. -/
def activeLanes (c : CoreSt) (i : Ins) : List Nat := (List.range 64).filter (fun l => c.active i l)

/-- Bytes that the active lanes of an access touch, by lane: a packed element touches the bytes that hold its bits. -/
def laneSpan (c : CoreSt) (i : Ins) (form l : Nat) : Nat × Nat :=
  if width i.type % 8 = 0 then (laneAddr c i form l, elemBytes i.type)
  else
    let bit := l * width i.type
    (u64 ((c.xr i.s1 : Int) + i.imm16s + ((bit / 8 : Nat) : Int)), (bit % 8 + width i.type + 7) / 8)

/-- The common checks of vector memory (R159 to R161). -/
def vmemExc (s : State) (n : Nat) (c : CoreSt) (i : Ins) (form : Nat) (store : Bool) : List (Bool × Nat) :=
  let et := i.type
  let mx := isMx et
  let conv := wideType et ≠ et
  let round := if mx then (if store then [] else [fRm, fSat]) else if !conv then [] else if isInt et then (if store then [fSat] else []) else [fRm, fSat]
  let keep := [fDst, fS1, fType, fPred] ++ round ++ (if form = 0 then [fImm16] else [fS2]) ++ (if mx then [fS3] else [])
  let act := activeLanes c i
  let spans := act.map (laneSpan c i form)
  let scale := c.xr i.s3
  [(!i.onlyUses keep, Code.ILLEGAL_INSTR)] ++ typeExc et (!mx || form == 0)
    ++ [(oddPair et [i.dst], Code.BAD_REG),
        (spans.any (fun e => decide (0x400000 < e.1 + e.2)) || (mx && !(act == []) && decide (0x400000 < scale + 2)), Code.LOCAL_RANGE),
        (act.any (fun l => decide (laneAddr c i form l % elemBytes et ≠ 0)), Code.MISALIGNED),
        (store && (spans.any (fun e => inShard s n e.1 e.2) || (mx && inShard s n scale 2)), Code.RESIDENT_WRITE)]

/-- Extra cycles of a vector access (R147, R158). -/
def vmemConflict (c : CoreSt) (i : Ins) (form : Nat) : Nat :=
  bankRounds ((activeLanes c i).map (laneAddr c i form)) (elemBytes i.type) - 1

/-- Extra cycles of an access that completes. -/
def withConflict (n k : Nat) (r : Ran) : Ran :=
  match r with
  | .done s => .done (if k = 0 then s else s.mapIo (fun io =>
      (io.count64 (bCarter n) Off.carter_BANK_CONFLICT_LO k).count64 (bCarter n) Off.carter_CYC_TOTAL_LO k))
  | r => r

/-- The code that lane `l` of a load gives the register (R160). -/
def loadLane (c : CoreSt) (i : Ins) (form l : Nat) : Nat × FFlags :=
  let et := i.type
  if isMx et then
    let bit := l * width et
    let code := bitsOf (c.num (laneSpan c i form l).1 (laneSpan c i form l).2) (bit % 8 + width et - 1) (bit % 8)
    Num.encodeF (Num.fmtOf Num.FP32) i.rm i.sat (Num.mxValue et (c.num (c.xr i.s3 + l / 32) 1) code)
  else
    let code := c.num (laneAddr c i form l) (elemBytes et)
    if wideType et = et then (code, {}) else Num.convert et (wideType et) i.rm i.sat code

/-- VLD, VLDS, VLDG. -/
def vload (form n : Nat) (s : State) (i : Ins) : Ran :=
  let c := s.core n
  let et := i.type
  let act := activeLanes c i
  let rs := (List.range 64).map (fun l => if c.active i l then loadLane c i form l else (0, {}))
  let fl := rs.foldl (fun a e => Nat.lor a (flagBits e.2)) 0
  let d := act.foldl (fun d l => let e := laneSpan c i form l; d.noteRead e.1 e.2) c
  let d := if isMx et ∧ act ≠ [] then d.noteRead (c.xr i.s3) 2 else d
  guardExc (vmemExc s n c i form false)
    (withConflict n (vmemConflict c i form) (.done (s.setCore n ((d.putLanes i (width (wideType et)) i.dst (rs.map Prod.fst)).orF fl))))

/-- Stores of lanes in lane order; with `vst`, a clean store of a whole line clears its poison (R406). -/
def storeLanes (c : CoreSt) (ws : List (Nat × List Byte)) (vst : Bool) : CoreSt :=
  let d := ws.foldl (fun d e => d.store e.1 e.2 false) c
  if !vst ∨ c.poisoned then d
  else
    let bytes := ws.flatMap (fun e => (List.range e.2.length).map (fun k => e.1 + k))
    let lines := ws.foldl (fun l e => (linesOf e.1 e.2.length).foldl (fun l x => if l.contains x then l else l ++ [x]) l) []
    lines.foldl (fun d l => if (List.range 64).all (fun k => bytes.contains (64 * l + k)) then
      { d with sramPoison := smPut false l false d.sramPoison } else d) d

/-- Scale bytes and element codes of an MX store, by lane, and whether a block was non-finite (R57, R160). -/
def mxStore (c : CoreSt) (i : Ins) : List Nat × List Nat × Bool :=
  let half : Nat → Nat × List Nat × Bool := fun h =>
    Num.mxBlock i.type ((List.range 32).map (fun k =>
      if c.active i (32 * h + k) then Num.value Num.FP32 (c.vl i.dst (32 * h + k)) else .fin false 0 0))
  let a := half 0
  let b := half 1
  ([a.1, b.1], a.2.1 ++ b.2.1, a.2.2 || b.2.2)

/-- An MX store: the active lanes' codes, and the scale of each half that has an active lane. -/
def vstoreMx (c : CoreSt) (i : Ins) : CoreSt :=
  let (sc, codes, bad) := mxStore c i
  let w := width i.type
  let d := (activeLanes c i).foldl (fun d l =>
    let bit := l * w
    let e := laneSpan c i 0 l
    let v := putBits (d.num e.1 e.2) (bit % 8 + w - 1) (bit % 8) (codes.getD l 0)
    d.store e.1 (leBytes e.2 v) false) c
  let d := [0, 1].foldl (fun d h =>
    if (activeLanes c i).any (fun l => decide (l / 32 = h)) then d.store (c.xr i.s3 + h) (leBytes 1 (sc.getD h 0)) false else d) d
  if bad then d.orF 32 else d

/-- VST, VSTS, VSTG: V[DST] is stored. -/
def vstore (form n : Nat) (s : State) (i : Ins) : Ran :=
  let c := s.core n
  let et := i.type
  let wt := wideType et
  let rs := (activeLanes c i).map (fun l =>
    let v := c.elem (width wt) i.dst l
    let r := if wt = et then (v, ({} : FFlags)) else Num.convert wt et i.rm i.sat v
    (laneAddr c i form l, leBytes (elemBytes et) r.1, flagBits r.2))
  let d := if isMx et then vstoreMx c i
    else (storeLanes c (rs.map (fun e => (e.1, e.2.1))) (form == 0)).orF (rs.foldl (fun a e => Nat.lor a e.2.2) 0)
  guardExc (vmemExc s n c i form true) (withConflict n (vmemConflict c i form) (.done (s.setCore n d)))

/-- VECTOR_ARITHMETIC (R153). -/
def execVectorArithmetic (core : Nat) (s : State) : Host.Outcome State Fault Refusal :=
  .next (runIns s core (isOp 0x08 (List.range 17 ++ [19, 23, 24])) (some Off.fcore_INSTR_VECTOR_LO) (vecArith core))

/-- CVT (R59, R153). -/
def execCvt (core : Nat) (s : State) : Host.Outcome State Fault Refusal :=
  .next (runIns s core (isOp 0x08 [18]) (some Off.fcore_INSTR_VECTOR_LO) (vecCvt core))

/-- REDSUM, REDMAX, REDMIN (R155). -/
def execRedsum (core : Nat) (s : State) : Host.Outcome State Fault Refusal :=
  .next (runIns s core (isOp 0x08 [20, 21, 22]) (some Off.fcore_INSTR_VECTOR_LO) (vecReduce core))

/-- VECTOR_COMPARE (R156). -/
def execVectorCompare (core : Nat) (s : State) : Host.Outcome State Fault Refusal :=
  .next (runIns s core (isOp 0x09 (List.range 6)) (some Off.fcore_INSTR_VECTOR_LO) (vecCompare core))

/-- VLD (R159, R160). -/
def execVld (core : Nat) (s : State) : Host.Outcome State Fault Refusal :=
  .next (runIns s core (isOp 0x0A [0]) (some Off.fcore_INSTR_VECTOR_LO) (vload 0 core))

/-- VLDS (R159, R160). -/
def execVlds (core : Nat) (s : State) : Host.Outcome State Fault Refusal :=
  .next (runIns s core (isOp 0x0A [1]) (some Off.fcore_INSTR_VECTOR_LO) (vload 1 core))

/-- VLDG (R159, R160). -/
def execVldg (core : Nat) (s : State) : Host.Outcome State Fault Refusal :=
  .next (runIns s core (isOp 0x0A [2]) (some Off.fcore_INSTR_VECTOR_LO) (vload 2 core))

/-- VST (R160). -/
def execVst (core : Nat) (s : State) : Host.Outcome State Fault Refusal :=
  .next (runIns s core (isOp 0x0A [4]) (some Off.fcore_INSTR_VECTOR_LO) (vstore 0 core))

/-- VSTS (R159, R160). -/
def execVsts (core : Nat) (s : State) : Host.Outcome State Fault Refusal :=
  .next (runIns s core (isOp 0x0A [5]) (some Off.fcore_INSTR_VECTOR_LO) (vstore 1 core))

/-- VSTG (R160). -/
def execVstg (core : Nat) (s : State) : Host.Outcome State Fault Refusal :=
  .next (runIns s core (isOp 0x0A [6]) (some Off.fcore_INSTR_VECTOR_LO) (vstore 2 core))

end Sys2Proof.Machine
end

