-- ==== Sys2Proof/Machine/TableInstr.lean ====
section
/-! DEFINITION. Vector table and select instructions: R162 to R168, and the Assayer tables that they reach (R224 to R227,
R536). -/

namespace Sys2Proof.Machine

open Sys2Proof.Num (width isInt)

/-- The bytes that a key reference names (R163): none when bits [31:keep] are set or the length is out of range.
Bit 29 is LONG where `long` allows it (R234). -/
def keyRef (r : Nat) (long : Bool) : Option (Nat × Nat) :=
  let len := if bitsOf r 28 22 = 0 then 64 else bitsOf r 28 22
  if 64 < len ∨ bitsOf r 31 30 ≠ 0 ∨ (bitOf r 29 && !long) then none else some (bitsOf r 21 0, len)

/-- Whether an active lane's key reference reads past the end of SRAM. -/
def keyOver (c : CoreSt) (i : Ins) (reg : Nat) (long : Bool) : Bool :=
  (activeLanes c i).any (fun l => (keyRef (c.vl reg l) long).any (fun e => decide (0x400000 < e.1 + e.2)))

/-- SRAM lines that lanes read through key references are noted for poison. -/
def noteKeys (c : CoreSt) (i : Ins) (reg : Nat) (long : Bool) : CoreSt :=
  (activeLanes c i).foldl (fun d l => match keyRef (c.vl reg l) long with
    | some e => d.noteRead e.1 e.2
    | none => d) c

/-- The key of a lane of VT.HASH: the element's bytes, or those that its reference names. -/
def hashKey (c : CoreSt) (i : Ins) (l : Nat) : Option (List Byte) :=
  if bitOf i.w 4 then (keyRef (c.vl i.s1 l) false).map (fun e => c.bytes e.1 e.2)
  else some (Hash.fieldKey i.type (c.elem (width i.type) i.s1 l))

/-- The exceptions of VT.HASH, in the order of Table 6.12 (R149, R163). -/
def hashExc (c : CoreSt) (i : Ins) : List (Bool × Nat) :=
  let f := bitsOf i.w 3 0
  let byRef := bitOf i.w 4 && f != 3
  let m := c.xr i.s3
  let keep := [fDst, fS2, fPred, (4, 0)] ++ (if f = 3 then [fS3] else [fS1]) ++ (if f = 2 then [fS3, (5, 5)] else [])
    ++ (if f = 3 ∨ byRef then [] else [fType])
  [(!i.onlyUses keep, Code.ILLEGAL_INSTR)] ++ (if f = 3 ∨ byRef then [] else typeExc i.type (regType i.type))
    ++ [((f != 1 && decide (i.dst % 2 = 1)) || (f != 3 && !byRef && oddPair i.type [i.s1]), Code.BAD_REG),
        (decide (4 < f), Code.BAD_HASH_PARAM), (f == 2 && (m == 0 || decide (2 ^ 32 < m)), Code.TABLE_FORMAT),
        (byRef && keyOver c i i.s1 false, Code.LOCAL_RANGE)]

/-- VT.HASH (R163). -/
def vtHash (n : Nat) (s : State) (i : Ins) : Ran :=
  let c := s.core n
  let f := bitsOf i.w 3 0
  let byRef := bitOf i.w 4 && f != 3
  let seed := c.xr i.s2
  let m := c.xr i.s3
  let key : Nat → Option (List Byte) := hashKey c i
  let act := activeLanes c i
  let oob := f != 3 && act.any (fun l => (key l).isNone)
  let val : (List Byte → Nat) → Nat → Nat := fun h l => if c.active i l then ((key l).map h).getD 0 else 0
  let d := match f with
    | 1 => c.putLanes i 32 i.dst ((List.range 64).map (val (Hash.crc32c (seed % 2 ^ 32))))
    | 2 =>
      let idx := (List.range 64).map (val (fun k => (Hash.featureHash k seed m (bitOf i.w 5)).1))
      let sg := (List.range 64).map (val (fun k => unsignedOf 32 (Hash.featureHash k seed m (bitOf i.w 5)).2))
      (c.putLanes i 32 i.dst idx).putLanes i 32 (i.dst + 1) sg
    | 3 => c.putLanes i 64 i.dst ((List.range 64).map (fun l => min (c.elem 64 i.dst l) (Hash.lane seed (m + l))))
    | _ => c.putLanes i 64 i.dst ((List.range 64).map (val (fun k => Hash.smx64 k seed)))
  let d := if byRef then noteKeys d i i.s1 false else d
  let d := if oob then d.orT 1 else d
  guardExc (hashExc c i) (.done (s.setCore n d))

/-- Whether value `v` goes up at boundary `b` (ORD_BUCKET). -/
def bucketUp (et v b : Nat) : Bool :=
  if isInt et then decide (Num.intOf et b ≤ Num.intOf et v)
  else !Num.isNaN (Num.value et b) && (match Num.cmpV (Num.value et v) (Num.value et b) with
    | .lt => false
    | _ => true)

/-- The binary search of R164, over boundary `b`. -/
def bucketSearch (et v : Nat) (b : Nat → Nat) : Nat → Nat → Nat → Nat
  | 0, lo, _ => lo
  | fuel + 1, lo, hi =>
    if lo < hi then
      let mid := (lo + hi) / 2
      if bucketUp et v (b mid) then bucketSearch et v b fuel (mid + 1) hi else bucketSearch et v b fuel lo mid
    else lo

/-- The bucket of a value among `n` boundaries (R164). -/
def bucketOf (et v n : Nat) (b : Nat → Nat) : Nat :=
  if !isInt et && Num.isNaN (Num.value et v) then n + 1 else bucketSearch et v b 13 0 n

/-- The exceptions of VT.BUCKET (R149, R164). -/
def bucketExc (c : CoreSt) (i : Ins) : List (Bool × Nat) :=
  let w := width i.type / 8
  let t := c.xr i.s2
  let cnt := c.num t 4
  [(!i.onlyUses [fDst, fS1, fS2, fType, fPred], Code.ILLEGAL_INSTR)] ++ typeExc i.type (regType i.type)
    ++ [(oddPair i.type [i.s1], Code.BAD_REG), (decide (t + 4 ≤ 0x400000) && (cnt == 0 || decide (4096 < cnt)), Code.TABLE_FORMAT),
        (decide (0x400000 < t + 64 + cnt * w), Code.LOCAL_RANGE), (decide (t % max 4 w ≠ 0), Code.MISALIGNED)]

/-- VT.BUCKET (R164). -/
def vtBucket (n : Nat) (s : State) (i : Ins) : Ran :=
  let c := s.core n
  let et := i.type
  let w := width et / 8
  let t := c.xr i.s2
  let cnt := c.num t 4
  let b : Nat → Nat := fun k => c.num (t + 64 + k * w) w
  let rs := (List.range 64).map (fun l => if c.active i l then bucketOf et (c.elem (width et) i.s1 l) cnt b else 0)
  let d := (c.putLanes i 32 i.dst rs).noteRead t (64 + cnt * w)
  guardExc (bucketExc c i) (.done (s.setCore n d))

/-- The address of a lane's entry, and the lanes whose index lies in the table (R165). -/
def lookupAddr (c : CoreSt) (i : Ins) (l : Nat) : Nat := c.xr i.s2 + c.vl i.s1 l * elemBytes i.type
def lookupHits (c : CoreSt) (i : Ins) : List Nat := (activeLanes c i).filter (fun l => decide (c.vl i.s1 l < c.xr i.s3))

/-- The exceptions of VT.LOOKUP (R149, R165). -/
def lookupExc (c : CoreSt) (i : Ins) : List (Bool × Nat) :=
  let et := i.type
  let w := elemBytes et
  let keep := [fDst, fS1, fS2, fS3, fType, fPred] ++ (if wideType et = et ∨ isInt et then [] else [fRm, fSat])
  [(!i.onlyUses keep, Code.ILLEGAL_INSTR)] ++ typeExc et (!Num.isMx et)
    ++ [(oddPair et [i.dst], Code.BAD_REG), ((lookupHits c i).any (fun l => decide (0x400000 < lookupAddr c i l + w)), Code.LOCAL_RANGE),
        ((lookupHits c i).any (fun l => decide (lookupAddr c i l % w ≠ 0)), Code.MISALIGNED)]

/-- The entry that VT.LOOKUP gives a lane: widened, or zero where the index lies outside the table (R165). -/
def lookupLane (c : CoreSt) (i : Ins) (l : Nat) : Nat × Num.FFlags :=
  let et := i.type
  if (lookupHits c i).contains l then
    let code := c.num (lookupAddr c i l) (elemBytes et)
    if wideType et = et then (code, {}) else Num.convert et (wideType et) i.rm i.sat code
  else (0, {})

/-- VT.LOOKUP (R165). -/
def vtLookup (n : Nat) (s : State) (i : Ins) : Ran :=
  let c := s.core n
  let et := i.type
  let w := elemBytes et
  let hits := lookupHits c i
  let rs := (List.range 64).map (lookupLane c i)
  let fl := rs.foldl (fun a e => Nat.lor a (flagBits e.2)) 0
  let d := hits.foldl (fun d l => d.noteRead (lookupAddr c i l) w) c
  let d := (d.putLanes i (width (wideType et)) i.dst (rs.map Prod.fst)).orF fl
  let d := if hits.length < (activeLanes c i).length then d.orT 1 else d
  guardExc (lookupExc c i) (withConflict n (bankRounds (hits.map (lookupAddr c i)) w - 1) (.done (s.setCore n d)))

/-- A word of a table slot (Table 8.12). -/
def slotReg (s : State) (u k o : Nat) : Nat := s.io.br (bAssayer u) (o + 0x40 * k)

namespace AssayTab

/-- Fields of TBL_CTRL and TBL_RANGE. -/
def ctrl (s : State) (u k : Nat) : Nat := slotReg s u k Off.assayer_TBL_CTRL
def valid (s : State) (u k : Nat) : Bool := bitOf (ctrl s u k) 31
def lm (s : State) (u k : Nat) : Bool := bitOf (ctrl s u k) 30
def wide (s : State) (u k : Nat) : Bool := bitOf (ctrl s u k) 29
def keyLocal (s : State) (u k : Nat) : Bool := bitOf (ctrl s u k) 28
def gang (s : State) (u k : Nat) : Nat := bitsOf (ctrl s u k) 27 22
def lmax (s : State) (u k : Nat) : Nat := bitsOf (ctrl s u k) 21 15
def keyCore (s : State) (u k : Nat) : Nat := bitsOf (ctrl s u k) 14 8
def sizeK (s : State) (u k : Nat) : Nat := bitsOf (slotReg s u k Off.assayer_TBL_RANGE) 21 16
def baseK (s : State) (u k : Nat) : Nat := bitsOf (slotReg s u k Off.assayer_TBL_RANGE) 4 0
def seed (s : State) (u k : Nat) : Nat := slotReg s u k Off.assayer_FP_SEED_LO + 2 ^ 32 * slotReg s u k Off.assayer_FP_SEED_HI
def keyBase (s : State) (u k : Nat) : Nat := slotReg s u k Off.assayer_KEY_BASE_LO + 2 ^ 32 * slotReg s u k Off.assayer_KEY_BASE_HI

/-- Units of a table in ascending order: its own, or those of its gang (R224, R225). -/
def units (s : State) (u k : Nat) : List Nat :=
  if gang s u k = 0 then [u] else ((List.range 6).filter (fun p => bitOf (gang s u k) p)).map (fun p => u / 6 * 6 + p)

/-- Entries of a table. -/
def entries (s : State) (u k : Nat) : Nat := if gang s u k = 0 then 1024 * sizeK s u k else 32768 * (units s u k).length

/-- The array row of an entry, as unit × 32,768 + row (R225). -/
def rowOf (s : State) (u k i : Nat) : Nat :=
  if gang s u k = 0 then u * 32768 + 1024 * baseK s u k + i else (units s u k).getD (i / 32768) 0 * 32768 + i % 32768

/-- A table with a unit out of service is lost (R536). -/
def lost (s : State) (u k : Nat) : Bool := (units s u k).any (fun v => s.io.isOffline (bAssayer v))

end AssayTab

/-- The table that a service binds as `id` on a die (R226). -/
def assayBind (s : State) (svc id die : Nat) : Option (Nat × Nat) :=
  (s.assay.binds.find? (fun b => b.1 == svc && b.2.1 == id && b.2.2.1 / 6 == die && AssayTab.valid s b.2.2.1 b.2.2.2)).map (fun b => b.2.2)

/-- A unit's queue of lookups. -/
def assayQueue (s : State) (u : Nat) : List AssayReq := smGet [] u s.assay.queue

/-- Store a unit's queue. -/
def setAssayQueue (s : State) (u : Nat) (q : List AssayReq) : State :=
  { s with assay := { s.assay with queue := smPut [] u q s.assay.queue } }

/-- Results of a table wait are written when every lane has answered (R166, R236, R248). -/
def assayCommit (c : CoreSt) (w : AssayWait) : CoreSt :=
  let res : Nat → Nat × Nat × Bool := fun l => ((w.got.find? (fun g => g.1 == l)).map Prod.snd).getD (0, 0, false)
  let put : CoreSt → Nat → (Nat → Nat) → CoreSt := fun c r f => (List.range 64).foldl (fun d l =>
    if bitOf w.act l then d.setVl r l (f l) else if w.zm then d.setVl r l 0 else d) c
  let d := put c w.dst (fun l => (res l).1)
  let d := if w.wide then put d (w.dst + 1) (fun l => (res l).2.1) else d
  let d := d.setM w.mreg ((List.range 64).foldl (fun a l =>
    let b := if bitOf w.act l then (res l).2.2 else if w.zm then false else bitOf (c.mr w.mreg) l
    if b then a + 2 ^ l else a) 0)
  { d.orT w.tstat with assay := c.assay.filter (fun x => x.serial ≠ w.serial) }

/-- The request of a lane: none when its key reference or its start word is malformed (R234, R238). -/
def assayReq (c : CoreSt) (i : Ins) (lm : Bool) (n u k l : Nat) : Option AssayReq :=
  let word := c.elem 64 i.s1 l
  let bad := lm && (bitOf word 7 || decide (bitsOf word 31 15 ≠ 0))
  match keyRef (c.vl i.s2 l) (!lm) with
  | some (off, len) => if bad then none else some ⟨n, c.asks + 1, l, u, k, lm, word, c.bytes off len, bitOf (c.vl i.s2 l) 29⟩
  | none => none

/-- The table that a VT.ASSAY names: unit and slot (R166, R226). -/
def assayTab (s : State) (n : Nat) (i : Ins) : Option (Nat × Nat) :=
  match (s.core n).task with
  | some t => if i.imm16 < 256 then assayBind s t.svc i.imm16 (dieOfCore n) else none
  | none => none

/-- The requests that the active lanes send to a table: none while it is lost (R166, R536). -/
def assaySent (s : State) (n : Nat) (i : Ins) (lm : Bool) : List AssayReq :=
  let (u, k) := (assayTab s n i).getD (0, 0)
  if AssayTab.lost s u k then [] else (activeLanes (s.core n) i).filterMap (fun l => assayReq (s.core n) i lm n u k l)

/-- The exceptions of VT.ASSAY and VT.ASSAY_LM (R149, R162, R166, R227). -/
def assayExc (s : State) (n : Nat) (i : Ins) (lm : Bool) : List (Bool × Nat) :=
  let (u, k) := (assayTab s n i).getD (0, 0)
  let wide := !lm && AssayTab.wide s u k
  [(!i.onlyUses [fDst, fS1, fS2, (34, 32), fPred, fImm16], Code.ILLEGAL_INSTR),
   (decide (i.s1 % 2 = 1) || (wide && decide (i.dst % 2 = 1)), Code.BAD_REG), ((s.core n).task.isNone, Code.TASK_STATE),
   ((assayTab s n i).isNone || AssayTab.lm s u k != lm, Code.TABLE_FORMAT), (keyOver (s.core n) i i.s2 (!lm), Code.LOCAL_RANGE)]

/-- VT.ASSAY and VT.ASSAY_LM (R166, R227, R234, R236, R238): the active lanes' requests enter the queue of the table's
lowest unit; while they find no room the instruction stalls (R248). -/
def vtAssay (lm : Bool) (n : Nat) (s : State) (i : Ins) : Ran :=
  let c := s.core n
  let (u, k) := (assayTab s n i).getD (0, 0)
  let wide := !lm && AssayTab.wide s u k
  let act := activeLanes c i
  let reqs := act.filterMap (fun l => assayReq c i lm n u k l)
  let sent := assaySent s n i lm
  let bits := act.foldl (fun a l => a + 2 ^ l) 0
  let flags := b2n (decide (reqs.length < act.length)) + 2 * b2n (decide (sent.length < act.length))
  let w : AssayWait := ⟨c.asks + 1, i.dst, i.s3 % 8, bits, i.zm, wide, sent.length, flags, []⟩
  let d := noteKeys c i i.s2 (!lm)
  let d := { d with asks := c.asks + 1, assay := c.assay ++ [w] }
  let d := if sent = [] then assayCommit d w else d
  let t := setAssayQueue (s.setCore n d) u (assayQueue s u ++ sent)
  guardExc (assayExc s n i lm)
    (if 256 < (assayQueue s u).length + sent.length ∨ (sent ≠ [] ∧ !s.io.enabled (bAssayer u)) then .stall s Off.carter_PEER_WAIT_LO none else .done t)

/-- Types that a select takes (R167). -/
def selType (et : Nat) : Bool := et == Num.FP32 || et == Num.I32 || et == Num.U32

/-- A selection's output: `k` entries to a pair of registers, padded, and SELSTAT (R167). -/
def putSelect (c : CoreSt) (et k dst : Nat) (sel : List (Nat × Nat)) (tie nan : Nat) (dup : Bool) : CoreSt :=
  let d := (List.range k).foldl (fun d j =>
    let e := sel.getD j (padIdx, padCode et)
    (d.setVl dst j (outVal et e.2)).setVl (dst + 1) j e.1) c
  { d with selstat := sel.length + 2 ^ 8 * tie + 2 ^ 16 * nan + 2 ^ 24 * b2n dup }

/-- Common checks of the select instructions. -/
def selExc (i : Ins) (regs : List Nat) : List (Bool × Nat) :=
  let k := bitsOf i.w 6 0
  [(!i.onlyUses [fDst, fS1, fS2, fType, fPred, (6, 0)] || k == 0 || decide (64 < k), Code.ILLEGAL_INSTR)]
    ++ typeExc i.type (selType i.type) ++ [(regs.any (fun r => decide (r % 2 = 1)), Code.BAD_REG)]

/-- SEL.TOPK (R167). -/
def selTopk (n : Nat) (s : State) (i : Ins) : Ran :=
  let c := s.core n
  let et := i.type
  let cs := (activeLanes c i).map (fun l => ((c.xr i.s2 + l) % 2 ^ 32, c.vl i.s1 l))
  let p := selectRow et (bitsOf i.w 6 0) false cs false
  guardExc (selExc i [i.dst]) (.done (s.setCore n (putSelect c et (bitsOf i.w 6 0) i.dst p.entries p.tie p.nan false)))

/-- SEL.MERGE (R168). -/
def selMerge (n : Nat) (s : State) (i : Ins) : Ran :=
  let c := s.core n
  let et := i.type
  let k := bitsOf i.w 6 0
  let list : Nat → List (Nat × Nat) := fun r => (activeLanes c i).map (fun l => (c.vl (r + 1) l, c.vl r l))
  let cs := (list i.s1 ++ list i.s2).filter (fun e => e.1 ≠ padIdx)
  let (kept, _, diffs) := keepEntries et cs
  let sel := selTop et k kept
  let nan := (cs.filter (fun e => codeNaN et e.2)).length
  guardExc (selExc i [i.dst, i.s1, i.s2]) (.done (s.setCore n (putSelect c et k i.dst sel (selTies et k kept sel) nan (decide (0 < diffs)))))

/-- VT_HASH (R163). -/
def execVtHash (core : Nat) (s : State) : Host.Outcome State Fault Refusal :=
  .next (runIns s core (isOp 0x0C [0]) (some Off.fcore_INSTR_TABLE_LO) (vtHash core))

/-- VT_BUCKET (R164). -/
def execVtBucket (core : Nat) (s : State) : Host.Outcome State Fault Refusal :=
  .next (runIns s core (isOp 0x0C [1]) (some Off.fcore_INSTR_TABLE_LO) (vtBucket core))

/-- VT_LOOKUP (R165). -/
def execVtLookup (core : Nat) (s : State) : Host.Outcome State Fault Refusal :=
  .next (runIns s core (isOp 0x0C [2]) (some Off.fcore_INSTR_TABLE_LO) (vtLookup core))

/-- VT_ASSAY (R166). -/
def execVtAssay (core : Nat) (s : State) : Host.Outcome State Fault Refusal :=
  .next (runIns s core (isOp 0x0C [3]) (some Off.fcore_INSTR_TABLE_LO) (vtAssay false core))

/-- VT_ASSAY_LM (R238). -/
def execVtAssayLm (core : Nat) (s : State) : Host.Outcome State Fault Refusal :=
  .next (runIns s core (isOp 0x0C [4]) (some Off.fcore_INSTR_TABLE_LO) (vtAssay true core))

/-- SEL_TOPK (R167). -/
def execSelTopk (core : Nat) (s : State) : Host.Outcome State Fault Refusal :=
  .next (runIns s core (isOp 0x0D [0]) (some Off.fcore_INSTR_SELECT_LO) (selTopk core))

/-- SEL_MERGE (R168). -/
def execSelMerge (core : Nat) (s : State) : Host.Outcome State Fault Refusal :=
  .next (runIns s core (isOp 0x0D [1]) (some Off.fcore_INSTR_SELECT_LO) (selMerge core))

end Sys2Proof.Machine
end

