-- ==== Sys2Proof/Machine/Assayer.lean ====
section
/-! DEFINITION. The Assayer units: lookups and searches, row repair and scrubbing, loads and seeds (R228 to R249). -/

namespace Sys2Proof.Machine

/-- A row of the array and of its shadow. -/
def arrRow (s : State) (r : Nat) : AssayRow := smGet {} r s.assay.arr
def shadowRow (s : State) (r : Nat) : AssayRow := smGet {} r s.assay.shadow

/-- Write one copy of a row. -/
def setArr (s : State) (r : Nat) (x : AssayRow) : State := { s with assay := { s.assay with arr := smPut {} r x s.assay.arr } }
def setShadow (s : State) (r : Nat) (x : AssayRow) : State := { s with assay := { s.assay with shadow := smPut {} r x s.assay.shadow } }

/-- Both copies of a row are written together (R230). -/
def putAssayRow (s : State) (r : Nat) (x : AssayRow) : State :=
  let s := setShadow (setArr s r x) r x
  s.mapIo (fun io => io.count64 (bAssayer (r / 32768)) Off.assayer_LOADS_LO 1)

/-- Upsets strike rows (R242, R243). -/
def upset (s : State) (l : List AssayUpset) : State :=
  l.foldl (fun s u =>
    let r := u.unit * 32768 + u.row % 32768
    let a := arrRow s r
    let s := setArr s r { a with fp := u.fp.getD a.fp % 2 ^ 64, valid := u.valid.getD a.valid }
    if u.shadow then setShadow s r { shadowRow s r with bad := true } else s) s

/-- A row is lost: its shadow holds an uncorrectable error (R242). -/
def loseRow (s : State) (r : Nat) : State :=
  let b := bAssayer (r / 32768)
  let s := setShadow (setArr s r { arrRow s r with valid := false }) r { shadowRow s r with valid := false, bad := false }
  let s := { s with assay := { s.assay with holes := s.assay.holes ++ [r] } }
  s.mapIo (fun io => ((io.setReg (b.base + Off.assayer_LOST_ROW) (2 ^ 31 + r % 32768)).count b Off.assayer_SCRUB_LOST 1).rise b 4)

/-- ROW_REPAIR (R242): an array row that differs from its shadow is rewritten, or lost. -/
def repairRow (s : State) (r : Nat) : State :=
  let b := bAssayer (r / 32768)
  let x := shadowRow s r
  if x.bad then loseRow s r
  else if arrRow s r = x then s
  else (setArr s r x).mapIo (fun io => (io.count b Off.assayer_SCRUB_FIX 1).rise b 3)

/-- The entry of a table that lies in a row, if one does (R225). -/
def entryOf (s : State) (u k r : Nat) : Option Nat :=
  if AssayTab.gang s u k = 0 then
    let b := u * 32768 + 1024 * AssayTab.baseK s u k
    if b ≤ r ∧ r < b + AssayTab.entries s u k then some (r - b) else none
  else ((AssayTab.units s u k).zipIdx.find? (fun e => e.1 == r / 32768)).map (fun e => 32768 * e.2 + r % 32768)

/-- Candidates of a fingerprint in index order: entry and row (R234). -/
def candidates (s : State) (u k f : Nat) : List (Nat × Nat) :=
  s.assay.arr.filterMap (fun e => if e.2.valid ∧ e.2.fp = f then (entryOf s u k e.1).map (fun i => (i, e.1)) else none)

/-- Insert a candidate by priority, ties staying in index order (R234). -/
def candInsert (s : State) (e : Nat × Nat) : List (Nat × Nat) → List (Nat × Nat)
  | [] => [e]
  | x :: l => if (shadowRow s x.2).prio < (shadowRow s e.2).prio then e :: x :: l else x :: candInsert s e l

/-- What a walk over candidates has found. -/
structure Probe where
  win : Option (Nat × Nat) := none
  multi : Bool := false
  falseHits : Nat := 0
  lines : Nat := 0
  deriving DecidableEq, Repr

/-- A verification of entry `i` against a probe key: whether it matches, and the key lines read (R232, R234, Table 15.4). -/
def verify (s : State) (u k i : Nat) (key : List Byte) (long : Bool) : Bool × Nat :=
  let tier := if AssayTab.keyLocal s u k then 0 else 1
  let core := AssayTab.keyCore s u k
  let a := AssayTab.keyBase s u k + 128 * i
  let len := s.tNum core tier a 2
  let lg := bitOf (s.tNum core tier (a + 2) 1) 0
  let n := if 56 < len ∨ lg then 128 else 64
  let ok := !s.tPoison core tier a n && (tFault s tier a n false).isNone
  (ok && decide (len = key.length) && lg == long && decide (s.tBytes core tier (a + 8) key.length = key), n / 64)

/-- The walk over sorted candidates of R234. -/
def walk (s : State) (u k : Nat) (key : List Byte) (long : Bool) : List (Nat × Nat) → Probe → Probe
  | [], p => p
  | e :: l, p =>
    let stop := p.win.any (fun w => decide ((shadowRow s e.2).prio < (shadowRow s w.2).prio))
    if stop then p
    else
      let (hit, n) := verify s u k e.1 key long
      let p := { p with lines := p.lines + n }
      if hit then
        if p.win.isSome then { p with multi := true } else walk s u k key long l { p with win := some e }
      else walk s u k key long l { p with falseHits := p.falseHits + 1 }

/-- One lookup: candidates are repaired against their shadow, sorted and verified, and the counters follow (R234, R235,
R249).  It answers the winner's row, MULTI, the number of candidates and the false hits. -/
def lookup (s : State) (u k f : Nat) (key : List Byte) (long : Bool) : State × Option AssayRow × Bool × Nat × Nat :=
  let cand := candidates s u k f
  let s := cand.foldl (fun s e => let x := shadowRow s e.2; if x.bad ∨ x.fp ≠ f ∨ !x.valid then repairRow s e.2 else s) s
  let ok := cand.filter (fun e => (arrRow s e.2).valid && decide ((arrRow s e.2).fp = f))
  let p := walk s u k key long (ok.foldl (fun l e => candInsert s e l) []) {}
  let b := bAssayer u
  let s := (AssayTab.units s u k).foldl (fun s v => s.mapIo (fun io => io.count64 (bAssayer v) Off.assayer_LOOKUPS_LO 1)) s
  let s := s.mapIo (fun io =>
    let io := io.count64 b (if p.win.isSome then Off.assayer_HITS_LO else Off.assayer_MISSES_LO) 1
    let io := if p.falseHits = 0 then io else (io.count64 b Off.assayer_FALSE_HITS_LO p.falseHits).rise b 2
    let io := if p.multi then io.count64 b Off.assayer_MULTI_LO 1 else io
    if p.lines = 0 then io else io.count64 b Off.assayer_KEY_LINES_LO p.lines)
  (s, p.win.map (fun w => shadowRow s w.2), p.multi, cand.length, p.falseHits)

/-- A lane's answer reaches its core; the results are written when the last has come (R166). -/
def assayAnswer (s : State) (q : AssayReq) (payload status : Nat) (hit : Bool) (flags : Nat) : State :=
  let c := s.core q.core
  match c.assay.find? (fun w => w.serial == q.serial) with
  | none => s
  | some w =>
    let g : Nat × Nat × Nat × Bool := (q.lane, payload, status, hit)
    let w := { w with left := w.left - 1, got := w.got ++ [g], tstat := Nat.lor w.tstat flags }
    let c := { c with assay := c.assay.map (fun x => if x.serial = q.serial then w else x) }
    s.setCore q.core (if w.left = 0 then assayCommit c w else c)

/-- The status word of Table 8.4. -/
def wideWord (hit : Option AssayRow) (multi : Bool) (cands falseHits : Nat) : Nat :=
  (hit.map (fun r => r.prio)).getD 0 * 2 ^ 16 + min 255 cands * 2 ^ 8 + 4 * b2n (decide (0 < falseHits)) + 2 * b2n multi + b2n hit.isSome

/-- An exact lookup is served and answered; a lost table misses (R234, R236, R536). -/
def serveExact (s : State) (q : AssayReq) : State :=
  if AssayTab.lost s q.unit q.slot ∨ !AssayTab.valid s q.unit q.slot then assayAnswer s q 0 0 false 2
  else
    let (s, hit, multi, cands, bad) := lookup s q.unit q.slot q.word q.key q.long
    assayAnswer s q ((hit.map (fun r => r.payload)).getD 0) (wideWord hit multi cands bad) hit.isSome
      (2 * b2n hit.isNone + 4 * b2n (decide (0 < bad)))

/-- Where a longest-match search stands (R238). -/
structure LmSearch where
  lo : Nat
  hi : Nat
  cand : Nat
  jump : Bool
  best : Nat
  probes : Nat := 0
  bad : Nat := 0
  deriving DecidableEq, Repr

/-- The search of R238. -/
def lmLoop (u k : Nat) (win : List Byte) : Nat → State × LmSearch → State × LmSearch
  | 0, a => a
  | fuel + 1, (s, m) =>
    if m.lo < m.hi then
      let key := win.take m.cand
      let (s, hit, _, _, bad) := lookup s u k (Hash.smx64 key (AssayTab.seed s u k)) key false
      let m := { m with probes := m.probes + 1, bad := m.bad + bad }
      match hit with
      | some r =>
        let hi := min m.hi (bitsOf r.payload 30 25 + 1)
        lmLoop u k win fuel (s, { m with lo := m.cand, best := r.payload, hi := hi, jump := false,
                                         cand := if m.jump then hi else (m.cand + hi + 1) / 2 })
      | none =>
        let hi := m.cand - 1
        lmLoop u k win fuel (s, { m with hi := hi, jump := false, cand := (m.lo + hi + 1) / 2 })
    else (s, m)

/-- A longest-match search over a window from a starting point: the best payload, the probes and the false hits (R238). -/
def assayLm (s : State) (u k : Nat) (win : List Byte) (lo hi best : Nat) : State × LmSearch :=
  let hi := min (min hi win.length) (AssayTab.lmax s u k)
  lmLoop u k win 129 (s, { lo := lo, hi := hi, cand := if 0 < lo then hi else 1, jump := lo == 0, best := best })

/-- A search is served and answered with the result word of Table 8.6. -/
def serveLm (s : State) (q : AssayReq) : State :=
  if AssayTab.lost s q.unit q.slot ∨ !AssayTab.valid s q.unit q.slot then assayAnswer s q 0 0 false 2
  else
    let (s, m) := assayLm s q.unit q.slot q.key (bitsOf q.word 6 0) (bitsOf q.word 14 8) (q.word / 2 ^ 32)
    let len := bitsOf m.best 24 18
    assayAnswer s q (min 7 m.probes * 2 ^ 25 + m.best % 2 ^ 25) 0 (decide (len ≠ 0)) (2 * b2n (decide (len = 0)) + 4 * b2n (decide (0 < m.bad)))

/-- The oldest request of a unit is served when it is of the row's kind (R248). -/
def serveAssay (lm : Bool) (unit : Nat) (ups : List AssayUpset) (s : State) : State :=
  match assayQueue s unit with
  | [] => s
  | q :: rest =>
    if q.lm != lm then s
    else
      let s := setAssayQueue (upset s ups) unit rest
      if lm then serveLm s q else serveExact s q

/-- ASSAY_LOOKUP (R234). -/
def execAssayLookup (unit : Nat) (ups : List AssayUpset) (s : State) : Host.Outcome State Fault Refusal :=
  .next (serveAssay false unit ups s)

/-- ASSAY_LM_SEARCH (R238). -/
def execAssayLmSearch (unit : Nat) (ups : List AssayUpset) (s : State) : Host.Outcome State Fault Refusal :=
  .next (serveAssay true unit ups s)

/-- SCRUB_ROW: the next row of a unit is compared with its shadow (R241, R242). -/
def execScrubRow (unit : Nat) (ups : List AssayUpset) (s : State) : Host.Outcome State Fault Refusal :=
  let b := bAssayer unit
  let pos := s.io.bf b Off.assayer_SCRUB_POS 14 0
  let s := repairRow (upset s ups) (unit * 32768 + pos)
  .next (s.mapIo (fun io => (io.count64 b Off.assayer_SCRUB_ROWS_LO 1).setBf b Off.assayer_SCRUB_POS 14 0 ((pos + 1) % 32768)))

/-- Valid entries of a table. -/
def tableValid (s : State) (u k : Nat) : Nat :=
  (s.assay.shadow.filter (fun e => e.2.valid && (entryOf s u k e.1).isSome)).length

/-- A write of a slot's FP_SEED takes effect, or is captured while the table holds a valid entry (R249). -/
def seedWrite (s : State) (u k v : Nat) : State :=
  let off := (bAssayer u).base + Off.assayer_FP_SEED_LO + 0x40 * k
  if AssayTab.valid s u k ∧ 0 < tableValid s u k then { s with io := s.io.capture (bAssayer u) Code.TABLE_BUSY off }
  else { s with io := s.io.setReg64 off v }

/-- FP_SEED_WRITE: the access rules of R43 and R44, then R249. -/
def execFpSeedWrite (who : Requester) (unit slot : Nat) (value : W64) (s : State) : Host.Outcome State Fault Refusal :=
  match writeAllowed s.io who (bAssayer unit) ((bAssayer unit).base + Off.assayer_FP_SEED_LO + 0x40 * slot) with
  | some io => .next { s with io := io }
  | none => .next (seedWrite s unit slot value.toNat)

/-- An image of Table 8.3, or none when it may not be written (R230). -/
def assayImage (lm : Bool) (bs : List Byte) : Option AssayRow :=
  let ctrl := fieldAt bs 10 1
  let pay := fieldAt bs 12 4
  if fieldAt bs 11 1 ≠ 0 ∨ 2 ≤ ctrl ∨ (lm ∧ ctrl = 1 ∧ !bitOf pay 31) then none
  else some ⟨fieldAt bs 0 8, fieldAt bs 8 2, pay, decide (ctrl = 1), false⟩

/-- WRITE of images in ascending entry order, up to the first bad one (R230). -/
def loadImages (d : Desc) (u k first : Nat) : List Nat → State → State × Option Nat
  | [], s => (s, none)
  | j :: l, s =>
    let bs := leBytes 8 (elemCode s 0 d (d.coords (2 * j))) ++ leBytes 8 (elemCode s 0 d (d.coords (2 * j + 1)))
    match assayImage (AssayTab.lm s u k) bs with
    | none => (s, some j)
    | some x => loadImages d u k first l (putAssayRow s (AssayTab.rowOf s u k (first + j)) x)

/-- INVALIDATE of entries (Table 8.2). -/
def invalidate (s : State) (u k first n : Nat) : State :=
  (List.range n).foldl (fun s j =>
    let r := AssayTab.rowOf s u k (first + j)
    let x := shadowRow s r
    putAssayRow s r { x with valid := false, bad := false }) s

/-- CLEAR of a table: every entry is invalidated, and its lost rows are forgotten (Table 8.2, Table 8.10). -/
def clearTable (s : State) (u k : Nat) : State :=
  let s := invalidate s u k 0 (AssayTab.entries s u k)
  { s with assay := { s.assay with holes := s.assay.holes.filter (fun r => (entryOf s u k r).isNone) } }

/-- The descriptor of the images: READ, U64, rank 1, long enough, in memory (R229). -/
def imageDesc (s : State) (c : Cmd) : Option Desc :=
  match useDescDir s (c.ring - 1) (c.p 0x12 2) false with
  | .ok d => if d.etype = Num.U64 ∧ d.rank = 1 ∧ 2 * c.p 0x18 4 ≤ d.sz 0 ∧ d.tier ≠ 0 then some d else none
  | .error _ => none

/-- ASSAY_LOAD: the refusals of R229 in their order, then the operation of R230. -/
def execAssayLoad (c : Cmd) (s : State) : Host.Outcome State Fault Refusal :=
  let first := c.p 0x14 4
  let count := c.p 0x18 4
  let op := c.p 0x11 1
  let tab : Option (Nat × Nat) := match c.context s with
    | some x => assayBind s x.svc (c.p 0x10 1) x.home
    | none => none
  match tab with
  | none => .next (refuse s c Code.BAD_TABLE)
  | some (u, k) =>
    if AssayTab.lost s u k then .next (refuse s c Code.BAD_TABLE)
    else if AssayTab.entries s u k < first + count then .next (refuse s c Code.ASSAY_RANGE)
    else if 3 ≤ op then .next (refuse s c Code.BAD_ASSAY_OP)
    else if (op = 2 ∧ (first ≠ 0 ∨ count ≠ 0)) ∨ (op ≠ 0 ∧ c.p 0x12 2 ≠ 0) then .next (refuse s c Code.RSV_NONZERO)
    else if op = 1 then .next (finish (invalidate s u k first count) c Code.OK (leBytes 4 count))
    else if op = 2 then .next (finish (clearTable s u k) c Code.OK (leBytes 4 (AssayTab.entries s u k)))
    else match imageDesc s c with
      | none => .next (refuse s c Code.BAD_COLUMN)
      | some d =>
        match descFault s d 0 (2 * count) false with
        | some f => if faultWaits f then .next (s.migrFault f) else .next (refuse s c f)
        | none =>
          if tHeld s d.tier d.base then .next s
          else
            let (t, bad) := loadImages d u k first (List.range count) s
            match bad with
            | none => .next (finish t c Code.OK (leBytes 4 count))
            | some j => .next (finish t c Code.ASSAY_BAD_ENTRY (leBytes 4 j) (first + j))

end Sys2Proof.Machine
end

