-- ==== Sys2Proof/Machine/Admission.lean ====
section
/-! DEFINITION. Service images and the admission commands: R336, R352, R371, R374, R377 to R389, R546, R548. -/

namespace Sys2Proof.Machine

/-- The device's values of Table 1.6, in its order (R25). -/
def devCaps : List Nat :=
  [64, 16, 16, 4, 65536, 6, 32768, 6, 4096, 4096, 64, 65536, 4096, 5, 131072, 16384, 8192, 1024, 65536, 4096, 65536, 16384, 12, 4096]

/-- The code for a capability value above the device's (Table 1.7). -/
def capCode (i : Nat) : Nat :=
  if 14 ≤ i ∧ i ≤ 18 then Code.CALLER_SLOTS
  else if 19 ≤ i ∧ i ≤ 21 then Code.CTX_SLOTS
  else if i = 22 ∨ i = 23 then Code.LINK_BW else Code.BUFFER

/-- The first failure of a list of checks. -/
def firstFail (l : List (Bool × AdmFail)) : Option AdmFail := (l.find? (fun e => e.1)).map Prod.snd

/-- A failure that names no resource. -/
def failCode (code : Nat) : AdmFail := { code := code }

/-- The image with its CRC field taken as zero (R377). -/
def imgNoCrc (img : List Byte) : List Byte := img.take 0x20 ++ List.replicate 4 0 ++ img.drop 0x24

/-- A template field outside its range, or a reserved bit that is set (Table 13.1). -/
def tmplBad (e : Nat × Nat × List Byte) : Bool :=
  let t : Tmpl := ⟨e.2.2⟩
  let f : Nat → Nat → Nat := fieldAt e.2.2
  decide (2 ≤ e.1) || decide (16384 ≤ e.2.1) || decide (e.2.2.length ≠ 128) || t.seq == 3 || t.complete == 3 || t.kind == 3
    || t.flowMode == 3 || decide (f 1 1 / 16 ≠ 0) || decide (f 8 1 / 32 ≠ 0) || decide (f 9 1 / 4 ≠ 0) || decide (f 10 2 / 8192 ≠ 0)
    || (if t.kind = 0 then t.nin == 0 || decide (16 < t.nin) else decide (t.nin ≠ 0))
    || decide (f 0x13 1 / 2 ≠ 0) || decide (f 0x17 1 ≠ 0) || (List.range 4).any (fun i => decide (bitsOf (t.preopen i) 15 5 ≠ 0))
    || (List.range 8).any (fun p => decide (t.out p / 2 ^ 30 = 3) || decide (bitsOf (t.out p) 14 4 ≠ 0))
    || decide (f 0x48 4 / 2 ^ 22 ≠ 0) || decide (t.opndOff % 64 ≠ 0) || decide (f 0x4C 52 ≠ 0)

/-- A chain whose stage buffers have a size outside its range (R352). -/
def chainBad (c : Chain) : Bool :=
  c.stages.dropLast.any (fun g => decide (g.entries = 0) || decide (64 < g.entries) || decide (g.bytes = 0) || decide (g.bytes % 64 ≠ 0)
    || decide (1048576 < g.bytes))

/-- A table record with a reserved bit that is set (Table 9.1). -/
def tabBad (t : Tab) : Bool :=
  decide (t.bs.length ≠ 64) || decide (t.f 5 1 / 8 ≠ 0) || decide (t.f 8 8 / 2 ^ 52 ≠ 0) || decide (t.f 0x10 8 / 2 ^ 52 ≠ 0)
    || decide (t.f 0x20 8 / 2 ^ 52 ≠ 0) || decide (t.f 0x36 10 ≠ 0)

/-- The refusals of R377: the job classes of an image that has none of them. -/
def imageCheck (img : List Byte) (x : Sections) : Except AdmFail (List JobEnt) :=
  let f : Nat → Nat → Nat := fieldAt img
  let dl := decide (f 1 1 = 1)
  let njob := f 2 2
  let offs := [f 8 4, f 0xC 4, f 0x10 4]
  if f 0 1 ≠ 1 then .error (failCode Code.BAD_VERSION)
  else if img.length < 64 ∨ Hash.crc32c 0 (imgNoCrc img) ≠ f 0x20 4 ∨ 1 < f 1 1 ∨ offs.any (fun o => decide (img.length < o)) ∨ 2 < f 0x16 1
      ∨ f 0x17 1 ≠ 0 ∨ f 0x24 28 ≠ 0 ∨ (if dl then decide (njob = 0) || decide (256 < njob) else decide (njob ≠ 0) || decide (f 0x10 4 ≠ 0))
      ∨ x.tmpls.any tmplBad ∨ x.chains.any chainBad ∨ x.embeds.any (fun e => decide (255 < e.1) || tabBad ⟨e.2⟩)
      ∨ x.tableLen.any (fun t => decide (t < max 1 x.descs.length) || decide (65535 < t)) ∨ 65535 < x.descs.length
      ∨ x.descs.any (fun b => decide (b.length ≠ 128)) then .error (failCode Code.BAD_IMAGE)
  else if x.embeds.any (fun e => decide ((⟨e.2⟩ : Tab).f 0 1 ≠ 1)) then .error (failCode Code.BAD_VERSION)
  else match parseJobs img njob (f 0x10 4) with
    | some js =>
      if js.any (fun j => j.stages.any (fun g => g.ops.any (fun o => decide (o.aux ≠ 0) && decide (o.op ≠ 0) && decide (o.op < 14)
          && !(o.op == 1 || o.op == 2 || o.op == 8)))) then .error (failCode Code.BAD_IMAGE)
      else .ok js
    | none => .error (failCode Code.BAD_IMAGE)

/-- A chain against R352 and Table 13.5. -/
def chainOrder (x : Sections) (c : Chain) : Bool :=
  let kinds := c.stages.map (fun g => g.kind)
  c.stages.length = 0 || decide (6 < c.stages.length) || kinds.head? != some 1 || kinds.any (fun k => decide (k = 0) || decide (5 < k))
    || kinds.dropLast.any (fun k => k == 4 || k == 5)
    || c.stages.zipIdx.any (fun e => e.1.kind == 1 && !x.tmpls.any (fun t =>
        let m : Tmpl := ⟨t.2.2⟩
        decide (t.1 * 32768 + t.2.1 = e.1.tmpl / 32768 * 32768 + e.1.tmpl % 16384) && m.chain == c.id && m.stage == e.2))

/-- The region of device scope that holds a span of a tier, with its handle (R88, R251). -/
def wideRegion (s : State) (tier lo hi : Nat) (write : Bool) : Option Nat :=
  (s.adm.regions.find? (fun e => e.2.used && e.2.owner == 0 && e.2.wide && e.2.tier == tier && decide (e.2.base ≤ lo)
    && decide (hi ≤ e.2.base + e.2.len) && bitOf e.2.perm 0 && (!write || bitOf e.2.perm 1))).map (fun e => e.2.gen * 65536 + e.1)

/-- The first byte after a table's rows. -/
def Tab.stop (t : Tab) : Nat := t.base + (if t.rows = 0 then 0 else (t.rows - 1) * t.pitch + t.rowBytes)

/-- Element type and update mode of a table (Table 9.2). -/
def tabPair (t : Tab) : Bool :=
  if t.etype = Num.FP32 ∨ t.etype = Num.BF16 ∨ t.etype = Num.FP16 ∨ t.etype = Num.I32 ∨ t.etype = Num.U32 ∨ t.etype = Num.I64 ∨ t.etype = Num.U64 then
    decide (t.mode ≤ 3)
  else if t.etype = Num.E4M3 ∨ t.etype = Num.E5M2 ∨ t.etype = Num.MXE4M3 ∨ t.etype = Num.MXINT8 ∨ t.etype = Num.MXE2M1 then
    t.mode == 0 || t.mode == 2
  else false

/-- A table against R251 and R252: a code, or the handle of its region. -/
def tabCheck (s : State) (t : Tab) : Except Nat Nat :=
  let mx := Num.isMx t.etype
  if t.width = 0 ∨ 4096 < t.width ∨ t.pitch % 64 ≠ 0 ∨ t.pitch < t.rowBytes ∨ t.base % 64 ≠ 0 ∨ t.tier = 0 ∨ 4 < t.tier ∨ 1 < t.home
      ∨ (!t.remoteUpd && decide (t.peers ≠ 1)) ∨ t.peers = 0 ∨ (mx ∧ t.width % 32 ≠ 0) ∨ (!mx && decide (t.scaleBase ≠ 0)) then .error Code.BAD_COLUMN
  else if !tabPair t then .error Code.EGP_TYPE
  else match wideRegion s t.tier t.base (max t.stop (t.base + 1)) (t.mode ≠ 0) with
    | some h =>
      if mx ∧ (wideRegion s t.tier t.scaleBase (t.scaleBase + t.rows * (t.width / 32)) (t.mode ≠ 0)) ≠ some h then .error Code.BAD_COLUMN
      else .ok h
    | none => .error Code.BAD_COLUMN

/-- Units of an Assayer table by its TBL_CTRL, and the rows it takes of its own unit (R224). -/
def declUnits (unit ctrl : Nat) : List Nat :=
  let m := bitsOf ctrl 27 22
  if m = 0 then [unit] else ((List.range 6).filter (fun p => bitOf m p)).map (fun p => unit / 6 * 6 + p)
def declRows (ctrl range : Nat) : Nat × Nat :=
  if bitsOf ctrl 27 22 = 0 then (1024 * bitsOf range 4 0, 1024 * bitsOf range 21 16) else (0, 32768)

/-- The tables that stand: unit and slot. -/
def assayTabs (s : State) : List (Nat × Nat) :=
  (List.range 12).flatMap (fun u => ((List.range 8).filter (fun k => AssayTab.valid s u k)).map (fun k => (u, k)))

/-- An Assayer table of an image against R224, R226 and R232. -/
def assayCheck (s : State) (d : Nat × Nat × Nat × Nat × List Nat) : Option AdmFail :=
  let (id, die, unit, slot, ws) := d
  let ctrl := ws.getD 0 0
  let (lo, n) := declRows ctrl (ws.getD 1 0)
  let us := declUnits unit ctrl
  let full : AdmFail := { code := Code.BUFFER, kind := 3, inst := die }
  let ganged := decide (bitsOf ctrl 27 22 ≠ 0)
  firstFail
    [(decide (255 < id) || decide (12 ≤ unit) || decide (8 ≤ slot) || decide (ws.length ≠ 6) || decide (n = 0) || decide (32768 < lo + n)
        || (ganged && (decide (us.length < 2) || us.head? != some unit)) || decide (bitsOf ctrl 7 0 ≠ 0)
        || (bitOf ctrl 30 && (decide (bitsOf ctrl 21 15 = 0) || decide (64 < bitsOf ctrl 21 15))) || (!bitOf ctrl 30 && decide (bitsOf ctrl 21 15 ≠ 0))
        || (bitOf ctrl 28 && decide (bitsOf ctrl 14 8 / 8 ≠ unit)), failCode Code.BAD_IMAGE),
     (decide (unit / 6 ≠ die), full),
     (bitOf ctrl 28 && decide (8192 < us.length * n), full),
     (AssayTab.valid s unit slot, full),
     ((assayTabs s).any (fun t => (AssayTab.units s t.1 t.2).any (fun u => us.contains u) && (ganged || decide (AssayTab.gang s t.1 t.2 ≠ 0)
        || (decide (lo < 1024 * AssayTab.baseK s t.1 t.2 + AssayTab.entries s t.1 t.2) && decide (1024 * AssayTab.baseK s t.1 t.2 < lo + n)))), full)]

/-- An expert stage against Table 11.3 and R307. -/
def expertBad (x : Sections) (e : ExpertStage) : Bool :=
  let r := decide (e.setFirst ≠ 0xFF)
  let sets := if r ∧ e.perSet ≠ 0 then (List.range (cdiv e.experts e.perSet)).map (fun i => e.setFirst + i) else []
  decide (1 < e.die) || decide (0xFFFFFFFE < e.base + e.experts) || decide (e.experts = 0) || decide (1024 < e.experts) || decide (e.gatherN = 0)
    || decide (64 < e.gatherN) || decide (e.delay = 0) || decide (0xFFFFFF < e.delay) || decide (16384 ≤ e.entry) || decide (16384 ≤ e.retTmpl % 32768)
    || decide (15 < e.retPort) || decide (7 < e.pri)
    || (if r then decide (3 < e.setFirst) || decide (e.perSet = 0) || decide (e.experts < e.perSet) || decide (e.roundMin = 0) || decide (48 < e.roundMin)
          || decide (e.roundWait = 0) || decide (0xFFFFFF < e.roundWait) || decide (16384 ≤ e.fwdEntry)
        else decide (e.perSet ≠ 0) || decide (e.roundMin ≠ 0) || decide (e.roundWait ≠ 0) || decide (e.fwdEntry ≠ 0))
    || sets.any (fun k => !x.sets.any (fun q => q.die == e.die && q.set == k))

/-- Groups that tables bind for updates of other devices. -/
def peerGroups (s : State) (x : Sections) : List Nat :=
  let mine := x.embeds.map (fun e => (⟨e.2⟩ : Tab))
  let old := s.egp.dir.map (fun e => (⟨e.2⟩ : Tab))
  ((old ++ mine).filter (fun t => decide (1 < t.peers))).map (fun t => t.group)

/-- The structural checks of the other chapters (R387 step 2); their order among themselves is the model's (DESIGN
CHOICE, log entry 49). -/
def structCheck (s : State) (dl : Bool) (x : Sections) : Except AdmFail (List Nat) :=
  let n : Namer := ⟨2 ^ 32, 0⟩
  let caps := x.caps.findSome? (fun e => if devCaps.getD e.1 0 < e.2 then some (capCode e.1) else none)
  let feats := x.features ++ (if x.sets.isEmpty then [] else [8]) ++ (if dl then [4] else [])
  let descs := x.descs.findSome? (fun b => (checkDesc s n b).map Prod.fst)
  let tabs := x.embeds.map (fun e => tabCheck s ⟨e.2⟩)
  let tabErr := tabs.findSome? (fun r => match r with
    | .error e => some e
    | .ok _ => none)
  let full : Nat → AdmFail := fun die => { code := Code.BUFFER, kind := 3, inst := die }
  let chainBuf := x.chains.find? (fun c => (c.stages.dropLast.zip c.bufs).any (fun e => decide (0x400000 < e.2 + e.1.entries * e.1.bytes))
    || decide (c.bufs.length + 1 < c.stages.length))
  let gs := peerGroups s x
  let fail := (feats.findSome? (fun f => if feature s.io f then none else some (failCode Code.FEATURE_OFF)))
    |>.or (caps.map failCode)
    |>.or (if x.chains.any (chainOrder x) then some (failCode Code.BAD_CHAIN) else none)
    |>.or (chainBuf.map (fun c => full ((c.stages.head?.map (fun g => g.tmpl / 32768)).getD 0)))
    |>.or (descs.map failCode)
    |>.or (tabErr.map failCode)
    |>.or (if x.embeds.foldl (fun a e => a + (⟨e.2⟩ : Tab).replRows * (⟨e.2⟩ : Tab).pitch) 0 ≤ x.replica then none else some (full 0))
    |>.or (if 1024 < s.egp.dir.length + x.embeds.length then some (full 0) else none)
    |>.or (if gs.eraseDups.length < gs.length then some (failCode Code.FAB_GROUP_BAD) else none)
    |>.or (x.assays.findSome? (assayCheck s))
    |>.or ((x.groups.find? (fun g => s.merge.groups.any (fun h => h.die == g.die && h.group == g.group))).map (fun g => full g.die))
    |>.or (if x.experts.any (expertBad x) then some (failCode Code.EXPERT_DECL) else none)
    |>.or ((x.mcasts.find? (fun g => s.fetch.mcasts.any (fun h => h.die == g.die && h.group == g.group))).map (fun g => full g.die))
    |>.or (if x.sets.any (fun q => decide (3 < q.set)) then some (failCode Code.BAD_IMAGE) else none)
    |>.or ((x.sets.find? (fun q => s.fetch.sets.any (fun h => h.die == q.die && h.set == q.set))).map (fun q => full q.die))
    |>.or ((x.carries.find? (fun e => decide (0x400000 < e.2.2.1 + e.2.2.2)
        || (decide ((seqOf s e.1 e.2.1).carryLen ≠ 0) && decide ((seqOf s e.1 e.2.1).carryLen < e.2.2.2)))).map (fun e => full (dieOfCore e.1)))
  match fail with
  | some f => .error f
  | none => .ok (tabs.filterMap (fun r => match r with
      | .ok h => some h
      | .error _ => none))

/-- Insert a template by number and die. -/
def insertTmpl (t : Nat × Nat × List Byte) : List (Nat × Nat × List Byte) → List (Nat × Nat × List Byte)
  | [] => [t]
  | u :: l => if t.2.1 * 2 + t.1 ≤ u.2.1 * 2 + u.1 then t :: u :: l else u :: insertTmpl t l

/-- Every stage of an image with its POSITION (Table 14.8). -/
def positions (js : List JobEnt) : List (Nat × JobEnt × StageEnt) :=
  js.zipIdx.flatMap (fun e => e.1.stages.zipIdx.map (fun g => (e.2 * 256 + g.2, e.1, g.1)))

/-- The UNBOUNDED checks (R193, R253, R322, R336, R383, R387). -/
def unboundedCheck (dl : Bool) (x : Sections) (js : List JobEnt) : Option AdmFail :=
  let un : Nat → AdmFail := fun p => { code := Code.UNBOUNDED, pos := p }
  let ts := x.tmpls.foldl (fun l t => insertTmpl t l) []
  ((ts.find? (fun e =>
      let t : Tmpl := ⟨e.2.2⟩
      t.deadline && (t.budget == 0 || (decide (1 < t.nin) && t.timeout == 0)))).map (fun _ => un 0))
    |>.or ((positions js).findSome? (fun e =>
      let beyond := (stageTmpl x.tmpls e.2.2).any (fun t => decide (t.budget * 1024 < e.2.2.ops.foldl (fun a o => a + opCost o) 0))
      if e.2.2.ops.any (fun o => dataDep o.op && o.bound == 0) || beyond then some (un e.1) else none))
    |>.or (if dl && (x.embeds.any (fun e => decide ((⟨e.2⟩ : Tab).mode ≠ 0) && (⟨e.2⟩ : Tab).updCap == 0)
        || x.seqs.any (fun q => q.1.all (fun m => decide (m < q.2)))) then some (un 0) else none)

/-- The DEADLINE_DECL checks of R378; a stage whose template has DEADLINE 0 is one of them (DEDUCED, log entry 50). -/
def declCheck (x : Sections) (js : List JobEnt) : Option AdmFail :=
  let bad : Nat → AdmFail := fun p => { code := Code.DEADLINE_DECL, pos := p }
  js.zipIdx.findSome? (fun e =>
    let j := e.1
    if j.period < 10 ∨ 2 ^ 31 < j.period ∨ j.burst = 0 ∨ 4096 < j.burst ∨ j.stages.foldl (fun a g => a + g.subdl) 0 ≠ j.deadline then some (bad (e.2 * 256))
    else j.stages.zipIdx.findSome? (fun g =>
      let t := stageTmpl x.tmpls g.1
      if t.all (fun t => decide (t.pri ≠ 0) || !t.deadline) || (decide (g.1.cluster ≠ 0xFF) && decide (g.1.cluster / 6 ≠ g.1.die))
          || g.1.ops.any (fun o => o.op == 0 || decide (13 < o.op)) || g.1.traf.any (fun r => !bandInst r.kind r.inst || (r.dir == 1 && decide (r.kind ≠ 7)))
      then some (bad (e.2 * 256 + g.2)) else none))

/-- Units of a count resource that admitted services hold. -/
def heldUnits (s : State) (tag inst : Nat) : Nat :=
  s.adm.services.foldl (fun a e => e.2.held.foldl (fun a h => if h.1 = tag ∧ h.2.1 = inst then a + h.2.2 else a) a) 0

/-- Bytes of the stage buffers of chains that begin on a die. -/
def chainBytes (x : Sections) (die : Nat) : Nat :=
  (x.chains.filter (fun c => (c.stages.head?.map (fun g => g.tmpl / 32768)) == some die)).foldl
    (fun a c => c.stages.dropLast.foldl (fun a g => a + g.entries * g.bytes) a) 0

/-- The count resources that an image holds, in test order (R253, R291, R339, R352, R374, R381): tag, instance, units and
size.  The tag's low digit is the kind; the resources of kind 3 are told apart by it (DESIGN CHOICE, log entry 51). -/
def needs (dl : Bool) (img : List Byte) (x : Sections) : List (Nat × Nat × Nat × Nat) :=
  let on : Nat → List Tmpl := fun d => (x.tmpls.filter (fun e => e.1 == d)).map (fun e => ⟨e.2.2⟩)
  let ctx := if dl then [(0x01, 0, fieldAt img 0x14 2, 4096)] else []
  let caller := (List.range 2).flatMap (fun d =>
    [(0x02, d, fieldAt img (0x18 + 4 * d) 4, 131072), (0x12, d, (on d).length, 16384),
     (0x22, d, (((on d).filter (fun t => t.flowMode == 1)).map (fun t => t.flow)).eraseDups.length, 8192)])
  let shards : Nat → Nat := fun d => (x.sets.filter (fun q => q.die == d)).foldl (fun a q => a + q.tiles * q.bytes) 0
  let sram := (List.range 96).map (fun n => (0x03, n, chainBytes x (n / 48) + shards (n / 48)
    + (x.carries.filter (fun e => e.1 == n)).foldl (fun a e => a + e.2.2.2) 0, 0x400000))
  let code := (List.range 2).map (fun d => (0x13, d, if (on d).isEmpty then 0 else x.code.length, 131072))
  let quota := x.embeds.foldl (fun a e => a + (⟨e.2⟩ : Tab).quota) 0
  let hot := (List.range 12).map (fun c => (0x23, c, quota, 128))
  let tree := (List.range 2).map (fun d => (0x33, d, (x.groups.filter (fun g => g.die == d)).foldl
    (fun a g => a + 16 * (g.members + b2n g.remote) * g.k) 0, 2097152))
  let area := (List.range 2).map (fun d => (0x43, d, shards d, 1048576))
  (ctx ++ caller ++ sram ++ code ++ hot ++ tree ++ area).filter (fun e => decide (e.2.2.1 ≠ 0) || (e.1 == 0x02 && !(on e.2.1).isEmpty))

/-- The count tests (R381), and the entries of the resources held; slot 0 counts beside the reserved ones (R374). -/
def testCounts (s : State) (x : Sections) : List (Nat × Nat × Nat × Nat) → Except AdmFail (List ResEnt)
  | [] => .ok []
  | (tag, inst, n, size) :: l =>
    let total := heldUnits s tag inst + n + b2n (tag == 0x01)
    let clash := tag == 0x12 && x.tmpls.any (fun e => e.1 == inst && (smFind e.2.1 (s.caller inst).tmpls).isSome)
    if clash ∨ size < total then
      .error { code := kindCode (tag % 16), kind := tag % 16, inst := inst, g := 1, lhs := if clash then 0 else total, rhs := if clash then 0 else size }
    else match testCounts s x l with
      | .error f => .error f
      | .ok es => .ok (if tag = 0x12 ∨ tag = 0x22 then es else ⟨tag % 16, 1, inst, 1000000 * total / size, n, 0⟩ :: es)

/-- A lowest offset, a multiple of 64, at which a range of `n` bytes is free on every core of the dies (R148, DESIGN
CHOICE, log entry 52). -/
def codeBase (s : State) (dies : List Nat) (n : Nat) : Option Nat :=
  let rs := (s.adm.services.flatMap (fun e => e.2.code)).filter (fun r => dies.contains (dieOfCore r.1))
  let fits : Nat → Bool := fun b => decide (b + n ≤ 131072) && rs.all (fun r => decide (b + n ≤ r.2.1) || decide (r.2.1 + r.2.2 ≤ b))
  ((0 :: rs.map (fun r => cdiv (r.2.1 + r.2.2) 64 * 64)).filter fits).min?

/-- What a service that passes is installed with. -/
structure Plan where
  svc : Service
  ents : List ResEnt
  base : Nat
  deriving DecidableEq, Repr

/-- The test of an image (R387): the plan, or the first failure. -/
def admTest (s : State) (img : List Byte) (x : Sections) : Except AdmFail Plan := do
  let js ← imageCheck img x
  let dl := decide (fieldAt img 1 1 = 1)
  let handles ← structCheck s dl x
  match (unboundedCheck dl x js).or (if dl then declCheck x js else none) with
  | some f => .error f
  | none =>
    if 4096 ≤ s.adm.services.length then .error (failCode Code.SVC_FULL)
    else
      let counts ← testCounts s x (needs dl img x)
      let dies := (List.range 2).filter (fun d => x.tmpls.any (fun e => e.1 == d))
      let base ← match codeBase s dies x.code.length with
        | some b => .ok b
        | none => .error { code := Code.BUFFER, kind := 3, inst := dies.headD 0, g := 1 }
      let units := (x.assays.flatMap (fun a => declUnits a.2.2.1 (a.2.2.2.2.getD 0 0))).eraseDups
      let w : ImgWork := { jobs := js, tmpls := x.tmpls, units := units, experts := x.experts, maxCtx := fieldAt img 0x14 2,
                           tick := fun d => max 1 (s.io.bf (bCaller d) Off.caller_TICK_CFG 19 0) }
      let sets : Nat → Bool := fun d => setsOn s d || x.sets.any (fun q => q.die == d)
      let others := chargesOf s none
      let test : List Charge → Bool := fun cs => (testRes s others cs sets (resources cs)).toOption.isSome
      let mine := imageCharges w js (placement w test)
      let held := (x.sets.map (fun q => q.die)).findSome? (fun d => ((List.range 6).map (fun i => 6 * d + i)).find? (fun c => decide (smGet 0 c s.adm.guard ≠ 0)))
      match held with
      | some c => .error { code := Code.CORE_TIME, kind := 4, inst := c, ceil := ceilOf s 4, g := smGet 0 c s.adm.guard }
      | none =>
        let timed ← testRes s others mine sets (resources mine)
        let num := issueNumber 1 65535 (fun i => (smFind i s.adm.services).isSome) (s.adm.services.length + 1) s.adm.nextSvc
        let jobs : List JobClass := js.map (fun j =>
          let ends := j.stages.foldl (fun (a : List (Nat × Nat) × Nat) g => (a.1 ++ [(g.die * 16384 + g.tmpl, a.2 + g.subdl)], a.2 + g.subdl)) ([], 0)
          { id := j.id, period := j.period, burst := j.burst, source := j.source, stages := ends.1 })
        let code := if x.code.isEmpty then [] else ((List.range 96).filter (fun n => dies.contains (dieOfCore n))).map (fun n => (n, base, x.code.length))
        let svc : Service :=
          { num := num, deadline := dl, home := fieldAt img 0x16 1, maxCtx := fieldAt img 0x14 2, quota0 := fieldAt img 0x18 4,
            quota1 := fieldAt img 0x1C 4, tmpls := x.tmpls.map (fun e => e.1 * 16384 + e.2.1), jobs := jobs, descs := x.descs.map parseDesc,
            tableLen := x.tableLen.getD (max 1 x.descs.length), chains := x.chains.map (fun c => { c with svc := num }), code := code,
            handles := handles, charges := mine, held := (needs dl img x).map (fun e => (e.1, e.2.1, e.2.2.1)),
            carries := x.carries.map (fun e => (e.1, e.2.1)) }
        .ok { svc := svc, ents := counts ++ timed, base := base }

/-- The bytes of a reservation record (Tables 14.8, 14.9). -/
def admRecord (outcome svc ticks crc : Nat) (f : AdmFail) (es : List ResEnt) : List Byte :=
  [1, BitVec.ofNat 8 outcome] ++ leBytes 2 f.code ++ leBytes 2 svc ++ leBytes 2 es.length ++ leBytes 1 f.kind ++ leBytes 1 f.ceil
    ++ leBytes 2 f.inst ++ leBytes 2 f.g ++ leBytes 2 f.pos ++ leBytes 8 f.t ++ leBytes 8 f.lhs ++ leBytes 8 f.rhs ++ leBytes 4 ticks
    ++ leBytes 4 crc ++ List.replicate 16 0
    ++ es.flatMap (fun e => leBytes 1 e.kind ++ leBytes 1 e.g ++ leBytes 2 e.inst ++ leBytes 4 e.util ++ leBytes 4 e.held ++ leBytes 4 e.slack)

/-- Array rows of an Assayer table are cleared, in both copies. -/
def clearRows (s : State) (us : List Nat) (lo n : Nat) : State :=
  us.foldl (fun (s : State) u =>
    let a := smClear (u * 32768 + lo) (u * 32768 + lo + n) s.assay.arr
    let b := smClear (u * 32768 + lo) (u * 32768 + lo + n) s.assay.shadow
    { s with assay := { s.assay with arr := a, shadow := b } }) s

/-- An Assayer table of an image enters its slot and the service's bindings (R224, R226). -/
def installAssay (svc : Nat) (s : State) (d : Nat × Nat × Nat × Nat × List Nat) : State :=
  let (id, _, u, k, ws) := d
  let o := (bAssayer u).base + 0x40 * k
  let (lo, n) := declRows (ws.getD 0 0) (ws.getD 1 0)
  let s := clearRows s (declUnits u (ws.getD 0 0)) lo n
  let s := s.mapIo (fun io => [Off.assayer_TBL_RANGE, Off.assayer_FP_SEED_LO, Off.assayer_FP_SEED_HI, Off.assayer_KEY_BASE_LO,
    Off.assayer_KEY_BASE_HI].zipIdx.foldl (fun io e => io.setReg (o + e.1) (ws.getD (e.2 + 1) 0)) (io.setReg (o + Off.assayer_TBL_CTRL) (putBits (ws.getD 0 0) 31 31 1)))
  { s with assay := { s.assay with binds := s.assay.binds ++ [(svc, id, u, k)] } }

/-- An embedding table of an image enters the lowest free directory record, READY, and the service's bindings (R250). -/
def installTab (svc : Nat) (s : State) (e : Nat × List Byte) : State :=
  let i := leastFree (fun k => (smFind k s.egp.dir).isSome) (s.egp.dir.length + 1) 0
  let bs := e.2.take 1 ++ [1] ++ e.2.drop 2
  { s with egp := { s.egp with dir := smInsert i bs s.egp.dir, owner := smInsert i svc s.egp.owner, binds := s.egp.binds ++ [(svc, e.1, i)] } }

/-- A resident set is designated: its copy is kept, and its home shards are written (R122, R537). -/
def installSet (svc : Nat) (shards : List (Nat × Nat × Nat × List Byte)) (s : State) (q : ResSet) : State :=
  let mine := shards.filter (fun e => e.1 == q.die && e.2.1 == q.set)
  let copy := mine.foldl (fun m e => putCells m (e.2.2.1 * 2 ^ 22) e.2.2.2) []
  let gone := (List.range 48).filter (fun p => s.io.isOffline (bCore (48 * q.die + p)))
  let s := mine.foldl (fun s e => let n := 48 * q.die + e.2.2.1; s.setCore n ((s.core n).unitWrite q.base e.2.2.2 false)) s
  let q : ResSet := { q with svc := svc, copy := copy, proxy := gone }
  { s with fetch := { s.fetch with sets := s.fetch.sets ++ [q] } }

/-- A service that has passed is installed (R148, R250, R320, R336, R371). -/
def install (s : State) (p : Plan) (x : Sections) : State :=
  let n := p.svc.num
  let g := (guardsOf p.ents).foldl (fun m e => smInsert e.1 e.2 m) s.adm.guard
  let s := { s with adm := { s.adm with services := smInsert n p.svc s.adm.services, nextSvc := n + 1, guard := g } }
  let s := x.tmpls.foldl (fun s e => s.mapCaller e.1 (fun c =>
    { c with tmpls := smInsert e.2.1 (e.2.2.take 2 ++ leBytes 2 n ++ e.2.2.drop 4) c.tmpls })) s
  let s := p.svc.code.foldl (fun s e => s.setCore e.1 { s.core e.1 with imem := putCells (s.core e.1).imem p.base x.code }) s
  let s := x.embeds.foldl (installTab n) s
  let s := x.assays.foldl (installAssay n) s
  let s := x.sets.foldl (installSet n x.shards) s
  let s := x.carries.foldl (fun s e =>
    let q := seqOf s e.1 e.2.1
    if q.carryLen = 0 then setSeq s e.1 e.2.1 { q with carry := e.2.2.1, carryLen := e.2.2.2 } else s) s
  let experts : List ExpertStage := x.experts.map (fun e => { e with svc := n })
  let groups : List MergeGroup := x.groups.map (fun g => { g with svc := n })
  let mcasts : List McastDecl := x.mcasts.map (fun g => { g with svc := n })
  { s with
    expert := { s.expert with stages := s.expert.stages ++ experts }
    merge := { s.merge with groups := s.merge.groups ++ groups }
    fetch := { s.fetch with mcasts := s.fetch.mcasts ++ mcasts } }

/-- An SVC_ADMIT is refused: counted and signalled (R394). -/
def admRefused (s : State) (adopt : Bool) : State :=
  if adopt then s.mapIo (fun io => (io.count bAdmit Off.admit_REFUSED_CT 1).rise bAdmit 2) else s

/-- What comes of reading a service image: a fault of the read, a check that fails, a wait for a page, or the image. -/
inductive ImgAns
  | fault (code : Nat)
  | bad (code : Nat)
  | wait (len : Nat)
  | image (bs : List Byte)
  deriving DecidableEq, Repr

/-- The read of a service image (R379, R546).  A range past the region's end, or a region without READ, is a check whose code
goes into the record (DEDUCED, log entry 81). -/
def imageRead (s : State) (n : Namer) (h off : Nat) : ImgAns :=
  let failed : Nat → ImgAns := fun e => if e = Code.EXTENT_RANGE ∨ e = Code.REGION_PERM then .bad e else .fault e
  match regionRead s n h off 64 with
  | .error e => failed e
  | .ok none => .wait 64
  | .ok (some hd) =>
    let len := max 64 (fieldAt hd 4 4)
    match regionRead s n h off len with
    | .error e => failed e
    | .ok none => .wait len
    | .ok (some img) => .image img

/-- The test is over: the record is written, and the service is installed where it passed (R379, R388, R546). -/
def svcEnd (s : State) (adopt : Bool) (c : Cmd) (x : Sections) (ticks crc : Nat) (r : Region) (res : Except AdmFail Plan) : State :=
  let rec_ := c.p 0x20 8
  let (outcome, f, es, svc) : Nat × AdmFail × List ResEnt × Nat := match res with
    | .error f => (if adopt then 1 else 3, f, [], 0)
    | .ok p => (if adopt then 0 else 2, failCode Code.OK, p.ents, if adopt then p.svc.num else 0)
  let bs := admRecord outcome svc ticks crc f es
  match tFault s r.tier (r.base + rec_) bs.length true with
  | some (e, a) =>
    if e = Code.HOST_NOT_PRESENT then requestPage s (a / 4096)
    else if e = Code.MIGRATING then s.migrFault e else refuse s c e
  | none =>
    let s := s.tWrite 0 r.tier (r.base + rec_) bs
    let s := s.mapIo (fun io => io.setReg (bAdmit.base + Off.admit_LAST_TICKS) ticks)
    let res16 := leBytes 2 svc ++ leBytes 1 outcome
    if !adopt then finish (s.mapIo (fun io => io.count bAdmit Off.admit_QUERIES 1)) c Code.OK res16
    else match res with
      | .error f => finish (admRefused s true) c f.code res16
      | .ok p => finish ((install s p x).mapIo (fun io => io.count bAdmit Off.admit_ADMITTED 1)) c Code.OK res16

/-- SVC_ADMIT and SVC_QUERY (R379, R380, R388, R546).  `ticks` is how long the test took. -/
def svcRun (adopt : Bool) (c : Cmd) (x : Sections) (ticks : Nat) (s : State) : State :=
  let h := c.p 0x10 4
  let off := c.p 0x18 8
  let rec_ := c.p 0x20 8
  let n : Namer := ⟨c.ring, c.issuerSvc s⟩
  if !s.io.enabled bAdmit then s
  else match regionOf s h with
    | none => refuse (admRefused s adopt) c Code.BAD_REGION
    | some r =>
      if rec_ % 64 ≠ 0 then refuse (admRefused s adopt) c Code.BAD_ALIGN
      else if !scopeOk r n then refuse (admRefused s adopt) c Code.REGION_PERM
      else if !bitOf r.perm 1 ∨ r.len < rec_ + 64 + 16384 then refuse (admRefused s adopt) c Code.EXTENT_RANGE
      else match imageRead s n h off with
        | .fault e => refuse s c e
        | .wait len => askPages s h off len
        | .bad e => svcEnd s adopt c x ticks 0 r (.error (failCode e))
        | .image img =>
          let short := decide (fieldAt img 4 4 < 64)
          svcEnd s adopt c x ticks (fieldAt img 0x20 4) r
            (if short ∧ fieldAt img 0 1 = 1 then .error (failCode Code.BAD_IMAGE) else admTest s img x)

/-- SVC_ADMIT (R379). -/
def execSvcAdmit (c : Cmd) (secs : Sections) (ticks : Nat) (s : State) : Host.Outcome State Fault Refusal := .next (svcRun true c secs ticks s)

/-- SVC_QUERY (R379, R389). -/
def execSvcQuery (c : Cmd) (secs : Sections) (ticks : Nat) (s : State) : Host.Outcome State Fault Refusal := .next (svcRun false c secs ticks s)

/-- What a service holds is freed, in the order of R79 and then its reservations (R379). -/
def removeService (s : State) (v : Service) : State :=
  let n := v.num
  let s := s.mapCaller 0 (fun c => { c with tmpls := c.tmpls.filter (fun e => !v.tmpls.contains e.1) })
  let s := s.mapCaller 1 (fun c => { c with tmpls := c.tmpls.filter (fun e => !v.tmpls.contains (16384 + e.1)) })
  let dirs := (s.egp.owner.filter (fun e => e.2 == n)).map Prod.fst
  let g : EgpSt := s.egp
  let g : EgpSt :=
    { g with
      dir := g.dir.filter (fun e => !dirs.contains e.1)
      owner := g.owner.filter (fun e => e.2 != n)
      binds := g.binds.filter (fun b => b.1 != n)
      log := g.log.filter (fun e => !dirs.contains e.1)
      marks := g.marks.filter (fun e => !dirs.contains e.1)
      heat := g.heat.map (fun e => (e.1, e.2.filter (fun k => !dirs.contains (k.1 / 2 ^ 52))))
      hot := g.hot.filter (fun r => !dirs.contains r.table)
      warm := g.warm.filter (fun r => !dirs.contains r.table)
      lost := g.lost.filter (fun e => !dirs.contains e.2.1) }
  let s := { s with egp := g }
  let tabs := ((s.assay.binds.filter (fun b => b.1 == n)).map (fun b => (b.2.2.1, b.2.2.2))).eraseDups
  let s := tabs.foldl (fun s t =>
    let s := clearRows s (AssayTab.units s t.1 t.2) (if AssayTab.gang s t.1 t.2 = 0 then 1024 * AssayTab.baseK s t.1 t.2 else 0)
      (if AssayTab.gang s t.1 t.2 = 0 then AssayTab.entries s t.1 t.2 else 32768)
    s.mapIo (fun io => (List.range 6).foldl (fun io i => io.setReg ((bAssayer t.1).base + 0x100 + 0x40 * t.2 + 4 * i) 0) io)) s
  let s := { s with assay := { s.assay with binds := s.assay.binds.filter (fun b => b.1 != n), lost := s.assay.lost.filter (fun t => !tabs.contains t) } }
  let merge := s.merge.groups.filter (fun g => g.svc != n)
  let stages := s.expert.stages.filter (fun e => e.svc != n)
  let mcasts := s.fetch.mcasts.filter (fun g => g.svc != n)
  let sets := s.fetch.sets.filter (fun q => q.svc != n)
  let groups := s.fab.groups.filter (fun e => e.2.svc != n)
  let s := { s with merge := { s.merge with groups := merge }, expert := { s.expert with stages := stages } }
  let s := { s with fetch := { s.fetch with mcasts := mcasts, sets := sets }, fab := { s.fab with groups := groups } }
  let s := v.carries.foldl (fun s e => setSeq s e.1 e.2 { seqOf s e.1 e.2 with carry := 0, carryLen := 0 }) s
  let s := { s with adm := { s.adm with services := smErase n s.adm.services } }
  let rs := (s.adm.regions.filter (fun e => e.2.used && e.2.owner != 0 && e.2.wide && e.2.svc == n)).map Prod.fst
  reguard (rs.foldl freeRegion s)

/-- SVC_REMOVE: NO_SERVICE (DEDUCED, log entry 53), SVC_BUSY while it holds a context, or it is freed (R379). -/
def execSvcRemove (c : Cmd) (s : State) : Host.Outcome State Fault Refusal :=
  if !s.io.enabled bAdmit then .next s
  else match s.service? (c.p 0x10 2) with
    | none => .next (refuse s c Code.NO_SERVICE)
    | some v =>
      if !(ctxsOf s v.num).isEmpty then .next (refuse s c Code.SVC_BUSY)
      else .next (finish (removeService s v) c Code.OK)

end Sys2Proof.Machine
end

