-- ==== Sys2Proof/Machine/MatrixInstr.lean ====
section
/-! DEFINITION. Matrix instructions and the matrix unit: R169 to R172, R297 to R306. -/

namespace Sys2Proof.Machine

open Sys2Proof.Num (FVal FFlags width isMx)

/-- MX types of 4 and 6 bits. -/
def mxSmall (et : Nat) : Bool := et == Num.MXE3M2 || et == Num.MXE2M3 || et == Num.MXE2M1

/-- Group size and twice the dense K per cycle of an operand pair; none for a pair not in Table 6.10. -/
def mmaPair (a w : Nat) : Option (Nat × Nat) :=
  let fp8 : Nat → Bool := fun t => t == Num.E4M3 || t == Num.E5M2
  if fp8 a ∧ fp8 w then some (32, 2)
  else if isMx a ∧ isMx w then
    (if mxSmall a then (if mxSmall w then some (32, 4) else none) else some (32, 2))
  else if (a = Num.BF16 ∧ w = Num.BF16) ∨ (a = Num.FP16 ∧ w = Num.FP16) then some (16, 1)
  else none

namespace Mma

/-- Element width of a plane's type, the group size and twice the K per cycle. -/
def g (m : Mma) : Nat := ((mmaPair m.aType m.wType).map Prod.fst).getD 32
def rate (m : Mma) : Nat := ((mmaPair m.aType m.wType).map Prod.snd).getD 2
def ab (m : Mma) : Nat := width m.aType
def wb (m : Mma) : Nat := width m.wType
/-- Activation row pitch and bytes (R299). -/
def ap (m : Mma) : Nat := m.k * m.ab / 8
def aBytes (m : Mma) : Nat := 64 * m.ap + (if isMx m.aType then 64 * (m.k / 32) else 0)
/-- Column pitches of the weight planes (Table 11.2). -/
def vp (m : Mma) : Nat := m.k * m.wb / (8 * 2 ^ m.form)
def mp (m : Mma) : Nat := if m.form = 1 then m.k / 8 else if m.form = 2 then m.k / 16 else 0
def sp (m : Mma) : Nat := if isMx m.wType then m.k / 32 else 0
/-- Block-sparse records (R303). -/
def blocks (m : Mma) : Nat := cdiv m.k 32
def recBytes (m : Mma) : Nat := 128 * m.wb + (if isMx m.wType then 32 else 0)
def present (m : Mma) (c : CoreSt) (q : Nat) : Bool := bitOf (c.num (m.wOff + q / 8) 1) (q % 8)
def rank (m : Mma) (c : CoreSt) (q : Nat) : Nat := ((List.range q).filter (m.present c)).length
def wBytes (m : Mma) (c : CoreSt) : Nat := if m.form = 3 then 64 + m.rank c m.blocks * m.recBytes else 32 * (m.vp + m.mp + m.sp)

/-- `w` bits at bit `b` past an SRAM offset. -/
def bits (c : CoreSt) (a b w : Nat) : Nat := bitsOf (c.num (a + b / 8) ((b % 8 + w + 7) / 8)) (b % 8 + w - 1) (b % 8)

/-- The value of an element code, block scales apart. -/
def val (et code : Nat) : FVal := if isMx et then Num.mxValue et 127 code else Num.value et code

/-- Activation element and scale byte (R299). -/
def act (m : Mma) (c : CoreSt) (i k : Nat) : FVal := val m.aType (bits c (m.aOff + i * m.ap) (k * m.ab) m.ab)
def actScale (m : Mma) (c : CoreSt) (i q : Nat) : Nat :=
  if isMx m.aType then c.num (m.aOff + 64 * m.ap + i * (m.k / 32) + q) 1 else 127

/-- The scale byte of a column in group `q` (R300, R303). -/
def wScale (m : Mma) (c : CoreSt) (q j : Nat) : Nat :=
  if !isMx m.wType then 127
  else if m.form = 3 then c.num (m.wOff + 64 + m.rank c q * m.recBytes + 128 * m.wb + j) 1
  else c.num (m.wOff + 32 * (m.vp + m.mp) + j * m.sp + q) 1

/-- A stored weight value of a column by its place in the values plane (R300). -/
def wVal (m : Mma) (c : CoreSt) (j x : Nat) : FVal := val m.wType (bits c (m.wOff + j * m.vp) (x * m.wb) m.wb)

/-- The (k, weight) pairs that the weight tile names in group `q` of column `j` (R301 to R303). -/
def wTerms (m : Mma) (c : CoreSt) (q j : Nat) : List (Nat × FVal) :=
  let g := m.g
  let meta_ := m.wOff + 32 * m.vp + j * m.mp
  match m.form with
  | 0 => (List.range g).map (fun k => (q * g + k, m.wVal c j (q * g + k)))
  | 1 => (List.range (g / 4)).flatMap (fun f =>
      let f := q * g / 4 + f
      let x := bits c meta_ (4 * f) 4
      [(4 * f + x % 4, m.wVal c j (2 * f)), (4 * f + x / 4, m.wVal c j (2 * f + 1))])
  | 2 => (List.range (g / 4)).map (fun f =>
      let f := q * g / 4 + f
      (4 * f + bits c meta_ (2 * f) 2, m.wVal c j f))
  | _ =>
    let b := q * g / 32
    if m.present c b then
      let r := m.wOff + 64 + m.rank c b * m.recBytes + j * 4 * m.wb
      (List.range g).map (fun k => (q * g + k, val m.wType (bits c r ((q * g + k) % 32 * m.wb) m.wb)))
    else []

/-- A zero row of a group (R301). -/
def zeroRow (m : Mma) (c : CoreSt) (q i : Nat) : Bool :=
  (m.actScale c i q != 0xFF) && (List.range m.g).all (fun k => Num.isZero (m.act c i (q * m.g + k)))

/-- The group's sum of the named products, scaled (R171, R301). -/
def groupSum (m : Mma) (c : CoreSt) (q i j : Nat) (ts : List (Nat × FVal)) : FVal :=
  let ps := ts.map (fun t => (Num.mulV (m.act c i t.1) t.2).1)
  let s := match ps with
    | [] => FVal.fin false 0 0
    | p :: l => l.foldl (fun a x => (Num.addV 0 a x).1) p
  let sa := if isMx m.aType then Num.e8m0 (m.actScale c i q) else .fin false 1 0
  let sw := if isMx m.wType then Num.e8m0 (m.wScale c (q * m.g / 32) j) else .fin false 1 0
  (Num.mulV (Num.mulV s sa).1 sw).1

/-- An accumulator element after all groups, in ascending order (R301). -/
def element (m : Mma) (c : CoreSt) (i j acc : Nat) : Nat :=
  (List.range (m.k / m.g)).foldl (fun a q =>
    let ts := if m.skip && m.zeroRow c q i then [] else m.wTerms c q j
    if ts = [] then a
    else (Num.encodeF (Num.fmtOf Num.FP32) 0 false (Num.addV 0 (Num.value Num.FP32 a) (m.groupSum c q i j ts)).1).1) acc

/-- The cycles that it occupies the matrix unit (R304, R305). -/
def cycles (m : Mma) (c : CoreSt) : Nat :=
  max 1 ((List.range (m.k / m.g)).foldl (fun a q =>
    let cq := if m.form = 3 ∧ !m.present c (q * m.g / 32) then 0
      else m.g * 2 / m.rate / (if m.form = 1 ∨ m.form = 2 then 2 else 1)
    let bands := if m.skip then ((List.range 8).filter (fun n => !(List.range 8).all (fun r => m.zeroRow c q (8 * n + r)))).length else 8
    a + cdiv (cq * bands) 8) 0)

end Mma

/-- Element (i, j) of an accumulator. -/
def accAt (c : CoreSt) (a i j : Nat) : Nat := smGet 0 (2048 * a + 32 * i + j) c.a

/-- Write every element of an accumulator. -/
def putAcc (c : CoreSt) (a : Nat) (f : Nat → Nat → Nat) : CoreSt :=
  { c with a := (List.range 2048).foldl (fun m e => smPut 0 (2048 * a + e) (f (e / 32) (e % 32)) m) c.a }

/-- A matrix instruction waits while the queue is full or a queued MX.MMA uses its accumulator (R170). -/
def mxWaits (c : CoreSt) (a : Nat) : Bool := decide (3 ≤ c.mmas.length) || c.mmas.any (fun m => m.acc == a)

/-- A matrix instruction proceeds, or waits on the unit. -/
def mxRun (s : State) (c : CoreSt) (a : Nat) (r : Ran) : Ran :=
  if mxWaits c a then .stall s Off.carter_PEER_WAIT_LO none else r

/-- The MX.MMA that an instruction names: its accumulator, the offsets of its tiles, their types, K, form and flags (R169). -/
def mmaOf (c : CoreSt) (i : Ins) : Mma :=
  ⟨i.dst, c.xr i.s1, c.xr i.s2, bitsOf i.w 7 0, i.type, c.xr i.s3, bitsOf i.w 9 8, bitOf i.w 10, bitOf i.w 11, false⟩

/-- Exceptions of MX.MMA, in the order of Table 6.12 (R169, R298). -/
def mmaExc (c : CoreSt) (i : Ins) : List (Bool × Nat) :=
  let m := mmaOf c i
  [(!i.onlyUses [fDst, fS1, fS2, fS3, fType, (11, 0)], Code.ILLEGAL_INSTR),
    (!Num.valid m.aType || !Num.valid i.type, Code.BAD_ELEM_TYPE), ((mmaPair m.aType i.type).isNone, Code.TYPE_CLASS), (decide (3 < i.dst), Code.BAD_REG),
    (decide (m.k < 32) || decide (4096 < m.k) || decide (m.k % m.g ≠ 0), Code.MATRIX_SHAPE),
    (decide (0x400000 < m.aOff + m.aBytes) || decide (0x400000 < m.wOff + (if m.form = 3 then 64 else 0)) || decide (0x400000 < m.wOff + m.wBytes c), Code.LOCAL_RANGE),
    (decide (m.aOff % 32 ≠ 0) || decide (m.wOff % 32 ≠ 0), Code.MISALIGNED)]

/-- MX.MMA (R169, R170, R298). -/
def mxMma (n : Nat) (s : State) (i : Ins) : Ran :=
  let c := s.core n
  guardExc (mmaExc c i) (mxRun s c i.dst (.done (s.setCore n { c with mmas := c.mmas ++ [mmaOf c i] })))

/-- MX.ZERO (R172). -/
def mxZero (n : Nat) (s : State) (i : Ins) : Ran :=
  let c := s.core n
  guardExc [(!i.onlyUses [fDst], Code.ILLEGAL_INSTR), (decide (3 < i.dst), Code.BAD_REG)]
    (mxRun s c i.dst (.done (s.setCore n (putAcc c i.dst (fun _ _ => 0)))))

/-- MX.LOADACC (R172). -/
def mxLoadacc (n : Nat) (s : State) (i : Ins) : Ran :=
  let c := s.core n
  let a := c.xr i.s1
  guardExc [(!i.onlyUses [fDst, fS1], Code.ILLEGAL_INSTR), (decide (3 < i.dst), Code.BAD_REG),
      (decide (0x400000 < a + 8192), Code.LOCAL_RANGE), (decide (a % 4 ≠ 0), Code.MISALIGNED)]
    (mxRun s c i.dst (.done (s.setCore n ((putAcc c i.dst (fun r j => c.num (a + 128 * r + 4 * j) 4)).noteRead a 8192))))

/-- One row of MX.STOREACC: its bytes, its scale byte and its flags. -/
def accRow (c : CoreSt) (i : Ins) (r : Nat) : List Byte × Nat × Nat :=
  let et := i.type
  let cs := (List.range 32).map (accAt c i.dst r)
  if isMx et then
    let (sc, codes, bad) := Num.mxBlock et (cs.map (Num.value Num.FP32))
    let n := codes.zipIdx.foldl (fun a e => a + e.1 * 2 ^ (width et * e.2)) 0
    (leBytes (4 * width et) n, sc, if bad then 32 else 0)
  else
    let rs := cs.map (fun v => if et = Num.FP32 then (v, ({} : FFlags)) else Num.convert Num.FP32 et i.rm i.sat v)
    (rs.flatMap (fun e => leBytes (width et / 8) e.1), 0, rs.foldl (fun a e => Nat.lor a (flagBits e.2)) 0)

/-- The types that MX.STOREACC may name (R172). -/
def storeaccType (et : Nat) : Bool :=
  et == Num.FP32 || et == Num.BF16 || et == Num.FP16 || et == Num.E4M3 || et == Num.E5M2 || isMx et

/-- The core after MX.STOREACC: 64 rows of 32 elements at the pitch, and the scale plane of an MX type (R172). -/
def accStored (c : CoreSt) (i : Ins) : CoreSt :=
  ((List.range 64).map (accRow c i)).zipIdx.foldl (fun d e =>
    let d := (d.store (c.xr i.s1 + c.xr i.s2 * e.2) e.1.1 false).orF e.1.2.2
    if isMx i.type then d.store (c.xr i.s3 + e.2) (leBytes 1 e.1.2.1) false else d) c

/-- Exceptions of MX.STOREACC, in the order of Table 6.12 (R161, R172). -/
def storeaccExc (s : State) (n : Nat) (i : Ins) : List (Bool × Nat) :=
  let c := s.core n
  let et := i.type
  let a := c.xr i.s1
  let pitch := c.xr i.s2
  let mx := isMx et
  let scale := c.xr i.s3
  let len := 4 * width et
  let beyond := decide (0x400000 < a + 63 * pitch + len) || (mx && decide (0x400000 < scale + 64))
  let res := (List.range 64).any (fun r => inShard s n (a + pitch * r) len) || (mx && inShard s n scale 64)
  [(!i.onlyUses ([fDst, fS1, fS2, fType] ++ (if mx then [fS3] else [fRm, fSat])), Code.ILLEGAL_INSTR)] ++ typeExc et (storeaccType et)
    ++ [(decide (3 < i.dst), Code.BAD_REG), (beyond, Code.LOCAL_RANGE),
        (decide (pitch % 32 ≠ 0) || decide (a % elemBytes et ≠ 0), Code.MISALIGNED), (res, Code.RESIDENT_WRITE)]

/-- MX.STOREACC (R172). -/
def mxStoreacc (n : Nat) (s : State) (i : Ins) : Ran :=
  let c := s.core n
  guardExc (storeaccExc s n i) (mxRun s c i.dst (.done (s.setCore n (accStored c i))))

/-- MX_MMA (R169). -/
def execMxMma (core : Nat) (s : State) : Host.Outcome State Fault Refusal :=
  .next (runIns s core (isOp 0x10 [0]) (some Off.fcore_INSTR_MATRIX_LO) (mxMma core))

/-- MX_ZERO (R172). -/
def execMxZero (core : Nat) (s : State) : Host.Outcome State Fault Refusal :=
  .next (runIns s core (isOp 0x10 [1]) (some Off.fcore_INSTR_MATRIX_LO) (mxZero core))

/-- MX_LOADACC (R172). -/
def execMxLoadacc (core : Nat) (s : State) : Host.Outcome State Fault Refusal :=
  .next (runIns s core (isOp 0x10 [2]) (some Off.fcore_INSTR_MATRIX_LO) (mxLoadacc core))

/-- MX_STOREACC (R172). -/
def execMxStoreacc (core : Nat) (s : State) : Host.Outcome State Fault Refusal :=
  .next (runIns s core (isOp 0x10 [3]) (some Off.fcore_INSTR_MATRIX_LO) (mxStoreacc core))

/-- MMA_EXECUTE: the oldest queued MX.MMA of a core executes; its result is dropped if its task was stopped (R170, R179,
R301, R305). -/
def execMmaExecute (core : Nat) (s : State) : Host.Outcome State Fault Refusal :=
  let c := s.core core
  match c.mmas with
  | [] => .next s
  | m :: rest =>
    let d := { c with mmas := rest }
    let d := if m.drop then d
      else ((putAcc d m.acc (fun i j => m.element c i j (if m.clear then 0 else accAt c m.acc i j))).noteRead m.aOff m.aBytes).noteRead m.wOff (m.wBytes c)
    .next ((notePoison (s.setCore core d) core).mapIo (fun io => io.count64 (bCore core) Off.fcore_MAC_CYCLES_LO (m.cycles c)))

end Sys2Proof.Machine
end

