-- ==== Sys2Proof/Machine/TaskInstr.lean ====
section
/-! DEFINITION. Task, fence and event instructions: R175 to R182. -/

namespace Sys2Proof.Machine

/-- TASK.WAIT: the core waits, and starts the task of its NEXT register if there is one (R175). -/
def taskWaitRun (n : Nat) (s : State) (i : Ins) : Ran :=
  let c := s.core n
  let ticks := c.xr i.s1
  let d := { c with run := .waiting, waitDst := some i.dst, waitEnd := if ticks = 0 then none else some (s.io.tb + ticks), idleAt := s.io.tb }
  guardExc [(!i.onlyUses [fDst, fS1], Code.ILLEGAL_INSTR), (c.task.isSome, Code.TASK_STATE)]
    (let t := startNext (s.setCore n d) n
     .jump t (t.core n).pc)

/-- TASK_WAIT (R175). -/
def execTaskWait (core : Nat) (s : State) : Host.Outcome State Fault Refusal :=
  .next (runIns s core (isOp 0x18 [0]) none (taskWaitRun core))

/-- TASK_WAIT_TIMEOUT: the timeout of a TASK.WAIT ends first: X[DST] is 1 and the next instruction follows; a dispatch of
the same tick comes before it (R175, R393). -/
def execTaskWaitTimeout (core : Nat) (s : State) : Host.Outcome State Fault Refusal :=
  let s := startNext s core
  let c := s.core core
  match c.waitEnd, c.waitDst with
  | some e, some d =>
    if c.run ≠ .waiting ∨ s.io.tb < e then .next s
    else
      let s := s.mapIo (fun io => io.count64 (bCarter core) Off.carter_TASK_WAIT_LO (cyclesOf (io.tb - c.idleAt)))
      .next (s.setCore core { c.setX d 1 with run := .between, waitDst := none, waitEnd := none, pc := c.pc + 8 })
  | _, _ => .next s

/-- The flow position that a task's tokens wait for: its own, or its instance's (R348). -/
def taskPos (s : State) (t : Task) : Option (Nat × Nat × Nat) :=
  match t.inst with
  | some (i, _, _) => (instOf s i).bind (fun x => x.flow.map (fun f => (x.die, f, x.pos)))
  | none => t.flow.map (fun f => (t.die, f, t.pos))

/-- The operand token of a TASK.EMIT on a TOKEN port (R177, R337). -/
def emitToken (s : State) (n : Nat) (t : Task) (w key val : Nat) (seq : Bool) : Token :=
  { die := bitsOf w 15 15, tmpl := bitsOf w 29 16, port := bitsOf w 3 0, key := key, val := val, ctx := t.ctx, svc := t.svc,
    binding := if seq then (taskSeq s t).bind (fun _ => t.binding) else none, rel := t.rel, src := .core n, cls := t.cls, hold := taskPos s t }

/-- TASK.EMIT on a TOKEN port: accepted, blocked at the core, or dropped (R177, R336, R351). -/
def emitOn (n : Nat) (s : State) (i : Ins) (k : Token) : Ran :=
  let c := s.core n
  let (t, o) := offerToken s k
  if o = .held then .jump (t.setCore n { t.core n with emitDst := some i.dst }) c.pc
  else if o = .accepted then .done (t.setCore n ((t.core n).setX i.dst 0))
  else .done t

/-- TASK.EMIT on a HANDOVER port: the record is copied into the next stage buffer, or the core waits for an entry
(R353). -/
def emitRecord (n : Nat) (s : State) (i : Ins) (inst st : Nat) : Ran :=
  let c := s.core n
  let v := c.xr i.s2
  let off := bitsOf v 21 0
  let len := bitsOf v 52 32
  let cap := match (instOf s inst).bind (fun x => chainOf s x) with
    | some ch => (ch.stage st).bytes
    | none => 0
  let p := c.poisoned || c.anyPoison off len
  guardExc [(decide (len = 0) || decide (cap < len) || decide (0x400000 < off + len), Code.LOCAL_RANGE), (decide (off % 64 ≠ 0), Code.MISALIGNED)]
    (match putEntry (s.setCore n (c.noteRead off len)) inst st (c.bytes off len) p with
      | none => .stall s Off.carter_WRITE_BACKPRESSURE_LO none
      | some t => .done (t.setCore n ((t.core n).setX i.dst 0)))

/-- TASK.EMIT (R177). -/
def taskEmitRun (n : Nat) (s : State) (i : Ins) : Ran :=
  let c := s.core n
  let p := bitsOf i.w 7 0
  let w := match c.task with
    | some t => (tmplOf s t.die t.tmpl).out p
    | none => 0
  let kind := bitsOf w 31 30
  let stage : Option (Nat × Nat) := c.task.bind (fun t => t.inst.map (fun e => (e.1, e.2.1)))
  let badPort := (kind != 1 && kind != 2) || (kind == 2 && stage.isNone)
  guardExc [(!i.onlyUses [fDst, fS1, fS2, (8, 0)], Code.ILLEGAL_INSTR), (c.task.isNone, Code.TASK_STATE), (badPort, Code.BAD_PORT)]
    (match c.task, stage with
      | some t, some (inst, st) =>
        if kind = 2 then emitRecord n s i inst st else emitOn n s i (emitToken s n t w (c.xr i.s1) (c.xr i.s2) (bitOf i.w 8))
      | some t, none => emitOn n s i (emitToken s n t w (c.xr i.s1) (c.xr i.s2) (bitOf i.w 8))
      | none, _ => .done s)

/-- TASK_EMIT (R177). -/
def execTaskEmit (core : Nat) (s : State) : Host.Outcome State Fault Refusal :=
  .next (runIns s core (isOp 0x18 [1]) none (taskEmitRun core))

/-- Outcome and INFO of a TASK.DONE (Table 13.2). -/
def doneOutcome (status failCode : Nat) : Nat × Nat :=
  if status ≠ 0 then (Code.TASK_FAILED, status) else if failCode ≠ 0 then (Code.STREAM_FAILED, failCode) else (Code.OK, 0)

/-- TASK.DONE: open streams are closed and the task's completion follows (R128, R178); it waits for the matrix queue
(log entry 15). -/
def taskDoneRun (n : Nat) (s : State) (i : Ins) : Ran :=
  let c := s.core n
  let status := bitsOf i.w 7 0
  let retire := bitOf i.w 8
  let seq := c.task.bind (taskSeq s)
  guardExc [(!i.onlyUses [(8, 0)] || decide (127 < status), Code.ILLEGAL_INSTR), (c.task.isNone || (retire && seq.isNone), Code.TASK_STATE)]
    (if c.mmas ≠ [] then .stall s Off.carter_PEER_WAIT_LO none
     else
      let id := (c.task.map (fun t => t.id)).getD 0
      let s := (taskStrms s n id).foldl (fun s k => closeAny s n k) s
      let (o, info) := doneOutcome status (s.core n).failCode
      .jump (housekeep (leaveTask s n o info retire .between)) (c.pc + 8))

/-- TASK_DONE (R178). -/
def execTaskDone (core : Nat) (s : State) : Host.Outcome State Fault Refusal :=
  .next (runIns s core (isOp 0x18 [2]) none (taskDoneRun core))

/-- NOP: only PC moves on (R150). -/
def execNop (core : Nat) (s : State) : Host.Outcome State Fault Refusal :=
  .next (runIns s core (isOp 0x1C [0]) none (fun s i => guardExc [(!i.onlyUses [], Code.ILLEGAL_INSTR)] (.done s)))

/-- Table requests of a core that have not written their results (R181). -/
def tableBusy (s : State) (n : Nat) : Bool :=
  (s.core n).assay != [] || s.queue.egp.any (fun e => e.2.any (fun r => r.core == some n)) || s.queue.win.any (fun e => e.2.any (fun r => r.core == some n))

/-- Released write tiles not acknowledged, and Pedlar transfers with ACK that have no STATUS (R181). -/
def writeBusy (s : State) (n : Nat) : Bool :=
  (s.core n).strms.any (fun e => !e.2.reads && e.2.tiles != []) || (s.core n).peds.any (fun p => p.ack)

/-- A fence waits while its conditions hold, each with its stall cause. -/
def fenceRun (s : State) (i : Ins) (conds : List (Bool × Nat)) : Ran :=
  guardExc [(!i.onlyUses [], Code.ILLEGAL_INSTR)]
    (match conds.find? (fun e => e.1) with
      | some e => .stall s e.2 none
      | none => .done s)

/-- FENCE_TABLE (R181). -/
def execFenceTable (core : Nat) (s : State) : Host.Outcome State Fault Refusal :=
  .next (runIns s core (isOp 0x1C [1]) none (fun s i => fenceRun s i [(tableBusy s core, Off.carter_PEER_WAIT_LO)]))

/-- FENCE_WRITE (R181). -/
def execFenceWrite (core : Nat) (s : State) : Host.Outcome State Fault Refusal :=
  .next (runIns s core (isOp 0x1C [2]) none (fun s i => fenceRun s i [(writeBusy s core, Off.carter_WRITE_BACKPRESSURE_LO)]))

/-- FENCE_ALL (R181). -/
def execFenceAll (core : Nat) (s : State) : Host.Outcome State Fault Refusal :=
  .next (runIns s core (isOp 0x1C [3]) none (fun s i => fenceRun s i
    [(tableBusy s core || (s.core core).mmas != [], Off.carter_PEER_WAIT_LO), (writeBusy s core, Off.carter_WRITE_BACKPRESSURE_LO)]))

/-- EVT.RAISE: a USER record, at most one per 1,024 cycles (R182). -/
def evtRaiseRun (n : Nat) (s : State) (i : Ins) : Ran :=
  let c := s.core n
  let now := cyclesOf s.io.tb
  let late := c.lastUser.any (fun t => decide (now < t + 1024))
  let ctx := c.task.bind (fun t => (s.ctx? t.ctx).bind (fun x => x.slot))
  let info := c.xr i.s1
  guardExc [(!i.onlyUses [fS1, (7, 0)], Code.ILLEGAL_INSTR)]
    (.done (if late then s.mapIo (fun io => (io.count (bCore n) Off.fcore_USER_EVT_LOST 1).riseQuiet (bCore n) 3)
      else (s.setCore n { c with lastUser := some now }).mapIo (fun io => (io.riseQuiet (bCore n) 3).note (bCore n) Cls.USER (bitsOf i.w 7 0) ctx 0 info)))

/-- EVT_RAISE (R182). -/
def execEvtRaise (core : Nat) (s : State) : Host.Outcome State Fault Refusal :=
  .next (runIns s core (isOp 0x1C [8]) none (evtRaiseRun core))

/-- EVT.COUNT (R182). -/
def evtCountRun (n : Nat) (s : State) (i : Ins) : Ran :=
  let v := (s.core n).xr i.s1
  guardExc [(!i.onlyUses [fS1, (2, 0)], Code.ILLEGAL_INSTR)]
    (.done (s.mapIo (fun io => io.count64 (bCore n) (Off.fcore_USER_CTR_LO + 8 * bitsOf i.w 2 0) v)))

/-- EVT_COUNT (R182). -/
def execEvtCount (core : Nat) (s : State) : Host.Outcome State Fault Refusal :=
  .next (runIns s core (isOp 0x1C [9]) none (evtCountRun core))

end Sys2Proof.Machine
end

