-- ==== Sys2Proof/Machine/StreamInstr.lean ====
section
/-! DEFINITION. Stream instructions and the events of Carter (R110 to R135, R173), and the Pedlar path (R138 to R141,
R174). -/

namespace Sys2Proof.Machine

/-- The stream that an instruction names. -/
def Ins.strm (i : Ins) : Nat := bitsOf i.w 3 0

/-- Whether the running task has a stream open: not CLOSED, not closing, and opened for it (log entry 16). -/
def ownsStrm (s : State) (n k : Nat) : Bool :=
  let x := s.strm n k
  decide (x.st ≠ 0) && !x.closing && (s.core n).task.any (fun t => t.id == x.task)

/-- STREAM.OPEN (R110, R173). -/
def streamOpenRun (n : Nat) (s : State) (i : Ins) : Ran :=
  let c := s.core n
  let off := c.xr i.s1
  guardExc [(!i.onlyUses [fDst, fS1, (3, 0)], Code.ILLEGAL_INSTR), (c.task.isNone, Code.TASK_STATE),
      (decide (0x400000 < off + 128), Code.LOCAL_RANGE), (decide (off % 64 ≠ 0), Code.MISALIGNED)]
    (match c.task with
      | none => .done s
      | some t =>
        let s := if c.anyPoison off 128 then s.setCore n (c.noteRead off 128) else s
        let (u, code) := openStrm s n i.strm t.opener off
        .done (u.setCore n ((u.core n).setX i.dst code)))

/-- STREAM.ADVANCE (R113, R114, R173). -/
def streamAdvanceRun (n : Nat) (s : State) (i : Ins) : Ran :=
  let c := s.core n
  let k := i.strm
  guardExc [(!i.onlyUses [fDst, (3, 0)], Code.ILLEGAL_INSTR), (c.task.isNone, Code.TASK_STATE), (!ownsStrm s n k, Code.STREAM_STATE)]
    (let r := if (s.strm n k).reads then advanceRead s n k else advanceWrite s n k
     if r.2 then .done (r.1.setCore n ((r.1.core n).setX i.dst (stReg r.1 n k)))
     else .stall r.1 (stallOff (r.1.strm n k)) (some k))

/-- STREAM.CLOSE (R115, R173). -/
def streamCloseRun (n : Nat) (s : State) (i : Ins) : Ran :=
  let c := s.core n
  guardExc [(!i.onlyUses [(3, 0)], Code.ILLEGAL_INSTR), (c.task.isNone, Code.TASK_STATE), (!ownsStrm s n i.strm, Code.STREAM_STATE)]
    (.done (closeAny s n i.strm))

/-- STREAM.READ (R112, R173). -/
def streamReadRun (n : Nat) (s : State) (i : Ins) : Ran :=
  let c := s.core n
  guardExc [(!i.onlyUses [fDst, (3, 0)], Code.ILLEGAL_INSTR), (c.task.isNone, Code.TASK_STATE)]
    (.done (s.setCore n (c.setX i.dst (stReg s n i.strm))))

/-- STREAM_OPEN (R110). -/
def execStreamOpen (core : Nat) (s : State) : Host.Outcome State Fault Refusal :=
  .next (runIns s core (isOp 0x14 [0]) none (streamOpenRun core))

/-- STREAM_ADVANCE (R113). -/
def execStreamAdvance (core : Nat) (s : State) : Host.Outcome State Fault Refusal :=
  .next (runIns s core (isOp 0x14 [1]) none (streamAdvanceRun core))

/-- STREAM_CLOSE (R115). -/
def execStreamClose (core : Nat) (s : State) : Host.Outcome State Fault Refusal :=
  .next (housekeep (runIns s core (isOp 0x14 [2]) none (streamCloseRun core)))

/-- STREAM_READ (R173). -/
def execStreamRead (core : Nat) (s : State) : Host.Outcome State Fault Refusal :=
  .next (runIns s core (isOp 0x14 [3]) none (streamReadRun core))

/-- LINE_REQUEST_GRANT (R120). -/
def execLineRequestGrant (arb : Block) (s : State) : Host.Outcome State Fault Refusal := .next (grantLine s arb)

/-- LINE_RETURN: a read that every arbiter of its path has granted returns its line (R113, R115). -/
def execLineReturn (r : LineReq) (s : State) : Host.Outcome State Fault Refusal :=
  if s.fetch.lines.contains r ∧ r.path = [] ∧ !r.write ∧ !tHeld s r.tier r.addr then .next (housekeep (returnLine s r)) else .next s

/-- STREAM_HALT: a stream whose line has faulted halts once its reads in flight have returned (R129). -/
def execStreamHalt (core st : Nat) (s : State) : Host.Outcome State Fault Refusal := .next (housekeep (settleHalt s core st))

/-- WRITE_ACK: the oldest issued tile of a write stream, its lines granted, is written and acknowledged (R114). -/
def execWriteAck (core st : Nat) (s : State) : Host.Outcome State Fault Refusal := .next (housekeep (ackTile s core st))

/-- RING_STEP (R122). -/
def execRingStep (die set : Nat) (s : State) : Host.Outcome State Fault Refusal := .next (ringStep s die set)

/-- CANCEL_FENCE_DONE (R134, R359). -/
def execCancelFenceDone (core : Nat) (s : State) : Host.Outcome State Fault Refusal :=
  if fenceReady s core then .next (finishCancels (housekeep (fenceDone s core))) else .next s

/-- Bytes written line by line, each line with its poison (Table 15.4, R139). -/
def writeLines (s : State) (tier a : Nat) (bs : List Byte) (poison : Nat) : State :=
  (linesOf a bs.length).zipIdx.foldl (fun s e =>
    let lo := max a (64 * e.1)
    let hi := min (a + bs.length) (64 * e.1 + 64)
    s.tWrite 0 tier lo ((bs.drop (lo - a)).take (hi - lo)) (bitOf poison e.2)) s

/-- Poisoned lines of a Pedlar destination: those that take a byte of a poisoned SRAM line, or all for a poisoned task. -/
def pedPoison (c : CoreSt) (src dst len : Nat) : Nat :=
  (linesOf dst len).zipIdx.foldl (fun m e =>
    let lo := max dst (64 * e.1)
    let hi := min (dst + len) (64 * e.1 + 64)
    if c.poisoned || c.anyPoison (src + (lo - dst)) (hi - lo) then m + 2 ^ e.2 else m) 0

/-- The local region checks of R139, in the order of R77, R88 and the span. -/
def pedRegion (s : State) (n : Namer) (h off len : Nat) : Nat :=
  match regionOf s h with
  | none => Code.BAD_REGION
  | some r =>
    if !scopeOk r n ∨ !bitOf r.perm 1 then Code.REGION_PERM
    else if r.len < off + len then Code.EXTENT_RANGE else 0

/-- The checks of a Pedlar request at send: the first code that fails, or 0 (R26, R138, R139, R456). -/
def pedCheck (s : State) (t : Task) (b : List Byte) : Nat :=
  let dest := fieldAt b 1 1
  let len := fieldAt b 2 2
  if fieldAt b 0 1 ≠ 1 then Code.BAD_VERSION
  else if fieldAt b 0xE 1 / 4 ≠ 0 ∨ fieldAt b 0xF 1 ≠ 0 ∨ fieldAt b 0x1A 6 ≠ 0 ∨ (dest = 0 ∧ fieldAt b 0xC 2 ≠ 0) then Code.RSV_NONZERO
  else if 1 < dest then Code.PEDLAR_DEST
  else if len = 0 ∨ 256 < len then Code.PEDLAR_LEN
  else if dest = 0 then pedRegion s ⟨t.ctx + 1, t.svc⟩ (fieldAt b 8 4) (fieldAt b 0x10 8) len
  else if !feature s.io 3 then Code.FEATURE_OFF
  else if !reachable s (fieldAt b 0xC 2) then Code.UNREACHABLE else 0

/-- PEDLAR.SEND: a refused request only writes STATUS; a ninth transfer waits (R139, R140, R174). -/
def pedlarSendRun (n : Nat) (s : State) (i : Ins) : Ran :=
  let c := s.core n
  let a := c.xr i.s1
  let b := c.bytes a 32
  let len := fieldAt b 2 2
  let src := fieldAt b 4 4
  let code := match c.task with
    | some t => pedCheck s t b
    | none => 0
  let r := regionOf s (fieldAt b 8 4)
  let dst := (r.map (fun g => g.base)).getD 0 + fieldAt b 0x10 8
  let p : Ped := ⟨a, fieldAt b 1 1, fieldAt b 8 4, fieldAt b 0xC 2, bitOf (fieldAt b 0xE 1) 0, bitOf (fieldAt b 0xE 1) 1, fieldAt b 0x10 8,
    c.bytes src len, pedPoison c src (if fieldAt b 1 1 = 0 then dst else fieldAt b 0x10 8) len, c.sends + 1, false, false, none⟩
  guardExc [(!i.onlyUses [fS1], Code.ILLEGAL_INSTR), (c.task.isNone, Code.TASK_STATE),
      (decide (0x400000 < a + 32) || (code == 0 && decide (0x400000 < src + len)), Code.LOCAL_RANGE), (decide (a % 32 ≠ 0), Code.MISALIGNED)]
    (if code ≠ 0 then .done (pedStatus (s.setCore n (c.noteRead a 32)) n a code)
     else if 8 ≤ c.peds.length then .stall s Off.carter_WRITE_BACKPRESSURE_LO none
     else .done (s.setCore n { (c.noteRead a 32).noteRead src len with peds := c.peds ++ [p], sends := c.sends + 1 }))

/-- PEDLAR_SEND (R139). -/
def execPedlarSend (core : Nat) (s : State) : Host.Outcome State Fault Refusal :=
  .next (runIns s core (isOp 0x15 [0]) none (pedlarSendRun core))

/-- Change a transfer of a core. -/
def setPed (s : State) (n serial : Nat) (f : Ped → Ped) : State :=
  s.setCore n { s.core n with peds := (s.core n).peds.map (fun p => if p.serial = serial then f p else p) }

/-- A transfer ends: STATUS is written when a code is given. -/
def endPed (s : State) (n : Nat) (p : Ped) (status : Option Nat) : State :=
  let s := s.setCore n { s.core n with peds := (s.core n).peds.filter (fun q => q.serial ≠ p.serial) }
  match status with
  | some c => pedStatus s n p.blk c
  | none => s

/-- PEDLAR_ISSUE: the oldest transfer not yet issued goes, after its FENCE wait; without ACK its STATUS is written now
(R138, R140, R454, R456, R463). -/
def execPedlarIssue (core : Nat) (s : State) : Host.Outcome State Fault Refusal :=
  match (s.core core).peds.find? (fun p => !p.issued) with
  | none => .next s
  | some p =>
    let waits := p.fence && (s.core core).strms.any (fun e => !e.2.reads && e.2.tiles != [])
    if waits ∨ (p.dest = 1 ∧ !maySend s) then .next s
    else if p.dest = 1 ∧ !reachable s p.fabric then .next (endPed s core p (some Code.UNREACHABLE))
    else
      let s := setPed s core p.serial (fun q => { q with issued := true })
      let s := if p.ack then s else pedStatus s core p.blk Code.DONE
      if p.dest = 0 then .next s
      else
        let arg := p.offset % 2 ^ 52 + (if p.ack then 2 ^ 63 else 0)
        .next (transmit s p.fabric 1 core p.poison arg (leBytes 4 p.region ++ leBytes 4 0 ++ p.data) (.pedlar core p.serial))

/-- A local transfer is applied: it waits for a moving page and for held host traffic, and a host page without a
translation ends it with nothing written (R141). -/
def applyPed (s : State) (n : Nat) (p : Ped) : State :=
  match regionOf s p.region with
  | none => endPed s n p (some Code.PEDLAR_FAULT)
  | some r =>
    let a := r.base + p.offset
    match tFault s r.tier a p.data.length true with
    | some (c, _) => if c = Code.MIGRATING then s else endPed s n p (some Code.PEDLAR_FAULT)
    | none =>
      if tHeld s r.tier a then s
      else endPed (writeLines s r.tier a p.data p.poison) n p (if p.ack then some Code.DONE else none)

/-- PEDLAR_COMPLETE: an issued transfer ends; transfers of a core to one region end in order (R138, R140). -/
def execPedlarComplete (core serial : Nat) (s : State) : Host.Outcome State Fault Refusal :=
  match (s.core core).peds.find? (fun p => p.serial == serial && p.issued) with
  | none => .next s
  | some p =>
    if (s.core core).peds.any (fun q => q.dest == p.dest && q.region == p.region && q.fabric == p.fabric && decide (q.serial < serial)) then .next s
    else if p.dest = 0 then .next (applyPed s core p)
    else match p.acked with
      | none => .next s
      | some st => .next (endPed s core p (if p.ack then some (if st = 0 then Code.DONE else st) else none))

end Sys2Proof.Machine
end

