-- ==== Sys2Proof/Machine/FabricRows.lean ====
section
/-! DEFINITION. Packets that end at this device: remote writes, updates, markers, inboxes, acknowledgements and
unreachable destinations (R454, R456, R463 to R467), and the commands of inboxes and forwarding sessions. -/

namespace Sys2Proof.Machine

/-- A response packet is taken off its link. -/
def takePkt (s : State) (p : Pkt) : State :=
  match s.fab.arrived.find? (fun e => e.2 == p) with
  | some e => { s with fab := { s.fab with arrived := s.fab.arrived.erase e } }
  | none => s

/-- The checks of a remote write at the receiver, in order (R463): a code, or the region. -/
def pedWrCheck (s : State) (p : Pkt) : Except Nat Region :=
  match regionOf s (fieldAt p.payload 0 4) with
  | none => .error Code.BAD_REGION
  | some r =>
    if !bitOf r.perm 1 then .error Code.REGION_PERM
    else if !s.fab.groups.any (fun g => decide (g.2.svc = r.svc) && g.2.members.contains p.src) then .error Code.REMOTE_DENIED
    else if r.len < p.arg % 2 ^ 52 + (p.payload.length - 8) then .error Code.EXTENT_RANGE
    else .ok r

/-- PEDLAR_WR: the write is checked and applied, or refused, and acknowledged; one that meets a moving page or held host
traffic waits (R141, R463). -/
def execPedlarWr (p : Pkt) (s : State) : Host.Outcome State Fault Refusal :=
  let (t, ok) := e2eAccept s p
  if !ok then .next t
  else match pedWrCheck t p with
  | .error c => .next (e2eReply t p c)
  | .ok r =>
    let a := r.base + p.arg % 2 ^ 52
    let bs := p.payload.drop 8
    match tFault t r.tier a bs.length true with
    | some (c, _) => if c = Code.MIGRATING then .next s else .next (e2eReply t p Code.PEDLAR_FAULT)
    | none => if tHeld t r.tier a then .next s else .next (e2eReply (writeLines t r.tier a bs p.poison) p 0)

/-- The table that names a group (R459). -/
def tabOfGroup (s : State) (g : Nat) : Option (Nat × Tab) :=
  ((s.egp.dir.map (fun e => (e.1, (⟨e.2⟩ : Tab)))).find? (fun e => e.2.state ≠ 0 && decide (1 < e.2.peers) && e.2.group == g))

/-- The receiver's checks of a remote update of `n` entries (R464; rows 4 to 11 of Table 9.4). -/
def updCheck (s : State) (p : Pkt) (n : Nat) : Except Nat (Nat × Tab) :=
  let g := p.flow % 65536
  match tabOfGroup s g, groupOf s g with
  | some (ti, t), some q =>
    let step := p.arg / 2 ^ 32
    if !q.members.contains p.src then .error Code.REMOTE_DENIED
    else if t.state ≠ 1 then .error Code.BAD_TABLE
    else if t.det ∧ !feature s.io 7 then .error Code.FEATURE_OFF
    else if t.mode = 0 ∨ !t.remoteUpd then .error Code.UPD_MODE
    else if step < t.step then .error Code.STEP_CLOSED
    else if t.step < step then .error Code.STEP_AHEAD
    else if t.updCap < logUsed s ti t step + n then .error Code.UPD_LOG_FULL
    else .ok (ti, t)
  | _, _ => .error Code.REMOTE_DENIED

/-- The type of a value row of an update. -/
def Tab.updType (t : Tab) : Nat := if Num.isInt t.etype then t.etype else Num.FP32

/-- Bytes of an update entry: row, position and value row (Table 17.5). -/
def Tab.updBytes (t : Tab) : Nat := 16 + (t.width * Num.width t.updType + 7) / 8

/-- The entry that bytes spell. -/
def updEntry (t : Tab) (p : Pkt) (bs : List Byte) : LogEnt :=
  let w := Num.width t.updType
  { step := p.arg / 2 ^ 32, row := fieldAt bs 0 8, src := p.src, batch := p.arg / 65536 % 65536, pos := fieldAt bs 8 4,
    vals := (List.range t.width).map (fun j => fieldAt bs (16 + j * w / 8) (w / 8)), poison := decide (p.poison ≠ 0) }

/-- EGP_UPD: whole entries are logged with the sender as source, or all are refused; the result goes back (R464). -/
def execEgpUpd (p : Pkt) (s : State) : Host.Outcome State Fault Refusal :=
  let (s, ok) := e2eAccept s p
  if !ok then .next s
  else
    let k := pairKey p.src p.flow
    let bs := smGet [] k s.egp.part ++ p.payload
    let size := match tabOfGroup s (p.flow % 65536) with
      | some (_, t) => t.updBytes
      | none => 16
    let n := bs.length / size
    let answer : State → Nat → Nat → State := fun s code done =>
      let res : EgpRes := { code := code, indices := n, contrib := done }
      respond (e2eReply s p code) p.src 3 p.flow 0 (p.arg % 65536) (res.bytes 0)
    let rest := if (tabOfGroup s (p.flow % 65536)).isSome then bs.drop (n * size) else []
    match updCheck s p n with
    | .error c => .next (answer { s with egp := { s.egp with part := smPut [] k rest s.egp.part } } c 0)
    | .ok (ti, t) =>
      let es := ((List.range n).map (fun i => updEntry t p ((bs.drop (i * size)).take size))).filter (fun e => decide (e.row < t.rows))
      let s := { s with egp := { s.egp with part := smPut [] k rest s.egp.part } }
      let s := es.foldl (fun s e => logEntry ti e s) s
      let s := s.mapIo (fun io => io.count64 (bEgp (decider s t)) Off.egp_UPD_ENTRIES_LO es.length)
      .next (answer s 0 es.length)

/-- EGP_RES: the answer to a packet of a remote update (R464). -/
def execEgpRes (p : Pkt) (s : State) : Host.Outcome State Fault Refusal :=
  let s := takePkt s p
  let mine := (List.range 12).findSome? (fun u => (unitQueue s true u).find? (fun r =>
    r.sent.isSome && r.serial % 65536 == p.arg % 65536 && fieldAt r.blk 0x2C 2 == p.src))
  match mine with
  | some r => .next (updateAnswer s r.serial (fieldAt p.payload 0 2) (fieldAt p.payload 0x0C 4))
  | none => .next s

/-- STEP_MARK: a peer has sent its last update of a step (R269, R464). -/
def execStepMark (p : Pkt) (s : State) : Host.Outcome State Fault Refusal :=
  let (s, ok) := e2eAccept s p
  if !ok then .next s
  else
    let g := p.flow % 65536
    let s := e2eReply s p 0
    match tabOfGroup s g, groupOf s g with
    | some (ti, _), some q =>
      let m := (ti, p.arg / 2 ^ 32, p.src)
      if groupHash q ≠ p.arg % 2 ^ 32 then .next (s.mapIo (fun io => io.count bReel Off.reel_DENIED 1))
      else if s.egp.marks.contains m then .next s
      else .next { s with egp := { s.egp with marks := s.egp.marks ++ [m] } }
    | _, _ => .next (s.mapIo (fun io => io.count bReel Off.reel_DENIED 1))

/-- Store an inbox. -/
def setInbox (s : State) (n : Nat) (x : Inbox) : State := { s with fab := { s.fab with inboxes := smInsert n x s.fab.inboxes } }

/-- Why the first packet of a message to an inbox is refused (R465). -/
def inboxCheck (s : State) (n : Nat) (x : Inbox) (src len : Nat) : Option Nat :=
  if (ingress s x.cn).creditsOf (inboxSrc n src) = 0 then some Code.REMOTE_DENIED
  else if x.group ≠ 0 ∧ !((groupOf s x.group).any (fun g => g.members.contains src)) then some Code.REMOTE_DENIED
  else if x.maxMsg < len then some Code.MSG_SIZE else none

/-- A whole message is placed in the ingress ring and its arrival token delivered (R434, R465). -/
def inboxWhole (s : State) (n : Nat) (x : Inbox) (src : Nat) (data : List Byte) (bad : Bool) : State :=
  let m := smGet 0 src x.count
  let s := setInbox s n { x with count := smPut 0 src ((m + 1) % 2 ^ 32) x.count, part := smErase src x.part }
  let (off, s) := placeMessage s x.cn (inboxSrc n src) m x.maxMsg data bad
  let cls := if x.classId = 0xFFFF then none else some x.classId
  let (rel, s) := match cls with
    | some c => releaseAt s x.cn x.svc c
    | none => (s.io.tb, s)
  arrive s { die := x.die, tmpl := x.tmpl, port := x.port, key := 2 ^ 63 + src * 2 ^ 48 + n * 2 ^ 32 + m,
             val := data.length * 2 ^ 32 + off, ctx := x.cn, svc := x.svc, flow := x.flow, rel := rel, cls := cls,
             src := .session (inboxSrc n src), arr := some (x.cn, inboxSrc n src, m) }

/-- INBOX_MSG: a packet of a message (R465). -/
def execInboxMsg (p : Pkt) (s : State) : Host.Outcome State Fault Refusal :=
  let (s, ok) := e2eAccept s p
  if !ok then .next s
  else
    let n := p.flow % 2 ^ 24
    let len := p.arg / 2 ^ 32
    let off := p.arg % 2 ^ 32
    match smFind n s.fab.inboxes with
    | none => .next (e2eReply s p Code.REMOTE_DENIED)
    | some x =>
      let have_ := smFind p.src x.part
      let refused := if off = 0 then inboxCheck s n x p.src len
        else if have_.any (fun e => decide (e.1.length = off)) then none else some Code.REMOTE_DENIED
      match refused with
      | some c =>
        let s := if off = 0 ∧ c = Code.MSG_SIZE then
            setIngress s x.cn { ingress s x.cn with resv := dropFirst (fun e => e.1 == inboxSrc n p.src) (ingress s x.cn).resv }
          else s
        .next (creditsFor (e2eReply s p c) x.cn)
      | none =>
        let (bs, bad) := if off = 0 then ([], false) else have_.getD ([], false)
        let bs := bs ++ p.payload
        let bad := bad || decide (p.poison ≠ 0)
        let s := e2eReply s p 0
        if bs.length < len then .next (setInbox s n { x with part := smInsert p.src (bs, bad) x.part })
        else .next (inboxWhole s n x p.src bs bad)

/-- Credits of an inbox are offered to the producers of the sessions that forward to it (R466). -/
def fwdCredits (s : State) (dst inbox : Nat) : State :=
  let mine := s.host.sess.filter (fun e => decide (e.2.st = 1) && e.2.fwd == some (dst, inbox))
  mine.foldl (fun s e =>
    (List.range (creditMax s)).foldl (fun s _ =>
      match smFind e.1 s.host.sess with
      | none => s
      | some x =>
        let out := mine.foldl (fun a f => a + ((smFind f.1 s.host.sess).map (fun y => y.credits)).getD 0) 0
        if x.credits < creditMax s ∧ out < smGet 0 (dst * 65536 + inbox) s.fab.credits then
          (setSess s e.1 { x with credits := x.credits + 1 }).mapIo (fun io => io.send ⟨"ROCE_CREDIT", e.1, 1, []⟩)
        else s) s) s

/-- INBOX_CREDIT: credits of an inbox of another device, with its MAX_MSG (R465 to R467). -/
def execInboxCredit (p : Pkt) (s : State) : Host.Outcome State Fault Refusal :=
  let s := takePkt s p
  let k := p.src * 65536 + p.flow % 2 ^ 24
  let s := { s with fab := { s.fab with credits := smMod 0 k (fun c => c + p.arg % 256) s.fab.credits,
                                        maxMsgs := smInsert k (p.arg / 2 ^ 32) s.fab.maxMsgs } }
  let s := pumpMsgs s (s.fab.msgs.length + 1)
  .next (fwdCredits s p.src (p.flow % 2 ^ 24))

/-- A message to an inbox is refused, or its last packet acknowledged (R356, R466, R467). -/
def msgDone (s : State) (serial : Nat) (last : Bool) (status : Nat) : State :=
  match s.fab.msgs.find? (fun m => m.serial == serial) with
  | none => s
  | some m =>
    if status = 0 ∧ !last then s
    else
      let s := { s with fab := { s.fab with msgs := s.fab.msgs.filter (fun q => q.serial ≠ serial) } }
      if status = 0 then s
      else match m.why with
        | .emit i st _ => stageFail s i st status
        | .session n => sessError s n status

/-- What becomes of a packet that has been acknowledged with a status, or has failed (R456, R463 to R467). -/
def outDone (s : State) (o : OutPkt) (status : Nat) : State :=
  match o.why with
  | .pedlar core serial => setPed s core serial (fun q => { q with acked := some status })
  | .update r => if status = Code.UNREACHABLE then updateAnswer s r status 0 else s
  | .mark => s
  | .coll g i => if status = 0 then s else match collOf s g i with
    | some c => collAbort s c status
    | none => s
  | .msg n last => msgDone s n last status

/-- What waits for a place among the unacknowledged packets goes on (R454). -/
def pumpFabric (s : State) : State := pumpColls (pumpMsgs s (s.fab.msgs.length + 1))

/-- E2E_ACK: packets of a pair up to a number are acknowledged, the last with a status (R454). -/
def execE2eAck (p : Pkt) (s : State) : Host.Outcome State Fault Refusal :=
  let s := takePkt s p
  let n := p.arg % 2 ^ 32
  let status := p.arg / 2 ^ 32 % 65536
  let mine : OutPkt → Bool := fun o => decide (o.p.dst = p.src) && decide (o.p.flow = p.flow) && decide ((n + 2 ^ 32 - o.p.eseq) % 2 ^ 32 < 2 ^ 31)
  let done := s.fab.out.filter mine
  let s := { s with fab := { s.fab with out := s.fab.out.filter (fun o => !mine o) } }
  let s := done.foldl (fun s o => outDone s o (if o.p.eseq = n then status else 0)) s
  .next (pumpFabric s)

/-- UNREACHABLE_TIMEOUT: 200 µs after the loss of the last route the packets held for a destination fail (R456). -/
def execUnreachableTimeout (dst : Nat) (s : State) : Host.Outcome State Fault Refusal :=
  let mine : OutPkt → Bool := fun o => decide (o.p.dst = dst) && o.link.isNone
  let failed := s.fab.out.filter mine
  if reachable s dst ∨ failed = [] then .next s
  else
    let s := { s with fab := { s.fab with out := s.fab.out.filter (fun o => !mine o) } }
    let s := s.mapIo (fun io => (io.count bReel Off.reel_UNREACH failed.length).rise bReel 3)
    let s := failed.foldl (fun s o => outDone s o Code.UNREACHABLE) s
    .next (pumpFabric s)

/-- The lowest flow of a die that neither a template nor a session uses (R348). -/
def freeFlowNo (s : State) (die : Nat) : Option Nat :=
  let c := s.caller die
  let used : Nat → Bool := fun f => (smFind f c.flows).any (fun x => x.assigned)
    || c.tmpls.any (fun e => (⟨e.2⟩ : Tmpl).flowMode == 1 && (⟨e.2⟩ : Tmpl).flow == f)
  let f := leastFree used (c.flows.length + c.tmpls.length + 1) 0
  if f < 8192 then some f else none

/-- A flow is given to a session or an inbox (R348, R433). -/
def giveFlow (s : State) (die f : Nat) : State :=
  s.mapCaller die (fun c => { c with flows := smInsert f { smGet {} f c.flows with assigned := true } c.flows })

/-- Whether a template takes arrivals at an input port, for a service (R433, R465). -/
def inPortCheck (s : State) (svc w port : Nat) : Option Nat :=
  let t := tmplOf s (w / 32768) (w % 16384)
  if !t.valid ∨ t.service ≠ svc ∨ t.kind = 2 then some Code.BAD_TEMPLATE
  else if t.kind = 0 ∧ t.nin ≤ port then some Code.BAD_PORT else none

/-- Whether a job class is unknown to a deadline service. -/
def badClass (s : State) (svc cls : Nat) : Bool :=
  (s.service? svc).any (fun v => v.deadline && !v.jobs.any (fun j => j.id == cls))

/-- The checks of INBOX_BIND in order (Table 17.6): a code, or the flow. -/
def inboxBindCheck (s : State) (c : Cmd) : Except Nat Nat :=
  let n := c.p 0x10 2
  let cn := c.ring - 1
  let svc := c.issuerSvc s
  let max := c.p 0x18 4
  let g := c.p 0x1E 2
  if 4096 ≤ n ∨ (smFind n s.fab.inboxes).isSome ∨ max < 64 ∨ 16777216 < max ∨ badClass s svc (c.p 0x1C 2) then .error Code.INBOX_RANGE
  else if c.p 0x12 2 ≠ cn then .error Code.BAD_CONTEXT
  else if (inRegion s cn).isNone then .error Code.NO_INGRESS
  else match inPortCheck s svc (c.p 0x14 2) (c.p 0x16 1) with
    | some e => .error e
    | none =>
      if g ≠ 0 ∧ !((groupOf s g).any (fun q => decide (q.svc = svc))) then .error Code.FAB_GROUP_BAD
      else match freeFlowNo s (((s.ctx? cn).map (fun x => x.home)).getD 0) with
        | none => .error Code.FLOW_FULL
        | some f => .ok f

/-- INBOX_BIND: an inbox of the issuer's context; credits go out (R465). -/
def execInboxBind (c : Cmd) (s : State) : Host.Outcome State Fault Refusal :=
  match inboxBindCheck s c with
  | .error e => .next (refuse s c e)
  | .ok f =>
    let cn := c.ring - 1
    let home := ((s.ctx? cn).map (fun x => x.home)).getD 0
    let w := c.p 0x14 2
    let x : Inbox := { svc := c.issuerSvc s, cn := cn, tmpl := w % 16384, die := w / 32768, port := c.p 0x16 1, maxMsg := c.p 0x18 4,
                       classId := c.p 0x1C 2, group := c.p 0x1E 2, flow := some f }
    let s := setInbox (giveFlow s home f) (c.p 0x10 2) x
    .next (creditsFor (finish s c Code.OK) cn)

/-- Whether a record of some sources is not yet passed (R437, R465). -/
def notPassed (s : State) (cn : Nat) (of_ : Nat → Bool) : Bool := (ingress s cn).recs.any (fun r => of_ r.src)

/-- INBOX_UNBIND (R465). -/
def execInboxUnbind (c : Cmd) (s : State) : Host.Outcome State Fault Refusal :=
  let n := c.p 0x10 2
  match smFind n s.fab.inboxes with
  | none => .next (refuse s c Code.INBOX_RANGE)
  | some x =>
    if x.svc ≠ c.issuerSvc s then .next (refuse s c Code.INBOX_RANGE)
    else if notPassed s x.cn (fun k => decide (2 ^ 20 ≤ k) && decide ((k - 2 ^ 20) / 4096 = n)) then .next (refuse s c Code.INBOX_BUSY)
    else .next (creditsFor (finish (unbindInbox s n) c Code.OK) x.cn)

/-- The queue pair that SESS_BIND or SESS_FWD sets up (Table 16.6). -/
def sessOf (c : Cmd) (cn : Nat) : Sess :=
  { st := 1, cn := cn, tmpl := 0, die := 0, port := 0, eth := c.p 0x17 1, rqpn := c.p 0x18 3, mtu := c.p 0x1B 1, psnRx := c.p 0x1C 3,
    dscp := c.p 0x1F 1 % 64, rgid := c.p 0x20 16, maxMsg := c.p 0x30 4, psnTx := c.p 0x34 3, prio := c.p 0x37 1, classId := 0xFFFF,
    rnrTimer := c.p 0x3A 1, ackTo := c.p 0x3B 1, sgid := c.p 0x3C 1 % 16, flow := none }

/-- A session number that cannot be bound, and values that no session takes (R433). -/
def sessTaken (s : State) (c : Cmd) : Bool := decide (16384 ≤ c.p 0x10 2) || (smFind (c.p 0x10 2) s.host.sess).isSome
def sessRange (c : Cmd) : Bool :=
  !(3 ≤ c.p 0x1B 1 && c.p 0x1B 1 ≤ 5) || decide (c.p 0x30 4 < 64) || decide (16777216 < c.p 0x30 4)

/-- SESS_FWD: a session that forwards each message to an inbox of another device (R466); it names a remote device, so
R449 refuses it before R456 does (log entry 72). -/
def execSessFwd (c : Cmd) (s : State) : Host.Outcome State Fault Refusal :=
  let fa := c.p 0x14 2
  if sessTaken s c ∨ sessRange c then .next (refuse s c Code.SESS_RANGE)
  else if c.p 0x12 2 ≠ c.ring - 1 then .next (refuse s c Code.BAD_CONTEXT)
  else match fabCheck s with
  | some e => .next (refuse s c e)
  | none =>
    if !reachable s fa then .next (refuse s c Code.UNREACHABLE)
    else
    let s := setSess s (c.p 0x10 2) { sessOf c (c.ring - 1) with fwd := some (fa, c.p 0x38 2) }
    .next (fwdCredits (finish s c Code.OK) fa (c.p 0x38 2))

end Sys2Proof.Machine
end

