-- ==== Sys2Proof/Machine/Log.lean ====
section
/-! DEFINITION. The event record in bytes, the Factor's log and the event queues: R479 to R481, R525 to R532, R543. -/

namespace Sys2Proof.Machine

/-- Table 20.1: the 32 bytes of an event record with a queue's phase. -/
def evBytes (r : EvRec) (phase : Bool) : List Byte :=
  leBytes 8 r.ts ++ leBytes 1 (catRow r.src.kind).code ++ leBytes 1 r.src.inst ++ leBytes 1 r.cls
    ++ leBytes 1 (b2n r.forced + 2 * b2n r.ctx.isSome + 4 * b2n r.afterLoss + 8 * b2n phase)
    ++ leBytes 2 r.code ++ leBytes 2 (r.ctx.getD 0) ++ leBytes 8 r.addr ++ leBytes 8 r.info

/-- Table 18.5: the 64 bytes of a log record. -/
def logBytes (l : LogRec) : List Byte :=
  let b := evBytes l.ev false ++ leBytes 8 l.seq ++ leBytes 4 l.boot ++ leBytes 2 (b2n l.fromFactor + 2 * b2n l.afterLoss) ++ List.replicate 14 0
  b ++ leBytes 4 (Hash.crc32c 0 b)

/-- A page write begins when none runs: up to 64 records, and the oldest 64 in flash give way when the ring is full (R480). -/
def startPage (f : FactorSt) : FactorSt :=
  if f.writing ≠ 0 ∨ f.sram = [] then f
  else
    let n := min 64 f.sram.length
    { f with writing := n, flash := f.flash.drop (f.flash.length + n - 262144) }

/-- Whether a block's records are the Factor's own (R479). -/
def fromFactor (b : Block) : Bool := b.kind == .factor || b.kind == .power

/-- A record reaches the Factor: logged, or lost and counted while 256 wait (R480). -/
def logRec (s : State) (r : EvRec) : State :=
  let f := s.fac
  if 256 ≤ f.sram.length then
    let io := (s.io.count bFactor Off.factor_LOG_LOST_CT 1).riseNamed bFactor 7 Cls.LOG Code.LOG_LOST none 0 1
    { s with fac := { f with logLoss := true }, io := io }
  else
    let l : LogRec := { ev := r, seq := f.nextSeq, boot := f.bootCount, fromFactor := fromFactor r.src, afterLoss := f.logLoss }
    let f := { f with sram := f.sram ++ [l], nextSeq := f.nextSeq + 1, logLoss := false }
    { s with fac := if 64 ≤ f.sram.length then startPage f else f }

/-- A queue's register (Table 20.8). -/
def qOff (q o : Nat) : Nat := bEvtq.base + o + 0x40 * q

def evtQueue (s : State) (q : Nat) : EvtQueue := smGet {} q s.evt.queues
def setEvtQueue (s : State) (q : Nat) (x : EvtQueue) : State := { s with evt := { s.evt with queues := smPut {} q x s.evt.queues } }

/-- A queue loses a record: LOST counts it, and the next record written has AFTER_LOSS (R531, R532). -/
def queueLost (s : State) (q n : Nat) : State :=
  let s := s.mapIo (fun io => (io.count bEvtq (Off.evtq_LOST + 0x40 * q) n).rise bEvtq 3)
  setEvtQueue s q { evtQueue s q with afterLoss := true }

/-- A record is written to a host ring, or lost while the ring is full; an armed queue fires (R531). -/
def ringRecord (s : State) (q : Nat) (r : EvRec) : State :=
  let size := 2 ^ s.io.fld (qOff q Off.evtq_CFG) 29 25
  let tail := s.io.reg (qOff q Off.evtq_TAIL)
  let head := s.io.fld (qOff q Off.evtq_ARM) 15 0
  if (tail + size - head % size) % size = size - 1 then queueLost s q 1
  else
    let x := evtQueue s q
    let s := hostWrite s (s.io.reg64 (qOff q Off.evtq_BASE_LO) + 32 * tail) (evBytes { r with afterLoss := r.afterLoss || x.afterLoss } x.phase)
    let wrap := decide (tail + 1 = size)
    let s := setEvtQueue s q { x with phase := if wrap then !x.phase else x.phase, armed := false, afterLoss := false }
    let s := s.mapIo (fun io => io.setReg (qOff q Off.evtq_TAIL) (if wrap then 0 else tail + 1))
    if x.armed then fireVector s (s.io.fld (qOff q Off.evtq_CFG) 24 14) else s

/-- A session that a queue may send on: RTS and with room for 1,024 bytes (R532). -/
def evtSess (s : State) (q : Nat) : Option (Nat × Sess) :=
  let n := s.io.fld (qOff q Off.evtq_CFG) 13 0
  (smFind n s.host.sess).bind (fun x => if x.st = 1 ∧ 1024 ≤ x.maxMsg then some (n, x) else none)

/-- A queue's waiting records go out as one message of up to 32, unless its session is held by its peer or unusable
(R532). -/
def sendBatch (s : State) (q : Nat) : State :=
  let x := evtQueue s q
  if x.batch = [] then s
  else match evtSess s q with
    | none => setEvtQueue (queueLost s q x.batch.length) q { x with batch := [], afterLoss := true }
    | some (n, y) =>
      if y.rnrHeld then s
      else
        let now := x.batch.take 32
        let s := setEvtQueue s q { x with batch := x.batch.drop 32 }
        sessSend s n y (now.flatMap (fun r => evBytes r false))

/-- A record for a session queue waits with its batch, which goes out at 32 records; beyond 1,024 it is lost (R532). -/
def sessRecord (s : State) (q : Nat) (r : EvRec) : State :=
  let x := evtQueue s q
  if (evtSess s q).isNone ∨ 1024 ≤ x.batch.length then queueLost s q 1
  else
    let s := setEvtQueue s q { x with batch := x.batch ++ [{ r with afterLoss := r.afterLoss || x.afterLoss }], afterLoss := false }
    if 32 ≤ x.batch.length + 1 then sendBatch s q else s

/-- Whether an enabled queue takes a record (R530). -/
def queueTakes (s : State) (q : Nat) (r : EvRec) : Bool :=
  decide (s.io.fld (qOff q Off.evtq_CFG) 31 31 = 1) && bitOf (s.io.reg (qOff q Off.evtq_CLASS_MASK)) r.cls &&
    (decide (s.io.fld (qOff q Off.evtq_CTX_EN) 31 31 = 0) || r.ctx == some (s.io.fld (qOff q Off.evtq_CTX_EN) 11 0))

/-- Whether the log takes a record: its class bit, or the Factor made it (R479, R530). -/
def logTakes (s : State) (r : EvRec) : Bool := bitOf (s.io.br bEvtq Off.evtq_LOG_MASK) r.cls || fromFactor r.src

/-- The log's copy of a record. -/
def toLog (s : State) (r : EvRec) : State := if logTakes s r then logRec s r else s

/-- A record goes to every target that takes it (R530). -/
def deliverRecord (s : State) (r : EvRec) : State :=
  let s := s.mapIo (fun io => io.count64 bEvtq Off.evtq_RECORDS_LO 1)
  let s := (List.range 16).foldl (fun s q =>
    if queueTakes s q r then (if s.io.fld (qOff q Off.evtq_CFG) 30 30 = 1 then sessRecord s q r else ringRecord s q r) else s) s
  toLog s r

/-- Records held at their sources enter the intake while it has room (R529). -/
def pullHeld (io : Io) : Io :=
  let n := 4096 - io.intake.length
  { io with intake := io.intake ++ io.held.take n, held := io.held.drop n }

/-- Every record in the intake and at the sources reaches the log alone (R530). -/
def allToLog (s : State) : State :=
  let rs := s.io.intake ++ s.io.held
  rs.foldl toLog { s with io := { s.io with intake := [], held := [] } }

/-- EVENT_RECORD_INTAKE: EVTQ hands on the oldest accepted record (R529, R530). -/
def execEventRecordIntake (s : State) : Host.Outcome State Fault Refusal :=
  match s.io.intake with
  | [] => .next s
  | r :: rest => .next (deliverRecord { s with io := pullHeld { s.io with intake := rest } } r)

/-- EVENT_BATCH_TIMEOUT: 100 µs after its first record a session queue sends its batch (R532). -/
def execEventBatchTimeout (q : Nat) (s : State) : Host.Outcome State Fault Refusal := .next (sendBatch s q)

/-- ARM: a write of a queue's HEAD, and of ARM, which fires at once when records are unconsumed (R531). -/
def execArmWrite (who : Requester) (q : Nat) (value : W32) (s : State) : Host.Outcome State Fault Refusal :=
  let off := qOff q Off.evtq_ARM
  match writeAllowed s.io who bEvtq off with
  | some io => .next { s with io := io }
  | none =>
    if 16 ≤ q then .next s
    else
      let v := value.toNat
      let s := s.mapIo (fun io => io.setReg off (bitsOf v 15 0))
      if !bitOf v 31 then .next s
      else if s.io.reg (qOff q Off.evtq_TAIL) ≠ bitsOf v 15 0 ∧ s.io.fld (qOff q Off.evtq_CFG) 31 30 = 2 then
        .next (fireVector (setEvtQueue s q { evtQueue s q with armed := false }) (s.io.fld (qOff q Off.evtq_CFG) 24 14))
      else .next (setEvtQueue s q { evtQueue s q with armed := true })

/-- QUEUE_CFG_WRITE: enables or disables a queue; any other write of an enabled queue is refused (R543). -/
def execQueueCfgWrite (who : Requester) (q : Nat) (value : W32) (s : State) : Host.Outcome State Fault Refusal :=
  let off := qOff q Off.evtq_CFG
  match writeAllowed s.io who bEvtq off with
  | some io => .next { s with io := io }
  | none =>
    let v := value.toNat
    if 16 ≤ q then .next s
    else if s.io.fld off 31 31 = 1 then
      if bitOf v 31 then .next { s with io := s.io.capture bEvtq Code.RING_BUSY off }
      else .next (s.mapIo (fun io => io.setReg off v))
    else
      let n := bitsOf v 29 25
      let ok := bitOf v 31 && decide (6 ≤ n) && decide (n ≤ 16) && (bitOf v 30 || decide (s.io.reg64 (qOff q Off.evtq_BASE_LO) % 4096 = 0))
      if !ok then .next (s.mapIo (fun io => io.setReg off (v % 2 ^ 31)))
      else
        let s := s.mapIo (fun io => ((io.setReg off v).setReg (qOff q Off.evtq_TAIL) 0).setReg (qOff q Off.evtq_ARM) 0)
        .next (setEvtQueue s q { evtQueue s q with phase := true, armed := false })

/-- LOG_FLUSH_TIMEOUT: a page write starts 100 ms after the oldest waiting record arrived (R480). -/
def execLogFlushTimeout (s : State) : Host.Outcome State Fault Refusal := .next { s with fac := startPage s.fac }

/-- LOG_PAGE_WRITTEN: the page's records leave SRAM, and another page starts when 64 wait (R480). -/
def execLogPageWritten (s : State) : Host.Outcome State Fault Refusal :=
  let f := s.fac
  let n := f.writing
  let f := { f with flash := f.flash ++ f.sram.take n, sram := f.sram.drop n, writing := 0 }
  .next { s with fac := if 64 ≤ f.sram.length then startPage f else f }

end Sys2Proof.Machine
end

