-- ==== Sys2Proof/Machine/Wipe.lean ====
section
/-! DEFINITION. What the resets of a core, a cluster, a die and a block end and wipe (R493, R507, R509, Tables 18.8
and 19.7), and the withdrawal of negotiation (R49). -/

namespace Sys2Proof.Machine

/-- The blocks of a core, a cluster and a die (Table 19.4). -/
def coreBlocks (n : Nat) : List Block := [bCore n, bCarter n]
def clusterBlocks (c : Nat) : List Block := (List.range 8).flatMap (fun i => coreBlocks (8 * c + i)) ++ [bAssayer c, bEgp c, bWinnower c]
def dieBlocks (d : Nat) : List Block :=
  (List.range 6).flatMap (fun i => clusterBlocks (6 * d + i)) ++ [bCaller d, ⟨.noc, d⟩, bMerge d, bWeaver (2 * d), bWeaver (2 * d + 1)]
    ++ (List.range 4).map (fun i => ⟨.hbm, 4 * d + i⟩)

/-- The blocks that a reset scope wipes (Table 19.4); the CLKRST page lies in the standby island and outlives a warm
reset (R524). -/
def Scope.blocks : Scope → List Block
  | .block b => [b]
  | .core n => coreBlocks n
  | .cluster c => clusterBlocks c
  | .die d => dieBlocks d
  | .warm => allBlocks.filter (fun b => b.kind != .factor && b.kind != .power && b.kind != .clkrst)
  | .cold => allBlocks

/-- The cores of a scope. -/
def Scope.cores (x : Scope) : List Nat := x.blocks.filterMap (fun b => if b.kind = .fcore then some b.inst else none)

/-- Whether scope `y` lies within scope `x` (R507, R508). -/
def Scope.within (y x : Scope) : Bool := y.blocks.all (fun b => x.blocks.contains b)

/-- The first stage of an instance that has not finished. -/
def instStageAt (x : FusedInst) : Nat :=
  if !x.stage0Done then 0 else ((x.bufs.zipIdx.find? (fun e => e.1 != [])).map (fun e => e.2 + 1)).getD 0

/-- Every stream of a core is closed where it stands, and its lines are forgotten (R509). -/
def closeAllStrms (s : State) (n : Nat) : State :=
  let s := (strmsOf s n (fun x => x.st != 0)).foldl (fun s k => if (s.strm n k).reads then closeRead s n k else closeStrm s n k) s
  endGangs { s with fetch := { s.fetch with lines := s.fetch.lines.filter (fun r => r.core ≠ n) } }

/-- The task in a core's NEXT register is ready again; one that a round gave to this core alone ends (R509). -/
def requeueNext (s : State) (n : Nat) : State :=
  match takeNext s n with
  | none => s
  | some (t, s) =>
    if t.only.isSome then dropTask s t n Code.CORE_RESET
    else s.mapCaller t.die (fun cl => { cl with ready := cl.ready ++ [t] })

/-- A core as its reset leaves it: SRAM, instruction memory and registers zero (Table 18.8), its sequences lost (R180),
the places of its carried state kept. -/
def freshCore (c : CoreSt) (now : Nat) (imem : SMap Byte) : CoreSt :=
  let seqs := c.seqs.filterMap (fun e =>
    if e.2.carryLen = 0 then none else some (e.1, ({ carry := e.2.carry, carryLen := e.2.carryLen } : Seq)))
  { serial := c.serial, asks := c.asks, sends := c.sends, opens := c.opens, seqs := seqs, imem := imem, resetAt := now, idleAt := now,
    mode := c.mode }

/-- What the reset of a core ends and wipes: its task ends CORE_RESET, an instance anchored on it fails (R509). -/
def coreWipe (imem : Bool) (s : State) (n : Nat) : State :=
  let s := closeAllStrms s n
  let s := requeueNext s n
  let s := leaveTask s n Code.CORE_RESET 0 true .waiting
  let s := s.call.foldl (fun s e => s.mapCaller e.1 (fun cl => { cl with held := cl.held.filter (fun k => !(k.src == .core n)) })) s
  let s := { s with assay := { s.assay with queue := s.assay.queue.map (fun (e : Nat × List AssayReq) => (e.1, e.2.filter (fun q => q.core ≠ n))) } }
  let s := s.setCore n { s.core n with fence := false, peds := [], pres := [], assay := [], mmas := [] }
  let s := housekeep s
  let mine := s.adm.insts.filter (fun x => x.anchor == some n && x.failed.isNone && x.ended.isNone)
  let s := settleAll (mine.foldl (fun s x => stageFail s x.id (instStageAt x) Code.BLOCK_RESET) s)
  let s := s.setCore n (freshCore (s.core n) s.io.tb (if imem then (s.core n).imem else []))
  let s := finishCancels (s.mapIo (fun io => (io.resetRegs (bCore n)).resetRegs (bCarter n)))
  setMode s n 1 0

/-- Queued lookups of an Assayer are answered as misses when it is reset. -/
def assayDrop (s : State) (u : Nat) : State :=
  let q := smGet [] u s.assay.queue
  let s := { s with assay := { s.assay with queue := smErase u s.assay.queue } }
  q.foldl (fun s r => assayAnswer s r 0 0 false 0) s

/-- An Assayer's array, shadow, table slots and counters are zeroed (R249). -/
def assayWipe (s : State) (u : Nat) : State := (clearRows (assayDrop s u) [u] 0 32768).mapIo (fun io => io.resetRegs (bAssayer u))

/-- An EGP's requests end BLOCK_RESET; its sketch, hot rows and counters are lost (R276). -/
def egpWipe (s : State) (u : Nat) : State :=
  let s := resetRuns s true u
  let s := (unitQueue s true u).foldl (fun s r => fenceForget (endReq s true u r Code.BLOCK_RESET) r.serial) s
  let gone := s.egp.hot.filterMap (fun r => match tabAt s r.table with
    | some t => if t.home = u / 6 ∧ !s.egp.lost.contains (u, r.table, r.row) then some (u, r.table, r.row) else none
    | none => none)
  let s := { s with egp := { s.egp with heat := smErase u s.egp.heat, lost := s.egp.lost ++ gone } }
  s.mapIo (fun io => io.resetRegs (bEgp u))

/-- A queued Winnower request ends BLOCK_RESET; a merge member's instance is aborted (R291, R509). -/
def winDrop (s : State) (u : Nat) (r : UReq) : State :=
  let s := cancelOne s false u r
  endReq s false u r Code.BLOCK_RESET

/-- A Winnower's requests end BLOCK_RESET, those that wait at the merge tree with them. -/
def winWipe (s : State) (u : Nat) : State :=
  let s := resetRuns s false u
  let s := (unitQueue s false u).foldl (fun s r => winDrop s u r) s
  let hit : MemberPart → Bool := fun p => p.req.any (fun q => q.1 == u)
  let parts := s.merge.insts.flatMap (fun x => (x.parts.filter hit).map (fun p => (x.die, x.group, x.n, p)))
    ++ s.merge.flight.filter (fun e => hit e.2.2.2)
  let clear : MemberPart → MemberPart := fun p => if hit p then { p with req := none } else p
  let s := { s with merge := { s.merge with
    insts := s.merge.insts.map (fun x => { x with parts := x.parts.map clear })
    flight := s.merge.flight.map (fun e => (e.1, e.2.1, e.2.2.1, clear e.2.2.2)) } }
  let s := parts.foldl (fun s e =>
    let s := match e.2.2.2.req with
      | some (v, r) => endMember s v r Code.BLOCK_RESET
      | none => s
    completeInsts (mergeAbort s e.1 e.2.1 e.2.2.1) e.1 e.2.1 (s.merge.insts.length + 1)) s
  s.mapIo (fun io => io.resetRegs (bWinnower u))

/-- What the reset of a cluster ends and wipes (Table 18.8). -/
def clusterWipe (imem : Bool) (s : State) (c : Nat) : State :=
  let s := (List.range 8).foldl (fun s i => coreWipe imem s (8 * c + i)) s
  winWipe (egpWipe (assayWipe s c) c) c

/-- A die's Weaver ends its copies (R333). -/
def weaverWipe (s : State) (u : Nat) : State := (stopCopies s (fun _ => true) [u] Code.BLOCK_RESET).mapIo (fun io => io.resetRegs (bWeaver u))

/-- A die's merge tree drops every open instance (R291, R509). -/
def mergeWipe (s : State) (d : Nat) : State :=
  let s := (s.merge.insts.filter (fun x => x.die == d)).foldl (fun s x =>
    completeInsts (mergeAbort s d x.group x.n) d x.group (s.merge.insts.length + 1)) s
  let s := { s with merge := { s.merge with flight := s.merge.flight.filter (fun e => e.1 ≠ d) } }
  s.mapIo (fun io => io.resetRegs (bMerge d))

/-- An instance of a reset Caller ends BLOCK_RESET, its release dropped (R509). -/
def instDrop (s : State) (x : FusedInst) : State :=
  let s := setInst s { x with failed := some (instStageAt x * 2 ^ 24 + Code.BLOCK_RESET) }
  let s := instStop s { x with failed := some (instStageAt x * 2 ^ 24 + Code.BLOCK_RESET) }
  instComplete s x Code.BLOCK_RESET 0

/-- Tokens, tasks, timer entries and held releases of a Caller are dropped (R509): a TOKEN_PUT that waits completes
BLOCK_RESET, ingress records pass, routes count as failed.  With `keep` its templates and flows stand, as admission
writes them back. -/
def callerWipe (keep : Bool) (s : State) (d : Nat) : State :=
  let s := (s.adm.insts.filter (fun x => x.die == d)).foldl (fun s x => instDrop s x) s
  let cl := s.caller d
  let tasks := cl.ready ++ cl.next.map Prod.snd ++ cl.ended.map (fun e => e.task) ++ ((s.expert.fired.filter (fun f => f.die == d)).map (fun f => f.task))
  let flows := cl.flows.map Prod.snd
  let toks := cl.toks ++ cl.held ++ flows.flatMap (fun f => f.window.flatMap (fun w => w.tokens))
    ++ (s.expert.batches.filter (fun b => b.die == d)).flatMap (fun b => b.toks)
  let arrs := tasks.flatMap (fun t => t.arrs) ++ toks.flatMap (fun k => k.arr.toList) ++ flows.flatMap (fun f => f.window.flatMap (fun w => w.arrs))
  let kept := if keep then cl.flows.filterMap (fun e => if e.2.assigned then some (e.1, ({ assigned := true } : Flow)) else none) else []
  let s := s.setCaller d { tmpls := if keep then cl.tmpls else [], lastId := cl.lastId, flows := kept }
  let x := s.expert
  let x : ExpertSt := { x with batches := x.batches.filter (fun b => b.die ≠ d), fired := x.fired.filter (fun f => f.die ≠ d),
                               rounds := x.rounds.filter (fun r => r.die ≠ d) }
  let s := { s with expert := x }
  let s := (toks.filterMap (fun k => if k.src = .routeReturn then none else k.grp) ++ tasks.flatMap (fun t => t.grps)).foldl (fun s g => routeDone s g false) s
  let s := { s with expert := { s.expert with groups := s.expert.groups.filter (fun g => g.die ≠ d) } }
  let s := toks.foldl (fun s k => match k.cmd with
    | some c => finish s c Code.BLOCK_RESET
    | none => s) s
  let s := ((arrs.map (fun a => a.1)).eraseDups).foldl (fun s cn => passRecords s cn (arrs.filter (fun a => a.1 == cn))) s
  s.mapIo (fun io => io.resetRegs (bCaller d))

/-- What the reset of a die ends and wipes; admission then writes templates, flows, instruction memory and Assayer table
slots back (R509). -/
def dieWipe (s : State) (d : Nat) : State :=
  let offs := (List.range 6).flatMap (fun i => (List.range 8).flatMap (fun k => (List.range 6).map (fun j => (bAssayer (6 * d + i)).base + 0x100 + 0x40 * k + 4 * j)))
  let slots := offs.map (fun o => (o, s.io.reg o))
  let s := (List.range 6).foldl (fun s i => clusterWipe true s (6 * d + i)) s
  let s := weaverWipe (weaverWipe s (2 * d)) (2 * d + 1)
  let s := callerWipe true (mergeWipe s d) d
  let s := ((⟨.noc, d⟩ : Block) :: (List.range 4).map (fun i => ⟨.hbm, 4 * d + i⟩)).foldl (fun s b => s.mapIo (fun io => io.resetRegs b)) s
  housekeep (s.mapIo (fun io => slots.foldl (fun io e => io.setReg e.1 e.2) io))

/-- Negotiation is withdrawn (R49): no feature, IDLE, and the control ring is gone while the bases, the vector and BAR2
bits of its registers stay. -/
def withdraw (io : Io) : Io :=
  let io := (io.setReg64 (bGlb.base + Off.glb_FEAT_LO) 0).setBf bGlb Off.glb_NEG_STAT 1 0 0
  (io.setBf bCtxt Off.ctxt_CTRL_RING 15 11 0).setBf bCtxt Off.ctxt_CTRL_RING 20 16 0

/-- R49 with the ring itself. -/
def withdrawAll (s : State) : State :=
  { s with io := withdraw s.io, host := { s.host with rings := smErase 0 s.host.rings, keptDb := none } }

end Sys2Proof.Machine
end

