-- ==== Sys2Proof/Machine/FactorOps.lean ====
section
/-! DEFINITION. What the Factor's commands and the resets share: its records, the mailbox (R473, Table 18.2), images and
boot (R483, R484), life-cycle states (R489), calibration copies (R496, R497). -/

namespace Sys2Proof.Machine

/-- Whether the core rails are up (R513, R516). -/
def railsUp (s : State) : Bool := s.rst.pwrGood

/-- A record that the Factor makes: with the event queues while EVTQ is up, and else to the log alone (R479). -/
def facRecord (s : State) (b : Block) (cls code addr info : Nat) : State :=
  let r := s.io.mkRec b cls code none addr info
  if s.io.ready bEvtq then { s with io := s.io.emit r } else logRec s r

/-- The same with an event bit. -/
def facNote (s : State) (b : Block) (bit cls code info : Nat) : State :=
  facRecord (s.mapIo (fun io => io.riseQuiet b bit)) b cls code 0 info

/-- Write bytes to consecutive registers; bytes of the last word past their end keep their value. -/
def putRegBytes (io : Io) (off : Nat) (bs : List Byte) : Io :=
  (List.range ((bs.length + 3) / 4)).foldl (fun io i =>
    let w := (bs.drop (4 * i)).take 4
    let m := 2 ^ (8 * w.length)
    io.setReg (off + 4 * i) (leNat w + io.reg (off + 4 * i) / m * m)) io

/-- Bytes of consecutive registers. -/
def regBytes (io : Io) (off n : Nat) : List Byte := ((List.range ((n + 3) / 4)).flatMap (fun i => leBytes 4 (io.reg (off + 4 * i)))).take n

/-- Offsets of the mailbox areas (R500). -/
def mbxReq : Nat := bFactor.base + 0x1040
def mbxRsp : Nat := bFactor.base + 0x2040

/-- An answer to a mailbox command (Table 18.2): to the host in MBX_RSP with MBX_DONE, or over the MCTP transport that
asked (R473, R482). -/
def facAnswer (s : State) (src : Option Nat) (op status : Nat) (payload : List Byte) : State :=
  let bs := leBytes 1 op ++ [0] ++ leBytes 2 status ++ leBytes 4 payload.length ++ payload
  match src with
  | none =>
    let seq := (s.fac.mbx.map Prod.fst).getD 0
    let io := (putRegBytes s.io mbxRsp bs).setReg (bFactor.base + Off.factor_MBX_STAT) (2 ^ 31 + seq)
    { s with fac := { s.fac with mbx := none }, io := io.rise bFactor 2 }
  | some t => s.mapIo (fun io => io.send ⟨"MCTP_7E", t, 0, bs⟩)

/-- Fields of a firmware image header (R483). -/
def imgField (img : List Byte) (o n : Nat) : Nat := fieldAt img o n
def imgSvn (img : List Byte) : Nat := imgField img 2 2
def imgVersion (img : List Byte) : Nat := imgField img 8 4

/-- Whether an image is valid (R483): its header, its key slot, its signature, its body and its SVN. -/
def imageValid (f : Fuses) (img : List Byte) : Bool :=
  let hdr := img.take 512
  let k := imgField img 1 1
  let len := imgField img 4 4
  let key := Config.vendorKey k
  decide (hdr.length = 512) && decide (imgField img 0 1 = 1) && decide (k < 4) && decide (imgSvn img < 64)
    && decide (len ≤ 32 * 2 ^ 20 - 512) && decide (512 + len ≤ img.length)
    && ((hdr.drop 0x0C).take 0x34).all (fun b => decide (b = 0)) && ((hdr.drop 0x70).take 0x90).all (fun b => decide (b = 0))
    && (hdr.drop 0x160).all (fun b => decide (b = 0))
    && decide (f.keys.getD k [] = Config.sha384 key) && !f.revoked.getD k true
    && Config.ecdsaVerify key (Config.sha384 (img.take 256)) ((img.drop 0x100).take 96)
    && decide ((img.drop 0x40).take 48 = Config.sha384 ((img.drop 512).take len))
    && decide (f.floor ≤ imgSvn img)

/-- A firmware slot's image, and whether the ROM may boot it (R484). -/
def slotImage (f : FactorSt) (i : Nat) : List Byte := f.slots.getD i []
def slotBoots (f : FactorSt) (i : Nat) : Bool := imageValid f.fuses (slotImage f i) && !f.failed.getD i true

/-- The life-cycle state that the fuses give (R489). -/
def Fuses.state (f : Fuses) : Nat :=
  if f.returned then 4 else if f.closes < f.opens then 3 else if f.commit then 2 else if f.owner.isSome then 1 else 0

/-- The calibration copy in use: the higher GEN of those with a good CRC (R496). -/
def calUse (f : FactorSt) : Option Nat :=
  match f.cal.getD 0 {}, f.cal.getD 1 {} with
  | a, b => if a.good ∧ (!b.good ∨ b.gen ≤ a.gen) then some 0 else if b.good then some 1 else none

/-- The Factor's SRAM is lost (R480, R493). -/
def factorWiped (f : FactorSt) : FactorSt :=
  { f with sram := [], writing := 0, logLoss := false, booted := none, mbx := none, nonce := none, lcRun := none, update := none,
           eids := [0, 0], spdm := [[], []], sensors := [], warned := false, hot := false, power := [], lowAmps := 0, tap := false,
           fillT2 := false, fillT3 := false }

/-- The Factor's ROM boots the active slot, or the other one, or stays in recovery (R484); fuses and calibration are read
(R489, R497). -/
def factorBoot (s : State) : State :=
  let f := s.fac
  let a := f.active
  let b := 1 - a
  let s :=
    if slotBoots f a then { s with fac := { f with booted := some a } }
    else if slotBoots f b then
      facNote { s with fac := { f with booted := some b, failed := setAt f.failed a true } } bFactor 4 Cls.SECURITY Code.FW_FALLBACK a
    else { s with fac := { f with booted := none } }
  let s := { s with fac := { s.fac with lc := s.fac.fuses.state } }
  if (calUse s.fac).isNone then facNote s bFactor 6 Cls.SECURITY Code.CAL_BAD 0 else s

end Sys2Proof.Machine
end

