-- ==== Sys2Proof/Machine/Rings.lean ====
section
/-! DEFINITION. Rings, doorbells, envelopes and MSI-X: R360 to R365, R370, R419 to R428. -/

namespace Sys2Proof.Machine

/-- Whether a ring of 2^n entries lies in the ring area of BAR2 (R421). -/
def inRingArea (base n : Nat) : Bool := decide (0x1000000 ≤ base) && decide (base + 64 * 2 ^ n ≤ 0x3FF0000)

/-- A size that no ring has (R421). -/
def badLog2 (n : Nat) : Bool := decide (n < 4) || decide (16 < n)

/-- A base that no ring has. -/
def badBase (bar2 : Bool) (base n : Nat) : Bool := decide (base % 4096 ≠ 0) || (bar2 && !inRingArea base n)

/-- The control rings that values of the CTXT registers set: none while a size is 0 (R421). -/
def ctrlRing (sq cq r : Nat) : Option Ring :=
  let sl := bitsOf r 15 11
  let cl := bitsOf r 20 16
  if sl = 0 ∨ cl = 0 then none
  else some { sqBase := sq, sqLog2 := sl, sqBar2 := bitOf r 9, cqBase := cq, cqLog2 := cl, cqBar2 := bitOf r 10, vector := bitsOf r 31 21 }

/-- Whether control rings break the rules of R421. -/
def badCtrl (r : Ring) : Bool := badBase r.sqBar2 r.sqBase r.sqLog2 || badBase r.cqBar2 r.cqBase r.cqLog2

/-- A write of a control-ring register of the CTXT page, its 64-bit bases whole (R421). -/
def ctrlRingWrite (s : State) (off value : Nat) : State :=
  let o := off - bCtxt.base
  let cap : Nat → State := fun code => s.mapIo (fun io => io.capture bCtxt code off)
  if negState s.io = 2 then cap Code.RING_BUSY
  else
    let sq := if o = Off.ctxt_CTRL_SQ_BASE_LO then value else s.io.reg64 (bCtxt.base + Off.ctxt_CTRL_SQ_BASE_LO)
    let cq := if o = Off.ctxt_CTRL_CQ_BASE_LO then value else s.io.reg64 (bCtxt.base + Off.ctxt_CTRL_CQ_BASE_LO)
    let r := if o = Off.ctxt_CTRL_RING then value % 2 ^ 32 / 512 * 512 else s.io.br bCtxt Off.ctxt_CTRL_RING
    let bad : Nat → Bool := fun n => decide (n ≠ 0) && badLog2 n
    let new := ctrlRing sq cq r
    if bad (bitsOf r 15 11) ∨ bad (bitsOf r 20 16) ∨ new.any badCtrl then cap Code.RING_RANGE
    else
      let s := s.mapIo (fun io => ((io.setReg64 (bCtxt.base + Off.ctxt_CTRL_SQ_BASE_LO) sq).setReg64 (bCtxt.base + Off.ctxt_CTRL_CQ_BASE_LO) cq).setReg
        (bCtxt.base + Off.ctxt_CTRL_RING) r)
      { s with host := { s.host with keptDb := none, rings := match new with
          | some x => smInsert 0 x s.host.rings
          | none => smErase 0 s.host.rings } }

/-- CTRL_RING_WRITE (R421). -/
def execCtrlRingWrite (who : Requester) (off : Nat) (value : W64) (s : State) : Host.Outcome State Fault Refusal :=
  let o := off - bCtxt.base
  if o ≠ Off.ctxt_CTRL_SQ_BASE_LO ∧ o ≠ Off.ctxt_CTRL_CQ_BASE_LO ∧ o ≠ Off.ctxt_CTRL_RING then .next s
  else match writeAllowed s.io who bCtxt off with
  | some io => .next { s with io := io }
  | none => .next (ctrlRingWrite s off value.toNat)

/-- Two spans of the ring area that meet. -/
def areaMeets (a n b m : Nat) : Bool := decide (a < b + 64 * 2 ^ m) && decide (b < a + 64 * 2 ^ n)

/-- Whether a ring of BAR2 overlaps a ring of another context (R422). -/
def ringOverlaps (s : State) (k base n : Nat) : Bool :=
  s.host.rings.any (fun e => decide (e.1 ≠ k) &&
    ((e.2.sqBar2 && areaMeets base n e.2.sqBase e.2.sqLog2) || (e.2.cqBar2 && areaMeets base n e.2.cqBase e.2.cqLog2)))

/-- Whether a length is a power of two from 64 KiB to 4 GiB. -/
def ingressLen (n : Nat) : Bool := (List.range 17).any (fun i => decide (n = 2 ^ (16 + i)))

/-- Whether a handle may be the IN_REGION of a context (R422). -/
def inRegionOk (s : State) (x : Ctx) (h : Nat) : Bool :=
  match regionOf s h with
  | none => false
  | some r =>
    let home := match windowOf r.base with
      | some (.t1 k, _) => decide (k / 4 = x.home)
      | _ => false
    decide (r.tier = 1) && home && bitOf r.perm 0 && scopeOk r ⟨x.cn + 1, x.svc⟩ && ingressLen r.len

/-- The ring pair that RING_SET names (Table 16.2). -/
def ringOf (c : Cmd) : Ring :=
  let f := c.p 0x16 1
  { sqBase := c.p 0x18 8, sqLog2 := c.p 0x12 1, sqBar2 := bitOf f 0, cqBase := c.p 0x20 8, cqLog2 := c.p 0x13 1, cqBar2 := bitOf f 1,
    vector := c.p 0x14 2, irqAll := bitOf f 2, modCount := c.p 0x17 1, modTime := c.p 0x28 2, inRegion := c.p 0x2C 4 }

/-- The checks of RING_SET in order (R422). -/
def ringSetCheck (s : State) (c : Cmd) : Option Nat :=
  let cn := c.p 0x10 2
  match s.ctx? cn with
  | none => some Code.NO_CONTEXT
  | some x =>
    let r := ringOf c
    if s.adm.cmds.any (fun q => q.cmd.ring == cn + 1) || (s.ring? (cn + 1)).any (fun q => q.sqHead != q.sqTail) then some Code.RING_BUSY
    else if badLog2 r.sqLog2 || badLog2 r.cqLog2 || badBase r.sqBar2 r.sqBase r.sqLog2 || badBase r.cqBar2 r.cqBase r.cqLog2
      || (r.sqBar2 && ringOverlaps s (cn + 1) r.sqBase r.sqLog2) || (r.cqBar2 && ringOverlaps s (cn + 1) r.cqBase r.cqLog2)
      || decide (2047 < r.vector) || (decide (r.inRegion ≠ 0) && !inRegionOk s x r.inRegion) then some Code.RING_RANGE
    else none

/-- RING_SET: the rings of a context are set, empty and armed; a new ingress ring is empty (R422, R428). -/
def execRingSet (c : Cmd) (s : State) : Host.Outcome State Fault Refusal :=
  match ringSetCheck s c with
  | some e => .next (refuse s c e)
  | none =>
    let cn := c.p 0x10 2
    let r := ringOf c
    let same := (s.ring? (cn + 1)).any (fun q => q.inRegion == r.inRegion)
    let s := s.setRing (cn + 1) r
    let s := if same then s else { s with host := { s.host with ing := smErase cn s.host.ing } }
    .next (creditsFor (finish s c Code.OK) cn)

/-- A doorbell write that is discarded (R425). -/
def dbDiscard (s : State) (slot o : Nat) (stale : Bool) : State :=
  let a := slot * 4096 + o
  s.mapIo (fun io => if stale then (io.count bCtxt Off.ctxt_DB_STALE 1).capture bCtxt Code.DOORBELL_STALE a
    else io.capture bCtxt Code.DOORBELL_RANGE a)

/-- The ring that a doorbell write to a slot reaches (R425): none when it is stale. -/
def dbRing (s : State) (slot cn : Nat) : Option (Nat × Ring) :=
  let k := if slot = 0 then (if cn = 0 then some 0 else none)
    else if s.cnOfSlot slot = some cn then some (cn + 1) else none
  k.bind (fun k => (s.ring? k).map (fun r => (k, r)))

/-- SQ_DB: a new tail; before negotiation has completed that of slot 0 is kept (R50, R425). -/
def execSqDb (slot : Nat) (value : W32) (s : State) : Host.Outcome State Fault Refusal :=
  let v := value.toNat
  match dbRing s slot (v / 65536) with
  | none => .next (dbDiscard s slot 0 true)
  | some (k, r) =>
    let t := v % 65536
    if 2 ^ r.sqLog2 ≤ t then .next (dbDiscard s slot 0 false)
    else if slot = 0 ∧ negState s.io ≠ 2 then .next { s with host := { s.host with keptDb := some t } }
    else .next (s.setRing k { r with sqTail := t })

/-- CQ_DB: the consumed head; held records are written while there is room (R424, R425). -/
def execCqDb (slot : Nat) (value : W32) (s : State) : Host.Outcome State Fault Refusal :=
  let v := value.toNat
  match dbRing s slot (v / 65536) with
  | none => .next (dbDiscard s slot 4 true)
  | some (k, r) =>
    let h := v % 65536
    if 2 ^ r.cqLog2 ≤ h then .next (dbDiscard s slot 4 false)
    else .next (drainRing (s.setRing k { r with cqHead := h }) k (r.held.length + 1))

/-- CQ_ARM: the ring is armed, and fires at once when records are unconsumed (R428). -/
def execCqArm (slot : Nat) (value : W32) (s : State) : Host.Outcome State Fault Refusal :=
  let v := value.toNat
  match dbRing s slot (v / 65536) with
  | none => .next (dbDiscard s slot 8 true)
  | some (k, r) =>
    if !bitOf v 0 then .next s
    else if r.cqTail ≠ r.cqHead then .next (fireVector (s.setRing k { r with armed := false, pend := 0 }) r.vector)
    else .next (s.setRing k { r with armed := true, pend := 0 })

/-- MOD_TIME_EXPIRY: MOD_TIME after the first pending signal an armed ring fires (R428). -/
def execModTimeExpiry (ring : Nat) (s : State) : Host.Outcome State Fault Refusal :=
  match s.ring? ring with
  | none => .next s
  | some r =>
    if r.armed ∧ r.pend ≠ 0 ∧ r.modTime ≠ 0 ∧ r.pendAt + 100 * r.modTime ≤ s.io.tb then
      .next (fireVector (s.setRing ring { r with armed := false, pend := 0 }) r.vector)
    else .next s

/-- The command that the 64 bytes of an envelope spell (Table 13.7). -/
def parseCmd (bs : List Byte) (ring pos : Nat) : Cmd :=
  let f := fieldAt bs 2 1
  { ring := ring, pos := pos, tag := fieldAt bs 8 8, op := fieldAt bs 1 1, fence := bitOf f 0, silent := bitOf f 1, irq := bitOf f 2,
    ctx := fieldAt bs 4 2, param := (bs.drop 16).take 48 }

/-- Spans of PARAM bits that an opcode uses: byte offset, low bit, width (Tables 13.9, 14.4, 16.2, 16.6, 17.6); none for
a reserved opcode. -/
def paramSpans (op : Nat) : Option (List (Nat × Nat × Nat)) :=
  match op with
  | 0x01 => some []
  | 0x02 => some [(0x10, 0, 52), (0x18, 0, 52), (0x20, 0, 4), (0x21, 0, 4)]
  | 0x03 => some [(0x10, 0, 32)]
  | 0x04 => some [(0x10, 0, 16), (0x14, 0, 32), (0x18, 0, 64)]
  | 0x05 => some [(0x10, 0, 16)]
  | 0x08 => some [(0x10, 0, 8), (0x11, 0, 8), (0x12, 0, 16), (0x14, 0, 32), (0x18, 0, 32)]
  | 0x09 => some [(0x10, 0, 16), (0x12, 0, 8), (0x14, 0, 32), (0x18, 0, 32)]
  | 0x0A => some [(0x10, 0, 8), (0x14, 0, 32)]
  | 0x0B => some [(0x10, 0, 16), (0x12, 0, 8), (0x14, 0, 32), (0x18, 0, 32)]
  | 0x0C => some [(0x10, 0, 16), (0x12, 0, 16), (0x14, 0, 24), (0x18, 0, 8), (0x19, 0, 8)]
  | 0x10 => some [(0x10, 0, 16), (0x12, 0, 8), (0x18, 0, 64), (0x20, 0, 64), (0x28, 0, 64), (0x30, 0, 64), (0x38, 0, 64)]
  | 0x11 => some [(0x10, 0, 14), (0x11, 7, 1), (0x12, 0, 8), (0x18, 0, 64), (0x20, 0, 64)]
  | 0x12 => some [(0x10, 0, 8), (0x14, 0, 32), (0x18, 0, 64)]
  | 0x20 => some [(0x10, 0, 32), (0x18, 0, 64), (0x20, 0, 64)]
  | 0x21 => some [(0x10, 0, 32), (0x18, 0, 64), (0x20, 0, 64)]
  | 0x22 => some [(0x10, 0, 16)]
  | 0x23 => some [(0x10, 0, 16)]
  | 0x24 => some [(0x10, 0, 16)]
  | 0x25 => some [(0x10, 0, 16)]
  | 0x30 => some [(0x10, 0, 16), (0x12, 0, 8), (0x13, 0, 8), (0x14, 0, 16), (0x16, 0, 3), (0x17, 0, 8), (0x18, 0, 64), (0x20, 0, 64),
                  (0x28, 0, 16), (0x2C, 0, 32)]
  | 0x31 => some [(0x10, 0, 16), (0x12, 0, 16), (0x14, 0, 14), (0x15, 7, 1), (0x16, 0, 8), (0x17, 0, 8), (0x18, 0, 24), (0x1B, 0, 8),
                  (0x1C, 0, 24), (0x1F, 0, 6), (0x20, 0, 128), (0x30, 0, 32), (0x34, 0, 24), (0x37, 0, 8), (0x38, 0, 16), (0x3A, 0, 8),
                  (0x3B, 0, 8), (0x3C, 0, 8)]
  | 0x32 => some [(0x10, 0, 16)]
  | 0x40 => some [(0x10, 0, 16), (0x12, 0, 16), (0x14, 0, 16)]
  | 0x41 => some [(0x10, 0, 16)]
  | 0x42 => some [(0x10, 0, 16), (0x12, 0, 8), (0x13, 0, 8), (0x14, 0, 16), (0x16, 0, 16), (0x18, 0, 16), (0x1C, 0, 32)]
  | 0x43 => some [(0x10, 0, 16), (0x12, 0, 16), (0x14, 0, 14), (0x15, 7, 1), (0x16, 0, 8), (0x18, 0, 32), (0x1C, 0, 16), (0x1E, 0, 16)]
  | 0x44 => some [(0x10, 0, 16)]
  | 0x45 => some [(0x10, 0, 16), (0x12, 0, 16), (0x14, 0, 16), (0x17, 0, 8), (0x18, 0, 24), (0x1B, 0, 8), (0x1C, 0, 24), (0x1F, 0, 6),
                  (0x20, 0, 128), (0x30, 0, 32), (0x34, 0, 24), (0x37, 0, 8), (0x38, 0, 16), (0x3A, 0, 8), (0x3B, 0, 8), (0x3C, 0, 8)]
  | _ => none

/-- Operand values of a FUSED_RUN beyond its NOPND, and fields that a CANCEL's scope does not use, are unused too
(R362, Table 13.9). -/
def unusedParam (c : Cmd) : Bool :=
  if c.op = 0x10 then (List.range 4).any (fun i => decide (c.p 0x12 1 ≤ i) && decide (c.p (0x20 + 8 * i) 8 ≠ 0))
  else if c.op = 0x12 then
    let sc := c.p 0x10 1
    decide (sc ≤ 2) && ((decide (sc ≠ 0) && decide (c.p 0x14 4 ≠ 0)) || (decide (sc ≠ 1) && decide (c.p 0x18 8 ≠ 0)))
  else false

/-- Whether reserved envelope bits or unused PARAM bytes are non-zero (Table 13.10). -/
def envelopeRsv (bs : List Byte) (spans : List (Nat × Nat × Nat)) : Bool :=
  let w := leNat bs
  let used := [(0, 0, 8), (1, 0, 8), (2, 0, 3), (4, 0, 16), (8, 0, 64)] ++ spans
  let mask := used.foldl (fun m e => Nat.lor m ((2 ^ e.2.2 - 1) * 2 ^ (8 * e.1 + e.2.1))) 0
  decide (Nat.land w mask ≠ w)

/-- Opcodes that the control ring takes (R370). -/
def controlTakes (op : Nat) : Bool := op == 1 || op == 2 || op == 3 || op == 0x12 || (decide (0x20 ≤ op) && decide (op ≤ 0x3F))

/-- Check 6: the template, chain or port that a TOKEN_PUT or FUSED_RUN names (Table 13.10). -/
def namedCheck (s : State) (c : Cmd) : Option Nat :=
  let svc := c.issuerSvc s
  if c.op = 0x11 then inPortCheck s svc (c.p 0x10 2) (c.p 0x12 1)
  else if c.op = 0x10 then
    match (s.service? svc).bind (fun v => v.chains.find? (fun x => x.id == c.p 0x10 2)) with
    | none => some Code.BAD_CHAIN
    | some x =>
      let h := (x.stage 0).tmpl
      if (tmplOf s (h / 32768) (h % 16384)).nin ≠ c.p 0x12 1 then some Code.BAD_PORT else none
  else none

/-- The envelope checks in order (R364, Table 13.10). -/
def envelopeCheck (s : State) (bs : List Byte) (c : Cmd) (slot : Option Nat) (oldOk : Option Nat) : Option Nat :=
  if fieldAt bs 0 1 ≠ 1 then some Code.BAD_VERSION
  else match paramSpans c.op with
    | none => some Code.BAD_OPCODE
    | some spans =>
      if c.ring = 0 ∧ !controlTakes c.op then some Code.NO_SERVICE
      else if c.ring ≠ 0 ∧ 0x20 ≤ c.op ∧ c.op ≤ 0x3F then some Code.CTRL_ONLY
      else if envelopeRsv bs spans ∨ unusedParam c then some Code.RSV_NONZERO
      else if some c.ctx ≠ slot ∧ oldOk ≠ some c.ctx then some Code.BAD_CONTEXT
      else if 0x40 ≤ c.op ∧ !feature s.io 3 then some Code.FEATURE_OFF
      else namedCheck s c

/-- The slot that a ring's context holds, while it holds one: slot 0 for the control context, which exists in DONE. -/
def ringSlot (s : State) (k : Nat) : Option Nat :=
  if k = 0 then (if negState s.io = 2 then some 0 else none)
  else (s.ctx? (k - 1)).bind (fun c => if c.st = .pinned ∨ c.st = .live then c.slot else none)

/-- A FUSED_RUN that waits for its instance, or a token of the ring held at its source, stops the ring (Table 13.4). -/
def ringBlocked (s : State) (k : Nat) : Bool :=
  s.adm.cmds.any (fun r => r.cmd.ring == k && r.started && r.cmd.op == 0x10 && !(s.adm.insts.any (fun x => x.cmd == some r.cmd)))
  || s.call.any (fun e => e.2.held.any (fun t => t.src == .ring k))

/-- Whether the device may take a submission entry of a ring now (R50, R363, R419, R423). -/
def mayTake (s : State) (k : Nat) (r : Ring) : Bool :=
  s.io.enabled bCtxt && s.io.ready bCtxt && !r.stopped && r.sqHead != r.sqTail && decide (negState s.io = 2) && (ringSlot s k).isSome
    && (r.sqBar2 || s.host.bme) && decide ((s.adm.cmds.filter (fun q => q.cmd.ring == k)).length < 256) && !ringBlocked s k
    && s.rst.power == .d0

/-- SQ_HEAD advances past an entry; the ID of a slot held before a park is accepted no further than its tail (R426). -/
def advanceHead (s : State) (k : Nat) (r : Ring) : State :=
  let h := (r.sqHead + 1) % 2 ^ r.sqLog2
  s.setRing k { r with sqHead := h, oldId := r.oldId.bind (fun o => if o.2 = h then none else some o) }

/-- A submission ring stops after a failed read: one RING_FAULT record with its context and position (R423). -/
def ringFault (s : State) (k : Nat) (r : Ring) : State :=
  (s.setRing k { r with stopped := true }).mapIo (fun io =>
    io.riseNamed bCtxt 2 Cls.LINK Code.RING_FAULT (slotOfRing s k) r.sqHead (if k = 0 then 0 else k - 1))

/-- A submission entry is taken: refused by an envelope check at once, or in progress (R363, R364). -/
def takeSubmission (s : State) (k : Nat) (r : Ring) : State :=
  let bs := ringFetch s r.sqBar2 (r.sqBase + 64 * r.sqHead)
  let c := parseCmd bs k r.sqHead
  let bad := envelopeCheck s bs c (ringSlot s k) (r.oldId.map Prod.fst)
  let s := advanceHead s k r
  let s := if k = 0 then s else touchCn s (k - 1)
  match bad with
  | some e => refuse s c e
  | none =>
    let waits := c.fence && s.adm.cmds.any (fun q => q.cmd.ring == k)
    { s with adm := { s.adm with cmds := s.adm.cmds ++ [{ cmd := c, started := !waits }] } }

/-- SUBMISSION_ENTRY_READ: an entry is taken, completes POISONED, or its failed read stops the ring (R423). -/
def execSubmissionEntryRead (ring : Nat) (how : ReadEnd) (s : State) : Host.Outcome State Fault Refusal :=
  match s.ring? ring with
  | none => .next s
  | some r =>
    if !mayTake s ring r then .next s
    else match how with
      | .failed => .next (ringFault s ring r)
      | .poisoned =>
        let s := (advanceHead s ring r).mapIo (fun io => io.count bPcie Off.pcie_EP_RX 1)
        let rec_ := recordBytes 0 0 false Code.POISONED ((slotOfRing s ring).getD 0) r.sqHead [] s.io.tb 0
        .next (postRecord s ring rec_ false)
      | .ok => .next (takeSubmission s ring r)

/-- Pending messages that are no longer masked are sent (R427). -/
def sendPending (s : State) : State :=
  let go := s.host.pba.filter (fun v => !s.host.fnMask && !(smGet {} v s.host.msix).masked)
  go.foldl (fun s v => fireVector s v) { s with host := { s.host with pba := s.host.pba.filter (fun v => !go.contains v) } }

/-- Offset by which a row names the MSI-X function mask, which lies in configuration space and not in BAR2. -/
def fnMaskOff : Nat := 0x4000000

/-- MSIX_VECTOR_UNMASK: a host write of the MSI-X table or of the function mask (R427). -/
def execMsixVectorUnmask (off : Nat) (value : W32) (s : State) : Host.Outcome State Fault Refusal :=
  let v := value.toNat
  if off = fnMaskOff then .next (sendPending { s with host := { s.host with fnMask := bitOf v 0 } })
  else if off < 0x3FF0000 ∨ 0x3FF8000 ≤ off ∨ off % 4 ≠ 0 then .next s
  else
    let i := (off - 0x3FF0000) / 16
    let e := smGet {} i s.host.msix
    let e : MsixEntry := match off % 16 with
      | 0 => { e with addr := e.addr / 2 ^ 32 * 2 ^ 32 + v }
      | 4 => { e with addr := e.addr % 2 ^ 32 + v * 2 ^ 32 }
      | 8 => { e with data := v }
      | _ => { e with masked := bitOf v 0 }
    .next (sendPending { s with host := { s.host with msix := smPut {} i e s.host.msix } })

/-- Requests held for Bus Master Enable proceed in order (R419). -/
def releaseHeld (s : State) : State :=
  let held := s.host.heldReq
  held.foldl (fun s r => match r with
    | .write a bs => hostWrite s a bs
    | .msix v => fireVector s v) { s with host := { s.host with heldReq := [] } }

/-- BUS_MASTER_ENABLE (R419). -/
def execBusMasterEnable (on : Bool) (s : State) : Host.Outcome State Fault Refusal :=
  let s := { s with host := { s.host with bme := on } }
  .next (if on then releaseHeld s else s)

end Sys2Proof.Machine
end

