-- ==== Sys2Proof/Machine/UnitRows.lean ====
section
/-! DEFINITION. The commands and steps of the cluster units: EGP_RUN and WINNOW_RUN (Table 13.9), and one row for each
operation that a unit serves (R254 to R273, R278 to R292). -/

namespace Sys2Proof.Machine

/-- The unit that a run names: a position on the home die, or the one with the fewest queued blocks of those in service,
the lowest on a tie (Table 13.9). -/
def runUnit (s : State) (egp : Bool) (die cluster : Nat) : Nat :=
  if cluster < 6 then 6 * die + cluster
  else
    let all := (List.range 6).map (fun i => 6 * die + i)
    let ok := all.filter (fun u => let b := if egp then bEgp u else bWinnower u; s.io.enabled b && !s.io.isOffline b)
    let l := if ok = [] then all else ok
    let n : Nat → Nat := fun u => (unitQueue s egp u).length
    l.foldl (fun a u => if n u < n a then u else a) (l.headD (6 * die))

/-- EGP_RUN and WINNOW_RUN: request blocks in a descriptor enter a unit's queue as places free (R254, R278, R357). -/
def unitRun (s : State) (egp : Bool) (c : Cmd) : State :=
  match c.context s with
  | none => finish s c Code.BAD_CONTEXT
  | some x =>
    let id := c.p 0x10 2
    let cl := c.p 0x12 1
    let first := c.p 0x14 4
    let n := c.p 0x18 4
    if 6 ≤ cl ∧ cl ≠ 0xFF then refuse s c Code.RSV_NONZERO
    else if n = 0 ∨ 65536 < n then refuse s c Code.COUNT_RANGE
    else match useDescDir s x.cn id false with
      | .error e => refuse s c e
      | .ok d =>
        if d.etype ≠ Num.U8 ∨ d.tier = 0 ∨ first % 64 ≠ 0 ∨ d.count < first + 64 * n then refuse s c Code.BAD_COLUMN
        else
          let u : UnitRun := { id := s.queue.nextRun, cmd := c, egp := egp, cn := x.cn, unit := runUnit s egp (x.home % 2) cl, desc := id, d := d,
                               first := first, count := n }
          let s := takeRefs s x.cn [id]
          let s := { s with queue := { s.queue with runs := s.queue.runs ++ [u], nextRun := s.queue.nextRun + 1 } }
          housekeep (pumpRuns s)

/-- EGP_RUN (R254). -/
def execEgpRun (c : Cmd) (s : State) : Host.Outcome State Fault Refusal := .next (unitRun s true c)

/-- WINNOW_RUN (R278). -/
def execWinnowRun (c : Cmd) (s : State) : Host.Outcome State Fault Refusal := .next (unitRun s false c)

/-- An EGP that is not offlined serves its next request of an operation. -/
def egpRow (s : State) (u op : Nat) : State := if s.io.isOffline (bEgp u) then s else housekeep (egpStep s u op)

/-- The same of a Winnower. -/
def winRow1 (s : State) (u op : Nat) : State := if s.io.isOffline (bWinnower u) then s else housekeep (winStep s u op)

/-- GATHER (R259). -/
def execGather (unit : Nat) (s : State) : Host.Outcome State Fault Refusal := .next (egpRow s unit 0)

/-- SUM (R258). -/
def execPoolSum (unit : Nat) (s : State) : Host.Outcome State Fault Refusal := .next (egpRow s unit 1)

/-- MEAN (R258). -/
def execPoolMean (unit : Nat) (s : State) : Host.Outcome State Fault Refusal := .next (egpRow s unit 2)

/-- WEIGHTED_SUM (R258). -/
def execWeightedSum (unit : Nat) (s : State) : Host.Outcome State Fault Refusal := .next (egpRow s unit 3)

/-- UPDATE (R266). -/
def execEgpUpdate (unit : Nat) (s : State) : Host.Outcome State Fault Refusal := .next (egpRow s unit 4)

/-- HEAT_EPOCH (R262 to R264). -/
def execHeatEpoch (s : State) : Host.Outcome State Fault Refusal := .next (heatEpoch s)

/-- STEP_FENCE (R269). -/
def execStepFence (c : Cmd) (s : State) : Host.Outcome State Fault Refusal :=
  match fenceCheck s c with
  | .error e => .next (refuse s c e)
  | .ok (ti, t) => .next (housekeep (fenceClose s ti t c))

/-- FENCE_APPLY (R268). -/
def execFenceApply (table : Nat) (s : State) : Host.Outcome State Fault Refusal := .next (fenceApply s table)

/-- FENCE_REFRESH (R269). -/
def execFenceRefresh (table : Nat) (s : State) : Host.Outcome State Fault Refusal := .next (fenceRefresh s table)

/-- FENCE_OPEN (R269). -/
def execFenceOpen (table : Nat) (s : State) : Host.Outcome State Fault Refusal := .next (housekeep (fenceOpen s table))

/-- TOPK (R279). -/
def execTopk (unit : Nat) (s : State) : Host.Outcome State Fault Refusal := .next (winRow1 s unit 0)

/-- LISTMERGE (R290). -/
def execListmerge (unit : Nat) (s : State) : Host.Outcome State Fault Refusal := .next (winRow1 s unit 1)

/-- MERGE_PARTIAL (R291). -/
def execMergePartial (die group : Nat) (s : State) : Host.Outcome State Fault Refusal := .next (housekeep (mergeArrive s die group))

end Sys2Proof.Machine
end

