-- ==== Sys2Proof/Machine/HostBus.lean ====
section
/-! DEFINITION. The PCIe endpoint's and the CXL ports' events: address translation, page requests, completion timeouts,
hot-plug (R414, R415, R418 to R420, R429, R430), and the configuration writes that the model sees. -/

namespace Sys2Proof.Machine

/-- ATS_INVALIDATION: new use of the translation stops at once (R414). -/
def execAtsInvalidation (die page : Nat) (s : State) : Host.Outcome State Fault Refusal :=
  .next { s with host := { s.host with
    invs := if s.host.invs.contains (die, page) then s.host.invs else s.host.invs ++ [(die, page)],
    unmapped := if s.host.unmapped.contains page then s.host.unmapped else s.host.unmapped ++ [page] } }

/-- Whether an access that began under a translation is still on its way, or a write tile is pinned on it (R132, R414). -/
def transUsed (s : State) (die page : Nat) : Bool :=
  s.fetch.lines.any (fun r => decide (r.tier = 4) && decide (r.addr / 4096 = page) && decide (dieOfCore r.core = die) && (r.write || r.path == []))
  || (openStrms s).any (fun e => decide (dieOfCore e.1 = die) && !e.2.2.reads && match e.2.2.desc with
      | some d => decide (d.tier = 4) && e.2.2.tiles.any (fun t => t.issued && (tileSpans d t).any (fun l => decide (l.addr / 4096 = page)))
      | none => false)

/-- ATS_INVALIDATION_DONE: the completion is sent once no access uses the translation (R414). -/
def execAtsInvalidationDone (die page : Nat) (s : State) : Host.Outcome State Fault Refusal :=
  if s.host.invs.contains (die, page) ∧ !transUsed s die page then
    .next { s with host := { s.host with invs := s.host.invs.erase (die, page) }, io := s.io.send ⟨"INV_DONE", die, page, []⟩ }
  else .next s

/-- The page requests that may go out once others are answered: at most 512 are outstanding (R414). -/
def nextPage (s : State) (left : List Nat) : State :=
  match left[511]? with
  | some p => s.mapIo (fun io => io.send ⟨"PRI", p, 0, []⟩)
  | none => s

/-- PRG_RESPONSE: success resumes the streams that wait for the page with the rights it gives; another response fails
them, and a Response Failure also stops page requests (R420). -/
def execPrgResponse (page : Nat) (resp : PrgResp) (s : State) : Host.Outcome State Fault Refusal :=
  if !(s.host.priPages.take 512).contains page then .next s
  else
    let left := s.host.priPages.erase page
    let s := { s with host := { s.host with priPages := left } }
    let mine : Nat → Nat → Bool := fun c a => decide (c = Code.HOST_NOT_PRESENT) && decide (a / 4096 = page)
    match resp with
    | .success r w =>
      let drop : List Nat → List Nat := fun l => l.filter (fun p => p != page)
      let s := { s with host := { s.host with
        unmapped := drop s.host.unmapped,
        noRead := if r then drop s.host.noRead else drop s.host.noRead ++ [page],
        noWrite := if w then drop s.host.noWrite else drop s.host.noWrite ++ [page] } }
      .next (housekeep (resumeWhere (nextPage s left) mine))
    | .invalidRequest => .next (housekeep (failWhere (nextPage s left) Code.HOST_DENIED mine))
    | .responseFailure =>
      let s := { s with host := { s.host with priStopped := true }, io := s.io.rise bPcie 3 }
      .next (housekeep (failWhere s Code.HOST_DENIED mine))

/-- A row served while its host read fails with a timeout or an error completion (R419). -/
def withCplErr (s : State) (f : State → State) : State :=
  let t := f { s with host := { s.host with cplErr := true } }
  { t with host := { t.host with cplErr := false } }

/-- CPL_TIMEOUT: a ring read stops the ring, any other host read meets HOST_DENIED (R419). -/
def execCplTimeout (what : HostRead) (s : State) : Host.Outcome State Fault Refusal :=
  let s := s.mapIo (fun io => (io.count bPcie Off.pcie_CPL_TO 1).rise bPcie 2)
  match what with
  | .ring k =>
    match s.ring? k with
    | some r => .next (if mayTake s k r && !r.sqBar2 then ringFault s k r else s)
    | none => .next s
  | .stream n k =>
    match s.fetch.lines.find? (fun r => decide (r.core = n) && decide (r.st = k) && decide (r.tier = 4) && !r.write) with
    | some r => .next (housekeep (withCplErr s (fun s => returnLine s r)))
    | none => .next s
  | .egp u op => .next (withCplErr s (fun s => egpRow s u op))
  | .winnow u op => .next (withCplErr s (fun s => winRow1 s u op))
  | .weaver u serial => .next (withCplErr s (fun s => weaveDone s u serial))

/-- Whether any CXL port is in service (R430). -/
def tier3Up (m : MemSt) : Bool := m.cxlUp.any (fun p => !m.lost.contains ⟨.cxl, p⟩)

/-- Feature bit TIER3 follows the ports in service (R430, Table 2.13). -/
def tier3Feature (s : State) : State := s.mapIo (fun io => setFeature io 2 (tier3Up s.mem))

/-- CXL_LINK_DOWN: a surprise loss or removal takes the port's window out of service (R415, R430). -/
def execCxlLinkDown (port : Nat) (s : State) : Host.Outcome State Fault Refusal :=
  let b : Block := ⟨.cxl, port⟩
  if 2 ≤ port ∨ s.io.bf b Off.cxl_LINK 31 31 = 0 then .next s
  else
    let io := (s.io.setReg (b.base + Off.cxl_LINK) 0).count b Off.cxl_DOWN_EVENTS 1
    let m := if s.mem.cxlUp.contains port ∧ !s.mem.lost.contains b then { s.mem with lost := s.mem.lost ++ [b] } else s.mem
    .next (tier3Feature { s with io := io, mem := m })

/-- CXL_HOT_ADD: an expander behind a link that has come up is enumerated; one that is no Type-3 memory stays disabled;
a window lost since the last device reset stays lost until the next (R415, R430). -/
def execCxlHotAdd (port raw speed width : Nat) (type3 : Bool) (s : State) : Host.Outcome State Fault Refusal :=
  let b : Block := ⟨.cxl, port⟩
  if 2 ≤ port ∨ s.io.bf b Off.cxl_LINK 31 31 = 1 then .next s
  else
    let io := s.io.setReg (b.base + Off.cxl_LINK) (2 ^ 31 + width % 16 * 16 + speed % 16)
    if !type3 ∨ s.mem.lost.contains b then .next { s with io := io }
    else
      let m := { s.mem with cxlUp := if s.mem.cxlUp.contains port then s.mem.cxlUp else s.mem.cxlUp ++ [port],
                            cxlRaw := setAt s.mem.cxlRaw port raw }
      .next (tier3Feature { s with io := io, mem := m })

/-- ATS_PRI_ENABLE: feature bit ATS_PRI follows the two enables; clearing PRI Enable and setting it again ends the
stopped state (R420, Table 2.13). -/
def execAtsPriEnable (ats pri : Bool) (s : State) : Host.Outcome State Fault Refusal :=
  let h := s.host
  let again := pri && !h.priEn
  .next { s with host := { h with atsEn := ats, priEn := pri, priStopped := h.priStopped && !again },
                 io := setFeature s.io 5 (ats && pri) }

/-- RESIZABLE_BAR: BAR4 takes a size of 1 GiB to 512 GiB (R29, R47). -/
def execResizableBar (log2 : Nat) (s : State) : Host.Outcome State Fault Refusal :=
  if log2 < 30 ∨ 39 < log2 then .next s else .next { s with io := { s.io with bar4Log2 := log2 } }

end Sys2Proof.Machine
end

