-- ==== Sys2Proof/Machine/Placement.lean ====
section
/-! DEFINITION. The promotion pool and the phases of a move (R409 to R413), and host accesses through BAR4 (R31, R395,
R405, R415). -/

namespace Sys2Proof.Machine

/-- Whether the home of a placement page has been lost (R415). -/
def homeLost (m : MemSt) (page : Nat) : Bool := (m.controller (page * 65536)).any (fun b => m.lost.contains b)

/-- Insert a promoted page by ascending frame. -/
def insertFrame (e : Nat × Nat) : List (Nat × Nat) → List (Nat × Nat)
  | [] => [e]
  | f :: l => if e.2 < f.2 then e :: f :: l else f :: insertFrame e l

/-- Promoted pages in removed frames that no move is bringing home start on their way, in ascending frame order; a page
whose home is lost stays (R409, R415). -/
def demoteRemoved (m : MemSt) (frames : Nat) : MemSt :=
  let out := (m.promoted.filter (fun e => decide (frames ≤ e.2) && !homeLost m e.1 && !m.moves.any (fun v => v.page == e.1))).foldl
    (fun l e => insertFrame e l) []
  out.foldl (fun m e => m.addMove ⟨e.1, false, e.2, false, .waiting⟩) m

/-- The space that the pool takes from tier 1: it grows at once, and shrinks when no removed frame is in use (R409). -/
def settlePool (m : MemSt) (frames : Nat) : MemSt :=
  let left := m.framesUsed.filter (fun f => decide (frames ≤ f))
  let out := (m.moves.filter (fun v => !v.toPool && decide (frames ≤ v.frame))).map (fun v => v.frame)
  let left := left ++ out.filter (fun f => !left.contains f)
  { m with shrinking := left, poolFrames := if left = [] then frames else max frames m.poolFrames }

/-- Whether a pool of so many frames takes space below the end of a registered region (R409). -/
def poolHits (s : State) (frames : Nat) : Bool :=
  s.adm.regions.any (fun e => e.2.used && decide (e.2.tier = 1) &&
    match windowOf e.2.base with
    | some (.t1 h, o) => s.mem.hbmUp.contains h && decide (t1Capacity - frames / 8 * 65536 < o + e.2.len)
    | _ => false)

/-- POOL_WRITE (R409). -/
def execPoolWrite (who : Requester) (value : W32) (s : State) : Host.Outcome State Fault Refusal :=
  let off := bMigr.base + Off.migr_POOL
  match writeAllowed s.io who bMigr off with
  | some io => .next { s with io := io }
  | none =>
    let f := bitsOf value.toNat 18 0
    let old := s.io.bf bMigr Off.migr_POOL 18 0
    if f % 8 ≠ 0 ∨ 262144 < f then .next { s with io := s.io.capture bMigr Code.BAD_POOL off }
    else if s.adm.services ≠ [] ∨ (old < f ∧ poolHits s f) then .next { s with io := s.io.capture bMigr Code.MIGR_BUSY off }
    else .next { s with io := s.io.setReg off f, mem := settlePool (demoteRemoved s.mem f) f }

/-- Change the move of a page. -/
def setPhase (m : MemSt) (page : Nat) (f : Move → Move) : MemSt :=
  { m with moves := m.moves.map (fun v => if v.page = page then f v else v) }

/-- MOVE_MARK: once no pin holds the page it is marked moving; a move that waits is counted once (R411, Table 15.5). -/
def execMoveMark (page : Nat) (s : State) : Host.Outcome State Fault Refusal :=
  match s.mem.moves.find? (fun v => decide (v.page = page)) with
  | none => .next s
  | some v =>
    if v.phase ≠ .pinWait ∧ v.phase ≠ .pinHeld then .next s
    else if pinned s page then
      let io := if v.phase = .pinWait then s.io.count bMigr Off.migr_PIN_WAITS 1 else s.io
      .next { s with io := io, mem := setPhase s.mem page (fun v => { v with phase := .pinHeld }) }
    else .next { s with mem := setPhase s.mem page (fun v => { v with phase := .mark }) }

/-- A host access to device memory: a read returns the bytes, with EP when a line is poisoned; a write with EP is written
poisoned; an unmapped address reads zero or discards, and a lost unit's lines give no data (R395, R405, R415). -/
def barAccess (s : State) (h : HeldAccess) : State :=
  let ok := (linesOf h.addr h.len).all (fun l => s.mem.mapped (l * 64))
  let bad := (s.mem.rangeFault h.addr h.len).any (fun e => e.1 = Code.TIER_OFFLINE)
  let answer := fun (s : State) (bs : List Byte) (ep : Bool) => { s with io := { s.io with readBytes := bs, readEp := ep } }
  if !ok then
    let s := { s with io := s.io.capture bGlb Code.ADDR_UNMAPPED h.addr }
    if h.data.isSome then s else answer s (List.replicate h.len 0) false
  else if bad then
    let s := { s with io := s.io.capture bGlb Code.TIER_OFFLINE h.addr }
    if h.data.isSome then s
    else
      let (v, io) := s.io.takeFree
      answer { s with io := io } ((List.range h.len).map (fun i => Config.freeByte v i)) false
  else
    let s := { s with mem := (linesOf h.addr h.len).foldl (fun m l => m.sample s.io (l * 64)) s.mem }
    match h.data with
    | some bs => { s with mem := s.mem.write h.addr bs h.ep }
    | none => answer s (s.mem.bytes h.addr h.len) (s.mem.anyPoison h.addr h.len)

/-- Held BAR4 accesses that nothing holds any longer proceed in order (Table 15.5, R416). -/
def releaseAccesses (s : State) : State :=
  let mine : HeldAccess → Bool := fun h => !s.mem.moving h.addr && !((s.mem.controller h.addr).any (fun b => s.io.notReady.contains b))
  (s.mem.heldAcc.filter mine).foldl barAccess { s with mem := { s.mem with heldAcc := s.mem.heldAcc.filter (fun h => !mine h) } }

/-- MOVE_RELEASE: the backing entry names the new location, the page is unmarked, faults on it resolve and held accesses
proceed (R411, Table 15.5). -/
def execMoveRelease (page : Nat) (s : State) : Host.Outcome State Fault Refusal :=
  match s.mem.moves.find? (fun v => decide (v.page = page) && v.phase == .copy) with
  | none => .next s
  | some v =>
    let m := { s.mem with moves := s.mem.moves.filter (fun w => !(w == v)) }
    let m := if v.toPool then
        { m with promoted := smInsert page v.frame m.promoted, byRequest := if v.requested then page :: m.byRequest else m.byRequest }
      else { m with promoted := smErase page m.promoted, byRequest := m.byRequest.filter (fun p => p != page) }
    let frames := s.io.bf bMigr Off.migr_POOL 18 0
    let m := (settlePool (demoteRemoved m frames) frames).startMoves
    let io := s.io.count64 bMigr (if v.toPool then Off.migr_PROMOTIONS_LO else Off.migr_DEMOTIONS_LO) 1
    let io := if v.requested then (io.setReg (bMigr.base + Off.migr_MOVE_STAT) (2 * 2 ^ 30)).rise bMigr 3 else io
    let s := releaseAccesses { s with io := io, mem := m }
    .next (housekeep (resumeWhere s (fun c a => decide (c = Code.MIGRATING) && decide (a / 65536 = page))))

/-- The device address that a BAR4 offset reaches, when its aperture is enabled (R31). -/
def apertureAddr (io : Io) (off : Nat) : Option Nat :=
  let sz := 2 ^ (io.bar4Log2 - 4)
  let a := off / sz
  let lo := io.br bGlb (Off.glb_APT_BASE_LO + 8 * a)
  let hi := io.br bGlb (Off.glb_APT_BASE_HI + 8 * a)
  if 16 ≤ a ∨ lo % 2 = 0 then none
  else some ((hi % 2 ^ 20 * 2 ^ 32 + lo) / sz * sz + off % sz)

/-- APERTURE_ACCESS: a host access through BAR4 (R31), held while its page moves (Table 15.5) or its controller is being
reset (R416). -/
def execApertureAccess (off len : Nat) (data : Option (List Byte)) (ep : Bool) (s : State) : Host.Outcome State Fault Refusal :=
  if s.rst.power ≠ .d0 ∧ s.rst.power ≠ .d3pend then .next s
  else
    let s := if ep ∧ data.isSome then s.mapIo (fun io => io.count bPcie Off.pcie_EP_RX 1) else s
    match apertureAddr s.io off with
    | none =>
      .next (if data.isSome then s else { s with io := { s.io with readBytes := List.replicate len 0, readEp := false } })
    | some a =>
      let n := (data.map List.length).getD len
      let h : HeldAccess := ⟨a, n, data, ep⟩
      if s.mem.mapped a ∧ (s.mem.moving a ∨ ((s.mem.controller a).any (fun b => s.io.notReady.contains b))) then .next { s with mem := { s.mem with heldAcc := s.mem.heldAcc ++ [h] } }
      else .next (barAccess s h)

end Sys2Proof.Machine
end

