-- ==== Sys2Proof/Machine/Reset.lean ====
section
/-! DEFINITION. Resets at work: block resets, smaller and device resets, how requests meet, and the phases of a device reset
(R49, R493 to R495, R507 to R512, Tables 19.4 to 19.7). -/

namespace Sys2Proof.Machine

/-- The blocks that stay up while the main island is down: the Factor, POWER and CLKRST pages (R493, R524). -/
def standbyBlock (b : Block) : Bool := b.kind == .factor || b.kind == .power || b.kind == .clkrst

/-- BLK_STAT.READY of blocks falls. -/
def unready (io : Io) (bs : List Block) : Io := { io with notReady := io.notReady ++ bs.filter (fun b => !io.notReady.contains b) }

/-- The page of a block keeps the registers that it had in another state. -/
def keepPage (s t : State) (b : Block) : State :=
  let hi := b.base + 0x1000 * (catRow b.kind).pages
  let mine := s.io.regs.filter (fun e => decide (b.base ≤ e.1) && decide (e.1 < hi))
  t.mapIo (fun io => { io with regs := mine.foldl (fun m e => smInsert e.1 e.2 m) (smClear b.base hi io.regs) })

/-- A memory controller's counters and marks are zeroed; its memory keeps its contents (R416). -/
def memCtlWipe (s : State) (b : Block) : State :=
  let m := { s.mem with scrubPos := smErase b.base s.mem.scrubPos, groupErrs := s.mem.groupErrs.filter (fun e => decide (e.1 / 16 ≠ b.base)) }
  { s with mem := m }

/-- A Carter's own reset: its streams end, its Pedlar transfers end BLOCK_RESET (R509). -/
def carterWipe (s : State) (n : Nat) : State :=
  let s := closeAllStrms s n
  let s := (s.core n).peds.foldl (fun s p => pedStatus s n p.blk Code.BLOCK_RESET) s
  let s := s.setCore n { s.core n with peds := [], pres := [], fence := false }
  setMode (housekeep (finishCancels (s.mapIo (fun io => io.resetRegs (bCarter n))))) n 1 0

/-- The Reel block's own reset: collectives end BLOCK_RESET, unacknowledged packets end, and its tables empty. -/
def reelWipe (s : State) : State :=
  let s := s.fab.colls.foldl (fun s c => collAbort s c Code.BLOCK_RESET) s
  let outs := s.fab.out
  let s := { s with fab := { s.fab with out := [], early := [], groups := [] } }
  let s := outs.foldl (fun s o => outDone s o Code.BLOCK_RESET) s
  let s := s.fab.inboxes.foldl (fun s e => unbindInbox s e.1) s
  { s with fab := { links := s.fab.links, ft := s.fab.ft } }

/-- Every session is unbound, and the tokens of arrivals held at the session engine are dropped. -/
def sessionWipe (s : State) : State :=
  let s := s.host.sess.foldl (fun s e => unbindSess s e.1) s
  let ks := s.host.arrivals
  let s := { s with host := { s.host with arrivals := [] } }
  ks.foldl (fun s k => passRecords s k.ctx k.arr.toList) s

/-- Placement's own reset: running moves are abandoned, the sketch is lost and the pool is given back. -/
def migrWipe (s : State) : State :=
  let m := { s.mem with moves := [], sketch := [], sampleCt := 0, byRequest := [] }
  releaseAccesses { s with mem := settlePool m 0 }

/-- What a block's own reset ends and wipes, registers apart (Table 18.8, R38, R509). -/
def blockWipe (s : State) (b : Block) : State :=
  match b.kind with
  | .fcore => keepPage s (coreWipe false s b.inst) (bCarter b.inst)
  | .carter => carterWipe s b.inst
  | .caller => callerWipe false s b.inst
  | .merge => mergeWipe s b.inst
  | .weaver => weaverWipe s b.inst
  | .assayer => assayWipe s b.inst
  | .egp => egpWipe s b.inst
  | .winnower => winWipe s b.inst
  | .hbm | .ddr | .cxl => memCtlWipe s b
  | .glb => withdrawAll s
  | .ctxt => { s with host := { s.host with rings := smErase 0 s.host.rings } }
  | .evtq => { s with io := { s.io with intake := [] }, evt := { s.evt with queues := [] } }
  | .session => sessionWipe s
  | .migr => migrWipe s
  | .eth => { s with host := { s.host with ethUp := s.host.ethUp.filter (fun p => p ≠ b.inst) } }
  | .reelLink => linkDisable s b.inst
  | .reel => reelWipe s
  | .time => { s with host := { s.host with ptpSec := 0, ptpNs := 0, ptpFrac := 0, ptpLocked := false } }
  | .clkrst | .factor | .power | .admission | .pcie | .d2d | .noc => s

/-- What a smaller scope ends and wipes. -/
def scopeWipe (s : State) : Scope → State
  | .block b => blockWipe s b
  | .core n => coreWipe false s n
  | .cluster c => clusterWipe false s c
  | .die d => dieWipe s d
  | .warm | .cold => s

/-- Code of a scope in RST_CMD, RST_STAT and event records (Tables 19.17 and 20.4), and its target. -/
def Scope.code : Scope → Nat
  | .warm => 1
  | .die _ => 2
  | .cluster _ => 3
  | .core _ => 4
  | .cold => 5
  | .block _ => 6
def Scope.target : Scope → Nat
  | .block b => b.inst
  | .core n => n
  | .cluster c => c
  | .die d => d
  | .warm | .cold => 0

/-- RST_STAT at the start of a reset; a block reset has no target number. -/
def setRstStat (io : Io) (x : Scope) (cause : Nat) : Io :=
  let t := match x with
    | .block _ => 0
    | y => y.target
  io.setReg (bClkrst.base + Off.clkrst_RST_STAT) (x.code * 2 ^ 28 + cause * 2 ^ 24 + t)

/-- The blocks that a block reset leaves enabled (Table 2.6, R544). -/
def keepsEnable (b : Block) : Bool := b.kind.alwaysOn || b.kind == .noc || b.kind == .d2d

/-- The ENABLE bits of a scope's blocks after its reset: 0 after a block reset and on offlined blocks (Table 2.6, R534). -/
def settleEnable (io : Io) (x : Scope) : Io :=
  x.blocks.foldl (fun io b =>
    let off := io.isOffline b || (match x with
      | .block _ => !keepsEnable b
      | _ => false)
    if off then io.disable b else io) io

/-- The bits of the crossing counters that a resynchronisation leaves are open: the spec does not number the queues (R506). -/
def resync (io : Io) : Io :=
  let (a, io) := io.takeFree
  let (b, io) := io.takeFree
  let io := if io.frozen bClkrst then io else io.setReg (bClkrst.base + Off.clkrst_CDC_RESYNC) a.toNat
  if io.frozen bClkrst then io else io.setReg (bClkrst.base + Off.clkrst_CDC_DISCARD) b.toNat

/-- A smaller reset starts: within a device reset, or a reset of a larger scope, it completes with that (R508, R495);
resets within it are abandoned. -/
def startUnit (s : State) (x : Scope) (cause : Nat) (byCmd : Bool) : State :=
  let covered := match s.rst.device with
    | some r => x.within r.scope
    | none => false
  if covered then
    { s with rst := { s.rst with device := s.rst.device.map (fun r => { r with byCmd := r.byCmd || byCmd }) } }
  else if s.rst.units.any (fun u => x.within u.scope) then
    let mark : ResetRun → ResetRun := fun u => if x.within u.scope then { u with byCmd := u.byCmd || byCmd } else u
    { s with rst := { s.rst with units := s.rst.units.map mark } }
  else
    let was := (List.range 12).map (fun c => (deadlineCores s c).length)
    let left := s.rst.units.filter (fun u => !u.scope.within x)
    let s := { s with rst := { s.rst with units := left ++ [⟨x, cause, byCmd⟩] }, io := unready s.io x.blocks }
    let s := scopeWipe s x
    let s := s.mapIo (fun io =>
      let io := match x with
        | .block b => io.resetRegs b
        | _ => io
      resync (setRstStat ((settleEnable io x).count64 bClkrst Off.clkrst_UNIT_RESETS_LO 1) x cause))
    (List.range 12).foldl (fun s c => guardLost s c (was.getD c 0)) s

/-- Registers that outlive a device reset: those of the standby pages through a warm one (R524). -/
def keptRegs (io : Io) (cold : Bool) : SMap W32 :=
  if cold then [] else io.regs.filter (fun e => (pageAt e.1).any (fun p => standbyBlock p.1))

/-- The device as a device reset leaves it before its phases run: the main island is empty; the Factor, its pages and the
time base stay through a warm reset (R493, R503, R524, R534); memory keeps its contents until WIPE. -/
def freshDevice (s : State) (cold : Bool) : State :=
  let io := s.io
  let m := s.mem
  { io := { regs := keptRegs io cold, tb := if cold then 0 else io.tb,
            notReady := allBlocks.filter (fun b => cold || !standbyBlock b), offline := if cold then [] else io.offline,
            occ := if cold then [] else io.occ.filter (fun e => (pageAt (e.1 / 32)).any (fun p => standbyBlock p.1)),
            tx := io.tx, free := io.free }
    mem := { dev := m.dev, poison := m.poison, host := m.host, keyGen := m.keyGen, blank := m.blank, zeroed := m.zeroed, lost := m.lost,
             hbmUp := m.hbmUp, ddrUp := m.ddrUp, cxlUp := m.cxlUp, ddrMismatch := m.ddrMismatch, ddrBytes := m.ddrBytes,
             ddrRate := m.ddrRate, cxlRaw := m.cxlRaw }
    rst := s.rst
    fac := if cold then factorWiped s.fac else s.fac
    evt := if cold then {} else { contained := s.evt.contained }
    pending := s.pending }

/-- The ENABLE bits of offlined blocks stay 0 through a device reset (R534). -/
def disableOffline (io : Io) : Io := io.offline.foldl (fun io b => io.disable b) io

/-- New tier-2 and tier-3 keys, and the fills of the wipe that starts (R407, R408, R494, R495). -/
def startWipe (s : State) (full : Bool) : State :=
  let m := s.mem
  let full := full || s.fac.wipePending
  let m := { m with keyGen := m.keyGen + 1, dev := smClear tier1End (2 ^ 52) m.dev, poison := smClear (tier1End / 64) (2 ^ 46) m.poison,
                    zeroed := m.zeroed.filter (fun b => b.kind == .hbm) }
  { s with mem := m, rst := { s.rst with fullWipe := full },
           fac := { s.fac with fillT2 := full || s.fac.zfT2, fillT3 := full || s.fac.zfT3 } }

/-- A device reset starts afresh: smaller resets are abandoned, the event records that EVTQ holds go to the log first
(Table 19.5, R508, R530). -/
def beginDevice (s : State) (cold : Bool) (cause : Nat) (byCmd : Bool) : State :=
  let s := if cold then s else allToLog s
  let full := s.rst.fullWipe && decide (s.rst.phase = 6)
  let s := freshDevice s cold
  let run : ResetRun := ⟨if cold then .cold else .warm, cause, byCmd⟩
  let r := { s.rst with device := some run, phase := 1, units := [], cxlOut := [], fullWipe := full }
  let r := if cold then { r with thermtripN := true, thermalDown := false, factorUp := false, vinLost := false, refLost := false,
                                 pwrGood := false, power := .standby } else r
  let io := setRstStat s.io run.scope cause
  let io := (List.range 7).foldl (fun io p => io.setReg (bClkrst.base + Off.clkrst_PH_TIME + 4 * p) 0) io
  let io := if cold then io else io.count64 bClkrst Off.clkrst_WARM_RESETS_LO 1
  { s with rst := r, io := disableOffline io, fac := { s.fac with bootCount := s.fac.bootCount + 1 } }

/-- A request for a device reset (R495, R507, R508): nothing without VAUX, and a warm one needs the rails; within a device
reset of its scope it merges, starting a running wipe again, and a pin sends the phases back to ASSERT. -/
def startDevice (s : State) (cold : Bool) (cause : Nat) (byCmd : Bool) : State :=
  if !s.rst.vaux then s
  else match s.rst.device with
    | none => if cold ∨ railsUp s then beginDevice s cold cause byCmd else s
    | some r =>
      if cold ∧ r.scope = .warm then beginDevice s true cause (byCmd || r.byCmd)
      else
        let s := { s with rst := { s.rst with device := some { r with byCmd := r.byCmd || byCmd } } }
        if cause = 1 ∨ cause = 6 then { s with rst := { s.rst with phase := 1 } }
        else if s.rst.phase = 6 then startWipe s s.rst.fullWipe
        else s

/-- The duration of a phase is recorded and the next phase begins (R510, Table 19.17). -/
def nextPhase (s : State) (micros next : Nat) : State :=
  let off := bClkrst.base + Off.clkrst_PH_TIME + 4 * (s.rst.phase - 1)
  { s with rst := { s.rst with phase := next }, io := s.io.setReg off (min 0xFFFFFFFF micros) }

/-- From the end of POWER the endpoint and the global page answer, so that DEV_STAT can be polled (R44, R511); the PCIe
link comes up at its full width and speed (log entry 9). -/
def glbUp (s : State) : State :=
  let io : Io := { s.io with notReady := s.io.notReady.filter (fun b => b.kind != BlockKind.glb) }
  { s with io := io.setReg (bPcie.base + Off.pcie_LINK) 0x46 }

/-- The Factor and its pages are up, and a cold reset waits for the P-die; a warm one goes on to CLOCK (Table 19.5). -/
def bootEnds (s : State) (cold : Bool) (micros : Nat) : State :=
  let s := { s with io := { s.io with notReady := s.io.notReady.filter (fun b => !standbyBlock b) } }
  let s := factorBoot s
  if s.fac.booted.isNone then s
  else
    let s := nextPhase { s with rst := { s.rst with factorUp := true } } micros (if cold then 3 else 4)
    if cold then s else glbUp s

/-- A memory controller, port or link that trains again after it was offlined is in service: OFFLINE clears and ENABLE is set
(R415, R533, R539; DEDUCED, log entry 80). -/
def backInService (s : State) (b : Block) : State :=
  if s.io.isOffline b then
    { s with io := ({ s.io with offline := s.io.offline.filter (fun c => c != b) } : Io).setBf b 0x008 0 0 1 }
  else s

/-- Whether a block belongs to a die that is offlined as a whole, which no reset brings back (R508, R534). -/
def dieOut (s : State) (b : Block) : Bool := b.kind == .hbm && s.io.isOffline (bCaller (b.inst / 4))

/-- TRAIN ends: the units that trained are in service, and the wipe starts (R397, R415, R510). -/
def trainEnds (s : State) (micros : Nat) (trained : List Block) (cxl : List (Nat × Nat × Nat × Nat)) : State :=
  let up : BlockKind → Nat → List Nat := fun k n => (List.range n).filter (fun i => trained.contains ⟨k, i⟩)
  let ports := (List.range 2).filter (fun p => cxl.any (fun e => e.1 == p) && !s.rst.cxlOut.contains p)
  let m := { s.mem with hbmUp := up .hbm 8, ddrUp := up .ddr 12, cxlUp := ports, lost := [],
                        cxlRaw := cxl.foldl (fun l e => setAt l e.1 e.2.1) s.mem.cxlRaw }
  let io := cxl.foldl (fun io e => if ports.contains e.1 then
      io.setReg ((⟨.cxl, e.1⟩ : Block).base + Off.cxl_LINK) (2 ^ 31 + e.2.2.2 % 16 * 16 + e.2.2.1 % 16) else io) s.io
  let s := { s with mem := m, io := io }
  let back := (trained ++ ports.map (fun p => (⟨.cxl, p⟩ : Block))).filter (fun b => (b.kind == .hbm || b.kind == .ddr || b.kind == .cxl) && !dieOut s b)
  nextPhase (startWipe (back.foldl backInService s) false) micros 6

/-- WIPE ends: tier 1 and the filled tiers read zero, unpoisoned (R494); a life-cycle transition completes (R492). -/
def wipeEnds (s : State) (micros : Nat) (wipes : List Nat) : State :=
  let m := s.mem
  let f := s.fac
  let zeroed := m.hbmUp.map (fun h => (⟨.hbm, h⟩ : Block)) ++ (if f.fillT2 then m.ddrUp.map (fun c => ⟨.ddr, c⟩) else [])
    ++ (if f.fillT3 then m.cxlUp.map (fun p => ⟨.cxl, p⟩) else [])
  let s := { s with mem := { m with dev := [], poison := [], zeroed := zeroed },
                    fac := { f with fillT2 := false, fillT3 := false, wipePending := false, lc := f.fuses.state } }
  let s := match f.lcRun with
    | some r =>
      let s := facAnswer { s with fac := { s.fac with lcRun := none } } r.transport 0x0A Code.OK
        (leBytes 1 r.target ++ (List.range 3).flatMap (fun i => leBytes 4 (wipes.getD i 0)))
      s.mapIo (fun io => io.riseQuiet bFactor 5)
    | none => s
  nextPhase { s with rst := { s.rst with fullWipe := false } } micros 7

/-- TEST ends: every block reports READY, cores leave no-overlap mode, and the reset is over (R510). -/
def testEnds (s : State) (micros : Nat) : State :=
  let cmd := s.rst.device.any (fun r => r.byCmd)
  let s := nextPhase s micros 0
  let s := { s with io := { s.io with notReady := [] }, rst := { s.rst with device := none, power := .d0 } }
  if cmd then s.mapIo (fun io => io.rise bClkrst 4) else s

/-- A phase of the device reset ends (R510); failing cores are given to `contain` once READY has risen. -/
def phaseEnds (micros : Nat) (trained : List Block) (cxl : List (Nat × Nat × Nat × Nat)) (wipes : List Nat) (s : State) : State :=
  match s.rst.device with
  | none => s
  | some r =>
    let cold := decide (r.scope = .cold)
    match s.rst.phase with
    | 1 => if !s.rst.coldRstN ∨ !s.rst.perstN ∨ s.rst.testEn then s
           else if cold then nextPhase s micros 2
           else if s.fac.booted = some s.fac.active then glbUp (nextPhase s micros 4)
           else nextPhase { s with fac := factorWiped s.fac, io := s.io.resetRegs bFactor } micros 2
    | 2 => bootEnds s cold micros
    | 3 => if !s.rst.vin ∨ !s.rst.refOk ∨ !s.rst.factorUp then s
           else
             let s := glbUp (nextPhase s micros 4)
             { s with rst := { s.rst with pwrGood := true, power := .d0 } }
    | 4 => nextPhase (s.mapIo resync) micros 5
    | 5 => trainEnds s micros trained cxl
    | 6 => wipeEnds s micros wipes
    | 7 => testEnds s micros
    | _ => s

end Sys2Proof.Machine
end

