-- ==== Sys2Proof/Machine/Contain.lean ====
section
/-! DEFINITION. Containment, offlining and return to service (R533 to R537, Tables 20.4 and 20.5), and the ends of smaller
resets (R512). -/

namespace Sys2Proof.Machine

/-- The domain that a hardware error of a block is contained in (Table 20.5). -/
def domainOf (b : Block) : Scope :=
  match b.kind with
  | .fcore | .carter => .core b.inst
  | .assayer | .egp | .winnower => .cluster b.inst
  | .noc | .caller | .merge => .die b.inst
  | .weaver => .die (b.inst / 2)
  | .hbm => .die (b.inst / 4)
  | .d2d => .die b.die
  | .ddr | .cxl | .eth | .reelLink => .block b
  | _ => .warm

/-- The page that stands for a scope in records. -/
def Scope.page (x : Scope) : Nat := ((x.blocks.head?).map (fun b => b.base)).getD 0

/-- INFO of UNIT_CONTAINED, OFFLINED and ONLINED (Table 20.4). -/
def Scope.info (x : Scope) : Nat := x.code * 2 ^ 12 + x.target

/-- Assayer tables with a unit in an offlined cluster are lost, each reported once (R536). -/
def loseTables (s : State) (bs : List Block) : State :=
  s.assay.binds.foldl (fun s e =>
    let (svc, _, u, k) := e
    if s.assay.lost.contains (u, k) ∨ !((AssayTab.units s u k).any (fun v => bs.contains (bAssayer v))) then s
    else
      let s := { s with assay := { s.assay with lost := s.assay.lost ++ [(u, k)] } }
      s.mapIo (fun io => io.note (bAssayer u) Cls.SERVICE Code.TABLE_LOST none (bAssayer u).base (svc * 2 ^ 16 + k))) s

/-- The ring positions of offlined cores become proxies (R537). -/
def proxyCore (s : State) (n : Nat) : State :=
  let d := dieOfCore n
  let p := n % 48
  let mine := s.fetch.sets.filter (fun q => decide (q.die = d) && !q.proxy.contains p)
  let put : ResSet → ResSet := fun q => if q.die = d ∧ !q.proxy.contains p then { q with proxy := q.proxy ++ [p] } else q
  let s := { s with fetch := { s.fetch with sets := s.fetch.sets.map put } }
  mine.foldl (fun s q => s.mapIo (fun io => io.note bAdmit Cls.SERVICE Code.SET_PROXY none 0 (d * 256 + q.set * 64 + p))) s

/-- The contexts of an offlined die are cancelled, and their sessions enter ERROR (R536). -/
def cancelDie (s : State) (d : Nat) : State :=
  let cns := (s.adm.ctxs.filter (fun e => decide (e.2.home = d))).map Prod.fst
  cns.foldl (fun s cn =>
    let s := (cancelContext s cn none).1
    (s.host.sess.filter (fun e => decide (e.2.cn = cn))).foldl (fun s e => sessError s e.1 Code.TIER_OFFLINE) s) s

/-- A unit goes out of service (R534 to R537). -/
def offlineScope (s : State) (x : Scope) : State :=
  let bs := x.blocks.filter (fun b => !s.io.isOffline b)
  if bs = [] then s
  else
    let s := { s with io := { s.io with offline := s.io.offline ++ bs } }
    let s := s.mapIo (fun io => (bs.foldl (fun io b => (io.disable b).riseQuiet b 1) io).note
      ((x.blocks.head?).getD bGlb) Cls.CONTAINMENT Code.OFFLINED none x.page x.info)
    let m := s.mem
    let gone := bs.filter (fun b => (b.kind == .ddr && m.ddrUp.contains b.inst || b.kind == .cxl && m.cxlUp.contains b.inst
      || b.kind == .hbm && m.hbmUp.contains b.inst) && !m.lost.contains b)
    let s := tier3Feature { s with mem := { m with lost := m.lost ++ gone } }
    let s := (bs.filter (fun b => b.kind == .reelLink)).foldl (fun s b => linkDisable s b.inst) s
    let s := x.cores.foldl proxyCore (loseTables s bs)
    let s := match x with
      | .die d => cancelDie s d
      | _ => s
    retest s

/-- What an offlining brings with it: a cluster with three cores out is contained, and with both dies out the device
(Table 20.5). -/
def escalation (s : State) (x : Scope) : Option Scope :=
  match x with
  | .core n =>
    let c := clusterOfCore n
    let out := (List.range 8).filter (fun i => s.io.isOffline (bCore (8 * c + i)))
    if 3 ≤ out.length ∧ !s.io.isOffline (bAssayer c) then some (.cluster c) else none
  | .die d => if s.io.isOffline (bCaller (1 - d)) then some .warm else none
  | _ => none

/-- A containment reset of a scope, detected by a block with a code (R533); the scope goes out of service when it has been
contained ESC_COUNT times within ESC_WINDOW (R534). -/
def contain : Nat → State → Scope → Block → Nat → State
  | 0, s, _, _, _ => s
  | fuel + 1, s, x, b, code =>
    let s := s.mapIo (fun io => io.count bEvtq Off.evtq_CONTAINED 1)
    if x = .warm ∨ x = .cold then
      startDevice (s.mapIo (fun io => io.note b Cls.FATAL Code.DEVICE_FATAL none b.base code)) false 11 false
    else
      let s := s.mapIo (fun io => io.note b Cls.CONTAINMENT Code.UNIT_CONTAINED none b.base (code * 2 ^ 16 + x.info))
      let window := s.io.bf bEvtq Off.evtq_CONTAIN_CFG 7 0 * 1000000000
      let l := s.evt.contained.filter (fun e => decide (s.io.tb < e.2 + window)) ++ [(x, s.io.tb)]
      let s := startUnit { s with evt := { s.evt with contained := l } } x 11 false
      if (l.filter (fun e => e.1 == x)).length < s.io.bf bEvtq Off.evtq_CONTAIN_CFG 15 8 then s
      else
        let s := offlineScope s x
        match escalation s x with
        | some y => contain fuel s y b code
        | none => s

/-- Offlining after a failed containment reset, with what it brings (R533, R534). -/
def failScope (s : State) (x : Scope) (b : Block) : State :=
  let s := offlineScope s x
  match x, escalation s x with
  | .die _, _ => contain 3 s .warm b Code.SELFTEST_FAIL
  | _, some y => contain 3 s y b Code.SELFTEST_FAIL
  | _, none => s

/-- A lost unit that trains again is in service with contents undefined (R539); the memory of any other is as it was
(R416). -/
def retrained (s : State) (b : Block) : State :=
  let m := s.mem
  let s := if !m.lost.contains b then s
    else
      let mine : Nat → Bool := fun a => m.controller a == some b
      { s with mem := { m with lost := m.lost.filter (fun c => c != b), zeroed := m.zeroed.filter (fun c => c != b),
                               dev := m.dev.filter (fun e => !mine e.1), poison := m.poison.filter (fun e => !mine (64 * e.1)) } }
  if b.kind = .cxl ∧ s.mem.cxlUp.contains b.inst then
    tier3Feature (s.mapIo (fun io => io.setReg (b.base + Off.cxl_LINK) (2 ^ 31 + 0x46)))
  else s

/-- The home shards of a core are reloaded from the copy, and its position is no proxy any more (R537). -/
def reloadShards (s : State) (n : Nat) : State :=
  let p := n % 48
  let mine := s.fetch.sets.filter (fun q => decide (q.die = dieOfCore n) && q.proxy.contains p)
  let s := mine.foldl (fun s q =>
    let bs := (List.range (q.tiles * q.bytes)).map (fun i => smGet 0 (p * 2 ^ 22 + i) q.copy)
    s.setCore n ((s.core n).unitWrite q.base bs false)) s
  let put : ResSet → ResSet := fun q => if q.die = dieOfCore n then { q with proxy := q.proxy.filter (fun r => r ≠ p) } else q
  { s with fetch := { s.fetch with sets := s.fetch.sets.map put } }

/-- A scope returns to service: OFFLINE clears, its cores recover, their shards are reloaded (R125, R534, R537). -/
def bringOnline (s : State) (x : Scope) : State :=
  let bs := x.blocks
  let s := { s with io := { s.io with offline := s.io.offline.filter (fun b => !bs.contains b) } }
  let s := s.mapIo (fun io => (bs.foldl (fun io b => io.setBf b 0x008 0 0 1) io).note
    ((bs.head?).getD bGlb) Cls.CONTAINMENT Code.ONLINED none x.page x.info)
  let s := { s with assay := { s.assay with lost := s.assay.lost.filter (fun t => AssayTab.lost s t.1 t.2) } }
  retest (x.cores.foldl (fun s n => reloadShards (setMode s n 3 64) n) s)

/-- A smaller reset has passed (R125, R512). -/
def unitPass (s : State) (u : ResetRun) (on : List Scope) : State :=
  let s := (u.scope.blocks.filter (fun b => on != [] || !dieOut s b)).foldl (fun s b =>
    if b.kind = .hbm ∨ b.kind = .ddr ∨ b.kind = .cxl then backInService (retrained s b) b
    else if b.kind = .eth ∨ b.kind = .reelLink then backInService s b
    else s) s
  let cores := (u.scope.blocks.filterMap (fun b => if b.kind = .fcore ∨ b.kind = .carter then some b.inst else none)).eraseDups
  let s := cores.foldl (fun s n => if u.cause = 11 then setMode s n 3 64 else setMode s n 0 0) s
  on.foldl bringOnline s

/-- A smaller reset has failed its self-test or its training (R533, R534). -/
def unitFail (s : State) (u : ResetRun) (on : List Scope) (test : Nat) : State :=
  let b := (u.scope.blocks.head?).getD bGlb
  let s := s.mapIo (fun io => io.note b Cls.CONTAINMENT Code.SELFTEST_FAIL none b.base test)
  match u.scope with
  | .block _ => offlineScope s u.scope
  | x => if on ≠ [] then s else if u.cause = 11 then failScope s x b else contain 4 s x b Code.SELFTEST_FAIL

/-- A smaller reset completes (R512): its blocks report READY, and accesses held at a controller proceed (R416). -/
def unitEnds (s : State) (x : Scope) (fail : Option Nat) : State :=
  match s.rst.units.find? (fun u => u.scope == x) with
  | none => s
  | some u =>
    let left := s.rst.units.filter (fun v => v.scope != x)
    let busy := left.flatMap (fun v => v.scope.blocks)
    let ready := s.io.notReady.filter (fun b => !x.blocks.contains b || busy.contains b)
    let on := s.evt.onlining.filter (fun y => y.within x)
    let s := { s with rst := { s.rst with units := left }, io := { s.io with notReady := ready },
                      evt := { s.evt with onlining := s.evt.onlining.filter (fun y => !y.within x) } }
    let s := match fail with
      | none => unitPass s u on
      | some t => unitFail s u on t
    let s := releaseAccesses s
    if u.byCmd then s.mapIo (fun io => io.rise bClkrst 4) else s

/-- The core rails fall: all work and every content of the main island is lost (R476, R503, R514). -/
def railsFall (s : State) : State :=
  let s := freshDevice s false
  let m := s.mem
  let r := { s.rst with device := none, phase := 0, units := [], pwrGood := false, power := PowerState.standby, fullWipe := false,
                        osc := !s.rst.refOk }
  { s with mem := { m with dev := [], poison := [], zeroed := [], blank := m.blank + 1 }, rst := r, io := disableOffline s.io,
           fac := { s.fac with lcRun := none } }

end Sys2Proof.Machine
end

