-- ==== Sys2Proof/Machine/Factor.lean ====
section
/-! DEFINITION. The Factor's mailbox commands (R473, R474, R476, R481, R486, R487, R491, R492, R494, R496, R498, R501,
Tables 18.2, 18.3 and 18.7), served for the host and for MCTP alike. -/

namespace Sys2Proof.Machine

/-- The request that a command row serves, none for the host's mailbox or the MCTP transport and bytes it came over: who
asked, and its bytes. -/
def facRequest (s : State) (src : Option (Nat × List Byte)) : Option (Option Nat × List Byte) :=
  match src with
  | none => s.fac.mbx.map (fun m => (none, m.2))
  | some (t, bs) => some (some t, bs)

/-- Whether firmware runs that serves commands: VAUX is present and an image has booted (R472, R484). -/
def facServes (s : State) : Bool := s.rst.vaux && s.fac.booted.isSome && s.io.ready bFactor

/-- The payload length that a command asks for, from the payload (Table 18.3). -/
def payloadLen (op : Nat) (p : List Byte) : Nat :=
  match op with
  | 0x02 => 10
  | 0x03 | 0x08 | 0x0B => 2
  | 0x04 | 0x07 => 1
  | 0x05 => 4
  | 0x06 => 4 + fieldAt p 2 2
  | 0x0A => if fieldAt p 1 1 = 0 then 2 else 195
  | _ => 0

/-- Life-cycle states in which a command is allowed (Table 18.3). -/
def allowedIn (op : Nat) : List Nat :=
  match op with
  | 0x01 | 0x02 => [0, 1, 2, 3, 4]
  | 0x03 | 0x04 | 0x0B => [1, 2, 3]
  | 0x06 => [1, 3]
  | 0x08 => [2]
  | _ => [0, 1, 2, 3]

/-- The checks that every command passes, in order (R474), with the reserved bits of WIPE_POLICY's payload. -/
def facCheck (s : State) (bs : List Byte) : Option Nat :=
  let op := fieldAt bs 0 1
  let plen := fieldAt bs 2 2
  let p := (bs.drop 8).take plen
  if op = 0 ∨ 0x0B < op then some Code.MBX_BAD_OP
  else if fieldAt bs 1 1 ≠ 0 ∨ fieldAt bs 4 4 ≠ 0 ∨ (op = 0x04 ∧ 3 < fieldAt p 0 1) ∨ (op = 0x0A ∧ 1 < fieldAt p 1 1) then some Code.RSV_NONZERO
  else if plen ≠ payloadLen op p ∨ bs.length < 8 + plen then some Code.MBX_LEN
  else if !(allowedIn op).contains s.fac.lc then some Code.LC_STATE_BAD
  else none

/-- Serve a command of opcode `op`: its checks, then its own work on the payload, which answers.  A reserved opcode is
answered by whatever row meets it; any other row waits for its own opcode. -/
def facServe (s : State) (src : Option (Nat × List Byte)) (op : Nat) (f : State → Option Nat → List Byte → State) : State :=
  match facRequest s src with
  | none => s
  | some (w, bs) =>
    let o := fieldAt bs 0 1
    if !facServes s ∨ s.fac.lcRun.isSome then s
    else match facCheck s bs with
      | some c => if o = op ∨ c = Code.MBX_BAD_OP then facAnswer s w o c [] else s
      | none => if o ≠ op then s else f s w ((bs.drop 8).take (fieldAt bs 2 2))

/-- MBX_DOORBELL: a request is taken, MBX_BUSY while one is served, MBX_LEN at once for a wrong length, and MBX_BAD_OP for a
reserved opcode (R473, R474). -/
def mbxRing (s : State) (v : Nat) : State :=
  let n := bitsOf v 12 0
  let seq := bitsOf v 31 16
  if s.fac.mbx.isSome then s.mapIo (fun io => io.capture bFactor Code.MBX_BUSY (bFactor.base + Off.factor_MBX_DOORBELL))
  else
    let op := s.io.reg mbxReq % 256
    let bs := regBytes s.io mbxReq n
    if n = 0 ∨ 4032 < n then facAnswer { s with fac := { s.fac with mbx := some (seq, []) } } none op Code.MBX_LEN []
    else
      let s := { s with fac := { s.fac with mbx := some (seq, bs) } }
      let s := s.mapIo (fun io => io.setFld (bFactor.base + Off.factor_MBX_STAT) 31 30 1)
      if facServes s ∧ (op = 0 ∨ 0x0B < op) then facAnswer s none op Code.MBX_BAD_OP [] else s

/-- MBX_DOORBELL under the access rules of R43 and R44. -/
def execMbxDoorbell (who : Requester) (value : W32) (s : State) : Host.Outcome State Fault Refusal :=
  match writeAllowed s.io who bFactor (bFactor.base + Off.factor_MBX_DOORBELL) with
  | some io => .next { s with io := io }
  | none => .next (mbxRing s value.toNat)

/-- GET_INFO (R474): UID, state, each slot's version and SVN, booted slot, floor, pairs left, GEN and boot count. -/
def execGetInfo (src : Option (Nat × List Byte)) (s : State) : Host.Outcome State Fault Refusal :=
  .next (facServe s src 0x01 (fun s w _ =>
    let f := s.fac
    let slot : Nat → List Byte := fun i => leBytes 4 (imgVersion (slotImage f i)) ++ leBytes 2 (imgSvn (slotImage f i))
    facAnswer s w 0x01 Code.OK (leBytes 8 Config.deviceUid.toNat ++ leBytes 1 f.lc ++ slot 0 ++ slot 1 ++ leBytes 1 (f.booted.getD 0)
      ++ leBytes 2 f.fuses.floor ++ leBytes 1 (32 - f.fuses.opens) ++ leBytes 4 (((calUse f).map (fun i => (f.cal.getD i {}).gen)).getD 0)
      ++ leBytes 4 f.bootCount)))

/-- LOG_READ (R481): the records from FROM_SEQ onward, in flash and in SRAM. -/
def execLogRead (src : Option (Nat × List Byte)) (s : State) : Host.Outcome State Fault Refusal :=
  .next (facServe s src 0x02 (fun s w p =>
    let n := fieldAt p 8 2
    if n = 0 ∨ 62 < n then facAnswer s w 0x02 Code.COUNT_RANGE []
    else
      let rs := ((s.fac.flash ++ s.fac.sram).filter (fun r => decide (fieldAt p 0 8 ≤ r.seq))).take n
      let first := ((rs.head?).map (fun r => r.seq)).getD s.fac.nextSeq
      facAnswer s w 0x02 Code.OK (leBytes 8 first ++ leBytes 8 s.fac.nextSeq ++ rs.flatMap logBytes)))

/-- THRESH_SET (R476): THERM_WARN from 60 to 104 °C. -/
def execThreshSet (src : Option (Nat × List Byte)) (s : State) : Host.Outcome State Fault Refusal :=
  .next (facServe s src 0x03 (fun s w p =>
    let v := fieldAt p 0 2
    if v < 60 * 16 ∨ 104 * 16 < v then facAnswer s w 0x03 Code.THRESH_RANGE []
    else facAnswer (s.mapIo (fun io => io.setBf bFactor Off.factor_THERM_WARN 15 0 v)) w 0x03 Code.OK []))

/-- WIPE_POLICY (R494). -/
def execWipePolicy (src : Option (Nat × List Byte)) (s : State) : Host.Outcome State Fault Refusal :=
  .next (facServe s src 0x04 (fun s w p =>
    let v := fieldAt p 0 1
    facAnswer { s with fac := { s.fac with zfT2 := bitOf v 0, zfT3 := bitOf v 1 } } w 0x04 Code.OK []))

/-- The neutral values that stand in for a calibration set (R497); the midpoint of a 16-bit range is PRESUMED 0x8000. -/
def neutralCal (o : Nat) : Byte :=
  if 0xC0 ≤ o ∧ o < 0xE0 then (if o % 2 = 1 then 0x80 else 0)
  else if 0xE0 ≤ o ∧ o < 0x280 then [0, 48, 0, 8].getD (o % 4) 0
  else 0

/-- The calibration set in use, but for its CRC: 4,092 bytes (Table 18.9). -/
def calBody (f : FactorSt) : List Byte :=
  match calUse f with
  | some i =>
    let c := f.cal.getD i {}
    (List.range 0xFFC).map (fun o => if o = 0 then 1 else if 4 ≤ o ∧ o < 8 then (leBytes 4 c.gen).getD (o - 4) 0 else smGet 0 o c.data)
  | none => (List.range 0xFFC).map (fun o => if o = 0 then 1 else neutralCal o)

/-- The 4,096 bytes of the calibration set in use. -/
def calBytes (f : FactorSt) : List Byte := calBody f ++ leBytes 4 (Hash.crc32c 0 (calBody f))

/-- CAL_READ (R496). -/
def execCalRead (src : Option (Nat × List Byte)) (s : State) : Host.Outcome State Fault Refusal :=
  .next (facServe s src 0x05 (fun s w p =>
    let o := fieldAt p 0 2
    let n := fieldAt p 2 2
    if 4016 < n ∨ 4096 < o + n then facAnswer s w 0x05 Code.CAL_FIELD []
    else facAnswer s w 0x05 Code.OK (((calBytes s.fac).drop o).take n)))

/-- CAL_WRITE (R498): a new generation over the older copy; `ok` is whether it reads back. -/
def execCalWrite (src : Option (Nat × List Byte)) (ok : Bool) (s : State) : Host.Outcome State Fault Refusal :=
  .next (facServe s src 0x06 (fun s w p =>
    let o := fieldAt p 0 2
    let n := fieldAt p 2 2
    let f := s.fac
    if !((decide (0x008 ≤ o) && decide (o + n ≤ 0x280)) || (decide (0x400 ≤ o) && decide (o + n ≤ 0xC00))) then facAnswer s w 0x06 Code.CAL_FIELD []
    else
      let use := calUse f
      let old := 1 - use.getD 1
      let gen := ((use.map (fun i => (f.cal.getD i {}).gen)).getD 0) + 1
      if !ok then facAnswer { s with fac := { f with cal := setAt f.cal old { f.cal.getD old {} with good := false } } } w 0x06 Code.CAL_FLASH []
      else
        let bs := (calBody f).take o ++ (p.drop 4).take n ++ (calBody f).drop (o + n)
        let cells := (bs.zipIdx.filter (fun e => decide (8 ≤ e.2))).foldl (fun m e => smPut 0 e.2 e.1 m) []
        facAnswer { s with fac := { f with cal := setAt f.cal old { data := cells, gen := gen, good := true } } } w 0x06 Code.OK (leBytes 4 gen)))

/-- FW_ACTIVATE (R486): a slot that holds a valid image boots at the next device reset. -/
def execFwActivate (src : Option (Nat × List Byte)) (s : State) : Host.Outcome State Fault Refusal :=
  .next (facServe s src 0x07 (fun s w p =>
    let i := fieldAt p 0 1
    let f := s.fac
    if 1 < i ∨ !imageValid f.fuses (slotImage f i) then facAnswer s w 0x07 Code.FW_SLOT []
    else
      let s := { s with fac := { f with active := i, failed := setAt f.failed i false } }
      facAnswer (s.mapIo (fun io => io.rise bFactor 4)) w 0x07 Code.OK []))

/-- FW_RAISE_FLOOR (R487); `burns` is how many fuse bits can still be burned before one fails. -/
def execFwRaiseFloor (src : Option (Nat × List Byte)) (burns : Nat) (s : State) : Host.Outcome State Fault Refusal :=
  .next (facServe s src 0x08 (fun s w p =>
    let v := fieldAt p 0 2
    let f := s.fac
    let floor := f.fuses.floor
    if v ≤ floor ∨ imgSvn (slotImage f (f.booted.getD 0)) < v then facAnswer s w 0x08 Code.FW_ROLLBACK []
    else
      let new := min v (floor + burns)
      let s := { s with fac := { f with fuses := { f.fuses with floor := new } } }
      if new = v then facAnswer s w 0x08 Code.OK (leBytes 2 new) else facAnswer s w 0x08 Code.FW_FUSE []))

/-- LC_CHALLENGE (R491): a fresh nonce of 32 bytes, which the environment draws. -/
def execLcChallenge (src : Option (Nat × List Byte)) (nonce : List Byte) (s : State) : Host.Outcome State Fault Refusal :=
  .next (facServe s src 0x09 (fun s w _ =>
    facAnswer { s with fac := { s.fac with nonce := some (padTo 32 nonce) } } w 0x09 Code.OK (padTo 32 nonce)))

/-- NONCE_EXPIRY: 60 s after it was issued a nonce is stale (R491). -/
def execNonceExpiry (s : State) : Host.Outcome State Fault Refusal := .next { s with fac := { s.fac with nonce := none } }

/-- The arcs of Table 18.7. -/
def lcArc (a b : Nat) : Bool :=
  (a, b) == (0, 1) || (a, b) == (1, 2) || (a, b) == (2, 3) || (a, b) == (3, 2) || (b == 4 && (a == 1 || a == 2 || a == 3))

/-- LC_AUTH passes: no signature is asked of DEBUG_OPEN to OPERATIONAL; else the nonce, the key's hash and the signature
hold (R491, R492). -/
def lcAuth (f : FactorSt) (b : Nat) (p : List Byte) : Bool :=
  if f.lc = 3 ∧ b = 2 then true
  else match f.nonce with
    | none => false
    | some n =>
      let key := (p.drop 2).take 97
      let sig := (p.drop 99).take 96
      decide (fieldAt p 1 1 = 1) && (decide (f.lc = 0) || f.fuses.owner == some (Config.sha384 key))
        && Config.ecdsaVerify key (Config.sha384 (leBytes 8 Config.deviceUid.toNat ++ n ++ leBytes 1 f.lc ++ leBytes 1 b)) sig

/-- The fuses that an arc burns (Table 18.7). -/
def lcBurn (f : Fuses) (a b : Nat) (key : List Byte) : Fuses :=
  if b = 4 then { f with returned := true }
  else match a, b with
    | 0, _ => { f with owner := some (Config.sha384 key) }
    | 1, _ => { f with commit := true }
    | 2, _ => { f with opens := f.opens + 1 }
    | _, _ => { f with closes := f.closes + 1 }

/-- The checks of LC_TRANSITION in order (R492); a transition whose wipe is still owed is in progress (log entry 75). -/
def lcCheck (s : State) (p : List Byte) : Option Nat :=
  let f := s.fac
  let b := fieldAt p 0 1
  if !lcArc f.lc b then some Code.LC_ARC
  else if s.adm.services ≠ [] ∨ f.lcRun.isSome ∨ f.wipePending ∨ f.update.isSome ∨ s.rst.device.isSome then some Code.LC_BUSY
  else if !lcAuth f b p then some Code.LC_AUTH
  else if f.lc = 2 ∧ b = 3 ∧ 32 ≤ f.fuses.opens then some Code.LC_EXHAUSTED
  else none

/-- LC_TRANSITION (R491, R492): WIPE_PENDING, the fuses, LC_CHANGE and a warm reset with the full wipe, whose end answers;
`burned` is whether the fuses burn.  A nonce that the checks have looked at is used. -/
def execLcTransition (src : Option (Nat × List Byte)) (burned : Bool) (s : State) : Host.Outcome State Fault Refusal :=
  .next (facServe s src 0x0A (fun s w p =>
    let f := s.fac
    let b := fieldAt p 0 1
    let used : FactorSt := { f with nonce := if lcArc f.lc b then none else f.nonce }
    match lcCheck s p with
    | some c => facAnswer { s with fac := if c = Code.LC_AUTH ∨ c = Code.LC_EXHAUSTED then used else f } w 0x0A c []
    | none =>
      if !burned then facAnswer { s with fac := used } w 0x0A Code.LC_FUSE []
      else
        let fuses := lcBurn f.fuses f.lc b ((p.drop 2).take 97)
        let s := { s with fac := { used with fuses := fuses, wipePending := true, tap := false, lcRun := some ⟨w, b⟩ } }
        startDevice (facRecord s bFactor Cls.SECURITY Code.LC_CHANGE 0 b) false 9 false))

/-- POWER_LIMIT_SET (R501): LIMIT_W from 300 to 750 W. -/
def execPowerLimitSet (src : Option (Nat × List Byte)) (s : State) : Host.Outcome State Fault Refusal :=
  .next (facServe s src 0x0B (fun s w p =>
    let v := fieldAt p 0 2
    if v < 300 ∨ 750 < v then facAnswer s w 0x0B Code.POWER_RANGE []
    else facAnswer (s.mapIo (fun io => io.setBf bPower Off.power_LIMIT_W 9 0 v)) w 0x0B Code.OK []))

/-- BOOT_WATCHDOG: READY has not risen 10 s after the end of the wipe; the booted slot is marked failed and a cold reset
boots the other (R484, R510). -/
def execBootWatchdog (s : State) : Host.Outcome State Fault Refusal :=
  if s.rst.phase ≠ 7 then .next s
  else
    let f := s.fac
    let s := { s with fac := { f with failed := match f.booted with
      | some i => setAt f.failed i true
      | none => f.failed } }
    .next (beginDevice s true 4 false)

end Sys2Proof.Machine
end

