-- ==== Sys2Proof/Machine/Sensors.lean ====
section
/-! DEFINITION. Sensors, thermal limits and power limits (R475 to R478, R501, Tables 18.4, 18.12 and 18.13). -/

namespace Sys2Proof.Machine

/-- A byte of the calibration set that the Factor samples with. -/
def calByte (f : FactorSt) (o : Nat) : Nat := ((calBody f).getD o 0).toNat

/-- A sensor's reading from its raw value: 1/16 °C for the 72 thermal sensors, mV for the 40 monitors (R475). -/
def reading (body : List Byte) (i : Nat) (raw : Int) : Int :=
  let b : Nat → Nat := fun o => (body.getD o 0).toNat
  if i < 72 then raw + signed 16 (b (8 + 2 * i) + 256 * b (9 + 2 * i)) else raw + signed 8 (b (0x98 + (i - 72)))

/-- Register of a sensor's reading (R500). -/
def sensorOff (i : Nat) : Nat := bFactor.base + (if i < 72 then 0x3040 + 4 * i else 0x3160 + 4 * (i - 72))

/-- What the Factor knows of a sensor. -/
def sensorOf (s : State) (i : Nat) : Sensor := smGet {} i s.fac.sensors

/-- One sensor is sampled: its register, or its failure (R475). -/
def sampleOne (body : List Byte) (s : State) (i : Nat) (raw : Int) : State :=
  let x := sensorOf s i
  let same := if x.same ≠ 0 ∧ raw = x.last then x.same + 1 else 1
  let v := reading body i raw
  let bad := decide (1000 ≤ same) || (decide (i < 72) && (decide (v < -640) || decide (2400 < v)))
  let y : Sensor := { last := raw, same := same, failed := x.failed || bad }
  let s := { s with fac := { s.fac with sensors := smPut {} i y s.fac.sensors } }
  let s := s.mapIo (fun io => io.setReg (sensorOff i) (if y.failed then 0x80000000 else (v % 2 ^ 32).toNat))
  if y.failed ∧ !x.failed then facNote s bFactor 3 Cls.ENVIRONMENT Code.SENSOR_FAIL i else s

/-- Readings of the working thermal sensors of a range. -/
def thermals (s : State) (lo n : Nat) : List (Nat × Int) :=
  ((List.range n).map (fun i => lo + i)).filterMap (fun i =>
    let x := sensorOf s i
    if x.failed ∨ x.same = 0 then none else some (i, signed 32 (s.io.reg (sensorOff i))))

/-- The hottest of a list of readings. -/
def hottest : List (Nat × Int) → Option (Nat × Int)
  | [] => none
  | e :: l => match hottest l with
    | none => some e
    | some f => if e.2 < f.2 then some f else some e

/-- INFO of THERMAL_WARN and THERMAL_SHUTDOWN (Table 20.4). -/
def thermInfo (e : Nat × Int) : Nat := e.1 * 2 ^ 16 + (e.2 % 2 ^ 16).toNat

/-- Warnings and the shutdown, judged on a sample (R476). -/
def judgeThermal (s : State) : State :=
  let l := thermals s 0 72
  match hottest l with
  | none => s
  | some e =>
    let s := s.mapIo (fun io => io.setReg (bFactor.base + Off.factor_THERM_MAX) (e.1 * 2 ^ 24 + (e.2 % 2 ^ 16).toNat))
    let warn : Int := s.io.bf bFactor Off.factor_THERM_WARN 15 0
    let s :=
      if warn ≤ e.2 ∧ !s.fac.warned then
        facNote { s with fac := { s.fac with warned := true } } bFactor 3 Cls.ENVIRONMENT Code.THERMAL_WARN (thermInfo e)
      else if e.2 ≤ warn - 48 then { s with fac := { s.fac with warned := false } } else s
    let hot := decide (115 * 16 ≤ e.2)
    let s' := { s with fac := { s.fac with hot := hot } }
    if hot ∧ s.fac.hot ∧ railsUp s then
      let t := railsFall { s' with rst := { s'.rst with thermalDown := true, thermtripN := false } }
      facRecord t bFactor Cls.FATAL Code.THERMAL_SHUTDOWN 0 (thermInfo e)
    else s'

/-- SENSOR_SAMPLE: the raw values of the 72 thermal sensors and the 40 voltage monitors (R475, R476). -/
def execSensorSample (therm volt : List Int) (s : State) : Host.Outcome State Fault Refusal :=
  if !facServes s then .next s
  else
    let body := calBody s.fac
    let raw : Nat → Int := fun i => (if i < 72 then therm.getD i (sensorOf s i).last else volt.getD (i - 72) (sensorOf s i).last)
    .next (judgeThermal ((List.range 112).foldl (fun s i => sampleOne body s i (raw i)) s))

/-- Thermal sensors of each die (Table 18.4). -/
def thermDies : List (Nat × Nat) := [(0, 28), (28, 28), (56, 12), (68, 4)]

/-- The duties of the DUTY register, in eighths: thermal, power, hardware (Table 18.12). -/
def dutyT (io : Io) : Nat := io.bf bFactor Off.factor_DUTY 11 8
def dutyP (io : Io) : Nat := io.bf bFactor Off.factor_DUTY 7 4
def dutyH (io : Io) : Nat := io.bf bFactor Off.factor_DUTY 3 0

/-- The issue duty in force (R478). -/
def dutyNow (io : Io) : Nat := min (dutyT io) (min (dutyP io) (dutyH io))

/-- THERMAL_DUTY_UPDATE: each millisecond D_T falls, rises or holds (R476). -/
def execThermalDutyUpdate (s : State) : Host.Outcome State Fault Refusal :=
  if !facServes s then .next s
  else
    let l := thermals s 0 72
    let old := dutyT s.io
    let d := if l.any (fun e => decide (105 * 16 ≤ e.2)) then max 1 (old - 1) else if l.all (fun e => decide (e.2 < 102 * 16)) then min 8 (old + 1) else old
    let few := thermDies.any (fun e => (List.range e.2).any (fun i => (sensorOf s (e.1 + i)).failed) && decide (2 * (thermals s e.1 e.2).length < e.2))
    let d := if few then min d 4 else d
    let s := s.mapIo (fun io => io.setBf bFactor Off.factor_DUTY 11 8 d)
    .next (if d = old then s else s.mapIo (fun io => io.riseQuiet bFactor 3))

/-- POWER.THROTTLE is set when a power or hardware duty leaves 8/8 (R501). -/
def throttleBit (old new : Nat) (io : Io) : Io := if old = 8 ∧ new < 8 then io.rise bPower 2 else io

/-- POWER_DUTY_UPDATE: the P-die's sample of power in mW, VIN in mV and its current in mA (R477, R501). -/
def execPowerDutyUpdate (p vin iin : Nat) (s : State) : Host.Outcome State Fault Refusal :=
  if !facServes s ∨ !railsUp s then .next s
  else
    let all := s.fac.power ++ [p]
    let l := all.drop (all.length - 10)
    let m := l.foldl (fun a x => a + x) 0 / l.length
    let limit := s.io.bf bPower Off.power_LIMIT_W 9 0
    let old := dutyP s.io
    let d := if 900000 < p ∨ limit * 1000 < m then max 1 (old - 2) else if p < 850000 ∧ m < (limit - 50) * 1000 then min 8 (old + 1) else old
    let low := if iin < 21000 then s.fac.lowAmps + 1 else 0
    let h := if 10 ≤ low then 8 else dutyH s.io
    let s := { s with fac := { s.fac with power := l, lowAmps := low } }
    let put : Nat → Nat → Io → Io := fun o v io => io.setReg (bPower.base + o) v
    .next (s.mapIo (fun io =>
      let io := put Off.power_P_MW p (put Off.power_M_MW m (put Off.power_VIN_MV vin (put Off.power_IIN_MA iin io)))
      let io := put Off.power_P_MAX_MW (max p (io.br bPower Off.power_P_MAX_MW)) io
      let io := throttleBit old d ((io.setBf bFactor Off.factor_DUTY 7 4 d).setBf bFactor Off.factor_DUTY 3 0 h)
      if dutyNow io < 8 then io.count64 bPower Off.power_THROTTLE_MS_LO 1 else io))

/-- OVERCURRENT: VIN current above 23 A for 2 µs sets the hardware duty to 4/8 (R477). -/
def execOvercurrent (s : State) : Host.Outcome State Fault Refusal :=
  if !railsUp s then .next s
  else
    let old := dutyH s.io
    let s := { s with fac := { s.fac with lowAmps := 0 } }
    let s := s.mapIo (fun io => io.setBf bFactor Off.factor_DUTY 3 0 4)
    .next (if 4 < old then s.mapIo (fun io => (throttleBit old 4 (io.count bPower Off.power_OVERCURRENT_CT 1)).rise bPower 3) else s)

end Sys2Proof.Machine
end

