-- ==== Sys2Proof/Machine/RegView.lean ====
section
/-! DEFINITION. What a read of a register returns while the block runs: the stored registers, and over them the fields that
show the block's state (Tables 2.7, 2.12, 5.9 to 5.11, 6.12, 8.11, 9.11, 10.6 to 10.8, 12.7, 13.13 to 13.17, 14.9, 15.6
to 15.9, 16.7, 16.8, 17.13, 18.12, 19.17 and 20.6; log entry 3). -/

namespace Sys2Proof.Machine

/-- A number of `l`, one bit for each index below `n` that a predicate selects. -/
def bitSet (n : Nat) (p : Nat → Bool) : Nat := (List.range n).foldl (fun a i => if p i then a + 2 ^ i else a) 0

/-- Half `h` of a 64-bit value. -/
def half (h v : Nat) : Nat := v / 2 ^ (32 * h) % 2 ^ 32

/-- Word `w` of a byte string, zero past its end (R6). -/
def wordOf (bs : List Byte) (w : Nat) : Nat := fieldAt bs (4 * w) 4

/-- Whether a core holds accepted work: a task, or a sequence slot that is not FREE (R185). -/
def coreBusy (s : State) (n : Nat) : Bool :=
  (s.core n).task.isSome || (s.core n).seqs.any (fun e => e.2.st != 0)

/-- The sides of the meshes and links that a line request in flight crosses (R120, R544). -/
def lineCrosses (s : State) (b : Block) (r : LineReq) : Bool :=
  let d := dieOfCore r.core
  match b.kind with
  | .noc => decide (d = b.inst)
  | _ => (pathTo s.mem d r.tier r.addr).contains b

/-- BLK_STAT.BUSY of a block, by the sentence of its chapter. -/
def blkBusy (s : State) (b : Block) : Bool :=
  let i := b.inst
  match b.kind with
  | .glb => decide (negState s.io = 1)
  | .clkrst => s.rst.device.isSome || s.rst.units != []
  | .time | .power | .eth => false
  | .evtq => s.io.intake != []
  | .factor => s.fac.mbx.isSome || s.fac.lcRun.isSome || s.fac.update.isSome
  | .admission => s.adm.cmds.any (fun r => r.started && (r.cmd.op == 0x20 || r.cmd.op == 0x21))
  | .migr => s.mem.running != []
  | .pcie => s.host.priPages != [] || s.host.heldReq != []
  | .noc | .d2d | .hbm | .ddr | .cxl => s.fetch.lines.any (lineCrosses s b)
  | .session => s.host.arrivals != [] || s.host.sess.any (fun e => e.2.unacked != [])
  | .ctxt => s.adm.cmds != []
  | .reel => s.fab.out != [] || s.fab.colls != []
  | .reelLink => (s.link i).unacked != []
  | .caller => (s.caller i).held != [] || (s.caller i).ready != [] || (s.caller i).next != []
      || (List.range 48).any (fun k => (s.core (48 * i + k)).task.isSome)
  | .merge => s.merge.insts.any (fun x => x.die == i)
  | .weaver => (weaver s i).queue != [] || (weaver s i).active != []
  | .assayer => smGet [] i s.assay.queue != []
  | .egp => unitQueue s true i != [] || s.egp.fences.any (fun f => (tabAt s f.table).any (fun t => decider s t == i))
  | .winnower => unitQueue s false i != [] || s.call.any (fun e => e.2.held.any (fun k => k.src == .winnower i))
  | .fcore => coreBusy s i
  | .carter => (s.core i).strms.any (fun e => e.2.st != 0) || s.fetch.lines.any (fun r => r.core == i) || (s.core i).peds != []

/-- Code of a source in CALLER.BLK_STAT.HELD, counted from bit 8 (R366). -/
def Source.heldBit : Source → Nat
  | .session _ => 0
  | .ring _ => 1
  | .core _ => 2
  | .winnower _ => 3
  | .stage => 4
  | .routeReturn => 6

/-- CALLER.BLK_STAT.HELD: the sources held now, and in bit 5 a token that a full flow window holds (R348). -/
def heldBits (s : State) (d : Nat) : Nat :=
  let c := s.caller d
  bitSet 7 (fun i => if i = 5 then c.flows.any (fun f => decide (1024 ≤ f.2.window.length)) else c.held.any (fun k => k.src.heldBit == i))

/-- Tables that a unit decides (R262). -/
def decided (s : State) (u : Nat) : List (Nat × Tab) :=
  s.egp.dir.filterMap (fun e => let t : Tab := ⟨e.2⟩; if decider s t = u then some (e.1, t) else none)

/-- Hot rows of a table in a unit's cache (R263). -/
def hotRows (s : State) (u ti : Nat) : Nat :=
  (s.egp.hot.filter (fun e => e.table == ti && !s.egp.lost.contains (u, ti, e.row))).length

/-- The block-specific bits of BLK_STAT. -/
def statExtra (s : State) (b : Block) : Nat :=
  let i := b.inst
  let c := s.core i
  match b.kind with
  | .fcore => 2 ^ 16 * bitSet 16 (fun k => (seqOf s i k).st != 0) + 2 ^ 9 * b2n c.task.isSome + 2 ^ 8 * b2n (c.run == .halted)
  | .carter => 2 ^ 16 * bitSet 16 (fun k => (s.strm i k).st != 0) + 2 ^ 13 * coreMode s i + 2 ^ 9 * b2n c.fence
      + 2 ^ 8 * b2n (c.strms.any (fun e => e.2.st == 3))
  | .assayer => 2 ^ 17 * b2n (s.assay.holes.any (fun r => r / 32768 == i)) + 2 ^ 8 * (smGet [] i s.assay.queue).length
  | .egp => 2 ^ 16 * (unitQueue s true i).length + 2 ^ 9 * b2n ((decided s i).any (fun e => e.2.state == 2))
      + 2 ^ 8 * b2n (s.egp.dir.any (fun e => let t : Tab := ⟨e.2⟩; decide (0 < replicaRoom t true ∧ replicaRoom t true ≤ hotRows s i e.1)))
  | .winnower => 2 ^ 16 * (unitQueue s false i).length + 2 ^ 8 * (((unitQueue s false i).head?.map (fun r => (WinBlk.mk r.blk).path)).getD 0)
  | .merge => 2 ^ 8 * (s.merge.insts.filter (fun x => x.die == i)).length
  | .weaver => 2 ^ 10 * (weaver s i).queue.length + 2 ^ 8 * (weaver s i).active.length
  | .caller => 2 ^ 8 * heldBits s i
  | .admission => 2 ^ 8 * b2n (blkBusy s b)
  | .hbm => 2 ^ 10 * b2n (0 < smGet 0 b.base s.mem.scrubPos) + 2 ^ 8 * b2n (s.mem.hbmUp.contains i && !s.mem.lost.contains b && s.io.ready b)
  | .ddr => 2 ^ 10 * b2n (0 < smGet 0 b.base s.mem.scrubPos) + 2 ^ 9 * b2n (s.mem.ddrMismatch.contains i)
      + 2 ^ 8 * b2n (s.mem.ddrUp.contains i && !s.mem.lost.contains b && s.io.ready b)
  | .cxl => 2 ^ 10 * b2n (0 < smGet 0 b.base s.mem.scrubPos) + 2 ^ 8 * b2n (s.mem.cxlUp.contains i && !s.mem.lost.contains b && s.io.ready b)
  | .migr => 2 ^ 8 * s.mem.running.length
  | .eth => 2 ^ 8 * b2n (s.host.ethUp.contains i)
  | .reel => 2 ^ 8 * b2n (s.fab.rootUid ≠ 0 ∧ s.fab.rootUid = ownUid s)
  | .reelLink => 2 ^ 8 * (s.link i).st
  | .clkrst => 2 ^ 8 * s.rst.phase
  | .glb | .time | .evtq | .factor | .power | .pcie | .d2d | .session | .ctxt | .noc => 0

/-- BLK_STAT (Table 2.7). -/
def blkStat (s : State) (b : Block) : Nat :=
  statExtra s b + 2 ^ 3 * b2n (bitOf (s.io.br b 0x01C) 31) + 2 ^ 2 * b2n (blkBusy s b) + 2 * b2n (s.io.isOffline b) + b2n (s.io.ready b)

/-- GLB.DEV_STAT (Table 2.12): READY once every block outside offlined domains is ready. -/
def devStat (s : State) : Nat :=
  2 ^ 5 * b2n (s.rst.phase = 6) + 2 ^ 2 * s.fac.lc + 2 * b2n (dutyNow s.io < 8)
    + b2n (s.io.notReady.all (fun b => s.io.isOffline b) && s.rst.device.isNone)

/-- A stream's SS_STATE (Table 5.11). -/
def ssState (s : State) (n k : Nat) : Nat :=
  let x := s.strm n k
  let done := (x.tiles.filter (fun t => t.wait == [])).length
  let fly := (x.tiles.filter (fun t => t.wait != [])).length
  2 ^ 28 * x.st + 2 ^ 24 * (x.kind % 16) + 2 ^ 16 * (if x.reads then min 4 done else 0)
    + 2 ^ 12 * min 4 (if x.reads then fly else x.tiles.length) + x.group % 256

/-- SQ_STATE of a sequence slot (Table 6.13). -/
def sqState (s : State) (n k : Nat) : Nat :=
  let q := seqOf s n k
  if q.st = 0 then 0 else 2 ^ 30 * q.st + 2 ^ 16 * (q.ctx % 4096) + min 0xFFFF q.chunks

/-- CTX_VALID and CTX of a context number (Tables 6.13 and 12.7). -/
def ctxValid (s : State) (cn : Option Nat) : Nat := (cn.map (fun c => 2 ^ 31 + slotOf s c % 4096)).getD 0

/-- Ticks of the time base since a time, saturating. -/
def ticksSince (s : State) (t : Nat) : Nat := min 0xFFFFFFFF (s.io.tb - t)

/-- The oldest ready task of a priority level. -/
def oldestReady (s : State) (d l : Nat) : Option Task :=
  ((s.caller d).ready.filter (fun t => taskPri s t == l)).foldl (fun (a : Option Task) t => match a with
    | none => some t
    | some u => if t.readyAt < u.readyAt then some t else some u) none

/-- MEM_INFO.RATE in GT/s of a CXL speed code (Table 16.7). -/
def speedGts (c : Nat) : Nat := [0, 2, 5, 8, 16, 32, 64].getD c 0

/-- The live registers of one feature core (Table 6.13). -/
def viewFcore (s : State) (n o : Nat) : Option Nat :=
  let c := s.core n
  if o = Off.fcore_PC then some (c.pc % 2 ^ 32)
  else if o = Off.fcore_TASK_ID then some ((c.task.map (fun t => t.id)).getD 0)
  else if o = Off.fcore_CTX_VALID then some (ctxValid s (c.task.map (fun t => t.ctx)))
  else if 0x200 ≤ o ∧ o < 0x280 then
    if o % 8 = 0 then some (sqState s n ((o - 0x200) / 8)) else some ((seqOf s n ((o - 0x200) / 8)).carry % 2 ^ 22)
  else none

/-- The live registers of a Carter (Table 5.10). -/
def viewCarter (s : State) (n o : Nat) : Option Nat :=
  if o = Off.carter_PED_OUT then some (min 15 (s.core n).peds.length)
  else if 0x400 ≤ o ∧ o < 0x800 ∧ o % 0x40 = 0 then some (ssState s n ((o - 0x400) / 0x40))
  else none

/-- The live registers of an Assayer (Table 8.12). -/
def viewAssayer (s : State) (u o : Nat) : Option Nat :=
  if o = Off.assayer_ENTRIES_VALID then some (s.assay.arr.filter (fun e => e.1 / 32768 == u && e.2.valid)).length
  else if 0x100 ≤ o ∧ o < 0x300 ∧ o % 0x40 = 0x18 then some (tableValid s u ((o - 0x100) / 0x40))
  else none

/-- The live registers of an EGP (Table 9.12): cache lines in use, and the record that DIR_SEL shows. -/
def viewEgp (s : State) (u o : Nat) : Option Nat :=
  if o = Off.egp_HRC_USED then
    some (s.egp.dir.foldl (fun a e => let t : Tab := ⟨e.2⟩; a + hotRows s u e.1 * (t.pitch / 64)) 0)
  else if 0x080 ≤ o ∧ o < 0x0C0 then
    some (wordOf ((smFind (s.io.bf (bEgp u) Off.egp_DIR_SEL 9 0) s.egp.dir).getD []) ((o - 0x080) / 4))
  else none

/-- The live registers of a merge tree (Table 10.9): the group that GRP_SEL shows. -/
def viewMerge (s : State) (d o : Nat) : Option Nat :=
  let g := s.io.bf (bMerge d) Off.merge_GRP_SEL 7 0
  if o = Off.merge_GRP_STAT then
    some (match mergeGroup s d g with
      | some x => 2 ^ 31 + 2 ^ 30 * b2n x.remote + 2 ^ 29 * b2n x.sender + 2 ^ 16 * (((oldestInst s d g).map (fun i => i.parts.length)).getD 0 % 128)
          + x.total % 128
      | none => 0)
  else if o = Off.merge_GRP_INST then some (smGet 0 (groupKey d g) s.merge.count % 2 ^ 32)
  else none

/-- The live registers of a Caller (Tables 13.14 to 13.17). -/
def viewCaller (s : State) (d o : Nat) : Option Nat :=
  let c := s.caller d
  if o = Off.caller_SLOTS_USED then some (slotsUsed s d)
  else if o = Off.caller_TIMERS_USED then some c.timers.length
  else if o = Off.caller_TMPL_VALID then some (c.tmpls.filter (fun e => (Tmpl.mk e.2).valid)).length
  else if 0x1040 ≤ o ∧ o < 0x1440 then
    let l := (o - 0x1040) / 0x80
    if (o - 0x1040) % 0x80 = 0 then some (c.ready.filter (fun t => taskPri s t == l)).length
    else if (o - 0x1040) % 0x80 = 0xC then some (((oldestReady s d l).map (fun t => ticksSince s t.readyAt)).getD 0)
    else none
  else if 0x2040 ≤ o ∧ o < 0x2640 then
    let n := 48 * d + (o - 0x2040) / 0x20
    let nx := smFind n c.next
    let run := (s.core n).task
    match (o - 0x2040) % 0x20 with
    | 0x00 => some (2 * b2n nx.isSome + b2n run.isSome)
    | 0x0C => some ((run.map (fun t => t.id)).getD 0)
    | 0x10 => some ((nx.map (fun t => t.id)).getD 0)
    | _ => none
  else if 0x3080 ≤ o ∧ o < 0x3100 then
    some (wordOf ((smFind (s.io.bf (bCaller d) Off.caller_TMPL_SEL 13 0) c.tmpls).getD []) ((o - 0x3080) / 4))
  else
    let f : Flow := smGet {} (s.io.bf (bCaller d) Off.caller_FLOW_SEL 12 0) c.flows
    if o = Off.caller_FLOW_STAT then some (2 ^ 31 * b2n f.assigned + f.window.length % 2048)
    else if o = Off.caller_NEXT_POS then some (f.next % 2 ^ 32)
    else if o = Off.caller_REL_POS then some (f.rel % 2 ^ 32)
    else if o = Off.caller_HEAD_AGE then some ((f.window.head?.map (fun w => ticksSince s w.at_)).getD 0)
    else none

/-- The live registers of admission (Table 14.9). -/
def viewAdmit (s : State) (o : Nat) : Option Nat :=
  let best : Ctx → Bool := fun c => (s.service? c.svc).any (fun v => !v.deadline)
  let nib : Nat → Nat → Nat := fun lo n => (List.range n).foldl (fun a i => a + smGet 0 (lo + i) s.adm.guard % 16 * 16 ^ i) 0
  if o = Off.admit_SLOTS_PINNED then some (slotsPinned s)
  else if o = Off.admit_CTX_LIVE then some (s.adm.ctxs.filter (fun e => e.2.st == .live && best e.2)).length
  else if o = Off.admit_CTX_PARKED then some (s.adm.ctxs.filter (fun e => e.2.st == .parked || e.2.st == .waking)).length
  else if o = Off.admit_SERVICES then some s.adm.services.length
  else if o = Off.admit_GUARD_LO then some (nib 0 8)
  else if o = Off.admit_GUARD_HI then some (nib 8 4)
  else none

/-- The live registers of a memory controller (Table 15.7); KEY_GEN is 0 on HBM. -/
def viewMem (s : State) (b : Block) (o : Nat) : Option Nat :=
  let m := s.mem
  if o = Off.hbm_MEM_INFO then
    some (match b.kind with
      | .hbm => if m.hbmUp.contains b.inst then 8000 * 2 ^ 16 + 48 else 0
      | .ddr => if m.ddrUp.contains b.inst then m.ddrRate * 2 ^ 16 + m.ddrBytes / 10 ^ 9 else 0
      | _ => if m.cxlUp.contains b.inst then
          speedGts (s.io.bf b Off.cxl_LINK 3 0) * 2 ^ 16 + m.cxlRaw.getD b.inst 0 / 10 ^ 9 % 2 ^ 16 else 0)
  else if o = Off.hbm_KEY_GEN then some (if b.kind = .hbm then 0 else m.keyGen % 2 ^ 32)
  else none

/-- The live registers of placement (Table 15.9). -/
def viewMigr (s : State) (o : Nat) : Option Nat :=
  let m := s.mem
  if o = Off.migr_POOL_USED then some m.promoted.length
  else if 0x060 ≤ o ∧ o < 0x0A0 then some (half ((o / 4) % 2) (m.t1Len ((o - 0x060) / 8)))
  else if 0x0A0 ≤ o ∧ o < 0x0A8 then some (half ((o / 4) % 2) m.t2Len)
  else if 0x0A8 ≤ o ∧ o < 0x0B8 then some (half ((o / 4) % 2) (m.t3Len ((o - 0x0A8) / 8)))
  else none

/-- The session that SESS_SEL shows (Table 16.8): its state, credits outstanding and context. -/
def viewSession (s : State) (o : Nat) : Option Nat :=
  let n := s.io.bf bSession Off.session_SESS_SEL 13 0
  let x := smFind n s.host.sess
  if o = Off.session_SESS_STAT then
    some (match x with
      | some x => 2 ^ 30 * x.st + 2 ^ 27 * (if x.fwd.isSome then x.credits % 8
          else ((smGet {} x.cn s.host.ing).resv.filter (fun r => r.1 == n)).length % 8) + x.cn % 2 ^ 16
      | none => 0)
  else if o = Off.session_MESSAGES_LO ∨ o = Off.session_MESSAGES_HI then
    some (half ((o / 4) % 2) ((x.map (fun x => x.msgs)).getD 0))
  else none

/-- The live registers of the Reel block (Table 17.13). -/
def viewReel (s : State) (o : Nat) : Option Nat :=
  let i := s.io.bf bReel Off.reel_ROUTE_SEL 11 0
  if o = Off.reel_FT_LO ∨ o = Off.reel_FT_HI then some (half ((o / 4) % 2) (s.fab.ft / 2 ^ 32))
  else if o = Off.reel_ROUTE_ENT then
    let e : RouteEnt := smGet {} i s.fab.routes
    some (2 ^ 28 * e.links.length + 2 ^ 20 * hopsOf s i + (e.links.zipIdx.foldl (fun a x => a + x.1 % 16 * 16 ^ x.2) 0))
  else if o = Off.reel_UID_OF_LO ∨ o = Off.reel_UID_OF_HI then
    let u := if ownAddr s = some i then ownUid s else ((s.fab.db.find? (fun e => e.2.addr == i)).map Prod.fst).getD 0
    some (half ((o / 4) % 2) u)
  else none

/-- The live registers of the Factor (Table 18.12). -/
def viewFactor (s : State) (o : Nat) : Option Nat :=
  let f := s.fac
  let img := (f.booted.map (fun i => slotImage f i)).getD []
  if o = Off.factor_FW_INFO then
    some (2 ^ 26 * (f.fuses.floor % 64) + 2 ^ 20 * (imgSvn img % 64) + 2 * b2n (f.booted.any (fun i => i != f.active)) + f.booted.getD 0)
  else if o = Off.factor_FW_VER then some (imgVersion img)
  else if o = Off.factor_LC_INFO then some (2 ^ 31 * b2n f.wipePending + f.lc)
  else if o = Off.factor_WIPE_STAT then
    some (if s.rst.phase = 6 then 4 * b2n f.fillT3 + 2 * b2n f.fillT2 + 1 else 0)
  else if o = Off.factor_CAL_STAT then
    some (match calUse f with
      | some i => (f.cal.getD i {}).gen % 2 ^ 31
      | none => 2 ^ 31)
  else if o = Off.factor_LOG_NEXT_LO ∨ o = Off.factor_LOG_NEXT_HI then some (half ((o / 4) % 2) f.nextSeq)
  else if o = Off.factor_BOOT_COUNT then some (f.bootCount % 2 ^ 32)
  else none

/-- CLK_STAT (Table 19.17): the main-island clocks run from the end of CLOCK; in D3hot CORE_CLK and NOC_CLK are stopped
(R503, R517). -/
def clkStat (s : State) : Nat :=
  let r := s.rst
  let main := railsUp s && !(decide (1 ≤ r.phase) && decide (r.phase ≤ 4) && r.device.any (fun d => decide (d.scope = .cold)))
  let cdie := main && r.power != .d3hot
  2 ^ 31 * b2n r.refOk + 2 ^ 30 * b2n r.refOk + 2 ^ 29 * b2n r.osc + 16 * b2n r.vaux + 8 * b2n r.vaux + 4 * b2n main + 2 * b2n cdie + b2n cdie

/-- The live registers of event delivery (Table 20.6): what is offlined (R534). -/
def viewEvtq (s : State) (o : Nat) : Option Nat :=
  if o = Off.evtq_OFF_CORE_LO_LO then some (bitSet 32 (fun i => s.io.isOffline (bCore i)))
  else if o = Off.evtq_OFF_CORE_LO_HI then some (bitSet 32 (fun i => s.io.isOffline (bCore (32 + i))))
  else if o = Off.evtq_OFF_CORE_HI then some (bitSet 32 (fun i => s.io.isOffline (bCore (64 + i))))
  else if o = Off.evtq_OFF_DIE then
    some (2 ^ 12 * bitSet 2 (fun d => s.io.isOffline (bCaller d)) + bitSet 12 (fun c => s.io.isOffline (bAssayer c)))
  else none

/-- The live registers of the global page (Table 2.12). -/
def viewGlb (s : State) (o : Nat) : Option Nat :=
  if o = Off.glb_ARCH then some (s.io.br bGlb Off.glb_ARCH + Config.stepping.toNat)
  else if o = Off.glb_DEV_UID_LO then some (half 0 Config.deviceUid.toNat)
  else if o = Off.glb_DEV_UID_HI then some (half 1 Config.deviceUid.toNat)
  else if o = Off.glb_DEV_STAT then some (devStat s)
  else if o = Off.glb_APT_SIZE then some (s.io.bar4Log2 - 4)
  else none

/-- The word of a block's register at a block offset where it shows the block's state. -/
def viewOf (s : State) (b : Block) (o : Nat) : Option Nat :=
  match b.kind with
  | .glb => viewGlb s o
  | .fcore => viewFcore s b.inst o
  | .carter => viewCarter s b.inst o
  | .assayer => viewAssayer s b.inst o
  | .egp => viewEgp s b.inst o
  | .merge => viewMerge s b.inst o
  | .weaver => if o = Off.weaver_CTX_VALID then some (ctxValid s ((weaver s b.inst).active.head?.map (fun c => c.cn))) else none
  | .caller => viewCaller s b.inst o
  | .admission => viewAdmit s o
  | .hbm | .ddr | .cxl => viewMem s b o
  | .migr => viewMigr s o
  | .pcie => if o = Off.pcie_PRI_STAT then some (2 ^ 31 * b2n s.host.priStopped + min 512 s.host.priPages.length) else none
  | .eth =>
    if 0x60 ≤ o ∧ o < 0x70 then some (smGet 0 (64 * b.inst + 4 * s.io.bf b Off.eth_GID_SEL 3 0 + (o - 0x60) / 4) s.host.gids).toNat else none
  | .session => viewSession s o
  | .time => if o = Off.time_TB_LO ∨ o = Off.time_TB_HI then some (half ((o / 4) % 2) s.io.tb) else none
  | .reel => viewReel s o
  | .factor => viewFactor s o
  | .clkrst => if o = Off.clkrst_CLK_STAT then some (clkStat s) else none
  | .evtq => viewEvtq s o
  | .winnower | .power | .ctxt | .d2d | .noc | .reelLink => none

/-- The word that a register shows, write-only fields and READY apart: HALT_ON_EXC reads 0 outside DEBUG_OPEN (R184), and
LOG_MASK bits 9 to 13 read 1 (R526). -/
def shownWord (s : State) (off : Nat) : Nat :=
  match pageAt off with
  | none => 0
  | some (b, _) =>
    let off := normOff off
    let o := off - b.base
    if o = 0x00C then blkStat s b
    else if o = 0x008 ∧ b.kind = .fcore ∧ s.fac.lc ≠ 3 then putBits (s.io.reg off) 8 8 0
    else if o = Off.evtq_LOG_MASK ∧ b.kind = .evtq then putBits (s.io.reg off) 13 9 31
    else if o < 0x040 then s.io.reg off
    else (viewOf s b o).getD (s.io.reg off)

end Sys2Proof.Machine
end

