-- ==== Sys2Proof/Machine/ResetRows.lean ====
section
/-! DEFINITION. The commands of resets, power and containment (R419, R503, R507 to R517, R533, R534). -/

namespace Sys2Proof.Machine

/-- A write of RST_CMD: its scope is reset, or BAD_RESET (R508, Table 19.17). -/
def rstCommand (s : State) (v : Nat) : State :=
  let t := bitsOf v 7 0
  let bad := s.mapIo (fun io => io.capture bClkrst Code.BAD_RESET (bClkrst.base + Off.clkrst_RST_CMD))
  match bitsOf v 31 28 with
  | 0 => s
  | 1 => if t ≠ 0 then bad else startDevice s false 5 true
  | 2 => if 2 ≤ t then bad else startUnit s (.die t) 5 true
  | 3 => if 12 ≤ t then bad else startUnit s (.cluster t) 5 true
  | 4 => if 96 ≤ t then bad else startUnit s (.core t) 5 true
  | 5 => if t ≠ 0 then bad else startDevice s true 5 true
  | _ => bad

/-- RST_CMD under the access rules of R43 and R44. -/
def rstWrite (s : State) (who : Requester) (v : Nat) : State :=
  match writeAllowed s.io who bClkrst (bClkrst.base + Off.clkrst_RST_CMD) with
  | some io => { s with io := io }
  | none => rstCommand s v

/-- RST_CMD with SCOPE DEVICE_WARM (R507). -/
def execDeviceWarm (who : Requester) (s : State) : Host.Outcome State Fault Refusal := .next (rstWrite s who (1 * 2 ^ 28))

/-- RST_CMD with SCOPE DEVICE_COLD (R507). -/
def execDeviceCold (who : Requester) (s : State) : Host.Outcome State Fault Refusal := .next (rstWrite s who (5 * 2 ^ 28))

/-- RST_CMD with SCOPE DIE (R507). -/
def execDieReset (who : Requester) (target : Nat) (s : State) : Host.Outcome State Fault Refusal :=
  .next (rstWrite s who (2 * 2 ^ 28 + target % 256))

/-- RST_CMD with SCOPE CLUSTER (R507). -/
def execClusterReset (who : Requester) (target : Nat) (s : State) : Host.Outcome State Fault Refusal :=
  .next (rstWrite s who (3 * 2 ^ 28 + target % 256))

/-- RST_CMD with SCOPE CORE (R507). -/
def execCoreReset (who : Requester) (target : Nat) (s : State) : Host.Outcome State Fault Refusal :=
  .next (rstWrite s who (4 * 2 ^ 28 + target % 256))

/-- BLK_CTRL.RESET written 1: a reset of block scope; other bits of the write, ENABLE among them, have no effect (R38,
R507, Table 2.6). -/
def blockReset (s : State) (who : Requester) (b : Block) (v : Nat) : State :=
  if instances b.kind ≤ b.inst ∨ !bitOf v 1 then s
  else match writeAllowed s.io who b (b.base + 0x008) with
    | some io => { s with io := io }
    | none => startUnit s (.block b) 12 false

/-- BLK_CTRL_RESET (R507). -/
def execBlkCtrlReset (who : Requester) (b : Block) (value : W32) (s : State) : Host.Outcome State Fault Refusal :=
  .next (blockReset s who b value.toNat)

/-- RESET_PHASE_COMPLETE: a phase of the device reset ends after so many µs (R510), with what trained, the cores that
fail the self-test and the durations of the wipe's parts. -/
def execResetPhaseComplete (micros : Nat) (trained : List Block) (cxl : List (Nat × Nat × Nat × Nat)) (fails wipes : List Nat) (s : State) :
    Host.Outcome State Fault Refusal :=
  let last := s.rst.device.isSome && decide (s.rst.phase = 7)
  let t := phaseEnds micros trained cxl wipes s
  if !last then .next t
  else .next ((fails.filter (fun n => n < 96 && !t.io.isOffline (bCore n))).foldl (fun s n =>
    let s := s.mapIo (fun io => io.note (bCore n) Cls.CONTAINMENT Code.SELFTEST_FAIL none (bCore n).base 0)
    contain 4 s (.core n) (bCore n) Code.SELFTEST_FAIL) t)

/-- UNIT_RESET_COMPLETE: a smaller reset ends, its self-test and training passed or failed (R512). -/
def execUnitResetComplete (scope : Scope) (fail : Option Nat) (s : State) : Host.Outcome State Fault Refusal := .next (unitEnds s scope fail)

/-- CXL_TRAIN_TIMEOUT: a port untrained 100 ms after CLOCK is taken as empty (R510). -/
def execCxlTrainTimeout (port : Nat) (s : State) : Host.Outcome State Fault Refusal :=
  if s.rst.phase ≠ 5 then .next s else .next { s with rst := { s.rst with cxlOut := s.rst.cxlOut ++ [port] } }

/-- VAUX_RISE: a cold reset of cause 0 (R507, R514); without REFCLK the standby oscillator runs (R503). -/
def execVauxRise (s : State) : Host.Outcome State Fault Refusal :=
  if s.rst.vaux then .next s
  else
    let r := { s.rst with vaux := true, power := PowerState.standby, thermtripN := true, thermalDown := false, osc := !s.rst.refOk }
    .next (startDevice { s with rst := r } true 0 false)

/-- VAUX_LOSS: the rails fall and the whole device stops; records not yet in flash are lost (R480, R514). -/
def execVauxLoss (s : State) : Host.Outcome State Fault Refusal :=
  let s := freshDevice (railsFall s) true
  .next { s with rst := { s.rst with vaux := false, factorUp := false, power := .off, osc := false } }

/-- VIN out of range: the rails fall, and the Factor logs it with VIN in mV (R514). -/
def vinFails (s : State) (b : Block) (code mv : Nat) : State :=
  if !s.rst.vaux then { s with rst := { s.rst with vin := false } }
  else
    let s := railsFall s
    facRecord { s with rst := { s.rst with vin := false, vinLost := true } } b Cls.FATAL code 0 mv

/-- VIN_LOSS (R514). -/
def execVinLoss (mv : Nat) (s : State) : Host.Outcome State Fault Refusal := .next (vinFails s bFactor Code.VIN_LOSS mv)

/-- VIN_OV (R514). -/
def execVinOv (mv : Nat) (s : State) : Host.Outcome State Fault Refusal := .next (vinFails s bPower Code.VIN_OV mv)

/-- VIN_RETURN: a cold reset of cause 2 (R514). -/
def execVinReturn (s : State) : Host.Outcome State Fault Refusal :=
  if s.rst.vin then .next s
  else
    let t := { s with rst := { s.rst with vin := true, vinLost := false } }
    if s.rst.vinLost then .next (startDevice t true 2 false) else .next t

/-- VIN_RISE: VIN has reached 40 V, and the P-die may start (R514). -/
def execVinRise (s : State) : Host.Outcome State Fault Refusal :=
  if s.rst.vin ∨ s.rst.vinLost then .next s else .next { s with rst := { s.rst with vin := true } }

/-- REFCLK_LOSS: with the rails up they fall and the loss is logged; else the standby oscillator runs (R503). -/
def execRefclkLoss (s : State) : Host.Outcome State Fault Refusal :=
  if !s.rst.vaux then .next { s with rst := { s.rst with refOk := false } }
  else if !s.rst.refOk then .next s
  else
    let up := railsUp s
    let s := { s with rst := { s.rst with refOk := false, osc := true } }
    if !up then .next s
    else
      let s := railsFall { s with rst := { s.rst with refLost := true } }
      let s := facNote s bClkrst 2 Cls.FATAL Code.REFCLK_LOSS 0
      .next (s.mapIo (fun io => io.riseQuiet bClkrst 3))

/-- REFCLK_RETURN: after a loss that took the rails down, a cold reset of cause 3 (R503). -/
def execRefclkReturn (s : State) : Host.Outcome State Fault Refusal :=
  let t := { s with rst := { s.rst with refOk := true, osc := false, refLost := false } }
  if s.rst.refLost then .next (startDevice t true 3 false) else .next t

/-- COLD_RST_N changes: low for 1 µs is a cold reset of cause 1, and ASSERT lasts while it is low (R507, R519). -/
def execColdRstN (low : Bool) (s : State) : Host.Outcome State Fault Refusal :=
  let s := { s with rst := { s.rst with coldRstN := !low } }
  if low then .next (startDevice s true 1 false) else .next s

/-- PERST_N changes: low is a warm reset of cause 6 (R507, R519). -/
def execPerstN (low : Bool) (s : State) : Host.Outcome State Fault Refusal :=
  let s := { s with rst := { s.rst with perstN := !low } }
  if low then .next (startDevice s false 6 false) else .next s

/-- PCIE_HOT_RESET: a warm reset of cause 8 (R507). -/
def execPcieHotReset (s : State) : Host.Outcome State Fault Refusal := .next (startDevice s false 8 false)

/-- FUNCTION_LEVEL_RESET: a warm reset of cause 7 (R419). -/
def execFunctionLevelReset (s : State) : Host.Outcome State Fault Refusal := .next (startDevice s false 7 false)

/-- D3HOT_ENTRY: intake stops; once no context is ACTIVE the C-die clocks stop (R517). -/
def execD3hotEntry (s : State) : Host.Outcome State Fault Refusal :=
  match s.rst.power with
  | .d0 => .next { s with rst := { s.rst with power := .d3pend } }
  | .d3pend => if s.adm.ctxs.any (fun e => ctxActive s e.1) then .next s else .next { s with rst := { s.rst with power := .d3hot } }
  | _ => .next s

/-- D0_RETURN: clocks run again, all state kept, and credits are granted again (R517). -/
def execD0Return (s : State) : Host.Outcome State Fault Refusal :=
  if s.rst.power = .d3pend ∨ s.rst.power = .d3hot then
    let s := { s with rst := { s.rst with power := PowerState.d0 } }
    .next (s.adm.ctxs.foldl (fun s e => creditsFor s e.1) s)
  else .next s

/-- HW_ERROR of a block: recorded and contained in its domain (R533); nothing runs while the main island is down. -/
def execHwError (b : Block) (code loc : Nat) (s : State) : Host.Outcome State Fault Refusal :=
  if !railsUp s ∨ s.rst.device.isSome ∨ instances b.kind ≤ b.inst then .next s
  else
    let s := s.mapIo (fun io => io.note b Cls.CONTAINMENT Code.HW_ERROR none b.base loc)
    .next (contain 4 s (domainOf b) b code)

/-- A write of EVTQ.ONLINE: the scope is reset and tested (R534), or BAD_RESET. -/
def onlineCommand (s : State) (v : Nat) : State :=
  let t := bitsOf v 7 0
  let go : Scope → State := fun x => startUnit { s with evt := { s.evt with onlining := s.evt.onlining ++ [x] } } x 11 false
  let bad := s.mapIo (fun io => io.capture bEvtq Code.BAD_RESET (bEvtq.base + Off.evtq_ONLINE))
  match bitsOf v 31 28 with
  | 2 => if 2 ≤ t then bad else go (.die t)
  | 3 => if 12 ≤ t then bad else go (.cluster t)
  | 4 => if 96 ≤ t then bad else go (.core t)
  | _ => bad

/-- ONLINE (R534). -/
def execOnlineWrite (who : Requester) (value : W32) (s : State) : Host.Outcome State Fault Refusal :=
  match writeAllowed s.io who bEvtq (bEvtq.base + Off.evtq_ONLINE) with
  | some io => .next { s with io := io }
  | none => .next (onlineCommand s value.toNat)

end Sys2Proof.Machine
end

