-- ==== Sys2Proof/Machine/Sessions.lean ====
section
/-! DEFINITION. Sessions, Ethernet and time: R431 to R439, R466. -/

namespace Sys2Proof.Machine

/-- The checks of SESS_BIND in order (R433): a code, or the context and the flow. -/
def sessBindCheck (s : State) (c : Cmd) : Except Nat (Ctx × Nat) :=
  if sessTaken s c then .error Code.SESS_RANGE
  else match s.ctx? (c.p 0x12 2) with
    | none => .error Code.NO_CONTEXT
    | some x =>
      if (inRegion s x.cn).isNone then .error Code.NO_INGRESS
      else match inPortCheck s x.svc (c.p 0x14 2) (c.p 0x16 1) with
        | some e => .error e
        | none =>
          if badClass s x.svc (c.p 0x38 2) ∨ sessRange c then .error Code.SESS_RANGE
          else match freeFlowNo s x.home with
            | none => .error Code.FLOW_FULL
            | some f => .ok (x, f)

/-- SESS_BIND (R433). -/
def execSessBind (c : Cmd) (s : State) : Host.Outcome State Fault Refusal :=
  match sessBindCheck s c with
  | .error e => .next (refuse s c e)
  | .ok (x, f) =>
    let w := c.p 0x14 2
    let q : Sess := { sessOf c x.cn with tmpl := w % 16384, die := w / 32768, port := c.p 0x16 1, classId := c.p 0x38 2, flow := some f }
    .next (creditsFor (finish (setSess (giveFlow s x.home f) (c.p 0x10 2) q) c Code.OK) x.cn)

/-- SESS_UNBIND: refused while a record of the session is not passed, or a message is still being forwarded (R437). -/
def execSessUnbind (c : Cmd) (s : State) : Host.Outcome State Fault Refusal :=
  let n := c.p 0x10 2
  match smFind n s.host.sess with
  | none => .next (refuse s c Code.SESS_RANGE)
  | some x =>
    if notPassed s x.cn (fun k => k == n) || s.fab.msgs.any (fun m => m.why == .session n) then .next (refuse s c Code.SESS_BUSY)
    else .next (creditsFor (finish (unbindSess s n) c Code.OK) x.cn)

/-- A message that exceeds its limit is answered with NAK Invalid Request, and the session enters ERROR (R434). -/
def oversize (s : State) (n : Nat) : State :=
  (sessError s n Code.MSG_SIZE).mapIo (fun io => io.send ⟨"ROCE_NAK", n, 0, []⟩)

/-- A protocol error puts the session in ERROR; the rules name no cause code for it, so that the code is a free value
(R437, log entry 41). -/
def protocolError (s : State) (n : Nat) : State :=
  let (v, io) := s.io.takeFree
  sessError { s with io := io } n (v.toNat % 65536)

/-- A message without a credit receives an RNR NAK (R435). -/
def rnrNak (s : State) (n : Nat) : State :=
  s.mapIo (fun io => (io.count bSession Off.session_RNR_SENT 1).send ⟨"ROCE_RNR", n, 0, []⟩)

/-- The session has received a message: its number, and the acknowledgement that goes out. -/
def sessGot (s : State) (n : Nat) (x : Sess) (len : Nat) : State :=
  let pk := max 1 (cdiv len x.mtuBytes)
  (setSess s n { x with msgs := x.msgs + 1, psnRx := (x.psnRx + pk) % 2 ^ 24 }).mapIo (fun io =>
    io.send ⟨"ROCE_ACK", n, (x.psnRx + pk - 1) % 2 ^ 24, []⟩)

/-- A message for the local ingress ring (R434, R435). -/
def messageIn (s : State) (n : Nat) (x : Sess) (data : List Byte) : State :=
  let s := sessGot s n x data.length
  let m := x.msgs % 2 ^ 32
  let (off, s) := placeMessage s x.cn n m x.maxMsg data false
  let svc := ((s.ctx? x.cn).map (fun c => c.svc)).getD 0
  let cls := if x.classId = 0xFFFF then none else some x.classId
  let (rel, s) := match cls with
    | some c => releaseAt s x.cn svc c
    | none => (s.io.tb, s)
  arrive s { die := x.die, tmpl := x.tmpl, port := x.port, key := n * 2 ^ 32 + m, val := data.length * 2 ^ 32 + off, ctx := x.cn, svc := svc,
             flow := x.flow, rel := rel, cls := cls, src := .session n, arr := some (x.cn, n, m) }

/-- A message that a session forwards (R466). -/
def messageFwd (s : State) (n : Nat) (x : Sess) (dst inbox : Nat) (data : List Byte) : State :=
  let s := sessGot s n { x with credits := x.credits - 1 } data.length
  queueMsg s dst inbox data [] (.session n)

/-- A SEND message on a session that is RTS (R434, R435, R466). -/
def sendIn (s : State) (sess : Nat) (x : Sess) (data : List Byte) : State :=
  match x.fwd with
  | none =>
    if x.maxMsg < data.length then oversize s sess
    else if (ingress s x.cn).creditsOf sess = 0 then rnrNak s sess
    else messageIn s sess x data
  | some (dst, inbox) =>
    let lim := min x.maxMsg ((smFind (dst * 65536 + inbox) s.fab.maxMsgs).getD x.maxMsg)
    if lim < data.length then oversize s sess
    else if x.credits = 0 then rnrNak s sess
    else messageFwd s sess x dst inbox data

/-- SEND_MESSAGE: a complete SEND message arrives on a session; `none` is a request of another opcode, which is answered
with NAK Invalid Request (R432, R434). -/
def execSendMessage (sess : Nat) (data : Option (List Byte)) (s : State) : Host.Outcome State Fault Refusal :=
  match smFind sess s.host.sess with
  | none => .next s
  | some x =>
    if x.st ≠ 1 then .next s
    else match data with
      | none => .next ((protocolError s sess).mapIo (fun io => io.send ⟨"ROCE_NAK", sess, 0, []⟩))
      | some d => .next (sendIn s sess x d)

/-- ECN_CE_RECEIVED: a CNP, at most once per 50 µs per session (R432). -/
def execEcnCeReceived (sess : Nat) (s : State) : Host.Outcome State Fault Refusal :=
  match smFind sess s.host.sess with
  | none => .next s
  | some x =>
    if x.lastCnpTx.any (fun t => decide (s.io.tb < t + 5000)) then .next s
    else .next ((setSess s sess { x with lastCnpTx := some s.io.tb }).mapIo (fun io => io.send ⟨"CNP", sess, 0, []⟩))

/-- CNP_RECEIVED: the send rate halves (R432). -/
def execCnpReceived (sess : Nat) (s : State) : Host.Outcome State Fault Refusal :=
  match smFind sess s.host.sess with
  | none => .next s
  | some x => .next (setSess s sess { x with rate := max 1 (x.rate / 2), lastCnpRx := some s.io.tb })

/-- RATE_INCREASE: each 55 µs without a CNP adds 1/16 of line rate (R432). -/
def execRateIncrease (sess : Nat) (s : State) : Host.Outcome State Fault Refusal :=
  match smFind sess s.host.sess with
  | none => .next s
  | some x =>
    if x.rate < 1048576 ∧ x.lastCnpRx.any (fun t => decide (t + 5500 ≤ s.io.tb)) then
      .next (setSess s sess { x with rate := min 1048576 (x.rate + 65536), lastCnpRx := some s.io.tb })
    else .next s

/-- A session's unacknowledged messages are sent again. -/
def sessResend (s : State) (n : Nat) (x : Sess) : State :=
  x.unacked.foldl (fun s e => s.mapIo (fun io => io.send ⟨"ROCE_SEND", n, (e.1 + 2 ^ 24 + 1 - max 1 (cdiv e.2.length x.mtuBytes)) % 2 ^ 24, e.2⟩)) s

/-- A transport retry: beyond seven the session enters ERROR (R432, R437). -/
def sessRetry (s : State) (n : Nat) (x : Sess) : State :=
  if 7 ≤ x.retries then sessError s n Code.SESS_DOWN
  else sessResend (setSess s n { x with retries := x.retries + 1 }) n x

/-- ROCE_ACK: the answer of a peer to a SEND: acknowledged, to be retried, refused, or not ready (R432, R437, R438). -/
def execRoceAck (sess psn : Nat) (kind : AckKind) (s : State) : Host.Outcome State Fault Refusal :=
  match smFind sess s.host.sess with
  | none => .next s
  | some x =>
    if x.st ≠ 1 then .next s
    else
      let left := x.unacked.filter (fun e => decide (2 ^ 23 ≤ (psn + 2 ^ 24 - e.1) % 2 ^ 24))
      match kind with
      | .ack => .next (setSess s sess { x with unacked := left, retries := 0, rnrHeld := false })
      | .nak 0 => .next (sessRetry s sess x)
      | .nak _ => .next (protocolError s sess)
      | .rnr => .next (setSess s sess { x with rnrHeld := true })

/-- LOCAL_ACK_TIMEOUT: the RNR timer or the local ACK timeout of a session runs out (R432). -/
def execLocalAckTimeout (sess : Nat) (s : State) : Host.Outcome State Fault Refusal :=
  match smFind sess s.host.sess with
  | none => .next s
  | some x =>
    if x.st ≠ 1 ∨ x.unacked = [] then .next s
    else if x.rnrHeld then .next (sessResend (setSess s sess { x with rnrHeld := false }) sess x)
    else .next (sessRetry s sess x)

/-- ETH_LINK_CHANGE (R440). -/
def execEthLinkChange (port : Nat) (up : Bool) (s : State) : Host.Outcome State Fault Refusal :=
  if 2 ≤ port ∨ s.host.ethUp.contains port = up then .next s
  else
    let l := s.host.ethUp.filter (fun p => p ≠ port)
    .next ({ s with host := { s.host with ethUp := if up then port :: l else l } }.mapIo (fun io => io.rise (bEth port) 2))

/-- PTP_MESSAGE: with PTP and its servo enabled the Factor sets the clock and its frequency by the exchange; a change of
lock is an event (R439). -/
def execPtpMessage (sec ns : Nat) (locked : Bool) (ppb : W32) (s : State) : Host.Outcome State Fault Refusal :=
  if s.io.bf bTime Off.time_PTP_CTRL 0 0 = 0 ∨ s.io.bf bTime Off.time_PTP_CTRL 1 1 = 0 then .next s
  else
    let was := s.host.ptpLocked
    let s := { s with host := { s.host with ptpSec := sec % 2 ^ 48, ptpNs := ns % 1000000000, ptpFrac := 0, ptpLocked := locked } }
    let s := s.mapIo (fun io => io.setReg (bTime.base + Off.time_PTP_ADJ) ppb.toNat)
    .next (if was = locked then s else s.mapIo (fun io => io.rise bTime 2))

/-- The PTP clock advances by one tick of 10 ns, adjusted by PTP_ADJ (R439). -/
def ptpTick (s : State) : State :=
  if s.io.bf bTime Off.time_PTP_CTRL 0 0 = 0 then s
  else
    let step : Int := 1000000000 + signed 32 (s.io.br bTime Off.time_PTP_ADJ)
    let t : Int := s.host.ptpSec * 10 ^ 17 + s.host.ptpNs * 10 ^ 8 + s.host.ptpFrac + step
    let n := (t % (2 ^ 48 * 10 ^ 17)).toNat
    { s with host := { s.host with ptpSec := n / 10 ^ 17, ptpNs := n % 10 ^ 17 / 10 ^ 8, ptpFrac := n % 10 ^ 8 } }

/-- SNAP: the time base and the PTP clock are captured together (R439). -/
def execSnap (who : Requester) (s : State) : Host.Outcome State Fault Refusal :=
  match writeAllowed s.io who bTime (bTime.base + Off.time_SNAP) with
  | some io => .next { s with io := io }
  | none => .next (s.mapIo (fun io =>
      ((io.setReg64 (bTime.base + Off.time_PTP_SEC_LO) s.host.ptpSec).setReg (bTime.base + Off.time_PTP_NS) s.host.ptpNs).setReg64
        (bTime.base + Off.time_TB_SNAP_LO) io.tb))

/-- NON_ROCE_FRAME: dropped and counted (R431). -/
def execNonRoceFrame (port : Nat) (s : State) : Host.Outcome State Fault Refusal :=
  if 2 ≤ port then .next s else .next (s.mapIo (fun io => io.count (bEth port) Off.eth_DROPPED 1))

end Sys2Proof.Machine
end

