-- ==== Sys2Proof/Machine/RegWrite.lean ====
section
/-! DEFINITION. Reads and writes of registers over BAR0 and the Factor's sideband (R11, R29, R33, R36 to R45), driver
negotiation (R48 to R51) and the test access port (R499). -/

namespace Sys2Proof.Machine

/-- The state that a meaning's outcome leaves, for a register write that is such a command. -/
def outState (o : Host.Outcome State Fault Refusal) (s : State) : State :=
  match o with
  | .next t => t
  | _ => s

/-- Whether an access reaches the device: the host's needs the endpoint, and the Factor's its own island, and the rails
for any page outside it (R503, R516). -/
def reaches (s : State) (who : Requester) (off : Nat) : Bool :=
  match who with
  | .host => railsUp s
  | .factor => s.rst.vaux && (railsUp s || (pageAt off).any (fun p => standbyBlock p.1))

/-- The two forms of access that BAR0 accepts (R41). -/
def goodForm (off size : Nat) : Bool := (decide (size = 4) && decide (off % 4 = 0)) || (decide (size = 8) && decide (off % 8 = 0))

/-- BAD_ACCESS is captured in the page addressed, or in GLB for an empty page (R41). -/
def badAccess (s : State) (off : Nat) : State :=
  s.mapIo (fun io => io.capture (((pageAt off).map Prod.fst).getD bGlb) Code.BAD_ACCESS off)

/-- A requester's snapshot of an upper half (R42). -/
def snapOf (io : Io) (who : Requester) : Option (Nat × W32) :=
  match who with
  | .host => io.snapHost
  | .factor => io.snapFactor
def setSnap (io : Io) (who : Requester) (v : Option (Nat × W32)) : Io :=
  match who with
  | .host => { io with snapHost := v }
  | .factor => { io with snapFactor := v }

/-- A requester's staged lower half (R42). -/
def stagedOf (io : Io) (who : Requester) : Option (Nat × W32) :=
  match who with
  | .host => io.stageHost
  | .factor => io.stageFactor
def setStaged (io : Io) (who : Requester) (v : Option (Nat × W32)) : Io :=
  match who with
  | .host => { io with stageHost := v }
  | .factor => { io with stageFactor := v }

/-- The word that a read of one register returns: zero on an empty page and for a block-specific register while READY is 0
(R33, R44). -/
def readWord (s : State) (off : Nat) : W32 :=
  match pageAt off with
  | none => 0
  | some (b, _) =>
    if !s.io.ready b ∧ 0x040 ≤ off % 0x1000 then 0
    else BitVec.ofNat 32 (readable (fieldsAt (normOff off)) (shownWord s off))

/-- RC fields of a register clear as it is read (R11); nothing of a page whose READY is 0 is read. -/
def clearRead (s : State) (off : Nat) : State :=
  match pageAt off with
  | none => s
  | some (b, _) =>
    if !s.io.ready b ∧ 0x040 ≤ off % 0x1000 then s
    else s.mapIo (fun io => io.setReg off (afterRead (fieldsAt (normOff off)) (io.reg off)))

/-- A 4-byte read (R42): of a `_LO` it takes the snapshot, of a `_HI` it uses the one of its pair or the live half. -/
def read4 (s : State) (who : Requester) (off : Nat) : State :=
  let o := normOff off
  let v := readWord s off
  if isPairLo o then
    let hi := readWord s (o + 4)
    let s := clearRead (clearRead s o) (o + 4)
    s.mapIo (fun io => { setSnap io who (some (o, hi)) with read := [v] })
  else if isPairHi o then
    match snapOf s.io who with
    | some (t, hi) => if t = o - 4 ∧ (pageAt off).all (fun p => s.io.ready p.1) then s.mapIo (fun io => { setSnap io who none with read := [hi] })
                      else s.mapIo (fun io => { io with read := [v] })
    | none => s.mapIo (fun io => { io with read := [v] })
  else (clearRead s off).mapIo (fun io => { io with read := [v] })

/-- An 8-byte read: both halves in one operation, or two registers, and no snapshot (R42). -/
def read8 (s : State) (off : Nat) : State :=
  let l := readWord s off
  let h := readWord s (off + 4)
  (clearRead (clearRead s off) (off + 4)).mapIo (fun io => { io with read := [l, h] })

/-- A register read of any size and offset (R41). -/
def regRead (s : State) (who : Requester) (off size : Nat) : State :=
  if !reaches s who off then s.mapIo (fun io => { io with read := [] })
  else if !goodForm off size then
    (badAccess s off).mapIo (fun io => { io with read := List.replicate (cdiv size 4) 0xFFFFFFFF })
  else if size = 8 then read8 s off
  else read4 s who off

/-- Why a write is discarded, captured where its rule says: READY is 0, EVT_MASK apart, or the page is the Factor's to
write (R43, R44). -/
def writeRefused (s : State) (who : Requester) (b : Block) (off : Nat) : Option State :=
  let o := off % 0x1000
  if !s.io.ready b then
    if o = 0x014 then none else some (s.mapIo (fun io => io.capture bGlb Code.WRITE_NOT_READY off))
  else if who = .host ∧ !b.hostWr ∧ (o = 0x008 ∨ (0x040 ≤ o ∧ fieldsAt off ≠ [])) then
    some (s.mapIo (fun io => io.capture b Code.HOST_WRITE_DENIED off))
  else none

/-- CTR_CLEAR: every counter of the page, and on SESSION those of its sessions (Table 16.7). -/
def ctrClear (s : State) (b : Block) : State :=
  let s := s.mapIo (fun io => io.clearCounters b)
  if b.kind = .session then { s with host := { s.host with sess := s.host.sess.map (fun e => (e.1, { e.2 with msgs := 0 })) } }
  else s

/-- What follows a change of BLK_CTRL: a link enabled or disabled (R445), a mode forced (R125), a guard core lost (R386). -/
def afterCtrl (s t : State) (b : Block) : State :=
  let t := match b.kind with
    | .reelLink =>
      if !t.io.enabled b then (if (t.link b.inst).st = 0 then t else linkDisable t b.inst)
      else if (t.link b.inst).st = 0 then t.setLink b.inst { st := 1, signal := (t.link b.inst).signal } else t
    | .carter => if coreMode s b.inst = coreMode t b.inst then t else t.mapIo (fun io => io.rise b 6)
    | _ => t
  if b.kind = .fcore ∨ b.kind = .carter then
    let c := clusterOfCore b.inst
    guardLost t c (deadlineCores s c).length
  else t

/-- A write of BLK_CTRL (Table 2.6 and the chapters' bits): RESET alone when it is set; ENABLE of an always-on block ignores
0; HALT_ON_EXC ignores writes outside DEBUG_OPEN (R184). -/
def ctrlWrite (s : State) (who : Requester) (b : Block) (v : Nat) : State :=
  if bitOf v 1 then blockReset s who b v
  else
    let fs := fieldsAt (b.base + 0x008)
    let old := s.io.br b 0x008
    let new := applyWrite fs old v
    let new := if b.kind.alwaysOn then putBits new 0 0 1 else new
    let new := if b.kind = .fcore ∧ s.fac.lc ≠ 3 then putBits new 8 8 (bitsOf old 8 8) else new
    let clear := bitOf v 9 && fs.any (fun f => decide (f.lo = 9) && f.acc == .wo)
    let t := s.mapIo (fun io => io.setReg (b.base + 0x008) new)
    afterCtrl s (if clear then ctrClear t b else t) b

/-- A write of GLB.DRV_VER (R48, R49); MAJOR 0 withdraws also while PENDING. -/
def drvVerWrite (s : State) (v : Nat) : State :=
  let off := bGlb.base + Off.glb_DRV_VER
  if s.adm.ctxs ≠ [] ∨ s.adm.cmds.any (fun r => decide (r.cmd.ring = 0)) then s.mapIo (fun io => io.capture bGlb Code.DRV_VER_BUSY off)
  else
    let st := negState s.io
    let s := s.mapIo (fun io => io.setReg off v)
    if bitsOf v 31 24 = 0 then withdrawAll s
    else
      let s := if st = 2 ∨ st = 3 then withdrawAll s else s
      s.mapIo (fun io => io.setBf bGlb Off.glb_NEG_STAT 1 0 1)

/-- The feature mask (Table 2.13). -/
def featureMask (s : State) : Nat :=
  let links := (List.range 12).any (fun l => (s.link l).st == 4)
  bitSet 10 (fun b => match b with
    | 0 => true
    | 1 => s.mem.ddrUp.any (fun c => !s.mem.lost.contains ⟨.ddr, c⟩)
    | 2 => tier3Up s.mem
    | 3 | 7 => links
    | 4 => !s.io.isOffline bAdmit
    | 5 => s.host.atsEn && s.host.priEn
    | 6 => decide (s.io.bf bTime Off.time_PTP_CTRL 0 0 = 1)
    | 8 => true
    | 9 => decide (s.fac.lc = 3)
    | _ => false)

/-- NEGOTIATION: once the device is ready the Factor answers a PENDING request: major 1 with minor 0 is honoured, except in
BLANK and RETURNED; the control context then exists and takes the doorbell that was kept (R48, R50, R490). -/
def execNegotiation (s : State) : Host.Outcome State Fault Refusal :=
  if negState s.io ≠ 1 ∨ !bitOf (devStat s) 0 ∨ !facServes s then .next s
  else
    let off := bGlb.base + Off.glb_NEG_STAT
    if s.io.bf bGlb Off.glb_DRV_VER 31 24 ≠ 1 ∨ s.fac.lc = 0 ∨ s.fac.lc = 4 then .next (s.mapIo (fun io => io.setFld off 1 0 3))
    else
      let mask := featureMask s
      let s := s.mapIo (fun io => (((io.setFld off 31 24 1).setFld off 23 16 0).setReg64 (bGlb.base + Off.glb_FEAT_LO) mask).setFld off 1 0 2)
      match s.host.keptDb, s.ring? 0 with
      | some t, some r => .next ({ s with host := { s.host with keptDb := none } }.setRing 0 { r with sqTail := t })
      | _, _ => .next s

/-- Fields of which a write of 0 is ignored (Tables 8.11, 9.9, 15.9, 16.8, 17.9, 20.7). -/
def keepsOnZero (b : Block) (o : Nat) : List (Nat × Nat) :=
  match b.kind with
  | .assayer => if o = Off.assayer_SCRUB_CFG then [(15, 8)] else []
  | .egp => if o = Off.egp_HEAT_CFG then [(31, 16)] else []
  | .migr => if o = Off.migr_MIGR_CFG then [(31, 16)] else []
  | .session => if o = Off.session_CREDIT_MAX then [(2, 0)] else []
  | .reel => if o = Off.reel_HOLD ∨ o = Off.reel_E2E_CFG then [(15, 0)] else []
  | .evtq => if o = Off.evtq_CONTAIN_CFG then [(15, 8), (7, 0)] else []
  | _ => []

/-- A write of a register that only sets its fields (R11). -/
def plainWrite (s : State) (b : Block) (off v : Nat) : State :=
  let old := s.io.reg off
  let new := applyWrite (fieldsAt off) old v
  let new := (keepsOnZero b (off - b.base)).foldl (fun n f => if bitsOf n f.1 f.2 = 0 then putBits n f.1 f.2 (bitsOf old f.1 f.2) else n) new
  s.mapIo (fun io => io.setReg off new)

/-- A write of a Reel register that the database follows (R447 to R450). -/
def reelWrite (s : State) (o v : Nat) : State :=
  let s := plainWrite s bReel (bReel.base + o) v
  let s := fabUpdate s
  if o = Off.reel_ROUTE_CTRL then s else floodOwn s

/-- A word of the source GID that GID_SEL shows (Table 16.8). -/
def gidWrite (s : State) (b : Block) (o v : Nat) : State :=
  let k := 64 * b.inst + 4 * s.io.bf b Off.eth_GID_SEL 3 0 + (o - 0x60) / 4
  { s with host := { s.host with gids := smPut 0 k (BitVec.ofNat 32 v) s.host.gids } }

/-- A 4-byte write of a block-specific register that is no half of a pair. -/
def blockWrite (s : State) (who : Requester) (b : Block) (o v : Nat) : State :=
  let off := b.base + o
  let w := BitVec.ofNat 32 v
  let plain := plainWrite s b off v
  match b.kind with
  | .glb => if o = Off.glb_DRV_VER then drvVerWrite s v else plain
  | .clkrst => if o = Off.clkrst_RST_CMD then rstCommand s v else plain
  | .time =>
    if o = Off.time_SNAP then (if bitOf v 0 then outState (execSnap who s) s else s)
    else if o = Off.time_PTP_CTRL then plain.mapIo (fun io => setFeature io 6 (bitOf v 0))
    else plain
  | .evtq =>
    if o = Off.evtq_ONLINE then onlineCommand s v
    else if 0x1040 ≤ o ∧ o < 0x1440 ∧ o % 0x40 = 0x08 then outState (execQueueCfgWrite who ((o - 0x1040) / 0x40) w s) s
    else if 0x1040 ≤ o ∧ o < 0x1440 ∧ o % 0x40 = 0x18 then outState (execArmWrite who ((o - 0x1040) / 0x40) w s) s
    else plain
  | .factor => if o = Off.factor_MBX_DOORBELL then mbxRing s v else plain
  | .admission =>
    if o = Off.admit_ADM_CEIL then outState (execAdmCeilWrite who w s) s
    else if o = Off.admit_POWER_LIMIT then outState (execPowerLimitWrite who w s) s
    else plain
  | .migr =>
    if o = Off.migr_POOL then outState (execPoolWrite who w s) s
    else if o = Off.migr_MOVE_CMD then
      (if v % 4 = 1 then moveCmd s true else if v % 4 = 2 then moveCmd s false else s)
    else if o = Off.migr_SAMPLE then (if 10 < v % 16 then s else plain)
    else plain
  | .eth => if 0x60 ≤ o ∧ o < 0x70 then gidWrite s b o v else plain
  | .ctxt => if o = Off.ctxt_CTRL_RING then ctrlRingWrite s off v else plain
  | .reel =>
    if o = Off.reel_ROUTE_ENT then outState (execRouteEntWrite who w s) s
    else if o = Off.reel_FT_SNAP then (if bitOf v 0 then ftSnap s else s)
    else if o = Off.reel_ROOT_CFG ∨ o = Off.reel_ADDR_REQ ∨ o = Off.reel_ROUTE_CTRL then reelWrite s o v
    else plain
  | .caller => if o = Off.caller_TICK_CFG then outState (execTickCfgWrite who b.inst w s) s else plain
  | _ => plain

/-- Both halves of a pair take effect together (R42); those of R249, R421 and R543 have rules of their own. -/
def pairCommit (s : State) (b : Block) (off v : Nat) : State :=
  let o := off - b.base
  let plain := plainWrite (plainWrite s b off (v % 2 ^ 32)) b (off + 4) (v / 2 ^ 32)
  match b.kind with
  | .ctxt => if o = Off.ctxt_CTRL_SQ_BASE_LO ∨ o = Off.ctxt_CTRL_CQ_BASE_LO then ctrlRingWrite s off v else plain
  | .assayer => if 0x100 ≤ o ∧ o < 0x300 ∧ o % 0x40 = 0x08 then seedWrite s b.inst ((o - 0x100) / 0x40) v else plain
  | .evtq =>
    if 0x1040 ≤ o ∧ o < 0x1440 ∧ s.io.fld (qOff ((o - 0x1040) / 0x40) Off.evtq_CFG) 31 31 = 1 then
      s.mapIo (fun io => io.capture bEvtq Code.RING_BUSY off)
    else plain
  | _ => plain

/-- A 4-byte write of a header register (Tables 2.6 to 2.9). -/
def headerWrite (s : State) (who : Requester) (b : Block) (o v : Nat) : State :=
  match o with
  | 0x008 => ctrlWrite s who b v
  | 0x010 => plainWrite s b (b.base + 0x010) v
  | 0x014 => s.mapIo (fun io => io.writeMask b v)
  | 0x018 => s.mapIo (fun io => io.force b v)
  | 0x01C => if bitOf v 31 then s.mapIo (fun io => io.clearCapture b) else s
  | _ => s

/-- A 4-byte write at an offset, its access checks done (R42). -/
def write4 (s : State) (who : Requester) (b : Block) (off v : Nat) : State :=
  let o := off - b.base
  if o < 0x040 then headerWrite s who b o v
  else if isPairLo off then s.mapIo (fun io => setStaged io who (some (off, BitVec.ofNat 32 v)))
  else if isPairHi off then
    match stagedOf s.io who with
    | some (t, lo) =>
      if t = off - 4 then pairCommit (s.mapIo (fun io => setStaged io who none)) b (off - 4) (lo.toNat + 2 ^ 32 * v)
      else pairCommit s b (off - 4) (s.io.reg (off - 4) + 2 ^ 32 * v)
    | none => pairCommit s b (off - 4) (s.io.reg (off - 4) + 2 ^ 32 * v)
  else if fieldsAt off = [] then s
  else blockWrite s who b o v

/-- A 4-byte write at an offset: nothing on an empty page (R33), then R43, R44 and R42. -/
def writeAt (s : State) (who : Requester) (off v : Nat) : State :=
  match pageAt off with
  | none => s
  | some (b, _) =>
    match writeRefused s who b off with
    | some t => t
    | none => write4 s who b (normOff off) v

/-- An 8-byte write: a pair in one operation, or two registers, the lower first. -/
def write8 (s : State) (who : Requester) (off v : Nat) : State :=
  match pageAt off with
  | none => s
  | some (b, _) =>
    if isPairLo off ∧ 0x040 ≤ off % 0x1000 then
      match writeRefused s who b off with
      | some t => t
      | none => pairCommit s b off v
    else writeAt (writeAt s who off (v % 2 ^ 32)) who (off + 4) (v / 2 ^ 32)

/-- A register write of any size and offset (R41). -/
def regWrite (s : State) (who : Requester) (off size v : Nat) : State :=
  if !reaches s who off then s
  else if !goodForm off size then badAccess s off
  else if size = 8 then write8 s who off v
  else writeAt s who off (v % 2 ^ 32)

/-- REGISTER_WRITE (R41 to R44). -/
def execRegisterWrite (who : Requester) (off size : Nat) (value : W64) (s : State) : Host.Outcome State Fault Refusal :=
  .next (regWrite s who off size value.toNat)

/-- RC_FIELD_READ: a read of any register, with its RC fields cleared (R11, R41). -/
def execRcFieldRead (who : Requester) (off size : Nat) (s : State) : Host.Outcome State Fault Refusal :=
  .next (regRead s who off size)

/-- PAIR_LO_READ (R42). -/
def execPairLoRead (who : Requester) (off : Nat) (s : State) : Host.Outcome State Fault Refusal := .next (regRead s who off 4)

/-- PAIR_HI_READ (R42). -/
def execPairHiRead (who : Requester) (off : Nat) (s : State) : Host.Outcome State Fault Refusal := .next (regRead s who off 4)

/-- PAIR_LO_WRITE (R42). -/
def execPairLoWrite (who : Requester) (off : Nat) (value : W32) (s : State) : Host.Outcome State Fault Refusal :=
  .next (regWrite s who off 4 value.toNat)

/-- PAIR_HI_WRITE (R42). -/
def execPairHiWrite (who : Requester) (off : Nat) (value : W32) (s : State) : Host.Outcome State Fault Refusal :=
  .next (regWrite s who off 4 value.toNat)

/-- ENABLE: BLK_CTRL.ENABLE of a block written, its other bits kept (R38, Table 2.6). -/
def execEnableWrite (who : Requester) (b : Block) (on : Bool) (s : State) : Host.Outcome State Fault Refusal :=
  if instances b.kind ≤ b.inst then .next s
  else .next (regWrite s who (b.base + 0x008) 4 (putBits (s.io.br b 0x008) 0 0 (b2n on)))

/-- EVT_MASK_WRITE (R39). -/
def execEvtMaskWrite (who : Requester) (b : Block) (value : W32) (s : State) : Host.Outcome State Fault Refusal :=
  if instances b.kind ≤ b.inst then .next s else .next (regWrite s who (b.base + 0x014) 4 value.toNat)

/-- EVT_FORCE (R39). -/
def execEvtForce (who : Requester) (b : Block) (value : W32) (s : State) : Host.Outcome State Fault Refusal :=
  if instances b.kind ≤ b.inst then .next s else .next (regWrite s who (b.base + 0x018) 4 value.toNat)

/-- ERR_CAPT_CLEAR: VALID is written 1; an error that arrives in the same clock is captured after the clear (R40, R11). -/
def execErrCaptClear (who : Requester) (b : Block) (err : Option (Nat × Nat)) (s : State) : Host.Outcome State Fault Refusal :=
  if instances b.kind ≤ b.inst then .next s
  else
    let t := regWrite s who (b.base + 0x01C) 4 (2 ^ 31)
    match err with
    | some (code, addr) => .next (t.mapIo (fun io => io.capture b code addr))
    | none => .next t

/-- CTR_CLEAR: BLK_CTRL.CTR_CLEAR of a block written 1, its other bits kept (R142). -/
def execCtrClear (who : Requester) (b : Block) (s : State) : Host.Outcome State Fault Refusal :=
  if instances b.kind ≤ b.inst then .next s
  else .next (regWrite s who (b.base + 0x008) 4 (putBits (s.io.br b 0x008) 9 9 1))

/-- DRV_VER_WRITE (R49). -/
def execDrvVerWrite (who : Requester) (value : W32) (s : State) : Host.Outcome State Fault Refusal :=
  .next (regWrite s who (bGlb.base + Off.glb_DRV_VER) 4 value.toNat)

/-- TAP instructions of Table 18.10's classes: whether one belongs to internal debug. -/
def tapInternal : TapOp → Bool
  | .bypass | .idcode | .boundary => false
  | .sramRead .. | .sramWrite .. | .regRead .. | .regWrite .. | .scan => true

/-- What a TAP instruction does (R499): IDCODE and scan chains shift out values that the spec does not give; the register
reads and writes are those of the Factor's side. -/
def tapRun (s : State) (op : TapOp) : State :=
  let out : State → List Byte → State := fun s bs => s.mapIo (fun io => io.send ⟨"TAP", 0, 0, bs⟩)
  match op with
  | .bypass | .boundary => s
  | .idcode =>
    let (v, io) := s.io.takeFree
    out { s with io := io } (leBytes 4 v.toNat)
  | .scan =>
    let (v, io) := s.io.takeFree
    out { s with io := io } (leBytes 8 v.toNat)
  | .sramRead core off n => if 96 ≤ core ∨ 2 ^ 22 < off + n then s else out s ((s.core core).bytes off n)
  | .sramWrite core off bs =>
    if 96 ≤ core ∨ 2 ^ 22 < off + bs.length then s else s.setCore core ((s.core core).unitWrite off bs false)
  | .regRead off => out s (leBytes 4 (readWord s (off / 4 * 4)).toNat)
  | .regWrite off v => regWrite s .factor (off / 4 * 4) 4 v.toNat

/-- TAP_INSTRUCTION: internal debug is open in DEBUG_OPEN and RETURNED, and each entry to it is logged; a closed class
behaves as BYPASS (R499). -/
def execTapInstruction (code : Nat) (op : TapOp) (s : State) : Host.Outcome State Fault Refusal :=
  if !s.rst.vaux then .next s
  else if tapInternal op then
    if s.fac.lc ≠ 3 ∧ s.fac.lc ≠ 4 then .next s
    else
      let s := if s.fac.tap then s
        else facRecord { s with fac := { s.fac with tap := true } } bFactor Cls.SECURITY Code.DEBUG_ACCESS 0 code
      .next (tapRun s op)
  else .next (tapRun { s with fac := { s.fac with tap := false } } op)

end Sys2Proof.Machine
end

