-- ==== Sys2Proof/Machine/Bar2.lean ====
section
/-! DEFINITION. Host accesses to BAR2: doorbell pages, the ring area and the MSI-X structures (R30, R425, R427, R547). -/

namespace Sys2Proof.Machine

/-- The context number and ring that the doorbell page of a slot shows: a context with rings set, or the control rings
(Table 16.3). -/
def pageRing (s : State) (slot : Nat) : Option (Nat × Ring) :=
  if slot = 0 then (s.ring? 0).map (fun r => (0, r))
  else (s.cnOfSlot slot).bind (fun cn => (s.ring? (cn + 1)).map (fun r => (cn, r)))

/-- A word read of a doorbell page: RING_STAT, SLOT_CN, which is valid only while BOUND is 1 (log entry 2), and zero
elsewhere (R425, Table 16.3). -/
def pageWord (s : State) (off : Nat) : Nat × State :=
  let r := pageRing s (off / 4096)
  if off % 4096 = 0x010 then ((r.map (fun e => 2 ^ 31 + e.2.sqHead)).getD 0, s)
  else if off % 4096 = 0x014 then
    match r with
    | some e => (e.1, s)
    | none =>
      let (v, io) := s.io.takeFree
      (v.toNat % 65536, { s with io := io })
  else (0, s)

/-- A word write of a doorbell page (Table 16.3). -/
def pageWrite (s : State) (off v : Nat) : State :=
  let w : W32 := BitVec.ofNat 32 v
  let slot := off / 4096
  if off % 4096 = 0x000 then outState (execSqDb slot w s) s
  else if off % 4096 = 0x004 then outState (execCqDb slot w s) s
  else if off % 4096 = 0x008 then outState (execCqArm slot w s) s
  else s

/-- The word of the MSI-X table or pending-bit array at an offset of BAR2 (R427). -/
def msixWord (s : State) (off : Nat) : Nat :=
  if off < 0x3FF8000 then
    let e := smGet {} ((off - 0x3FF0000) / 16) s.host.msix
    match off % 16 with
    | 0 => e.addr % 2 ^ 32
    | 4 => e.addr / 2 ^ 32
    | 8 => e.data
    | _ => if e.masked then 1 else 0
  else s.host.pba.foldl (fun w v => if v / 32 = (off - 0x3FF8000) / 4 then Nat.lor w (2 ^ (v % 32)) else w) 0

/-- Whether an offset lies in the ring area (R30). -/
def inArea (a : Nat) : Bool := decide (0x1000000 ≤ a) && decide (a < 0x3FF0000)

/-- What a host read of BAR2 returns. -/
def answerRead (s : State) (bs : List Byte) : State := { s with io := { s.io with readBytes := bs, readEp := false } }

/-- A refused form of access to a doorbell page (R547). -/
def badPage (s : State) (off : Nat) : State := s.mapIo (fun io => io.capture bCtxt Code.BAD_ACCESS off)

/-- A host read of BAR2 (R547). -/
def bar2Read (s : State) (off len : Nat) : State :=
  if off < 0x1000000 then
    if !goodForm off len then answerRead (badPage s off) (List.replicate (4 * cdiv len 4) 0xFF)
    else
      let p := pageWord s off
      let q := pageWord p.2 (off + 4)
      if len = 4 then answerRead p.2 (leBytes 4 p.1) else answerRead q.2 (leBytes 4 p.1 ++ leBytes 4 q.1)
  else if 0x3FF0000 ≤ off then
    if goodForm off len then answerRead s ((List.range (len / 4)).flatMap (fun i => leBytes 4 (msixWord s (off + 4 * i))))
    else
      let (v, io) := s.io.takeFree
      answerRead { s with io := io } ((List.range len).map (fun i => Config.freeByte v i))
  else answerRead s ((List.range len).map (fun i => if inArea (off + i) then s.mem.ringByte (off + i) else 0))

/-- The words that the bytes of a write hold, with their offsets, the lower first. -/
def wordsAt (off : Nat) (bs : List Byte) : List (Nat × Nat) :=
  (List.range (bs.length / 4)).map (fun i => (off + 4 * i, leNat ((bs.drop (4 * i)).take 4)))

/-- A host write of BAR2 (R547). -/
def bar2Write (s : State) (off : Nat) (bs : List Byte) : State :=
  if off < 0x1000000 then
    if !goodForm off bs.length then badPage s off
    else (wordsAt off bs).foldl (fun s e => pageWrite s e.1 e.2) s
  else if 0x3FF0000 ≤ off then
    if !goodForm off bs.length then s
    else (wordsAt off bs).foldl (fun s e => outState (execMsixVectorUnmask e.1 (BitVec.ofNat 32 e.2) s) s) s
  else
    { s with mem := bs.zipIdx.foldl (fun (m : MemSt) e => if inArea (off + e.2) then m.putRingByte (off + e.2) e.1 else m) s.mem }

/-- RING_AREA_ACCESS: a host access to BAR2 in the form and area it reaches; the ring area is memory, byte for byte
(R30, R547). -/
def execRingAreaAccess (off len : Nat) (data : Option (List Byte)) (s : State) : Host.Outcome State Fault Refusal :=
  if !railsUp s ∨ 0x4000000 ≤ off then .next s
  else match data with
  | some bs => .next (bar2Write s off bs)
  | none => .next (bar2Read s off len)

end Sys2Proof.Machine
end

