-- ==== Sys2Proof/Machine/Mctp.lean ====
section
/-! DEFINITION. MCTP, PLDM and SPDM on the Factor's two transports, 0 PCIe VDM and 1 I3C (R482, R485, R488, Table 18.6).  The
layouts and codes are those of the DMTF standards that the spec names (PRESUMED, log entry 55). -/

namespace Sys2Proof.Machine

/-- A message leaves on a transport: the message type is in the kind. -/
def mctpSend (s : State) (kind : String) (t : Nat) (bs : List Byte) : State := s.mapIo (fun io => io.send ⟨kind, t, 0, bs⟩)

/-- A byte of a message. -/
def msgByte (bs : List Byte) (i : Nat) : Nat := fieldAt bs i 1

/-- Bytes from numbers. -/
def nums (l : List Nat) : List Byte := l.map (fun n => BitVec.ofNat 8 n)

/-- The answer to an MCTP control request, after its header (DSP0236 1.3), and the endpoint ID that it leaves. -/
def mctpControl (eid cmd : Nat) (d : List Byte) : List Byte × Nat :=
  match cmd with
  | 0x01 =>
    let e := msgByte d 1
    if 1 < msgByte d 0 % 4 ∨ e = 0 ∨ e = 0xFF then (nums [0x02], eid) else (nums [0, 0, e, 0], e)
  | 0x02 => (nums [0, eid, 0, 0], eid)
  | 0x03 => (nums [0] ++ (List.range 16).map (fun i => Config.freeByte Config.deviceUid i), eid)
  | 0x04 =>
    let t := msgByte d 0
    if t = 0xFF ∨ t = 0 then (nums [0, 1, 0xF1, 0xF3, 0xF0, 0x00], eid)
    else if t = 1 ∨ t = 5 ∨ t = 0x7E then (nums [0, 1, 0xF1, 0xF0, 0xF0, 0x00], eid)
    else (nums [0x80], eid)
  | 0x05 => (nums [0, 3, 0x01, 0x05, 0x7E], eid)
  | 0x06 => if msgByte d 0 = 0 then (nums [0, 0xFF, 0] ++ (List.range 2).map (fun i => Config.freeByte Config.deviceUid (16 + i)) ++ nums [0, 0], eid)
            else (nums [0x02], eid)
  | _ => (nums [0x05], eid)

/-- MCTP_CONTROL: a control request is answered (R482). -/
def execMctpControl (transport : Nat) (msg : List Byte) (s : State) : Host.Outcome State Fault Refusal :=
  if !s.rst.vaux ∨ 2 ≤ transport ∨ msgByte msg 0 < 128 then .next s
  else
    let (bs, e) := mctpControl (s.fac.eids.getD transport 0) (msgByte msg 1) (msg.drop 2)
    let s := { s with fac := { s.fac with eids := setAt s.fac.eids transport e } }
    .next (mctpSend s "MCTP_00" transport (nums [msgByte msg 0 % 32, msgByte msg 1] ++ bs))

/-- PLDM_SENSOR_READ: GetSensorReading of sensor 1 + i of Table 18.4, or 113, the power sample (R475, R482). -/
def execPldmSensorRead (transport : Nat) (msg : List Byte) (s : State) : Host.Outcome State Fault Refusal :=
  if !facServes s ∨ 2 ≤ transport then .next s
  else
    let id := fieldAt msg 3 2
    let hdr := nums [msgByte msg 0 % 32, 2, msgByte msg 2]
    let out : List Byte :=
      if msgByte msg 2 ≠ 0x11 then hdr ++ nums [0x05]
      else if id = 0 ∨ 113 < id then hdr ++ nums [0x80]
      else
        let failed := decide (id < 113) && (sensorOf s (id - 1)).failed
        let v := if id = 113 then s.io.br bPower Off.power_P_MW else s.io.reg (sensorOff (id - 1))
        hdr ++ nums [0, 5, if failed then 5 else 0, 0, 1, 1, 1] ++ leBytes 4 v
    .next (mctpSend s "MCTP_01" transport out)

/-- The slot that an update writes: the one that is not booted (R485). -/
def updateSlot (f : FactorSt) : Nat := match f.booted with
  | some i => 1 - i
  | none => 1 - f.active

/-- Put bytes into an image at an offset. -/
def putImage (img : List Byte) (o : Nat) (bs : List Byte) : List Byte := padTo o img ++ bs ++ img.drop (o + bs.length)

/-- REQUEST_FIRMWARE_DATA: image bytes are written into the slot that is not booted; `start` is whether they begin an update,
which is refused with the PLDM busy code while one is in progress (R485). -/
def execRequestFirmwareData (transport : Nat) (start : Bool) (off : Nat) (data : List Byte) (s : State) : Host.Outcome State Fault Refusal :=
  let f := s.fac
  if !s.rst.vaux ∨ 2 ≤ transport ∨ f.lcRun.isSome ∨ 32 * 2 ^ 20 < off + data.length then .next s
  else
    let go : FwUpdate → State := fun u =>
      let img := putImage u.image off data
      { s with fac := { f with update := some { u with image := img, verified := false }, slots := setAt f.slots u.slot img } }
    match f.update with
    | none => if start then .next (go { transport := transport, slot := updateSlot f }) else .next s
    | some u =>
      if start then .next (mctpSend s "MCTP_01" transport (nums [0, 5, 0x10, 0x81]))
      else if u.transport = transport then .next (go u) else .next s

/-- VERIFY_COMPLETE: the image is checked under R483; a bad one is erased (R485). -/
def execVerifyComplete (transport : Nat) (s : State) : Host.Outcome State Fault Refusal :=
  let f := s.fac
  match f.update with
  | none => .next s
  | some u =>
    if u.transport ≠ transport ∨ !s.rst.vaux then .next s
    else if imageValid f.fuses u.image then
      .next (mctpSend { s with fac := { f with update := some { u with verified := true } } } "MCTP_01" transport (nums [0x80, 5, 0x17, 0x00]))
    else
      .next (mctpSend { s with fac := { f with update := none, slots := setAt f.slots u.slot [] } } "MCTP_01" transport (nums [0x80, 5, 0x17, 0x01]))

/-- ACTIVATE_FIRMWARE: the new slot boots at the next device reset (R485). -/
def execActivateFirmware (transport : Nat) (s : State) : Host.Outcome State Fault Refusal :=
  let f := s.fac
  match f.update with
  | none => .next s
  | some u =>
    if u.transport ≠ transport ∨ !s.rst.vaux then .next s
    else if !u.verified then .next (mctpSend s "MCTP_01" transport (nums [0, 5, 0x1A, 0x83]))
    else
      let s := { s with fac := { f with update := none, active := u.slot, failed := setAt f.failed u.slot false } }
      let (v, io) := s.io.takeFree
      .next (mctpSend { s with io := io.rise bFactor 4 } "MCTP_01" transport (nums [0, 5, 0x1A, 0] ++ leBytes 2 v.toNat))

/-- The certificate chain of a slot: the identity in slot 0, the owner's alias in slot 1 while it exists (R488, R490). -/
def certOf (f : FactorSt) (slot : Nat) : Option (List Byte) :=
  let img := slotImage f (f.booted.getD 0)
  if slot = 0 then some (Config.certChain 0 img)
  else if slot = 1 ∧ (f.lc = 1 ∨ f.lc = 2 ∨ f.lc = 3) then some (Config.certChain 1 img)
  else none

/-- The measurement of an index (Table 18.6) as a DMTF measurement: its type and value. -/
def measureVal (f : FactorSt) (i : Nat) : Nat × List Byte :=
  match i with
  | 1 => (0x00, Config.sha384 Config.factorRom)
  | 2 => (0x01, Config.sha384 (let img := slotImage f (f.booted.getD 0); img.take (512 + imgField img 4 4)))
  | 3 => (0x87, leBytes 2 f.fuses.floor ++ leBytes 1 (f.booted.getD 0) ++ leBytes 2 (imgSvn (slotImage f 0)) ++ leBytes 2 (imgSvn (slotImage f 1)))
  | 4 => (0x83, leBytes 1 f.lc ++ leBytes 1 (32 - f.fuses.opens))
  | 5 => (0x03, Config.sha384 (calBytes f))
  | _ => (0x03, if f.lc = 0 then List.replicate 48 0 else Config.sha384 (f.fuses.owner.getD []))

/-- A measurement block. -/
def measureBlock (f : FactorSt) (i : Nat) : List Byte :=
  let (t, v) := measureVal f i
  nums [i, 1] ++ leBytes 2 (3 + v.length) ++ nums [t] ++ leBytes 2 v.length ++ v

/-- Slots that hold a chain, as bits. -/
def certMask (f : FactorSt) : Nat := 1 + 2 * b2n (certOf f 1).isSome

/-- An SPDM error response. -/
def spdmError (code : Nat) : List Byte := nums [0x12, 0x7F, code, 0]

/-- What an SPDM request is answered with, before a signature, and whether one follows (R488, DSP0274 1.2); `rnd` is the
responder's nonce. -/
def spdmBody (f : FactorSt) (m rnd : List Byte) : List Byte × Bool :=
  let p1 := msgByte m 2
  let p2 := msgByte m 3
  match msgByte m 1 with
  | 0x84 => (nums [0x10, 0x04, 0, 0, 0, 1, 0x00, 0x12], false)
  | 0xE1 => (nums [0x12, 0x61, 0, 0, 0, 0, 0, 0] ++ leBytes 4 0x16 ++ leBytes 4 4096 ++ leBytes 4 4096, false)
  | 0xE3 => (nums [0x12, 0x63, 0, 0] ++ leBytes 2 36 ++ nums [1, 0] ++ leBytes 4 4 ++ leBytes 4 0x80 ++ leBytes 4 2 ++ List.replicate 16 0, false)
  | 0x81 => (nums [0x12, 0x01, 0, certMask f] ++ ([0, 1].filterMap (certOf f)).flatMap Config.sha384, false)
  | 0x82 =>
    match certOf f (p1 % 16) with
    | none => (spdmError 0x01, false)
    | some c =>
      let o := fieldAt m 4 2
      let part := (c.drop o).take (fieldAt m 6 2)
      if c.length ≤ o then (spdmError 0x01, false)
      else (nums [0x12, 0x02, p1 % 16, 0] ++ leBytes 2 part.length ++ leBytes 2 (c.length - o - part.length) ++ part, false)
  | 0x83 =>
    if f.lcRun.isSome then (spdmError 0x03, false)
    else match certOf f (p1 % 16) with
      | none => (spdmError 0x01, false)
      | some c =>
        let sum := if p2 = 0 then [] else Config.sha384 ((List.range 6).flatMap (fun i => measureBlock f (i + 1)))
        (nums [0x12, 0x03, p1 % 16, certMask f] ++ Config.sha384 c ++ padTo 32 rnd ++ sum ++ leBytes 2 0, true)
  | 0xE0 =>
    if f.lcRun.isSome then (spdmError 0x03, false)
    else
      let ix := if p2 = 0xFF then [1, 2, 3, 4, 5, 6] else if p2 = 0 then [] else [p2]
      if p2 ≠ 0xFF ∧ 6 < p2 then (spdmError 0x01, false)
      else
        let rec_ := ix.flatMap (measureBlock f)
        (nums [0x12, 0x60, if p2 = 0 then 6 else 0, 0] ++ nums [ix.length] ++ leBytes 3 rec_.length ++ rec_ ++ padTo 32 rnd ++ leBytes 2 0, bitOf p1 0)
  | _ => (spdmError 0x07, false)

/-- SPDM_REQUEST: answered on its transport; a signature covers the messages since GET_VERSION (R488). -/
def execSpdmRequest (transport : Nat) (msg rnd : List Byte) (s : State) : Host.Outcome State Fault Refusal :=
  if !facServes s ∨ 2 ≤ transport then .next s
  else
    let f := s.fac
    let old := if msgByte msg 1 = 0x84 then [] else f.spdm.getD transport []
    let (body, signed) := spdmBody f msg rnd
    let said := old ++ msg ++ body
    let out := if signed then body ++ padTo 96 (Config.deviceSign (Config.sha384 said)) else body
    .next (mctpSend { s with fac := { f with spdm := setAt f.spdm transport (if signed then [] else said) } } "MCTP_05" transport out)

end Sys2Proof.Machine
end

