-- ==== Sys2Proof/Machine/OpFrame.lean ====
section
/-! DEFINITION. The frame of the library operators (R185 to R196, R223): parameter block, columns, cells, the checks that
every operator makes, the spill list and the result block. -/

namespace Sys2Proof.Machine

open Sys2Proof.Num

/-- An operator parameter block (Table 7.1), as read at the call. -/
structure Opb where
  bs : List Byte
  deriving DecidableEq, Repr

namespace Opb
def f (o : Opb) (off n : Nat) : Nat := fieldAt o.bs off n
def version (o : Opb) : Nat := o.f 0 1
def op (o : Opb) : Nat := o.f 1 1
def policy (o : Opb) : Nat := o.f 2 1
def ncol (o : Opb) : Nat := o.f 3 1
def rows (o : Opb) : Nat := o.f 4 4
def bound (o : Opb) : Nat := o.f 8 4
def spillDesc (o : Opb) : Nat := o.f 0x0C 2
def spillPort (o : Opb) : Nat := o.f 0x0E 1
def ovfCol (o : Opb) : Nat := o.f 0x0F 1
def statusOff (o : Opb) : Nat := o.f 0x10 4
def part (o : Opb) : Nat := o.f 0x14 4
def resumeRow (o : Opb) : Nat := o.f 0x18 4
def resumeSub (o : Opb) : Nat := o.f 0x1C 4
/-- POLICY names (Table 7.1). -/
def spills (o : Opb) : Bool := o.policy == 1
def unbounded (o : Opb) : Bool := o.policy == 2
end Opb

/-- A column reference (Table 7.3) with its descriptors: of the values or offsets, of the heap and of the validity
bitmap. -/
structure Col where
  idx : Nat
  ref : List Byte
  d : Except Nat Desc
  h : Except Nat Desc
  v : Except Nat Desc

namespace Col
def kind (c : Col) : Nat := fieldAt c.ref 6 1 % 4
def hasValid (c : Col) : Bool := bitOf (fieldAt c.ref 6 1) 7
def type (c : Col) : Nat := fieldAt c.ref 7 1
def cap (c : Col) : Nat := fieldAt c.ref 8 2
def tag (c : Col) : Nat := fieldAt c.ref 0x0A 2
def out (c : Col) : Bool := bitOf (fieldAt c.ref 0x0C 1) 0
def scalar (c : Col) : Bool := c.kind == 0
def string (c : Col) : Bool := c.kind == 1
def vector (c : Col) : Bool := c.kind == 2

/-- Stands for a descriptor that a failed check has refused already. -/
def noDesc : Desc := ⟨1, 1, 0, 0, 0, 0, [], 0, [], []⟩
def get : Except Nat Desc → Desc
  | .ok d => d
  | .error _ => noDesc
def vals (c : Col) : Desc := get c.d
def heap (c : Col) : Desc := get c.h
def bits (c : Col) : Desc := get c.v

/-- Rows that the column's own descriptor can hold (R187). -/
def rowsHeld (c : Col) : Nat :=
  if c.string then c.vals.sz 0 - 1 else if c.vector then c.vals.sz 1 else c.vals.sz 0

/-- Whether its validity bitmap covers `n` rows (R188). -/
def validCovers (c : Col) (n : Nat) : Bool := !c.hasValid || decide (cdiv n 8 ≤ c.bits.sz 0)

/-- Reserved parts of a reference that must be zero (R186, Table 7.3). -/
def rsv (c : Col) : Bool :=
  bitsOf (fieldAt c.ref 6 1) 6 2 != 0 || decide (fieldAt c.ref 0x0C 1 / 2 ≠ 0) || fieldAt c.ref 0x0D 3 != 0
    || (c.kind != 1 && fieldAt c.ref 2 2 != 0) || (!c.hasValid && fieldAt c.ref 4 2 != 0)

/-- BAD_COLUMN: KIND, CAP, or a descriptor that fails R101 to R103, or has another rank. -/
def bad (c : Col) : Bool :=
  let fails : Except Nat Desc → Nat → Bool := fun e r => match e with
    | .ok d => decide (d.rank ≠ r)
    | .error _ => true
  c.kind == 3 || fails c.d (if c.vector then 2 else 1) || (c.string && fails c.h 1) || (c.hasValid && fails c.v 1)
    || (if c.string then c.cap == 0 else if c.vector then c.cap == 0 || decide (4096 < c.cap) else c.cap != 0)

/-- COL_TYPE: a descriptor whose element type is not the one the reference gives. -/
def badType (c : Col) : Bool :=
  (if c.string then c.vals.etype != U32 || c.heap.etype != c.type else c.vals.etype != c.type)
    || (c.hasValid && c.bits.etype != U8)
end Col

/-- A column reference of a block, looked up in the task's context with the direction of its use (R103). -/
def colOf (s : State) (cn : Nat) (o : Opb) (i : Nat) : Col :=
  let ref := (o.bs.drop (0x40 + 16 * i)).take 16
  let w := bitOf (fieldAt ref 0x0C 1) 0
  ⟨i, ref, useDescDir s cn (fieldAt ref 0 2) w, useDescDir s cn (fieldAt ref 2 2) w, useDescDir s cn (fieldAt ref 4 2) w⟩

/-- What a row of a column holds. -/
inductive Cell where
  | null
  /-- A malformed string row: read as null (R188). -/
  | bad
  | num (code : Nat)
  | str (bs : List Byte)
  | vec (codes : List Nat)
  deriving DecidableEq, Repr

/-- An operator instance at work: the device, the core, its block and columns, and what the result block will say. -/
structure OpRun where
  s : State
  n : Nat
  cn : Nat
  o : Opb
  cols : List Col
  rowsIn : Nat := 0
  rowsOut : Nat := 0
  ovfRows : Nat := 0
  spillItems : Nat := 0
  spillCut : Nat := 0
  strBad : Nat := 0
  nulls : Nat := 0
  aux0 : Nat := 0
  aux1 : Nat := 0
  firstBad : Option Nat := none
  keyTrunc : Bool := false
  nan : Bool := false
  /-- Rows flagged in the overflow bitmap, latest first. -/
  ovf : List Nat := []
  /-- Next free element of each output column's heap. -/
  heaps : SMap Nat := []
  /-- Run-time end: code, RESUME_ROW and RESUME_SUB. -/
  stop : Option (Nat × Nat × Nat) := none
  /-- It waits for a page, a moving page or a lock: nothing has happened yet. -/
  wait : Bool := false
  /-- The fault at which it waits. -/
  waitCode : Nat := 0

namespace OpRun

def col (r : OpRun) (i : Nat) : Option Col := r.cols.find? (fun c => c.idx == i)
/-- Input columns, and output columns but the overflow bitmap, in order. -/
def ins (r : OpRun) : List Col := r.cols.filter (fun c => !c.out)
def outs (r : OpRun) : List Col := r.cols.filter (fun c => c.out && c.idx != r.o.ovfCol)
def ended (r : OpRun) : Bool := r.stop.isSome || r.wait

/-- Elements and bytes through a descriptor. -/
def code (r : OpRun) (d : Desc) (cs : List Nat) : Nat := elemCode r.s r.n d cs

/-- Whether a row of a column is present (R188). -/
def present (r : OpRun) (c : Col) (row : Nat) : Bool := !c.hasValid || bitOf (r.code c.bits [row / 8]) (row % 8)

/-- First element and length of a string row, when it is well formed (R188). -/
def strSpan (r : OpRun) (c : Col) (row : Nat) : Option (Nat × Nat) :=
  let a := r.code c.vals [row]
  let b := r.code c.vals [row + 1]
  if a ≤ b ∧ b ≤ c.heap.sz 0 then some (a, b - a) else none

/-- Bytes of `k` elements from element `a` of a rank-1 descriptor. -/
def heapBytes (r : OpRun) (d : Desc) (a k : Nat) : List Byte := r.s.tBytes r.n d.tier (d.addrOf [a]) (k * d.bits / 8)

/-- A row of a column. -/
def cell (r : OpRun) (c : Col) (row : Nat) : Cell :=
  if !r.present c row then .null
  else if c.string then
    (match r.strSpan c row with
      | some (a, k) => .str (r.heapBytes c.heap a k)
      | none => .bad)
  else if c.vector then .vec ((List.range c.cap).map (fun i => r.code c.vals [i, row]))
  else .num (r.code c.vals [row])

/-- Memory that a row of a column occupies: descriptor, address and bytes. -/
def spans (r : OpRun) (c : Col) (row : Nat) : List (Nat × Nat × Nat) :=
  let one : Desc → List Nat → Nat → Nat × Nat × Nat := fun d cs k => (d.tier, d.addrOf cs, cdiv (k * d.bits) 8)
  (if c.hasValid then [one c.bits [row / 8] 1] else []) ++
    (if c.string then [one c.vals [row] 1, one c.vals [row + 1] 1] ++
        (match r.strSpan c row with
          | some (a, k) => if k = 0 then [] else [one c.heap [a] k]
          | none => [])
      else if c.vector then [one c.vals [0, row] c.cap] else [one c.vals [row] 1])

/-- A read that meets a fault: the instance waits for a page that may come back, and ends on one that is FAILED
(R191, Table 5.6); a poisoned line poisons the task (Table 15.4). -/
def touch (r : OpRun) (row : Nat) (l : List (Nat × Nat × Nat)) : OpRun :=
  if r.ended then r
  else match l.findSome? (fun e => (tFault r.s e.1 e.2.1 e.2.2 false).map Prod.fst) with
  | some f => if f = Code.HOST_DENIED ∨ f = Code.TIER_OFFLINE then { r with stop := some (Code.INPUT_FAILED, row, 0) } else { r with wait := true, waitCode := f }
  | none =>
    if l.any (fun e => tHeld r.s e.1 e.2.1) then { r with wait := true }
    else match l.find? (fun e => r.s.tPoison r.n e.1 e.2.1 e.2.2) with
      | some e =>
        let c := r.s.core r.n
        let first := if e.1 = 0 ∧ !c.poisoned then ((linesOf e.2.1 e.2.2).find? (fun l => smGet false l c.sramPoison)).map (fun l => 64 * l) else c.poisonAt
        { r with s := notePoison (r.s.setCore r.n { c with poisoned := true, poisonAt := first }) r.n }
      | none => r

/-- Make ready to read a row of some columns. -/
def touchRow (r : OpRun) (cs : List Col) (row : Nat) : OpRun := r.touch row (cs.flatMap (fun c => r.spans c row))

/-- Count a malformed row (R188, Table 7.4). -/
def countBad (r : OpRun) (row : Nat) : OpRun := { r with strBad := r.strBad + 1, firstBad := r.firstBad.or (some row) }

/-- Whether a float code is a NaN. -/
def isNan (et code : Nat) : Bool := isFloat et && isNaN (value et code)

/-- Read a row of a column, with what it counts: malformed strings, nulls and NaNs. -/
def read (r : OpRun) (c : Col) (row : Nat) : OpRun × Cell :=
  match r.cell c row with
  | .null => ({ r with nulls := r.nulls + 1 }, .null)
  | .bad => ({ r.countBad row with nulls := r.nulls + 1 }, .null)
  | .num v => (if isNan c.type v then { r with nan := true } else r, .num v)
  | .vec l => (if l.any (isNan c.type) then { r with nan := true } else r, .vec l)
  | .str l => (r, .str l)

/-- Write one element of an output: a page that is not there is waited for; one that is lost or refuses drops the element
and fails the task's stream (Table 5.6, R132). -/
def put (r : OpRun) (d : Desc) (cs : List Nat) (code : Nat) : OpRun :=
  if r.wait then r
  else match tFault r.s d.tier (d.addrOf cs) (max 1 (d.bits / 8)) true with
  | some (f, _) =>
    if f = Code.HOST_DENIED ∨ f = Code.TIER_OFFLINE then
      let c := r.s.core r.n
      { r with s := r.s.setCore r.n { c with failCode := if c.failCode = 0 then f else c.failCode } }
    else { r with wait := true, waitCode := f }
  | none => if tHeld r.s d.tier d.base then { r with wait := true } else { r with s := storeElem r.s r.n d cs code (r.s.core r.n).poisoned }

/-- Write consecutive elements of a rank-1 descriptor. -/
def putMany (r : OpRun) (d : Desc) (a : Nat) (l : List Nat) : OpRun := l.zipIdx.foldl (fun r e => r.put d [a + e.2] e.1) r

/-- Write bit `row` of a bitmap: the bits above it in its byte become zero (R188). -/
def putBit (r : OpRun) (d : Desc) (row : Nat) (b : Bool) : OpRun :=
  let old := r.code d [row / 8] % 2 ^ (row % 8)
  r.put d [row / 8] (old + b2n b * 2 ^ (row % 8))

/-- Elements of a heap that a cell takes. -/
def heapNeed (c : Col) : Cell → Nat
  | .str bs => bs.length * 8 / max 8 c.heap.bits
  | _ => 0

/-- Whether a row of cells fits its columns (R196). -/
def fits (r : OpRun) (row : Nat) (l : List (Col × Cell)) : Bool :=
  l.all (fun e => decide (row < e.1.rowsHeld) && e.1.validCovers (row + 1) &&
    (!e.1.string || decide (smGet 0 e.1.idx r.heaps + heapNeed e.1 e.2 ≤ e.1.heap.sz 0)))

/-- The elements that bytes of a heap's type spell. -/
def unitsOf (w : Nat) : Nat → List Byte → List Nat
  | 0, _ => []
  | fuel + 1, bs => if bs = [] then [] else leNat (bs.take w) :: unitsOf w fuel (bs.drop w)

/-- Write a cell at a row of an output column; a null cell writes zero or an empty string (R188). -/
def putCell (r : OpRun) (c : Col) (row : Nat) (x : Cell) : OpRun :=
  let nul := x == .null || x == .bad
  let r := if c.hasValid then r.putBit c.bits row (!nul) else r
  if c.string then
    let bs := match x with
      | .str bs => bs
      | _ => []
    let p := smGet 0 c.idx r.heaps
    let w := c.heap.bits / 8
    let us := unitsOf w bs.length bs
    let r := (((r.put c.vals [row] p).putMany c.heap p us).put c.vals [row + 1] (p + us.length))
    { r with heaps := smPut 0 c.idx (p + us.length) r.heaps }
  else if c.vector then
    let l := match x with
      | .vec l => l
      | _ => List.replicate c.cap 0
    l.zipIdx.foldl (fun r e => r.put c.vals [e.2, row] e.1) r
  else r.put c.vals [row] (match x with | .num v => v | _ => 0)

/-- Write a row of cells at output row `row`; when it does not fit, the instance ends with OUTPUT_FULL at the given item
and nothing of the row is written (R196). -/
def emitRow (r : OpRun) (row inRow sub : Nat) (l : List (Col × Cell)) : OpRun :=
  if r.ended then r
  else if !r.fits row l then { r with stop := some (Code.OUTPUT_FULL, inRow, sub) }
  else { l.foldl (fun r e => r.putCell e.1 row e.2) r with rowsOut := r.rowsOut + 1 }

/-- A cut item: the row is flagged once, and under SPILL_BESTEFFORT an entry is written or counted as lost (R194,
R195). -/
def cut (r : OpRun) (row item val : Nat) : OpRun :=
  let r := if r.ovf.head? = some row then r else { r with ovf := row :: r.ovf, ovfRows := r.ovfRows + 1 }
  if !r.o.spills then r
  else
    let d := Col.get (useDescDir r.s r.cn r.o.spillDesc true)
    if r.spillItems < d.sz 0 / 2 then
      let r := (r.put d [2 * r.spillItems] (row + 2 ^ 32 * (item % 2 ^ 32))).put d [2 * r.spillItems + 1] val
      { r with spillItems := r.spillItems + 1 }
    else { r with spillCut := r.spillCut + 1 }

/-- Apply `f` to rows in turn until the instance ends; each row that is whole counts in ROWS_IN. -/
def eachRow (f : OpRun → Nat → OpRun) : List Nat → OpRun → OpRun
  | [], r => r
  | i :: l, r =>
    let q := f r i
    if q.ended then q else eachRow f l { q with rowsIn := q.rowsIn + 1 }

/-- The input rows of a call (R190). -/
def rowList (r : OpRun) : List Nat := (List.range (r.o.rows - r.o.resumeRow)).map (fun i => r.o.resumeRow + i)

/-- Bytes of a key of `k` columns (R64 to R66, R207): none when a field is null; strings over 65,535 bytes are cut. -/
def key (r : OpRun) (cs : List Col) (raw : Bool) (row : Nat) : OpRun × Option (List Byte) :=
  let (r, l) := cs.foldl (fun (a : OpRun × List (Option (List Byte))) c =>
    let (r, x) := a.1.read c row
    match x with
    | .num v => (r, a.2 ++ [some (Hash.fieldKey c.type v)])
    | .str bs => ({ r with keyTrunc := r.keyTrunc || (!raw && decide (65535 < bs.length)) }, a.2 ++ [some (if raw then bs else Hash.stringKey bs)])
    | _ => (r, a.2 ++ [none])) (r, [])
  (r, if l.any (fun x => x.isNone) then none else some (l.flatMap (fun x => x.getD [])))

/-- The same, with a null key counted once for its row (R207, R209). -/
def keyOnce (r : OpRun) (cs : List Col) (raw : Bool) (row : Nat) : OpRun × Option (List Byte) :=
  let n := r.nulls
  let (r, k) := r.key cs raw row
  ({ r with nulls := n + b2n k.isNone }, k)

end OpRun

/-- What an operator adds to the checks of Table 7.14, and how it runs. -/
structure OpSpec where
  /-- Its work depends on the data (Table 7.5). -/
  dd : Bool := false
  /-- PARAM bytes in use, as offset and length. -/
  used : List (Nat × Nat)
  /-- Columns that may carry a TAG. -/
  tagged : Col → Bool := fun _ => false
  /-- A reserved value, or a field that must be zero, is set. -/
  rsv : Bool := false
  /-- BOUND is out of its range, or a table breaks R210. -/
  badBound : Bool := false
  /-- Columns that are not used as the operator uses them, or PARAM descriptors that fail. -/
  badCol : Bool := false
  badType : Bool := false
  /-- Columns that hold a row for each input row. -/
  perRow : Col → Bool := fun _ => true
  /-- Rows and heap elements of the bounded worst case of an output. -/
  worst : Col → Nat × Nat := fun _ => (0, 0)
  /-- Orders 11 and 12. -/
  codes : List (Bool × Nat) := []
  run : OpRun → OpRun

/-- Byte offsets of PARAM that an operator does not use must be zero (R186). -/
def paramRsv (o : Opb) (used : List (Nat × Nat)) : Bool :=
  (List.range 0x20).any (fun i => o.f (0x20 + i) 1 != 0 && !used.any (fun e => decide (e.1 ≤ 0x20 + i) && decide (0x20 + i < e.1 + e.2)))

/-- A valid spill list: a U64 descriptor of rank 1 with WRITE (R195). -/
def spillOk (s : State) (cn id : Nat) : Bool :=
  match useDescDir s cn id true with
  | .ok d => d.etype == U64 && d.rank == 1
  | .error _ => false

/-- The first check of Table 7.14 after STREAM_BUSY that fails (R190, R193, R223). -/
def opCheck (r : OpRun) (p : OpSpec) : Option Nat :=
  let o := r.o
  let ovf := o.ovfCol
  let bounded := !o.unbounded
  let dl := ((r.s.ctx? r.cn).bind (fun c => r.s.service? c.svc)).any (fun v => v.deadline)
  let short : Col → Bool := fun c => !c.out || p.perRow c
  let isOvf : Col → Bool := fun c => c.out && c.idx == ovf
  let worst := r.outs.any (fun c => decide (c.rowsHeld < (p.worst c).1) || (c.string && decide (c.heap.sz 0 < (p.worst c).2))
    || (!p.perRow c && !c.validCovers (p.worst c).1))
  let list : List (Bool × Nat) :=
    [(o.version != 1, Code.BAD_VERSION), (o.op == 0 || decide (0x0D < o.op), Code.BAD_OP),
     (paramRsv o p.used || p.rsv || (!o.spills && (o.spillDesc != 0 || o.spillPort != 0)) || r.cols.any (fun c => c.rsv || (c.tag != 0 && !p.tagged c && !isOvf c)),
       Code.RSV_NONZERO),
     (decide (2 < o.policy) || (o.spills && !spillOk r.s r.cn o.spillDesc) || (o.unbounded && p.dd && dl), Code.BAD_POLICY),
     ((if p.dd then bounded && (o.bound == 0 || p.badBound) else o.bound != 0), Code.BAD_BOUND),
     (o.ncol == 0 || decide (12 < o.ncol) || r.cols.any Col.bad || (ovf != 0xFF && !r.cols.any isOvf) || p.badCol, Code.BAD_COLUMN),
     (r.cols.any Col.badType || r.cols.any (fun c => isOvf c && (!c.scalar || c.type != U8)) || p.badType, Code.COL_TYPE),
     (decide (16777216 < o.rows) || decide (o.rows < o.resumeRow)
       || r.cols.any (fun c => if isOvf c then decide (c.vals.sz 0 < cdiv o.rows 8) else short c && (decide (c.rowsHeld < o.rows) || !c.validCovers o.rows)),
       Code.ROWS_RANGE),
     (bounded && worst, Code.OUTPUT_SHORT)] ++ p.codes
  firstExc list

/-- The bits of the overflow bitmap are written for the rows processed (R194). -/
def putOverflow (r : OpRun) : OpRun :=
  match r.cols.find? (fun c => c.out && c.idx == r.o.ovfCol) with
  | none => r
  | some c =>
    let n := cdiv (r.o.resumeRow + r.rowsIn) 8
    let byte : Nat → Nat := fun i => (List.range 8).foldl (fun a b => a + b2n (r.ovf.contains (8 * i + b)) * 2 ^ b) 0
    if r.rowsIn = 0 then r else r.putMany c.vals 0 ((List.range n).map byte)

/-- The 64 bytes of the result block (Table 7.4). -/
def resultBlock (r : OpRun) (code cycles : Nat) : List Byte :=
  let (row, sub) := match r.stop with
    | some (_, a, b) => (a, b)
    | none => (r.o.rows, 0)
  let flags := b2n (r.ovfRows != 0) + 2 * b2n (r.spillItems != 0) + 4 * b2n (r.spillCut != 0) + 8 * b2n r.keyTrunc + 16 * b2n r.nan
  leBytes 2 code ++ leBytes 2 flags ++ leBytes 4 r.rowsIn ++ leBytes 4 r.rowsOut ++ leBytes 4 row ++ leBytes 4 sub ++ leBytes 4 r.ovfRows
    ++ leBytes 4 r.spillItems ++ leBytes 4 r.spillCut ++ leBytes 4 r.strBad ++ leBytes 4 r.nulls ++ leBytes 4 r.aux0
    ++ leBytes 4 (min r.aux1 0xFFFFFFFF) ++ leBytes 4 (r.firstBad.getD 0xFFFFFFFF) ++ leBytes 4 cycles ++ leBytes 8 0

/-- The result block and X1 (R185, R189): CYCLES is a free value, at most what Table 7.7 allows (log entry 17). -/
def putResult (r : OpRun) (code : Nat) : State :=
  let (f, io) := r.s.io.takeFree
  let s := { r.s with io := io }
  let c := (s.core r.n).store r.o.statusOff (resultBlock r code (f.toNat % 2 ^ 32)) false
  s.setCore r.n (c.setX 1 code)

/-- The spill token (R195): its port must be a TOKEN port of the task's template. -/
def spillToken (r : OpRun) : Option Token :=
  let c := r.s.core r.n
  c.task.bind (fun t =>
    let w := (tmplOf r.s t.die t.tmpl).out r.o.spillPort
    if bitsOf w 31 30 = 1 then some (emitToken r.s r.n t w r.o.part r.spillItems false) else none)

/-- An instance that has run: none when it waits and has done nothing; else its spill token, its overflow bitmap and its
result. -/
def opEnd (r : OpRun) : Option State :=
  let q := putOverflow r
  if q.wait then none
  else
    let code := match q.stop with
      | some (c, _, _) => c
      | none => Code.OK
    if q.spillItems = 0 then some (putResult q code)
    else match spillToken q with
      | none => some (raiseExc q.s q.n Code.BAD_PORT)
      | some k =>
        let (t, o) := offerToken q.s k
        if o = .held then none else some (putResult { q with s := t } code)

/-- An instance before its first row. -/
def opRun (s : State) (n cn : Nat) (o : Opb) : OpRun :=
  { s := s, n := n, cn := cn, o := o, cols := (List.range (min o.ncol 12)).map (colOf s cn o) }

/-- Run an instance from its block: checks, then rows (R190); none while it waits. -/
def opTry (s : State) (n cn : Nat) (o : Opb) (f : OpRun → OpSpec) : Option State :=
  let r := opRun s n cn o
  let p := f r
  match opCheck r p with
  | some c => some (putResult r c)
  | none => if o.rows = o.resumeRow then some (putResult r Code.OK) else opEnd (p.run r)

/-- The fault at which an instance waits that `opTry` leaves waiting. -/
def opWaits (s : State) (n cn : Nat) (o : Opb) (f : OpRun → OpSpec) : Nat :=
  let r := opRun s n cn o
  if (opCheck r (f r)).isSome ∨ o.rows = o.resumeRow then 0 else (putOverflow ((f r).run r)).waitCode

/-- SRAM offsets that the core could not read or write raise its own exceptions (R161). -/
def opExc (x : Nat) (o : Opb) : Option Nat :=
  firstExc [(decide (0x400000 < x + 256) || decide (0x400000 < o.statusOff + 64), Code.LOCAL_RANGE),
    (decide (x % 64 ≠ 0) || decide (o.statusOff % 64 ≠ 0), Code.MISALIGNED)]

/-- The context and block of a call that passes STREAM_BUSY and names operator `op` (a reserved code is refused whichever
row brings it). -/
def opCalled (s : State) (n op : Nat) : Option (Nat × Opb) :=
  let c := s.core n
  let x := c.xr 1
  let o : Opb := ⟨c.bytes x 256⟩
  match c.task with
  | none => none
  | some t =>
    if c.run ≠ .running ∨ c.emitDst.isSome ∨ c.opWait.any (fun w => w.task == t.id)
      ∨ (List.range 8).any (fun k => (s.strm n (8 + k)).st != 0) ∨ (o.op ≠ op ∧ 1 ≤ o.op ∧ o.op ≤ 0x0D)
      ∨ (opExc x o).isSome then none
    else some (t.ctx, o)

/-- An operator call by the running task, X1 naming its block (R185): nothing where the block names another operator. -/
def opCall (s : State) (n op : Nat) (f : OpRun → OpSpec) : State :=
  let c := s.core n
  let x := c.xr 1
  let o : Opb := ⟨c.bytes x 256⟩
  match opCalled s n op with
  | some (cn, o) => (opTry (notePoison (s.setCore n (c.noteRead x 256)) n) n cn o f).getD (s.migrFault (opWaits (notePoison (s.setCore n (c.noteRead x 256)) n) n cn o f))
  | none =>
    if c.run ≠ .running ∨ c.task.isNone ∨ c.emitDst.isSome ∨ c.opWait.any (fun w => c.task.any (fun t => w.task == t.id)) then s
    else if (List.range 8).any (fun k => (s.strm n (8 + k)).st != 0) then s.setCore n (c.setX 1 Code.STREAM_BUSY)
    else if o.op ≠ op ∧ 1 ≤ o.op ∧ o.op ≤ 0x0D then s
    else match opExc x o with
      | some e => raiseExc s n e
      | none => s

/-- One cycle of PEER_WAIT. -/
def peerWait (s : State) (n cycles : Nat) : State :=
  s.mapIo (fun io => (io.count64 (bCarter n) Off.carter_PEER_WAIT_LO cycles).count64 (bCarter n) Off.carter_CYC_TOTAL_LO cycles)

end Sys2Proof.Machine
end

