-- ==== Sys2Proof/Machine/OpRows.lean ====
section
/-! DEFINITION. The row operators: SCAN, FILTER, PROJECT, HASH, BUCKETIZE, NORMALIZE and TOKENIZE (R198 to R207, R215,
R219, R244 to R247). -/

namespace Sys2Proof.Machine

open Sys2Proof.Num

/-- A descriptor that PARAM names, for reading or writing. -/
def OpRun.param (r : OpRun) (off : Nat) (write : Bool) : Except Nat Desc := useDescDir r.s r.cn (r.o.f off 2) write

/-- Whether a PARAM descriptor passes and has rank 1. -/
def okDesc (e : Except Nat Desc) : Bool :=
  match e with
  | .ok d => d.rank == 1
  | .error _ => false

/-- A field of a record as one output column takes it: its cell and the item cut from it, as position and value. -/
structure ScanCol where
  seen : Bool := false
  x : Cell := .null
  cut : Option (Nat × Nat) := none

/-- Fields that lie in the part of a record that is parsed; what comes later only as long as it is well formed (R200). -/
def scanSeen (bs : List Byte) (cap : Nat) : Nat → Nat → Option (List (Nat × Nat × Nat × List Byte))
  | 0, _ => some []
  | fuel + 1, q =>
    let n := fieldAt bs (q + 4) 4
    let t := fieldAt bs (q + 2) 1
    let bad := decide (bs.length < q + 8) || decide (bs.length < q + 8 + n) || !(valid t || t == 0x80 || t == 0x81)
    if bad then (if q < cap then none else some [])
    else (scanSeen bs cap fuel (q + 8 + cdiv n 8 * 8)).map (fun l => (q, fieldAt bs q 2, t, (bs.drop (q + 8)).take n) :: l)

/-- A column's cell from a field of its FID (R199, R200): the cell, whether it mismatches, and what is cut. -/
def scanCell (c : Col) (t item fid : Nat) (bs : List Byte) (whole unbounded : Bool) : Cell × Bool × Option (Nat × Nat) :=
  if !whole then (.null, false, some (item, fid))
  else if c.string then
    if t ≠ 0x80 then (.null, true, none)
    else if !unbounded ∧ c.cap < bs.length then (.str (bs.take c.cap), false, some (item, c.idx))
    else (.str bs, false, none)
  else if c.vector then
    if t ≠ 0x81 ∨ bs.length ≠ c.cap * width c.type / 8 then (.null, true, none)
    else (.vec (OpRun.unitsOf (width c.type / 8) bs.length bs), false, none)
  else if t ≠ c.type ∨ bs.length ≠ width c.type / 8 then (.null, true, none)
  else (.num (leNat bs), false, none)

/-- One record becomes one row (R199). -/
def scanRecord (r : OpRun) (row : Nat) (bs : List Byte) : OpRun :=
  let cap := if r.o.unbounded then bs.length else r.o.bound
  let fs := if fieldAt bs 4 1 ≠ 1 then none else scanSeen bs cap (fieldAt bs 6 2) 8
  match fs with
  | none => (r.countBad row).emitRow row row 0 (r.outs.map (fun c => (c, .null)))
  | some fs =>
    let step : OpRun → ScanCol → Col → (Nat × Nat × Nat × List Byte) × Nat → OpRun × ScanCol := fun r x c e =>
      let (q, fid, t, data) := e.1
      if fid ≠ c.tag then (r, x)
      else
        let whole := decide (q + 8 + data.length ≤ cap)
        let (v, mis, cut) := scanCell c t e.2 fid data whole r.o.unbounded
        ({ r with aux0 := r.aux0 + b2n mis, aux1 := r.aux1 + b2n x.seen }, ⟨true, v, cut⟩)
    let (r, cells) := r.outs.foldl (fun (a : OpRun × List (Col × ScanCol)) c =>
      let (r, x) := fs.zipIdx.foldl (fun (b : OpRun × ScanCol) e => step b.1 b.2 c e) (a.1, {})
      (r, a.2 ++ [(c, x)])) (r, [])
    let q := r.emitRow row row 0 (cells.map (fun e => (e.1, e.2.x)))
    if q.ended then q
    else (List.range fs.length).foldl (fun q i => cells.foldl (fun q e =>
      match e.2.cut with
      | some (it, v) => if it = i then q.cut row it v else q
      | none => q) q) q

/-- The records of a call from byte `p`, `row` counting them; those before RESUME_ROW are only stepped over. -/
def scanFrom (d : Desc) : Nat → Nat → Nat → OpRun → OpRun
  | 0, _, _, r => r
  | fuel + 1, row, p, r =>
    let at_ : Nat → Nat × Nat × Nat := fun k => (d.tier, d.addrOf [p], k)
    let r := if p + 4 ≤ d.sz 0 then r.touch row [at_ 4] else r
    if r.ended then r
    else
      let n := leNat (r.heapBytes d p 4)
      if d.sz 0 < p + 4 ∨ n < 8 ∨ d.sz 0 < p + n then { r.countBad row with stop := some (Code.BAD_RECORD, row, 0) }
      else if row < r.o.resumeRow then scanFrom d fuel (row + 1) (p + cdiv n 8 * 8) r
      else
        let r := r.touch row [at_ n]
        if r.ended then r
        else
          let q := scanRecord r row (r.heapBytes d p n)
          if q.ended then q else scanFrom d fuel (row + 1) (p + cdiv n 8 * 8) { q with rowsIn := q.rowsIn + 1 }

/-- SCAN (R199, R200). -/
def scanSpec (r : OpRun) : OpSpec :=
  let o := r.o
  let src := r.param 0x20 false
  { dd := true, used := [(0x20, 2), (0x24, 4)], tagged := fun _ => true
    badBound := decide (o.bound < 64) || decide (16777216 < o.bound)
    badCol := !r.ins.isEmpty || !okDesc src
    badType := (Col.get src).etype != U8 || r.cols.any (fun c => isMx c.type || (c.string && c.type != U8))
    worst := fun c => (0, if c.string then o.rows * c.cap else 0)
    run := scanFrom (Col.get src) o.rows 0 (o.f 0x24 4) }

/-- OPERATOR SCAN (R199). -/
def execOpScan (core : Nat) (s : State) : Host.Outcome State Fault Refusal := .next (opCall s core 0x01 scanSpec)

/-- A word of a predicate program (Table 7.9). -/
structure PredWord where
  opc : Nat
  a : Nat
  b : Nat
  cmp : Nat
  const : Nat
  deriving DecidableEq, Repr

/-- The words of a program up to its END, at most 64 (R201). -/
def predWords (c : CoreSt) (off : Nat) : Nat → Option (List PredWord)
  | 0 => none
  | fuel + 1 =>
    let w := c.bytes off 8
    let p : PredWord := ⟨fieldAt w 0 1, fieldAt w 1 1, fieldAt w 2 1, fieldAt w 3 1, fieldAt w 4 4⟩
    if p.opc = 0 then some [] else (predWords c (off + 8) fuel).map (fun l => p :: l)

/-- Stack depth after each word: none where a rule of R201 is broken. -/
def predDepth : Nat → List PredWord → Option Nat
  | k, [] => some k
  | k, p :: l =>
    let need := if p.opc = 0x10 ∨ p.opc = 0x11 then 2 else if p.opc = 0x12 then 1 else 0
    let next := if p.opc = 0x10 ∨ p.opc = 0x11 then k - 1 else if p.opc = 0x12 then k else k + 1
    if k < need ∨ 8 < next then none else predDepth next l

/-- Whether a word is well formed over the input columns (R201, R202). -/
def predWordOk (r : OpRun) (p : PredWord) : Bool :=
  let inCol : Nat → Option Col := fun i => (r.col i).filter (fun c => !c.out)
  let sc : Nat → Option Col := fun i => (inCol i).filter (fun c => c.scalar && !isMx c.type)
  let zeroB := p.b == 0
  let zeroC := p.const == 0
  match p.opc with
  | 0x01 => (sc p.a).isSome && zeroB && decide (p.cmp < 6) && decide (p.const < 64)
  | 0x02 => (match sc p.a, sc p.b with
      | some x, some y => x.type == y.type
      | _, _ => false) && decide (p.cmp < 6) && zeroC
  | 0x03 => (inCol p.a).isSome && zeroB && zeroC
  | 0x10 | 0x11 | 0x12 => zeroB && zeroC
  | _ => false

/-- The program of a FILTER call, when it obeys R201. -/
def filterProgram (r : OpRun) : Option (List PredWord) :=
  let off := r.o.f 0x20 4
  if off % 64 ≠ 0 ∨ 0x400000 < off + 512 then none
  else match predWords (r.s.core r.n) off 64 with
    | none => none
    | some l => if l.all (predWordOk r) ∧ predDepth 0 l = some 1 then some l else none

/-- Constant `k` of the pool after a program, in a column's type (R201). -/
def predConst (r : OpRun) (len : Nat) (c : Col) (k : Nat) : Nat :=
  (r.s.core r.n).num (r.o.f 0x20 4 + cdiv (8 * (len + 1)) 64 * 64 + 8 * k) 8 % 2 ^ width c.type

/-- One comparison (R202): ORD_IEEE for floats, the type's signedness for integers. -/
def predCompare (et cmp a b : Nat) : Bool := if isInt et then iCompare et cmp a b else (fCompare et cmp a b).1

/-- Run a program over one row (R202): the stack of masks. -/
def predRun (r : OpRun) (len row : Nat) : List PredWord → List Bool → Bool
  | [], st => st.headD false
  | p :: l, st =>
    let num : Nat → Option Nat := fun i => (r.col i).bind (fun c => match r.cell c row with | .num v => some v | _ => none)
    let et := ((r.col p.a).map Col.type).getD 0
    let next := match p.opc with
      | 0x01 => (match num p.a, r.col p.a with
          | some x, some c => predCompare et p.cmp x (predConst r len c p.const)
          | _, _ => false) :: st
      | 0x02 => (match num p.a, num p.b with
          | some x, some y => predCompare et p.cmp x y
          | _, _ => false) :: st
      | 0x03 => (match r.col p.a with
          | some c => (r.cell c row == .null || r.cell c row == .bad)
          | none => false) :: st
      | 0x10 => (st.headD false && (st.drop 1).headD false) :: st.drop 2
      | 0x11 => (st.headD false || (st.drop 1).headD false) :: st.drop 2
      | _ => (!st.headD false) :: st.drop 1
    predRun r len row l next

/-- Words that reach END through AND words only (R204): each mask carries its CMP_CONST words. -/
def predAnds : List (PredWord × Nat) → List (List (PredWord × Nat)) → List (PredWord × Nat)
  | [], st => st.headD []
  | e :: l, st =>
    let next := match e.1.opc with
      | 0x01 => [e] :: st
      | 0x02 | 0x03 => [] :: st
      | 0x10 => ((st.drop 1).headD [] ++ st.headD []) :: st.drop 2
      | 0x11 => [] :: st.drop 2
      | _ => [] :: st.drop 1
    predAnds l next

/-- A code widened as zone-map values are (R116). -/
def zoneWide (et code : Nat) : Nat :=
  if isInt et then unsignedOf 64 (intOf et code)
  else
    let c := toF64 (value et code)
    if isZero (value FP64 c) then 0 else c

/-- Zone terms of a program: the first four qualifying words, in program order (R204). -/
def zoneTerms (r : OpRun) (l : List PredWord) : List ZoneTerm :=
  let ok := (predAnds l.zipIdx []).filter (fun e => e.1.cmp != 1 && (r.col e.1.a).any (fun c => decide (c.tag < 8)))
  let ok := l.zipIdx.filter (fun e => ok.contains e)
  (ok.take 4).filterMap (fun e => (r.col e.1.a).map (fun c =>
    let k := zoneWide c.type (predConst r l.length c e.1.const)
    let t := if isInt c.type then (if isSigned c.type then I64 else U64) else FP64
    let lo := e.1.cmp == 0 || decide (4 ≤ e.1.cmp)
    let hi := e.1.cmp == 0 || e.1.cmp == 2 || e.1.cmp == 3
    ⟨c.tag, t, lo, e.1.cmp != 4, hi, e.1.cmp != 2, k, k⟩))

/-- Rows of a block of an input column (R204). -/
def rowBlock (c : Col) : Nat := if c.vector then c.vals.blockLen 1 else c.vals.blockLen 0

/-- One row of FILTER (R202 to R204). -/
def filterRow (l : List PredWord) (zone : Option (Desc × List ZoneTerm)) (r : OpRun) (row : Nat) : OpRun :=
  let blk := row / max 1 ((r.ins.head?.map rowBlock).getD 1)
  let (r, skip) := match zone with
    | none => (r, false)
    | some (z, ts) =>
      let q := r.touch row [(z.tier, z.addrOf [0, blk], 128)]
      (q, !q.ended && zoneSkips q.s q.n z ts blk)
  if r.ended then r
  else if skip then { r with aux0 := r.aux0 + 1 }
  else
    let r := r.touchRow r.ins row
    if r.ended then r
    else
      let named := r.ins.filter (fun c => l.any (fun p => (decide (p.opc ≤ 3) && p.a == c.idx) || (p.opc == 2 && p.b == c.idx)))
      let r := named.foldl (fun r c => (r.read c row).1) r
      if !predRun r l.length row l [] then r
      else if r.o.f 0x24 1 = 1 then r.emitRow r.rowsOut row 0 (r.outs.map (fun c => (c, .num row)))
      else
        let cut : Col → Cell → Cell := fun c x => match x with
          | .str bs => .str (bs.take c.cap)
          | x => x
        r.emitRow r.rowsOut row 0 (r.outs.map (fun c => (c, cut c (((r.col c.tag).map (fun i => r.cell i row)).getD .null))))

/-- Whether an output column can take an input column's rows. -/
def sameShape (c i : Col) (anyType : Bool) : Bool := c.kind == i.kind && (anyType && !c.string || c.type == i.type) && (!c.vector || c.cap == i.cap)

/-- FILTER (R201 to R204). -/
def filterSpec (r : OpRun) : OpSpec :=
  let o := r.o
  let index := o.f 0x24 1 == 1
  let zoned := o.f 0x25 1 == 1
  let prog := filterProgram r
  let l := prog.getD []
  let partner : Col → Option Col := fun c => (r.col c.tag).filter (fun i => !i.out)
  let cmps := r.ins.filter (fun c => l.any (fun p => (decide (p.opc ≤ 2) && p.a == c.idx) || (p.opc == 2 && p.b == c.idx)))
  let zd := useDescDir r.s r.cn (o.f 0x26 2) false
  let ts := zoneTerms r l
  let shapeBad := (match zd with
      | .ok z => z.etype != U64 || z.rank != 2 || z.sz 0 != 16
      | .error _ => true) || r.ins.any (fun c => decide (some (rowBlock c) ≠ r.ins.head?.map rowBlock)) || ts == []
  { used := [(0x20, 4), (0x24, 4)], tagged := fun c => !c.out || !index
    rsv := decide (1 < o.f 0x24 1) || decide (1 < o.f 0x25 1) || (!zoned && o.f 0x26 2 != 0)
    badCol := (if index then r.outs.length != 1 else r.outs.any (fun c => (partner c).isNone)
        || cmps.any (fun i => !r.outs.any (fun c => c.tag == i.idx))) || (zoned && (match zd with | .ok _ => false | .error _ => true))
    badType := r.cols.any (fun c => isMx c.type) || (if index then r.outs.any (fun c => !c.scalar || c.type != U32)
        else r.outs.any (fun c => (partner c).any (fun i => !sameShape c i false)))
    perRow := fun _ => false
    worst := fun c => (o.rows, if c.string then o.rows * c.cap else 0)
    codes := [(prog.isNone, Code.PROGRAM_BAD), (zoned && shapeBad, Code.ZONE_SHAPE)]
    run := fun r => OpRun.eachRow (filterRow l (if zoned then some (Col.get zd, ts) else none)) r.rowList r }

/-- OPERATOR FILTER (R202). -/
def execOpFilter (core : Nat) (s : State) : Host.Outcome State Fault Refusal := .next (opCall s core 0x02 filterSpec)

/-- A vector or scalar of one type as another (R205, R59); blocks of 32 for MX types (R56, R57). -/
def convertCell (r : OpRun) (i c : Col) (row : Nat) (x : Cell) : Cell :=
  let rm := r.o.f 0x22 1
  let sat := r.o.f 0x23 1 == 1
  let mx := isMx i.type || isMx c.type
  match x with
  | .num v => if i.type = c.type then x else .num (convert i.type c.type rm sat v).1
  | .vec l =>
    if i.type = c.type then x
    else if mx then
      let vs := (List.range l.length).map (fun k => elemVal r.s r.n i.vals [k, row])
      if isMx c.type then .vec ((List.range (l.length / 32)).flatMap (fun b => (mxBlock c.type ((vs.drop (32 * b)).take 32)).2.1))
      else .vec (vs.map (fun v => if isInt c.type then (toInt c.type rm v).1 else (encodeF (fmtOf c.type) rm sat v).1))
    else .vec (l.map (fun v => (convert i.type c.type rm sat v).1))
  | .str bs => .str (bs.take c.cap)
  | x => x

/-- Scale bytes of an MX output row (R57, R84). -/
def putScales (r : OpRun) (i c : Col) (row src : Nat) (x : Cell) : OpRun :=
  if !isMx c.type then r
  else
    let vs := match x with
      | .vec l => (List.range l.length).map (fun k => elemVal r.s r.n i.vals [k, src])
      | _ => List.replicate c.cap (.fin false 0 0)
    (List.range (c.cap / 32)).foldl (fun r b =>
      let isVec := match x with
        | .vec _ => true
        | _ => false
      let sc := if i.type = c.type ∧ isVec = true then r.s.tNum r.n i.vals.tier (i.vals.scaleAddr [32 * b, src]) 1
        else (mxBlock c.type ((vs.drop (32 * b)).take 32)).1
      { r with s := r.s.tWrite r.n c.vals.tier (c.vals.scaleAddr [32 * b, row]) (leBytes 1 sc) (r.s.core r.n).poisoned }) r

/-- One row of PROJECT (R205). -/
def projectRow (r : OpRun) (row : Nat) : OpRun :=
  let gather := r.o.f 0x20 1 == 1
  let idx := r.col (r.o.f 0x21 1)
  let r := if gather then r.touchRow idx.toList row else r
  if r.ended then r
  else
    let (r, src) := if !gather then (r, some row) else match idx with
      | none => (r, none)
      | some c => match r.read c row with
        | (r, .num v) => (r, if v = 0xFFFFFFFF then none else some v)
        | (r, _) => (r, none)
    let pairs := r.outs.filterMap (fun c => (r.col c.tag).map (fun i => (c, i)))
    let inR : Col → Bool := fun i => match src with
      | some k => !gather || decide (k < i.rowsHeld)
      | none => false
    let r := if src.isSome ∧ pairs.any (fun e => !inR e.2) then { r with aux0 := r.aux0 + 1 } else r
    let k := src.getD 0
    let r := r.touch row ((pairs.filter (fun e => inR e.2)).flatMap (fun e => r.spans e.2 k))
    if r.ended then r
    else
      let (r, cells) := pairs.foldl (fun (a : OpRun × List (Col × Col × Cell × Cell)) e =>
        if !inR e.2 then (a.1, a.2 ++ [(e.1, e.2, .null, .null)])
        else
          let (r, x) := a.1.read e.2 k
          let y := convertCell r e.2 e.1 k x
          let cutS := match x with
            | .str bs => decide (e.1.cap < bs.length)
            | _ => false
          ({ r with aux1 := r.aux1 + b2n cutS }, a.2 ++ [(e.1, e.2, x, y)])) (r, [])
      let q := r.emitRow row row 0 (cells.map (fun e => (e.1, e.2.2.2)))
      if q.ended then q else cells.foldl (fun q e => putScales q e.2.1 e.1 row k e.2.2.1) q

/-- PROJECT (R205). -/
def projectSpec (r : OpRun) : OpSpec :=
  let o := r.o
  let gather := o.f 0x20 1 == 1
  let idx := r.col (o.f 0x21 1)
  let partner : Col → Option Col := fun c => (r.col c.tag).filter (fun i => !i.out)
  { used := [(0x20, 4)], tagged := fun c => c.out
    rsv := decide (1 < o.f 0x20 1) || (!gather && o.f 0x21 1 != 0) || decide (3 < o.f 0x22 1) || decide (1 < o.f 0x23 1)
    badCol := (gather && idx.all (fun c => c.out)) || r.outs.any (fun c => (partner c).isNone)
    badType := (gather && idx.any (fun c => !c.scalar || c.type != U32)) || r.outs.any (fun c => (partner c).any (fun i => !sameShape c i true))
      || r.cols.any (fun c => isMx c.type && !(c.vector && c.cap % 32 == 0))
    perRow := fun c => c.out || !gather || c.idx == o.f 0x21 1
    worst := fun c => (0, if c.string then o.rows * c.cap else 0)
    run := fun r => OpRun.eachRow projectRow r.rowList r }

/-- OPERATOR PROJECT (R205). -/
def execOpProject (core : Nat) (s : State) : Host.Outcome State Fault Refusal := .next (opCall s core 0x03 projectSpec)

/-- The tokens of a MinHash row (R207). -/
def tokensOf : Cell → List Nat
  | .vec l => l
  | .str bs => OpRun.unitsOf 4 bs.length bs
  | _ => []

/-- One row of HASH (R206, R207). -/
def hashRow (tab : Option (Nat × Nat)) (r : OpRun) (row : Nat) : OpRun :=
  let o := r.o
  let func := o.f 0x20 1 % 16
  let raw := o.f 0x20 1 / 16 == 0
  let cs := r.ins.take (o.f 0x21 1)
  let seed := o.f 0x28 8
  let out : OpRun → List Cell → OpRun := fun r l => r.emitRow row row 0 (r.outs.zip l)
  let r := r.touchRow cs row
  if r.ended then r
  else if func = 3 then
    match cs.head? with
    | none => r
    | some c =>
      match r.read c row with
      | (r, .null) => out r [.null]
      | (r, x) =>
        let t := tokensOf x
        let sig := Hash.minhash t (o.f 0x23 1) (o.f 0x24 2) seed
        let r := if t = [] then { r with aux0 := r.aux0 + 1 } else r
        out r [.vec (if bitOf (o.f 0x22 1) 1 then sig.map (fun v => v % 2 ^ 32) else sig)]
  else
    match r.keyOnce cs raw row with
    | (r, none) => out r [.null, .null]
    | (r, some k) =>
      if func = 1 then out r [.num (Hash.crc32c (seed % 2 ^ 32) k)]
      else if func = 2 then
        let (i, sg) := Hash.featureHash k seed (o.f 0x30 8) (bitOf (o.f 0x22 1) 0)
        out r [.num i, .num (unsignedOf 32 sg)]
      else if func = 4 then out r [.num (Hash.smx64 k ((tab.map (fun e => AssayTab.seed r.s e.1 e.2)).getD 0))]
      else out r [.num (Hash.smx64 k seed)]

/-- HASH (R206, R207). -/
def hashSpec (r : OpRun) : OpSpec :=
  let o := r.o
  let func := o.f 0x20 1 % 16
  let kind := o.f 0x20 1 / 16
  let nkey := o.f 0x21 1
  let flags := o.f 0x22 1
  let cs := r.ins.take nkey
  let svc := ((r.s.ctx? r.cn).map (fun c => c.svc)).getD 0
  let tab := assayBind r.s svc (o.f 0x38 1) (dieOfCore r.n)
  let want : List (Nat × Nat) := match func with
    | 1 => [(0, U32)]
    | 2 => [(0, U32), (0, I32)]
    | 3 => [(2, if bitOf flags 1 then U32 else U64)]
    | _ => [(0, U64)]
  let m := o.f 0x30 8
  { used := [(0x20, 6), (0x28, 17)]
    rsv := decide (3 < flags) || (bitOf flags 0 && func != 2) || (bitOf flags 1 && func != 3) || (func != 3 && (o.f 0x23 1 != 0 || o.f 0x24 2 != 0))
      || (func == 1 && decide (2 ^ 32 ≤ o.f 0x28 8)) || (func == 4 && o.f 0x28 8 != 0) || (func != 2 && m != 0) || (func != 4 && o.f 0x38 1 != 0)
    badCol := nkey == 0 || decide (8 < nkey) || cs.length != nkey || cs.zipIdx.any (fun e => e.1.idx != e.2) || r.outs.length != want.length
      || (func == 3 && r.outs.any (fun c => c.cap != o.f 0x24 2))
    badType := (r.outs.zip want).any (fun e => e.1.kind != e.2.1 || e.1.type != e.2.2)
      || (func == 3 && cs.any (fun c => c.scalar || c.type != U32)) || (func != 3 && cs.any (fun c => c.vector || (c.string && c.type != U8)))
    codes := [(decide (4 < func) || (func == 2 && (m == 0 || decide (2 ^ 32 < m))) || (func == 3 && (o.f 0x23 1 == 0 || decide (8 < o.f 0x23 1)
          || o.f 0x24 2 == 0 || decide (1024 < o.f 0x24 2) || o.f 0x24 2 % 64 != 0)), Code.BAD_HASH_PARAM),
        (decide (1 < kind) || (func == 3 && nkey != 1) || (func != 3 && kind == 0 && (nkey != 1 || cs.any (fun c => !c.string)))
          || (func != 3 && cs.any (fun c => c.scalar && !Hash.keyType c.type)), Code.BAD_KEY_TYPE),
        (func == 4 && tab.isNone, Code.BAD_TABLE)]
    run := fun r => OpRun.eachRow (hashRow tab) r.rowList r }

/-- OPERATOR HASH (R206). -/
def execOpHash (core : Nat) (s : State) : Host.Outcome State Fault Refusal := .next (opCall s core 0x04 hashSpec)

/-- Boundaries strictly rise and hold no NaN (R215). -/
def boundsOk (et : Nat) (l : List Nat) : Bool :=
  !l.any (OpRun.isNan et) && (l.zip (l.drop 1)).all (fun e => predCompare et 2 e.1 e.2)

/-- One row of BUCKETIZE (R215). -/
def bucketRow (b : List Nat) (r : OpRun) (row : Nat) : OpRun :=
  let r := r.touchRow r.ins row
  if r.ended then r
  else match r.ins.head?, r.outs.head? with
    | some c, some q =>
      match r.read c row with
      | (r, .num v) =>
        let r := if OpRun.isNan c.type v then { r with aux0 := r.aux0 + 1 } else r
        r.emitRow row row 0 [(q, .num (bucketOf c.type v b.length (fun i => b.getD i 0)))]
      | (r, _) => r.emitRow row row 0 [(q, .null)]
    | _, _ => r

/-- BUCKETIZE (R215): the boundaries are read whole at the call. -/
def bucketSpec (r : OpRun) : OpSpec :=
  let o := r.o
  let bd := r.param 0x20 false
  let n := o.f 0x24 4
  let b := (List.range (min n 4096)).map (fun i => r.code (Col.get bd) [i])
  let et := (r.ins.head?.map Col.type).getD 0
  let okT := et == I32 || et == U32 || et == I64 || et == U64 || et == FP32 || et == FP64
  { used := [(0x20, 2), (0x24, 4)]
    badCol := r.ins.length != 1 || r.outs.length != 1 || !okDesc bd || n == 0 || decide (4096 < n) || decide ((Col.get bd).sz 0 < n)
    badType := !okT || (Col.get bd).etype != et || r.ins.any (fun c => !c.scalar) || r.outs.any (fun c => !c.scalar || c.type != U32)
    codes := [(!boundsOk et b, Code.BAD_BOUNDARIES)]
    run := fun r =>
      let d := Col.get bd
      OpRun.eachRow (bucketRow b) r.rowList (r.touch o.resumeRow [(d.tier, d.addrOf [0], n * d.bits / 8)]) }

/-- OPERATOR BUCKETIZE (R215). -/
def execBucketize (core : Nat) (s : State) : Host.Outcome State Fault Refusal := .next (opCall s core 0x08 bucketSpec)

/-- A statistics record (Table 7.13); MEAN to MAX are FP64 codes. -/
structure StatRec where
  n : Nat := 0
  nans : Nat := 0
  nulls : Nat := 0
  mean : Nat := 0
  m2 : Nat := 0
  mn : Nat := 0x7FF0000000000000
  mx : Nat := 0xFFF0000000000000
  deriving DecidableEq, Repr

/-- Rounded FP64 operations. -/
def d64Add (a b : Nat) : Nat := (fAdd FP64 0 false a b).1
def d64Sub (a b : Nat) : Nat := (fSub FP64 0 false a b).1
def d64Mul (a b : Nat) : Nat := (fMul FP64 0 false a b).1
def d64Div (a b : Nat) : Nat := (fDiv FP64 0 false a b).1
def d64Sqrt (a : Nat) : Nat := (fSqrt FP64 0 false a).1
def d64Nat (n : Nat) : Nat := toF64 (ofInt n)
def d64Lt (a b : Nat) : Bool := (fCompare FP64 2 a b).1

/-- A record of a stats area at byte `o` of its descriptor. -/
def readStat (r : OpRun) (d : Desc) (o : Nat) : StatRec :=
  let g : Nat → Nat := fun k => leNat (r.heapBytes d (o + k) 8)
  ⟨g 0, g 8, g 0x10, g 0x18, g 0x20, g 0x28, g 0x30⟩

/-- NORMALIZE of one FP64 value (R219): `st` the record, `rs` the reciprocal deviation of ZSCORE. -/
def normValue (o : Opb) (st : StatRec) (rs x : Nat) : Nat :=
  let fl := o.f 0x21 1
  let fixed := bitOf fl 2
  let p0 := o.f 0x28 8
  let p1 := o.f 0x30 8
  let f32 : Nat → Nat := fun v => toF32 (value FP64 v)
  match o.f 0x20 1 with
  | 0 =>
    if (if fixed then isZero (value FP64 p1) else st.n == 0 || isZero (value FP64 st.m2)) then 0
    else f32 (d64Mul (d64Sub x (if fixed then p0 else st.mean)) rs)
  | 1 =>
    let v := f32 x
    if bitOf fl 1 then
      let a := (log1p (v % 2 ^ 31)).1
      if isNaN (value FP32 v) then a else a % 2 ^ 31 + (if bitOf v 31 then 2 ^ 31 else 0)
    else (log1p v).1
  | 2 =>
    if isNaN (value FP64 x) then f32 x
    else
      let a := if d64Lt x p0 then p0 else x
      f32 (if d64Lt p1 a then p1 else a)
  | _ =>
    let lo := if fixed then p0 else st.mn
    let hi := if fixed then p1 else st.mx
    if (fCompare FP64 3 hi lo).1 then 0
    else
      let y := d64Div (d64Sub x lo) (d64Sub hi lo)
      let one := d64Nat 1
      let y := if bitOf fl 3 ∧ !isNaN (value FP64 y) then (if d64Lt y 0 then 0 else if d64Lt one y then one else y) else y
      f32 y

/-- One row of NORMALIZE (R219). -/
def normRow (st : StatRec) (rs : Nat) (r : OpRun) (row : Nat) : OpRun :=
  let fill := bitOf (r.o.f 0x21 1) 0
  let fv := Cell.num (r.o.f 0x38 4)
  let r := r.touchRow r.ins row
  if r.ended then r
  else match r.ins.head?, r.outs.head? with
    | some c, some q =>
      match r.read c row with
      | (r, .num v) =>
        let nan := OpRun.isNan c.type v
        let r := if nan then { r with aux0 := r.aux0 + 1 } else r
        r.emitRow row row 0 [(q, if nan then (if fill then fv else .num (canonNaN (fmtOf FP32)))
          else .num (normValue r.o st rs (convert c.type FP64 0 false v).1))]
      | (r, _) => r.emitRow row row 0 [(q, if fill then fv else .null)]
    | _, _ => r

/-- NORMALIZE (R219). -/
def normSpec (r : OpRun) : OpSpec :=
  let o := r.o
  let mode := o.f 0x20 1
  let fixed := bitOf (o.f 0x21 1) 2
  let stats := (mode == 0 || mode == 3) && !fixed
  let sd := r.param 0x22 false
  let d := Col.get sd
  let tag := (r.ins.head?.map Col.tag).getD 0
  let g : Nat → Nat := fun k => leNat (r.heapBytes d k 4)
  let nf := g 0x10
  { used := [(0x20, 4), (0x28, 20)], tagged := fun c => !c.out
    rsv := decide (15 < o.f 0x21 1)
    badCol := r.ins.length != 1 || r.outs.length != 1 || (stats && !okDesc sd)
    badType := r.ins.any (fun c => !c.scalar || isMx c.type || c.type == E8M0) || r.outs.any (fun c => !c.scalar || c.type != FP32)
      || (stats && d.etype != U8)
    codes := [(decide (3 < mode), Code.BAD_NORM_PARAM), (stats && (decide (nf ≤ tag) || decide (d.sz 0 < 64 + 128 * nf)), Code.STATS_RECORD)]
    run := fun r =>
      let gen := g 0x0C
      let off := 64 + 64 * (nf * (gen % 2) + tag)
      let r := if stats then r.touch o.resumeRow [(d.tier, d.addrOf [0], 64), (d.tier, d.addrOf [off], 64)] else r
      let st := if stats then readStat r d off else {}
      let one := d64Nat 1
      let rs := if fixed then d64Div one (o.f 0x30 8) else d64Div one (d64Sqrt (d64Div st.m2 (d64Nat st.n)))
      OpRun.eachRow (normRow st rs) r.rowList (if stats ∧ !r.ended then { r with aux1 := gen } else r) }

/-- OPERATOR NORMALIZE (R219). -/
def execNormalize (core : Nat) (s : State) : Host.Outcome State Fault Refusal := .next (opCall s core 0x09 normSpec)

/-- Separator bytes (R245). -/
def isSep (b : Byte) : Bool := b == 0x20 || (decide (9 ≤ b.toNat) && decide (b.toNat ≤ 13))

/-- Bytes before the first separator. -/
def runToSep : List Byte → Nat
  | [] => 0
  | b :: l => if isSep b then 0 else runToSep l + 1

/-- UTF-8 length by the first byte (R245). -/
def utf8Len (b : Byte) : Nat :=
  let n := b.toNat
  if 0xC0 ≤ n ∧ n ≤ 0xDF then 2 else if 0xE0 ≤ n ∧ n ≤ 0xEF then 3 else if 0xF0 ≤ n ∧ n ≤ 0xF7 then 4 else 1

/-- LO, HI and BEST that the direct table reaches for a window (R240, R245). -/
def directStart (c : CoreSt) (off : Nat) (win : List Byte) (w : Nat) : Nat × Nat × Nat :=
  let b0 := (win.headD 0).toNat
  let b1 := ((win.drop 1).headD 0).toNat
  let d1 := c.num (off + 4 * b0) 4
  if d1 < 2 ^ 31 then (0, 0, 0)
  else
    let hi := min w (bitsOf d1 30 25 + 1)
    if hi < 2 then (1, hi, d1)
    else
      let d2 := c.num (off + 4 * (256 + b0 + 256 * b1)) 4
      if d2 < 2 ^ 31 then (1, 1, d1) else (2, min hi (bitsOf d2 30 25 + 1), d2)

/-- Tokens of a row so far: the operator, tokens emitted in this call, tokens in all, and the offset where text was cut. -/
structure TokRow where
  r : OpRun
  toks : List Nat := []
  t : Nat := 0
  cutAt : Option Nat := none
  full : Bool := false

/-- Tokenise the text from offset `p` (R245): `cap` bounds the tokens of a row, `room` the heap, `skip` those already
emitted by an earlier call. -/
def tokenizeFrom (tab : Nat × Nat) (cap : Option Nat) (room skip : Nat) : Nat → Nat → List Byte → TokRow → TokRow
  | 0, _, _, a => a
  | fuel + 1, p, text, a =>
    match text with
    | [] => a
    | b :: rest =>
      let fl := a.r.o.f 0x21 1
      let split := bitOf fl 0
      if split && isSep b then tokenizeFrom tab cap room skip fuel (p + 1) rest a
      else
        let w := min 64 (if split then runToSep text else text.length)
        let win := text.take w
        let c := a.r.s.core a.r.n
        let (lo, hi, best) := if bitOf fl 2 then directStart c (a.r.o.f 0x28 4) win w else (0, w, 0)
        let (s, m) := if lo < hi then assayLm a.r.s tab.1 tab.2 win lo hi best else (a.r.s, { lo := lo, hi := hi, cand := 0, jump := false, best := best })
        let blen := bitsOf m.best 24 18
        let id := if blen = 0 then a.r.o.f 0x24 4 else m.best % 2 ^ 18
        let adv := if blen ≠ 0 then blen else if bitOf fl 1 then min w (utf8Len b) else 1
        let r := { a.r with s := s, aux1 := a.r.aux1 + m.probes, aux0 := a.r.aux0 + b2n (blen == 0) }
        let a := { a with r := r }
        let go : TokRow → TokRow := fun a => tokenizeFrom tab cap room skip fuel (p + adv) (text.drop adv) a
        if id = 0xFFFFFFFF then go a
        else if cap.any (fun k => decide (k ≤ a.t)) then { a with cutAt := some p }
        else if a.t < skip then go { a with t := a.t + 1 }
        else if room ≤ a.toks.length then { a with full := true }
        else go { a with t := a.t + 1, toks := a.toks ++ [id] }

/-- One row of TOKENIZE (R245, R246). -/
def tokenizeRow (tab : Nat × Nat) (r : OpRun) (row : Nat) : OpRun :=
  let o := r.o
  let r := r.touchRow r.ins row
  if r.ended then r
  else match r.ins.head?, r.outs.head? with
    | some c, some q =>
      let used := smGet 0 q.idx r.heaps
      match r.read c row with
      | (r, .str text) =>
        let skip := if row = o.resumeRow then o.resumeSub else 0
        let a := tokenizeFrom tab (if o.unbounded then none else some o.bound) (q.heap.sz 0 - used) skip (text.length + 1) 0 text { r := r }
        let e := a.r.emitRow row row 0 [(q, .str (a.toks.flatMap (leBytes 4)))]
        if a.full then { e with stop := some (Code.OUTPUT_FULL, row, a.t), rowsOut := r.rowsOut }
        else match a.cutAt with
          | some p => e.cut row o.bound p
          | none => e
      | (r, _) => r.emitRow row row 0 [(q, .null)]
    | _, _ => r

/-- TOKENIZE (R244 to R247). -/
def tokenizeSpec (r : OpRun) : OpSpec :=
  let o := r.o
  let fl := o.f 0x21 1
  let svc := ((r.s.ctx? r.cn).map (fun c => c.svc)).getD 0
  let tab := (assayBind r.s svc (o.f 0x20 1) (dieOfCore r.n)).filter (fun e => AssayTab.lm r.s e.1 e.2)
  let cap := (r.outs.head?.map Col.cap).getD 0
  { dd := true, used := [(0x20, 2), (0x24, 8)]
    rsv := decide (7 < fl) || (!bitOf fl 2 && o.f 0x28 4 != 0)
    badBound := decide (cap < o.bound) || decide (65536 < o.bound)
    badCol := r.ins.length != 1 || r.outs.length != 1 || r.ins.any (fun c => c.idx != 0) || r.outs.any (fun c => c.idx != 1)
    badType := r.ins.any (fun c => !c.string || c.type != U8) || r.outs.any (fun c => !c.string || c.type != U32)
    worst := fun c => (0, if c.string then o.rows * o.bound else 0)
    codes := [(tab.isNone, Code.BAD_TABLE)]
    run := fun r => OpRun.eachRow (tokenizeRow (tab.getD (0, 0))) r.rowList r }

/-- Whether an instance that passes its checks starts to use a direct table (R240, R245). -/
def usesDirect (s : State) (n cn : Nat) (o : Opb) : Bool :=
  let r := opRun s n cn o
  bitOf (o.f 0x21 1) 2 && (opCheck r (tokenizeSpec r)).isNone && decide (o.rows ≠ o.resumeRow)

/-- OPERATOR TOKENIZE (R245): its direct table must lie in SRAM (R161, R240). -/
def execTokenize (core : Nat) (s : State) : Host.Outcome State Fault Refusal :=
  match opCalled s core 0x0D with
  | none => .next (opCall s core 0x0D tokenizeSpec)
  | some (cn, o) =>
    let off := o.f 0x28 4
    if usesDirect s core cn o ∧ 0x400000 < off + 263168 then .next (raiseExc s core Code.LOCAL_RANGE)
    else if usesDirect s core cn o ∧ off % 64 ≠ 0 then .next (raiseExc s core Code.MISALIGNED)
    else .next (opCall s core 0x0D tokenizeSpec)

end Sys2Proof.Machine
end

