-- ==== Sys2Proof/Machine/OpTables.lean ====
section
/-! DEFINITION. The table operators: JOIN_BUILD, JOIN_PROBE, DICT_LOOKUP, STATS, GROUP_AGG and DEDUP (R208 to R214, R216 to
R222). -/

namespace Sys2Proof.Machine

open Sys2Proof.Num

/-- A memory hash table (R208): its descriptor and the bytes of aggregate state that follow a key entry. -/
structure HTab where
  d : Desc
  agg : Nat := 0
  deriving DecidableEq, Repr

/-- Bytes of a table's descriptor. -/
def OpRun.hget (r : OpRun) (t : HTab) (o n : Nat) : Nat := leNat (r.heapBytes t.d o n)
def OpRun.hput (r : OpRun) (t : HTab) (o n v : Nat) : OpRun := r.putMany t.d o ((leBytes n v).map BitVec.toNat)

namespace HTab
/-- Header fields (Table 7.11). -/
def state (t : HTab) (r : OpRun) : Nat := r.hget t 1 1
def blog2 (t : HTab) (r : OpRun) : Nat := r.hget t 2 1
def kind (t : HTab) (r : OpRun) : Nat := r.hget t 3 1
def seed (t : HTab) (r : OpRun) : Nat := r.hget t 8 8
def rows (t : HTab) (r : OpRun) : Nat := r.hget t 0x10 4
def rowsCap (t : HTab) (r : OpRun) : Nat := r.hget t 0x14 4
def ovfUsed (t : HTab) (r : OpRun) : Nat := r.hget t 0x18 4
def ovfCap (t : HTab) (r : OpRun) : Nat := r.hget t 0x1C 4
def rowBase (t : HTab) (r : OpRun) : Nat := r.hget t 0x20 4
def lock (t : HTab) (r : OpRun) : Nat := r.hget t 0x24 4
/-- Places of a bucket (overflow buckets after the 2^BLOG2 first), and of a key entry. -/
def bucketAt (b : Nat) : Nat := 128 + 64 * b
def entrySize (t : HTab) : Nat := 128 + t.agg
def entryAt (t : HTab) (r : OpRun) (i : Nat) : Nat := 128 + 64 * (2 ^ t.blog2 r + t.ovfCap r) + t.entrySize * i
/-- Bytes of a layout. -/
def layoutLen (agg blog2 ovfCap rowsCap : Nat) : Nat := 128 + 64 * (2 ^ blog2 + ovfCap) + (128 + agg) * rowsCap
/-- Memory of `n` bytes at offset `o`, to be touched. -/
def span (t : HTab) (o n : Nat) : Nat × Nat × Nat := (t.d.tier, t.d.addrOf [o], n)
end HTab

/-- Whether a table's geometry is legal and its descriptor covers it (R208, R209). -/
def tableCovers (d : Desc) (agg blog2 ovfCap rowsCap : Nat) : Bool :=
  decide (4 ≤ blog2) && decide (blog2 ≤ 28) && decide (HTab.layoutLen agg blog2 ovfCap rowsCap ≤ d.sz 0)

/-- Write the header of R209 and zero every bucket (INIT); geometry that an INIT does not give stays as the header has
it (log entry 18). -/
def initTable (r : OpRun) (t : HTab) (geom : Option (Nat × Nat × Nat × Nat × Nat)) (rowsCap base lock : Nat) : OpRun :=
  let r := match geom with
    | some (kind, blog2, seed, ovfCap, _) => (((r.hput t 2 1 blog2).hput t 3 1 kind).hput t 8 8 seed).hput t 0x1C 4 ovfCap
    | none => r
  let r := ((((((r.hput t 0 1 1).hput t 1 1 0).hput t 0x10 4 0).hput t 0x14 4 rowsCap).hput t 0x18 4 0).hput t 0x20 4 base).hput t 0x24 4 lock
  let r := (r.hput t 4 4 0).hput t 0x28 88 0
  (List.range (2 ^ t.blog2 r + t.ovfCap r)).foldl (fun r b => r.hput t (HTab.bucketAt b) 64 0) r

/-- A key entry equals a key in its stored form (R66): LEN, LONG and bytes. -/
def entryEq (r : OpRun) (t : HTab) (i : Nat) (k : List Byte) : Bool :=
  let (bs, long) := Hash.storedKey k
  let e := t.entryAt r i
  decide (r.hget t e 2 = bs.length) && decide (r.hget t (e + 2) 1 = b2n long) && decide (r.heapBytes t.d (e + 8) bs.length = bs)

/-- LEN of the entry of a group table's null group (log entry 18). -/
def nullLen : Nat := 0xFFFF

/-- Where a walk of a chain stands. -/
structure ChainAt where
  r : OpRun
  /-- Row IDs of equal keys, in chain order. -/
  found : List Nat := []
  /-- The walk met its cap. -/
  capped : Bool := false
  falseHits : Nat := 0
  /-- The last bucket of the chain and its slots in use. -/
  last : Nat := 0
  count : Nat := 0

/-- Walk a chain from bucket `b` (R211): at most `cap` buckets; `first` ends it at the first match; `eq` compares the key entry
of a row ID. -/
def walkChain (t : HTab) (tag : Nat) (eq : OpRun → Nat → Bool) (first : Bool) (row : Nat) : Nat → Option Nat → Nat → ChainAt → ChainAt
  | 0, _, _, a => a
  | fuel + 1, cap, b, a =>
    if cap = some 0 then { a with capped := true }
    else
      let o := HTab.bucketAt b
      let r := a.r.touch row [t.span o 64]
      if r.ended then { a with r := r }
      else
        let n := min 7 (r.hget t (o + 56) 4)
        let ids := (List.range n).filterMap (fun i => if r.hget t (o + 8 * i + 4) 4 = tag then some (r.hget t (o + 8 * i) 4) else none)
        let r := r.touch row (ids.map (fun i => t.span (t.entryAt r (i - t.rowBase r)) (8 + 64)))
        if r.ended then { a with r := r }
        else
          let hits := ids.filter (fun i => eq r i)
          let seen := if first ∧ hits ≠ [] then ids.takeWhile (fun i => !eq r i) else ids.filter (fun i => !eq r i)
          let a := { a with r := r, found := a.found ++ (if first then hits.take 1 else hits), falseHits := a.falseHits + seen.length, last := b, count := n }
          let link := r.hget t (o + 60) 4
          if link = 0 ∨ (first ∧ hits ≠ []) then a
          else walkChain t tag eq first row fuel (cap.map (fun c => c - 1)) (2 ^ t.blog2 r + link - 1) a

/-- Look a key up: its fingerprint chooses the bucket and the tag (R209, R211). -/
def findKey (r : OpRun) (t : HTab) (f : Nat) (eq : OpRun → Nat → Bool) (first : Bool) (cap : Option Nat) (row : Nat) : ChainAt :=
  walkChain t (f / 2 ^ 32) eq first row (2 ^ t.blog2 r + t.ovfCap r + 1) cap (f % 2 ^ t.blog2 r) { r := r }

/-- The end of a chain. -/
def chainEnd (r : OpRun) (t : HTab) : Nat → Nat → Nat
  | 0, b => b
  | fuel + 1, b =>
    let link := r.hget t (HTab.bucketAt b + 60) 4
    if link = 0 then b else chainEnd r t fuel (2 ^ t.blog2 r + link - 1)

/-- Put row ID `id` at the end of its chain, linking an overflow bucket when the last is full: none when there is none
left (R209, R210). -/
def placeRow (r : OpRun) (t : HTab) (f id : Nat) : Option OpRun :=
  let b := chainEnd r t (2 ^ t.blog2 r + t.ovfCap r) (f % 2 ^ t.blog2 r)
  let put : OpRun → Nat → Nat → OpRun := fun r b i =>
    ((r.hput t (HTab.bucketAt b + 8 * i) 4 id).hput t (HTab.bucketAt b + 8 * i + 4) 4 (f / 2 ^ 32)).hput t (HTab.bucketAt b + 56) 4 (i + 1)
  let n := r.hget t (HTab.bucketAt b + 56) 4
  if n < 7 then some (put r b n)
  else
    let u := t.ovfUsed r
    if t.ovfCap r ≤ u then none
    else some (put ((r.hput t (HTab.bucketAt b + 60) 4 (u + 1)).hput t 0x18 4 (u + 1)) (2 ^ t.blog2 r + u) 0)

/-- Write a key entry (R208); `none` is the key of a null group. -/
def writeEntry (r : OpRun) (t : HTab) (i : Nat) (k : Option (List Byte)) : OpRun :=
  let e := t.entryAt r i
  let (bs, long) := Hash.storedKey (k.getD [])
  let len := if k.isNone then nullLen else bs.length
  ((r.hput t e 8 (len + 65536 * b2n long)).hput t (e + 8) 64 (leNat bs))

/-- The table descriptor of an operator. -/
def tableOf (r : OpRun) (agg : Nat) : HTab := ⟨Col.get (r.param 0x20 true), agg⟩

/-- A table descriptor fails R101 to R103, or lacks READ (R208). -/
def tableBad (r : OpRun) (write : Bool) : Bool :=
  match r.param 0x20 write with
  | .ok d => d.rank != 1 || !d.canRead
  | .error _ => true

/-- Key columns of an operator: input columns 0 to NKEY − 1. -/
def keyCols (r : OpRun) (nkey : Nat) : List Col := r.cols.filter (fun c => decide (c.idx < nkey))

/-- Whether NKEY and its columns cannot make a key of a kind (R65). -/
def keyBad (r : OpRun) (nkey : Nat) : Bool := nkey == 0 || decide (8 < nkey) || (keyCols r nkey).length != nkey || (keyCols r nkey).any (fun c => c.out)
def keyTypeBad (r : OpRun) (nkey : Nat) : Bool := (keyCols r nkey).any (fun c => c.vector || (c.string && c.type != U8))
def keyKindBad (r : OpRun) (nkey kind : Nat) : Bool :=
  decide (1 < kind) || (kind == 0 && (nkey != 1 || (keyCols r nkey).any (fun c => !c.string)))
    || (keyCols r nkey).any (fun c => c.scalar && !Hash.keyType c.type)

/-- One row of JOIN_BUILD (R209, R210). -/
def buildRow (t : HTab) (nkey kind base : Nat) (r : OpRun) (row : Nat) : OpRun :=
  let cs := keyCols r nkey
  let r := r.touchRow cs row
  if r.ended then r
  else match r.keyOnce cs (kind == 0) row with
    | (r, none) => r
    | (r, some k) =>
      let id := base + row
      let beyond := decide (id < t.rowBase r) || decide (t.rowBase r + t.rowsCap r ≤ id) || (!r.o.unbounded && decide (r.o.bound ≤ t.rows r))
      let full : OpRun → OpRun := fun r => if r.o.unbounded then { r with stop := some (Code.OUTPUT_FULL, row, 0) } else r.cut row 0 0
      if beyond then full r
      else match placeRow r t (Hash.smx64 k (t.seed r)) id with
        | none => full r
        | some q =>
          let q := writeEntry q t (id - t.rowBase q) (some k)
          { q.hput t 0x10 4 (t.rows q + 1) with rowsOut := q.rowsOut + 1 }

/-- JOIN_BUILD (R209, R210). -/
def buildSpec (r : OpRun) : OpSpec :=
  let o := r.o
  let init := o.f 0x22 1 == 1
  let sealed := o.f 0x23 1 == 1
  let nkey := o.f 0x24 1
  let kind := o.f 0x25 1
  let base := o.f 0x28 4
  let t := tableOf r 0
  let dOk := !tableBad r true
  let blog2 := if init then o.f 0x38 1 else t.blog2 r
  let ovfCap := if init then o.f 0x3C 4 else t.ovfCap r
  let rowsCap := if init then o.f 0x2C 4 else t.rowsCap r
  { dd := true, used := [(0x20, 6), (0x28, 4)] ++ (if init then [(0x2C, 4), (0x30, 9), (0x3C, 4)] else [])
    rsv := decide (1 < o.f 0x22 1) || decide (1 < o.f 0x23 1)
    badBound := dOk && (decide (rowsCap < o.bound) || decide (ovfCap < cdiv o.bound 7))
    badCol := keyBad r nkey || !dOk || !r.outs.isEmpty
    badType := keyTypeBad r nkey || t.d.etype != U8
    codes := [(keyKindBad r nkey kind, Code.BAD_KEY_TYPE), (!tableCovers t.d 0 blog2 ovfCap rowsCap, Code.TABLE_SHORT),
      (!init && (t.state r == 2 || t.state r == 3), Code.TABLE_BUSY), (init && t.state r == 2, Code.TABLE_BUSY)]
    run := fun r =>
      let r := r.touch o.resumeRow [t.span 0 128]
      if r.ended then r
      else
        let r := if init then initTable r t (some (kind, blog2, o.f 0x30 8, ovfCap, 0)) rowsCap base 0 else r
        let q := OpRun.eachRow (buildRow t nkey kind base) r.rowList (r.hput t 1 1 2)
        q.hput t 1 1 (if sealed && q.stop.isNone then 3 else 1) }

/-- OPERATOR JOIN_BUILD (R209). -/
def execJoinBuild (core : Nat) (s : State) : Host.Outcome State Fault Refusal := .next (opCall s core 0x05 buildSpec)

/-- A probe of a key: matches in order, whether the chain was cut, and false hits (R211, R213). -/
structure ProbeRes where
  r : OpRun
  found : List Nat
  capped : Bool
  hit : Nat

/-- The fields that JOIN_PROBE and DICT_LOOKUP share (Table 7.12). -/
def probeTab (r : OpRun) : Option (Nat × Nat) :=
  let svc := ((r.s.ctx? r.cn).map (fun c => c.svc)).getD 0
  (assayBind r.s svc (r.o.f 0x25 1) (dieOfCore r.n)).filter (fun e => !AssayTab.lm r.s e.1 e.2)

/-- Probe a table for one key (R211, R213). -/
def probeKey (r : OpRun) (first : Bool) (cap : Option Nat) (row : Nat) (k : List Byte) : ProbeRes :=
  if r.o.f 0x22 1 = 1 then
    let (u, j) := (probeTab r).getD (0, 0)
    let (bs, long) := Hash.storedKey k
    let (s, win, _, _, bad) := lookup r.s u j (Hash.smx64 k (AssayTab.seed r.s u j)) bs long
    ⟨{ r with s := s, aux1 := r.aux1 + bad }, (win.map (fun w => w.payload)).toList, false, 0⟩
  else
    let t : HTab := ⟨Col.get (r.param 0x20 false), 0⟩
    let a := findKey r t (Hash.smx64 k (t.seed r)) (fun r i => entryEq r t (i - t.rowBase r) k) first cap row
    ⟨{ a.r with aux1 := a.r.aux1 + a.falseHits }, a.found, a.capped, 0⟩

/-- Key kind of a probe: the memory table's own; an Assayer table takes a lone string raw (log entry 18). -/
def probeRaw (r : OpRun) : Bool :=
  if r.o.f 0x22 1 = 1 then r.o.f 0x24 1 == 1 && (keyCols r 1).any (fun c => c.string)
  else (HTab.mk (Col.get (r.param 0x20 false)) 0).kind r == 0

/-- Emit one output row of a join: item `k` of the probe row; items of an earlier call are left out. -/
def joinEmit (r : OpRun) (row k : Nat) (vals : List Nat) : OpRun :=
  if row = r.o.resumeRow ∧ k < r.o.resumeSub then r
  else r.emitRow r.rowsOut row k (r.outs.zip (vals.map Cell.num))

/-- One probe row (R211). -/
def probeRow (r : OpRun) (row : Nat) : OpRun :=
  let o := r.o
  let jk := o.f 0x23 1
  let semi := decide (2 ≤ jk)
  let cs := keyCols r (o.f 0x24 1)
  let r := r.touchRow cs row
  if r.ended then r
  else
    let (r, key) := r.keyOnce cs (probeRaw r) row
    let p : ProbeRes := match key with
      | none => ⟨r, [], false, 0⟩
      | some k => probeKey r semi (if o.unbounded then none else some (if o.f 0x22 1 = 1 then 1 else o.f 0x28 4)) row k
    let r := p.r
    if r.ended then r
    else
      let fan := if o.unbounded ∨ o.f 0x22 1 = 1 then p.found.length else o.bound
      let any := !p.found.isEmpty
      let r := if jk = 2 ∨ jk = 3 then (if any = (jk == 2) then joinEmit r row 0 [row] else r)
        else if p.found = [] then (if jk = 1 then joinEmit r row 0 [row, 0xFFFFFFFF] else r)
        else p.found.zipIdx.foldl (fun r e => if fan ≤ e.2 then (if r.ended then r else r.cut row e.2 e.1) else joinEmit r row e.2 [row, e.1]) r
      if r.ended then r
      else
        let r := if p.capped then r.cut row p.found.length (2 ^ 64 - 1) else r
        { r with aux0 := r.aux0 + b2n any }

/-- What JOIN_PROBE and DICT_LOOKUP check of their table. -/
def probeCodes (r : OpRun) : List (Bool × Nat) :=
  let o := r.o
  let mem := o.f 0x22 1 == 0
  let t : HTab := ⟨Col.get (r.param 0x20 false), 0⟩
  [((keyCols r (o.f 0x24 1)).any (fun c => c.scalar && !Hash.keyType c.type), Code.BAD_KEY_TYPE), (!mem && (probeTab r).isNone, Code.BAD_TABLE),
   (mem && !tableCovers t.d 0 (t.blog2 r) (t.ovfCap r) (t.rowsCap r), Code.TABLE_SHORT), (mem && t.state r != 3, Code.TABLE_NOT_READY)]

/-- JOIN_PROBE (R211 to R213). -/
def probeSpec (r : OpRun) : OpSpec :=
  let o := r.o
  let mem := o.f 0x22 1 == 0
  let jk := o.f 0x23 1
  let chain := o.f 0x28 4
  let nout := if jk < 2 then 2 else 1
  let per := if jk < 2 ∧ mem then o.bound else 1
  { dd := true, used := [(0x20, 6), (0x28, 4)]
    rsv := (if mem then o.f 0x25 1 != 0 else o.f 0x20 2 != 0 || chain != 0)
    badBound := decide (65536 < o.bound) || (mem && (chain == 0 || decide (4096 < chain)))
    badCol := keyBad r (o.f 0x24 1) || (mem && tableBad r false) || (decide (jk < 4) && r.outs.length != nout)
    badType := keyTypeBad r (o.f 0x24 1) || r.outs.any (fun c => !c.scalar || c.type != U32) || (mem && (Col.get (r.param 0x20 false)).etype != U8)
    perRow := fun c => !c.out
    worst := fun _ => (o.rows * per, 0)
    codes := [(decide (3 < jk) || decide (1 < o.f 0x22 1), Code.BAD_JOIN)] ++ probeCodes r
    run := fun r => OpRun.eachRow probeRow r.rowList r }

/-- OPERATOR JOIN_PROBE (R211). -/
def execJoinProbe (core : Nat) (s : State) : Host.Outcome State Fault Refusal := .next (opCall s core 0x06 probeSpec)

/-- One row of DICT_LOOKUP (R214). -/
def dictRow (r : OpRun) (row : Nat) : OpRun :=
  let o := r.o
  let cs := keyCols r (o.f 0x24 1)
  let r := r.touchRow cs row
  if r.ended then r
  else
    let (r, key) := r.keyOnce cs (probeRaw r) row
    let cap := if o.unbounded then none else some (if o.f 0x22 1 = 1 then 1 else min o.bound (o.f 0x2C 4))
    let p : ProbeRes := match key with
      | none => ⟨r, [], false, 0⟩
      | some k => probeKey r true cap row k
    let r := p.r
    if r.ended then r
    else
      let hit := p.found.head?
      let r := match r.outs with
        | v :: h :: _ =>
          let r := if h.vals.sz 0 ≤ row / 8 then { r with stop := some (Code.OUTPUT_FULL, row, 0) } else r
          let q := r.emitRow row row 0 [(v, .num (hit.getD (o.f 0x28 4)))]
          if q.ended then q else q.putBit h.vals row hit.isSome
        | _ => r
      if r.ended then r
      else
        let r := if p.capped ∧ hit = none then r.cut row 0 (2 ^ 64 - 1) else r
        { r with aux0 := r.aux0 + b2n hit.isSome }

/-- DICT_LOOKUP (R214): its second output is the hit bitmap. -/
def dictSpec (r : OpRun) : OpSpec :=
  let o := r.o
  let mem := o.f 0x22 1 == 0
  let chain := o.f 0x2C 4
  let hits := r.outs.getLast?
  { dd := true, used := [(0x20, 3), (0x24, 2), (0x28, 8)]
    rsv := decide (1 < o.f 0x22 1) || (if mem then o.f 0x25 1 != 0 else o.f 0x20 2 != 0 || chain != 0)
    badBound := mem && (decide (4096 < o.bound) || chain == 0 || decide (4096 < chain))
    badCol := keyBad r (o.f 0x24 1) || (mem && tableBad r false) || r.outs.length != 2
    badType := keyTypeBad r (o.f 0x24 1) || r.outs.any (fun c => !c.scalar) || r.outs.zipIdx.any (fun e => e.1.type != (if e.2 = 0 then U32 else U8))
      || (mem && (Col.get (r.param 0x20 false)).etype != U8)
    perRow := fun c => !c.out || hits.all (fun h => h.idx != c.idx)
    worst := fun c => (if hits.any (fun h => h.idx == c.idx) then cdiv o.rows 8 else 0, 0)
    codes := probeCodes r
    run := fun r => OpRun.eachRow dictRow r.rowList r }

/-- OPERATOR DICT_LOOKUP (R214). -/
def execDictLookup (core : Nat) (s : State) : Host.Outcome State Fault Refusal := .next (opCall s core 0x07 dictSpec)

/-- One value into a record (R217, welford). -/
def welford (a : StatRec) (x : Nat) : StatRec :=
  let n := a.n + 1
  let d := d64Sub x a.mean
  let mean := d64Add a.mean (d64Div d (d64Nat n))
  { a with n := n, mean := mean, m2 := d64Add a.m2 (d64Mul d (d64Sub x mean)), mn := (fMinMax FP64 false a.mn x).1, mx := (fMinMax FP64 true a.mx x).1 }

/-- Two records into one (R217, merge). -/
def mergeStat (a b : StatRec) : StatRec :=
  let nans := a.nans + b.nans
  let nulls := a.nulls + b.nulls
  if b.n = 0 then { a with nans := nans, nulls := nulls }
  else if a.n = 0 then { b with nans := nans, nulls := nulls }
  else
    let n := (a.n + b.n) % 2 ^ 64
    let d := d64Sub b.mean a.mean
    { n := n, nans := nans, nulls := nulls
      mean := d64Add a.mean (d64Mul d (d64Div (d64Nat b.n) (d64Nat n)))
      m2 := d64Add (d64Add a.m2 b.m2) (d64Mul (d64Mul d d) (d64Div (d64Mul (d64Nat a.n) (d64Nat b.n)) (d64Nat n)))
      mn := (fMinMax FP64 false a.mn b.mn).1, mx := (fMinMax FP64 true a.mx b.mx).1 }

/-- The fixed pairwise tree of 64 lanes (R217): neighbours are merged at each level. -/
def mergePairs : List StatRec → List StatRec
  | a :: b :: l => mergeStat a b :: mergePairs l
  | l => l

/-- Its six levels. -/
def mergeTree : Nat → List StatRec → StatRec
  | 0, l => l.headD {}
  | k + 1, l => mergeTree k (mergePairs l)

/-- The partial of a column (R217): row r goes to lane r mod 64; none is a null. -/
def statPartial (xs : List (Option Nat)) : StatRec :=
  let lanes := xs.zipIdx.foldl (fun (m : SMap StatRec) e =>
    let k := e.2 % 64
    let a := smGet {} k m
    smPut {} k (match e.1 with
      | none => { a with nulls := a.nulls + 1 }
      | some x => if isNaN (value FP64 x) then { a with nans := a.nans + 1 } else welford a x) m) []
  mergeTree 6 ((List.range 64).map (fun k => smGet {} k lanes))

/-- Write a record with its TAG (Table 7.13). -/
def writeStat (r : OpRun) (t : HTab) (o : Nat) (x : StatRec) (tag : Nat) : OpRun :=
  r.hput t o 64 (leNat ([x.n, x.nans, x.nulls, x.mean, x.m2, x.mn, x.mx].flatMap (leBytes 8) ++ leBytes 4 tag ++ leBytes 4 0))

/-- Places in a stats area (R216): published record and ring slot. -/
def pubAt (nf gen i : Nat) : Nat := 64 + 64 * (nf * (gen % 2) + i)
def ringAt (nf w part i : Nat) : Nat := 64 + 128 * nf + 64 * (part % w * nf + i)

/-- The fold loop (R218): ring slots of the next partitions are merged in order; the partitions folded. -/
def foldParts (t : HTab) (nf w : Nat) : Nat → OpRun → Nat → List StatRec → OpRun × Nat × List StatRec
  | 0, r, p, cur => (r, p, cur)
  | fuel + 1, r, p, cur =>
    if r.hget t (ringAt nf w p 0 + 0x38) 4 ≠ (p + 1) % 2 ^ 32 then (r, p, cur)
    else
      let cur := (List.range nf).map (fun i => mergeStat (cur.getD i {}) (readStat r t.d (ringAt nf w p i)))
      let r := (List.range nf).foldl (fun r i => r.hput t (ringAt nf w p i + 0x38) 4 0) r
      foldParts t nf w fuel r (p + 1) cur

/-- STATS over an area (R216 to R218); it waits while its ring slot is taken or another holds FOLD_LOCK. -/
def statsRun (t : HTab) (r : OpRun) : OpRun :=
  let nf := r.hget t 0x10 4
  let w := r.hget t 4 4
  let next := r.hget t 8 4
  let gen := r.hget t 0x0C 4
  let part := r.o.part
  if next + w ≤ part ∨ r.hget t 0x14 4 ≠ 0 then { r with wait := true }
  else
    let q := OpRun.eachRow (fun r row => r.touchRow r.ins row) r.rowList r
    if q.ended then q
    else
      let (q, recs) := q.ins.foldl (fun (a : OpRun × List (Nat × StatRec)) c =>
        let (r, xs) := a.1.rowList.foldl (fun (b : OpRun × List (Option Nat)) row =>
          match b.1.read c row with
          | (r, .num v) => (r, b.2 ++ [some (convert c.type FP64 0 false v).1])
          | (r, _) => (r, b.2 ++ [none])) (a.1, [])
        (r, a.2 ++ [(c.tag, statPartial xs)])) (q, [])
      let q := recs.foldl (fun q e => writeStat q t (ringAt nf w part e.1) e.2 (part + 1)) q
      let cur := (List.range nf).map (fun i => readStat q t.d (pubAt nf gen i))
      let (q, p, cur) := foldParts t nf w w q next cur
      let q := if p = next then q
        else
          let q := q.hput t 8 4 p
          let q := cur.zipIdx.foldl (fun q e => writeStat q t (pubAt nf (gen + 1) e.2) e.1 0) q
          q.hput t 0x0C 4 ((gen + 1) % 2 ^ 32)
      { q with aux0 := p - next, aux1 := q.hget t 0x0C 4 }

/-- STATS (R216 to R218). -/
def statsSpec (r : OpRun) : OpSpec :=
  let o := r.o
  let t : HTab := ⟨Col.get (r.param 0x20 true), 0⟩
  let nf := r.hget t 0x10 4
  let w := r.hget t 4 4
  let fields := (List.range nf).all (fun i => (r.ins.filter (fun c => c.tag == i)).length == 1) && r.ins.all (fun c => decide (c.tag < nf))
  { used := [(0x20, 2)], tagged := fun _ => true
    badCol := tableBad r true || !r.outs.isEmpty
    badType := t.d.etype != U8 || r.ins.any (fun c => !c.scalar || isMx c.type || c.type == E8M0)
    codes := [(r.hget t 0 4 != 1 || nf == 0 || decide (12 < nf) || w == 0 || decide (4096 < w) || !fields, Code.STATS_RECORD),
      (decide (o.part < r.hget t 8 4), Code.STATS_PART), (decide (t.d.sz 0 < 64 + 128 * nf + 64 * nf * w), Code.TABLE_SHORT)]
    run := fun r =>
      let q := r.touch o.resumeRow [t.span 0 (64 + 128 * nf + 64 * nf * w)]
      if q.ended then q else statsRun t q }

/-- Whether a STATS instance passes its checks and waits for its ring slot or for FOLD_LOCK (R218). -/
def statsWaits (s : State) (n cn : Nat) (o : Opb) : Bool :=
  let r := opRun s n cn o
  let t : HTab := ⟨Col.get (r.param 0x20 true), 0⟩
  (opCheck r (statsSpec r)).isNone && decide (o.rows ≠ o.resumeRow) && !(r.touch 0 [t.span 0 64]).ended
    && (decide (r.hget t 8 4 + r.hget t 4 4 ≤ o.part) || r.hget t 0x14 4 != 0)

/-- OPERATOR STATS (R218): an instance that waits counts one cycle of PEER_WAIT for each time its row is sent. -/
def execOpStats (core : Nat) (s : State) : Host.Outcome State Fault Refusal :=
  match opCalled s core 0x0A with
  | some (cn, o) => .next (if statsWaits s core cn o then peerWait s core 1 else opCall s core 0x0A statsSpec)
  | none => .next (opCall s core 0x0A statsSpec)

/-- The flow position of a core's task: none without a flow (R221). -/
def flowPos (s : State) (n : Nat) : Option Nat := (csr s n 0x018).filter (fun p => p != 2 ^ 64 - 1)

/-- Whether an instance may touch its group or dedup table (R221). -/
def lockOk (r : OpRun) (t : HTab) (init : Bool) : Bool :=
  match flowPos r.s r.n with
  | none => true
  | some p => init || decide (t.lock r = p % 2 ^ 32)

/-- Give the lock (R221). -/
def giveLock (r : OpRun) (t : HTab) : OpRun :=
  match flowPos r.s r.n with
  | none => r
  | some p => r.hput t 0x24 4 ((p + 1) % 2 ^ 32)

/-- An aggregate byte of GROUP_AGG: function and input column (R220). -/
def aggAt (o : Opb) (a : Nat) : Nat × Nat := (o.f (0x28 + a) 1 % 16, o.f (0x28 + a) 1 / 16)

/-- Type of an aggregate's output over an input type (R220). -/
def aggType (f et : Nat) : Nat :=
  if f = 0 then U64 else if f = 4 then FP64 else if f = 1 then (if isInt et then (if isSigned et then I64 else U64) else FP64) else et

/-- The state of an aggregate, 16 bytes after its key entry: a value and a count (log entry 18). -/
def aggState (r : OpRun) (t : HTab) (i a : Nat) : Nat × Nat :=
  let o := t.entryAt r i + 128 + 16 * a
  (r.hget t o 8, r.hget t (o + 8) 8)

/-- One value into an aggregate (R220). -/
def aggStep (f et : Nat) (st : Nat × Nat) (v : Nat) : Nat × Nat :=
  let x := if isInt et then unsignedOf 64 (intOf et v) else (convert et FP64 0 false v).1
  let ext : Bool → Nat := fun mx =>
    if st.2 = 0 then v
    else if isInt et then (if iCompare et (if mx then 4 else 2) v st.1 then v else st.1)
    else (fMinMax et mx st.1 v).1
  let new := match f with
    | 0 => 0
    | 2 => ext false
    | 3 => ext true
    | _ => if isInt et then (st.1 + x) % 2 ^ 64 else if st.2 = 0 then d64Add 0 x else d64Add st.1 x
  (new, st.2 + 1)

/-- Value of an aggregate at flush: null when nothing was counted (R220). -/
def aggValue (f et : Nat) (st : Nat × Nat) : Cell :=
  if f = 0 then .num st.2
  else if st.2 = 0 then .null
  else if f = 4 then
    let sum := if isInt et then toF64 (ofInt (if isSigned et then signed 64 st.1 else st.1)) else st.1
    .num (d64Div sum (d64Nat st.2))
  else .num st.1

/-- The entry index of a key in a group or dedup table, if it is there; the walk is not bounded (R220, R222). -/
def findEntry (r : OpRun) (t : HTab) (k : Option (List Byte)) (row : Nat) : OpRun × Option Nat :=
  let f := Hash.smx64 (k.getD []) (t.seed r)
  let eq : OpRun → Nat → Bool := fun r i => match k with
    | some k => entryEq r t (i - t.rowBase r) k
    | none => decide (r.hget t (t.entryAt r (i - t.rowBase r)) 2 = nullLen)
  let a := findKey r t f eq true none row
  (a.r, a.found.head?.map (fun i => i - t.rowBase a.r))

/-- Open an entry for a new key: none when the table is full (R220, R222). -/
def openEntry (r : OpRun) (t : HTab) (k : Option (List Byte)) : Option (OpRun × Nat) :=
  let i := t.rows r
  let cap := if r.o.unbounded then t.rowsCap r else min r.o.bound (t.rowsCap r)
  if cap ≤ i then none
  else (placeRow r t (Hash.smx64 (k.getD []) (t.seed r)) (t.rowBase r + i)).map (fun q =>
    let q := writeEntry q t i k
    let q := (List.range (t.agg / 16)).foldl (fun q a => q.hput t (t.entryAt q i + 128 + 16 * a) 16 0) q
    (q.hput t 0x10 4 (i + 1), i))

/-- One row of GROUP_AGG (R220). -/
def groupRow (t : HTab) (nkey nagg : Nat) (r : OpRun) (row : Nat) : OpRun :=
  let cs := keyCols r nkey
  let aggs := (List.range nagg).map (aggAt r.o)
  let vals := r.ins.filter (fun c => aggs.any (fun e => e.2 == c.idx))
  let r := r.touchRow (cs ++ vals) row
  if r.ended then r
  else
    let (r, k) := r.keyOnce cs (t.kind r == 0) row
    let (r, e) := findEntry r t k row
    if r.ended then r
    else
      let got : Option (OpRun × Nat) := match e with
        | some i => some (r, i)
        | none => (openEntry r t k).map (fun (q : OpRun × Nat) => ({ q.1 with aux0 := q.1.aux0 + 1 }, q.2))
      match got with
      | none => if r.o.unbounded then { r with stop := some (Code.OUTPUT_FULL, row, 0) } else r.cut row 0 0
      | some (r, i) =>
        let (r, cells) := vals.foldl (fun (a : OpRun × List (Nat × Nat × Cell)) (c : Col) =>
          let keyCol := decide (c.idx < nkey)
          let (q, x) := a.1.read c row
          (if keyCol then a.1 else q, a.2 ++ [(c.idx, c.type, x)])) (r, [])
        aggs.zipIdx.foldl (fun r e =>
          match cells.find? (fun x => x.1 == e.1.2) with
          | some (_, et, x) =>
            let o := t.entryAt r i + 128 + 16 * e.2
            let v := match x with
              | .num v => some v
              | .null | .bad => none
              | _ => some 0
            (match v with
              | some v =>
                let st := aggStep e.1.1 et (aggState r t i e.2) v
                (r.hput t o 8 st.1).hput t (o + 8) 8 st.2
              | none => r)
          | none => r) r

/-- Bytes whose values the table does not keep, of a long key (R66): free values (log entry 18). -/
def freeBytes (r : OpRun) : Nat → OpRun × List Byte
  | 0 => (r, [])
  | k + 1 =>
    let (v, io) := r.s.io.takeFree
    let (q, l) := freeBytes { r with s := { r.s with io := io } } k
    (q, BitVec.ofNat 8 v.toNat :: l)

/-- Key cells of a group from its stored key bytes, column by column; `known` bytes are the key's own and what lies beyond
them is free (R66, R220). -/
def keyCells (raw : Bool) : List Col → List Byte → Bool → OpRun → OpRun × List Cell
  | [], _, _, r => (r, [])
  | c :: l, bs, long, r =>
    let fill : OpRun → Nat → OpRun × List Byte := fun r n => if long ∧ bs.length < n then
        (let (r, f) := freeBytes r (n - bs.length); (r, bs ++ f)) else (r, bs)
    if raw then
      if long then
        (let (v, io) := r.s.io.takeFree
         let (r, b) := fill { r with s := { r.s with io := io } } (65 + v.toNat % 65471)
         (r, [.str b]))
      else (r, [.str bs])
    else if c.string then
      let (r, b) := fill r 2
      let n := fieldAt b 0 2
      let (r, b) := if long ∧ b.length < 2 + n then (let (q, f) := freeBytes r (2 + n - b.length); (q, b ++ f)) else (r, b)
      let (q, rest) := keyCells raw l (b.drop (2 + n)) long r
      (q, .str ((b.drop 2).take n) :: rest)
    else
      let w := width c.type / 8
      let (r, b) := fill r w
      let (q, rest) := keyCells raw l (b.drop w) long r
      (q, .num (leNat (b.take w)) :: rest)

/-- One group is written out (R220). -/
def flushGroup (t : HTab) (nkey nagg : Nat) (r : OpRun) (i : Nat) : OpRun :=
  if r.ended then r
  else
    let e := t.entryAt r i
    let len := r.hget t e 2
    let long := decide (r.hget t (e + 2) 1 = 1)
    let bs := r.heapBytes t.d (e + 8) (if long then 56 else len)
    let cs := keyCols r nkey
    let (r, ks) := if len = nullLen then (r, cs.map (fun _ => Cell.null)) else keyCells (t.kind r == 0) cs bs long r
    let vs := (List.range nagg).map (fun a =>
      let (f, c) := aggAt r.o a
      aggValue f (((r.col c).map Col.type).getD 0) (aggState r t i a))
    r.emitRow r.rowsOut r.o.rows r.rowsOut (r.outs.zip (ks ++ vs))

/-- GROUP_AGG once it holds the lock (R220, R221). -/
def groupRun (t : HTab) (init : Bool) (nkey nagg : Nat) (r : OpRun) : OpRun :=
  let r := r.touch r.o.resumeRow [t.span 0 128]
  if r.ended then r
  else if !lockOk r t init then { r with wait := true }
  else
    let cap := if r.o.unbounded then t.rowsCap r else r.o.bound
    let r := if init then (initTable r t none cap 0 (((flowPos r.s r.n).getD 0) % 2 ^ 32)).hput t 1 1 1 else r
    let q := OpRun.eachRow (groupRow t nkey nagg) r.rowList r
    let q := if r.o.f 0x30 1 = 1 ∧ !q.ended then (List.range (t.rows q)).foldl (flushGroup t nkey nagg) q else q
    if q.wait then q else giveLock q t

/-- GROUP_AGG (R220, R221). -/
def groupSpec (r : OpRun) : OpSpec :=
  let o := r.o
  let init := o.f 0x22 1 == 1
  let nkey := o.f 0x23 1
  let nagg := o.f 0x24 1
  let flush := o.f 0x30 1 == 1
  let t := tableOf r (16 * nagg)
  let aggs := (List.range (min nagg 8)).map (aggAt o)
  let cols := aggs.map (fun e => (e.1, (r.col e.2).filter (fun c => !c.out)))
  let cap := if init ∧ !o.unbounded then o.bound else t.rowsCap r
  let keys := keyCols r nkey
  let wantKey := keys.map (fun c => (c.kind, c.type))
  let want := wantKey ++ cols.map (fun e => (0, aggType e.1 ((e.2.map Col.type).getD 0)))
  { dd := true, used := [(0x20, 5), (0x28, 9)]
    rsv := decide (1 < o.f 0x22 1) || decide (1 < o.f 0x30 1) || (List.range 8).any (fun a => decide (nagg ≤ a) && o.f (0x28 + a) 1 != 0)
    badCol := keyBad r nkey || tableBad r true || cols.any (fun e => e.2.isNone) || nagg == 0 || decide (8 < nagg) || (flush && r.outs.length != nkey + nagg)
    badType := keyTypeBad r nkey || t.d.etype != U8 || cols.any (fun e => e.1 != 0 && e.2.any (fun c => !c.scalar || isMx c.type || c.type == E8M0))
      || (flush && (r.outs.zip want).any (fun e => e.1.kind != e.2.1 || e.1.type != e.2.2))
    perRow := fun c => !c.out
    worst := fun c => if flush then (o.bound, if c.string then o.bound * c.cap else 0) else (0, 0)
    codes := [(aggs.any (fun e => decide (4 < e.1)), Code.BAD_AGG), (keyKindBad r nkey (t.kind r), Code.BAD_KEY_TYPE),
      (!tableCovers t.d (16 * nagg) (t.blog2 r) (t.ovfCap r) cap, Code.TABLE_SHORT)]
    run := groupRun t init nkey nagg }

/-- One row of DEDUP (R222). -/
def dedupRow (t : HTab) (nkey : Nat) (r : OpRun) (row : Nat) : OpRun :=
  let cs := keyCols r nkey
  let keep : OpRun → OpRun := fun r => r.emitRow r.rowsOut row 0 (r.outs.map (fun c => (c, .num row)))
  let r := r.touchRow cs row
  if r.ended then r
  else
    let (r, k) := r.keyOnce cs (t.kind r == 0) row
    let (r, e) := findEntry r t k row
    if r.ended then r
    else match e with
      | some _ => { r with aux0 := r.aux0 + 1 }
      | none =>
        if !r.fits r.rowsOut (r.outs.map (fun c => (c, .num row))) then { r with stop := some (Code.OUTPUT_FULL, row, 0) }
        else match openEntry r t k with
          | some (q, _) => keep q
          | none => if r.o.unbounded then { r with stop := some (Code.OUTPUT_FULL, row, 0) } else (keep r).cut row 0 0

/-- DEDUP once it holds the lock (R222). -/
def dedupRun (t : HTab) (init : Bool) (nkey : Nat) (r : OpRun) : OpRun :=
  let r := r.touch r.o.resumeRow [t.span 0 128]
  if r.ended then r
  else if !lockOk r t init then { r with wait := true }
  else
    let cap := if r.o.unbounded then t.rowsCap r else r.o.bound
    let r := if init then (initTable r t none cap 0 (((flowPos r.s r.n).getD 0) % 2 ^ 32)).hput t 1 1 1 else r
    let q := OpRun.eachRow (dedupRow t nkey) r.rowList r
    if q.wait then q else giveLock q t

/-- DEDUP (R222). -/
def dedupSpec (r : OpRun) : OpSpec :=
  let o := r.o
  let init := o.f 0x22 1 == 1 || o.f 0x24 1 == 0
  let nkey := o.f 0x23 1
  let t := tableOf r 0
  let cap := if init ∧ !o.unbounded then o.bound else t.rowsCap r
  { dd := true, used := [(0x20, 5)]
    rsv := decide (1 < o.f 0x22 1) || decide (1 < o.f 0x24 1)
    badCol := keyBad r nkey || tableBad r true || r.outs.length != 1
    badType := keyTypeBad r nkey || t.d.etype != U8 || r.outs.any (fun c => !c.scalar || c.type != U32)
    perRow := fun c => !c.out
    worst := fun _ => (o.rows, 0)
    codes := [(keyKindBad r nkey (t.kind r), Code.BAD_KEY_TYPE), (!tableCovers t.d 0 (t.blog2 r) (t.ovfCap r) cap, Code.TABLE_SHORT)]
    run := dedupRun t init nkey }

/-- Whether a block's instance passes its checks and waits only for its FOLD_LOCK (R221). -/
def waitsForLock (s : State) (n cn : Nat) (o : Opb) (f : OpRun → OpSpec) : Bool :=
  let r := opRun s n cn o
  let t := tableOf r 0
  let init := o.f 0x22 1 == 1 || (o.op == 0x0C && o.f 0x24 1 == 0)
  (opCheck r (f r)).isNone && decide (o.rows ≠ o.resumeRow) && !(r.touch 0 [t.span 0 128]).ended && !lockOk r t init

/-- A call of GROUP_AGG or DEDUP: an instance whose turn has not come waits with its block (R185, R221). -/
def lockCall (s : State) (n op : Nat) (f : OpRun → OpSpec) : State :=
  match opCalled s n op with
  | some (cn, o) =>
    let c := s.core n
    if waitsForLock s n cn o f then s.setCore n { c with opWait := c.task.map (fun t => ⟨t.id, o.bs⟩) } else opCall s n op f
  | none => opCall s n op f

/-- OPERATOR GROUP_AGG (R220). -/
def execGroupAgg (core : Nat) (s : State) : Host.Outcome State Fault Refusal := .next (lockCall s core 0x0B groupSpec)

/-- OPERATOR DEDUP (R222). -/
def execOpDedup (core : Nat) (s : State) : Host.Outcome State Fault Refusal := .next (lockCall s core 0x0C dedupSpec)

/-- FOLD_LOCK_POLL: a waiting instance has waited 1,024 cycles and reads the header again; it proceeds when the lock names
its position (R221). -/
def execFoldLockPoll (core : Nat) (s : State) : Host.Outcome State Fault Refusal :=
  let c := s.core core
  match c.opWait, c.task with
  | some w, some t =>
    if w.task ≠ t.id ∨ c.run ≠ .running then .next s
    else
      let o : Opb := ⟨w.blk⟩
      let f : OpRun → OpSpec := if o.op = 0x0B then groupSpec else dedupSpec
      let s := peerWait s core 1024
      if waitsForLock s core t.ctx o f then .next s
      else .next ((opTry (s.setCore core { s.core core with opWait := none }) core t.ctx o f).getD s)
  | _, _ => .next s

end Sys2Proof.Machine
end

