-- ==== Sys2Proof/Machine/Dispatch.lean ====
section
/-! DEFINITION. Dispatch: one arm per command, each one call of its meaning. -/

namespace Sys2Proof.Machine

/-- The effect of a command on everything but the queue. -/
def exec (i : Instr) (s : State) : Host.Outcome State Fault Refusal :=
  match i with
  | .registerWrite who off size value => Sys2Proof.Machine.execRegisterWrite who off size value s
  | .rcFieldRead who off size => Sys2Proof.Machine.execRcFieldRead who off size s
  | .pairLoRead who off => Sys2Proof.Machine.execPairLoRead who off s
  | .pairHiRead who off => Sys2Proof.Machine.execPairHiRead who off s
  | .pairLoWrite who off value => Sys2Proof.Machine.execPairLoWrite who off value s
  | .pairHiWrite who off value => Sys2Proof.Machine.execPairHiWrite who off value s
  | .blkCtrlReset who b value => Sys2Proof.Machine.execBlkCtrlReset who b value s
  | .enableWrite who b on => Sys2Proof.Machine.execEnableWrite who b on s
  | .evtMaskWrite who b value => Sys2Proof.Machine.execEvtMaskWrite who b value s
  | .evtForce who b value => Sys2Proof.Machine.execEvtForce who b value s
  | .errCaptClear who b err => Sys2Proof.Machine.execErrCaptClear who b err s
  | .ctrClear who b => Sys2Proof.Machine.execCtrClear who b s
  | .apertureAccess off len data ep => Sys2Proof.Machine.execApertureAccess off len data ep s
  | .ringAreaAccess off len data => Sys2Proof.Machine.execRingAreaAccess off len data s
  | .drvVerWrite who value => Sys2Proof.Machine.execDrvVerWrite who value s
  | .negotiation => Sys2Proof.Machine.execNegotiation s
  | .regionReg c => Sys2Proof.Machine.execRegionReg c s
  | .regionUnreg c => Sys2Proof.Machine.execRegionUnreg c s
  | .descCreate c => Sys2Proof.Machine.execDescCreate c s
  | .descDestroy c => Sys2Proof.Machine.execDescDestroy c s
  | .streamOpen core => Sys2Proof.Machine.execStreamOpen core s
  | .streamAdvance core => Sys2Proof.Machine.execStreamAdvance core s
  | .streamClose core => Sys2Proof.Machine.execStreamClose core s
  | .streamRead core => Sys2Proof.Machine.execStreamRead core s
  | .lineRequestGrant arb => Sys2Proof.Machine.execLineRequestGrant arb s
  | .lineReturn r => Sys2Proof.Machine.execLineReturn r s
  | .streamHalt core st => Sys2Proof.Machine.execStreamHalt core st s
  | .writeAck core st => Sys2Proof.Machine.execWriteAck core st s
  | .ringStep die set => Sys2Proof.Machine.execRingStep die set s
  | .cancelFenceDone core => Sys2Proof.Machine.execCancelFenceDone core s
  | .pedlarSend core => Sys2Proof.Machine.execPedlarSend core s
  | .pedlarIssue core => Sys2Proof.Machine.execPedlarIssue core s
  | .pedlarComplete core serial => Sys2Proof.Machine.execPedlarComplete core serial s
  | .scalarAlu core => Sys2Proof.Machine.execScalarAlu core s
  | .scalarImmediate core => Sys2Proof.Machine.execScalarImmediate core s
  | .jal core => Sys2Proof.Machine.execJal core s
  | .jr core => Sys2Proof.Machine.execJr core s
  | .conditionalBranch core => Sys2Proof.Machine.execConditionalBranch core s
  | .scalarLoad core => Sys2Proof.Machine.execScalarLoad core s
  | .scalarStore core => Sys2Proof.Machine.execScalarStore core s
  | .csrRd core => Sys2Proof.Machine.execCsrRd core s
  | .csrWr core => Sys2Proof.Machine.execCsrWr core s
  | .csrSet core => Sys2Proof.Machine.execCsrSet core s
  | .csrClr core => Sys2Proof.Machine.execCsrClr core s
  | .vectorArithmetic core => Sys2Proof.Machine.execVectorArithmetic core s
  | .cvt core => Sys2Proof.Machine.execCvt core s
  | .redsum core => Sys2Proof.Machine.execRedsum core s
  | .vectorCompare core => Sys2Proof.Machine.execVectorCompare core s
  | .vld core => Sys2Proof.Machine.execVld core s
  | .vlds core => Sys2Proof.Machine.execVlds core s
  | .vldg core => Sys2Proof.Machine.execVldg core s
  | .vst core => Sys2Proof.Machine.execVst core s
  | .vsts core => Sys2Proof.Machine.execVsts core s
  | .vstg core => Sys2Proof.Machine.execVstg core s
  | .vtHash core => Sys2Proof.Machine.execVtHash core s
  | .vtBucket core => Sys2Proof.Machine.execVtBucket core s
  | .vtLookup core => Sys2Proof.Machine.execVtLookup core s
  | .vtAssay core => Sys2Proof.Machine.execVtAssay core s
  | .vtAssayLm core => Sys2Proof.Machine.execVtAssayLm core s
  | .assayLookup unit ups => Sys2Proof.Machine.execAssayLookup unit ups s
  | .assayLmSearch unit ups => Sys2Proof.Machine.execAssayLmSearch unit ups s
  | .selTopk core => Sys2Proof.Machine.execSelTopk core s
  | .selMerge core => Sys2Proof.Machine.execSelMerge core s
  | .mxMma core => Sys2Proof.Machine.execMxMma core s
  | .mmaExecute core => Sys2Proof.Machine.execMmaExecute core s
  | .mxZero core => Sys2Proof.Machine.execMxZero core s
  | .mxLoadacc core => Sys2Proof.Machine.execMxLoadacc core s
  | .mxStoreacc core => Sys2Proof.Machine.execMxStoreacc core s
  | .taskWait core => Sys2Proof.Machine.execTaskWait core s
  | .taskWaitTimeout core => Sys2Proof.Machine.execTaskWaitTimeout core s
  | .taskEmit core => Sys2Proof.Machine.execTaskEmit core s
  | .taskDone core => Sys2Proof.Machine.execTaskDone core s
  | .nop core => Sys2Proof.Machine.execNop core s
  | .fenceTable core => Sys2Proof.Machine.execFenceTable core s
  | .fenceWrite core => Sys2Proof.Machine.execFenceWrite core s
  | .fenceAll core => Sys2Proof.Machine.execFenceAll core s
  | .evtRaise core => Sys2Proof.Machine.execEvtRaise core s
  | .evtCount core => Sys2Proof.Machine.execEvtCount core s
  | .taskOverrun core => Sys2Proof.Machine.execTaskOverrun core s
  | .opScan core => Sys2Proof.Machine.execOpScan core s
  | .opFilter core => Sys2Proof.Machine.execOpFilter core s
  | .opProject core => Sys2Proof.Machine.execOpProject core s
  | .opHash core => Sys2Proof.Machine.execOpHash core s
  | .joinBuild core => Sys2Proof.Machine.execJoinBuild core s
  | .joinProbe core => Sys2Proof.Machine.execJoinProbe core s
  | .dictLookup core => Sys2Proof.Machine.execDictLookup core s
  | .bucketize core => Sys2Proof.Machine.execBucketize core s
  | .normalize core => Sys2Proof.Machine.execNormalize core s
  | .opStats core => Sys2Proof.Machine.execOpStats core s
  | .groupAgg core => Sys2Proof.Machine.execGroupAgg core s
  | .opDedup core => Sys2Proof.Machine.execOpDedup core s
  | .tokenize core => Sys2Proof.Machine.execTokenize core s
  | .foldLockPoll core => Sys2Proof.Machine.execFoldLockPoll core s
  | .assayLoad c => Sys2Proof.Machine.execAssayLoad c s
  | .scrubRow unit ups => Sys2Proof.Machine.execScrubRow unit ups s
  | .fpSeedWrite who unit slot value => Sys2Proof.Machine.execFpSeedWrite who unit slot value s
  | .egpRun c => Sys2Proof.Machine.execEgpRun c s
  | .gather unit => Sys2Proof.Machine.execGather unit s
  | .poolSum unit => Sys2Proof.Machine.execPoolSum unit s
  | .poolMean unit => Sys2Proof.Machine.execPoolMean unit s
  | .weightedSum unit => Sys2Proof.Machine.execWeightedSum unit s
  | .egpUpdate unit => Sys2Proof.Machine.execEgpUpdate unit s
  | .heatEpoch => Sys2Proof.Machine.execHeatEpoch s
  | .stepFence c => Sys2Proof.Machine.execStepFence c s
  | .fenceApply table => Sys2Proof.Machine.execFenceApply table s
  | .fenceRefresh table => Sys2Proof.Machine.execFenceRefresh table s
  | .fenceOpen table => Sys2Proof.Machine.execFenceOpen table s
  | .winnowRun c => Sys2Proof.Machine.execWinnowRun c s
  | .topk unit => Sys2Proof.Machine.execTopk unit s
  | .listmerge unit => Sys2Proof.Machine.execListmerge unit s
  | .mergePartial die group => Sys2Proof.Machine.execMergePartial die group s
  | .expertBatchExpiry die serial => Sys2Proof.Machine.execExpertBatchExpiry die serial s
  | .roundWaitExpiry die set => Sys2Proof.Machine.execRoundWaitExpiry die set s
  | .weave c => Sys2Proof.Machine.execWeave c s
  | .weaveCopyStart unit => Sys2Proof.Machine.execWeaveCopyStart unit s
  | .weaveCopyDone unit serial => Sys2Proof.Machine.execWeaveCopyDone unit serial s
  | .tokenAccept t => Sys2Proof.Machine.execTokenAccept t s
  | .heldTokenAccepted die => Sys2Proof.Machine.execHeldTokenAccepted die s
  | .operandTimeout die tmpl key idx => Sys2Proof.Machine.execOperandTimeout die tmpl key idx s
  | .dispatch die => Sys2Proof.Machine.execDispatch die s
  | .flowRelease die flow => Sys2Proof.Machine.execFlowRelease die flow s
  | .fusedRun c => Sys2Proof.Machine.execFusedRun c s
  | .tokenPut c => Sys2Proof.Machine.execTokenPut c s
  | .cancelCmd c => Sys2Proof.Machine.execCancelCmd c s
  | .cmdNop c => Sys2Proof.Machine.execCmdNop c s
  | .fencedCommandStart ring pos => Sys2Proof.Machine.execFencedCommandStart ring pos s
  | .submissionEntryRead ring how => Sys2Proof.Machine.execSubmissionEntryRead ring how s
  | .tickCfgWrite who die value => Sys2Proof.Machine.execTickCfgWrite who die value s
  | .svcAdmit c secs ticks => Sys2Proof.Machine.execSvcAdmit c secs ticks s
  | .svcQuery c secs ticks => Sys2Proof.Machine.execSvcQuery c secs ticks s
  | .svcRemove c => Sys2Proof.Machine.execSvcRemove c s
  | .ctxCreate c => Sys2Proof.Machine.execCtxCreate c s
  | .ctxDestroy c => Sys2Proof.Machine.execCtxDestroy c s
  | .ctxWake c => Sys2Proof.Machine.execCtxWake c s
  | .ctxWinSlot => Sys2Proof.Machine.execCtxWinSlot s
  | .deadlineMiss die id => Sys2Proof.Machine.execDeadlineMiss die id s
  | .admCeilWrite who value => Sys2Proof.Machine.execAdmCeilWrite who value s
  | .powerLimitWrite who value => Sys2Proof.Machine.execPowerLimitWrite who value s
  | .memoryRead b addr errs checkPoisoned => Sys2Proof.Machine.execMemoryRead b addr errs checkPoisoned s
  | .memoryWrite addr data poison => Sys2Proof.Machine.execMemoryWrite addr data poison s
  | .memScrub b errs => Sys2Proof.Machine.execMemScrub b errs s
  | .migrEpoch => Sys2Proof.Machine.execMigrEpoch s
  | .promote who => Sys2Proof.Machine.execPromote who s
  | .demote who => Sys2Proof.Machine.execDemote who s
  | .poolWrite who value => Sys2Proof.Machine.execPoolWrite who value s
  | .moveMark page => Sys2Proof.Machine.execMoveMark page s
  | .moveCopy page => Sys2Proof.Machine.execMoveCopy page s
  | .moveRelease page => Sys2Proof.Machine.execMoveRelease page s
  | .atsInvalidation die page => Sys2Proof.Machine.execAtsInvalidation die page s
  | .atsInvalidationDone die page => Sys2Proof.Machine.execAtsInvalidationDone die page s
  | .busMasterEnable on => Sys2Proof.Machine.execBusMasterEnable on s
  | .functionLevelReset => Sys2Proof.Machine.execFunctionLevelReset s
  | .cplTimeout what => Sys2Proof.Machine.execCplTimeout what s
  | .prgResponse page resp => Sys2Proof.Machine.execPrgResponse page resp s
  | .ctrlRingWrite who off value => Sys2Proof.Machine.execCtrlRingWrite who off value s
  | .ringSet c => Sys2Proof.Machine.execRingSet c s
  | .sqDb slot value => Sys2Proof.Machine.execSqDb slot value s
  | .cqDb slot value => Sys2Proof.Machine.execCqDb slot value s
  | .cqArm slot value => Sys2Proof.Machine.execCqArm slot value s
  | .modTimeExpiry ring => Sys2Proof.Machine.execModTimeExpiry ring s
  | .sessBind c => Sys2Proof.Machine.execSessBind c s
  | .sessUnbind c => Sys2Proof.Machine.execSessUnbind c s
  | .sendMessage sess data => Sys2Proof.Machine.execSendMessage sess data s
  | .ecnCeReceived sess => Sys2Proof.Machine.execEcnCeReceived sess s
  | .cnpReceived sess => Sys2Proof.Machine.execCnpReceived sess s
  | .rateIncrease sess => Sys2Proof.Machine.execRateIncrease sess s
  | .ethLinkChange port up => Sys2Proof.Machine.execEthLinkChange port up s
  | .ptpMessage sec ns locked ppb => Sys2Proof.Machine.execPtpMessage sec ns locked ppb s
  | .snap who => Sys2Proof.Machine.execSnap who s
  | .cxlLinkDown port => Sys2Proof.Machine.execCxlLinkDown port s
  | .cxlHotAdd port raw speed width type3 => Sys2Proof.Machine.execCxlHotAdd port raw speed width type3 s
  | .d3hotEntry => Sys2Proof.Machine.execD3hotEntry s
  | .d0Return => Sys2Proof.Machine.execD0Return s
  | .flitReceive link flit corrected uncorrectable => Sys2Proof.Machine.execFlitReceive link flit corrected uncorrectable s
  | .replayTimeout link => Sys2Proof.Machine.execReplayTimeout link s
  | .linkTraining link hello => Sys2Proof.Machine.execLinkTraining link hello s
  | .trainingTimeout link => Sys2Proof.Machine.execTrainingTimeout link s
  | .retrainRetry link => Sys2Proof.Machine.execRetrainRetry link s
  | .linkSilent link => Sys2Proof.Machine.execLinkSilent link s
  | .linkSignalLoss link => Sys2Proof.Machine.execLinkSignalLoss link s
  | .linkState link uid flags addr req links => Sys2Proof.Machine.execLinkState link uid flags addr req links s
  | .addrAssign link uid addr => Sys2Proof.Machine.execAddrAssign link uid addr s
  | .addrHoldExpiry uid => Sys2Proof.Machine.execAddrHoldExpiry uid s
  | .timeExchange link => Sys2Proof.Machine.execTimeExchange link s
  | .timePacket link t1 t2 t3 t4 parentFt => Sys2Proof.Machine.execTimePacket link t1 t2 t3 t4 parentFt s
  | .ftSnap who => Sys2Proof.Machine.execFtSnap who s
  | .routeEntWrite who value => Sys2Proof.Machine.execRouteEntWrite who value s
  | .pedlarWr p => Sys2Proof.Machine.execPedlarWr p s
  | .egpUpd p => Sys2Proof.Machine.execEgpUpd p s
  | .egpRes p => Sys2Proof.Machine.execEgpRes p s
  | .stepMark p => Sys2Proof.Machine.execStepMark p s
  | .collCtrl p => Sys2Proof.Machine.execCollCtrl p s
  | .collData p => Sys2Proof.Machine.execCollData p s
  | .collComplete group inst => Sys2Proof.Machine.execCollComplete group inst s
  | .inboxMsg p => Sys2Proof.Machine.execInboxMsg p s
  | .inboxCredit p => Sys2Proof.Machine.execInboxCredit p s
  | .e2eAck p => Sys2Proof.Machine.execE2eAck p s
  | .e2eTimeout dst flow => Sys2Proof.Machine.execE2eTimeout dst flow s
  | .unreachableTimeout dst => Sys2Proof.Machine.execUnreachableTimeout dst s
  | .pairForget src flow => Sys2Proof.Machine.execPairForget src flow s
  | .groupSet c => Sys2Proof.Machine.execGroupSet c s
  | .groupClear c => Sys2Proof.Machine.execGroupClear c s
  | .collRun c => Sys2Proof.Machine.execCollRun c s
  | .collTimeout group inst => Sys2Proof.Machine.execCollTimeout group inst s
  | .inboxBind c => Sys2Proof.Machine.execInboxBind c s
  | .inboxUnbind c => Sys2Proof.Machine.execInboxUnbind c s
  | .sessFwd c => Sys2Proof.Machine.execSessFwd c s
  | .mbxDoorbell who value => Sys2Proof.Machine.execMbxDoorbell who value s
  | .getInfo src => Sys2Proof.Machine.execGetInfo src s
  | .logRead src => Sys2Proof.Machine.execLogRead src s
  | .threshSet src => Sys2Proof.Machine.execThreshSet src s
  | .wipePolicy src => Sys2Proof.Machine.execWipePolicy src s
  | .calRead src => Sys2Proof.Machine.execCalRead src s
  | .calWrite src ok => Sys2Proof.Machine.execCalWrite src ok s
  | .fwActivate src => Sys2Proof.Machine.execFwActivate src s
  | .fwRaiseFloor src burns => Sys2Proof.Machine.execFwRaiseFloor src burns s
  | .lcChallenge src nonce => Sys2Proof.Machine.execLcChallenge src nonce s
  | .nonceExpiry => Sys2Proof.Machine.execNonceExpiry s
  | .lcTransition src burned => Sys2Proof.Machine.execLcTransition src burned s
  | .powerLimitSet src => Sys2Proof.Machine.execPowerLimitSet src s
  | .mctpControl transport msg => Sys2Proof.Machine.execMctpControl transport msg s
  | .pldmSensorRead transport msg => Sys2Proof.Machine.execPldmSensorRead transport msg s
  | .requestFirmwareData transport start off data => Sys2Proof.Machine.execRequestFirmwareData transport start off data s
  | .verifyComplete transport => Sys2Proof.Machine.execVerifyComplete transport s
  | .activateFirmware transport => Sys2Proof.Machine.execActivateFirmware transport s
  | .spdmRequest transport msg rnd => Sys2Proof.Machine.execSpdmRequest transport msg rnd s
  | .sensorSample therm volt => Sys2Proof.Machine.execSensorSample therm volt s
  | .thermalDutyUpdate => Sys2Proof.Machine.execThermalDutyUpdate s
  | .powerDutyUpdate p vin iin => Sys2Proof.Machine.execPowerDutyUpdate p vin iin s
  | .overcurrent => Sys2Proof.Machine.execOvercurrent s
  | .logFlushTimeout => Sys2Proof.Machine.execLogFlushTimeout s
  | .logPageWritten => Sys2Proof.Machine.execLogPageWritten s
  | .bootWatchdog => Sys2Proof.Machine.execBootWatchdog s
  | .tapInstruction code op => Sys2Proof.Machine.execTapInstruction code op s
  | .deviceWarm who => Sys2Proof.Machine.execDeviceWarm who s
  | .deviceCold who => Sys2Proof.Machine.execDeviceCold who s
  | .dieReset who target => Sys2Proof.Machine.execDieReset who target s
  | .clusterReset who target => Sys2Proof.Machine.execClusterReset who target s
  | .coreReset who target => Sys2Proof.Machine.execCoreReset who target s
  | .resetPhaseComplete micros trained cxl fails wipes => Sys2Proof.Machine.execResetPhaseComplete micros trained cxl fails wipes s
  | .unitResetComplete scope fail => Sys2Proof.Machine.execUnitResetComplete scope fail s
  | .cxlTrainTimeout port => Sys2Proof.Machine.execCxlTrainTimeout port s
  | .vauxRise => Sys2Proof.Machine.execVauxRise s
  | .vauxLoss => Sys2Proof.Machine.execVauxLoss s
  | .vinLoss mv => Sys2Proof.Machine.execVinLoss mv s
  | .vinOv mv => Sys2Proof.Machine.execVinOv mv s
  | .vinReturn => Sys2Proof.Machine.execVinReturn s
  | .refclkLoss => Sys2Proof.Machine.execRefclkLoss s
  | .refclkReturn => Sys2Proof.Machine.execRefclkReturn s
  | .coldRstN low => Sys2Proof.Machine.execColdRstN low s
  | .perstN low => Sys2Proof.Machine.execPerstN low s
  | .pcieHotReset => Sys2Proof.Machine.execPcieHotReset s
  | .eventRecordIntake => Sys2Proof.Machine.execEventRecordIntake s
  | .eventBatchTimeout q => Sys2Proof.Machine.execEventBatchTimeout q s
  | .armWrite who q value => Sys2Proof.Machine.execArmWrite who q value s
  | .queueCfgWrite who q value => Sys2Proof.Machine.execQueueCfgWrite who q value s
  | .hwError b code loc => Sys2Proof.Machine.execHwError b code loc s
  | .onlineWrite who value => Sys2Proof.Machine.execOnlineWrite who value s
  | .vinRise => Sys2Proof.Machine.execVinRise s
  | .msixVectorUnmask off value => Sys2Proof.Machine.execMsixVectorUnmask off value s
  | .atsPriEnable ats pri => Sys2Proof.Machine.execAtsPriEnable ats pri s
  | .resizableBar log2 => Sys2Proof.Machine.execResizableBar log2 s
  | .illegalInstr core => Sys2Proof.Machine.execIllegalInstr core s
  | .roceAck sess psn kind => Sys2Proof.Machine.execRoceAck sess psn kind s
  | .localAckTimeout sess => Sys2Proof.Machine.execLocalAckTimeout sess s
  | .nonRoceFrame port => Sys2Proof.Machine.execNonRoceFrame port s
  | .helloTransmit link => Sys2Proof.Machine.execHelloTransmit link s

end Sys2Proof.Machine
end

