-- ==== Sys2Proof/Machine/Tick.lean ====
section
/-! DEFINITION. The passing of one tick of 10 ns, which an empty queue lets happen (R7, R350, R439, R457, R503; log entry
1). -/

namespace Sys2Proof.Machine

/-- BUSY_TICKS of a core that runs a task (Table 13.16). -/
def busyTick (s : State) (n : Nat) : State :=
  if (s.core n).task.isSome then
    s.mapIo (fun io => io.count (bCaller (dieOfCore n)) (Off.caller_BUSY_TICKS + 0x20 * (n % 48)) 1)
  else s

/-- A boundary of the Caller tick: every delay-list entry has one tick less to go, and a TICK_CFG value that was written
takes effect (R350). -/
def callerBoundary (s : State) (d : Nat) : State :=
  let c := s.caller d
  let less : Timer → Timer := fun t => { t with left := t.left - 1 }
  let io := match c.tickNext with
    | some v => s.io.setBf (bCaller d) Off.caller_TICK_CFG 19 0 v
    | none => s.io
  { s with io := io }.setCaller d { c with tickPos := 0, tickNext := none, timers := c.timers.map less }

/-- A Caller's part of a tick (R350). -/
def callerTick (s : State) (d : Nat) : State :=
  let c := s.caller d
  if s.io.bf (bCaller d) Off.caller_TICK_CFG 19 0 ≤ c.tickPos + 1 then callerBoundary s d
  else s.setCaller d { c with tickPos := c.tickPos + 1 }

/-- One tick: the time base that VAUX keeps advances, and with the rails up the PTP clock, fabric time, the Callers' delay
lists and the running cores' counters. -/
def tick (s : State) : State :=
  if !s.rst.vaux then s
  else
    let s := s.mapIo (fun io => { io with tb := io.tb + 1 })
    if !railsUp s then s
    else (smKeys s.cores).foldl busyTick ((List.range 2).foldl callerTick (ftTick (ptpTick s)))

end Sys2Proof.Machine
end

