-- ==== Sys2Proof/Safety.lean ====
section
/-! DEFINITION. The words in which claims speak of a run: what a step may change, and what may not change any more. -/

namespace Sys2Proof.Machine

/-- A block that the device has (Table 2.2). -/
def Block.valid (b : Block) : Bool := decide (b.inst < instances b.kind)

/-- The block whose pages hold a BAR0 offset, if one does (R33). -/
def blockAt (off : Nat) : Option Block := (pageAt off).map Prod.fst

/-- Between two register sides only registers of the blocks listed differ. -/
def Io.OnlyRegs (bs : List Block) (a b : Io) : Prop :=
  b = { a with regs := b.regs } ∧ ∀ off, (∀ k ∈ bs, blockAt off ≠ some k) → b.reg off = a.reg off

/-- Between two register sides only registers of the blocks listed and event delivery differ: the intake, the records held
at their sources, and EVTQ's count of losses (R529). -/
def Io.OnlyEvents (bs : List Block) (a b : Io) : Prop :=
  b = { a with regs := b.regs, occ := b.occ, intake := b.intake, held := b.held, srcLoss := b.srcLoss } ∧
  ∀ off, (∀ k ∈ bEvtq :: bs, blockAt off ≠ some k) → b.reg off = a.reg off

/-- Core `n` stands ready to issue the instruction `i`: it executes, `i` is the word at PC in the range in force, no emit
of it is blocked, nothing that `i` needs is awaited, and no poisoned read waits to be recorded (R146, R148). -/
def Issues (s : State) (n : Nat) (i : Ins) : Prop :=
  n < 96 ∧ (s.core n).runs = true ∧ (s.core n).fetch = some i ∧ (s.core n).emitDst = none ∧
  i.awaits (s.core n) = false ∧ (s.core n).poisonAt = none

/-- From `s` to `t` core `n` becomes `c`, counters of its FCORE and CARTER pages may change, and nothing else does. -/
def CoreOnly (s t : State) (n : Nat) (c : CoreSt) : Prop :=
  t.core n = c ∧ (∀ m, m ≠ n → t.core m = s.core m) ∧ Io.OnlyRegs [bCarter n, bCore n] s.io t.io ∧
  t = { s with io := t.io, cores := t.cores }

/-- Supplies, pins, power state and resets agree with each other (R503, R507, R508, R510, R513, R514, R517, R519): the power
state names what is up; PWR_GOOD stands only with VAUX, VIN and REFCLK good, the Factor up and nothing that asked for a
reset; the standby oscillator runs exactly while REFCLK is bad; a device reset has a phase, and no smaller reset within its
scope runs beside it. -/
def RstSt.Coherent (r : RstSt) : Prop :=
  (r.power = .off ↔ r.vaux = false) ∧
  (r.pwrGood = true ↔ r.power = .d0 ∨ r.power = .d3pend ∨ r.power = .d3hot) ∧
  (r.pwrGood = true → r.vin = true ∧ r.refOk = true ∧ r.factorUp = true ∧ r.vinLost = false ∧ r.refLost = false ∧ r.thermalDown = false) ∧
  (r.osc = true ↔ r.vaux = true ∧ r.refOk = false) ∧ (r.thermtripN = false ↔ r.thermalDown = true) ∧
  r.phase ≤ 7 ∧ (r.phase = 0 ↔ r.device = none) ∧
  ∀ d, r.device = some d → (d.scope = .warm ∨ d.scope = .cold) ∧ r.vaux = true ∧ (d.scope = .warm ∨ 4 ≤ r.phase → r.pwrGood = true) ∧
    r.vinLost = false ∧ r.refLost = false ∧ r.thermalDown = false ∧ ∀ u ∈ r.units, u.scope.within d.scope = false

/-- The life-cycle state is the one that the fuses give unless a transition's wipe is owed, and the fuses are as the arcs of
Table 18.7 burn them (R489, R492). -/
def FactorSt.Coherent (f : FactorSt) : Prop :=
  (f.wipePending = false → f.lc = f.fuses.state) ∧ f.fuses.closes ≤ f.fuses.opens ∧ f.fuses.opens ≤ f.fuses.closes + 1 ∧ f.fuses.opens ≤ 32 ∧
  (0 < f.fuses.opens → f.fuses.commit = true) ∧ (f.fuses.commit = true → f.fuses.owner.isSome = true)

def State.Coherent (s : State) : Prop := s.rst.Coherent ∧ s.fac.Coherent

/-- Fuses only burn: what `f` has burned `g` has too (R487, R489). -/
def Fuses.Grows (f g : Fuses) : Prop :=
  f.floor ≤ g.floor ∧ f.opens ≤ g.opens ∧ f.closes ≤ g.closes ∧ (f.commit = true → g.commit = true) ∧ (f.returned = true → g.returned = true) ∧
  (∀ k, f.owner = some k → g.owner = some k) ∧ g.keys = f.keys ∧ g.revoked = f.revoked

end Sys2Proof.Machine
end

