-- ==== Sys2Proof/Certificates/Slice0/Obligations.lean ====
section
/-! DEFINITION. The statements: what each command does to the device's state, what it leaves alone, and what no command
can undo. -/

open Sys2Proof Sys2Proof.Machine

/-- R151 and Table 6.5: the results of the scalar operations on 64-bit values, with the division corners. -/
def Obligations.ScalarArithmeticIsTable6_5 : Prop :=
  ∀ a b : W64,
    aluOp 0 a.toNat b.toNat = (a + b).toNat ∧ aluOp 1 a.toNat b.toNat = (a - b).toNat ∧
    aluOp 2 a.toNat b.toNat = (a * b).toNat ∧
    aluOp 3 a.toNat b.toNat = ((a.zeroExtend 128 * b.zeroExtend 128) >>> 64).toNat ∧
    aluOp 4 a.toNat b.toNat = (if b = 0 then BitVec.allOnes 64 else a.sdiv b).toNat ∧
    aluOp 5 a.toNat b.toNat = (if b = 0 then BitVec.allOnes 64 else a / b).toNat ∧
    aluOp 6 a.toNat b.toNat = (if b = 0 then a else a.srem b).toNat ∧
    aluOp 7 a.toNat b.toNat = (if b = 0 then a else a % b).toNat ∧
    aluOp 8 a.toNat b.toNat = (a &&& b).toNat ∧ aluOp 9 a.toNat b.toNat = (a ||| b).toNat ∧
    aluOp 10 a.toNat b.toNat = (a ^^^ b).toNat ∧
    aluOp 11 a.toNat b.toNat = (a <<< (b.toNat % 64)).toNat ∧ aluOp 12 a.toNat b.toNat = (a >>> (b.toNat % 64)).toNat ∧
    aluOp 13 a.toNat b.toNat = (a.sshiftRight (b.toNat % 64)).toNat ∧
    aluOp 14 a.toNat b.toNat = (if a.slt b then 1 else 0) ∧ aluOp 15 a.toNat b.toNat = (if a < b then 1 else 0) ∧
    aluOp 16 a.toNat b.toNat = (if b.slt a then b else a).toNat ∧ aluOp 17 a.toNat b.toNat = (if a.slt b then b else a).toNat

/-- R151: SCALAR_ALU and SCALAR_IMMEDIATE, for every operation, and writes to X0 discarded (Table 6.1). -/
def Obligations.ScalarInstructionsWriteTheirRegister : Prop :=
  ∀ (s : State) (n : Nat) (i : Ins), Issues s n i →
    (isOp 0x01 (List.range 18) i = true → i.onlyUses [fDst, fS1, fS2] = true →
      ∃ t, exec (.scalarAlu n) s = .next t ∧
        CoreOnly s t n { (s.core n).setX i.dst (aluOp i.sub ((s.core n).xr i.s1) ((s.core n).xr i.s2)) with pc := (s.core n).pc + 8 }) ∧
    (isOp 0x02 (List.range 9) i = true → i.onlyUses ([fDst, fImm32] ++ (if i.sub = 7 then [] else [fS1])) = true →
      ∃ t, exec (.scalarImmediate n) s = .next t ∧
        CoreOnly s t n { (s.core n).setX i.dst
          (if i.sub = 7 then u64 i.imm32
           else if i.sub = 8 then i.w % 2 ^ 32 * 2 ^ 32 + (s.core n).xr i.s1 % 2 ^ 32
           else aluOp ([0, 8, 9, 10, 11, 12, 13].getD i.sub 0) ((s.core n).xr i.s1) (u64 i.imm32)) with pc := (s.core n).pc + 8 }) ∧
    (∀ (c : CoreSt) (r v : Nat), (c.setX r v).xr 0 = 0 ∧
      (∀ q, q ≠ 0 → (c.setX r v).xr q = if q = r then v % 2 ^ 64 else c.xr q))

/-- R148 and R151: the targets of JAL, JR and the six conditional branches. -/
def Obligations.BranchesGoWhereTheySay : Prop :=
  ∀ (s : State) (n : Nat) (i : Ins), Issues s n i →
    (isOp 0x03 [0] i = true → i.onlyUses [fDst, fImm32] = true → 0 ≤ relTarget (s.core n) i →
      (s.core n).inRange (relTarget (s.core n) i).toNat = true →
      ∃ t, exec (.jal n) s = .next t ∧
        CoreOnly s t n { (s.core n).setX i.dst ((s.core n).pc + 8) with pc := (((s.core n).pc : Int) + i.imm32 * 8).toNat }) ∧
    (isOp 0x03 [1] i = true → i.onlyUses [fDst, fS1] = true → (s.core n).inRange ((s.core n).xr i.s1) = true →
      ∃ t, exec (.jr n) s = .next t ∧
        CoreOnly s t n { (s.core n).setX i.dst ((s.core n).pc + 8) with pc := (s.core n).xr i.s1 }) ∧
    (isOp 0x03 [2, 3, 4, 5, 6, 7] i = true → i.onlyUses [fS1, fS2, fImm32] = true →
      (branchHolds i.sub ((s.core n).xr i.s1) ((s.core n).xr i.s2) = true →
        0 ≤ relTarget (s.core n) i ∧ (s.core n).inRange (relTarget (s.core n) i).toNat = true) →
      ∃ t, exec (.conditionalBranch n) s = .next t ∧
        CoreOnly s t n { s.core n with
          pc := if branchHolds i.sub ((s.core n).xr i.s1) ((s.core n).xr i.s2) then (((s.core n).pc : Int) + i.imm32 * 8).toNat
                else (s.core n).pc + 8 }) ∧
    (∀ a b : W64,
      branchHolds 2 a.toNat b.toNat = (a == b) ∧ branchHolds 3 a.toNat b.toNat = (a != b) ∧
      branchHolds 4 a.toNat b.toNat = a.slt b ∧ branchHolds 5 a.toNat b.toNat = !(a.slt b) ∧
      branchHolds 6 a.toNat b.toNat = a.ult b ∧ branchHolds 7 a.toNat b.toNat = !(a.ult b))

/-- R151, R157 and R406: SCALAR_LOAD and SCALAR_STORE; `memAddr` is X[SRC1] + IMM32 modulo 2^64 and `memWidth` the bytes of
the access.  The clause on poison is for lines that are not poisoned; a poisoned one poisons the task (Table 15.4). -/
def Obligations.ScalarMemoryReadsAndWritesSram : Prop :=
  ∀ (s : State) (n : Nat) (i : Ins), Issues s n i →
    memAddr (s.core n) i + memWidth i.sub ≤ 0x400000 → memAddr (s.core n) i % memWidth i.sub = 0 →
    (isOp 0x04 (List.range 7) i = true → i.onlyUses [fDst, fS1, fImm32] = true → (s.core n).anyPoison (memAddr (s.core n) i) (memWidth i.sub) = false →
      ∃ t, exec (.scalarLoad n) s = .next t ∧
        CoreOnly s t n { (s.core n).setX i.dst
          (let v := (s.core n).num (memAddr (s.core n) i) (memWidth i.sub)
           if i.sub % 2 = 1 then u64 (signed (8 * memWidth i.sub) v) else v) with pc := (s.core n).pc + 8 }) ∧
    (isOp 0x04 [8, 9, 10, 11] i = true → i.onlyUses [fS1, fS2, fImm32] = true → inShard s n (memAddr (s.core n) i) (memWidth i.sub) = false →
      ∃ t, exec (.scalarStore n) s = .next t ∧
        (∀ a, (t.core n).bytes a 1 =
          if memAddr (s.core n) i ≤ a ∧ a < memAddr (s.core n) i + memWidth i.sub then
            [BitVec.ofNat 8 ((s.core n).xr i.s2 / 256 ^ (a - memAddr (s.core n) i))]
          else (s.core n).bytes a 1) ∧
        CoreOnly s t n { s.core n with pc := (s.core n).pc + 8, sram := (t.core n).sram, sramPoison := (t.core n).sramPoison })

/-- R152 and Table 6.6: the CSR rows, and what they refuse. -/
def Obligations.CsrInstructionsReadAndWriteTable6_6 : Prop :=
  ∀ (s : State) (n : Nat) (i : Ins), Issues s n i →
    (isOp 0x05 [0] i = true → i.onlyUses [fDst, (11, 0)] = true →
      (∀ v, csr s n (i.imm16 % 4096) = some v →
        ∃ t, exec (.csrRd n) s = .next t ∧ CoreOnly s t n { (s.core n).setX i.dst v with pc := (s.core n).pc + 8 }) ∧
      (csr s n (i.imm16 % 4096) = none → exec (.csrRd n) s = .next (raiseExc s n Code.ILLEGAL_INSTR))) ∧
    (i.onlyUses [fS1, (11, 0)] = true → ∀ c f, ((isOp 0x05 [1] i = true ∧ c = Instr.csrWr n ∧ f = fun _ x => x) ∨
        (isOp 0x05 [2] i = true ∧ c = Instr.csrSet n ∧ f = Nat.lor) ∨
        (isOp 0x05 [3] i = true ∧ c = Instr.csrClr n ∧ f = fun o x => o - Nat.land o x)) →
      (i.imm16 % 4096 = 0x000 → ∃ t, exec c s = .next t ∧
        CoreOnly s t n { s.core n with fstat := f (s.core n).fstat ((s.core n).xr i.s1) % 2 ^ 6, pc := (s.core n).pc + 8 }) ∧
      (i.imm16 % 4096 = 0x001 → ∃ t, exec c s = .next t ∧
        CoreOnly s t n { s.core n with tstat := f (s.core n).tstat ((s.core n).xr i.s1) % 2 ^ 3, pc := (s.core n).pc + 8 }) ∧
      (i.imm16 % 4096 = 0x002 → ∃ t, exec c s = .next t ∧
        CoreOnly s t n { s.core n with selstat := f (s.core n).selstat ((s.core n).xr i.s1) % 2 ^ 25, pc := (s.core n).pc + 8 }) ∧
      (3 ≤ i.imm16 % 4096 → exec c s = .next (raiseExc s n Code.ILLEGAL_INSTR)))

/-- R144, R145, R153 to R156: the lanes of the vector rows.  `laneOp` and `Num.convert` are the operations on codes, `redSum` and
`redMinMax` the fixed tree of R155, and results are read in the width of TYPE. -/
def Obligations.VectorInstructionsFillTheirActiveLanes : Prop :=
  ∀ (s : State) (n : Nat) (i : Ins), Issues s n i → Num.valid i.type = true → regType i.type = true →
    let c := s.core n
    let w := Num.width i.type
    let lanes := fun (t : State) (r : Nat → Nat) =>
      (∀ l, l < 64 → (t.core n).elem w i.dst l = if c.active i l then r l % 2 ^ w else if i.zm then 0 else c.elem w i.dst l) ∧
      (∀ q l, l < 64 → q ≠ i.dst → (w = 64 → q ≠ i.dst + 1) → (t.core n).vl q l = c.vl q l)
    let flags := fun (f : Nat → Num.FFlags) =>
      (List.range 64).foldl (fun a l => if c.active i l then Nat.lor a (flagBits (f l)) else a) 0
    (i.sub ≤ 16 → isOp 0x08 (List.range 17) i = true → laneTypes i.sub i.type = true →
      i.onlyUses ([fDst, fS1, fType, fPred] ++ (if hasSrc2 i.sub then [fS2, (0, 0)] else []) ++ (if i.sub = 3 then [fS3] else [])
        ++ roundFields i.sub i.type) = true →
      oddPair i.type ([i.dst, i.s1] ++ (if hasSrc2 i.sub = true ∧ (!i.s2x) = true then [i.s2] else []) ++ (if i.sub = 3 then [i.s3] else [])) = false →
      let op := fun l => laneOp i.sub i.type i.rm i.sat (c.elem w i.s1 l) (if hasSrc2 i.sub then src2 c i w l else 0)
        (if i.sub = 3 then c.elem w i.s3 l else 0)
      ∃ t, exec (.vectorArithmetic n) s = .next t ∧ lanes t (fun l => (op l).1) ∧
        CoreOnly s t n { c with v := (t.core n).v, fstat := Nat.lor c.fstat (flags (fun l => (op l).2)), pc := c.pc + 8 }) ∧
    (isOp 0x08 [19] i = true → i.onlyUses [fDst, fS1, fS2, fType, fPred, fRm, fSat, (10, 8), (0, 0)] = true → i.rm = 0 → i.sat = false →
      oddPair i.type ([i.dst, i.s1] ++ (if i.s2x then [] else [i.s2])) = false →
      ∃ t, exec (.vectorArithmetic n) s = .next t ∧
        lanes t (fun l => if bitOf (c.mr (bitsOf i.w 10 8)) l then c.elem w i.s1 l else src2 c i w l) ∧
        CoreOnly s t n { c with v := (t.core n).v, pc := c.pc + 8 }) ∧
    (isOp 0x08 [23] i = true → i.onlyUses [fDst, fS1, fType, fPred] = true → oddPair i.type [i.dst] = false →
      ∃ t, exec (.vectorArithmetic n) s = .next t ∧ lanes t (fun _ => c.xr i.s1) ∧
        CoreOnly s t n { c with v := (t.core n).v, pc := c.pc + 8 }) ∧
    (isOp 0x08 [24] i = true → i.onlyUses [fDst, fS1, fType, fPred, (13, 8)] = true → oddPair i.type [i.s1] = false →
      ∃ t, exec (.vectorArithmetic n) s = .next t ∧
        CoreOnly s t n { c.setX i.dst (let v := c.elem w i.s1 (bitsOf i.w 13 8); if Num.isSigned i.type then u64 (signed w v) else v)
          with pc := c.pc + 8 }) ∧
    (let src := bitsOf i.w 15 8
     isOp 0x08 [18] i = true → Num.valid src = true → regType src = true → (oddPair i.type [i.dst] || oddPair src [i.s1]) = false →
      i.onlyUses ([fDst, fS1, fType, fPred, fSat, (15, 8)] ++ (if Num.isInt src ∧ Num.isInt i.type then [] else [fRm])) = true →
      let op := fun l => Num.convert src i.type i.rm i.sat (c.elem (Num.width src) i.s1 l)
      ∃ t, exec (.cvt n) s = .next t ∧ lanes t (fun l => (op l).1) ∧
        CoreOnly s t n { c with v := (t.core n).v, fstat := Nat.lor c.fstat (flags (fun l => (op l).2)), pc := c.pc + 8 }) ∧
    (isOp 0x08 [20, 21, 22] i = true → oddPair i.type [i.s1] = false →
      i.onlyUses ([fDst, fS1, fType, fPred] ++ (if i.sub = 20 then roundFields 0 i.type else [])) = true →
      let r := if i.sub = 20 then redSum c i else redMinMax c i (i.sub == 21)
      ∃ t, exec (.redsum n) s = .next t ∧
        CoreOnly s t n { c.setX i.dst (if Num.isSigned i.type then u64 (signed w r.1) else r.1) with
          fstat := Nat.lor c.fstat r.2, pc := c.pc + 8 }) ∧
    (isOp 0x09 (List.range 6) i = true → i.onlyUses [(49, 47), fS1, fS2, fType, fPred, (0, 0)] = true →
      oddPair i.type ([i.s1] ++ (if i.s2x then [] else [i.s2])) = false →
      let op := fun l => if Num.isInt i.type then (iCompare i.type i.sub (c.elem w i.s1 l) (src2 c i w l), {})
        else fCompare i.type i.sub (c.elem w i.s1 l) (src2 c i w l)
      ∃ t, exec (.vectorCompare n) s = .next t ∧
        (∀ l, l < 64 → bitOf ((t.core n).mr i.dst) l = if c.active i l then (op l).1 else if i.zm then false else bitOf (c.mr i.dst) l) ∧
        (∀ q, q ≠ i.dst → (t.core n).mr q = c.mr q) ∧
        CoreOnly s t n { c with m := (t.core n).m, fstat := Nat.lor c.fstat (flags (fun l => (op l).2)), pc := c.pc + 8 })

/-- R159 to R161: the vector memory rows.  `laneAddr` is a lane's address by Table 6.8, `laneSpan` the bytes that it touches, and
`loadLane` the widening of R160; the clean lines are those without poison (Table 15.4). -/
def Obligations.VectorMemoryMovesItsActiveLanes : Prop :=
  ∀ (s : State) (n : Nat) (i : Ins), Issues s n i → ∀ (form : Nat),
    let c := s.core n
    let et := i.type
    let w := Num.width (wideType et)
    (isOp 0x0A [form] i = true → form < 3 → (∀ e ∈ vmemExc s n c i form false, e.1 = false) →
      (∀ l ∈ activeLanes c i, c.anyPoison (laneSpan c i form l).1 (laneSpan c i form l).2 = false) →
      (Num.isMx et = true → c.anyPoison (c.xr i.s3) 2 = false) →
      ∃ t, exec (match form with | 0 => .vld n | 1 => .vlds n | _ => .vldg n) s = .next t ∧
        (∀ l, l < 64 → (t.core n).elem w i.dst l =
          if c.active i l then (loadLane c i form l).1 % 2 ^ w else if i.zm then 0 else c.elem w i.dst l) ∧
        (∀ q l, l < 64 → q ≠ i.dst → (w = 64 → q ≠ i.dst + 1) → (t.core n).vl q l = c.vl q l) ∧
        CoreOnly s t n { c with v := (t.core n).v, fstat := (t.core n).fstat, pc := c.pc + 8 }) ∧
    (isOp 0x0A [form + 4] i = true → form < 3 → (∀ e ∈ vmemExc s n c i form true, e.1 = false) →
      ∃ t, exec (match form with | 0 => .vst n | 1 => .vsts n | _ => .vstg n) s = .next t ∧
        (t.core n).sram = (if Num.isMx et then vstoreMx c i else storeLanes c ((activeLanes c i).map (fun l =>
          let v := c.elem w i.dst l
          (laneAddr c i form l, leBytes (elemBytes et)
            (if wideType et = et then v else (Num.convert (wideType et) et i.rm i.sat v).1)))) (form == 0)).sram ∧
        (∀ a, (∀ l ∈ activeLanes c i, ¬ ((laneSpan c i form l).1 ≤ a ∧ a < (laneSpan c i form l).1 + (laneSpan c i form l).2)) →
          (Num.isMx et = true → a ≠ c.xr i.s3 ∧ a ≠ c.xr i.s3 + 1) → (t.core n).bytes a 1 = c.bytes a 1) ∧
        CoreOnly s t n { c with sram := (t.core n).sram, sramPoison := (t.core n).sramPoison, fstat := (t.core n).fstat, pc := c.pc + 8 })

/-- R162 to R165: the table rows that read SRAM alone.  `hashKey` is a lane's key, `bucketOf` the search of R164 and `lookupLane` the
widened entry. -/
def Obligations.TableInstructionsFillTheirActiveLanes : Prop :=
  ∀ (s : State) (n : Nat) (i : Ins), Issues s n i →
    let c := s.core n
    let lanes := fun (t : State) (w r : Nat) (f : Nat → Nat) => ∀ l, l < 64 →
      (t.core n).elem w r l = if c.active i l then f l % 2 ^ w else if i.zm then 0 else c.elem w r l
    let key := fun (h : List Byte → Nat) (l : Nat) => ((hashKey c i l).map h).getD 0
    (isOp 0x0C [0] i = true → (∀ e ∈ hashExc c i, e.1 = false) →
      (bitOf i.w 4 = true → ∀ l ∈ activeLanes c i, ∀ e ∈ keyRef (c.vl i.s1 l) false, c.anyPoison e.1 e.2 = false) →
      ∃ t, exec (.vtHash n) s = .next t ∧
        (bitsOf i.w 3 0 = 0 ∨ bitsOf i.w 3 0 = 4 → lanes t 64 i.dst (key (fun k => Hash.smx64 k (c.xr i.s2)))) ∧
        (bitsOf i.w 3 0 = 1 → lanes t 32 i.dst (key (Hash.crc32c (c.xr i.s2 % 2 ^ 32)))) ∧
        (bitsOf i.w 3 0 = 2 →
          lanes t 32 i.dst (key (fun k => (Hash.featureHash k (c.xr i.s2) (c.xr i.s3) (bitOf i.w 5)).1)) ∧
          lanes t 32 (i.dst + 1) (key (fun k => unsignedOf 32 (Hash.featureHash k (c.xr i.s2) (c.xr i.s3) (bitOf i.w 5)).2))) ∧
        (bitsOf i.w 3 0 = 3 → lanes t 64 i.dst (fun l => min (c.elem 64 i.dst l) (Hash.lane (c.xr i.s2) (c.xr i.s3 + l)))) ∧
        CoreOnly s t n { c with v := (t.core n).v, pc := c.pc + 8, tstat := (t.core n).tstat } ∧
        (t.core n).tstat = if bitsOf i.w 3 0 ≠ 3 ∧ ∃ l ∈ activeLanes c i, hashKey c i l = none then Nat.lor c.tstat 1 else c.tstat) ∧
    (isOp 0x0C [1] i = true → (∀ e ∈ bucketExc c i, e.1 = false) →
      c.anyPoison (c.xr i.s2) (64 + c.num (c.xr i.s2) 4 * (Num.width i.type / 8)) = false →
      ∃ t, exec (.vtBucket n) s = .next t ∧
        lanes t 32 i.dst (fun l => bucketOf i.type (c.elem (Num.width i.type) i.s1 l) (c.num (c.xr i.s2) 4)
          (fun k => c.num (c.xr i.s2 + 64 + k * (Num.width i.type / 8)) (Num.width i.type / 8))) ∧
        CoreOnly s t n { c with v := (t.core n).v, pc := c.pc + 8 }) ∧
    (isOp 0x0C [2] i = true → (∀ e ∈ lookupExc c i, e.1 = false) →
      (∀ l ∈ lookupHits c i, c.anyPoison (lookupAddr c i l) (elemBytes i.type) = false) →
      ∃ t, exec (.vtLookup n) s = .next t ∧
        lanes t (Num.width (wideType i.type)) i.dst (fun l => (lookupLane c i l).1) ∧
        CoreOnly s t n { c with v := (t.core n).v, fstat := (t.core n).fstat, pc := c.pc + 8, tstat := (t.core n).tstat } ∧
        (t.core n).tstat = if ∃ l ∈ activeLanes c i, c.xr i.s3 ≤ c.vl i.s1 l then Nat.lor c.tstat 1 else c.tstat)

/-- R167 and R168: the select rows.  `selectRow`, `keepEntries` and `selTop` are the Winnower's selection (R267 to R272). -/
def Obligations.SelectInstructionsKeepTheBestOfTheirCandidates : Prop :=
  ∀ (s : State) (n : Nat) (i : Ins), Issues s n i →
    let c := s.core n
    let k := bitsOf i.w 6 0
    let put := fun (t : State) (sel : List (Nat × Nat)) =>
      (∀ j, j < 64 → (t.core n).vl i.dst j = if j < k then outVal i.type (sel.getD j (padIdx, padCode i.type)).2 % 2 ^ 32 else c.vl i.dst j) ∧
      (∀ j, j < 64 → (t.core n).vl (i.dst + 1) j = if j < k then (sel.getD j (padIdx, padCode i.type)).1 % 2 ^ 32 else c.vl (i.dst + 1) j) ∧
      (∀ q j, j < 64 → q ≠ i.dst → q ≠ i.dst + 1 → (t.core n).vl q j = c.vl q j)
    (isOp 0x0D [0] i = true → (∀ e ∈ selExc i [i.dst], e.1 = false) →
      let p := selectRow i.type k false ((activeLanes c i).map (fun l => ((c.xr i.s2 + l) % 2 ^ 32, c.vl i.s1 l))) false
      ∃ t, exec (.selTopk n) s = .next t ∧ put t p.entries ∧
        CoreOnly s t n { c with v := (t.core n).v, selstat := p.entries.length + 2 ^ 8 * p.tie + 2 ^ 16 * p.nan, pc := c.pc + 8 }) ∧
    (isOp 0x0D [1] i = true → (∀ e ∈ selExc i [i.dst, i.s1, i.s2], e.1 = false) →
      let cs := ([i.s1, i.s2].flatMap (fun r => (activeLanes c i).map (fun l => (c.vl (r + 1) l, c.vl r l)))).filter (fun e => e.1 ≠ 0xFFFFFFFF)
      let m := keepEntries i.type cs
      let sel := selTop i.type k m.1
      ∃ t, exec (.selMerge n) s = .next t ∧ put t sel ∧
        CoreOnly s t n { c with v := (t.core n).v, pc := c.pc + 8, selstat := (t.core n).selstat } ∧
        (t.core n).selstat = sel.length + 2 ^ 8 * selTies i.type k m.1 sel + 2 ^ 16 * (cs.filter (fun e => codeNaN i.type e.2)).length
          + (if 0 < m.2.2 then 2 ^ 24 else 0))

/-- R169, R170 and R172.  `accRow` is one converted row with its scale byte and flags; R57 and Table 3.4 say what conversion gives. -/
def Obligations.MatrixInstructionsReadAndWriteTheAccumulators : Prop :=
  ∀ (s : State) (n : Nat) (i : Ins), Issues s n i → mxWaits (s.core n) i.dst = false →
    let c := s.core n
    let others := fun (t : State) => ∀ q j k, j < 64 → k < 32 → q ≠ i.dst → accAt (t.core n) q j k = accAt c q j k
    let len := 4 * Num.width i.type
    (isOp 0x10 [0] i = true → (∀ e ∈ mmaExc c i, e.1 = false) →
      ∃ t, exec (.mxMma n) s = .next t ∧ CoreOnly s t n { c with mmas := c.mmas ++ [mmaOf c i], pc := c.pc + 8 }) ∧
    (isOp 0x10 [1] i = true → i.onlyUses [fDst] = true → i.dst ≤ 3 →
      ∃ t, exec (.mxZero n) s = .next t ∧ (∀ j k, j < 64 → k < 32 → accAt (t.core n) i.dst j k = 0) ∧ others t ∧
        CoreOnly s t n { c with a := (t.core n).a, pc := c.pc + 8 }) ∧
    (isOp 0x10 [2] i = true → i.onlyUses [fDst, fS1] = true → i.dst ≤ 3 → c.xr i.s1 + 8192 ≤ 0x400000 → c.xr i.s1 % 4 = 0 →
      c.anyPoison (c.xr i.s1) 8192 = false →
      ∃ t, exec (.mxLoadacc n) s = .next t ∧
        (∀ j k, j < 64 → k < 32 → accAt (t.core n) i.dst j k = c.num (c.xr i.s1 + 128 * j + 4 * k) 4) ∧ others t ∧
        CoreOnly s t n { c with a := (t.core n).a, pc := c.pc + 8 }) ∧
    (isOp 0x10 [3] i = true → (∀ e ∈ storeaccExc s n i, e.1 = false) →
      ∃ t, exec (.mxStoreacc n) s = .next t ∧
        (∀ a, (∀ r, r < 64 → ¬ (c.xr i.s1 + c.xr i.s2 * r ≤ a ∧ a < c.xr i.s1 + c.xr i.s2 * r + len)) →
          (Num.isMx i.type = true → ¬ (c.xr i.s3 ≤ a ∧ a < c.xr i.s3 + 64)) → (t.core n).bytes a 1 = c.bytes a 1) ∧
        (Num.isMx i.type = false → len ≤ c.xr i.s2 → ∀ r b, r < 64 → b < (accRow c i r).1.length →
          (t.core n).bytes (c.xr i.s1 + c.xr i.s2 * r + b) 1 = [(accRow c i r).1.getD b 0]) ∧
        CoreOnly s t n { c with sram := (t.core n).sram, sramPoison := (t.core n).sramPoison, fstat := (t.core n).fstat, pc := c.pc + 8 })

/-- R170, R171, R179, R301 and R305.  `Mma.element` is the rounded accumulation over the groups. -/
def Obligations.MmaExecuteAccumulatesTheOldestProduct : Prop :=
  ∀ (s : State) (n : Nat) (m : Mma) (rest : List Mma), n < 96 → (s.core n).mmas = m :: rest → (s.core n).poisonAt = none →
    let c := s.core n
    (m.drop = false → c.anyPoison m.aOff m.aBytes = false → c.anyPoison m.wOff (m.wBytes c) = false →
      ∃ t, exec (.mmaExecute n) s = .next t ∧
        (∀ j k, j < 64 → k < 32 → accAt (t.core n) m.acc j k = m.element c j k (if m.clear then 0 else accAt c m.acc j k)) ∧
        (∀ q j k, q ≠ m.acc → j < 64 → k < 32 → accAt (t.core n) q j k = accAt c q j k) ∧
        CoreOnly s t n { c with a := (t.core n).a, mmas := rest } ∧
        t.io = s.io.count64 (bCore n) Off.fcore_MAC_CYCLES_LO (m.cycles c)) ∧
    (m.drop = true → ∃ t, exec (.mmaExecute n) s = .next t ∧ CoreOnly s t n { c with mmas := rest })

/-- R175, R177, R178 and R351.  `emitToken` is the token of R177, `offerToken` what the Caller makes of it, `leaveTask` the end of
a task, and `housekeep` the reports and settlements that a change makes due. -/
def Obligations.TaskInstructionsWaitEmitAndEnd : Prop :=
  ∀ (s : State) (n : Nat), let c := s.core n
    (∀ (i : Ins), Issues s n i →
      (isOp 0x18 [0] i = true → i.onlyUses [fDst, fS1] = true →
        (c.task = none → smFind n (s.caller (dieOfCore n)).next = none → ∃ t, exec (.taskWait n) s = .next t ∧
          CoreOnly s t n { c with run := .waiting, waitDst := some i.dst, idleAt := s.io.tb,
                                  waitEnd := if c.xr i.s1 = 0 then none else some (s.io.tb + c.xr i.s1) }) ∧
        (c.task ≠ none → exec (.taskWait n) s = .next (raiseExc s n Code.TASK_STATE))) ∧
      (∀ (k : Task) (w : Nat), isOp 0x18 [1] i = true → i.onlyUses [fDst, fS1, fS2, (8, 0)] = true → c.task = some k →
        w = (tmplOf s k.die k.tmpl).out (bitsOf i.w 7 0) → bitsOf w 31 30 = 1 →
        ∀ u o, offerToken s (emitToken s n k w (c.xr i.s1) (c.xr i.s2) (bitOf i.w 8)) = (u, o) → u.core n = c →
          (o = .accepted → ∃ t, exec (.taskEmit n) s = .next t ∧ CoreOnly u t n { c.setX i.dst 0 with pc := c.pc + 8 }) ∧
          (o = .held → ∃ t, exec (.taskEmit n) s = .next t ∧ CoreOnly u t n { c with emitDst := some i.dst }) ∧
          (o ≠ .accepted → o ≠ .held → ∃ t, exec (.taskEmit n) s = .next t ∧ CoreOnly u t n { c with pc := c.pc + 8 })) ∧
      (∀ (k : Task), isOp 0x18 [2] i = true → i.onlyUses [(8, 0)] = true → bitsOf i.w 7 0 ≤ 127 → c.task = some k →
        (bitOf i.w 8 = true → taskSeq s k ≠ none) → c.mmas = [] →
        let s' := (taskStrms s n k.id).foldl (fun s j => closeAny s n j) s
        (s'.core n).task = some k → ∃ u t, exec (.taskDone n) s = .next t ∧ (let v := notePoison (housekeep u) n
            CoreOnly v t n { v.core n with pc := c.pc + 8 }) ∧
          (u.core n).task = none ∧ (u.core n).run = .between ∧
          ∃ e, (u.caller k.die).ended = (s'.caller k.die).ended ++ [e] ∧ e.task = k ∧ e.core = n ∧
            (e.outcome, e.info) = (if bitsOf i.w 7 0 ≠ 0 then (Code.TASK_FAILED, bitsOf i.w 7 0)
              else if (s'.core n).failCode ≠ 0 then (Code.STREAM_FAILED, (s'.core n).failCode) else (Code.OK, 0)) ∧
            e.retire = bitOf i.w 8)) ∧
    (n < 96 → ∀ e d, c.run = .waiting → c.waitEnd = some e → c.waitDst = some d → e ≤ s.io.tb →
      smFind n (s.caller (dieOfCore n)).next = none →
      ∃ t, exec (.taskWaitTimeout n) s = .next t ∧
        CoreOnly s t n { c.setX d 1 with run := .between, waitDst := none, waitEnd := none, pc := c.pc + 8 })

/-- R150, R181 and R182: the fence and event rows. -/
def Obligations.FenceAndEventInstructionsKeepTheRest : Prop :=
  ∀ (s : State) (n : Nat) (i : Ins), Issues s n i →
    let c := s.core n
    let on := { c with pc := c.pc + 8 }
    (isOp 0x1C [0] i = true → i.onlyUses [] = true → ∃ t, exec (.nop n) s = .next t ∧ CoreOnly s t n on) ∧
    (∀ k row busy, i.onlyUses [] = true → isOp 0x1C [k] i = true →
      (k = 1 ∧ row = Instr.fenceTable n ∧ busy = tableBusy s n ∨ k = 2 ∧ row = Instr.fenceWrite n ∧ busy = writeBusy s n ∨
        k = 3 ∧ row = Instr.fenceAll n ∧ busy = (tableBusy s n || c.mmas != [] || writeBusy s n)) →
      ∃ t, exec row s = .next t ∧ CoreOnly s t n (if busy then c else on)) ∧
    (isOp 0x1C [8] i = true → i.onlyUses [fS1, (7, 0)] = true →
      let now := cyclesOf s.io.tb
      (c.lastUser.all (fun t => decide (t + 1024 ≤ now)) = true → ∃ t, exec (.evtRaise n) s = .next t ∧
        t.core n = { on with lastUser := some now } ∧ (∀ m, m ≠ n → t.core m = s.core m) ∧
        Io.OnlyEvents [bCarter n, bCore n] s.io t.io ∧ t = { s with io := t.io, cores := t.cores } ∧
        bitOf (t.io.br (bCore n) 0x010) 3 = true ∧
        (s.io.intake.length < 4096 → s.io.held = [] → ∃ r, t.io.intake = s.io.intake ++ [r] ∧
          r = { s.io.mkRec (bCore n) Cls.USER (bitsOf i.w 7 0) (c.task.bind (fun k => (s.ctx? k.ctx).bind (fun x => x.slot))) 0 (c.xr i.s1)
                with afterLoss := s.io.srcLoss.contains (bCore n) })) ∧
      (c.lastUser.all (fun t => decide (t + 1024 ≤ now)) = false → ∃ t, exec (.evtRaise n) s = .next t ∧
        t.core n = on ∧ t.io.intake = s.io.intake ∧ t.io.held = s.io.held ∧ bitOf (t.io.br (bCore n) 0x010) 3 = true ∧
        (s.io.frozen (bCore n) = false → t.io.br (bCore n) Off.fcore_USER_EVT_LOST = min 0xFFFFFFFF (s.io.br (bCore n) Off.fcore_USER_EVT_LOST + 1)) ∧
        t = { s with io := t.io, cores := t.cores })) ∧
    (isOp 0x1C [9] i = true → i.onlyUses [fS1, (2, 0)] = true →
      ∃ t, exec (.evtCount n) s = .next t ∧ CoreOnly s t n on ∧
        (let o := (bCore n).base + Off.fcore_USER_CTR_LO + 8 * bitsOf i.w 2 0
         s.io.frozen (bCore n) = false → t.io.reg64 o = min 0xFFFFFFFFFFFFFFFF (s.io.reg64 o + c.xr i.s1)))

/-- R148, R150, R183 and R346.  `abortTask` ends the task, `housekeep` reports it and `containContext` is R533. -/
def Obligations.CoreExceptionsAreRecordedBeforeTheTaskEnds : Prop :=
  ∀ (s : State) (n : Nat), n < 96 →
    let c := s.core n
    (c.runs = true →
      (c.inRange c.pc = false → exec (.illegalInstr n) s = .next (raiseExc s n Code.BAD_PC)) ∧
      (∀ i, c.fetch = some i → knownOp i.major i.sub = false → exec (.illegalInstr n) s = .next (raiseExc s n Code.ILLEGAL_INSTR))) ∧
    (∀ k, c.task = some k → (tmplOf s k.die k.tmpl).budget ≠ 0 → (tmplOf s k.die k.tmpl).budget * 1024 ≤ cyclesOf (s.io.tb - c.startAt) →
      exec (.taskOverrun n) s = .next (raiseExc s n Code.TASK_OVERRUN)) ∧
    (∀ code, code < 2 ^ 16 → ∃ io,
      io.reg64 ((bCore n).base + Off.fcore_EXC_PC_LO) = c.pc % 2 ^ 64 ∧ io.br (bCore n) Off.fcore_EXC_VALID = 2 ^ 31 + code ∧
      (s.io.frozen (bCore n) = false → io.br (bCore n) Off.fcore_EXC_COUNT = min 0xFFFFFFFF (s.io.br (bCore n) Off.fcore_EXC_COUNT + 1)) ∧
      Io.OnlyEvents [bCore n] s.io io ∧
      raiseExc s n code =
        (let u := { s with io := io }
         if s.io.bf (bCore n) 0x008 8 8 = 1 ∧ s.fac.lc = 3 then u.setCore n { c with run := .halted }
         else
           let v := housekeep (abortTask u n Code.CORE_EXC code)
           match c.task with
           | some k => containContext v k.ctx
           | none => v))

/-- R110, R112 to R115 and R173.  `openStrm`, `advanceRead`, `advanceWrite` and `closeAny` are Carter's part; an open or an
advance leaves the core's registers. -/
def Obligations.StreamInstructionsMoveTheConsumer : Prop :=
  ∀ (s : State) (n : Nat) (i : Ins) (k : Task), Issues s n i → (s.core n).task = some k →
    let c := s.core n
    let st := i.strm
    let x := s.strm n st
    (isOp 0x14 [0] i = true → i.onlyUses [fDst, fS1, (3, 0)] = true → c.xr i.s1 + 128 ≤ 0x400000 → c.xr i.s1 % 64 = 0 →
      c.anyPoison (c.xr i.s1) 128 = false → ∀ u code, openStrm s n st k.opener (c.xr i.s1) = (u, code) →
      ((u.core n).pc = c.pc ∧ (u.core n).run = c.run ∧ (u.core n).poisonAt = none →
        ∃ t, exec (.streamOpen n) s = .next t ∧ CoreOnly u t n { (u.core n).setX i.dst code with pc := c.pc + 8 }) ∧
      (∀ e, openCheck s n st k.opener (c.xr i.s1) = .error e →
        code = e ∧ u = { s with io := u.io } ∧ Io.OnlyEvents [bCarter n] s.io u.io ∧
        u.io.br (bCarter n) (ssOff st Off.carter_SS_CODE) = e % 2 ^ 32 ∧ bitOf (u.io.br (bCarter n) 0x010) 3 = true)) ∧
    (isOp 0x14 [1] i = true → i.onlyUses [fDst, (3, 0)] = true →
      (ownsStrm s n st = true → ∀ u ok, (if x.reads then advanceRead s n st else advanceWrite s n st) = (u, ok) →
        (u.core n).pc = c.pc ∧ (u.core n).run = c.run ∧ (u.core n).poisonAt = none →
        ∃ t, exec (.streamAdvance n) s = .next t ∧
          CoreOnly u t n (if ok then { (u.core n).setX i.dst (stReg u n st) with pc := c.pc + 8 } else u.core n)) ∧
      (ownsStrm s n st = false → exec (.streamAdvance n) s = .next (raiseExc s n Code.STREAM_STATE))) ∧
    (isOp 0x14 [2] i = true → i.onlyUses [(3, 0)] = true →
      (ownsStrm s n st = true → let u := closeAny s n st
        ((u.core n).pc = c.pc ∧ (u.core n).run = c.run ∧ (u.core n).poisonAt = none →
          ∃ t, exec (.streamClose n) s = .next (housekeep t) ∧ CoreOnly u t n { u.core n with pc := c.pc + 8 }) ∧
        (x.reads = true → x.gang = none → (u.strm n st).st = 0 ∧ (u.strm n st).tiles = [] ∧ (u.strm n st).held = none)) ∧
      (ownsStrm s n st = false → exec (.streamClose n) s = .next (housekeep (raiseExc s n Code.STREAM_STATE)))) ∧
    (isOp 0x14 [3] i = true → i.onlyUses [fDst, (3, 0)] = true →
      ∃ t, exec (.streamRead n) s = .next t ∧ CoreOnly s t n { c.setX i.dst (stReg s n st) with pc := c.pc + 8 }) ∧
    bitsOf (stReg s n st) 63 32 = x.lastPos % 2 ^ 32 ∧ bitsOf (stReg s n st) 31 26 = 0 ∧
    bitOf (stReg s n st) 25 = decide (x.st = 7) ∧ bitOf (stReg s n st) 24 = decide (x.st = 3) ∧
    bitOf (stReg s n st) 22 = x.held.isSome ∧ bitsOf (stReg s n st) 21 0 = x.lastSlot % 2 ^ 22

/-- R113, R114, R120, R122, R129 and R134: the rows of Carter's and the memory path's own steps. -/
def Obligations.LineTrafficFillsAndDrainsTheSlots : Prop :=
  ∀ (s : State),
    (∀ arb r, r ∈ s.fetch.lines → r.path.head? = some arb →
      (∀ q ∈ s.fetch.lines, q.path.head? = some arb → q ≠ r → r.before q = true ∧ q.before r = false) →
      ∃ t, exec (.lineRequestGrant arb) s = .next t ∧ t = { s with fetch := { s.fetch with lines := t.fetch.lines } } ∧
        t.fetch.lines = s.fetch.lines.map (fun q => if q = r then { q with path := q.path.drop 1 } else q)) ∧
    (∀ r x d tile l, r ∈ s.fetch.lines → r.path = [] → r.write = false → r.gang = none → tHeld s r.tier r.addr = false →
      s.strm r.core r.st = x → x.inst = r.inst → x.st ≠ 0 → x.st ≠ 4 → x.desc = some d → tFault s r.tier r.addr 1 false = none →
      x.tiles.find? (fun t => t.ord == r.ord) = some tile → (tileSpans d tile)[r.idx]? = some l → s.tPoison r.core r.tier l.addr l.len = false →
      ∃ u, exec (.lineReturn r) s = .next (housekeep u) ∧ u.fetch.lines = s.fetch.lines.erase r ∧
        (∀ a, (u.core r.core).bytes a 1 =
          if slotOff s r.core x r.ord + l.off ≤ a ∧ a < slotOff s r.core x r.ord + l.off + l.len then
            [(s.tBytes r.core r.tier l.addr l.len).getD (a - (slotOff s r.core x r.ord + l.off)) 0]
          else (s.core r.core).bytes a 1) ∧
        u.strm r.core r.st = { x with tiles := x.tiles.map (fun t => if t.ord = r.ord then { t with wait := t.wait.filter (fun j => j ≠ r.idx) } else t) } ∧
        (∀ m k, (m, k) ≠ (r.core, r.st) → u.strm m k = s.strm m k) ∧
        (∀ m, m ≠ r.core → u.core m = s.core m)) ∧
    (∀ n k x f, s.strm n k = x → x.desc ≠ none → x.tiles.find? (fun t => !(t.bad == [])) = none → x.fault = some f →
      exec (.streamHalt n k) s = .next (housekeep (haltStrm s n k f)) ∧
      (f.code ≠ Code.HOST_DENIED → f.code ≠ Code.TIER_OFFLINE →
        ((haltStrm s n k f).strm n k).st = 3 ∧ ((haltStrm s n k f).strm n k).fault = some f ∧
        ((haltStrm s n k f).strm n k).tiles = x.tiles ∧
        (k < 16 → n < 96 → (haltStrm s n k f).io.reg64 ((bCarter n).base + ssOff k Off.carter_SS_FADDR_LO) = f.addr % 2 ^ 64))) ∧
    (∀ n k x d tile rest, s.strm n k = x → x.desc = some d → d.accum = false → x.tiles = tile :: rest → x.reads = false → tile.issued = true → rest ≠ [] →
      (∀ r ∈ s.fetch.lines, r.write = true → r.core = n → r.st = k → r.inst = x.inst → r.ord = tile.ord → r.path = []) →
      ∃ u, exec (.writeAck n k) s = .next (housekeep (writeMore u n k)) ∧ u.strm n k = { x with tiles := rest } ∧
        u.fetch.lines = s.fetch.lines.filter (fun (r : LineReq) => !(r.write && decide (r.core = n) && decide (r.st = k) && decide (r.inst = x.inst) && decide (r.ord = tile.ord)))) ∧
    (∀ die set r g, resSet s die set = some r →
      s.fetch.gangs.find? (fun g => g.resident && decide (g.die = die) && decide (g.group = set) && g.running) = some g →
      let ms := (openStrms s).filter (fun e => e.2.2.gang == some g.id)
      g.step < 48 * r.tiles → (∀ e ∈ ms, g.step ≤ e.2.2.taken + 3) →
      ∃ t, exec (.ringStep die set) s = .next t ∧
        t.fetch = { s.fetch with gangs := t.fetch.gangs } ∧
        t.fetch.gangs = s.fetch.gangs.map (fun h => if h.id = g.id then { h with step := g.step + 1 } else h) ∧
        t = { s with fetch := t.fetch, cores := t.cores } ∧
        (∀ n k, (ms.map (fun e => (e.1, e.2.1))).Nodup → (n, k) ∈ ms.map (fun e => (e.1, e.2.1)) →
          t.strm n k = { s.strm n k with tiles := (s.strm n k).tiles ++ [{ pos := g.step, ord := g.step, blk := none }], next := g.step + 1, ord := g.step + 1 }) ∧
        (∀ n k, (n, k) ∉ ms.map (fun e => (e.1, e.2.1)) → t.strm n k = s.strm n k)) ∧
    (∀ n, fenceReady s n = true → ∃ u, exec (.cancelFenceDone n) s = .next (finishCancels (housekeep u)) ∧
      (u.core n).fence = false ∧ (n < 96 → bitOf (u.io.br (bCarter n) 0x010) 4 = true) ∧
      (∀ m, m ≠ n → u.core m = s.core m))

/-- R138 to R141 and R174.  `pedCheck` gives the first failing check of R139 (0 for none), `pedStatus` writes STATUS of a block. -/
def Obligations.PedlarTransfersAreSentIssuedAndEnded : Prop :=
  ∀ (s : State) (n : Nat), let c := s.core n
    (∀ i k, Issues s n i → isOp 0x15 [0] i = true → i.onlyUses [fS1] = true → c.task = some k →
      let a := c.xr i.s1
      let b := c.bytes a 32
      let code := pedCheck s k b
      a + 32 ≤ 0x400000 → a % 32 = 0 → c.anyPoison a 32 = false →
      (code ≠ 0 → ∃ t, exec (.pedlarSend n) s = .next t ∧ (t.core n).bytes (a + 0x18) 2 = leBytes 2 code ∧
        (∀ x, (x < a + 0x18 ∨ a + 0x1A ≤ x) → (t.core n).bytes x 1 = c.bytes x 1) ∧
        CoreOnly s t n { c with sram := (t.core n).sram, sramPoison := (t.core n).sramPoison, pc := c.pc + 8 }) ∧
      (code = 0 → fieldAt b 4 4 + fieldAt b 2 2 ≤ 0x400000 → c.anyPoison (fieldAt b 4 4) (fieldAt b 2 2) = false →
        (c.peds.length < 8 → ∃ t p, exec (.pedlarSend n) s = .next t ∧
          CoreOnly s t n { c with peds := c.peds ++ [p], sends := c.sends + 1, pc := c.pc + 8 } ∧
          p.blk = a ∧ p.dest = fieldAt b 1 1 ∧ p.data = c.bytes (fieldAt b 4 4) (fieldAt b 2 2) ∧ p.region = fieldAt b 8 4 ∧
          p.offset = fieldAt b 0x10 8 ∧ p.fabric = fieldAt b 0xC 2 ∧ p.ack = bitOf (fieldAt b 0xE 1) 0 ∧ p.fence = bitOf (fieldAt b 0xE 1) 1 ∧
          p.serial = c.sends + 1 ∧ p.issued = false) ∧
        (8 ≤ c.peds.length → ∃ t, exec (.pedlarSend n) s = .next t ∧ CoreOnly s t n c))) ∧
    (∀ p, c.peds.find? (fun p => !p.issued) = some p → p.dest = 0 → (p.fence = true → ∀ e ∈ c.strms, e.2.reads = false → e.2.tiles = []) →
      ∃ t, exec (.pedlarIssue n) s = .next t ∧
        (t.core n).peds = c.peds.map (fun q => if q.serial = p.serial then { q with issued := true } else q) ∧
        (p.ack = true → (t.core n).sram = c.sram) ∧ (p.ack = false → (t.core n).bytes (p.blk + 0x18) 2 = leBytes 2 Code.DONE) ∧
        t = { s with cores := t.cores } ∧ (∀ m, m ≠ n → t.core m = s.core m)) ∧
    (∀ p r, c.peds.find? (fun q => q.serial == p.serial && q.issued) = some p → p.dest = 0 → regionOf s p.region = some r →
      (∀ q ∈ c.peds, q.dest = p.dest → q.region = p.region → q.fabric = p.fabric → p.serial ≤ q.serial) →
      tFault s r.tier (r.base + p.offset) p.data.length true = none → tHeld s r.tier (r.base + p.offset) = false →
      ∃ t, exec (.pedlarComplete n p.serial) s = .next t ∧ (t.core n).peds = c.peds.filter (fun q => q.serial ≠ p.serial) ∧
        t.mem = (writeLines s r.tier (r.base + p.offset) p.data p.poison).mem ∧
        (r.tier ≠ 0 → p.ack = true → (t.core n).bytes (p.blk + 0x18) 2 = leBytes 2 Code.DONE))

/-- R166, R227, R238 and R248.  `assaySent` are the requests of R163's key references, `assayTab` the table that the context bound. -/
def Obligations.AssayInstructionsSendTheirLanes : Prop :=
  ∀ (s : State) (n : Nat) (i : Ins) (lm : Bool), Issues s n i →
    isOp 0x0C [if lm then 4 else 3] i = true → (∀ e ∈ assayExc s n i lm, e.1 = false) → noteKeys (s.core n) i i.s2 (!lm) = s.core n →
    let c := s.core n
    let sent := assaySent s n i lm
    ∀ u k, assayTab s n i = some (u, k) → (assayQueue s u).length + sent.length ≤ 256 → s.io.enabled (bAssayer u) = true →
      ∃ t, exec (if lm then .vtAssayLm n else .vtAssay n) s = .next t ∧
        assayQueue t u = assayQueue s u ++ sent ∧ (∀ v, v ≠ u → assayQueue t v = assayQueue s v) ∧
        t.assay = { s.assay with queue := t.assay.queue } ∧ t = { s with io := t.io, cores := t.cores, assay := t.assay } ∧
        Io.OnlyRegs [bCarter n, bCore n] s.io t.io ∧ (∀ m, m ≠ n → t.core m = s.core m) ∧
        (sent ≠ [] → ∃ w, t.core n = { c with asks := c.asks + 1, assay := c.assay ++ [w], pc := c.pc + 8 } ∧
          w.serial = c.asks + 1 ∧ w.dst = i.dst ∧ w.mreg = i.s3 % 8 ∧ w.left = sent.length ∧ w.got = [] ∧ w.zm = i.zm ∧
          (w.wide = true ↔ lm = false ∧ AssayTab.wide s u k = true) ∧ (∀ l, l < 64 → bitOf w.act l = c.active i l)) ∧
        (sent = [] → (∀ l, l < 64 → c.active i l = true → (t.core n).vl i.dst l = 0 ∧ bitOf ((t.core n).mr (i.s3 % 8)) l = false) ∧
          (t.core n).pc = c.pc + 8)

/-- R234, R236, R238 and R249.  `verify` compares a key with its entry, `assayAnswer` brings a lane's answer to its core. -/
def Obligations.AssayLookupAnswersTheBestVerifiedEntry : Prop :=
  (∀ (s : State) (u k f : Nat) (key : List Byte) (long : Bool),
    (∀ e ∈ candidates s u k f, (shadowRow s e.2).bad = false ∧ (shadowRow s e.2).fp = f ∧ (shadowRow s e.2).valid = true ∧
      (arrRow s e.2).valid = true ∧ (arrRow s e.2).fp = f) →
    let v := (candidates s u k f).filter (fun e => (verify s u k e.1 key long).1)
    let r := lookup s u k f key long
    r.1 = { s with io := r.1.io } ∧ r.2.2.2.1 = (candidates s u k f).length ∧
    (v = [] → r.2.1 = none) ∧
    (v ≠ [] → ∃ e ∈ v, r.2.1 = some (shadowRow s e.2) ∧ ∀ d ∈ v, (shadowRow s d.2).prio ≤ (shadowRow s e.2).prio)) ∧
  (∀ (s : State) (unit : Nat) (q : AssayReq) (rest : List AssayReq), assayQueue s unit = q :: rest →
    AssayTab.lost s q.unit q.slot = false → AssayTab.valid s q.unit q.slot = true →
    let s' := setAssayQueue s unit rest
    (q.lm = false → exec (.assayLookup unit []) s = .next
      (let r := lookup s' q.unit q.slot q.word q.key q.long
       assayAnswer r.1 q ((r.2.1.map (fun x => x.payload)).getD 0) (wideWord r.2.1 r.2.2.1 r.2.2.2.1 r.2.2.2.2) r.2.1.isSome
         (2 * b2n r.2.1.isNone + 4 * b2n (decide (0 < r.2.2.2.2))))) ∧
    (q.lm = true → exec (.assayLmSearch unit []) s = .next
      (let r := assayLm s' q.unit q.slot q.key (bitsOf q.word 6 0) (bitsOf q.word 14 8) (q.word / 2 ^ 32)
       let len := bitsOf r.2.best 24 18
       assayAnswer r.1 q (min 7 r.2.probes * 2 ^ 25 + r.2.best % 2 ^ 25) 0 (decide (len ≠ 0)) (2 * b2n (decide (len = 0)) + 4 * b2n (decide (0 < r.2.bad)))))) ∧
  (∀ (s : State) (q : AssayReq) (p st fl : Nat) (hit : Bool) (w : AssayWait), (s.core q.core).assay.find? (fun w => w.serial == q.serial) = some w →
    (2 ≤ w.left → ((assayAnswer s q p st hit fl).core q.core).v = (s.core q.core).v) ∧
    (w.left = 1 → w.wide = false → ∀ l, l < 64 → bitOf w.act l = true →
      let a := ((w.got ++ [(q.lane, p, st, hit)]).find? (fun g => g.1 == l)).getD (l, 0, 0, false)
      ((assayAnswer s q p st hit fl).core q.core).vl w.dst l = a.2.1 % 2 ^ 32 ∧
      bitOf (((assayAnswer s q p st hit fl).core q.core).mr w.mreg) l = a.2.2.2))

/-- R229, R230, R241, R242 and R249.  `AssayTab.rowOf` is the row of an entry (R225), `assayImage` an image of Table 8.3. -/
def Obligations.AssayTablesAreLoadedScrubbedAndSeeded : Prop :=
  (∀ (s : State) (c : Cmd) (x : Ctx) (u k : Nat), c.context s = some x → assayBind s x.svc (c.p 0x10 1) x.home = some (u, k) →
    AssayTab.lost s u k = false → c.p 0x14 4 + c.p 0x18 4 ≤ AssayTab.entries s u k →
    let first := c.p 0x14 4
    let count := c.p 0x18 4
    let row := AssayTab.rowOf s u k
    let invalid := fun (t : State) (r : Nat) => shadowRow t r = { shadowRow s r with valid := false, bad := false } ∧
      arrRow t r = { shadowRow s r with valid := false, bad := false }
    let others := fun (t : State) (a n : Nat) => ∀ r, (∀ j, j < n → r ≠ row (a + j)) → arrRow t r = arrRow s r ∧ shadowRow t r = shadowRow s r
    (c.p 0x11 1 = 1 → c.p 0x12 2 = 0 → ∃ t, exec (.assayLoad c) s = .next (finish t c Code.OK (leBytes 4 count)) ∧
      (∀ j, j < count → invalid t (row (first + j))) ∧ others t first count ∧ t = { s with io := t.io, assay := t.assay }) ∧
    (c.p 0x11 1 = 2 → c.p 0x12 2 = 0 → first = 0 → count = 0 →
      ∃ t, exec (.assayLoad c) s = .next (finish t c Code.OK (leBytes 4 (AssayTab.entries s u k))) ∧
        (∀ j, j < AssayTab.entries s u k → invalid t (row j)) ∧ others t 0 (AssayTab.entries s u k) ∧ t = { s with io := t.io, assay := t.assay }) ∧
    (∀ d, c.p 0x11 1 = 0 → imageDesc s c = some d → descFault s d 0 (2 * count) false = none → tHeld s d.tier d.base = false →
      let image := fun j => assayImage (AssayTab.lm s u k) (leBytes 8 (elemCode s 0 d (d.coords (2 * j))) ++ leBytes 8 (elemCode s 0 d (d.coords (2 * j + 1))))
      (∀ j, j < count → image j ≠ none) →
      ∃ t, exec (.assayLoad c) s = .next (finish t c Code.OK (leBytes 4 count)) ∧
        (∀ j, j < count → (∀ j', j < j' → j' < count → row (first + j') ≠ row (first + j)) →
          some (arrRow t (row (first + j))) = image j ∧ some (shadowRow t (row (first + j))) = image j) ∧
        others t first count ∧ t = { s with io := t.io, assay := t.assay })) ∧
  (∀ (s : State) (unit : Nat), unit < 12 →
    let pos := s.io.bf (bAssayer unit) Off.assayer_SCRUB_POS 14 0
    let r := unit * 32768 + pos
    ∃ t, exec (.scrubRow unit []) s = .next t ∧ t.io.bf (bAssayer unit) Off.assayer_SCRUB_POS 14 0 = (pos + 1) % 32768 ∧
      (∀ q, q ≠ r → arrRow t q = arrRow s q ∧ shadowRow t q = shadowRow s q) ∧
      ((shadowRow s r).bad = false → arrRow t r = shadowRow s r ∧ shadowRow t r = shadowRow s r) ∧
      ((shadowRow s r).bad = true → (arrRow t r).valid = false ∧ (shadowRow t r).valid = false) ∧
      t = { s with io := t.io, assay := t.assay } ∧ Io.OnlyEvents [bAssayer unit] s.io t.io) ∧
  (∀ (s : State) (who : Requester) (unit slot : Nat) (v : W64), unit < 12 → slot < 16 →
    let off := (bAssayer unit).base + Off.assayer_FP_SEED_LO + 0x40 * slot
    writeAllowed s.io who (bAssayer unit) off = none →
    ((AssayTab.valid s unit slot = false ∨ tableValid s unit slot = 0) → ∃ t, exec (.fpSeedWrite who unit slot v) s = .next t ∧
      t.io.reg64 off = v.toNat ∧ t = { s with io := t.io } ∧ Io.OnlyRegs [bAssayer unit] s.io t.io) ∧
    (AssayTab.valid s unit slot = true → 0 < tableValid s unit slot →
      exec (.fpSeedWrite who unit slot v) s = .next { s with io := s.io.capture (bAssayer unit) Code.TABLE_BUSY off }))

/-- R41, whole. -/
def Obligations.OtherAccessFormsAreRefused : Prop :=
  ∀ (s : State) (who : Requester) (off size : Nat) (v : W64), reaches s who off = true →
    let page := match pageAt off with | some (b, _) => b | none => bGlb
    (size = 4 ∧ off % 4 = 0 →
      exec (.rcFieldRead who off size) s = .next (read4 s who off) ∧ exec (.registerWrite who off size v) s = .next (writeAt s who off (v.toNat % 2 ^ 32))) ∧
    (size = 8 ∧ off % 8 = 0 →
      exec (.rcFieldRead who off size) s = .next (read8 s off) ∧ exec (.registerWrite who off size v) s = .next (write8 s who off v.toNat)) ∧
    (¬ (size = 4 ∧ off % 4 = 0) → ¬ (size = 8 ∧ off % 8 = 0) →
      (∃ t, exec (.rcFieldRead who off size) s = .next t ∧ t.io.read = List.replicate ((size + 3) / 4) 0xFFFFFFFF ∧
        t = { s with io := { s.io.capture page Code.BAD_ACCESS off with read := t.io.read } }) ∧
      exec (.registerWrite who off size v) s = .next { s with io := s.io.capture page Code.BAD_ACCESS off })

/-- R43 and R44, whole, for the two forms of access of R41. -/
def Obligations.WritesFollowHostWrAndReady : Prop :=
  ∀ (s : State) (who : Requester) (off : Nat) (b : Block) (p : Nat) (v : W64), pageAt off = some (b, p) → off % 4 = 0 → reaches s who off = true →
    let o := off % 0x1000
    let word := v.toNat % 2 ^ 32
    (s.io.ready b = true →
      (who = .host → b.hostWr = false → (o = 0x008 ∨ (0x040 ≤ o ∧ fieldsAt off ≠ [])) →
        exec (.registerWrite who off 4 v) s = .next { s with io := s.io.capture b Code.HOST_WRITE_DENIED off } ∧
        (off % 8 = 0 → 0x040 ≤ o → isPairLo off = true →
          exec (.registerWrite who off 8 v) s = .next { s with io := s.io.capture b Code.HOST_WRITE_DENIED off })) ∧
      ((o = 0x010 ∨ o = 0x014 ∨ o = 0x018 ∨ o = 0x01C) → exec (.registerWrite who off 4 v) s = .next (headerWrite s who b o word)) ∧
      (isPairLo (normOff off) = false → isPairHi (normOff off) = false → ∃ t, exec (.rcFieldRead who off 4) s = .next t ∧
        t.io.read = [BitVec.ofNat 32 (readable (fieldsAt (normOff off)) (shownWord s off))])) ∧
    (s.io.ready b = false →
      (∃ t, exec (.rcFieldRead who off 4) s = .next t ∧
        t.io.read = [if 0x040 ≤ o then 0 else BitVec.ofNat 32 (readable (fieldsAt (normOff off)) (shownWord s off))]) ∧
      (o ≠ 0x014 → exec (.registerWrite who off 4 v) s = .next { s with io := s.io.capture bGlb Code.WRITE_NOT_READY off }) ∧
      (o = 0x014 → exec (.registerWrite who off 4 v) s = .next { s with io := s.io.writeMask b word }) ∧
      (off % 8 = 0 → 0x040 ≤ o → ∃ io, exec (.registerWrite who off 8 v) s = .next { s with io := io } ∧
        Io.OnlyEvents [bGlb] s.io io ∧ bitOf (io.br bGlb 0x01C) 31 = true ∧ io.br bGlb 0x028 ≠ 0))

/-- R40, whole; `Io.classOf` is the class that Table 20.3 gives a code, and Table 2.10 lets ERR_COUNT saturate. -/
def Obligations.ErrorCaptureKeepsTheFirstError : Prop :=
  ∀ (s : State) (b : Block), b.valid = true →
    let captured := fun (io : Io) (code addr : Nat) =>
      io.br b 0x01C = 2 ^ 31 + Io.classOf code * 2 ^ 16 + code ∧ io.reg64 (b.base + 0x020) = addr % 2 ^ 64
    (∀ code addr, code < 2 ^ 16 →
      let u := s.io.capture b code addr
      (bitOf (s.io.br b 0x01C) 31 = false → captured u code addr) ∧
      (bitOf (s.io.br b 0x01C) 31 = true → u.br b 0x01C = putBits (s.io.br b 0x01C) 30 30 1 ∧ u.reg64 (b.base + 0x020) = s.io.reg64 (b.base + 0x020)) ∧
      u.br b 0x028 = min 0xFFFFFFFF (s.io.br b 0x028 + 1)) ∧
    (∀ who, reaches s who (b.base + 0x01C) = true → s.io.ready b = true →
      (∃ t, exec (.errCaptClear who b none) s = .next t ∧ t.io.br b 0x01C = 0 ∧ t.io.reg64 (b.base + 0x020) = 0 ∧
        t = { s with io := { s.io with regs := t.io.regs } } ∧ Io.OnlyRegs [b] s.io t.io) ∧
      (∀ code addr, code < 2 ^ 16 → ∃ t, exec (.errCaptClear who b (some (code, addr))) s = .next t ∧ captured t.io code addr ∧
        t = { s with io := t.io } ∧ Io.OnlyEvents [b] s.io t.io))

/-- R11 and R42; pages that are ready and whose writes HOST_WR allows.  `applyWrite` follows the access kinds of R11. -/
def Obligations.RegisterPairsAreReadAndWrittenWhole : Prop :=
  ∀ (s : State) (who : Requester) (off : Nat) (b : Block) (p : Nat), pageAt off = some (b, p) → 0x040 ≤ off % 0x1000 → off % 8 = 0 →
    isPairLo off = true → isPairHi off = false → isPairLo (off + 4) = false → pageAt (off + 4) = some (b, p) → s.io.ready b = true →
    reaches s who off = true → reaches s who (off + 4) = true →
    let other := fun (w : Requester) => if w = .host then Requester.factor else .host
    (∃ t, exec (.pairLoRead who off) s = .next t ∧ t.io.read = [readWord s off] ∧ snapOf t.io who = some (off, readWord s (off + 4)) ∧
      snapOf t.io (other who) = snapOf s.io (other who)) ∧
    (∀ hi, snapOf s.io who = some (off, hi) → ∃ t, exec (.pairHiRead who (off + 4)) s = .next t ∧ t.io.read = [hi] ∧ snapOf t.io who = none ∧
      t = { s with io := { setSnap s.io who none with read := [hi] } }) ∧
    ((∀ hi, snapOf s.io who ≠ some (off, hi)) →
      exec (.pairHiRead who (off + 4)) s = .next { s with io := { s.io with read := [readWord s (off + 4)] } }) ∧
    (∃ t, exec (.rcFieldRead who off 8) s = .next t ∧ t.io.read = [readWord s off, readWord s (off + 4)] ∧
      snapOf t.io .host = snapOf s.io .host ∧ snapOf t.io .factor = snapOf s.io .factor) ∧
    (writeRefused s who b off = none → ∀ v : W32, exec (.pairLoWrite who off v) s = .next { s with io := setStaged s.io who (some (off, v)) }) ∧
    (writeRefused s who b (off + 4) = none → b.kind ≠ .ctxt → b.kind ≠ .assayer → b.kind ≠ .evtq →
      keepsOnZero b (off - b.base) = [] → keepsOnZero b (off + 4 - b.base) = [] → ∀ v : W32,
      ∃ t, exec (.pairHiWrite who (off + 4) v) s = .next t ∧
        t.io.reg off = applyWrite (fieldsAt off) (s.io.reg off) (match stagedOf s.io who with
          | some (a, lo) => if a = off then lo.toNat else s.io.reg off
          | none => s.io.reg off) % 2 ^ 32 ∧
        t.io.reg (off + 4) = applyWrite (fieldsAt (off + 4)) (s.io.reg (off + 4)) v.toNat % 2 ^ 32 ∧
        (∀ lo, stagedOf s.io who = some (off, lo) → stagedOf t.io who = none) ∧ stagedOf t.io (other who) = stagedOf s.io (other who) ∧
        (∀ a, normOff a ≠ off → normOff a ≠ off + 4 → t.io.reg a = s.io.reg a) ∧ t = { s with io := t.io }) ∧
    (∀ f o v, applyWrite [f] o v = match f.acc with
      | .rw => putBits o f.hi f.lo (bitsOf v f.hi f.lo)
      | .w1c => putBits o f.hi f.lo (Nat.land (bitsOf o f.hi f.lo) (2 ^ (f.hi + 1 - f.lo) - 1 - bitsOf v f.hi f.lo))
      | .w1s => putBits o f.hi f.lo (Nat.lor (bitsOf o f.hi f.lo) (bitsOf v f.hi f.lo))
      | .ro | .rc | .wo => o)

/-- R38, R39, R142 and R507; the states are those whose BLK_CTRL holds no write-only bit, and the records those that find room (R529). -/
def Obligations.HeaderRegistersControlTheirBlock : Prop :=
  ∀ (s : State) (who : Requester) (b : Block), b.valid = true → reaches s who b.base = true → reaches s who (b.base + 0x008) = true →
    reaches s who (b.base + 0x014) = true → reaches s who (b.base + 0x018) = true → s.io.ready b = true →
    let room := s.io.intake.length < 4096 ∧ s.io.held = []
    let add := fun (r : EvRec) => s.io.intake ++ [{ r with afterLoss := s.io.srcLoss.contains r.src }]
    ((who = .host → b.hostWr = true) → bitOf (s.io.br b 0x008) 1 = false → bitOf (s.io.br b 0x008) 9 = false →
      (∀ on, ∃ t, exec (.enableWrite who b on) s = .next t ∧
        t.io.br b 0x008 = putBits (s.io.br b 0x008) 0 0 (if b.kind.alwaysOn || on then 1 else 0) ∧
        (b.kind ≠ .reelLink → b.kind ≠ .carter → b.kind ≠ .fcore → t = { s with io := { s.io with regs := t.io.regs } } ∧ Io.OnlyRegs [b] s.io t.io)) ∧
      ((fieldsAt (b.base + 0x008)).any (fun f => decide (f.lo = 9) && f.acc == .wo) = true → (b.kind = .reelLink → s.io.enabled b = true) → ∃ t, exec (.ctrClear who b) s = .next t ∧
        ∀ r ∈ regsOf b.kind, isCounter b.kind r = true → ∀ o ∈ r.offsets, t.io.reg (b.base + o) = 0)) ∧
    (∀ v : W32, ∃ t, exec (.evtMaskWrite who b v) s = .next t ∧ t = { s with io := t.io } ∧ Io.OnlyEvents [b] s.io t.io ∧
      t.io.br b 0x014 = v.toNat ∧
      ((∀ k, k < 32 → bitOf (s.io.br b 0x010) k = true → bitOf (s.io.br b 0x014) k = true → bitOf v.toNat k = true) → t.io.intake = s.io.intake) ∧
      (∀ k r, k < 32 → room → bitOf (s.io.br b 0x010) k = true → bitOf (s.io.br b 0x014) k = true → bitOf v.toNat k = false →
        (∀ j, j < 32 → j ≠ k → bitOf (s.io.br b 0x010) j = true → bitOf (s.io.br b 0x014) j = true → bitOf v.toNat j = true) →
        smGet none (Io.occKey b k) s.io.occ = some r → t.io.intake = add { r with ts := s.io.tb })) ∧
    (∀ k, k ∈ Io.eventBits b → bitOf (s.io.br b 0x010) k = false → ∃ t, exec (.evtForce who b (BitVec.ofNat 32 (2 ^ k))) s = .next t ∧
      t = { s with io := t.io } ∧ Io.OnlyEvents [b] s.io t.io ∧ t.io.br b 0x010 = putBits (s.io.br b 0x010) k k 1 ∧
      (bitOf (s.io.br b 0x014) k = true → t.io.intake = s.io.intake) ∧
      (bitOf (s.io.br b 0x014) k = false → room → t.io.intake = add (s.io.forcedRec b k (putBits (s.io.br b 0x010) k k 1)) ∧
        (s.io.forcedRec b k (putBits (s.io.br b 0x010) k k 1)).forced = true)) ∧
    ((who = .host → b.hostWr = true) → s.rst.device = none → s.rst.units = [] → ∀ v : W32, bitOf v.toNat 1 = true →
      ∃ t, exec (.blkCtrlReset who b v) s = .next t ∧ t.rst = { s.rst with units := [⟨.block b, 12, false⟩] } ∧
        t.io.ready b = false)

/-- R48 to R51 and Table 2.13; `featureMask` is published at DONE, when the control ring takes the doorbell kept before. -/
def Obligations.DriverNegotiationFollowsR48AndR49 : Prop :=
  ∀ (s : State),
    let drv := bGlb.base + Off.glb_DRV_VER
    (∀ (who : Requester) (v : W32), reaches s who drv = true → s.io.ready bGlb = true →
      let busy := s.adm.ctxs ≠ [] ∨ s.adm.cmds.any (fun r => decide (r.cmd.ring = 0)) = true
      (busy → exec (.drvVerWrite who v) s = .next { s with io := s.io.capture bGlb Code.DRV_VER_BUSY drv }) ∧
      (¬ busy → bitsOf v.toNat 31 24 = 0 → ∃ t, exec (.drvVerWrite who v) s = .next t ∧ t.io.reg drv = v.toNat ∧
        t.io.reg64 (bGlb.base + Off.glb_FEAT_LO) = 0 ∧ negState t.io = 0 ∧ t.ring? 0 = none ∧ t.host.keptDb = none ∧
        t.io.br bCtxt Off.ctxt_CTRL_SQ_BASE_LO = s.io.br bCtxt Off.ctxt_CTRL_SQ_BASE_LO ∧
        t.io.br bCtxt Off.ctxt_CTRL_CQ_BASE_LO = s.io.br bCtxt Off.ctxt_CTRL_CQ_BASE_LO ∧
        Io.OnlyRegs [bGlb, bCtxt] s.io t.io ∧ t = { s with io := t.io, host := t.host }) ∧
      (¬ busy → bitsOf v.toNat 31 24 ≠ 0 → ∃ t, exec (.drvVerWrite who v) s = .next t ∧ t.io.reg drv = v.toNat ∧ negState t.io = 1 ∧
        (negState s.io = 2 ∨ negState s.io = 3 → t.ring? 0 = none) ∧ (negState s.io < 2 → t.host = s.host) ∧
        Io.OnlyRegs [bGlb, bCtxt] s.io t.io ∧ t = { s with io := t.io, host := t.host })) ∧
    (negState s.io = 1 → bitOf (devStat s) 0 = true → facServes s = true →
      let yes := s.io.bf bGlb Off.glb_DRV_VER 31 24 = 1 ∧ s.fac.lc ≠ 0 ∧ s.fac.lc ≠ 4
      ∃ t, exec .negotiation s = .next t ∧ Io.OnlyRegs [bGlb] s.io t.io ∧ t = { s with io := t.io, host := t.host } ∧
        (yes → negState t.io = 2 ∧ t.io.bf bGlb Off.glb_NEG_STAT 31 24 = 1 ∧ t.io.bf bGlb Off.glb_NEG_STAT 23 16 = 0 ∧
          t.io.reg64 (bGlb.base + Off.glb_FEAT_LO) = featureMask s ∧
          (∀ r k, s.ring? 0 = some r → s.host.keptDb = some k → t.ring? 0 = some { r with sqTail := k } ∧ t.host.keptDb = none)) ∧
        (¬ yes → negState t.io = 3 ∧ t.io.reg64 (bGlb.base + Off.glb_FEAT_LO) = s.io.reg64 (bGlb.base + Off.glb_FEAT_LO) ∧ t.host = s.host)) ∧
    bitOf (featureMask s) 0 = true ∧
    (bitOf (featureMask s) 1 = true ↔ ∃ c ∈ s.mem.ddrUp, s.mem.lost.contains ⟨.ddr, c⟩ = false) ∧
    (bitOf (featureMask s) 3 = true ↔ ∃ l, l < 12 ∧ (s.link l).st = 4) ∧ bitOf (featureMask s) 7 = bitOf (featureMask s) 3 ∧
    bitOf (featureMask s) 4 = !s.io.isOffline bAdmit ∧ bitOf (featureMask s) 5 = (s.host.atsEn && s.host.priEn) ∧
    bitOf (featureMask s) 9 = decide (s.fac.lc = 3) ∧ featureMask s < 2 ^ 10

/-- R399 to R406; on tier 3 a poisoned check line leaves the data unpoisoned, and a write restores it. -/
def Obligations.MemoryControllersCorrectPoisonAndScrub : Prop :=
  (∀ errs, correctable errs 0 = decide (errs.length ≤ 4)) ∧
  (∀ errs g, g ≤ 8 → correctable errs (2 ^ g) = errs.all (fun i => symGroup i == g)) ∧
  ∀ (s : State) (b : Block),
    let up := fun (o n : Nat) => if s.io.frozen b then s.io.br b o else min 0xFFFFFFFF (s.io.br b o + n)
    let up64 := fun (o n : Nat) => if s.io.frozen b then s.io.reg64 (b.base + o) else min 0xFFFFFFFFFFFFFFFF (s.io.reg64 (b.base + o) + n)
    (∀ a errs cp, s.mem.controller a = some b → b.valid = true →
      let l := a / 64
      let m := s.mem.sample s.io a
      ∃ t, exec (.memoryRead b a errs cp) s = .next t ∧ Io.OnlyEvents [b] s.io t.io ∧
        t = { s with io := t.io, mem := { m with poison := t.mem.poison, checkLost := t.mem.checkLost, writeBack := t.mem.writeBack, groupErrs := t.mem.groupErrs } } ∧
        (b.kind = .cxl ∧ cp = true → t.mem.poison = s.mem.poison ∧ t.mem.writeBack = s.mem.writeBack ∧ t.io.br b Off.cxl_CHECK_LOST = up Off.cxl_CHECK_LOST 1 ∧
          t.mem.checkLost = (b.inst * 2 ^ 40 + (l * 64 - (if b.inst = 0 then 0x40000000000 else 0x60000000000)) / 512) :: s.mem.checkLost) ∧
        (¬ (b.kind = .cxl ∧ cp = true) →
          (s.mem.poisoned l = true → t.io.br b Off.hbm_POISON_RD = up Off.hbm_POISON_RD 1 ∧ t.io.intake = s.io.intake ∧ t.mem = m) ∧
          (s.mem.poisoned l = false → errs = [] → t.io = s.io ∧ t.mem = m) ∧
          (s.mem.poisoned l = false → errs ≠ [] → correctable errs (s.io.br b Off.hbm_MARKS) = true →
            t.mem.poison = s.mem.poison ∧ t.mem.writeBack = l :: s.mem.writeBack ∧ bitOf (t.io.br b 0x010) 2 = true ∧
            t.io.reg64 (b.base + Off.hbm_CORRECTED_LO) = up64 Off.hbm_CORRECTED_LO 1 ∧
            (∀ g, b.kind ≠ .cxl → errs.all (fun i => symGroup i == g) = true →
              let n := smGet 0 (b.base * 16 + g) s.mem.groupErrs + errs.length
              let th := s.io.bf b Off.hbm_MARK_CFG 7 0
              smGet 0 (b.base * 16 + g) t.mem.groupErrs = n ∧
              t.io.br b Off.hbm_MARKS = (if th ≠ 0 ∧ th ≤ n ∧ s.io.br b Off.hbm_MARKS = 0 then 2 ^ g % 2 ^ 32 else s.io.br b Off.hbm_MARKS)) ∧
            ((b.kind = .cxl ∨ ∀ g, errs.all (fun i => symGroup i == g) = false) → t.io.br b Off.hbm_MARKS = s.io.br b Off.hbm_MARKS)) ∧
          (s.mem.poisoned l = false → errs ≠ [] → correctable errs (s.io.br b Off.hbm_MARKS) = false →
            (∀ k, t.mem.poisoned k = (decide (k = l) || s.mem.poisoned k)) ∧ t.mem.writeBack = s.mem.writeBack ∧
            t.io.reg64 (b.base + Off.hbm_LAST_UE_LO) = l * 64 ∧ t.io.br b Off.hbm_UNCORR = up Off.hbm_UNCORR 1 ∧ t.io.br b Off.hbm_POISON_WR = up Off.hbm_POISON_WR 1 ∧
            t.io.br b Off.hbm_POISON_RD = up Off.hbm_POISON_RD 1 ∧ bitOf (t.io.br b 0x010) 3 = true))) ∧
    (∀ a bs p, s.mem.controller a = some b → b.valid = true →
      let ls := linesOf a bs.length
      ∃ t, exec (.memoryWrite a bs p) s = .next t ∧ Io.OnlyRegs [b] s.io t.io ∧
        (∀ x, t.mem.byte x = if a ≤ x ∧ x < a + bs.length then bs.getD (x - a) 0 else s.mem.byte x) ∧
        (∀ k, t.mem.poisoned k = if ls.contains k then p || (s.mem.poisoned k && !(decide (a ≤ k * 64) && decide (k * 64 + 64 ≤ a + bs.length))) else s.mem.poisoned k) ∧
        t.mem.writeBack = s.mem.writeBack.filter (fun l => !ls.contains l) ∧
        t.io.br b Off.hbm_WB_DROPPED = up Off.hbm_WB_DROPPED (s.mem.writeBack.filter (fun l => ls.contains l)).length ∧
        t.io.br b Off.hbm_POISON_WR = up Off.hbm_POISON_WR (if p then ls.length else 0) ∧
        (∀ g, t.mem.checkLost.contains g = true → s.mem.checkLost.contains g = true ∧
          (b.kind = .cxl → ∀ l ∈ ls, g ≠ b.inst * 2 ^ 40 + (l * 64 - (if b.inst = 0 then 0x40000000000 else 0x60000000000)) / 512)) ∧
        t = { s with io := t.io, mem := { s.mem.sample s.io a with dev := t.mem.dev, poison := t.mem.poison, writeBack := t.mem.writeBack, checkLost := t.mem.checkLost } }) ∧
    (∀ errs, isController b = true →
      let n := smGet 0 b.base s.mem.scrubPos
      let total := (scrubSpan s.mem b).2
      let a := scrubAddr s.mem b n
      (s.io.bf b Off.hbm_SCRUB_CFG 15 0 = 0 → exec (.memScrub b errs) s = .next s) ∧
      (s.io.bf b Off.hbm_SCRUB_CFG 15 0 ≠ 0 → 0 < total → ∃ t, exec (.memScrub b errs) s = .next t ∧ Io.OnlyEvents [b] s.io t.io ∧
        smGet 0 b.base t.mem.scrubPos = (if n + 1 < total then n + 1 else 0) ∧
        (total ≤ n + 1 → bitOf (t.io.br b 0x010) 5 = true) ∧
        (s.mem.moving a = true → t.mem.poison = s.mem.poison ∧ t.io.reg64 (b.base + Off.hbm_SCRUBBED_LO) = s.io.reg64 (b.base + Off.hbm_SCRUBBED_LO)) ∧
        (s.mem.moving a = false → t.io.reg64 (b.base + Off.hbm_SCRUBBED_LO) = up64 Off.hbm_SCRUBBED_LO 1) ∧
        (s.mem.moving a = false → s.mem.poisoned (a / 64) = true → t.mem.poison = s.mem.poison) ∧
        (s.mem.moving a = false → s.mem.poisoned (a / 64) = false → ∀ k, t.mem.poisoned k =
          (s.mem.poisoned k || decide (k = a / 64) && decide (errs ≠ []) && !correctable errs (s.io.br b Off.hbm_MARKS))) ∧
        (∀ x, t.mem.byte x = s.mem.byte x) ∧
        t = { s with io := t.io, mem := { s.mem with scrubPos := t.mem.scrubPos, poison := t.mem.poison, writeBack := t.mem.writeBack, groupErrs := t.mem.groupErrs } }))

/-- R30, R31 and Table 15.4; what a read of a lost unit returns is open (log entry 36), and so is SLOT_CN of an unbound slot. -/
def Obligations.HostAperturesReachTheirMemory : Prop :=
  ∀ (s : State) (off len : Nat),
    (s.rst.power = .d0 ∨ s.rst.power = .d3pend →
      (apertureAddr s.io off = none →
        (∃ t, exec (.apertureAccess off len none false) s = .next t ∧ t.io.readBytes = List.replicate len 0 ∧ t.io.readEp = false ∧
          t = { s with io := { s.io with readBytes := t.io.readBytes, readEp := t.io.readEp } }) ∧
        ∀ bs, exec (.apertureAccess off len (some bs) false) s = .next s) ∧
      ∀ a, apertureAddr s.io off = some a →
        let held := s.mem.mapped a = true ∧ (s.mem.moving a = true ∨ (s.mem.controller a).any (fun b => s.io.notReady.contains b) = true)
        let ok := fun (n : Nat) => (linesOf a n).all (fun l => s.mem.mapped (l * 64))
        let lost := fun (n : Nat) => (s.mem.rangeFault a n).any (fun e => e.1 = Code.TIER_OFFLINE)
        (held → ∀ bs, exec (.apertureAccess off len (some bs) false) s =
            .next { s with mem := { s.mem with heldAcc := s.mem.heldAcc ++ [⟨a, bs.length, some bs, false⟩] } } ∧
          exec (.apertureAccess off len none false) s = .next { s with mem := { s.mem with heldAcc := s.mem.heldAcc ++ [⟨a, len, none, false⟩] } }) ∧
        (¬ held →
          (∀ bs ep, ok bs.length = true → lost bs.length = false → ∃ t, exec (.apertureAccess off len (some bs) ep) s = .next t ∧
            (∀ x, t.mem.byte x = if a ≤ x ∧ x < a + bs.length then bs.getD (x - a) 0 else s.mem.byte x) ∧
            (ep = true → ∀ l ∈ linesOf a bs.length, t.mem.poisoned l = true) ∧
            (∀ l, (linesOf a bs.length).contains l = false → t.mem.poisoned l = s.mem.poisoned l) ∧
            Io.OnlyRegs [bPcie] s.io t.io ∧
            t = { s with io := t.io, mem := { s.mem with dev := t.mem.dev, poison := t.mem.poison, sketch := t.mem.sketch, sampleCt := t.mem.sampleCt } }) ∧
          (ok len = true → lost len = false → ∃ t, exec (.apertureAccess off len none false) s = .next t ∧
            t.io.readBytes = s.mem.bytes a len ∧ t.io.readEp = s.mem.anyPoison a len ∧
            t = { s with io := { s.io with readBytes := t.io.readBytes, readEp := t.io.readEp }, mem := { s.mem with sketch := t.mem.sketch, sampleCt := t.mem.sampleCt } }) ∧
          (∀ bs, ok bs.length = false → exec (.apertureAccess off len (some bs) false) s = .next { s with io := s.io.capture bGlb Code.ADDR_UNMAPPED a }) ∧
          (ok len = false → ∃ t, exec (.apertureAccess off len none false) s = .next t ∧ t.io.readBytes = List.replicate len 0 ∧
            t = { s with io := { s.io.capture bGlb Code.ADDR_UNMAPPED a with readBytes := t.io.readBytes, readEp := false } }) ∧
          (∀ bs, ok bs.length = true → lost bs.length = true → exec (.apertureAccess off len (some bs) false) s =
            .next { s with io := s.io.capture bGlb Code.TIER_OFFLINE a }) ∧
          (ok len = true → lost len = true → ∃ t, exec (.apertureAccess off len none false) s = .next t ∧ t.io.readBytes.length = len ∧
            t = { s with io := { s.io.capture bGlb Code.TIER_OFFLINE a with readBytes := t.io.readBytes, readEp := false, free := s.io.free + 1 } }))) ∧
    (railsUp s = true →
     let inside := fun (x : Nat) => 0x1000000 ≤ x ∧ x < 0x3FF0000
     let put := fun (o : Nat) (bs : List Byte) => Instr.ringAreaAccess o 0 (some bs)
     let got := fun (o n : Nat) (u : State) (bs : List Byte) => exec (.ringAreaAccess o n none) u =
       .next { u with io := { u.io with readBytes := bs, readEp := false } }
     (inside off →
       (∀ bs, ∃ t, exec (put off bs) s = .next t ∧ t = { s with mem := { s.mem with ring := t.mem.ring } } ∧
         ∀ x, t.mem.ringByte x = if inside x ∧ off ≤ x ∧ x < off + bs.length then bs.getD (x - off) 0 else s.mem.ringByte x) ∧
       ∃ bs, got off len s bs ∧ bs.length = len ∧ ∀ i, i < len → bs.getD i 0 = if inside (off + i) then s.mem.ringByte (off + i) else 0) ∧
     (off < 0x1000000 →
       let form := fun (n : Nat) => (n = 4 ∧ off % 4 = 0) ∨ (n = 8 ∧ off % 8 = 0)
       let refused := { s with io := s.io.capture bCtxt Code.BAD_ACCESS off }
       let slot := off / 4096
       (∀ bs, ¬ form bs.length → exec (put off bs) s = .next refused) ∧
       (¬ form len → exec (.ringAreaAccess off len none) s =
         .next { refused with io := { refused.io with readBytes := List.replicate (4 * cdiv len 4) 0xFF, readEp := false } }) ∧
       (∀ bs, bs.length = 4 → off % 4 = 0 →
         let v : W32 := BitVec.ofNat 32 (leNat bs)
         (off % 4096 = 0 → exec (put off bs) s = exec (.sqDb slot v) s) ∧
         (off % 4096 = 4 → exec (put off bs) s = exec (.cqDb slot v) s) ∧
         (off % 4096 = 8 → exec (put off bs) s = exec (.cqArm slot v) s) ∧
         (8 < off % 4096 → exec (put off bs) s = .next s)) ∧
       (∀ bs, bs.length = 8 → off % 8 = 0 → ∃ u, exec (put off (bs.take 4)) s = .next u ∧ exec (put off bs) s = exec (put (off + 4) (bs.drop 4)) u) ∧
       (∀ cn r, ((slot = 0 ∧ cn = 0 ∧ s.ring? 0 = some r) ∨ (slot ≠ 0 ∧ s.cnOfSlot slot = some cn ∧ s.ring? (cn + 1) = some r)) →
         (off % 4096 = 0x010 → got off 4 s (leBytes 4 (2 ^ 31 + r.sqHead))) ∧ (off % 4096 = 0x014 → got off 4 s (leBytes 4 cn))) ∧
       (off % 4096 = 0x010 → (slot = 0 → s.ring? 0 = none) → (slot ≠ 0 → ∀ cn, s.cnOfSlot slot = some cn → s.ring? (cn + 1) = none) → got off 4 s (leBytes 4 0)) ∧
       (off % 4 = 0 → off % 4096 ≠ 0x010 → off % 4096 ≠ 0x014 → got off 4 s (leBytes 4 0)) ∧
       (off % 8 = 0 → ∃ u v t, exec (.ringAreaAccess off 4 none) s = .next u ∧ exec (.ringAreaAccess (off + 4) 4 none) u = .next v ∧
         exec (.ringAreaAccess off 8 none) s = .next t ∧ t.io.readBytes = u.io.readBytes ++ v.io.readBytes)) ∧
     (0x3FF0000 ≤ off → off < 0x4000000 → off % 4 = 0 →
       (∀ bs, bs.length = 4 → exec (put off bs) s = exec (.msixVectorUnmask off (BitVec.ofNat 32 (leNat bs))) s) ∧
       ∃ w, got off 4 s (leBytes 4 w) ∧
         (0x3FF8000 ≤ off → w < 2 ^ 32 ∧ ∀ i, i < 32 → bitOf w i = s.host.pba.contains ((off - 0x3FF8000) / 4 * 32 + i)) ∧
         (off < 0x3FF8000 →
           let e := smGet {} ((off - 0x3FF0000) / 16) s.host.msix
           w = if off % 16 = 0 then e.addr % 2 ^ 32 else if off % 16 = 4 then e.addr / 2 ^ 32 else if off % 16 = 8 then e.data else if e.masked then 1 else 0)))

/-- R409 to R413 and R415; the refusal of a page that is already moving is the model's choice (log entry 35), and the environment orders the phases of a move (log entry 71). -/
def Obligations.PlacementMovesPagesToThePoolAndBack : Prop :=
  (∀ (m : MemSt) (v : Move), v.phase = .waiting → v ∉ m.moves → m.moves.Nodup →
    (m.addMove v).running.length ≤ max 16 m.running.length ∧ (m.addMove v).moves.map (fun w => w.page) = m.moves.map (fun w => w.page) ++ [v.page]) ∧
  (∀ (m : MemSt) (frames p c : Nat),
    let busy := (smFind p m.promoted).isSome = true ∨ ∃ v ∈ m.moves, v.page = p
    let may := fun (e : Nat × Nat) => e ∈ m.promoted ∧ m.byRequest.contains e.1 = false ∧ (∀ v ∈ m.moves, v.page ≠ e.1) ∧ homeLost m e.1 = false
    (busy → m.promoteCand frames p c = m) ∧
    (¬ busy → ∀ f, m.freeFrame frames = some f → m.promoteCand frames p c = m.addMove ⟨p, true, f, false, .waiting⟩ ∧
      f < frames ∧ m.hbmUp.contains (f % 8) = true ∧ m.framesUsed.contains f = false) ∧
    (¬ busy → m.freeFrame frames = none →
      (∃ e, may e ∧ (∀ e', may e' → smGet 0 e.1 m.sketch ≤ smGet 0 e'.1 m.sketch) ∧ smGet 0 e.1 m.sketch < c ∧
        m.promoteCand frames p c = (m.addMove ⟨e.1, false, e.2, false, .waiting⟩).addMove ⟨p, true, e.2, false, .waiting⟩) ∨
      ((∀ e, may e → ∃ e', may e' ∧ c ≤ smGet 0 e'.1 m.sketch ∧ smGet 0 e'.1 m.sketch ≤ smGet 0 e.1 m.sketch) ∧ m.promoteCand frames p c = m))) ∧
  ∀ (s : State),
    let frames := s.io.bf bMigr Off.migr_POOL 18 0
    (s.io.enabled bMigr = false → exec .migrEpoch s = .next s) ∧
    (s.io.enabled bMigr = true → ∃ cands : List (Nat × Nat),
      cands.Perm (s.mem.sketch.filter (fun e => decide (s.io.bf bMigr Off.migr_MIGR_CFG 15 0 ≤ e.2))) ∧
      cands.Pairwise (fun e f => f.2 < e.2 ∨ f.2 = e.2 ∧ e.1 ≤ f.1) ∧
      exec .migrEpoch s = .next { s with mem := { cands.foldl (fun m e => m.promoteCand frames e.1 e.2) s.mem with sketch := [], byRequest := [] } }) ∧
    (∀ code, code < 0x10000 → (moveRefused s code).io.br bMigr Off.migr_MOVE_STAT = 3 * 2 ^ 30 + code ∧ bitOf ((moveRefused s code).io.br bMigr 0x010) 2 = true ∧
      Io.OnlyEvents [bMigr] s.io (moveRefused s code).io ∧ moveRefused s code = { s with io := (moveRefused s code).io }) ∧
    (∀ (who : Requester) (pr : Bool), writeAllowed s.io who bMigr (bMigr.base + Off.migr_MOVE_CMD) = none →
      let cmd := if pr then Instr.promote who else Instr.demote who
      let page := s.io.reg64 (bMigr.base + Off.migr_MOVE_ADDR_LO) / 65536
      let home := ∃ w o, windowOf (page * 65536) = some (w, o) ∧ w.tier ≠ 1 ∧ o < s.mem.winLen w ∧ homeLost s.mem page = false
      let inPool := smFind page s.mem.promoted
      let wrong := (∃ v ∈ s.mem.moves, v.page = page) ∨ inPool.isSome = pr
      let idle := s.io.bf bMigr Off.migr_MOVE_STAT 31 30 ≠ 1
      let full := pr = true ∧ s.mem.freeFrame frames = none
      (¬ idle → exec cmd s = .next { s with io := s.io.capture bMigr Code.MOVE_BUSY (bMigr.base + Off.migr_MOVE_CMD) }) ∧
      (idle → ¬ home → exec cmd s = .next (moveRefused s Code.MOVE_TIER)) ∧
      (idle → home → wrong → exec cmd s = .next (moveRefused s Code.MOVE_STATE)) ∧
      (idle → home → ¬ wrong → full → exec cmd s = .next (moveRefused s Code.POOL_FULL)) ∧
      (idle → home → ¬ wrong → ¬ full → 16 ≤ s.mem.running.length → exec cmd s = .next (moveRefused s Code.MOVE_BUSY)) ∧
      (idle → home → ¬ wrong → ¬ full → s.mem.running.length < 16 → ∃ t f, exec cmd s = .next t ∧
        (pr = true → s.mem.freeFrame frames = some f) ∧ (pr = false → inPool = some f) ∧
        t.io.br bMigr Off.migr_MOVE_STAT = 2 ^ 30 ∧ Io.OnlyRegs [bMigr] s.io t.io ∧
        t = { s with io := t.io, mem := { s.mem with moves := s.mem.moves ++ [⟨page, pr, f, true, .pinWait⟩] } })) ∧
    (∀ (who : Requester) (v : W32), writeAllowed s.io who bMigr (bMigr.base + Off.migr_POOL) = none →
      let f := bitsOf v.toNat 18 0
      let off := bMigr.base + Off.migr_POOL
      (f % 8 ≠ 0 ∨ 262144 < f → exec (.poolWrite who v) s = .next { s with io := s.io.capture bMigr Code.BAD_POOL off }) ∧
      (f % 8 = 0 → f ≤ 262144 → s.adm.services ≠ [] ∨ frames < f ∧ poolHits s f = true →
        exec (.poolWrite who v) s = .next { s with io := s.io.capture bMigr Code.MIGR_BUSY off }) ∧
      (f % 8 = 0 → f ≤ 262144 → s.adm.services = [] → (frames < f → poolHits s f = false) → ∃ t, exec (.poolWrite who v) s = .next t ∧
        t.io.bf bMigr Off.migr_POOL 18 0 = f ∧ Io.OnlyRegs [bMigr] s.io t.io ∧
        t = { s with io := t.io, mem := { s.mem with moves := t.mem.moves, shrinking := t.mem.shrinking, poolFrames := t.mem.poolFrames } } ∧
        ((∀ e ∈ s.mem.promoted, e.2 < f) → (∀ m ∈ s.mem.moves, m.frame < f) → t.mem = { s.mem with shrinking := [], poolFrames := f }) ∧
        (∀ e ∈ s.mem.promoted, f ≤ e.2 → t.mem.poolFrames = max f s.mem.poolFrames ∧ t.mem.shrinking.contains e.2 = true ∧
          (homeLost s.mem e.1 = false → ∃ m ∈ t.mem.moves, m.page = e.1)))) ∧
    (∀ page v, s.mem.moves.find? (fun v => decide (v.page = page)) = some v →
      (v.phase = .pinWait ∨ v.phase = .pinHeld →
        (pinned s page = false → ∃ t, exec (.moveMark page) s = .next t ∧ t = { s with mem := { s.mem with moves := t.mem.moves } } ∧
          (∀ a, a / 65536 = page → t.mem.moving a = true) ∧ (∀ a, a / 65536 ≠ page → t.mem.moving a = s.mem.moving a)) ∧
        (pinned s page = true → ∃ t, exec (.moveMark page) s = .next t ∧ t = { s with io := t.io, mem := { s.mem with moves := t.mem.moves } } ∧
          Io.OnlyRegs [bMigr] s.io t.io ∧ (v.phase = .pinWait → s.io.frozen bMigr = false →
            t.io.br bMigr Off.migr_PIN_WAITS = min 0xFFFFFFFF (s.io.br bMigr Off.migr_PIN_WAITS + 1)) ∧ (v.phase = .pinHeld → t.io = s.io)))) ∧
    (∀ page, ∃ t, exec (.moveCopy page) s = .next t ∧ t = { s with mem := { s.mem with moves := t.mem.moves } } ∧
      (∀ a, t.mem.moving a = s.mem.moving a) ∧ t.mem.moves = s.mem.moves.map (fun v => if v.page = page ∧ v.phase = .mark then { v with phase := .copy } else v)) ∧
    (∀ page v, s.mem.moves.find? (fun v => decide (v.page = page) && v.phase == .copy) = some v → ∃ u,
      exec (.moveRelease page) s = .next (housekeep (resumeWhere (releaseAccesses u) (fun c a => decide (c = Code.MIGRATING) && decide (a / 65536 = page)))) ∧
      v ∉ u.mem.moves ∧ (∀ q, smFind q u.mem.promoted = if q = page then (if v.toPool then some v.frame else none) else smFind q s.mem.promoted) ∧
      (v.requested = true → u.io.br bMigr Off.migr_MOVE_STAT = 2 * 2 ^ 30 ∧ bitOf (u.io.br bMigr 0x010) 3 = true) ∧
      (v.requested = false → u.io.br bMigr Off.migr_MOVE_STAT = s.io.br bMigr Off.migr_MOVE_STAT ∧ u.io.intake = s.io.intake) ∧
      (s.io.frozen bMigr = false → let o := bMigr.base + (if v.toPool then Off.migr_PROMOTIONS_LO else Off.migr_DEMOTIONS_LO)
        u.io.reg64 o = min 0xFFFFFFFFFFFFFFFF (s.io.reg64 o + 1)) ∧ Io.OnlyEvents [bMigr] s.io u.io ∧
      u = { s with io := u.io, mem := { s.mem with moves := u.mem.moves, promoted := u.mem.promoted, byRequest := u.mem.byRequest,
                                                   shrinking := u.mem.shrinking, poolFrames := u.mem.poolFrames } })

/-- R77 to R79, R101, R102, R104 and R546; `finish` and `refuse` post the completion record (R360, R364). -/
def Obligations.RegionAndDescriptorCommandsCheckAndEnter : Prop :=
  ∀ (s : State) (c : Cmd),
    let base := c.p 0x10 8
    let len := c.p 0x18 8
    let tier := c.p 0x20 1 % 16
    let perm := c.p 0x21 1 % 8
    let bad := tier = 0 ∨ base % 4096 ≠ 0 ∨ len % 4096 ≠ 0 ∨ len = 0 ∨ (bitOf perm 2 = true ∧ bitOf perm 1 = false) ∨
      (tier = 4 ∧ 2 ^ 52 < base + len) ∨ (tier ≠ 4 ∧ spanOk s.mem tier base len = false)
    let full := 65535 ≤ (s.adm.regions.filter (fun e => e.2.used)).length
    let used := fun (i : Nat) => (smFind i s.adm.regions).any (fun r => r.used) = true
    (4 < tier → exec (.regionReg c) s = .next (refuse s c Code.BAD_TIER)) ∧
    (tier ≤ 4 → bad → exec (.regionReg c) s = .next (refuse s c Code.BAD_REGION_PARAM)) ∧
    (tier ≤ 4 → ¬ bad → full → exec (.regionReg c) s = .next (refuse s c Code.REGION_FULL)) ∧
    (tier ≤ 4 → ¬ bad → ¬ full → ∃ i gen rs, 1 ≤ i ∧ i < 65536 ∧ ¬ used i ∧ (∀ j, 1 ≤ j → j < i → used j) ∧
      gen = ((smFind i s.adm.regions).map (fun r => r.gen)).getD 1 ∧
      exec (.regionReg c) s = .next (finish { s with adm := { s.adm with regions := rs } } c Code.OK (leBytes 4 (gen * 65536 + i))) ∧
      regionOf { s with adm := { s.adm with regions := rs } } (gen * 65536 + i) =
        some ⟨gen, true, tier, base, len, perm, bitOf (c.p 0x21 1) 3, c.ring, c.issuerSvc s⟩ ∧
      (∀ j, j ≠ i → smFind j rs = smFind j s.adm.regions)) ∧
    (let h := c.p 0x10 4
     (regionOf s h = none → exec (.regionUnreg c) s = .next (refuse s c Code.BAD_REGION)) ∧
     ∀ r, regionOf s h = some r →
       let mine := if r.owner = 0 then c.ring = 0 else if r.wide = true then c.ring ≠ 0 ∧ c.issuerSvc s = r.svc else c.ring = r.owner
       (¬ mine → exec (.regionUnreg c) s = .next (refuse s c Code.REGION_PERM)) ∧
       (mine → regionBusy s h = true → exec (.regionUnreg c) s = .next (refuse s c Code.REGION_BUSY)) ∧
       (mine → regionBusy s h = false → ∃ rs, exec (.regionUnreg c) s = .next (finish { s with adm := { s.adm with regions := rs } } c Code.OK) ∧
         regionOf { s with adm := { s.adm with regions := rs } } h = none ∧
         (smFind (h % 65536) rs).map (fun r => (r.used, r.gen)) = some (false, if r.gen = 0xFFFF then 1 else r.gen + 1) ∧
         ∀ j, j ≠ h % 65536 → smFind j rs = smFind j s.adm.regions)) ∧
    (c.context s = none → exec (.descCreate c) s = .next (refuse s c Code.NO_SERVICE) ∧ exec (.descDestroy c) s = .next (refuse s c Code.NO_SERVICE)) ∧
    ∀ x, c.context s = some x →
      let id := c.p 0x10 2
      let off := c.p 0x18 8
      let n : Namer := ⟨c.ring, x.svc⟩
      let free := id < x.tableLen ∧ id ≠ 0xFFFF ∧ fixedDescs s x ≤ id ∧ smFind id x.descs = none
      (x.tableLen ≤ id ∨ id = 0xFFFF → exec (.descCreate c) s = .next (refuse s c Code.BAD_DESC_ID)) ∧
      (id < x.tableLen → id ≠ 0xFFFF → id < fixedDescs s x → exec (.descCreate c) s = .next (refuse s c Code.DESC_FIXED) ∧
        exec (.descDestroy c) s = .next (refuse s c Code.DESC_FIXED)) ∧
      (id < x.tableLen → id ≠ 0xFFFF → fixedDescs s x ≤ id → smFind id x.descs ≠ none → exec (.descCreate c) s = .next (refuse s c Code.DESC_BUSY)) ∧
      (free → off % 128 ≠ 0 → exec (.descCreate c) s = .next (refuse s c Code.BAD_ALIGN)) ∧
      (free → off % 128 = 0 → ∀ e, regionRead s n (c.p 0x14 4) off 128 = .error e → exec (.descCreate c) s = .next (refuse s c e)) ∧
      (free → off % 128 = 0 → ∀ bs, regionRead s n (c.p 0x14 4) off 128 = .ok (some bs) →
        (∀ e a, checkDesc s n bs = some (e, a) → exec (.descCreate c) s = .next (refuse s c e)) ∧
        (checkDesc s n bs = none → ∃ ds, exec (.descCreate c) s = .next (finish (s.setCtx { x with descs := ds }) c Code.OK (leBytes 2 id)) ∧
          smFind id ds = some ⟨parseDesc bs, false⟩ ∧ ∀ j, j ≠ id → smFind j ds = smFind j x.descs)) ∧
      (s.ctx? x.cn = some x → ¬ (id ≠ 0xFFFF ∧ id < x.tableLen ∧ id < fixedDescs s x) →
        (x.tableLen ≤ id ∨ id = 0xFFFF ∨ smFind id x.descs = none → exec (.descDestroy c) s = .next (refuse s c Code.BAD_DESC_ID)) ∧
        ∀ e, id < x.tableLen → id ≠ 0xFFFF → smFind id x.descs = some e →
          (e.dead = true → exec (.descDestroy c) s = .next (refuse s c Code.DESC_DEAD)) ∧
          (e.dead = false → ∃ ds, exec (.descDestroy c) s = .next (finish (s.setCtx { x with descs := ds }) c Code.OK) ∧
            smFind id ds = (if s.adm.refs.contains (x.cn, id) then some ⟨e.d, true⟩ else none) ∧ ∀ j, j ≠ id → smFind j ds = smFind j x.descs))

/-- The promise at the head of chapter 4, from R80, R84 and R86 to R90: bit positions, since packed elements share bytes. -/
def Obligations.DescriptorsStayInTheirRegionsAndDoNotAlias : Prop :=
  ∀ (s : State) (n : Namer) (bs : List Byte), checkDesc s n bs = none →
    let d := parseDesc bs
    let inRange := fun (cs : List Nat) => cs.length = d.rank ∧ ∀ i, i < d.rank → cs.getD i 0 < d.sz i
    let lo : Int := (permitted (regionOf s d.region)).1
    let hi : Int := (permitted (regionOf s d.region)).2
    (∀ cs, inRange cs → 8 * lo ≤ 8 * (d.base : Int) + d.elemOff cs * d.bits ∧ 8 * (d.base : Int) + (d.elemOff cs + 1) * d.bits ≤ 8 * hi) ∧
    (Num.isMx d.etype = true → ∀ cs, inRange cs → lo ≤ d.scaleAddr cs ∧ (d.scaleAddr cs : Int) < hi) ∧
    (d.canWrite = true → d.accum = false → ∀ cs cs', inRange cs → inRange cs' → d.elemOff cs = d.elemOff cs' → cs = cs') ∧
    (∀ r, regionOf s d.region = some r → r.used = true ∧ r.tier = d.tier ∧ scopeOk r n = true ∧ (d.canRead = true → bitOf r.perm 0 = true) ∧
      (d.canWrite = true → bitOf r.perm 1 = true) ∧ (d.accum = true → bitOf r.perm 2 = true)) ∧
    (regionOf s d.region = none → d.tier = 0 ∧ lo = 0 ∧ hi = 0x400000)

/-- R185, R189, R190, R218, R221 and Table 7.14; CYCLES is open (log entry 17). -/
def Obligations.OperatorCallsCheckTheirBlocksAndEndWithTheirResults : Prop :=
  (∀ (r : OpRun) (code : Nat), code < 2 ^ 16 →
    let t := putResult r code
    let off := r.o.statusOff
    (∃ cyc, cyc < 2 ^ 32 ∧ (t.core r.n).bytes off 64 = resultBlock r code cyc) ∧ (t.core r.n).xr 1 = code ∧
    (∀ a, a < off ∨ off + 64 ≤ a → (t.core r.n).bytes a 1 = (r.s.core r.n).bytes a 1) ∧ (∀ k, k ≠ 1 → (t.core r.n).xr k = (r.s.core r.n).xr k) ∧
    t.core r.n = { r.s.core r.n with x := (t.core r.n).x, sram := (t.core r.n).sram, sramPoison := (t.core r.n).sramPoison } ∧
    (∀ m, m ≠ r.n → t.core m = r.s.core m) ∧ t = { r.s with io := { r.s.io with free := r.s.io.free + 1 }, cores := t.cores }) ∧
  (∀ (r : OpRun) (row item val : Nat),
    let q := r.cut row item val
    let old := r.ovf.head? = some row
    q.ovf = (if old then r.ovf else row :: r.ovf) ∧ q.ovfRows = (if old then r.ovfRows else r.ovfRows + 1) ∧ q.rowsOut = r.rowsOut ∧ q.stop = r.stop ∧
    (r.o.spills = false → q.s = r.s ∧ q.spillItems = r.spillItems ∧ q.spillCut = r.spillCut) ∧
    (r.o.spills = true → q.spillItems + q.spillCut = r.spillItems + r.spillCut + 1)) ∧
  (∀ (r : OpRun) (row inRow sub : Nat) (l : List (Col × Cell)),
    let q := r.emitRow row inRow sub l
    (r.ended = true → q = r) ∧ (r.ended = false → r.fits row l = false → q = { r with stop := some (Code.OUTPUT_FULL, inRow, sub) }) ∧
    (r.ended = false → r.fits row l = true → q.rowsOut = r.rowsOut + 1 ∧ q.stop = none ∧ q.rowsIn = r.rowsIn)) ∧
  ∀ (s : State) (n : Nat) (t : Task),
    let c := s.core n
    let x := c.xr 1
    let o : Opb := ⟨c.bytes x 256⟩
    let s' := notePoison (s.setCore n (c.noteRead x 256)) n
    let ops : List (Instr × Nat × (OpRun → OpSpec)) :=
      [(.opScan n, 1, scanSpec), (.opFilter n, 2, filterSpec), (.opProject n, 3, projectSpec), (.opHash n, 4, hashSpec), (.joinBuild n, 5, buildSpec),
       (.joinProbe n, 6, probeSpec), (.dictLookup n, 7, dictSpec), (.bucketize n, 8, bucketSpec), (.normalize n, 9, normSpec),
       (.opStats n, 10, statsSpec), (.groupAgg n, 11, groupSpec), (.opDedup n, 12, dedupSpec), (.tokenize n, 13, tokenizeSpec)]
    c.run = .running → c.task = some t → c.emitDst = none →
      (c.opWait = none → ∀ e ∈ ops,
        ((∃ k, k < 8 ∧ (s.strm n (8 + k)).st ≠ 0) → exec e.1 s = .next (s.setCore n (c.setX 1 Code.STREAM_BUSY))) ∧
        ((∀ k, k < 8 → (s.strm n (8 + k)).st = 0) → o.op = e.2.1 →
          (∀ err, opExc x o = some err → exec e.1 s = .next (raiseExc s n err)) ∧
          (opExc x o = none →
            let r := opRun s' n t.ctx o
            let locked := (e.2.1 = 11 ∨ e.2.1 = 12) ∧ waitsForLock s n t.ctx o e.2.2 = true
            let slot := e.2.1 = 10 ∧ statsWaits s n t.ctx o = true
            let far := e.2.1 = 13 ∧ usesDirect s n t.ctx o = true ∧ (0x400000 < o.f 0x28 4 + 263168 ∨ o.f 0x28 4 % 64 ≠ 0)
            (slot → exec e.1 s = .next (peerWait s n 1)) ∧
            (locked → exec e.1 s = .next (s.setCore n { c with opWait := some ⟨t.id, o.bs⟩ })) ∧
            (¬ slot → ¬ locked → ¬ far →
              (∀ code, opCheck r (e.2.2 r) = some code → exec e.1 s = .next (putResult r code)) ∧
              (opCheck r (e.2.2 r) = none → o.rows = o.resumeRow → exec e.1 s = .next (putResult r Code.OK)) ∧
              (opCheck r (e.2.2 r) = none → o.rows ≠ o.resumeRow → ∀ u, opEnd ((e.2.2 r).run r) = some u → exec e.1 s = .next u))))) ∧
      (∀ w, c.opWait = some w → w.task = t.id →
        let b : Opb := ⟨w.blk⟩
        let f := if b.op = 0x0B then groupSpec else dedupSpec
        let p := peerWait s n 1024
        let q := p.setCore n { p.core n with opWait := none }
        (waitsForLock p n t.ctx b f = true → exec (.foldLockPoll n) s = .next p) ∧
        (waitsForLock p n t.ctx b f = false → ∀ u, opTry q n t.ctx b f = some u → exec (.foldLockPoll n) s = .next u))

/-- R215 with the search of R164, R217 with its tree, R220, R202 to R204 without a zone map, R206, R207 and R222. -/
def Obligations.OperatorRowsFollowTheirRules : Prop :=
  (∀ (et v n : Nat) (b : Nat → Nat), Num.isInt et = true → n ≤ 4096 → (∀ i j, i < j → j < n → Num.intOf et (b i) < Num.intOf et (b j)) →
    bucketOf et v n b = ((List.range n).filter (fun i => decide (Num.intOf et (b i) ≤ Num.intOf et v))).length) ∧
  (∀ (et v n : Nat) (b : Nat → Nat), Num.isInt et = false → Num.isNaN (Num.value et v) = true → bucketOf et v n b = n + 1) ∧
  (∀ xs : List (Option Nat), xs.length < 2 ^ 64 →
    let nan := fun (x : Nat) => Num.isNaN (Num.value Num.FP64 x)
    let p := statPartial xs
    p.n = (xs.filter (fun x => x.any (fun v => !nan v))).length ∧ p.nans = (xs.filter (fun x => x.any nan)).length ∧
    p.nulls = (xs.filter (fun x => x.isNone)).length) ∧
  (∀ (et : Nat) (vs : List Nat), Num.isInt et = true →
    let run := fun (f : Nat) => vs.foldl (aggStep f et) (0, 0)
    (∀ f, (run f).2 = vs.length) ∧
    ((run 1).1 : Int) = (vs.foldl (fun (a : Int) v => a + Num.intOf et v) 0) % 2 ^ 64 ∧
    (vs ≠ [] → (run 2).1 ∈ vs ∧ (run 3).1 ∈ vs ∧ ∀ v ∈ vs, Num.intOf et (run 2).1 ≤ Num.intOf et v ∧ Num.intOf et v ≤ Num.intOf et (run 3).1)) ∧
  (∀ (l : List PredWord) (r : OpRun) (row : Nat), (r.touchRow r.ins row).ended = false → r.ended = false →
    let q := filterRow l none r row
    ∃ u : OpRun, u.rowsOut = (r.touchRow r.ins row).rowsOut ∧ u.s = (r.touchRow r.ins row).s ∧ u.o = r.o ∧ u.cols = r.cols ∧
      (predRun u l.length row l [] = false → q = u) ∧
      (predRun u l.length row l [] = true → u.o.f 0x24 1 = 1 → q = u.emitRow u.rowsOut row 0 (u.outs.map (fun c => (c, .num row))))) ∧
  (∀ (tab : Option (Nat × Nat)) (r : OpRun) (row : Nat),
    let cs := r.ins.take (r.o.f 0x21 1)
    let func := r.o.f 0x20 1 % 16
    let u := r.touchRow cs row
    u.ended = false → func ≠ 3 → ∀ q key, u.keyOnce cs (r.o.f 0x20 1 / 16 == 0) row = (q, key) →
      let seed := r.o.f 0x28 8
      (key = none → hashRow tab r row = q.emitRow row row 0 (q.outs.zip [.null, .null])) ∧
      ∀ k, key = some k →
        (func = 0 → hashRow tab r row = q.emitRow row row 0 (q.outs.zip [.num (Hash.smx64 k seed)])) ∧
        (func = 1 → hashRow tab r row = q.emitRow row row 0 (q.outs.zip [.num (Hash.crc32c (seed % 2 ^ 32) k)])) ∧
        (func = 4 → ∀ uj, tab = some uj → hashRow tab r row = q.emitRow row row 0 (q.outs.zip [.num (Hash.smx64 k (AssayTab.seed q.s uj.1 uj.2))]))) ∧
  (∀ (t : HTab) (nkey : Nat) (r : OpRun) (row : Nat),
    let u := r.touchRow (keyCols r nkey) row
    u.ended = false → ∀ q k, u.keyOnce (keyCols r nkey) (t.kind u == 0) row = (q, k) → ∀ w e, findEntry q t k row = (w, e) → w.ended = false →
      (e.isSome = true → dedupRow t nkey r row = { w with aux0 := w.aux0 + 1 }) ∧
      (e = none → (dedupRow t nkey r row).ended = false → (dedupRow t nkey r row).rowsOut = w.rowsOut + 1 ∧ (dedupRow t nkey r row).aux0 = w.aux0))

/-- R254 to R261, R266, R272 and R273 for requests whose output and result are descriptors; `endReq` frees the request's place and lets waiting work move. -/
def Obligations.EgpRequestsGatherPoolAndLog : Prop :=
  (∀ (b : EgpBlk) (rows : Nat) (ix wt : Nat → Nat),
    let g := egpGroups b rows ix wt
    let gives := fun (p r : Nat) => posOf b.idx64 rows (ix p) = .row r ∧ ¬ (b.op = 3 ∧ isZero32 (wt p) = true)
    g.2.1.indices = b.count ∧ g.2.1.nulls + g.2.1.oob + g.2.1.contrib + g.2.2 = b.count ∧ g.1.length = cdiv b.count 4096 ∧
    g.2.1.groups = (g.1.map List.length).sum ∧
    ∀ w, w < g.1.length → ((g.1.getD w []).map (fun q => q.row)).Nodup ∧
      ∀ r, r ∈ (g.1.getD w []).map (fun q => q.row) ↔ ∃ p, 4096 * w ≤ p ∧ p < min b.count (4096 * (w + 1)) ∧ gives p r) ∧
  (∀ (s : State) (c : Cmd) (egp : Bool),
    let cmd := if egp then Instr.egpRun c else Instr.winnowRun c
    let cl := c.p 0x12 1
    let first := c.p 0x14 4
    let n := c.p 0x18 4
    ∀ x, c.context s = some x →
      (6 ≤ cl → cl ≠ 0xFF → exec cmd s = .next (refuse s c Code.RSV_NONZERO)) ∧
      (cl < 6 ∨ cl = 0xFF → n = 0 ∨ 65536 < n → exec cmd s = .next (refuse s c Code.COUNT_RANGE)) ∧
      (cl < 6 ∨ cl = 0xFF → 1 ≤ n → n ≤ 65536 →
        (∀ e, useDescDir s x.cn (c.p 0x10 2) false = .error e → exec cmd s = .next (refuse s c e)) ∧
        ∀ d, useDescDir s x.cn (c.p 0x10 2) false = .ok d →
          let bad := d.etype ≠ Num.U8 ∨ d.tier = 0 ∨ first % 64 ≠ 0 ∨ d.count < first + 64 * n
          (bad → exec cmd s = .next (refuse s c Code.BAD_COLUMN)) ∧
          (¬ bad → ∃ v : UnitRun, v.cmd = c ∧ v.egp = egp ∧ v.cn = x.cn ∧ v.d = d ∧ v.first = first ∧ v.count = n ∧ v.next = 0 ∧
            (cl < 6 → v.unit = 6 * (x.home % 2) + cl) ∧
            exec cmd s = .next (housekeep (pumpRuns { s with
              adm := { s.adm with refs := s.adm.refs ++ [(x.cn, c.p 0x10 2)] },
              queue := { s.queue with runs := s.queue.runs ++ [v], nextRun := s.queue.nextRun + 1 } }))))) ∧
  ∀ (s : State) (u : Nat) (r : UReq), u < 12 → s.io.isOffline (bEgp u) = false → nextReq (unitQueue s true u) (egpHeld s) = some r →
    let b : EgpBlk := ⟨r.blk⟩
    let row := if b.op = 1 then Instr.poolSum u else if b.op = 2 then .poolMean u else if b.op = 3 then .weightedSum u else if b.op = 4 then .egpUpdate u else .gather u
    let fin := fun (t : State) (res : EgpRes) (z code : Nat) => housekeep (fenceForget (endReq (egpCount t u b res z) true u r code) r.serial)
    (∀ e, egpCheck s r = .error e → ∃ t, exec row s = .next (fin t { code := e } 0 e) ∧
      (t = s ∨ ∃ d, reqSrc s r (b.f 0x16 2) true = some (.desc d) ∧ t = putDescBytes s r.home d (b.f 0x24 4) (leBytes 2 e) false)) ∧
    (∀ i d e, egpCheck s r = .ok i → b.remote = false → i.out = .desc d → i.res = .desc e → tHeld s d.tier d.base = false → tHeld s e.tier e.base = false →
      let ix := fun (p : Nat) => i.idx.code s r.home (b.f 0x18 4 + p) (if b.idx64 then 8 else 4)
      let wt := fun (p : Nat) => i.wt.code s r.home (b.f 0x1C 4 + p) 4
      let g := egpGroups b i.t.rows ix wt
      let put := fun (t : State) (res : EgpRes) => putDescBytes t r.home e (b.f 0x24 4) (res.bytes (b.f 0x0C 4)) false
      (∀ c p, egpFault s u r i = some (c, p) →
        (faultWaits c = true → exec row s = .next (housekeep (s.migrFault c))) ∧
        (faultWaits c = false → 1 ≤ b.op → let res : EgpRes := { g.2.1 with code := Code.INPUT_FAILED, firstBad := p }
          exec row s = .next (fin (put s res) res g.2.2 Code.INPUT_FAILED)) ∧
        (faultWaits c = false → b.op = 0 → let res : EgpRes := { g.2.1 with code := Code.INPUT_FAILED, firstBad := p }
          exec row s = .next (fin (put (gatherRows s r i p).1 res) res g.2.2 Code.INPUT_FAILED))) ∧
      (egpFault s u r i = none →
        (b.op = 4 → ∃ t, exec row s = .next (fin (put t g.2.1) g.2.1 g.2.2 0) ∧ Io.OnlyRegs [bEgp u] s.io t.io ∧
          t = { s with io := t.io, egp := { s.egp with log := s.egp.log ++ (List.range b.count).filterMap (fun p => match posOf b.idx64 i.t.rows (ix p) with
            | .row k => some (i.ti, ⟨b.f 0x28 4, k, sourceAddr s, b.f 6 2, p, (valueRow s r i p).1, (valueRow s r i p).2⟩)
            | _ => none) } }) ∧
        (b.op < 4 →
          let read := g.1.flatten.filter (fun q => q.read b.op)
          let pz := read.any (fun q => rowPoison s i.t q.row)
          let res : EgpRes := { g.2.1 with poison := pz, empty := b.op ≠ 0 && g.2.1.contrib == 0, mergedZero := b.op ≠ 0 && g.1.flatten.any (fun q => isZero32 q.w) }
          ∃ t, t = { s with io := t.io, egp := { s.egp with heat := t.egp.heat } } ∧ Io.OnlyRegs [bEgp u] s.io t.io ∧
            (1 ≤ b.op → exec row s = .next (fin (put (putRow t r.home d (b.f 0x20 4) ((poolVector s i.t b.op g.2.1.contrib g.1).map (outCode (b.f 3 1))) [] (pz || wtPoison s r i)) res) res g.2.2 0)) ∧
            (b.op = 0 → exec row s = .next (fin (put (gatherRows t r i b.count).1 res) res g.2.2 0)))))

/-- R262 to R269 for tables of one device (PEERS at most 1); what peers send is among the fabric's statements. -/
def Obligations.EgpFencesApplyStepsAndHeatMovesCopies : Prop :=
  (∀ (s : State) (t : Tab) (row : Nat) (es fs : List LogEnt), es.Perm fs →
    let key := fun (e : LogEnt) => (e.src * 65536 + e.batch) * 2 ^ 32 + e.pos
    ((es.map key).Nodup → t.mode = 2 ∨ (t.mode = 1 ∧ t.det = true ∧ Num.isInt t.etype = false) → applyRow s t es row = applyRow s t fs row) ∧
    (t.mode = 1 → Num.isInt t.etype = true → applyRow s t es row = applyRow s t fs row)) ∧
  (∀ (s : State) (c : Cmd),
    (∀ e, fenceCheck s c = .error e → exec (.stepFence c) s = .next (refuse s c e)) ∧
    (∀ ti t, fenceCheck s c = .ok (ti, t) → t.peers ≤ 1 → t.bs.length = 64 → ∃ u f, exec (.stepFence c) s = .next (housekeep u) ∧
      u = { s with egp := { s.egp with dir := u.egp.dir, fences := s.egp.fences ++ [f] } } ∧
      (∀ v, tabAt u ti = some v → v.state = 2 ∧ v.step = (t.step + 1) % 2 ^ 32 ∧ v.rows = t.rows ∧ v.base = t.base ∧ v.mode = t.mode) ∧
      (tabAt u ti).isSome = true ∧ (∀ j, j ≠ ti → tabAt u j = tabAt s j) ∧ f.table = ti ∧ f.step = t.step ∧ f.phase = .close ∧ f.cmd = c ∧
      (∀ n, n ∈ f.waits ↔ ∃ k r, k < 12 ∧ r ∈ unitQueue s true k ∧ r.serial = n ∧ EgpBlk.op ⟨r.blk⟩ ≠ 4 ∧ bindOf s r.svc (EgpBlk.f ⟨r.blk⟩ 2 1) = some ti)) ∧
    (∀ ti t, bindOf s (c.issuerSvc s) (c.p 0x10 1) = some ti → tabAt s ti = some t → t.peers ≤ 1 →
      (c.p 0x14 4 < t.step → fenceCheck s c = .error Code.STEP_CLOSED) ∧ (t.step < c.p 0x14 4 → fenceCheck s c = .error Code.STEP_AHEAD) ∧
      (t.step = c.p 0x14 4 → fenceCheck s c = if t.state = 2 then .error Code.FENCE_BUSY else .ok (ti, t)))) ∧
  (∀ (s : State) (ti : Nat) (f : Fence) (t : Tab), s.egp.fences.find? (fun f => f.table == ti) = some f → tabAt s ti = some t →
    let mine := fun (e : Nat × LogEnt) => e.1 == ti && e.2.step == f.step
    let es := (s.egp.log.filter mine).map Prod.snd
    let clear := ∀ e ∈ es, tHeld s t.tier t.base = false ∧ tFault s t.tier (t.rowAddr e.row) t.rowBytes true = none
    (f.phase = .close → f.waits = [] → t.peers ≤ 1 → clear → 1 ≤ t.tier → t.tier ≤ 3 → Num.isMx t.etype = false → ∃ u g, exec (.fenceApply ti) s = .next u ∧
      u = { s with mem := u.mem, egp := { s.egp with log := s.egp.log.filter (fun e => !mine e), fences := u.egp.fences } } ∧
      u.egp.fences.find? (fun f => f.table == ti) = some g ∧ g = { f with phase := .apply, rows := g.rows, failed := 0, applied := es.length } ∧
      (∀ k, k ∈ g.rows ↔ ∃ e ∈ es, e.row = k) ∧
      (∀ a, (∀ k ∈ g.rows, a < t.rowAddr k ∨ t.rowAddr k + (t.width * Num.width t.etype + 7) / 8 ≤ a) → u.mem.byte a = s.mem.byte a) ∧
      (∀ k, g.rows = [k] → u.mem = (writeRow s t k (applyRow s t es k) (rowPoison s t k || es.any (fun e => e.poison))).mem)) ∧
    (f.phase = .apply → ∃ u, exec (.fenceRefresh ti) s = .next u ∧ u = { s with egp := { s.egp with fences := u.egp.fences } } ∧
      u.egp.fences.find? (fun f => f.table == ti) = some { f with phase := .refresh }) ∧
    (f.phase = .refresh → t.bs.length = 64 → ∃ u, u = { s with io := u.io, egp := { s.egp with dir := u.egp.dir, fences := s.egp.fences.filter (fun g => g.table ≠ ti), marks := u.egp.marks } } ∧
      (∀ v, tabAt u ti = some v → v.state = 1 ∧ v.step = t.step) ∧ (tabAt u ti).isSome = true ∧ (∀ j, j ≠ ti → tabAt u j = tabAt s j) ∧
      bitOf (u.io.br (bEgp (decider s t)) 0x010) 4 = true ∧
      (s.io.frozen (bEgp (decider s t)) = false → u.io.br (bEgp (decider s t)) Off.egp_FENCES = min 0xFFFFFFFF (s.io.br (bEgp (decider s t)) Off.egp_FENCES + 1)) ∧
      (f.failed = 0 → f.missing = none → exec (.fenceOpen ti) s = .next (housekeep (finish u f.cmd Code.OK (leBytes 4 f.step ++ leBytes 4 f.applied)))) ∧
      (f.failed ≠ 0 → exec (.fenceOpen ti) s = .next (housekeep (finish u f.cmd Code.APPLY_FAILED (leBytes 4 f.step ++ leBytes 4 f.applied) f.failed))))) ∧
  (∀ (s : State), ∃ t, exec .heatEpoch s = .next t ∧ Io.OnlyRegs ((List.range 12).map bEgp) s.io t.io ∧
    t = { s with io := t.io, egp := { s.egp with heat := [], hot := t.egp.hot, warm := t.egp.warm, lost := t.egp.lost } } ∧
    (∀ (hot : Bool), ∀ e ∈ (if hot then t.egp.hot else t.egp.warm), ∀ v, tabAt s e.table = some v →
      let th := s.io.br (bEgp (decider s v)) (if hot then Off.egp_HOT_THRESH else Off.egp_WARM_THRESH)
      e.heat = smGet 0 (e.table * 2 ^ 52 + e.row) (heatReports s) ∧ th ≤ 2 * e.heat) ∧
    (∀ (hot : Bool) ti v, tabAt s ti = some v →
      ((if hot then t.egp.hot else t.egp.warm).filter (fun e => e.table == ti)).length ≤
        max ((if hot then s.egp.hot else s.egp.warm).filter (fun e => e.table == ti)).length (replicaRoom v hot)) ∧
    (∀ ti v, tabAt s ti = some v → v.state = 2 → ∀ e ∈ t.egp.hot, e.table = ti → ∃ e' ∈ s.egp.hot, e'.table = ti ∧ e'.row = e.row))

/-- R280 to R292. -/
def Obligations.SelectionsKeepTheLargestAndMergeOnce : Prop :=
  (∀ (et k : Nat) (fb : Bool) (cs : List (Nat × Nat)) (poison : Bool), et ∈ [Num.FP32, Num.BF16, Num.FP16, Num.U32, Num.I32] → 1 ≤ k →
    (cs.map Prod.fst).Pairwise (fun a b => a < b) → (∀ e ∈ cs, e.2 < 2 ^ Num.width et) →
    let p := selectRow et k fb cs poison
    let cand := cs.filter (fun e => !(fb && codeNaN et e.2))
    p.entries.length = min k cand.length ∧ p.entries.Pairwise (fun a b => selAbove et a b = true) ∧ (∀ e ∈ p.entries, e ∈ cand) ∧
    (∀ e ∈ cand, e ∉ p.entries → ∀ q ∈ p.entries, selAbove et q e = true) ∧
    p.nan = (cs.filter (fun e => codeNaN et e.2)).length ∧ p.sel.add p.rest = RowSum.total et (cs.map Prod.snd) ∧
    (∀ l, p.entries.getLast? = some l → p.tie = if p.entries.length < k then 0
      else (cand.filter (fun e => !p.entries.contains e && selCmp et e.2 l.2 == .eq)).length) ∧
    (compaction et k cs).1.length ≤ 2 * k ∧ selTop et k (compaction et k cs).1 = selTop et k (cs.filter (fun e => !codeNaN et e.2))) ∧
  (∀ (et k full : Nat) (ps : List Partial), et ∈ [Num.FP32, Num.BF16, Num.FP16, Num.U32, Num.I32] → 1 ≤ k →
    let m := (mergeRows et k full ps).row
    let es := ps.flatMap (fun p => p.entries)
    (m.entries.map Prod.fst).Nodup ∧ m.entries.Pairwise (fun a b => selAbove et a b = true) ∧ m.entries.length ≤ k ∧
    (∀ e ∈ m.entries, e ∈ es ∧ e.1 ≠ padIdx) ∧
    (∀ e ∈ es, e.1 ≠ padIdx → (∃ q ∈ m.entries, q.1 = e.1 ∧ selCmp et q.2 e.2 ≠ .lt) ∨ (m.entries.length = k ∧ ∀ q ∈ m.entries, selAbove et q e = true)) ∧
    m.nan = (ps.map (fun p => p.nan)).sum ∧ m.poison = ps.any (fun p => p.poison)) ∧
  (∀ ps qs : List MemberPart, ps.Perm qs → (ps.map (fun p => p.member)).Nodup → sortParts ps = sortParts qs) ∧
  (∀ (s : State) (u : Nat) (r : UReq), u < 12 → s.io.isOffline (bWinnower u) = false → nextReq (unitQueue s false u) (fun _ => false) = some r →
    let b : WinBlk := ⟨r.blk⟩
    let row := if b.op = 1 then Instr.listmerge u else .topk u
    (∀ c, winCheck s u r = .error c → ∃ t, exec row s = .next (housekeep (endReq t false u r c)) ∧
      bitOf (t.io.br (bWinnower u) 0x010) 3 = true ∧
      (t = { s with io := t.io } ∨ ∃ d, reqSrc s r (b.f 0x18 2) true = some (.desc d) ∧
        ∃ v io, v = putDescBytes { s with io := io } r.home d b.resFirst (leBytes 2 c ++ List.replicate 30 0) false ∧ t = { v with io := t.io })) ∧
    (∀ i d e, winCheck s u r = .ok i → b.mode ≤ 1 → r.group = none → r.rows = 0 → b.outRows = 1 → i.val = .desc d → i.res = .desc e → i.oidx.isBuf = false →
      let go := fun (t : State) (code : Nat) => housekeep (endReq t false u r code)
      (readRow s r i 0 = .failed → ∃ io, exec row s = .next (go { putDescBytes s r.home e b.resFirst (leBytes 2 Code.INPUT_FAILED ++ List.replicate 30 0) false with io := io } Code.INPUT_FAILED) ∧
        bitOf (io.br (bWinnower u) 0x010) 2 = true) ∧
      (∀ m v n, readRow s r i 0 = .row m v n →
        (b.path ≠ 2 → v = s) ∧
        (b.op = 0 → m.row = selectRow b.type b.k (b.path ≠ 0)
          ((List.range b.len).map (fun j => (b.base + j, i.inp.at2 s r.home b.rowFirst 0 b.len j (Num.width b.type / 8))))
          (i.inp.rowPoison s r.home b.rowFirst 0 b.len (Num.width b.type / 8))) ∧
        (b.op = 1 → m = mergeRows b.type b.k b.len ((List.range b.rows).map (fun q => storedList s r.home b i q))) ∧
        let w := putDescBytes (putRowOut v r.home b.type b.mode i.val i.oidx b.outFirst b.k m.row).1 r.home e b.resFirst
          (rowResult b.type b.sum64 0 b.path (decide (0 < m.diffs)) m.row) false
        ∃ io, Io.OnlyEvents [bWinnower u] w.io io ∧ exec row s = .next (go { w with io := io } 0)))) ∧
  (∀ (s : State) (die g n : Nat) (p : MemberPart) (d : MergeGroup) (x : MergeInst), die < 2 → mergeGroup s die g = some d → mergeInst s die g n = some x →
    s.merge.flight.find? (fun e => e.1 == die && e.2.1 == g) = some (die, g, n, p) → p.req.isSome = true → x.aborted = false →
    (∀ y ∈ s.merge.insts, y.die = die → y.group = g → n ≤ y.n) → (s.merge.insts.filter (fun y => y.die == die && y.group == g && y.n == n)).length = 1 →
    let y := { x with parts := x.parts ++ [p] }
    let t := setMergeInst { s with merge := { s.merge with flight := s.merge.flight.erase (die, g, n, p) } } y
    let ms := (List.range x.rows).map (fun k => mergeRows d.type d.k d.k ((sortParts y.parts).map (fun q => q.rows.getD k ⟨[], 0, 0, {}, {}, false⟩)))
    (y.parts.length < d.total → exec (.mergePartial die g) s = .next (housekeep t)) ∧
    (d.total ≤ y.parts.length → d.sender = false → ∀ v q w, (sortParts y.parts).findSome? (fun q => q.req) = some (v, q) →
      writeInst t d ms v q = .ok w → ∃ io, exec (.mergePartial die g) s = .next (housekeep (completeInsts
        ((sortParts y.parts).foldl (fun s q => match q.req with | some (k, r) => endMember s k r 0 | none => s)
          { dropMergeInst w die g n with io := io, merge := { (dropMergeInst w die g n).merge with count := smMod 0 (groupKey die g) (fun n => n + 1) w.merge.count } })
        die g s.merge.insts.length)) ∧ Io.OnlyEvents [bMerge die] w.io io))

/-- R323 to R333 and R406; the last part is for plain types of whole bytes whose elements do not overlap, which R89 and R328 ensure. -/
def Obligations.WeaverCopiesEveryElementOnce : Prop :=
  (∀ (w : WCopy) (t l : Nat), w.perm.Perm (List.range w.src.rank) → t < w.count → l < w.src.rank →
    ((w.coords t).1.getD (w.perm.getD l 0) 0 = (Desc.coordsIn w.lsize t).getD l 0) ∧
    (w.coords t).2 = if w.reshape then w.dst.coords t else Desc.coordsIn w.lsize t) ∧
  (∀ (s : State) (c : Cmd) (x : Ctx), c.context s = some x →
    let u := weaveUnit s (x.home % 2) (c.p 0x19 1)
    let q := weaver s u
    u < 4 ∧
    (∀ code, weaveCheck s c x.cn = .refused code → ∃ io, Io.OnlyEvents [bWeaver u] s.io io ∧ bitOf (io.br (bWeaver u) 0x010) 3 = true ∧
      exec (.weave c) s = .next (finish { s with io := io } c code (weaveResult 0 u 0 0 0))) ∧
    (∀ noop, weaveCheck s c x.cn = .nothing noop → ∃ io, Io.OnlyRegs [bWeaver u] s.io io ∧
      exec (.weave c) s = .next (finish { s with io := io } c Code.OK (weaveResult (b2n noop) u 0 0 0))) ∧
    (∀ w, weaveCheck s c x.cn = .copy w →
      w.src.etype = w.dst.etype ∧ w.src.tier ≠ 0 ∧ w.dst.tier ≠ 0 ∧ w.src.canRead = true ∧ w.dst.canWrite = true ∧ w.count = w.dst.count ∧
      w.perm.Perm (List.range w.src.rank) ∧ descsMeet w.src w.dst = false ∧
      (32 ≤ q.queue.length ∨ s.io.enabled (bWeaver u) = false → exec (.weave c) s = .next s) ∧
      (q.queue.length < 32 → s.io.enabled (bWeaver u) = true → exec (.weave c) s = .next { s with
        adm := { s.adm with refs := s.adm.refs ++ [(x.cn, w.srcId), (x.cn, w.dstId)] },
        weave := { units := smPut {} u { q with queue := q.queue ++ [{ w with serial := s.weave.next }] } s.weave.units, next := s.weave.next + 1 } }))) ∧
  (∀ (s : State) (u : Nat) (w : WCopy) (rest : List WCopy), (weaver s u).queue = w :: rest →
    ((weaver s u).active.length < 2 → exec (.weaveCopyStart u) s = .next { s with
      weave := { s.weave with units := smPut {} u { queue := rest, active := (weaver s u).active ++ [w] } s.weave.units } }) ∧
    (2 ≤ (weaver s u).active.length → exec (.weaveCopyStart u) s = .next s)) ∧
  (∀ (s : State) (u n : Nat) (w : WCopy), u < 4 → (weaver s u).active.find? (fun w => w.serial == n) = some w →
    let es := w.elems
    let poison := weavePoison s w es
    let left : WeaverSt := { queue := (weaver s u).queue.filter (fun x => x.serial ≠ w.serial), active := (weaver s u).active.filter (fun x => x.serial ≠ w.serial) }
    let ends := fun (t : State) (code flags rd wr fa : Nat) => finish (dropRefs { t with weave := { t.weave with units := smPut {} u left t.weave.units } } w.cn [w.srcId, w.dstId]) w.cmd code (weaveResult flags u rd wr fa)
    let size := w.src.bits / 8
    let plain := Num.isMx w.src.etype = false ∧ w.dst.accum = false ∧ w.src.etype = w.dst.etype ∧ w.src.bits % 8 = 0 ∧ 0 < size ∧
      1 ≤ w.src.tier ∧ w.src.tier ≤ 4 ∧ 1 ≤ w.dst.tier ∧ w.dst.tier ≤ 4 ∧
      (∀ x ∈ es, ∀ y ∈ es, x ≠ y → w.dst.addrOf x.e + size ≤ w.dst.addrOf y.e ∨ w.dst.addrOf y.e + size ≤ w.dst.addrOf x.e) ∧
      ((w.src.tier = 4 ↔ w.dst.tier = 4) → ∀ x ∈ es, ∀ y ∈ es, w.src.addrOf x.i + size ≤ w.dst.addrOf y.e ∨ w.dst.addrOf y.e + size ≤ w.src.addrOf x.i)
    let rest := fun (t : State) => ∀ a, (∀ x ∈ es, a < w.dst.addrOf x.e ∨ w.dst.addrOf x.e + size ≤ a) → t.mem.byte a = s.mem.byte a
    (∀ c a, es.findSome? (weaveFault s w) = some (c, a) →
      (faultWaits c = true → exec (.weaveCopyDone u n) s = .next (s.migrFault c)) ∧
      (faultWaits c = false → w.dst.tier ≠ 0 → ∃ t fl rd k, exec (.weaveCopyDone u n) s = .next (ends t Code.WEAVE_FAILED fl rd k (a / 64 * 64)) ∧
        bitOf fl 2 = w.transpose ∧ fl < 8 ∧ rd ≤ (touched w.src (es.map (fun x => (x.i, x.scale)))).length ∧
        bitOf (t.io.br (bWeaver u) 0x010) 2 = true ∧ t = { s with io := t.io, mem := t.mem } ∧
        (plain → rest t ∧ ∀ l, (∀ x ∈ es, w.dst.addrOf x.e / 64 = l → elemCode t 0 w.dst x.e = elemCode s 0 w.dst x.e) ∨
          ∀ x ∈ es, w.dst.addrOf x.e / 64 = l → elemCode t 0 w.dst x.e = elemCode s 0 w.src x.i))) ∧
    (es.findSome? (weaveFault s w) = none → w.dst.tier ≠ 0 → ∃ t, t = { s with io := t.io, mem := t.mem } ∧ Io.OnlyEvents [bWeaver u] s.io t.io ∧
      exec (.weaveCopyDone u n) s = .next (ends t Code.OK (2 * b2n (poison ≠ []) + 4 * b2n w.transpose)
        (touched w.src (es.map (fun x => (x.i, x.scale)))).length (touched w.dst (es.map (fun x => (x.e, x.scale)))).length 0) ∧
      (plain → rest t ∧ (∀ x ∈ es, elemCode t 0 w.dst x.e = elemCode s 0 w.src x.i) ∧
        (w.dst.tier ≠ 4 → (∀ x ∈ es, w.dst.addrOf x.e % size = 0) → ∀ l, t.mem.poisoned l =
          if l ∈ poison then true else if 512 ≤ lineBits w.dst (es.map (fun x => (x.e, x.scale))) l then false else s.mem.poisoned l))))

/-- R336 to R341, R345, R348, R350 and R351 for plain templates; a core whose emit was held goes on when its token is taken. -/
def Obligations.CallersMatchTokensIntoTasks : Prop :=
  (∀ (s : State) (k : Token), k.die < 2 → k.grp = none →
    let c := s.caller k.die
    let t := tmplOf s k.die k.tmpl
    let key := meetKey t k.key
    let queue := fun (p : Nat) => portQueue { c with toks := c.toks ++ [k] } t k.tmpl p key
    let waits := c.held.any (fun h => h.src == k.src) || !slotFree s k.die k.svc || (k.hold.isNone && needsTimer s k && !timerFree s k.die)
      || !s.io.enabled (bCaller k.die) || !s.io.ready (bCaller k.die)
    (tokenCheck s k = some .stale → ∃ io, Io.OnlyRegs [bCaller k.die] s.io io ∧ exec (.tokenAccept k) s = .next { s with io := io }) ∧
    (tokenCheck s k = some .refused ∨ tokenCheck s k = some .badRoute → ∃ io, Io.OnlyEvents [bCaller k.die] s.io io ∧
      bitOf (io.br (bCaller k.die) 0x010) 5 = true ∧ exec (.tokenAccept k) s = .next { s with io := io }) ∧
    (tokenCheck s k = none → waits = true → ∃ io, Io.OnlyEvents [bCaller k.die] s.io io ∧
      exec (.tokenAccept k) s = .next { s.setCaller k.die { c with held := c.held ++ [k] } with io := io }) ∧
    (tokenCheck s k = none → waits = false → k.hold = none → k.cmd = none → t.kind = 0 → ∃ u, exec (.tokenAccept k) s = .next u ∧
      u = { s with io := u.io, call := u.call, adm := u.adm } ∧ Io.OnlyEvents [bCaller k.die] s.io u.io ∧ u.caller (1 - k.die) = s.caller (1 - k.die) ∧
      ((∃ p, p < t.nin ∧ queue p = []) → (u.caller k.die).ready = c.ready ∧ (u.caller k.die).toks = c.toks ++ [k]) ∧
      ((∀ p, p < t.nin → queue p ≠ []) → windowFull s k.die (flowOf t (queue 0).head?) = false → ∃ task,
        (u.caller k.die).ready = c.ready ++ [task] ∧
        (u.caller k.die).toks = ((List.range t.nin).filterMap (fun p => (queue p).head?)).foldl (fun l a => l.erase a) (c.toks ++ [k]) ∧
        task.tmpl = k.tmpl ∧ task.die = k.die ∧ task.svc = t.service ∧ task.readyAt = s.io.tb ∧
        task.id = k.die * 2 ^ 31 + (if c.lastId = 0x7FFFFFFF then 1 else c.lastId + 1) ∧
        task.opnds = (List.range t.nin).map (fun p => (queue p).head?.map (fun a => (a.key, a.val)))))) ∧
  (∀ (s : State) (die : Nat),
    (acceptableHeld s die = none → exec (.heldTokenAccepted die) s = .next s) ∧
    (∀ k v, acceptableHeld s die = some k → k.die = die →
      exec (.tokenAccept k) ((s.mapCaller die (fun c => { c with held := c.held.erase k })).mapCaller die (fun c => { c with held := [] })) = .next v →
      let w := v.mapCaller die (fun c => { c with held := (s.caller die).held.erase k ++ c.held })
      ((∀ n, k.src ≠ .core n) → exec (.heldTokenAccepted die) s = .next w) ∧
      (∀ n d, k.src = .core n → (w.core n).emitDst = some d → exec (.heldTokenAccepted die) s = .next (w.setCore n { w.core n with
        emitDst := none, x := if d = 0 ∨ (tokenCheck s k).isSome then (w.core n).x else smPut 0 d 0 (w.core n).x, pc := (w.core n).pc + 8 })))) ∧
  (∀ (s : State) (die n key idx : Nat), die < 2 →
    let c := s.caller die
    let t := tmplOf s die n
    let ops := instanceToks s die n key idx
    let due := c.timers.any (fun t => t.what == .instance_ n key idx && decide (t.left = 0)) && ops.any (fun o => o.isNone)
    (due = false → exec (.operandTimeout die n key idx) s = .next s) ∧
    (due = true → t.partialFire = true → ∃ u task, exec (.operandTimeout die n key idx) s = .next u ∧
      u = { s with io := u.io, call := u.call, adm := u.adm } ∧ Io.OnlyEvents [bCaller die] s.io u.io ∧
      (u.caller die).ready = c.ready ++ [task] ∧ (u.caller die).toks = (ops.filterMap id).foldl (fun l a => l.erase a) c.toks ∧
      task.tmpl = n ∧ task.opnds = ops.map (fun o => o.map (fun a => (a.key, a.val)))) ∧
    (∀ k, due = true → t.partialFire = false → ops.findSome? id = some k → ∃ u, u = { s with io := u.io, call := u.call } ∧
      Io.OnlyEvents [bCaller die] s.io u.io ∧ bitOf (u.io.br (bCaller die) 0x010) 6 = true ∧
      (u.caller die).ready = c.ready ∧ (u.caller die).toks = (ops.filterMap id).foldl (fun l a => l.erase a) c.toks ∧
      exec (.operandTimeout die n key idx) s = .next (if t.complete = 1 ∨ t.complete = 2 then
        postRecord u (k.ctx + 1) (taskRecord u { id := 0, die := die, tmpl := n, key := k.key, opnds := [], ctx := k.ctx, svc := k.svc } Code.OPERAND_TIMEOUT
          (((List.range ops.length).filter (fun p => (ops.getD p none).isSome)).map (fun p => 2 ^ p)).sum false 0) false else u))) ∧
  ∀ (s : State) (who : Requester) (die : Nat) (v : W32),
    let off := (bCaller die).base + Off.caller_TICK_CFG
    let n := v.toNat % 2 ^ 20
    (∀ io, writeAllowed s.io who (bCaller die) off = some io → exec (.tickCfgWrite who die v) s = .next { s with io := io }) ∧
    (writeAllowed s.io who (bCaller die) off = none →
      (n < 10 ∨ 1000000 < n → exec (.tickCfgWrite who die v) s = .next { s with io := s.io.capture (bCaller die) Code.BAD_TICK off }) ∧
      (10 ≤ n → n ≤ 1000000 → exec (.tickCfgWrite who die v) s = .next (s.setCaller die { s.caller die with tickNext := some n })))

/-- R309 to R311, R314, R315 and R342 to R345. What a dispatch settles first (ended tasks, stale bindings, freed slots) stands in `v`. -/
def Obligations.DispatchGivesTasksToEligibleCores : Prop :=
  (∀ (s : State) (die : Nat),
    let v := refillAll (housekeep (dropStale (formRound s die) die)) die
    (s.io.bf (bCaller die) 0x008 10 10 = 1 → exec (.dispatch die) s = .next s) ∧
    (s.io.bf (bCaller die) 0x008 10 10 ≠ 1 →
      ((∀ t ∈ (v.caller die).ready, chooseCore v t = none) → exec (.dispatch die) s = .next v) ∧
      (∀ l t r n now, readyOrder v die = l ++ t :: r → (∀ u ∈ l, chooseCore v u = none) → chooseCore v t = some (n, now) →
        exec (.dispatch die) s = .next (placeTask v t n now)))) ∧
  (∀ (s : State) (die : Nat), (readyOrder s die).Perm (s.caller die).ready ∧ (readyOrder s die).Pairwise (fun a b => taskBefore s b a = false)) ∧
  (∀ (s : State) (t : Task),
    let free := fun (m : Nat) => eligible s t m && (smFind m (s.caller t.die).next).isNone
    let waits := fun (m : Nat) => free m && (s.core m).run == .waiting
    let works := fun (m : Nat) => free m && ((s.core m).run == .running || (s.core m).run == .between)
    (chooseCore s t = none ↔ ∀ m, waits m = false ∧ works m = false) ∧
    (∀ n, chooseCore s t = some (n, true) → waits n = true ∧
      ∀ m, waits m = true → ((s.core n).lastCn = some t.ctx ∨ ((s.core m).lastCn ≠ some t.ctx ∧ n ≤ m)) ∧
        ((s.core n).lastCn = some t.ctx → (s.core m).lastCn = some t.ctx → n ≤ m)) ∧
    (∀ n, chooseCore s t = some (n, false) → works n = true ∧ ∀ m, waits m = false ∧ (works m = true → (s.core n).startAt ≤ (s.core m).startAt)) ∧
    (∀ n, n < 96 → t.die = n / 48 →
      let u := placeTask s t n true
      let w := placeTask s t n false
      (preOpens s t = [] → t.inst = none → t.binding = none → (tmplOf s t.die t.tmpl).seq ≠ 1 →
        u.core n = startCore s n t ∧ (∀ m, m ≠ n → u.core m = s.core m) ∧ (u.core n).task = some t ∧ (u.core n).run = .running ∧
        (u.core n).pc = ((codeRange s t.svc n).getD (0, 0)).1 + (tmplOf s t.die t.tmpl).entry ∧
        (u.core n).bytes (tmplOf s t.die t.tmpl).opndOff (operandBytes t).length = operandBytes t ∧
        (u.caller t.die).ready = (s.caller t.die).ready.filter (fun x => x.id ≠ t.id)) ∧
      (preOpens s t = [] → smFind n (w.caller t.die).next = some t ∧ w.cores = s.cores ∧
        (w.caller t.die).ready = (s.caller t.die).ready.filter (fun x => x.id ≠ t.id)))) ∧
  (∀ (s : State) (die n : Nat) (b : Batch) (e : ExpertStage), die < 2 → s.expert.batches.find? (fun b => b.die == die && b.serial == n) = some b →
    stageOf s die b.entry = some e → e.pri < 8 →
    let due := (s.caller die).timers.any (fun t => t.what == .expert e.stage b.expert n && decide (t.left = 0))
    (due = false → exec (.expertBatchExpiry die n) s = .next s) ∧
    (due = true → ∃ u task, exec (.expertBatchExpiry die n) s = .next u ∧ u = { s with io := u.io, call := u.call, adm := u.adm, expert := u.expert } ∧
      Io.OnlyEvents [bCaller die] s.io u.io ∧ task.tmpl = b.entry ∧ task.pri = some e.pri ∧ task.opnds = b.toks.map (fun k => some (k.key, k.val)) ∧
      u.expert.batches = s.expert.batches.filter (fun x => x.serial ≠ n) ∧
      (expertSet e b.expert = none → (u.caller die).ready = (s.caller die).ready ++ [task] ∧ u.expert.fired = s.expert.fired) ∧
      (∀ set, expertSet e b.expert = some set → (u.caller die).ready = (s.caller die).ready ∧
        u.expert.fired = s.expert.fired ++ [⟨die, set, task, s.io.tb, e.fwdEntry, e.roundWait, e.roundMin⟩]))) ∧
  ∀ (s : State) (die set : Nat) (f : FiredBatch), die < 2 → s.expert.fired.find? (fun f => f.die == die) = some f → f.set = set →
    let bs := waitingBatches s die set
    let all := ((List.range 48).map (fun p => 48 * die + p)).filter (fun n => !s.io.isOffline (bCore n))
    let able := all.filter (fun n => s.io.enabled (bCore n) && decide (coreMode s n = 0))
    let due := (s.caller die).timers.any (fun t => t.what == .round set && decide (t.left = 0))
    (due = false → exec (.roundWaitExpiry die set) s = .next s) ∧
    (due = true → s.expert.rounds.any (fun r => r.die == die) = true → ∃ u, exec (.roundWaitExpiry die set) s = .next u ∧
      u = { s with call := u.call, expert := { s.expert with fired := u.expert.fired } } ∧ u.expert.fired.map (fun b => b.task) = s.expert.fired.map (fun b => b.task)) ∧
    (due = true → s.expert.rounds.any (fun r => r.die == die) = false → (∀ b ∈ bs, b.task.die = die) → ∃ u new, exec (.roundWaitExpiry die set) s = .next u ∧
      u = { s with io := u.io, call := u.call, adm := u.adm, expert := u.expert } ∧ (u.caller die).ready = (s.caller die).ready ++ new ∧
      (new.map (fun t => t.only)).Perm (all.map some) ∧
      new.take (min bs.length able.length) = (bs.zip able).map (fun e => { e.1.task with only := some e.2, readyAt := s.io.tb }) ∧
      (∀ t ∈ new.drop (min bs.length able.length), t.forwards = true ∧ t.tmpl = f.fwd ∧ t.ctx = f.task.ctx ∧ t.svc = f.task.svc ∧ t.pri = f.task.pri) ∧
      u.expert.rounds = s.expert.rounds ++ [⟨die, set, new.map (fun t => t.id)⟩])

/-- R349, R353, R357 to R365, R423 and R424. -/
def Obligations.CommandsAreTakenInOrderAndCompleteOnce : Prop :=
  (∀ (s : State) (c : Cmd) (status info : Nat) (result : List Byte) (r : Ring), s.ring? c.ring = some r →
    let t := finish s c status result info
    let rec_ := recordBytes c.tag c.op false status ((slotOfRing s c.ring).getD c.ctx) c.pos result s.io.tb info
    t.adm.cmds = s.adm.cmds.filter (fun q => !(q.cmd == c)) ∧
    (c.silent = true → status = Code.OK → t.host = s.host ∧ t.mem = s.mem) ∧
    (c.silent = false ∨ status ≠ Code.OK →
      (r.held ≠ [] ∨ 2 ^ r.cqLog2 ≤ r.unconsumed + 1 → t.mem = s.mem ∧ t.ring? c.ring = some { r with held := r.held ++ [(rec_, c.irq)] }) ∧
      (r.held = [] → r.unconsumed + 1 < 2 ^ r.cqLog2 → r.cqBar2 = true →
        t.mem.ringBytes (r.cqBase + 64 * r.cqTail) 64 = withPhase rec_ r.phase ∧
        (∀ a, a < r.cqBase + 64 * r.cqTail ∨ r.cqBase + 64 * r.cqTail + 64 ≤ a → t.mem.ringByte a = s.mem.ringByte a) ∧
        ∃ q, t.ring? c.ring = some q ∧ q.cqTail = (if r.cqTail + 1 = 2 ^ r.cqLog2 then 0 else r.cqTail + 1) ∧
          q.phase = (if r.cqTail + 1 = 2 ^ r.cqLog2 then !r.phase else r.phase) ∧ q.held = [] ∧ q.sqHead = r.sqHead ∧ q.cqHead = r.cqHead))) ∧
  (∀ (s : State) (c : Cmd), exec (.cmdNop c) s = .next (finish s c Code.OK)) ∧
  (∀ (s : State) (k pos : Nat),
    let before := s.adm.cmds.takeWhile (fun r => !(r.cmd.ring == k && r.cmd.pos == pos))
    ((∃ r ∈ before, r.cmd.ring = k) → exec (.fencedCommandStart k pos) s = .next s) ∧
    ((∀ r ∈ before, r.cmd.ring ≠ k) → exec (.fencedCommandStart k pos) s = .next { s with adm := { s.adm with
      cmds := s.adm.cmds.map (fun r => if r.cmd.ring = k ∧ r.cmd.pos = pos then { r with started := true } else r) } })) ∧
  (∀ (s : State) (k : Nat) (how : ReadEnd), s.ring? k = none → exec (.submissionEntryRead k how) s = .next s) ∧
  (∀ (s : State) (k : Nat) (how : ReadEnd) (r : Ring), s.ring? k = some r →
    let bs := ringFetch s r.sqBar2 (r.sqBase + 64 * r.sqHead)
    let c := parseCmd bs k r.sqHead
    let a := advanceHead s k r
    let t := if k = 0 then a else touchCn a (k - 1)
    let bad := envelopeCheck s bs c (ringSlot s k) (r.oldId.map Prod.fst)
    (mayTake s k r = false → exec (.submissionEntryRead k how) s = .next s) ∧
    (mayTake s k r = true → negState s.io = 2 ∧ r.sqHead ≠ r.sqTail ∧ r.stopped = false ∧ s.rst.power = .d0 ∧
      (s.adm.cmds.filter (fun q => q.cmd.ring == k)).length < 256 ∧
      (∃ q, a.ring? k = some q ∧ q.sqHead = (r.sqHead + 1) % 2 ^ r.sqLog2 ∧ a = { s with host := a.host }) ∧
      (how = .failed → ∃ io, Io.OnlyEvents [bCtxt] s.io io ∧ bitOf (io.br bCtxt 0x010) 2 = true ∧
        exec (.submissionEntryRead k how) s = .next { s.setRing k { r with stopped := true } with io := io }) ∧
      (how = .poisoned → ∃ io, Io.OnlyRegs [bPcie] s.io io ∧ exec (.submissionEntryRead k how) s = .next (postRecord { a with io := io } k
        (recordBytes 0 0 false Code.POISONED ((slotOfRing s k).getD 0) r.sqHead [] s.io.tb 0) false)) ∧
      (how = .ok → (∀ e, bad = some e → exec (.submissionEntryRead k how) s = .next (refuse t c e)) ∧
        (bad = none → exec (.submissionEntryRead k how) s = .next { t with adm := { t.adm with
          cmds := s.adm.cmds ++ [{ cmd := c, started := !(c.fence && s.adm.cmds.any (fun q => q.cmd.ring == k)) }] } }))) ∧
    (fieldAt bs 0 1 ≠ 1 → bad = some Code.BAD_VERSION) ∧
    (fieldAt bs 0 1 = 1 → paramSpans c.op = none → bad = some Code.BAD_OPCODE) ∧
    (fieldAt bs 0 1 = 1 → (paramSpans c.op).isSome = true → k = 0 → controlTakes c.op = false → bad = some Code.NO_SERVICE) ∧
    (fieldAt bs 0 1 = 1 → (paramSpans c.op).isSome = true → k ≠ 0 → 0x20 ≤ c.op → c.op ≤ 0x3F → bad = some Code.CTRL_ONLY)) ∧
  (∀ (s : State) (c : Cmd),
    let w := c.p 0x10 2
    let r := putRelease s (c.ring - 1) (c.issuerSvc s) (w / 32768) (w % 16384)
    let k : Token := { die := w / 32768, tmpl := w % 16384, port := c.p 0x12 1, key := c.p 0x18 8, val := c.p 0x20 8, ctx := c.ring - 1, svc := c.issuerSvc s,
                       rel := r.1, src := .ring c.ring, cmd := some c, cls := r.2.1 }
    ∀ v, exec (.tokenAccept k) r.2.2 = .next v → exec (.tokenPut c) s = .next (if (tokenCheck r.2.2 k).isSome then finish v c Code.BAD_TEMPLATE else v)) ∧
  (∀ (s : State) (c : Cmd),
    let svc := c.issuerSvc s
    let chain := (s.service? svc).bind (fun v => v.chains.find? (fun x => x.id == c.p 0x10 2))
    (chain = none → exec (.fusedRun c) s = .next (refuse s c Code.BAD_CHAIN)) ∧
    (∀ x, chain = some x →
      let die := (x.stage 0).tmpl / 32768
      let n := (x.stage 0).tmpl % 16384
      let t := tmplOf s die n
      let used := slotHolders s die
      let quota := ((s.service? svc).map (fun v => if die = 0 then v.quota0 else v.quota1)).getD 131072
      let short := 131072 < used.length + t.nin ∨ quota < (used.filter (fun v => v == svc)).length + t.nin
      die < 2 → c.op = 0x10 →
      (short → ∃ io, Io.OnlyEvents [bCaller die] s.io io ∧ bitOf (io.br (bCaller die) 0x010) 3 = true ∧ exec (.fusedRun c) s = .next { s with io := io }) ∧
      (¬ short → windowFull s die (flowOf t none) = true → exec (.fusedRun c) s = .next s) ∧
      (¬ short → windowFull s die (flowOf t none) = false → classOfPut s svc die n = none → t.flowMode ≠ 2 → 1 ≤ t.nin → t.chain ≠ 0xFFFF → t.stage = 0 →
        ∃ u task y, exec (.fusedRun c) s = .next u ∧ u = { s with io := u.io, call := u.call, adm := u.adm } ∧ Io.OnlyEvents [bCaller die] s.io u.io ∧
        (u.caller die).ready = (s.caller die).ready ++ [task] ∧ task.tmpl = n ∧ task.inst = some (y.id, 0, 0) ∧
        task.opnds = (List.range t.nin).map (fun i => some (c.p 0x18 8, c.p (0x20 + 8 * i) 8)) ∧
        u.adm.insts = s.adm.insts ++ [y] ∧ y.cmd = some c ∧ y.chain = t.chain ∧ y.ctx = c.ring - 1 ∧ y.failed = none))) ∧
  (∀ (s : State) (c : Cmd),
    let scope := c.p 0x10 1
    (2 < scope → exec (.cancelCmd c) s = .next (refuse s c Code.BAD_CANCEL)) ∧
    (∀ v n, (scope = 0 → cancelTasks s (fun t => t.id == c.p 0x14 4 && c.ring == t.ctx + 1) = (v, n)) →
      (scope = 1 → stopCmds s (fun r => r.cmd.ring == c.ring && r.cmd.tag == c.p 0x18 8 && r.cmd != c) = (v, n)) →
      (scope = 2 → c.ring ≠ 0 ∧ cancelContext s (c.ring - 1) (some c) = (v, n)) → scope ≤ 2 →
      let h := housekeep v
      let fencing := (h.cores.filter (fun e => e.2.fence)).map Prod.fst
      h.adm.cancels = [] →
      ((∃ m ∈ fencing, (h.core m).fence = true) → exec (.cancelCmd c) s = .next { h with adm := { h.adm with cancels := [⟨c, n, fencing⟩] } }) ∧
      (fencing = [] → c.op = 0x12 → exec (.cancelCmd c) s = .next (finish (releaseAll (housekeep h)) c Code.OK (leBytes 4 n)))) ∧
    ∀ p : Task → Bool,
      (liveTasks s p = [] → cancelTasks s p = (s, 0)) ∧
      (∀ t, liveTasks s p = [(t, none)] → t.inst = none → s.expert.fired.any (fun f => f.task.id == t.id) = false →
        cancelTasks s p = (dropTask s t ((((s.caller t.die).next.find? (fun e => e.2.id == t.id)).map Prod.fst).getD 0) Code.CANCELLED, 1)) ∧
      (∀ t n, liveTasks s p = [(t, some n)] → t.inst = none → cancelTasks s p = (abortTask s n Code.CANCELLED 0, 1))) ∧
  ∀ (s : State) (die f : Nat),
    let h := housekeep s
    let flow := fun (t : State) => smGet {} f (t.caller die).flows
    (releaseOne h die f = none → exec (.flowRelease die f) s = .next (housekeep h)) ∧
    (∀ v, releaseOne h die f = some v → (flow v).window.length < (flow h).window.length →
      exec (.flowRelease die f) s = .next (housekeep (releaseFlow v die f 1024))) ∧
    (∀ v, releaseOne s die f = some v → ∃ w rest, (flow s).window = w :: rest ∧ w.ended = true) ∧
    (∀ w rest, (flow s).window = w :: rest → w.ended = true → w.tokens = [] → w.emits = [] → w.inst = none → w.arrs = [] → ∃ t, releaseOne s die f = some (retryFlow t die) ∧
      flow t = { flow s with rel := (w.pos + 1) % 2 ^ 32, window := rest } ∧ t.cores = s.cores ∧ t.adm = s.adm)

/-- R385 and R386: the finitely many checkpoints that admission tests suffice for every t; costs count thousandths of a unit. -/
def Obligations.AdmittedServicesFitTheirResources : Prop :=
  ∀ (s : State) (img : List Byte) (x : Sections) (p : Plan), admTest s img x = .ok p →
    (∀ c ∈ chargesOf s none ++ p.svc.charges, 1 ≤ c.cls.period) →
    ∀ a ∈ p.svc.charges, a.kind ≠ 0x0D →
      let cls := classesOn (chargesOf s none ++ p.svc.charges) a.kind a.inst
      let blk := if a.kind = 4 then blkOn (chargesOf s none ++ p.svc.charges) a.inst else 0
      let cap := cap10 (s.io.bf bAdmit Off.admit_POWER_LIMIT 9 0) a.kind
      let fits := fun (g : Nat) =>
        let bound := ceilOf s a.kind * g * cap
        (utilOf cls).1 ≤ bound * (utilOf cls).2 ∧
        ∀ t, (∃ j ∈ cls, j.dl ≤ t) → t ≤ 2 ^ 32 ∨ horizon cls bound blk < 2 ^ 32 → dbf cls t + 1000 * blk ≤ bound * t
      (a.kind ≠ 4 → fits 1) ∧
      (a.kind = 4 → 1 ≤ (deadlineCores s a.inst).length → ∃ e ∈ p.ents, e.kind = 4 ∧ e.inst = a.inst ∧ 1 ≤ e.g ∧ e.g ≤ (deadlineCores s a.inst).length ∧ fits e.g ∧
        ∀ g, 1 ≤ g → g < e.g → ∀ slack, passes cls 192 g (ceilOf s 4) blk true ≠ .pass slack)

/-- R371 to R381, R388, R392 and R394; the result of the test itself is `admTest`. -/
def Obligations.ServicesAndContextsComeAndGoByCommand : Prop :=
  (∀ (s : State) (adopt : Bool) (c : Cmd) (x : Sections) (ticks : Nat),
    let cmd := if adopt then Instr.svcAdmit c x ticks else Instr.svcQuery c x ticks
    let n : Namer := ⟨c.ring, c.issuerSvc s⟩
    let at_ := c.p 0x20 8
    let refused := fun (code : Nat) => ∃ io, Io.OnlyEvents [bAdmit] s.io io ∧ (adopt = false → io = s.io) ∧
      (adopt = true → bitOf (io.br bAdmit 0x010) 2 = true) ∧ exec cmd s = .next (refuse { s with io := io } c code)
    (s.io.enabled bAdmit = false → exec cmd s = .next s) ∧
    (s.io.enabled bAdmit = true →
      (regionOf s (c.p 0x10 4) = none → refused Code.BAD_REGION) ∧
      ∀ r, regionOf s (c.p 0x10 4) = some r →
        (at_ % 64 ≠ 0 → refused Code.BAD_ALIGN) ∧
        (at_ % 64 = 0 → scopeOk r n = false → refused Code.REGION_PERM) ∧
        (at_ % 64 = 0 → scopeOk r n = true → bitOf r.perm 1 = true → at_ + 64 + 16384 ≤ r.len →
          (∀ e, regionRead s n (c.p 0x10 4) (c.p 0x18 8) 64 = .error e → exec cmd s = .next (refuse s c e)) ∧
          (regionRead s n (c.p 0x10 4) (c.p 0x18 8) 64 = .ok none → exec cmd s = .next (askPages s (c.p 0x10 4) (c.p 0x18 8) 64)) ∧
          (∀ hd img, regionRead s n (c.p 0x10 4) (c.p 0x18 8) 64 = .ok (some hd) → 64 ≤ fieldAt hd 4 4 →
            regionRead s n (c.p 0x10 4) (c.p 0x18 8) (fieldAt hd 4 4) = .ok (some img) →
            let done := fun (f : AdmFail) (es : List ResEnt) (svc outcome : Nat) =>
              s.tWrite 0 r.tier (r.base + at_) (admRecord outcome svc ticks (fieldAt img 0x20 4) f es)
            let reach := fun (f : AdmFail) (es : List ResEnt) (svc outcome : Nat) =>
              tFault s r.tier (r.base + at_) (admRecord outcome svc ticks (fieldAt img 0x20 4) f es).length true = none
            (∀ f, admTest s img x = .error f → reach f [] 0 (if adopt then 1 else 3) → ∃ io, Io.OnlyEvents [bAdmit] s.io io ∧
              (adopt = true → bitOf (io.br bAdmit 0x010) 2 = true) ∧ exec cmd s = .next (finish { done f [] 0 (if adopt then 1 else 3) with io := io } c
                (if adopt then f.code else Code.OK) (leBytes 2 0 ++ leBytes 1 (if adopt then 1 else 3)))) ∧
            (∀ p, admTest s img x = .ok p → adopt = false → reach (failCode Code.OK) p.ents 0 2 → ∃ io, Io.OnlyRegs [bAdmit] s.io io ∧
              exec cmd s = .next (finish { done (failCode Code.OK) p.ents 0 2 with io := io } c Code.OK (leBytes 2 0 ++ leBytes 1 2))) ∧
            (∀ p, admTest s img x = .ok p → adopt = true → reach (failCode Code.OK) p.ents p.svc.num 0 → ∃ a b, Io.OnlyRegs [bAdmit] s.io a ∧
              Io.OnlyRegs [bAdmit] (install { done (failCode Code.OK) p.ents p.svc.num 0 with io := a } p x).io b ∧
              exec cmd s = .next (finish { install { done (failCode Code.OK) p.ents p.svc.num 0 with io := a } p x with io := b } c Code.OK
                (leBytes 2 p.svc.num ++ leBytes 1 0))))))) ∧
  (∀ (s : State) (p : Plan) (x : Sections), (install s p x).adm = { s.adm with
    services := smInsert p.svc.num p.svc s.adm.services, nextSvc := p.svc.num + 1, guard := (guardsOf p.ents).foldl (fun m e => smInsert e.1 e.2 m) s.adm.guard }) ∧
  (∀ (s : State) (c : Cmd), s.io.enabled bAdmit = true →
    (s.service? (c.p 0x10 2) = none → exec (.svcRemove c) s = .next (refuse s c Code.NO_SERVICE)) ∧
    ∀ v, s.service? (c.p 0x10 2) = some v →
      (ctxsOf s v.num ≠ [] → exec (.svcRemove c) s = .next (refuse s c Code.SVC_BUSY)) ∧
      (ctxsOf s v.num = [] → exec (.svcRemove c) s = .next (finish (removeService s v) c Code.OK) ∧ (removeService s v).service? v.num = none ∧
        ∀ n, n ≠ v.num → (removeService s v).service? n = s.service? n)) ∧
  (∀ (s : State) (c : Cmd),
    (∀ e, ctxCreateCheck s (c.p 0x10 2) = .error e → exec (.ctxCreate c) s = .next (refuse s c e (ctxCreateInfo s (c.p 0x10 2) e))) ∧
    (∀ v slot, ctxCreateCheck s (c.p 0x10 2) = .ok (v, slot) → slot.bind s.ctxOfSlot = none → ∃ y : Ctx,
      let slots := (slot.map (fun k => smInsert k y.cn s.adm.slots)).getD s.adm.slots
      let cn := issueNumber 0 65535 (fun i => (smFind i s.adm.ctxs).isSome) (s.adm.ctxs.length + 1) s.adm.nextCn
      y.cn = cn ∧ y.svc = v.num ∧ y.slot = slot ∧ y.home = homeOf s v ∧ y.st = (if v.deadline then .pinned else if slot.isSome then .live else .parked) ∧
      exec (.ctxCreate c) s = .next (finish { s with adm := { s.adm with ctxs := smInsert cn y s.adm.ctxs, nextCn := cn + 1, slots := slots } } c Code.OK
        (leBytes 2 cn ++ leBytes 2 (slot.getD 0xFFFF) ++ leBytes 1 y.st.code)))) ∧
  (∀ (s : State) (c : Cmd),
    (s.ctx? (c.p 0x10 2) = none → exec (.ctxWake c) s = .next (refuse s c Code.NO_CONTEXT) ∧ exec (.ctxDestroy c) s = .next (refuse s c Code.NO_CONTEXT)) ∧
    (∀ y, s.ctx? (c.p 0x10 2) = some y → y.cn = c.p 0x10 2 →
      (y.st = .closing → exec (.ctxWake c) s = .next (refuse s c Code.NO_CONTEXT) ∧
        exec (.ctxDestroy c) s = .next (s.setCtx { y with closeCmds := y.closeCmds ++ [c] })) ∧
      (∀ k, y.slot = some k → y.st = .pinned ∨ y.st = .live → exec (.ctxWake c) s = .next (finish s c Code.OK (leBytes 2 k))) ∧
      (y.st = .parked → ∃ u, exec (.ctxWake c) s = .next u ∧ u.adm.waking = s.adm.waking ++ [y.cn] ∧
        u.ctx? y.cn = some { y with st := .waking, wakeCmds := y.wakeCmds ++ [c] } ∧ u = { s with adm := u.adm }) ∧
      (y.st = .waking → exec (.ctxWake c) s = .next (s.setCtx { y with wakeCmds := y.wakeCmds ++ [c] })) ∧
      (y.st ≠ .closing → ∃ v n, exec (.ctxDestroy c) s = .next (finishCancels { v with adm := { v.adm with
          cancels := v.adm.cancels ++ [⟨c, n, (v.cores.filter (fun e => e.2.fence)).map Prod.fst⟩] } }) ∧
        ∃ w, cancelContext w y.cn none = (v, n) ∧ w.ctx? y.cn = some { y with st := .closing, closeCmds := [c], wakeCmds := [] } ∧
          w.adm.waking = s.adm.waking.filter (fun k => k ≠ y.cn)))) ∧
  (∀ s : State,
    (s.adm.waking = [] ∨ winnable s = none → exec .ctxWinSlot s = .next s) ∧
    (∀ cn rest y k, s.adm.waking = cn :: rest → s.ctx? cn = some y → y.cn = cn → freeUnreserved s = some k → ∃ io u, Io.OnlyEvents [bAdmit] s.io io ∧
      (let z : Ctx := { y with st := .live, slot := some k, last := s.io.tb, wakeCmds := [] }
       let a : AdmSt := { s.adm with waking := rest, ctxs := smInsert cn z s.adm.ctxs, slots := smInsert k cn s.adm.slots }
       u = y.wakeCmds.foldl (fun s d => finish s d Code.OK (leBytes 2 k)) { s with io := io, adm := a }) ∧
      exec .ctxWinSlot s = .next (deliverArrivals u cn))) ∧
  (∀ (s : State) (die id : Nat) (t : Task) (d : Nat),
    ((s.caller die).ready ++ (s.caller die).next.map Prod.snd ++ s.cores.filterMap (fun e => e.2.task)).find? (fun t => t.die == die && t.id == id) = some t →
    t.deadline = some d →
    (t.missed = true ∨ s.io.tb ≤ d → exec (.deadlineMiss die id) s = .next s) ∧
    (t.missed = false → d < s.io.tb → ∃ io, Io.OnlyEvents [bAdmit] s.io io ∧ bitOf (io.br bAdmit 0x010) 4 = true ∧
      exec (.deadlineMiss die id) s = .next { markMissed s die id with io := io })) ∧
  ∀ (s : State) (who : Requester) (v : W32),
    let ceil := bAdmit.base + Off.admit_ADM_CEIL
    let power := bAdmit.base + Off.admit_POWER_LIMIT
    (∀ io, writeAllowed s.io who bAdmit ceil = some io → exec (.admCeilWrite who v) s = .next { s with io := io }) ∧
    (∀ io, writeAllowed s.io who bAdmit power = some io → exec (.powerLimitWrite who v) s = .next { s with io := io }) ∧
    (writeAllowed s.io who bAdmit ceil = none → ∃ io, Io.OnlyEvents [bAdmit] s.io io ∧ exec (.admCeilWrite who v) s = .next { s with io := io } ∧
      ∀ i, i < 4 → let p := v.toNat / 2 ^ (8 * i) % 256
        io.fld ceil (8 * i + 7) (8 * i) = if 1 ≤ p ∧ p ≤ 95 then p else s.io.fld ceil (8 * i + 7) (8 * i)) ∧
    (writeAllowed s.io who bAdmit power = none →
      let p := v.toNat % 1024
      exec (.powerLimitWrite who v) s = .next { s with io := if 300 ≤ p ∧ p ≤ 750 then s.io.setReg power p else s.io.capture bAdmit Code.BAD_CEILING power })

/-- R419, R421 to R428. -/
def Obligations.RingsAndDoorbellsFollowTheirWriter : Prop :=
  (∀ (s : State) (who : Requester) (o : Nat) (v : W64), o ∈ [Off.ctxt_CTRL_SQ_BASE_LO, Off.ctxt_CTRL_CQ_BASE_LO, Off.ctxt_CTRL_RING] →
    let off := bCtxt.base + o
    let row := Instr.ctrlRingWrite who off v
    let sq := if o = Off.ctxt_CTRL_SQ_BASE_LO then v.toNat else s.io.reg64 (bCtxt.base + Off.ctxt_CTRL_SQ_BASE_LO)
    let cq := if o = Off.ctxt_CTRL_CQ_BASE_LO then v.toNat else s.io.reg64 (bCtxt.base + Off.ctxt_CTRL_CQ_BASE_LO)
    let r := if o = Off.ctxt_CTRL_RING then v.toNat % 2 ^ 32 / 512 * 512 else s.io.br bCtxt Off.ctxt_CTRL_RING
    let new := ctrlRing sq cq r
    let size := fun (n : Nat) => n = 0 ∨ (4 ≤ n ∧ n ≤ 16)
    let good := size (bitsOf r 15 11) ∧ size (bitsOf r 20 16) ∧ (∀ x, new = some x → badCtrl x = false)
    (∀ io, writeAllowed s.io who bCtxt off = some io → exec row s = .next { s with io := io }) ∧
    (writeAllowed s.io who bCtxt off = none →
      (negState s.io = 2 → exec row s = .next { s with io := s.io.capture bCtxt Code.RING_BUSY off }) ∧
      (negState s.io ≠ 2 → ¬ good → exec row s = .next { s with io := s.io.capture bCtxt Code.RING_RANGE off }) ∧
      (negState s.io ≠ 2 → good → ∃ u, exec row s = .next u ∧ u = { s with io := u.io, host := { s.host with keptDb := none, rings := u.host.rings } } ∧
        Io.OnlyRegs [bCtxt] s.io u.io ∧ u.ring? 0 = new ∧ (∀ k, k ≠ 0 → u.ring? k = s.ring? k) ∧
        u.io.reg64 (bCtxt.base + Off.ctxt_CTRL_SQ_BASE_LO) = sq ∧ u.io.reg64 (bCtxt.base + Off.ctxt_CTRL_CQ_BASE_LO) = cq ∧ u.io.br bCtxt Off.ctxt_CTRL_RING = r))) ∧
  (∀ (s : State) (c : Cmd),
    let cn := c.p 0x10 2
    (∀ e, ringSetCheck s c = some e → exec (.ringSet c) s = .next (refuse s c e)) ∧
    (s.ctx? cn = none → ringSetCheck s c = some Code.NO_CONTEXT) ∧
    ((s.ctx? cn).isSome = true → s.adm.cmds.any (fun q => q.cmd.ring == cn + 1) = true ∨ (∃ q, s.ring? (cn + 1) = some q ∧ q.sqHead ≠ q.sqTail) →
      ringSetCheck s c = some Code.RING_BUSY) ∧
    (ringSetCheck s c = none → ∃ ing,
      exec (.ringSet c) s = .next (creditsFor (finish { s with host := { s.host with rings := smInsert (cn + 1) (ringOf c) s.host.rings, ing := ing } } c Code.OK) cn) ∧
      (∀ q, s.ring? (cn + 1) = some q → q.inRegion = (ringOf c).inRegion → ing = s.host.ing) ∧ (∀ k, k ≠ cn → smFind k ing = smFind k s.host.ing) ∧
      (ringOf c).sqHead = 0 ∧ (ringOf c).sqTail = 0 ∧ (ringOf c).cqHead = 0 ∧ (ringOf c).cqTail = 0 ∧ (ringOf c).phase = true ∧ (ringOf c).armed = true)) ∧
  (∀ (s : State) (slot : Nat) (v : W32),
    let pos := v.toNat % 65536
    (dbRing s slot (v.toNat / 65536) = none → ∃ io, Io.OnlyEvents [bCtxt] s.io io ∧
      exec (.sqDb slot v) s = .next { s with io := (s.io.count bCtxt Off.ctxt_DB_STALE 1).capture bCtxt Code.DOORBELL_STALE (slot * 4096) } ∧
      exec (.cqDb slot v) s = .next { s with io := (s.io.count bCtxt Off.ctxt_DB_STALE 1).capture bCtxt Code.DOORBELL_STALE (slot * 4096 + 4) } ∧
      exec (.cqArm slot v) s = .next { s with io := io }) ∧
    ∀ k r, dbRing s slot (v.toNat / 65536) = some (k, r) →
      s.ring? k = some r ∧ (slot = 0 → k = 0) ∧ (slot ≠ 0 → s.cnOfSlot slot = some (v.toNat / 65536) ∧ k = v.toNat / 65536 + 1) ∧
      (2 ^ r.sqLog2 ≤ pos → exec (.sqDb slot v) s = .next { s with io := s.io.capture bCtxt Code.DOORBELL_RANGE (slot * 4096) }) ∧
      (2 ^ r.cqLog2 ≤ pos → exec (.cqDb slot v) s = .next { s with io := s.io.capture bCtxt Code.DOORBELL_RANGE (slot * 4096 + 4) }) ∧
      (pos < 2 ^ r.sqLog2 → slot = 0 → negState s.io ≠ 2 → exec (.sqDb slot v) s = .next { s with host := { s.host with keptDb := some pos } }) ∧
      (pos < 2 ^ r.sqLog2 → slot ≠ 0 ∨ negState s.io = 2 → exec (.sqDb slot v) s = .next (s.setRing k { r with sqTail := pos })) ∧
      (pos < 2 ^ r.cqLog2 → exec (.cqDb slot v) s = .next (drainRing (s.setRing k { r with cqHead := pos }) k (r.held.length + 1))) ∧
      (pos < 2 ^ r.cqLog2 → r.held = [] → exec (.cqDb slot v) s = .next (s.setRing k { r with cqHead := pos })) ∧
      (v.toNat % 2 = 0 → exec (.cqArm slot v) s = .next s) ∧
      (v.toNat % 2 = 1 → r.cqTail = r.cqHead → exec (.cqArm slot v) s = .next (s.setRing k { r with armed := true, pend := 0 })) ∧
      (v.toNat % 2 = 1 → r.cqTail ≠ r.cqHead → exec (.cqArm slot v) s = .next (fireVector (s.setRing k { r with armed := false, pend := 0 }) r.vector))) ∧
  (∀ (s : State) (k : Nat) (r : Ring), s.ring? k = some r →
    let due := r.armed = true ∧ r.pend ≠ 0 ∧ r.modTime ≠ 0 ∧ r.pendAt + 100 * r.modTime ≤ s.io.tb
    (¬ due → exec (.modTimeExpiry k) s = .next s) ∧
    (due → exec (.modTimeExpiry k) s = .next (fireVector (s.setRing k { r with armed := false, pend := 0 }) r.vector))) ∧
  (∀ s : State, exec (.busMasterEnable false) s = .next { s with host := { s.host with bme := false } } ∧
    ∃ u, exec (.busMasterEnable true) s = .next u ∧ u.host.bme = true ∧ u.host.heldReq = [] ∧ u = { s with io := u.io, mem := u.mem, host := u.host } ∧
      u.mem = s.host.heldReq.foldl (fun m q => match q with | .write a bs => m.putHost a bs | .msix _ => m) s.mem) ∧
  ∀ (s : State) (off : Nat) (v : W32),
    (off ≠ fnMaskOff → off < 0x3FF0000 ∨ 0x3FF8000 ≤ off ∨ off % 4 ≠ 0 → exec (.msixVectorUnmask off v) s = .next s) ∧
    ((off = fnMaskOff ∨ (0x3FF0000 ≤ off ∧ off < 0x3FF8000 ∧ off % 4 = 0)) → s.host.bme = true → s.host.heldReq = [] → ∃ u, exec (.msixVectorUnmask off v) s = .next u ∧
      u = { s with io := u.io, host := { s.host with fnMask := u.host.fnMask, msix := u.host.msix, pba := u.host.pba } } ∧
      (off = fnMaskOff → u.host.fnMask = decide (v.toNat % 2 = 1) ∧ u.host.msix = s.host.msix) ∧
      (off ≠ fnMaskOff → let i := (off - 0x3FF0000) / 16
        let e := smGet {} i s.host.msix
        u.host.fnMask = s.host.fnMask ∧ (∀ j, j ≠ i → smGet {} j u.host.msix = smGet {} j s.host.msix) ∧
        smGet {} i u.host.msix = if off % 16 = 0 then { e with addr := e.addr / 2 ^ 32 * 2 ^ 32 + v.toNat }
          else if off % 16 = 4 then { e with addr := e.addr % 2 ^ 32 + v.toNat * 2 ^ 32 }
          else if off % 16 = 8 then { e with data := v.toNat } else { e with masked := decide (v.toNat % 2 = 1) }) ∧
      (let sent := s.host.pba.filter (fun i => !u.host.fnMask && !(smGet {} i u.host.msix).masked)
       u.host.pba = s.host.pba.filter (fun i => !sent.contains i) ∧
       u.io = sent.foldl (fun io i => io.send ⟨"MSIX", (smGet {} i u.host.msix).addr, (smGet {} i u.host.msix).data, []⟩) s.io))

/-- R414, R419 and R420; `resumeWhere` and `failWhere` act on the streams that wait for the page. -/
def Obligations.HostPagesAndReadsResolveOrFail : Prop :=
  (∀ (s : State) (die page : Nat), ∃ h, exec (.atsInvalidation die page) s = .next { s with host := h } ∧
    h = { s.host with invs := h.invs, unmapped := h.unmapped } ∧ (∀ e, e ∈ h.invs ↔ e ∈ s.host.invs ∨ e = (die, page)) ∧
    (∀ p, p ∈ h.unmapped ↔ p ∈ s.host.unmapped ∨ p = page)) ∧
  (∀ (s : State) (die page : Nat),
    ((die, page) ∉ s.host.invs ∨ transUsed s die page = true → exec (.atsInvalidationDone die page) s = .next s) ∧
    ((die, page) ∈ s.host.invs → transUsed s die page = false → exec (.atsInvalidationDone die page) s =
      .next { s with host := { s.host with invs := s.host.invs.erase (die, page) }, io := s.io.send ⟨"INV_DONE", die, page, []⟩ })) ∧
  (∀ (s : State) (page : Nat) (resp : PrgResp), page ∉ s.host.priPages.take 512 → exec (.prgResponse page resp) s = .next s) ∧
  (∀ (s : State) (page : Nat), page ∈ s.host.priPages.take 512 →
    let left := s.host.priPages.erase page
    let mine : Nat → Nat → Bool := fun c a => decide (c = Code.HOST_NOT_PRESENT) && decide (a / 4096 = page)
    let more : Io := match left[511]? with
      | some p => s.io.send ⟨"PRI", p, 0, []⟩
      | none => s.io
    (∀ r w, ∃ h, exec (.prgResponse page (.success r w)) s = .next (housekeep (resumeWhere { s with host := h, io := more } mine)) ∧
      h = { s.host with priPages := left, unmapped := h.unmapped, noRead := h.noRead, noWrite := h.noWrite } ∧ page ∉ h.unmapped ∧
      (page ∈ h.noRead ↔ r = false) ∧ (page ∈ h.noWrite ↔ w = false) ∧
      (∀ p, p ≠ page → (p ∈ h.unmapped ↔ p ∈ s.host.unmapped) ∧ (p ∈ h.noRead ↔ p ∈ s.host.noRead) ∧ (p ∈ h.noWrite ↔ p ∈ s.host.noWrite))) ∧
    exec (.prgResponse page .invalidRequest) s = .next (housekeep (failWhere { s with host := { s.host with priPages := left }, io := more } Code.HOST_DENIED mine)) ∧
    ∃ io, Io.OnlyEvents [bPcie] s.io io ∧ bitOf (io.br bPcie 0x010) 3 = true ∧ exec (.prgResponse page .responseFailure) s =
      .next (housekeep (failWhere { s with host := { s.host with priPages := left, priStopped := true }, io := io } Code.HOST_DENIED mine))) ∧
  (∀ (h : HostSt) (page : Nat), h.priStopped = true → h.cplErr = false → page ∈ h.unmapped → ∀ w, hostFault h page w = some Code.HOST_DENIED) ∧
  (∀ (h : HostSt) (page : Nat), hostFault { h with cplErr := true } page false = some Code.HOST_DENIED) ∧
  (∀ s : State, ∃ io, Io.OnlyEvents [bPcie] s.io io ∧ bitOf (io.br bPcie 0x010) 2 = true ∧
    let t : State := { s with io := io }
    let failed := fun (f : State → State) => withCplErr t f
    (∀ k r, s.ring? k = some r → mayTake t k r = true → r.sqBar2 = false → exec (.cplTimeout (.ring k)) s = .next (ringFault t k r)) ∧
    (∀ k, s.ring? k = none → exec (.cplTimeout (.ring k)) s = .next t) ∧
    (∀ n k r, s.fetch.lines.find? (fun r => decide (r.core = n) && decide (r.st = k) && decide (r.tier = 4) && !r.write) = some r →
      exec (.cplTimeout (.stream n k)) s = .next (housekeep (failed (fun s => returnLine s r)))) ∧
    (∀ u op, exec (.cplTimeout (.egp u op)) s = .next (failed (fun s => egpRow s u op))) ∧
    (∀ u op, exec (.cplTimeout (.winnow u op)) s = .next (failed (fun s => winRow1 s u op))) ∧
    (∀ u n, exec (.cplTimeout (.weaver u n)) s = .next (failed (fun s => weaveDone s u n)))) ∧
  (∀ (s : State) (ats pri : Bool),
    let h : HostSt := { s.host with atsEn := ats, priEn := pri, priStopped := s.host.priStopped && (s.host.priEn || !pri) }
    exec (.atsPriEnable ats pri) s = .next { s with io := setFeature s.io 5 (ats && pri), host := h }) ∧
  ∀ (s : State) (n : Nat), (30 ≤ n → n ≤ 39 → exec (.resizableBar n) s = .next { s with io := { s.io with bar4Log2 := n } }) ∧
    (n < 30 ∨ 39 < n → exec (.resizableBar n) s = .next s)

/-- R431 to R440; `arrive` hands the token to its context and `sessResend` sends again what is not acknowledged. -/
def Obligations.SessionsPlaceMessagesOnTheirCredits : Prop :=
  (∀ size max pos : Nat, 0 < size → pos ≤ placeAt size max pos ∧ placeAt size max pos < pos + size + 1 ∧
    (max ≤ size → placeAt size max pos % size + max ≤ size) ∧ (max ≤ size - pos % size → placeAt size max pos = pos)) ∧
  (∀ (s : State) (c : Cmd),
    (∀ e, sessBindCheck s c = .error e → exec (.sessBind c) s = .next (refuse s c e)) ∧
    (16384 ≤ c.p 0x10 2 ∨ (smFind (c.p 0x10 2) s.host.sess).isSome = true → sessBindCheck s c = .error Code.SESS_RANGE) ∧
    (∀ x f, sessBindCheck s c = .ok (x, f) → s.ctx? (c.p 0x12 2) = some x ∧ (inRegion s x.cn).isSome = true ∧ f < 8192 ∧
      3 ≤ c.p 0x1B 1 ∧ c.p 0x1B 1 ≤ 5 ∧ 64 ≤ c.p 0x30 4 ∧ c.p 0x30 4 ≤ 16777216 ∧
      let q : Sess := { sessOf c x.cn with tmpl := c.p 0x14 2 % 16384, die := c.p 0x14 2 / 32768, port := c.p 0x16 1, classId := c.p 0x38 2, flow := some f }
      exec (.sessBind c) s = .next (creditsFor (finish (setSess (giveFlow s x.home f) (c.p 0x10 2) q) c Code.OK) x.cn))) ∧
  (∀ (s : State) (c : Cmd),
    let n := c.p 0x10 2
    (smFind n s.host.sess = none → exec (.sessUnbind c) s = .next (refuse s c Code.SESS_RANGE)) ∧
    ∀ x, smFind n s.host.sess = some x →
      let busy := (∃ r ∈ (ingress s x.cn).recs, r.src = n) ∨ ∃ m ∈ s.fab.msgs, m.why = .session n
      (busy → exec (.sessUnbind c) s = .next (refuse s c Code.SESS_BUSY)) ∧
      (¬ busy → ∃ u, exec (.sessUnbind c) s = .next (creditsFor (finish u c Code.OK) x.cn) ∧ smFind n u.host.sess = none ∧
        (∀ k, k ≠ n → smFind k u.host.sess = smFind k s.host.sess) ∧ (∀ e ∈ (ingress u x.cn).resv, e.1 ≠ n) ∧
        u = { s with host := { s.host with sess := u.host.sess, ing := u.host.ing }, call := u.call })) ∧
  (∀ (s : State) (n : Nat) (x : Sess), smFind n s.host.sess = some x →
    (x.st = 2 → ∀ code, sessError s n code = s) ∧
    (x.st ≠ 2 → ∀ code, ∃ io ing, Io.OnlyEvents [bSession] s.io io ∧ bitOf (io.br bSession 0x010) 2 = true ∧ sessError s n code =
      { s with io := io, host := { s.host with sess := smInsert n { x with st := 2, unacked := [] } s.host.sess, ing := ing } })) ∧
  (∀ (s : State) (n : Nat) (data : List Byte),
    (smFind n s.host.sess = none → ∀ m, exec (.sendMessage n m) s = .next s) ∧
    ∀ x, smFind n s.host.sess = some x →
      (x.st ≠ 1 → ∀ m, exec (.sendMessage n m) s = .next s) ∧
      (x.st = 1 → ∃ code, exec (.sendMessage n none) s =
        .next ((sessError { s with io := { s.io with free := s.io.free + 1 } } n code).mapIo (fun io => io.send ⟨"ROCE_NAK", n, 0, []⟩))) ∧
      (x.st = 1 →
        let nak : Host.Outcome State Fault Refusal := .next ((sessError s n Code.MSG_SIZE).mapIo (fun io => io.send ⟨"ROCE_NAK", n, 0, []⟩))
        let rnr : Host.Outcome State Fault Refusal := .next (s.mapIo (fun io => (io.count bSession Off.session_RNR_SENT 1).send ⟨"ROCE_RNR", n, 0, []⟩))
        let pk := max 1 (cdiv data.length x.mtuBytes)
        let ack : Tx := ⟨"ROCE_ACK", n, (x.psnRx + pk - 1) % 2 ^ 24, []⟩
        let got : Sess := { x with msgs := x.msgs + 1, psnRx := (x.psnRx + pk) % 2 ^ 24 }
        (x.fwd = none →
          (x.maxMsg < data.length → exec (.sendMessage n (some data)) s = nak) ∧
          (data.length ≤ x.maxMsg → (∀ e ∈ (ingress s x.cn).resv, e.1 ≠ n) → exec (.sendMessage n (some data)) s = rnr) ∧
          (data.length ≤ x.maxMsg → (∃ e ∈ (ingress s x.cn).resv, e.1 = n) → x.classId = 0xFFFF → ∀ size base, inRegion s x.cn = some (size, base) → ∃ u k,
            exec (.sendMessage n (some data)) s = .next (arrive u k) ∧
            let g := ingress s x.cn
            let at_ := placeAt size x.maxMsg g.tail
            k.die = x.die ∧ k.tmpl = x.tmpl ∧ k.port = x.port ∧ k.key = n * 2 ^ 32 + x.msgs % 2 ^ 32 ∧ k.val = data.length * 2 ^ 32 + at_ % size ∧
            k.ctx = x.cn ∧ k.flow = x.flow ∧ k.src = .session n ∧ k.arr = some (x.cn, n, x.msgs % 2 ^ 32) ∧
            u = { s with io := s.io.send ack, mem := s.mem.write (base + at_ % size) data false,
                         host := { s.host with sess := smInsert n got s.host.sess, ing := u.host.ing } } ∧
            (ingress u x.cn).tail = at_ + lines64 data.length ∧ (ingress u x.cn).recs = g.recs ++ [⟨n, at_, data.length, false, x.msgs % 2 ^ 32⟩] ∧
            (ingress u x.cn).resv.length + 1 = g.resv.length ∧ (∀ c, c ≠ x.cn → ingress u c = ingress s c))) ∧
        (∀ dst inbox, x.fwd = some (dst, inbox) →
          let lim := min x.maxMsg ((smFind (dst * 65536 + inbox) s.fab.maxMsgs).getD x.maxMsg)
          (lim < data.length → exec (.sendMessage n (some data)) s = nak) ∧
          (data.length ≤ lim → x.credits = 0 → exec (.sendMessage n (some data)) s = rnr) ∧
          (data.length ≤ lim → x.credits ≠ 0 → exec (.sendMessage n (some data)) s = .next (queueMsg
            { s with io := s.io.send ack, host := { s.host with sess := smInsert n { got with credits := x.credits - 1 } s.host.sess } } dst inbox data [] (.session n)))))) ∧
  (∀ (s : State) (n : Nat),
    (smFind n s.host.sess = none → exec (.ecnCeReceived n) s = .next s ∧ exec (.cnpReceived n) s = .next s ∧ exec (.rateIncrease n) s = .next s ∧
      exec (.localAckTimeout n) s = .next s ∧ ∀ psn k, exec (.roceAck n psn k) s = .next s) ∧
    ∀ x, smFind n s.host.sess = some x →
      let becomes := fun (y : Sess) => ({ s with host := { s.host with sess := smInsert n y s.host.sess } } : State)
      let retry : State := if 7 ≤ x.retries then sessError s n Code.SESS_DOWN else sessResend (becomes { x with retries := x.retries + 1 }) n x
      ((∃ t, x.lastCnpTx = some t ∧ s.io.tb < t + 5000) → exec (.ecnCeReceived n) s = .next s) ∧
      ((∀ t, x.lastCnpTx = some t → t + 5000 ≤ s.io.tb) → exec (.ecnCeReceived n) s = .next ((becomes { x with lastCnpTx := some s.io.tb }).mapIo (fun io => io.send ⟨"CNP", n, 0, []⟩))) ∧
      exec (.cnpReceived n) s = .next (becomes { x with rate := max 1 (x.rate / 2), lastCnpRx := some s.io.tb }) ∧
      ((1048576 ≤ x.rate ∨ ∀ t, x.lastCnpRx = some t → s.io.tb < t + 5500) → exec (.rateIncrease n) s = .next s) ∧
      (x.rate < 1048576 → (∃ t, x.lastCnpRx = some t ∧ t + 5500 ≤ s.io.tb) →
        exec (.rateIncrease n) s = .next (becomes { x with rate := min 1048576 (x.rate + 65536), lastCnpRx := some s.io.tb })) ∧
      (x.st ≠ 1 → exec (.localAckTimeout n) s = .next s ∧ ∀ psn k, exec (.roceAck n psn k) s = .next s) ∧
      (x.st = 1 → ∀ psn,
        (∃ y : Sess, exec (.roceAck n psn .ack) s = .next (becomes y) ∧ y = { x with unacked := y.unacked, retries := 0, rnrHeld := false } ∧
          ∀ e, e ∈ y.unacked ↔ e ∈ x.unacked ∧ 2 ^ 23 ≤ (psn + 2 ^ 24 - e.1) % 2 ^ 24) ∧
        exec (.roceAck n psn .rnr) s = .next (becomes { x with rnrHeld := true }) ∧
        exec (.roceAck n psn (.nak 0)) s = .next retry ∧ (∀ d, d ≠ 0 → ∃ code, exec (.roceAck n psn (.nak d)) s = .next (sessError { s with io := { s.io with free := s.io.free + 1 } } n code))) ∧
      (x.st = 1 → x.unacked = [] → exec (.localAckTimeout n) s = .next s) ∧
      (x.st = 1 → x.unacked ≠ [] → x.rnrHeld = true → exec (.localAckTimeout n) s = .next (sessResend (becomes { x with rnrHeld := false }) n x)) ∧
      (x.st = 1 → x.unacked ≠ [] → x.rnrHeld = false → exec (.localAckTimeout n) s = .next retry)) ∧
  (∀ (s : State) (n : Nat) (x : Sess), ∃ txs, sessResend s n x = { s with io := { s.io with tx := s.io.tx ++ txs } } ∧ txs.map (fun t => t.data) = x.unacked.map Prod.snd) ∧
  (∀ (s : State) (port : Nat) (up : Bool), port < 2 →
    (s.host.ethUp.contains port = up → exec (.ethLinkChange port up) s = .next s) ∧
    (s.host.ethUp.contains port ≠ up → ∃ io l, Io.OnlyEvents [bEth port] s.io io ∧ bitOf (io.br (bEth port) 0x010) 2 = true ∧
      exec (.ethLinkChange port up) s = .next { s with io := io, host := { s.host with ethUp := l } } ∧ l.contains port = up ∧
      ∀ p, p ≠ port → (p ∈ l ↔ p ∈ s.host.ethUp)) ∧
    exec (.nonRoceFrame port) s = .next { s with io := s.io.count (bEth port) Off.eth_DROPPED 1 }) ∧
  (∀ (s : State) (sec ns : Nat) (locked : Bool) (ppb : W32),
    let servo := s.io.bf bTime Off.time_PTP_CTRL 0 0 = 1 ∧ s.io.bf bTime Off.time_PTP_CTRL 1 1 = 1
    let io := s.io.setReg (bTime.base + Off.time_PTP_ADJ) ppb.toNat
    (¬ servo → exec (.ptpMessage sec ns locked ppb) s = .next s) ∧
    (servo → exec (.ptpMessage sec ns locked ppb) s = .next { s with io := if s.host.ptpLocked = locked then io else io.rise bTime 2, host := { s.host with ptpSec := sec % 2 ^ 48, ptpNs := ns % 1000000000, ptpFrac := 0, ptpLocked := locked } })) ∧
  ∀ (s : State) (who : Requester),
    (∀ io, writeAllowed s.io who bTime (bTime.base + Off.time_SNAP) = some io → exec (.snap who) s = .next { s with io := io }) ∧
    (writeAllowed s.io who bTime (bTime.base + Off.time_SNAP) = none → s.host.ptpSec < 2 ^ 64 → s.host.ptpNs < 2 ^ 32 → s.io.tb < 2 ^ 64 →
      ∃ io, Io.OnlyRegs [bTime] s.io io ∧ exec (.snap who) s = .next { s with io := io } ∧
        io.reg64 (bTime.base + Off.time_PTP_SEC_LO) = s.host.ptpSec ∧ io.br bTime Off.time_PTP_NS = s.host.ptpNs ∧ io.reg64 (bTime.base + Off.time_TB_SNAP_LO) = s.io.tb)

/-- R415, R430, R441 and R517; TIER3 is feature bit 2 (Table 2.13). -/
def Obligations.MemoryPortsAndSleepFollowTheirLinks : Prop :=
  (∀ (s : State) (p : Nat), p < 2 →
    let b : Block := ⟨.cxl, p⟩
    let up := s.io.bf b Off.cxl_LINK 31 31 = 1
    (¬ up → exec (.cxlLinkDown p) s = .next s) ∧
    (up → ∃ io m, exec (.cxlLinkDown p) s = .next { s with io := setFeature io 2 (tier3Up m), mem := m } ∧
      Io.OnlyRegs [b] s.io io ∧ io.br b Off.cxl_LINK = 0 ∧ m = { s.mem with lost := m.lost } ∧
      (∀ k, k ∈ m.lost ↔ k ∈ s.mem.lost ∨ (k = b ∧ p ∈ s.mem.cxlUp)) ∧
      (s.io.frozen b = false → io.br b Off.cxl_DOWN_EVENTS = min 0xFFFFFFFF (s.io.br b Off.cxl_DOWN_EVENTS + 1)))) ∧
  (∀ (s : State) (p raw speed width : Nat) (type3 : Bool), p < 2 → s.mem.cxlRaw.length = 2 →
    let b : Block := ⟨.cxl, p⟩
    let up := s.io.bf b Off.cxl_LINK 31 31 = 1
    (up → exec (.cxlHotAdd p raw speed width type3) s = .next s) ∧
    (¬ up → ∃ io, Io.OnlyRegs [b] s.io io ∧ io.bf b Off.cxl_LINK 31 31 = 1 ∧ io.bf b Off.cxl_LINK 7 4 = width % 16 ∧ io.bf b Off.cxl_LINK 3 0 = speed % 16 ∧
      (type3 = false ∨ b ∈ s.mem.lost → exec (.cxlHotAdd p raw speed width type3) s = .next { s with io := io }) ∧
      (type3 = true → b ∉ s.mem.lost → ∃ m, exec (.cxlHotAdd p raw speed width type3) s = .next { s with io := setFeature io 2 true, mem := m } ∧
        m = { s.mem with cxlUp := m.cxlUp, cxlRaw := m.cxlRaw } ∧ (∀ q, q ∈ m.cxlUp ↔ q ∈ s.mem.cxlUp ∨ q = p) ∧
        m.cxlRaw.getD p 0 = raw ∧ m.cxlRaw.getD (1 - p) 0 = s.mem.cxlRaw.getD (1 - p) 0))) ∧
  (∀ m : MemSt, tier3Up m = true ↔ ∃ p ∈ m.cxlUp, (⟨.cxl, p⟩ : Block) ∉ m.lost) ∧
  (∀ s : State,
    let at_ := fun (p : PowerState) => ({ s with rst := { s.rst with power := p } } : State)
    (s.rst.power = .d0 → exec .d3hotEntry s = .next (at_ .d3pend) ∧ exec .d0Return s = .next s) ∧
    (s.rst.power = .d3pend → ((∃ e ∈ s.adm.ctxs, ctxActive s e.1 = true) → exec .d3hotEntry s = .next s) ∧
      ((∀ e ∈ s.adm.ctxs, ctxActive s e.1 = false) → exec .d3hotEntry s = .next (at_ .d3hot))) ∧
    (s.rst.power = .d3hot → exec .d3hotEntry s = .next s) ∧
    (s.rst.power = .d3pend ∨ s.rst.power = .d3hot → exec .d0Return s = .next (s.adm.ctxs.foldl (fun s e => creditsFor s e.1) (at_ .d0)))) ∧
  ∀ (s : State) (k r : Nat) (g : Ring), s.rst.power ≠ .d0 → mayTake s k g = false ∧ grantCredits s r 1 = s

/-- R443 to R446 and R455; `pumpLink` sends what waits, `reroute` and `linkUp` tell the fabric. -/
def Obligations.ReelLinksRetryReplayAndTrain : Prop :=
  (∀ (seq kind ack credit cvc pvc : Nat) (p : List Byte), p.length ≤ 242 → kind < 4 → cvc < 4 →
    let f := flitBytes seq kind ack credit cvc pvc p
    f.length = 256 ∧ flitSeq f = seq % 4096 ∧ flitKind f = kind ∧ fieldAt f 2 2 = ack % 4096 ∧ fieldAt f 4 2 % 16384 = credit % 16384 ∧ fieldAt f 4 2 / 16384 = cvc ∧
    fieldAt f 6 4 = pvc % 4 ∧ (f.drop 10).take p.length = p ∧ flitBad f false = false) ∧
  (∀ (s : State) (l : Nat) (flit : List Byte) (n : Nat) (unc : Bool), l < 12 →
    let bad := flitBad flit unc
    let a : State := { s with io := flitCount s.io l flit n unc }
    let x := s.link l
    Io.OnlyRegs [bLink l] s.io a.io ∧
    (x.st ≠ 3 → x.st ≠ 4 → exec (.flitReceive l flit n unc) s = .next a) ∧
    (x.st = 3 → exec (.flitReceive l flit n unc) s = .next (if bad = false ∧ flitKind flit = 2 then helloIn a l ((flit.drop 10).take 242) else a)) ∧
    (x.st = 4 →
      let t := flitTells a l flit
      let y := t.link l
      (bad = true → x.nakSent = true → exec (.flitReceive l flit n unc) s = .next (pumpLink a l)) ∧
      (bad = true → x.nakSent = false → exec (.flitReceive l flit n unc) s = .next (pumpLink (sendFlit (a.setLink l { x with nakSent := true }) l 0 3 0 []) l)) ∧
      (bad = false → t = { a with fab := { s.fab with links := t.fab.links } } ∧ (∀ k, k ≠ l → t.link k = s.link k) ∧ y = { x with unacked := y.unacked, cred := y.cred } ∧
        (∀ f, f ∈ y.unacked ↔ f ∈ x.unacked ∧ 2048 ≤ (fieldAt flit 2 2 % 4096 + 4096 - f.seq) % 4096) ∧
        (flitKind flit = 0 → exec (.flitReceive l flit n unc) s = .next (pumpLink t l)) ∧
        (flitKind flit = 3 → exec (.flitReceive l flit n unc) s = .next (pumpLink (replay t l) l)) ∧
        (flitKind flit = 1 ∨ flitKind flit = 2 →
          (flitSeq flit = x.rxSeq → ∃ u, exec (.flitReceive l flit n unc) s = .next (pumpLink (sendFlit u l 0 0 0 []) l) ∧
            let v := t.setLink l { y with rxSeq := (flitSeq flit + 1) % 4096, nakSent := false }
            u = if flitKind flit = 1 then dataIn v l (fieldAt flit 6 1 % 4) ((flit.drop 10).take 242) else v) ∧
          (flitSeq flit ≠ x.rxSeq → x.nakSent = true → exec (.flitReceive l flit n unc) s = .next (pumpLink t l)) ∧
          (flitSeq flit ≠ x.rxSeq → x.nakSent = false →
            exec (.flitReceive l flit n unc) s = .next (pumpLink (sendFlit (t.setLink l { y with nakSent := true }) l 0 3 0 []) l)))))) ∧
  (∀ (s : State) (l : Nat),
    let x := s.link l
    (∀ seq kind pvc p, ∃ give n c, sendFlit s l seq kind pvc p = (s.setLink l { x with give := give }).mapIo (fun io =>
      io.send ⟨"FLIT", l, 0, flitBytes seq kind ((x.rxSeq + 4095) % 4096) n c pvc p⟩)) ∧
    (x.st ≠ 4 ∨ 512 ≤ x.unacked.length ∨ (∀ vc, x.cred.getD vc 0 = 0) → pumpLink s l = s) ∧
    (x.unacked.length ≤ 512 → ((pumpLink s l).link l).unacked.length ≤ 512) ∧
    (∃ sent, ((pumpLink s l).link l).unacked = x.unacked ++ sent ∧ ((pumpLink s l).link l).txSeq % 4096 = (x.txSeq + sent.length) % 4096) ∧
    (x.unacked = [] → replay s l = s) ∧
    (x.unacked ≠ [] → (∃ f ∈ x.unacked, 8 ≤ f.replays) → replay s l = linkFail s l 3) ∧
    (x.unacked ≠ [] → (∀ f ∈ x.unacked, f.replays < 8) → ∃ u, replay s l = u ∧
      (u.link l).unacked = x.unacked.map (fun f => { f with replays := f.replays + 1 }) ∧
      ∃ txs, u.io.tx = s.io.tx ++ txs ∧ txs.map (fun t => (flitSeq t.data, flitKind t.data)) = x.unacked.map (fun f => (f.seq % 4096, f.kind % 16)))) ∧
  (∀ (s : State) (l cause : Nat), l < 12 → cause < 16 →
    let x := s.link l
    let u := linkFail s l cause
    (u.link l).st = (if cause = 1 ∨ cause = 2 then 5 else 1) ∧ (∀ k, k ≠ l → (u.link k).st = (s.link k).st) ∧
    (x.st ≠ 4 → ∃ io, Io.OnlyEvents [bLink l] s.io io ∧ io.bf (bLink l) Off.reelLink_FAIL 3 0 = cause ∧
      (cause = 1 ∨ cause = 2 → bitOf (io.br (bLink l) 0x010) 3 = true) ∧
      u = { s.setLink l { st := if cause = 1 ∨ cause = 2 then 5 else 1, signal := x.signal } with io := io }) ∧
    (x.st = 4 → ∃ t, u = reroute t l ∧ bitOf (t.io.br (bLink l) 0x010) 2 = true ∧ t.io.bf (bLink l) Off.reelLink_FAIL 3 0 = cause)) ∧
  (∀ (s : State) (l : Nat), l < 12 →
    let x := s.link l
    let on := s.io.enabled (bLink l)
    exec (.replayTimeout l) s = .next (if x.st = 4 then replay s l else s) ∧
    exec (.linkSilent l) s = .next (if x.st = 4 then linkFail s l 6 else s) ∧
    exec (.helloTransmit l) s = .next (if x.st = 3 then s.mapIo (fun io => io.send ⟨"FLIT", l, 0, flitBytes 0 2 0 0 3 0 (helloBytes s l)⟩) else s) ∧
    (on = false → ∀ hello, exec (.linkTraining l hello) s = .next s) ∧
    (on = true → ∀ hello,
      (x.st = 1 → x.waitRetry = false → exec (.linkTraining l hello) s = .next (s.setLink l { x with st := if hello then 3 else 2, signal := true })) ∧
      (x.st = 2 → exec (.linkTraining l hello) s = .next (if hello then s.setLink l { x with st := 3 } else s)) ∧
      (x.st ≠ 1 → x.st ≠ 2 → exec (.linkTraining l hello) s = .next s)) ∧
    (x.st ≠ 2 → exec (.trainingTimeout l) s = .next s) ∧
    (x.st = 2 → ∃ io v, Io.OnlyEvents [bLink l] s.io io ∧ io.bf (bLink l) Off.reelLink_FAIL 3 0 = 5 ∧
      exec (.trainingTimeout l) s = .next { s with io := io, fab := { s.fab with links := v } } ∧
      smGet {} l v = { st := 1, signal := x.signal, waitRetry := true } ∧ ∀ k, k ≠ l → smGet {} k v = s.link k) ∧
    (x.waitRetry = false → exec (.retrainRetry l) s = .next s) ∧
    (x.waitRetry = true → exec (.retrainRetry l) s = .next (s.setLink l { x with waitRetry := false, st := if on = true ∧ x.signal = true then 2 else x.st })) ∧
    ∃ u, exec (.linkSignalLoss l) s = .next (u.setLink l { u.link l with signal := false }) ∧
      u = if x.st = 2 ∨ x.st = 3 ∨ x.st = 4 then linkFail s l 4 else s) ∧
  ∀ (s : State) (l : Nat) (h : List Byte), l < 12 →
    let x := s.link l
    let one := s.setLink l { x with hello := h, same := if h = x.hello then x.same + 1 else 1 }
    let ver := min 1 (fieldAt h 0 1)
    (h ≠ x.hello ∨ x.same = 0 → helloIn s l h = one) ∧
    (h = x.hello → 1 ≤ x.same → ∃ io, Io.OnlyRegs [bLink l] s.io io ∧ io.reg64 ((bLink l).base + Off.reelLink_PEER_UID_LO) = fieldAt h 8 8 ∧
      io.bf (bLink l) Off.reelLink_PEER 15 0 = fieldAt h 0x10 2 ∧
      let t : State := { one with io := io }
      (ver < 1 ∨ ver < fieldAt h 1 1 → helloIn s l h = linkFail t l 1) ∧
      (1 ≤ ver → fieldAt h 1 1 ≤ ver → fieldAt h 8 8 = ownUid s → helloIn s l h = linkFail t l 2) ∧
      (1 ≤ ver → fieldAt h 1 1 ≤ ver → fieldAt h 8 8 ≠ ownUid s →
        let p : State := ({ t with io := io.setReg ((bLink l).base + Off.reelLink_VERSION) ver }).setLink l { one.link l with passed := true }
        helloIn s l h = if bitOf (fieldAt h 3 1) 2 then linkUp p l else p))

/-- R447 to R450, R453 and R457; `flood` sends a management packet on UP links, `resend` sends again what had no route. -/
def Obligations.FabricElectsAddressesRoutesAndKeepsTime : Prop :=
  (∀ s : State,
    let best := fun (bit : Nat) (u : Nat) => u ∈ component s ∧ bitOf (devFlags s u) bit = true ∧ ∀ v ∈ component s, bitOf (devFlags s v) bit = true → u ≤ v
    let has := fun (bit : Nat) => ∃ v ∈ component s, bitOf (devFlags s v) bit = true
    (has 1 → ∃ u, electRoot s = some u ∧ best 1 u) ∧ (¬ has 1 → has 0 → ∃ u, electRoot s = some u ∧ best 0 u) ∧ (¬ has 1 → ¬ has 0 → electRoot s = none)) ∧
  (∀ (s : State) (reqs : SMap Nat),
    let distinct := fun (t : SMap AddrEntry) => ∀ u v e f, smFind u t = some e → smFind v t = some f → e.addr = f.addr → u = v
    (distinct s.fab.addrs → distinct (addressRound s reqs).fab.addrs) ∧
    (∀ uid a, requested s reqs uid = some a → addrUsed s a uid = false → pickAddr s reqs uid = some a) ∧
    (∀ uid e, requested s reqs uid = none → smFind uid s.fab.addrs = some e → pickAddr s reqs uid = some e.addr) ∧
    (∀ uid a, requested s reqs uid = none → smFind uid s.fab.addrs = none → pickAddr s reqs uid = some a →
      a < 4096 ∧ addrUsed s a uid = false ∧ ∀ b, b < a → addrUsed s b uid = true)) ∧
  (∀ (s : State) (reqs : SMap Nat),
    let u := fabUpdate s reqs
    let root := if upLinks s = [] then 0 else (electRoot s).getD 0
    let up := !(upLinks s).isEmpty
    (∀ l, (u.link l).st = (s.link l).st) ∧ u.fab.rootUid = root ∧ (root < 2 ^ 64 → u.io.reg64 (bReel.base + Off.reel_ROOT_UID_LO) = root) ∧
    u.io.bf bReel Off.reel_FAB_STAT 31 28 = fabState u ∧ feature u.io 3 = up ∧ feature u.io 7 = up ∧
    (root ≠ 0 → root ≠ s.fab.rootUid → bitOf (u.io.br bReel 0x010) 5 = true) ∧
    (s.io.bf bReel Off.reel_ROUTE_CTRL 0 0 = 1 → u.fab.routes = s.fab.routes) ∧
    (s.io.bf bReel Off.reel_ROUTE_CTRL 0 0 = 0 → ∀ a e, smFind a u.fab.routes = some e → e.links.length ≤ 4 ∧ ∀ l ∈ e.links, l ∈ upLinks u)) ∧
  (∀ (s : State) (src dst flow : Nat) (l : Nat), nextHop s src dst flow = some l → l ∈ (smGet {} dst s.fab.routes).links) ∧
  (∀ (s : State) (src dst flow : Nat), (smGet {} dst s.fab.routes).links ≠ [] → (nextHop s src dst flow).isSome = true) ∧
  (∀ (s : State) (l uid flags addr req : Nat) (links : List (Nat × Nat)),
    let t := takeMgmt s l 0x10
    let e : DbEntry := ⟨flags % 4, addr, links⟩
    let bytes := leBytes 8 uid ++ leBytes 2 flags ++ leBytes 2 addr ++ leBytes 4 req ++ links.flatMap (fun k => leBytes 8 k.1 ++ leBytes 8 k.2)
    t = { s with fab := { s.fab with arrived := t.fab.arrived } } ∧
    (uid = ownUid s ∨ smFind uid s.fab.db = some e → exec (.linkState l uid flags addr req links) s = .next t) ∧
    (uid ≠ ownUid s → smFind uid s.fab.db ≠ some e → exec (.linkState l uid flags addr req links) s =
      .next (fabUpdate (flood { t with fab := { t.fab with db := smInsert uid e s.fab.db } } 0x10 0 bytes (some l)) [(uid, req)]))) ∧
  (∀ (s : State) (l uid addr : Nat),
    let t := takeMgmt s l 0x11
    (uid = ownUid s → exec (.addrAssign l uid addr) s = .next (fabUpdate (setOwnAddr t (addr % 4096)))) ∧
    (uid ≠ ownUid s → smFind uid s.fab.db = none → exec (.addrAssign l uid addr) s = .next t) ∧
    (∀ d, uid ≠ ownUid s → smFind uid s.fab.db = some d → exec (.addrAssign l uid addr) s = .next (if d.addr = addr then t else
      fabUpdate (flood { t with fab := { t.fab with db := smInsert uid { d with addr := addr } s.fab.db } } 0x11 0 (leBytes 8 uid ++ leBytes 2 addr) (some l)))) ∧
    (∀ a, a < 4096 → ownAddr (setOwnAddr s a) = some a ∧
      (∀ b, ownAddr s = some b → b ≠ a → bitOf ((setOwnAddr s a).io.br bReel 0x010) 7 = true))) ∧
  (∀ (s : State) (uid : Nat),
    let due := fun (e : AddrEntry) => e.gone = true ∧ e.seen + s.io.bf bReel Off.reel_HOLD 15 0 * 100000000 ≤ s.io.tb
    ((∀ e, smFind uid s.fab.addrs = some e → ¬ due e) → exec (.addrHoldExpiry uid) s = .next s) ∧
    ∀ e, smFind uid s.fab.addrs = some e → due e →
      exec (.addrHoldExpiry uid) s = .next (fabUpdate { s with fab := { s.fab with addrs := smErase uid s.fab.addrs } })) ∧
  (∀ (s : State) (who : Requester) (v : W32),
    let off := bReel.base + Off.reel_ROUTE_ENT
    let i := s.io.bf bReel Off.reel_ROUTE_SEL 11 0
    (∀ io, writeAllowed s.io who bReel off = some io → exec (.routeEntWrite who v) s = .next { s with io := io }) ∧
    (writeAllowed s.io who bReel off = none → s.io.bf bReel Off.reel_ROUTE_CTRL 0 0 = 0 →
      exec (.routeEntWrite who v) s = .next { s with io := s.io.capture bReel Code.ROUTE_AUTO off }) ∧
    (writeAllowed s.io who bReel off = none → s.io.bf bReel Off.reel_ROUTE_CTRL 0 0 = 1 → ∃ u,
      exec (.routeEntWrite who v) s = .next (resend u (fun o => o.link.isNone)) ∧ u = { s with fab := { s.fab with routes := u.fab.routes } } ∧
      (∀ a, a ≠ i → smGet {} a u.fab.routes = smGet {} a s.fab.routes) ∧
      let e := smGet {} i u.fab.routes
      e.hops = hopsOf s i ∧ e.links.length = min 4 (v.toNat / 2 ^ 28 % 8) ∧ ∀ k, k < e.links.length → e.links[k]? = some (v.toNat / 2 ^ (4 * k) % 16))) ∧
  (∀ (s : State) (l : Nat), l < 12 →
    ((s.link l).st ≠ 4 → exec (.timeExchange l) s = .next s) ∧
    ((s.link l).st = 4 → exec (.timeExchange l) s =
      .next (sendOn s l ⟨0xFFFF, (ownAddr s).getD 0xFFFF, 0x12, 2, 0xFF000000, 0, 0, 0, leBytes 16 s.fab.ft⟩)) ∧
    ∀ (t1 t2 t3 t4 ft : Nat), ∃ u, exec (.timePacket l t1 t2 t3 t4 ft) s = .next u ∧
      let delay := (((t4 : Int) - t1 - (t3 - t2)) / 2).toNat
      let off := ((t2 : Int) - t1 + (t3 - t4)) / 2
      u.io.bf (bLink l) Off.reelLink_DELAY 15 0 = delay % 65536 ∧ Io.OnlyEvents [bLink l, bReel] s.io u.io ∧ u = { s with io := u.io, fab := u.fab } ∧
      u.fab = { s.fab with arrived := u.fab.arrived, slew := u.fab.slew, good := u.fab.good, ft := u.fab.ft, timed := u.fab.timed } ∧
      (timeParent s ≠ some l → u.fab = { s.fab with arrived := u.fab.arrived }) ∧
      (timeParent s = some l → u.fab.timed = true ∧ u.fab.good = (if off.natAbs < 20 then s.fab.good + 1 else 0) ∧
        (s.fab.timed = true → u.fab.ft = s.fab.ft ∧ u.fab.slew = off * (2 ^ 32 : Nat) / 10) ∧
        (s.fab.timed = false → u.fab.ft = ft + delay * 2 ^ 32 / 10 ∧ u.fab.slew = 0) ∧
        (decide (10 ≤ s.fab.good) ≠ decide (10 ≤ u.fab.good) → bitOf (u.io.br bReel 0x010) 6 = true))) ∧
  (∀ s : State, ∃ t d, ftTick s = { s with fab := { s.fab with ft := t, slew := d, timed := (ftTick s).fab.timed } } ∧
    (s.fab.rootUid ≠ 0 → s.fab.rootUid = ownUid s → t = s.io.tb * 2 ^ 32 ∧ d = 0) ∧
    (s.fab.rootUid = 0 ∨ s.fab.rootUid ≠ ownUid s → ∃ c : Int, -858993 ≤ c ∧ c ≤ 858993 ∧ t = ((s.fab.ft : Int) + 2 ^ 32 + c).toNat ∧ d = s.fab.slew - c ∧ d.natAbs + c.natAbs = s.fab.slew.natAbs)) ∧
  ∀ (s : State) (who : Requester),
    (∀ io, writeAllowed s.io who bReel (bReel.base + Off.reel_FT_SNAP) = some io → exec (.ftSnap who) s = .next { s with io := io }) ∧
    (writeAllowed s.io who bReel (bReel.base + Off.reel_FT_SNAP) = none → s.fab.ft / 2 ^ 32 < 2 ^ 64 → s.io.tb < 2 ^ 64 → ∃ io, Io.OnlyRegs [bReel] s.io io ∧
      exec (.ftSnap who) s = .next { s with io := io } ∧ io.reg64 (bReel.base + Off.reel_SNAP_FT_LO) = s.fab.ft / 2 ^ 32 ∧
      io.reg64 (bReel.base + Off.reel_SNAP_TB_LO) = s.io.tb)

/-- R454, R456 and R461 to R468; `outDone` says what a packet's end means, `pumpFabric` lets waiting senders go on. -/
def Obligations.PacketsArriveOnceInOrderAndTakeEffect : Prop :=
  (∀ (s : State) (p : Pkt),
    let k := pairKey p.src p.flow
    let known := smFind k s.fab.rxSeq
    let t := (e2eAccept s p).1
    let next := known = some p.eseq ∨ (known = none ∧ s.fab.rxSeq.length < 65536)
    (next ↔ (e2eAccept s p).2 = true) ∧
    (next → smFind k t.fab.rxSeq = some ((p.eseq + 1) % 2 ^ 32) ∧ (∀ j, j ≠ k → smFind j t.fab.rxSeq = smFind j s.fab.rxSeq) ∧
      Io.OnlyRegs [bReel] s.io t.io ∧ t = { s with io := t.io, fab := { s.fab with rxSeq := t.fab.rxSeq, arrived := t.fab.arrived } }) ∧
    (∀ n, known = some n → n ≠ p.eseq → ∃ u, t = ackPair u p.src p.flow ((n + 2 ^ 32 - 1) % 2 ^ 32) 0 ∧ Io.OnlyRegs [bReel] s.io u.io ∧
      u = { s with io := u.io, fab := { s.fab with arrived := u.fab.arrived } }) ∧
    ((e2eAccept s p).2 = false → exec (.pedlarWr p) s = .next t ∧ exec (.egpUpd p) s = .next t ∧ exec (.stepMark p) s = .next t ∧
      exec (.collCtrl p) s = .next t ∧ exec (.collData p) s = .next t ∧ exec (.inboxMsg p) s = .next t)) ∧
  (∀ (s : State) (p : Pkt), (e2eAccept s p).2 = true →
    let t := (e2eAccept s p).1
    let g := p.flow % 65536
    let cg := p.flow / 256 % 65536
    let i := p.arg % 2 ^ 32
    (∀ c, pedWrCheck t p = .error c → exec (.pedlarWr p) s = .next (e2eReply t p c)) ∧
    (∀ r, pedWrCheck t p = .ok r →
      let a := r.base + p.arg % 2 ^ 52
      let bs := p.payload.drop 8
      regionOf t (fieldAt p.payload 0 4) = some r ∧ bitOf r.perm 1 = true ∧ p.arg % 2 ^ 52 + (p.payload.length - 8) ≤ r.len ∧
      (∃ q ∈ t.fab.groups, q.2.svc = r.svc ∧ p.src ∈ q.2.members) ∧
      (∀ c z, tFault t r.tier a bs.length true = some (c, z) → exec (.pedlarWr p) s = .next (if c = Code.MIGRATING then s else e2eReply t p Code.PEDLAR_FAULT)) ∧
      (tFault t r.tier a bs.length true = none → tHeld t r.tier a = true → exec (.pedlarWr p) s = .next s) ∧
      (tFault t r.tier a bs.length true = none → tHeld t r.tier a = false → exec (.pedlarWr p) s = .next (e2eReply (writeLines t r.tier a bs p.poison) p 0))) ∧
    (∃ u code n done, exec (.egpUpd p) s = .next (respond (e2eReply u p code) p.src 3 p.flow 0 (p.arg % 65536) (({ code := code, indices := n, contrib := done } : EgpRes).bytes 0)) ∧
      (∀ c, updCheck t p n = .error c → code = c ∧ done = 0 ∧ u = { t with egp := { t.egp with part := u.egp.part } }) ∧
      (∀ ti tb, updCheck t p n = .ok (ti, tb) → code = 0 ∧ tb.state = 1 ∧ tb.step = p.arg / 2 ^ 32 ∧ logUsed t ti tb tb.step + n ≤ tb.updCap ∧
        Io.OnlyRegs [bEgp (decider t tb)] t.io u.io ∧ u = { t with io := u.io, egp := { t.egp with part := u.egp.part, log := u.egp.log } } ∧
        ∃ es : List LogEnt, u.egp.log = t.egp.log ++ es.map (fun e => (ti, e)) ∧ done = es.length ∧ es.length ≤ n ∧
          ∀ e ∈ es, e.src = p.src ∧ e.step = p.arg / 2 ^ 32 ∧ e.batch = p.arg / 65536 % 65536 ∧ e.row < tb.rows ∧ e.vals.length = tb.width)) ∧
    (let a := e2eReply t p 0
     let denied : Host.Outcome State Fault Refusal := .next (a.mapIo (fun io => io.count bReel Off.reel_DENIED 1))
     (tabOfGroup a g = none ∨ groupOf a g = none → exec (.stepMark p) s = denied) ∧
     ∀ ti tb q, tabOfGroup a g = some (ti, tb) → groupOf a g = some q →
      (groupHash q ≠ i → exec (.stepMark p) s = denied) ∧
      (groupHash q = i → ∃ ms, exec (.stepMark p) s = .next { a with egp := { a.egp with marks := ms } } ∧ ∀ m, m ∈ ms ↔ m ∈ a.egp.marks ∨ m = (ti, p.arg / 2 ^ 32, p.src))) ∧
    (let a := e2eReply t p 0
     (collOf a cg i = none → exec (.collCtrl p) s = .next (if i ≤ smGet 0 cg a.fab.collNext then a else { a with fab := { a.fab with early := a.fab.early ++ [p] } })) ∧
     (∀ c, collOf a cg i = some c →
      (p.arg / 2 ^ 56 = 1 → exec (.collCtrl p) s = .next (collEnd a c Code.COLL_ABORTED (leBytes 4 c.inst))) ∧
      (p.arg / 2 ^ 56 ≠ 1 → startsAgree (parseStart p.payload) c.start = false → exec (.collCtrl p) s = .next (collEnd a c Code.COLL_MISMATCH (leBytes 4 c.inst))) ∧
      (p.arg / 2 ^ 56 ≠ 1 → startsAgree (parseStart p.payload) c.start = true → exec (.collCtrl p) s = .next (if p.src ∈ c.starts then a else
        collPump (setColl a { c with starts := c.starts ++ [p.src] }) c.group c.inst))) ∧
     (collOf a cg i = none ∨ groupOf a cg = none → exec (.collData p) s = .next a) ∧
     (∀ c q, collOf a cg i = some c → groupOf a cg = some q → ∃ d : Coll, exec (.collData p) s = .next (setColl a d) ∧ d = { c with got := d.got, bad := d.bad } ∧
      let z := rankOf q p.src * 2 ^ 40 + p.arg / 2 ^ 32 * 64
      (∀ j, j < p.payload.length → smFind (z + j) d.got = p.payload[j]?) ∧ (∀ j, j < z ∨ z + p.payload.length ≤ j → smFind j d.got = smFind j c.got))) ∧
    (let n := p.flow % 2 ^ 24
     let len := p.arg / 2 ^ 32
     let off := p.arg % 2 ^ 32
     (smFind n t.fab.inboxes = none → exec (.inboxMsg p) s = .next (e2eReply t p Code.REMOTE_DENIED)) ∧
     ∀ x, smFind n t.fab.inboxes = some x →
      (off = 0 → ∀ c, inboxCheck t n x p.src len = some c → ∃ u, exec (.inboxMsg p) s = .next (creditsFor (e2eReply u p c) x.cn) ∧
        u = { t with host := { t.host with ing := u.host.ing } } ∧ (c ≠ Code.MSG_SIZE → u.host.ing = t.host.ing) ∧ (ingress u x.cn).recs = (ingress t x.cn).recs) ∧
      (off ≠ 0 → (∀ e, smFind p.src x.part = some e → e.1.length ≠ off) → exec (.inboxMsg p) s = .next (creditsFor (e2eReply t p Code.REMOTE_DENIED) x.cn)) ∧
      (∀ bs bad, (off = 0 ∧ inboxCheck t n x p.src len = none ∧ bs = [] ∧ bad = false) ∨ (off ≠ 0 ∧ smFind p.src x.part = some (bs, bad) ∧ bs.length = off) →
        let all := bs ++ p.payload
        let poison := bad || decide (p.poison ≠ 0)
        exec (.inboxMsg p) s = .next (if all.length < len then setInbox (e2eReply t p 0) n { x with part := smInsert p.src (all, poison) x.part }
          else inboxWhole (e2eReply t p 0) n x p.src all poison)))) ∧
  (∀ (s : State) (p : Pkt),
    let t := takePkt s p
    let k := p.src * 65536 + p.flow % 2 ^ 24
    t = { s with fab := { s.fab with arrived := t.fab.arrived } } ∧
    (∃ u, exec (.inboxCredit p) s = .next (fwdCredits (pumpMsgs u (s.fab.msgs.length + 1)) p.src (p.flow % 2 ^ 24)) ∧
      u = { t with fab := { t.fab with credits := u.fab.credits, maxMsgs := u.fab.maxMsgs } } ∧ smGet 0 k u.fab.credits = smGet 0 k s.fab.credits + p.arg % 256 ∧
      smFind k u.fab.maxMsgs = some (p.arg / 2 ^ 32) ∧ ∀ j, j ≠ k → smGet 0 j u.fab.credits = smGet 0 j s.fab.credits ∧ smFind j u.fab.maxMsgs = smFind j s.fab.maxMsgs) ∧
    ((∀ u < 12, ∀ r ∈ unitQueue t true u, ¬ (r.sent.isSome = true ∧ r.serial % 65536 = p.arg % 65536 ∧ fieldAt r.blk 0x2C 2 = p.src)) → exec (.egpRes p) s = .next t) ∧
    (∀ u r, u < 12 → r ∈ unitQueue t true u → r.sent.isSome = true → r.serial % 65536 = p.arg % 65536 → fieldAt r.blk 0x2C 2 = p.src → ∃ n,
      n % 65536 = p.arg % 65536 ∧ exec (.egpRes p) s = .next (updateAnswer t n (fieldAt p.payload 0 2) (fieldAt p.payload 0x0C 4))) ∧
    (let n := p.arg % 2 ^ 32
     let mine : OutPkt → Bool := fun o => decide (o.p.dst = p.src) && decide (o.p.flow = p.flow) && decide ((n + 2 ^ 32 - o.p.eseq) % 2 ^ 32 < 2 ^ 31)
     exec (.e2eAck p) s = .next (pumpFabric ((s.fab.out.filter mine).foldl (fun s o => outDone s o (if o.p.eseq = n then p.arg / 2 ^ 32 % 65536 else 0))
      { t with fab := { t.fab with out := s.fab.out.filter (fun o => !mine o) } })))) ∧
  (∀ (s : State) (dst flow : Nat),
    let held : OutPkt → Bool := fun o => decide (o.p.dst = dst) && o.link.isNone
    let failed := s.fab.out.filter held
    (reachable s dst = true ∨ failed = [] → exec (.unreachableTimeout dst) s = .next s) ∧
    (reachable s dst = false → failed ≠ [] → ∃ io, Io.OnlyEvents [bReel] s.io io ∧ bitOf (io.br bReel 0x010) 3 = true ∧
      exec (.unreachableTimeout dst) s = .next (pumpFabric (failed.foldl (fun s o => outDone s o Code.UNREACHABLE)
        { s with io := io, fab := { s.fab with out := s.fab.out.filter (fun o => !held o) } }))) ∧
    exec (.e2eTimeout dst flow) s = .next (resend s (fun o => decide (o.p.dst = dst) && decide (o.p.flow = flow) && o.link.isSome)) ∧
    (∀ f, (resend s f).fab.out.map (fun o => o.p) = s.fab.out.map (fun o => o.p)) ∧
    ∃ m, exec (.pairForget dst flow) s = .next { s with fab := { s.fab with rxSeq := m } } ∧ smFind (pairKey dst flow) m = none ∧
      ∀ k, k ≠ pairKey dst flow → smFind k m = smFind k s.fab.rxSeq) ∧
  ∀ (s : State) (group inst : Nat),
    let t := collPump s group inst
    (collOf t group inst = none ∨ groupOf t group = none → exec (.collComplete group inst) s = .next t) ∧
    ∀ c g, collOf t group inst = some c → groupOf t group = some g →
      let rank := rankOf g ((ownAddr t).getD 0)
      let waits := (∃ a ∈ othersOf t g, a ∉ c.starts ∨ a ∉ c.sent) ∨ (∃ m ∈ collFrom c rank g.members.length, collWhole c m = false) ∨ ∃ o ∈ t.fab.out, o.why = .coll group inst
      (waits → exec (.collComplete group inst) s = .next t) ∧
      (¬ waits → (∀ e, c.recv.bind (fun d => descFault t d 0 d.count true) = some e → exec (.collComplete group inst) s = .next (if faultWaits e then t.migrFault e else collAbort t c e)) ∧
        (c.recv.bind (fun d => descFault t d 0 d.count true) = none →
          exec (.collComplete group inst) s = .next (collEnd (collWrite t c rank g.members.length) c Code.OK (leBytes 4 c.inst))))

/-- R458 to R462, R465 and R466 with Table 17.6; `collPump` sends what an instance may send. -/
def Obligations.GroupsCollectivesAndInboxesByCommand : Prop :=
  (∀ (s : State) (c : Cmd),
    let g := c.p 0x10 2
    let n := c.p 0x14 2
    (∀ e, fabCheck s = some e → groupSetCheck s c = .error e) ∧
    (∀ e, groupSetCheck s c = .error e → exec (.groupSet c) s = .next (refuse s c e)) ∧
    (∀ l, groupSetCheck s c = .ok l → l.length = n ∧ 1 ≤ g ∧ g ≤ 1023 ∧ 2 ≤ n ∧ n ≤ 4096 ∧ (∀ a ∈ l, a < 4096) ∧ l.Nodup ∧ (ownAddr s).getD 0 ∈ l ∧
      (∀ q, groupOf s g = some q → q.svc = c.issuerSvc s ∧ groupInUse s g = false) ∧
      ∃ u, exec (.groupSet c) s = .next (finish u c Code.OK) ∧ u = { s with fab := { s.fab with groups := u.fab.groups, collNext := u.fab.collNext } } ∧
        groupOf u g = some ⟨c.issuerSvc s, l⟩ ∧ smGet 0 g u.fab.collNext = 0 ∧
        ∀ h, h ≠ g → groupOf u h = groupOf s h ∧ smGet 0 h u.fab.collNext = smGet 0 h s.fab.collNext) ∧
    (groupOf s g = none → exec (.groupClear c) s = .next (refuse s c Code.FAB_GROUP_BAD)) ∧
    (∀ q, groupOf s g = some q →
      (q.svc ≠ c.issuerSvc s → exec (.groupClear c) s = .next (refuse s c Code.FAB_GROUP_BAD)) ∧
      (q.svc = c.issuerSvc s → groupInUse s g = true → exec (.groupClear c) s = .next (refuse s c Code.FAB_GROUP_BUSY)) ∧
      (q.svc = c.issuerSvc s → groupInUse s g = false → ∃ u, exec (.groupClear c) s = .next (finish u c Code.OK) ∧
        u = { s with fab := { s.fab with groups := u.fab.groups, collNext := u.fab.collNext } } ∧ groupOf u g = none ∧ ∀ h, h ≠ g → groupOf u h = groupOf s h))) ∧
  (∀ (s : State) (c : Cmd),
    let gi := c.p 0x10 2
    let kind := c.p 0x12 1
    (∀ e, fabCheck s = some e → collCheck s c = .error e) ∧
    (fabCheck s = none → (∀ q, groupOf s gi = some q → q.svc ≠ c.issuerSvc s) → collCheck s c = .error Code.FAB_GROUP_BAD) ∧
    (∀ e, collCheck s c = .error e → exec (.collRun c) s = .next (refuse s c e)) ∧
    (∀ g send recv, collCheck s c = .ok (g, send, recv) →
      let n := smGet 0 gi s.fab.collNext + 1
      let rank := rankOf g ((ownAddr s).getD 0)
      groupOf s gi = some g ∧ g.svc = c.issuerSvc s ∧ kind ≤ 2 ∧ c.p 0x13 1 ≤ 2 ∧ (kind ≠ 1 → c.p 0x13 1 = 0) ∧
      (∀ d, send = some d ∨ recv = some d → 1 ≤ d.tier ∧ d.tier ≠ 4) ∧ (∀ a b, send = some a → recv = some b → a.etype = b.etype) ∧
      (kind = 2 → (send.isSome = true ↔ rank = c.p 0x18 2) ∧ c.p 0x18 2 < g.members.length ∧ ∀ a b, send = some a → recv = some b → a.count = b.count) ∧
      (kind ≠ 2 → ∃ a b, send = some a ∧ recv = some b ∧ a.outer = g.members.length ∧ b.outer = (if kind = 0 then g.members.length else 1) ∧ a.perBlock = b.perBlock ∧
        (kind = 1 → reduceType a.etype = true)) ∧
      ∃ (x : Coll) (u : State) (late : List Pkt), x.group = gi ∧ x.inst = n ∧ x.cmd = c ∧ x.send = send ∧ x.recv = recv ∧ x.acceptedAt = s.io.tb ∧ x.timeout = c.p 0x1C 4 ∧
        x.start.kind = kind ∧ x.start.op = c.p 0x13 1 ∧ x.start.root = c.p 0x18 2 ∧ x.start.hash = groupHash g ∧ x.starts = [] ∧ x.sent = [] ∧ x.got = [] ∧
        u = { s with adm := { s.adm with refs := u.adm.refs }, fab := { s.fab with colls := s.fab.colls ++ [x], collNext := u.fab.collNext, early := u.fab.early } } ∧
        smGet 0 gi u.fab.collNext = n ∧ (∀ p, p ∈ late ↔ p ∈ s.fab.early ∧ p.flow / 256 % 65536 = gi ∧ p.arg % 2 ^ 32 = n) ∧
        (∀ p, p ∈ u.fab.early ↔ p ∈ s.fab.early ∧ p ∉ late) ∧
        exec (.collRun c) s = .next (late.foldl (fun s p => match collOf s gi n with
          | some c => collCtrl s c p.src (p.arg / 2 ^ 56) p.payload
          | none => s) (collPump u gi n)))) ∧
  (∀ (s : State) (g i : Nat),
    (∀ c, collOf s g i = some c → c.timeout = 0 ∨ s.io.tb < c.acceptedAt + c.timeout → exec (.collTimeout g i) s = .next s) ∧
    (collOf s g i = none → exec (.collTimeout g i) s = .next s) ∧
    ∀ c, collOf s g i = some c → c.timeout ≠ 0 → c.acceptedAt + c.timeout ≤ s.io.tb → ∃ u, exec (.collTimeout g i) s = .next (collEnd u c Code.COLL_TIMEOUT (leBytes 4 c.inst)) ∧
      u = { s with io := u.io, fab := u.fab } ∧ u.fab.colls = s.fab.colls ∧
      (∀ q, groupOf s c.group = some q → ∃ os, u.fab.out.map (fun o => o.p) = s.fab.out.map (fun o => o.p) ++ os ∧ os.map (fun p => p.dst) = othersOf s q ∧
        ∀ p ∈ os, p.type = 5 ∧ p.arg = 2 ^ 56 + c.inst % 2 ^ 32 ∧ p.flow = 0x02000000 + c.group * 256 + c.inst % 256)) ∧
  (∀ (s : State) (c : Coll) (code : Nat) (r : List Byte), ∃ u, collEnd s c code r = finish u c.cmd code r ∧ collOf u c.group c.inst = none ∧
    ∀ x, x ∈ u.fab.colls ↔ x ∈ s.fab.colls ∧ ¬ (x.group = c.group ∧ x.inst = c.inst)) ∧
  (∀ (s : State) (c : Cmd),
    let n := c.p 0x10 2
    let cn := c.ring - 1
    let home := ((s.ctx? cn).map (fun x => x.home)).getD 0
    (∀ e, inboxBindCheck s c = .error e → exec (.inboxBind c) s = .next (refuse s c e)) ∧
    (4096 ≤ n ∨ (smFind n s.fab.inboxes).isSome = true ∨ c.p 0x18 4 < 64 ∨ 16777216 < c.p 0x18 4 → inboxBindCheck s c = .error Code.INBOX_RANGE) ∧
    (∀ f, inboxBindCheck s c = .ok f → c.p 0x12 2 = cn ∧ (inRegion s cn).isSome = true ∧ f < 8192 ∧ ∃ x : Inbox, x.svc = c.issuerSvc s ∧ x.cn = cn ∧ x.maxMsg = c.p 0x18 4 ∧
      x.tmpl = c.p 0x14 2 % 16384 ∧ x.die = c.p 0x14 2 / 32768 ∧ x.port = c.p 0x16 1 ∧ x.classId = c.p 0x1C 2 ∧ x.group = c.p 0x1E 2 ∧ x.flow = some f ∧ x.count = [] ∧ x.part = [] ∧
      exec (.inboxBind c) s = .next (creditsFor (finish (setInbox (giveFlow s home f) n x) c Code.OK) cn)) ∧
    (smFind n s.fab.inboxes = none → exec (.inboxUnbind c) s = .next (refuse s c Code.INBOX_RANGE)) ∧
    (∀ x, smFind n s.fab.inboxes = some x →
      let busy := ∃ r ∈ (ingress s x.cn).recs, 2 ^ 20 ≤ r.src ∧ (r.src - 2 ^ 20) / 4096 = n
      (x.svc ≠ c.issuerSvc s → exec (.inboxUnbind c) s = .next (refuse s c Code.INBOX_RANGE)) ∧
      (x.svc = c.issuerSvc s → busy → exec (.inboxUnbind c) s = .next (refuse s c Code.INBOX_BUSY)) ∧
      (x.svc = c.issuerSvc s → ¬ busy → ∃ u, exec (.inboxUnbind c) s = .next (creditsFor (finish u c Code.OK) x.cn) ∧ smFind n u.fab.inboxes = none ∧
        (∀ k, k ≠ n → smFind k u.fab.inboxes = smFind k s.fab.inboxes) ∧ (∀ e ∈ (ingress u x.cn).resv, ¬ (2 ^ 20 ≤ e.1 ∧ (e.1 - 2 ^ 20) / 4096 = n)) ∧
        u = { s with host := { s.host with ing := u.host.ing }, fab := { s.fab with inboxes := u.fab.inboxes }, call := u.call }))) ∧
  (∀ (s : State) (c : Cmd),
    let fa := c.p 0x14 2
    let bad := 16384 ≤ c.p 0x10 2 ∨ (smFind (c.p 0x10 2) s.host.sess).isSome = true ∨ c.p 0x1B 1 < 3 ∨ 5 < c.p 0x1B 1 ∨ c.p 0x30 4 < 64 ∨ 16777216 < c.p 0x30 4
    (bad → exec (.sessFwd c) s = .next (refuse s c Code.SESS_RANGE)) ∧
    (¬ bad → c.p 0x12 2 ≠ c.ring - 1 → exec (.sessFwd c) s = .next (refuse s c Code.BAD_CONTEXT)) ∧
    (∀ e, ¬ bad → c.p 0x12 2 = c.ring - 1 → fabCheck s = some e → exec (.sessFwd c) s = .next (refuse s c e)) ∧
    (¬ bad → c.p 0x12 2 = c.ring - 1 → fabCheck s = none → reachable s fa = false → exec (.sessFwd c) s = .next (refuse s c Code.UNREACHABLE)) ∧
    (¬ bad → c.p 0x12 2 = c.ring - 1 → fabCheck s = none → reachable s fa = true → exec (.sessFwd c) s =
      .next (fwdCredits (finish (setSess s (c.p 0x10 2) { sessOf c (c.ring - 1) with fwd := some (fa, c.p 0x38 2) }) c Code.OK) fa (c.p 0x38 2)))) ∧
  ∀ (s : State) (dst inbox : Nat),
    let mine := s.host.sess.filter (fun e => decide (e.2.st = 1) && e.2.fwd == some (dst, inbox))
    let total := fun (u : State) => (mine.map (fun f => ((smFind f.1 u.host.sess).map (fun y => y.credits)).getD 0)).sum
    let u := fwdCredits s dst inbox
    (s.host.sess.map Prod.fst).Nodup → total s ≤ smGet 0 (dst * 65536 + inbox) s.fab.credits →
      total u ≤ smGet 0 (dst * 65536 + inbox) s.fab.credits ∧
      ∀ n x, smFind n s.host.sess = some x → ∃ y, smFind n u.host.sess = some y ∧ x.credits ≤ y.credits ∧ y.credits ≤ max x.credits (creditMax s) ∧ y = { x with credits := y.credits }

/-- R473, R474, R476, R481, R486, R487, R491, R492, R494, R496, R498 and R501; an answer leaves by `facAnswer`. -/
def Obligations.FactorServesOneRequestAtATime : Prop :=
  let rows := fun (src : Option (Nat × List Byte)) (ok burned : Bool) (burns : Nat) (nonce : List Byte) =>
    [(1, Instr.getInfo src), (2, .logRead src), (3, .threshSet src), (4, .wipePolicy src), (5, .calRead src), (6, .calWrite src ok), (7, .fwActivate src),
     (8, .fwRaiseFloor src burns), (9, .lcChallenge src nonce), (10, .lcTransition src burned), (11, .powerLimitSet src)]
  let serving := fun (s : State) => facServes s = true ∧ s.fac.lcRun = none
  (∀ (s : State) (who : Requester) (v : W32),
    let n := v.toNat % 2 ^ 13
    let seq := v.toNat / 2 ^ 16
    let off := bFactor.base + Off.factor_MBX_DOORBELL
    let op := s.io.reg mbxReq % 256
    let bs := regBytes s.io mbxReq n
    (∀ io, writeAllowed s.io who bFactor off = some io → exec (.mbxDoorbell who v) s = .next { s with io := io }) ∧
    (writeAllowed s.io who bFactor off = none →
      (s.fac.mbx.isSome = true → exec (.mbxDoorbell who v) s = .next { s with io := s.io.capture bFactor Code.MBX_BUSY off }) ∧
      (s.fac.mbx = none → n = 0 ∨ 4032 < n → exec (.mbxDoorbell who v) s =
        .next (facAnswer { s with fac := { s.fac with mbx := some (seq, []) } } none op Code.MBX_LEN [])) ∧
      (s.fac.mbx = none → 0 < n → n ≤ 4032 → (0 < op ∧ op ≤ 0x0B) ∨ facServes s = false → exec (.mbxDoorbell who v) s =
        .next { s with io := s.io.setFld (bFactor.base + Off.factor_MBX_STAT) 31 30 1, fac := { s.fac with mbx := some (seq, bs) } }))) ∧
  (∀ (s : State) (op status : Nat) (p : List Byte), op < 256 → status < 65536 → p.length ≤ 4024 →
    (∀ t, facAnswer s (some t) op status p = { s with io := s.io.send ⟨"MCTP_7E", t, 0, leBytes 1 op ++ [0] ++ leBytes 2 status ++ leBytes 4 p.length ++ p⟩ }) ∧
    ∃ io, facAnswer s none op status p = { s with io := io, fac := { s.fac with mbx := none } } ∧ Io.OnlyEvents [bFactor] s.io io ∧
      bitOf (io.br bFactor 0x010) 2 = true ∧ (∀ q, s.fac.mbx = some q → q.1 < 65536 → io.bf bFactor Off.factor_MBX_STAT 31 30 = 2 ∧ io.bf bFactor Off.factor_MBX_STAT 15 0 = q.1) ∧
      regBytes io mbxRsp (8 + p.length) = leBytes 1 op ++ [0] ++ leBytes 2 status ++ leBytes 4 p.length ++ p) ∧
  (∀ (s : State) (bs : List Byte),
    let op := fieldAt bs 0 1
    (op = 0 ∨ 0x0B < op → facCheck s bs = some Code.MBX_BAD_OP) ∧
    (facCheck s bs = none → 1 ≤ op ∧ op ≤ 0x0B ∧ fieldAt bs 1 1 = 0 ∧ fieldAt bs 4 4 = 0 ∧ fieldAt bs 2 2 = payloadLen op ((bs.drop 8).take (fieldAt bs 2 2)) ∧
      8 + fieldAt bs 2 2 ≤ bs.length ∧ s.fac.lc ∈ allowedIn op)) ∧
  (∀ (s : State) (src : Option (Nat × List Byte)) (ok burned : Bool) (burns : Nat) (nonce : List Byte), ∀ r ∈ rows src ok burned burns nonce,
    (facRequest s src = none ∨ ¬ serving s → exec r.2 s = .next s) ∧
    ∀ w bs, facRequest s src = some (w, bs) → serving s →
      (fieldAt bs 0 1 = 0 ∨ 0x0B < fieldAt bs 0 1 → exec r.2 s = .next (facAnswer s w (fieldAt bs 0 1) Code.MBX_BAD_OP [])) ∧
      (1 ≤ fieldAt bs 0 1 → fieldAt bs 0 1 ≤ 0x0B → fieldAt bs 0 1 ≠ r.1 → exec r.2 s = .next s) ∧
      (∀ c, fieldAt bs 0 1 = r.1 → facCheck s bs = some c → exec r.2 s = .next (facAnswer s w r.1 c []))) ∧
  (∀ (s : State) (src : Option (Nat × List Byte)) (w : Option Nat) (bs : List Byte), facRequest s src = some (w, bs) → serving s → facCheck s bs = none →
    let op := fieldAt bs 0 1
    let p := (bs.drop 8).take (fieldAt bs 2 2)
    let f := s.fac
    let a := fieldAt p 0 2
    let n := fieldAt p 2 2
    let v := fieldAt p 0 1
    let tells := fun (i : Instr) (t : State) (code : Nat) (q : List Byte) => exec i s = .next (facAnswer t w op code q)
    let put := fun (g : FactorSt) => ({ s with fac := g } : State)
    (op = 1 → ∃ q, tells (.getInfo src) s 0 q ∧ q.take 9 = leBytes 8 Config.deviceUid.toNat ++ leBytes 1 f.lc ∧ q.length = 33 ∧ fieldAt q 22 2 = f.fuses.floor % 65536 ∧ fieldAt q 24 1 = (32 - f.fuses.opens) % 256) ∧
    (op = 2 → let n := fieldAt p 8 2
      (n = 0 ∨ 62 < n → tells (.logRead src) s Code.COUNT_RANGE []) ∧
      (1 ≤ n → n ≤ 62 → ∃ rs : List LogRec, rs = ((f.flash ++ f.sram).filter (fun r => decide (fieldAt p 0 8 ≤ r.seq))).take n ∧
        tells (.logRead src) s 0 (leBytes 8 (((rs.head?).map (fun r => r.seq)).getD f.nextSeq) ++ leBytes 8 f.nextSeq ++ rs.flatMap logBytes))) ∧
    (op = 3 → (a < 960 ∨ 1664 < a → tells (.threshSet src) s Code.THRESH_RANGE []) ∧
      (960 ≤ a → a ≤ 1664 → tells (.threshSet src) { s with io := s.io.setBf bFactor Off.factor_THERM_WARN 15 0 a } 0 [])) ∧
    (op = 4 → tells (.wipePolicy src) (put { f with zfT2 := bitOf v 0, zfT3 := bitOf v 1 }) 0 []) ∧
    (op = 5 → (4016 < n ∨ 4096 < a + n → tells (.calRead src) s Code.CAL_FIELD []) ∧
      (n ≤ 4016 → a + n ≤ 4096 → tells (.calRead src) s 0 (((calBytes f).drop a).take n)) ∧ (calBytes f).length = 4096) ∧
    (op = 6 → f.cal.length = 2 →
      let inside := (0x008 ≤ a ∧ a + n ≤ 0x280) ∨ (0x400 ≤ a ∧ a + n ≤ 0xC00)
      (∀ ok, ¬ inside → tells (.calWrite src ok) s Code.CAL_FIELD []) ∧
      (inside → ∃ g, tells (.calWrite src false) (put { f with cal := g }) Code.CAL_FLASH [] ∧ calUse { f with cal := g } = calUse f) ∧
      (inside → ∃ g k, tells (.calWrite src true) (put { f with cal := g }) 0 (leBytes 4 ((g.getD k {}).gen)) ∧ calUse { f with cal := g } = some k ∧
        (∀ i, calUse f = some i → (g.getD k {}).gen = (f.cal.getD i {}).gen + 1 ∧ k = 1 - i ∧ g.getD i {} = f.cal.getD i {}) ∧
        ∀ j, 8 ≤ j → j < 0xFFC → (calBody { f with cal := g }).getD j 0 = if a ≤ j ∧ j < a + n then p.getD (4 + j - a) 0 else (calBody f).getD j 0)) ∧
    (op = 7 → (1 < v ∨ imageValid f.fuses (slotImage f v) = false → tells (.fwActivate src) s Code.FW_SLOT []) ∧
      (v ≤ 1 → imageValid f.fuses (slotImage f v) = true → ∃ io, Io.OnlyEvents [bFactor] s.io io ∧ bitOf (io.br bFactor 0x010) 4 = true ∧
        tells (.fwActivate src) { s with io := io, fac := { f with active := v, failed := setAt f.failed v false } } 0 [])) ∧
    (op = 8 → ∀ burns,
      (a ≤ f.fuses.floor ∨ imgSvn (slotImage f (f.booted.getD 0)) < a → tells (.fwRaiseFloor src burns) s Code.FW_ROLLBACK []) ∧
      (f.fuses.floor < a → a ≤ imgSvn (slotImage f (f.booted.getD 0)) → ∃ new, f.fuses.floor ≤ new ∧ new ≤ a ∧ (new = a ↔ a ≤ f.fuses.floor + burns) ∧
        tells (.fwRaiseFloor src burns) (put { f with fuses := { f.fuses with floor := new } }) (if new = a then 0 else Code.FW_FUSE) (if new = a then leBytes 2 a else []))) ∧
    (op = 9 → ∀ x : List Byte, x.length = 32 → tells (.lcChallenge src x) (put { f with nonce := some x }) 0 x) ∧
    (op = 10 → ∀ burned,
      let used : FactorSt := { f with nonce := none }
      let busy := s.adm.services ≠ [] ∨ f.lcRun.isSome = true ∨ f.wipePending = true ∨ f.update.isSome = true ∨ s.rst.device.isSome = true
      (lcArc f.lc v = false → tells (.lcTransition src burned) s Code.LC_ARC []) ∧
      (lcArc f.lc v = true → busy → tells (.lcTransition src burned) s Code.LC_BUSY []) ∧
      (lcArc f.lc v = true → ¬ busy → lcAuth f v p = false → tells (.lcTransition src burned) (put used) Code.LC_AUTH []) ∧
      (lcArc f.lc v = true → ¬ busy → lcAuth f v p = true →
        (f.lc = 2 → v = 3 → 32 ≤ f.fuses.opens → tells (.lcTransition src burned) (put used) Code.LC_EXHAUSTED []) ∧
        (¬ (f.lc = 2 ∧ v = 3 ∧ 32 ≤ f.fuses.opens) →
          tells (.lcTransition src false) (put used) Code.LC_FUSE [] ∧
          let g : FactorSt := { used with fuses := lcBurn f.fuses f.lc v ((p.drop 2).take 97), wipePending := true, tap := false, lcRun := some ⟨w, v⟩ }
          exec (.lcTransition src true) s = .next (startDevice (facRecord (put g) bFactor Cls.SECURITY Code.LC_CHANGE 0 v) false 9 false)))) ∧
    (op = 11 → (a < 300 ∨ 750 < a → tells (.powerLimitSet src) s Code.POWER_RANGE []) ∧
      (300 ≤ a → a ≤ 750 → tells (.powerLimitSet src) { s with io := s.io.setBf bPower Off.power_LIMIT_W 9 0 a } 0 []))) ∧
  (∀ (f : FactorSt) (b : Nat) (p : List Byte), f.nonce = none → ¬ (f.lc = 3 ∧ b = 2) → lcAuth f b p = false) ∧
  (∀ (f : Fuses) (b : Nat) (key : List Byte), lcArc f.state b = true →
    let even := fun (g : Fuses) => g.closes ≤ g.opens ∧ g.opens ≤ g.closes + 1 ∧ (0 < g.opens → g.commit = true) ∧ (g.commit = true → g.owner.isSome = true)
    even f → (lcBurn f f.state b key).state = b ∧ (b ≠ 4 → even (lcBurn f f.state b key)) ∧
      (lcBurn f f.state b key).floor = f.floor ∧ f.opens ≤ (lcBurn f f.state b key).opens ∧ f.closes ≤ (lcBurn f f.state b key).closes ∧
      (f.returned = true → (lcBurn f f.state b key).returned = true) ∧ (f.commit = true → (lcBurn f f.state b key).commit = true)) ∧
  ∀ s : State, exec .nonceExpiry s = .next { s with fac := { s.fac with nonce := none } }

/-- R475, R479, R480, R482, R484, R485, R488 and R499; the DMTF layouts that answers have are the model's (log entry 55). -/
def Obligations.FactorLogsAnswersAndUpdates : Prop :=
  (∀ (s : State) (r : EvRec),
    let f := s.fac
    (256 ≤ f.sram.length → ∃ io, logRec s r = { s with io := io, fac := { f with logLoss := true } } ∧ Io.OnlyEvents [bFactor] s.io io ∧
      bitOf (io.br bFactor 0x010) 7 = true) ∧
    (f.sram.length < 256 → ∃ (g : FactorSt) (l : LogRec), logRec s r = { s with fac := g } ∧ g.sram = f.sram ++ [l] ∧ l.ev = r ∧ l.seq = f.nextSeq ∧ l.boot = f.bootCount ∧
      l.fromFactor = fromFactor r.src ∧ l.afterLoss = f.logLoss ∧ g.nextSeq = f.nextSeq + 1 ∧ g.logLoss = false ∧
      g = { f with sram := g.sram, nextSeq := g.nextSeq, logLoss := false, writing := g.writing, flash := g.flash } ∧ (f.sram.length < 63 → g.writing = f.writing ∧ g.flash = f.flash))) ∧
  (∀ s : State,
    let f := s.fac
    let ok := fun (g : FactorSt) => g.writing ≤ 64 ∧ g.writing ≤ g.sram.length ∧ g.flash.length + g.writing ≤ 262144
    (∃ g, exec .logFlushTimeout s = .next { s with fac := g } ∧ g = { f with writing := g.writing, flash := g.flash } ∧
      (f.writing ≠ 0 ∨ f.sram = [] → g = f) ∧ (f.writing = 0 → f.sram ≠ [] → g.writing = min 64 f.sram.length) ∧
      (f.flash.length ≤ 262144 → ok f → ok g) ∧ ∃ k, g.flash = f.flash.drop k) ∧
    ∃ g, exec .logPageWritten s = .next { s with fac := g } ∧ g = { f with writing := g.writing, flash := g.flash, sram := g.sram } ∧
      g.sram = f.sram.drop f.writing ∧ (∃ k, g.flash = (f.flash ++ f.sram.take f.writing).drop k ∧ (f.sram.length < f.writing + 64 → k = 0)) ∧ (ok f → ok g)) ∧
  (∀ (s : State) (t : Nat) (msg : List Byte),
    (s.rst.vaux = false ∨ 2 ≤ t ∨ fieldAt msg 0 1 < 128 → exec (.mctpControl t msg) s = .next s) ∧
    (s.rst.vaux = true → t < 2 → 128 ≤ fieldAt msg 0 1 → s.fac.eids.length = 2 → ∃ es bs, exec (.mctpControl t msg) s =
        .next { s with io := s.io.send ⟨"MCTP_00", t, 0, bs⟩, fac := { s.fac with eids := es } } ∧
      fieldAt bs 0 1 = fieldAt msg 0 1 % 32 ∧ fieldAt bs 1 1 = fieldAt msg 1 1 ∧ es.getD (1 - t) 0 = s.fac.eids.getD (1 - t) 0 ∧
      (fieldAt msg 1 1 ≠ 1 → es = s.fac.eids) ∧
      (fieldAt msg 1 1 = 1 → fieldAt msg 2 1 % 4 ≤ 1 → 1 ≤ fieldAt msg 3 1 → fieldAt msg 3 1 ≠ 0xFF → es.getD t 0 = fieldAt msg 3 1))) ∧
  (∀ (s : State) (t : Nat) (msg rnd : List Byte),
    (facServes s = false ∨ 2 ≤ t → exec (.pldmSensorRead t msg) s = .next s ∧ exec (.spdmRequest t msg rnd) s = .next s) ∧
    (facServes s = true → t < 2 →
      (∃ bs, exec (.pldmSensorRead t msg) s = .next { s with io := s.io.send ⟨"MCTP_01", t, 0, bs⟩ } ∧
        let id := fieldAt msg 3 2
        (fieldAt msg 2 1 = 0x11 → 1 ≤ id → id ≤ 113 → bs.length = 14 ∧ fieldAt bs 3 1 = 0 ∧
          fieldAt bs 10 4 = (if id = 113 then s.io.br bPower Off.power_P_MW else s.io.reg (sensorOff (id - 1))))) ∧
      ∃ bs said, exec (.spdmRequest t msg rnd) s = .next { s with io := s.io.send ⟨"MCTP_05", t, 0, bs⟩, fac := { s.fac with spdm := setAt s.fac.spdm t said } } ∧
        let code := fieldAt msg 1 1
        ((code = 0x83 ∨ code = 0xE0) → s.fac.lcRun.isSome = true → bs = spdmError 0x03) ∧
        (code ∉ [0x84, 0xE1, 0xE3, 0x81, 0x82, 0x83, 0xE0] → bs = spdmError 0x07) ∧
        ((spdmBody s.fac msg rnd).2 = false → bs = (spdmBody s.fac msg rnd).1) ∧
        ((spdmBody s.fac msg rnd).2 = true → said = [] ∧ ∃ old, (code ≠ 0x84 → old = s.fac.spdm.getD t []) ∧
          bs = (spdmBody s.fac msg rnd).1 ++ padTo 96 (Config.deviceSign (Config.sha384 (old ++ msg ++ (spdmBody s.fac msg rnd).1)))))) ∧
  (∀ (s : State) (t off : Nat) (data : List Byte), s.rst.vaux = true → t < 2 →
    let f := s.fac
    let busy := nums [0, 5, 0x10, 0x81]
    let run := f.lcRun = none ∧ off + data.length ≤ 32 * 2 ^ 20
    (¬ run → ∀ b, exec (.requestFirmwareData t b off data) s = .next s) ∧
    (run → f.update = none → exec (.requestFirmwareData t false off data) s = .next s) ∧
    (run → f.update.isSome = true → exec (.requestFirmwareData t true off data) s = .next { s with io := s.io.send ⟨"MCTP_01", t, 0, busy⟩ }) ∧
    (∀ start u, run → ((f.update = none ∧ start = true ∧ u = { transport := t, slot := updateSlot f }) ∨ (f.update = some u ∧ start = false ∧ u.transport = t)) →
      ∃ img, exec (.requestFirmwareData t start off data) s =
          .next { s with fac := { f with update := some { u with image := img, verified := false }, slots := setAt f.slots u.slot img } } ∧
        (∀ j, j < data.length → img[off + j]? = data[j]?) ∧ (∀ j, j < u.image.length → j < off ∨ off + data.length ≤ j → img[j]? = u.image[j]?)) ∧
    (∀ b, f.booted = some b → b < 2 → updateSlot f ≠ b ∧ updateSlot f < 2) ∧
    (f.update = none → exec (.verifyComplete t) s = .next s ∧ exec (.activateFirmware t) s = .next s) ∧
    ∀ u, f.update = some u →
      (u.transport ≠ t → exec (.verifyComplete t) s = .next s ∧ exec (.activateFirmware t) s = .next s) ∧
      (u.transport = t →
        (∃ bs g, exec (.verifyComplete t) s = .next { s with io := s.io.send ⟨"MCTP_01", t, 0, bs⟩, fac := g } ∧
          (imageValid f.fuses u.image = true → g = { f with update := some { u with verified := true } }) ∧
          (imageValid f.fuses u.image = false → g = { f with update := none, slots := setAt f.slots u.slot [] })) ∧
        (u.verified = false → ∃ bs, exec (.activateFirmware t) s = .next { s with io := s.io.send ⟨"MCTP_01", t, 0, bs⟩ }) ∧
        (u.verified = true → ∃ io, exec (.activateFirmware t) s =
            .next { s with io := io, fac := { f with update := none, active := u.slot, failed := setAt f.failed u.slot false } } ∧
          bitOf (io.br bFactor 0x010) 4 = true ∧ io.free = s.io.free + 1))) ∧
  (∀ s : State,
    (s.rst.phase ≠ 7 → exec .bootWatchdog s = .next s) ∧
    (s.rst.phase = 7 → exec .bootWatchdog s = .next (beginDevice { s with fac := { s.fac with failed := match s.fac.booted with
      | some i => setAt s.fac.failed i true
      | none => s.fac.failed } } true 4 false)) ∧
    ∀ (cold byCmd : Bool) (cause : Nat), (beginDevice s cold cause byCmd).rst.device = some ⟨if cold then .cold else .warm, cause, byCmd⟩ ∧
      (beginDevice s cold cause byCmd).rst.phase = 1 ∧ (beginDevice s cold cause byCmd).pending = s.pending) ∧
  ∀ (s : State) (code : Nat) (op : TapOp),
    let opens := s.fac.lc = 3 ∨ s.fac.lc = 4
    (s.rst.vaux = false → exec (.tapInstruction code op) s = .next s) ∧
    (s.rst.vaux = true → tapInternal op = true → ¬ opens → exec (.tapInstruction code op) s = .next s) ∧
    (s.rst.vaux = true → tapInternal op = true → opens → exec (.tapInstruction code op) s = .next (tapRun (if s.fac.tap then s else
      facRecord { s with fac := { s.fac with tap := true } } bFactor Cls.SECURITY Code.DEBUG_ACCESS 0 code) op)) ∧
    (s.rst.vaux = true → tapInternal op = false → exec (.tapInstruction code op) s = .next (tapRun { s with fac := { s.fac with tap := false } } op)) ∧
    tapRun s .bypass = s ∧ tapRun s .boundary = s ∧
    (∀ core off bs, core < 96 → off + bs.length ≤ 2 ^ 22 → tapRun s (.sramRead core off bs.length) = { s with io := s.io.send ⟨"TAP", 0, 0, (s.core core).bytes off bs.length⟩ } ∧
      ∃ u, tapRun s (.sramWrite core off bs) = u ∧ u = { s with cores := u.cores } ∧ (u.core core).bytes off bs.length = bs ∧ ∀ n, n ≠ core → u.core n = s.core n)

/-- R475 to R478, R500 and R501; `railsFall` is the loss of the core rails; while EVTQ is down a record goes to the log (`logged`). -/
def Obligations.DutiesAndShutdownFollowTheSensors : Prop :=
  let logged := fun (f g : FactorSt) => ({ f with sram := g.sram, flash := g.flash, nextSeq := g.nextSeq, logLoss := g.logLoss, writing := g.writing } : FactorSt)
  (∀ (s : State) (therm volt : List Int),
    (facServes s = false → exec (.sensorSample therm volt) s = .next s) ∧
    (facServes s = true → ∃ t, exec (.sensorSample therm volt) s = .next (judgeThermal t) ∧ Io.OnlyEvents [bFactor] s.io t.io ∧
      t = { s with io := t.io, fac := { logged s.fac t.fac with sensors := t.fac.sensors } } ∧
      ∀ i, i < 112 →
        let x := sensorOf s i
        let y := sensorOf t i
        let raw : Int := if i < 72 then therm.getD i x.last else volt.getD (i - 72) x.last
        let v := reading (calBody s.fac) i raw
        y.last = raw ∧ y.same = (if x.same ≠ 0 ∧ raw = x.last then x.same + 1 else 1) ∧
        (y.failed = true ↔ x.failed = true ∨ 1000 ≤ y.same ∨ (i < 72 ∧ (v < -640 ∨ 2400 < v))) ∧
        t.io.reg (sensorOff i) = (if y.failed then 0x80000000 else (v % 2 ^ 32).toNat) ∧ (y.failed = true → x.failed = false → bitOf (t.io.br bFactor 0x010) 3 = true))) ∧
  (∀ (body : List Byte) (i : Nat) (raw : Int), i < 112 → ∃ d : Int, reading body i raw = raw + d ∧ (i < 72 → -32768 ≤ d ∧ d < 32768) ∧ (72 ≤ i → -128 ≤ d ∧ d < 128)) ∧
  (∀ s : State,
    let l := thermals s 0 72
    (∀ e, e ∈ l ↔ e.1 < 72 ∧ (sensorOf s e.1).failed = false ∧ (sensorOf s e.1).same ≠ 0 ∧ e.2 = signed 32 (s.io.reg (sensorOff e.1))) ∧
    (l = [] → judgeThermal s = s) ∧
    ∀ e, hottest l = some e →
      let warn : Int := s.io.bf bFactor Off.factor_THERM_WARN 15 0
      let t := judgeThermal s
      e ∈ l ∧ (∀ d ∈ l, d.2 ≤ e.2) ∧
      (¬ (1840 ≤ e.2 ∧ s.fac.hot = true ∧ railsUp s = true) → Io.OnlyEvents [bFactor] s.io t.io ∧ t = { s with io := t.io, fac := { logged s.fac t.fac with warned := t.fac.warned, hot := decide (1840 ≤ e.2) } } ∧
        t.io.br bFactor Off.factor_THERM_MAX = e.1 * 2 ^ 24 + (e.2 % 2 ^ 16).toNat ∧
        (warn ≤ e.2 → t.fac.warned = true ∧ (s.fac.warned = false → bitOf (t.io.br bFactor 0x010) 3 = true)) ∧
        (e.2 ≤ warn - 48 → t.fac.warned = false) ∧ (warn - 48 < e.2 → e.2 < warn → t.fac.warned = s.fac.warned)) ∧
      (1840 ≤ e.2 → s.fac.hot = true → railsUp s = true → ∃ u, t = facRecord (railsFall u) bFactor Cls.FATAL Code.THERMAL_SHUTDOWN 0 (thermInfo e) ∧
        u.rst = { s.rst with thermalDown := true, thermtripN := false })) ∧
  (∀ s : State,
    let l := thermals s 0 72
    let few := ∃ e ∈ thermDies, (∃ i, i < e.2 ∧ (sensorOf s (e.1 + i)).failed = true) ∧ 2 * (thermals s e.1 e.2).length < e.2
    (facServes s = false → exec .thermalDutyUpdate s = .next s) ∧
    (facServes s = true → dutyT s.io ≤ 8 → ∃ io, exec .thermalDutyUpdate s = .next { s with io := io } ∧ Io.OnlyEvents [bFactor] s.io io ∧
      dutyP io = dutyP s.io ∧ dutyH io = dutyH s.io ∧
      let d := if ∃ e ∈ l, 1680 ≤ e.2 then max 1 (dutyT s.io - 1) else if ∀ e ∈ l, e.2 < 1632 then min 8 (dutyT s.io + 1) else dutyT s.io
      dutyT io = (if few then min d 4 else d) ∧ (dutyT io ≠ dutyT s.io → bitOf (io.br bFactor 0x010) 3 = true))) ∧
  (∀ (s : State) (p vin iin : Nat),
    let go := facServes s = true ∧ railsUp s = true
    let last := (s.fac.power ++ [p]).drop ((s.fac.power ++ [p]).length - 10)
    let mean := last.sum / last.length
    let limit := s.io.bf bPower Off.power_LIMIT_W 9 0
    let low := if iin < 21000 then s.fac.lowAmps + 1 else 0
    (¬ go → exec (.powerDutyUpdate p vin iin) s = .next s) ∧
    (go → dutyP s.io ≤ 8 → ∃ io, exec (.powerDutyUpdate p vin iin) s = .next { s with io := io, fac := { s.fac with power := last, lowAmps := low } } ∧
      Io.OnlyEvents [bFactor, bPower] s.io io ∧ dutyT io = dutyT s.io ∧
      dutyP io = (if 900000 < p ∨ limit * 1000 < mean then max 1 (dutyP s.io - 2) else if p < 850000 ∧ mean < (limit - 50) * 1000 then min 8 (dutyP s.io + 1) else dutyP s.io) ∧
      dutyH io = (if 10 ≤ low then 8 else dutyH s.io) ∧ (p < 2 ^ 32 → io.br bPower Off.power_P_MW = p) ∧ (vin < 2 ^ 32 → io.br bPower Off.power_VIN_MV = vin) ∧
      (iin < 2 ^ 32 → io.br bPower Off.power_IIN_MA = iin) ∧ (mean < 2 ^ 32 → io.br bPower Off.power_M_MW = mean) ∧
      (p < 2 ^ 32 → io.br bPower Off.power_P_MAX_MW = max p (s.io.br bPower Off.power_P_MAX_MW)) ∧
      (dutyP s.io = 8 → dutyP io < 8 → bitOf (io.br bPower 0x010) 2 = true))) ∧
  (∀ s : State,
    (railsUp s = false → exec .overcurrent s = .next s) ∧
    (railsUp s = true → ∃ io, exec .overcurrent s = .next { s with io := io, fac := { s.fac with lowAmps := 0 } } ∧ Io.OnlyEvents [bFactor, bPower] s.io io ∧
      dutyH io = 4 ∧ dutyT io = dutyT s.io ∧ dutyP io = dutyP s.io ∧ (4 < dutyH s.io → bitOf (io.br bPower 0x010) 3 = true) ∧ (dutyH s.io = 8 → bitOf (io.br bPower 0x010) 2 = true))) ∧
  ∀ io : Io, dutyNow io ≤ dutyT io ∧ dutyNow io ≤ dutyP io ∧ dutyNow io ≤ dutyH io ∧ (dutyNow io = dutyT io ∨ dutyNow io = dutyP io ∨ dutyNow io = dutyH io)

/-- R493, R494, R503, R507 to R510, R512 and R514; `contain` takes failing cores out (R533). -/
def Obligations.ResetsEmptyTheirScopeAndRunInPhases : Prop :=
  (∀ (s : State) (who : Requester) (t : Nat),
    let off := bClkrst.base + Off.clkrst_RST_CMD
    let bad : Host.Outcome State Fault Refusal := .next { s with io := s.io.capture bClkrst Code.BAD_RESET off }
    (∀ io, writeAllowed s.io who bClkrst off = some io → exec (.deviceWarm who) s = .next { s with io := io } ∧ exec (.deviceCold who) s = .next { s with io := io } ∧
      exec (.dieReset who t) s = .next { s with io := io } ∧ exec (.clusterReset who t) s = .next { s with io := io } ∧ exec (.coreReset who t) s = .next { s with io := io }) ∧
    (writeAllowed s.io who bClkrst off = none → t < 256 →
      exec (.deviceWarm who) s = .next (startDevice s false 5 true) ∧ exec (.deviceCold who) s = .next (startDevice s true 5 true) ∧
      exec (.dieReset who t) s = (if t < 2 then .next (startUnit s (.die t) 5 true) else bad) ∧
      exec (.clusterReset who t) s = (if t < 12 then .next (startUnit s (.cluster t) 5 true) else bad) ∧
      exec (.coreReset who t) s = (if t < 96 then .next (startUnit s (.core t) 5 true) else bad))) ∧
  (∀ s : State,
    exec .functionLevelReset s = .next (startDevice s false 7 false) ∧ exec .pcieHotReset s = .next (startDevice s false 8 false) ∧
    (∀ low, ∃ u : State, u = { s with rst := { s.rst with perstN := !low } } ∧ exec (.perstN low) s = .next (if low then startDevice u false 6 false else u)) ∧
    (∀ low, ∃ u : State, u = { s with rst := { s.rst with coldRstN := !low } } ∧ exec (.coldRstN low) s = .next (if low then startDevice u true 1 false else u)) ∧
    (s.rst.vaux = true → exec .vauxRise s = .next s) ∧
    (s.rst.vaux = false → exec .vauxRise s = .next (startDevice { s with rst := { s.rst with vaux := true, power := .standby, thermtripN := true, thermalDown := false, osc := !s.rst.refOk } } true 0 false)) ∧
    (∃ u, exec .vauxLoss s = .next u ∧ u.rst.vaux = false ∧ u.rst.power = .off ∧ u.rst.pwrGood = false ∧ u.rst.device = none ∧ u.cores = [] ∧ u.mem.dev = [] ∧
      u.fac = { factorWiped { s.fac with lcRun := none } with bootCount := s.fac.bootCount } ∧ u.fac.fuses = s.fac.fuses ∧ u.fac.flash = s.fac.flash ∧ u.fac.slots = s.fac.slots ∧ u.pending = s.pending) ∧
    (∀ mv, ∀ r ∈ [(Instr.vinLoss mv, bFactor, Code.VIN_LOSS), (.vinOv mv, bPower, Code.VIN_OV)],
      (s.rst.vaux = false → exec r.1 s = .next { s with rst := { s.rst with vin := false } }) ∧
      (s.rst.vaux = true → ∃ u : State, u = { railsFall s with rst := { (railsFall s).rst with vin := false, vinLost := true } } ∧ exec r.1 s = .next (facRecord u r.2.1 Cls.FATAL r.2.2 0 mv))) ∧
    (s.rst.vin = true → exec .vinReturn s = .next s) ∧
    (s.rst.vin = false → ∃ u : State, u = { s with rst := { s.rst with vin := true, vinLost := false } } ∧ exec .vinReturn s = .next (if s.rst.vinLost then startDevice u true 2 false else u)) ∧
    exec .vinRise s = .next (if s.rst.vin ∨ s.rst.vinLost then s else { s with rst := { s.rst with vin := true } }) ∧
    (s.rst.vaux = false → exec .refclkLoss s = .next { s with rst := { s.rst with refOk := false } }) ∧
    (s.rst.vaux = true → s.rst.refOk = false → exec .refclkLoss s = .next s) ∧
    (s.rst.vaux = true → s.rst.refOk = true → railsUp s = false → exec .refclkLoss s = .next { s with rst := { s.rst with refOk := false, osc := true } }) ∧
    (s.rst.vaux = true → s.rst.refOk = true → railsUp s = true → ∃ u, exec .refclkLoss s = .next u ∧ u.rst.refOk = false ∧ u.rst.refLost = true ∧ u.rst.osc = true ∧ u.rst.pwrGood = false ∧
      u.cores = [] ∧ u.mem.dev = [] ∧ bitOf (u.io.br bClkrst 0x010) 2 = true ∧ bitOf (u.io.br bClkrst 0x010) 3 = true) ∧
    (∃ u : State, u = { s with rst := { s.rst with refOk := true, osc := false, refLost := false } } ∧ exec .refclkReturn s = .next (if s.rst.refLost then startDevice u true 3 false else u)) ∧
    (∀ p, exec (.cxlTrainTimeout p) s = .next (if s.rst.phase = 5 then { s with rst := { s.rst with cxlOut := s.rst.cxlOut ++ [p] } } else s))) ∧
  (∀ (s : State) (cold byCmd : Bool) (cause : Nat),
    (s.rst.vaux = false → startDevice s cold cause byCmd = s) ∧
    (s.rst.vaux = true → s.rst.device = none → startDevice s cold cause byCmd = if cold ∨ railsUp s then beginDevice s cold cause byCmd else s) ∧
    (∀ r, s.rst.vaux = true → s.rst.device = some r → cold = true → r.scope = .warm → startDevice s cold cause byCmd = beginDevice s true cause (byCmd || r.byCmd)) ∧
    (∀ r, s.rst.vaux = true → s.rst.device = some r → cold = false ∨ r.scope ≠ .warm → let u := startDevice s cold cause byCmd
      u.rst.device = some { r with byCmd := r.byCmd || byCmd } ∧ u.io = s.io ∧ u.cores = s.cores ∧ u.rst.phase = (if cause = 1 ∨ cause = 6 then 1 else s.rst.phase) ∧
      u.mem.keyGen = (if s.rst.phase = 6 ∧ cause ≠ 1 ∧ cause ≠ 6 then s.mem.keyGen + 1 else s.mem.keyGen)) ∧
    let t := beginDevice s cold cause byCmd
    t.adm = {} ∧ t.call = [] ∧ t.host = {} ∧ t.cores = [] ∧ t.fetch = {} ∧ t.queue = {} ∧ t.egp = {} ∧ t.assay = {} ∧ t.merge = {} ∧ t.expert = {} ∧ t.weave = {} ∧ t.fab = {} ∧
    t.mem.dev = s.mem.dev ∧ t.mem.poison = s.mem.poison ∧ t.mem.keyGen = s.mem.keyGen ∧ t.pending = s.pending ∧ t.fac.fuses = s.fac.fuses ∧ t.fac.bootCount = s.fac.bootCount + 1 ∧
    t.io.tb = (if cold then 0 else s.io.tb) ∧ (cause < 16 → t.io.br bClkrst Off.clkrst_RST_STAT = (if cold then 5 else 1) * 2 ^ 28 + cause * 2 ^ 24) ∧
    (∀ b : Block, b.valid = true → (b ∈ t.io.notReady ↔ cold = true ∨ standbyBlock b = false)) ∧
    (s.io.offline = [] → ∀ (b : Block) (off : Nat), b.kind ≠ .clkrst → (cold = true ∨ standbyBlock b = false) → blockAt off = some b → smFind off t.io.regs = none)) ∧
  (∀ (s : State) (micros : Nat) (tr : List Block) (cxl : List (Nat × Nat × Nat × Nat)) (fails wipes : List Nat),
    let t := phaseEnds micros tr cxl wipes s
    let go := exec (.resetPhaseComplete micros tr cxl fails wipes) s
    (s.rst.device = none → go = .next s) ∧
    (s.rst.device.isSome = true → s.rst.phase ≠ 7 → go = .next t) ∧
    (s.rst.phase = 7 → fails = [] → go = .next t) ∧
    (s.rst.phase = 7 → s.rst.device.isSome = true → t.io.notReady = [] ∧ t.rst.device = none ∧ t.rst.phase = 0 ∧ t.rst.power = .d0 ∧
      go = .next ((fails.filter (fun n => n < 96 && !t.io.isOffline (bCore n))).foldl (fun s n =>
        contain 4 (s.mapIo (fun io => io.note (bCore n) Cls.CONTAINMENT Code.SELFTEST_FAIL none (bCore n).base 0)) (.core n) (bCore n) Code.SELFTEST_FAIL) t)) ∧
    ∀ r, s.rst.device = some r →
      (s.rst.phase = 1 → (s.rst.coldRstN = false ∨ s.rst.perstN = false ∨ s.rst.testEn = true → t = s) ∧
        (s.rst.coldRstN = true → s.rst.perstN = true → s.rst.testEn = false →
          t.rst.phase = if r.scope = .cold ∨ s.fac.booted ≠ some s.fac.active then 2 else 4)) ∧
      (s.rst.phase = 3 → (s.rst.vin = false ∨ s.rst.refOk = false ∨ s.rst.factorUp = false → t = s) ∧
        (s.rst.vin = true → s.rst.refOk = true → s.rst.factorUp = true → t.rst.phase = 4 ∧ t.rst.pwrGood = true ∧ t.rst.power = .d0)) ∧
      (s.rst.phase = 4 → t.rst.phase = 5 ∧ t.mem = s.mem) ∧
      (s.rst.phase = 5 → t.rst.phase = 6 ∧ t.mem.keyGen = s.mem.keyGen + 1 ∧ t.mem.lost = [] ∧ (∀ h, h ∈ t.mem.hbmUp ↔ h < 8 ∧ (⟨.hbm, h⟩ : Block) ∈ tr) ∧
        (∀ c, c ∈ t.mem.ddrUp ↔ c < 12 ∧ (⟨.ddr, c⟩ : Block) ∈ tr) ∧ (∀ p, p ∈ t.mem.cxlUp ↔ p < 2 ∧ p ∉ s.rst.cxlOut ∧ ∃ e ∈ cxl, e.1 = p) ∧
        (s.fac.wipePending = true → t.fac.fillT2 = true ∧ t.fac.fillT3 = true)) ∧
      (s.rst.phase = 6 → t.rst.phase = 7 ∧ t.mem.dev = [] ∧ t.mem.poison = [] ∧ t.fac.wipePending = false ∧ t.fac.lcRun = none ∧ t.fac.lc = s.fac.fuses.state ∧
        (∀ h ∈ s.mem.hbmUp, (⟨.hbm, h⟩ : Block) ∈ t.mem.zeroed) ∧ (∀ c ∈ s.mem.ddrUp, ((⟨.ddr, c⟩ : Block) ∈ t.mem.zeroed ↔ s.fac.fillT2 = true)) ∧
        (∀ p ∈ s.mem.cxlUp, ((⟨.cxl, p⟩ : Block) ∈ t.mem.zeroed ↔ s.fac.fillT3 = true)))) ∧
  (∀ (s : State) (x : Scope) (cause : Nat) (byCmd : Bool),
    (∀ r, s.rst.device = some r → x.within r.scope = true → startUnit s x cause byCmd =
      { s with rst := { s.rst with device := some { r with byCmd := r.byCmd || byCmd } } }) ∧
    (s.rst.device = none → (∃ u ∈ s.rst.units, x.within u.scope = true) → startUnit s x cause byCmd =
      { s with rst := { s.rst with units := s.rst.units.map (fun u => if x.within u.scope then { u with byCmd := u.byCmd || byCmd } else u) } }) ∧
    (s.rst.device = none → (∀ u ∈ s.rst.units, x.within u.scope = false) → let t := startUnit s x cause byCmd
      t.rst.units = s.rst.units.filter (fun u => !u.scope.within x) ++ [⟨x, cause, byCmd⟩] ∧ (∀ b ∈ x.blocks, t.io.ready b = false) ∧
      (∀ b off, x = .block b → b.valid = true → b.kind ∉ [.clkrst, .evtq, .admission] → blockAt off = some b → off ≠ b.base + 8 → smFind off t.io.regs = none)) ∧
    ((∀ u ∈ s.rst.units, u.scope ≠ x) → ∀ f, exec (.unitResetComplete x f) s = .next s) ∧
    (∀ f, exec (.unitResetComplete x f) s = .next (unitEnds s x f)) ∧
    ((∃ u ∈ s.rst.units, u.scope = x) → let t := unitEnds s x none
      t.rst.units = s.rst.units.filter (fun v => v.scope != x) ∧ (∀ b, b ∈ t.io.notReady ↔ b ∈ s.io.notReady ∧ (b ∉ x.blocks ∨ ∃ v ∈ t.rst.units, b ∈ v.scope.blocks)))) ∧
  ∀ s : State, let t := railsFall s
    t.rst.pwrGood = false ∧ t.rst.power = .standby ∧ t.rst.device = none ∧ t.rst.units = [] ∧ t.adm = {} ∧ t.call = [] ∧ t.host = {} ∧ t.cores = [] ∧ t.fab = {} ∧ t.weave = {} ∧
    t.mem.dev = [] ∧ t.mem.poison = [] ∧ t.mem.keyGen = s.mem.keyGen ∧ t.mem.blank = s.mem.blank + 1 ∧ t.fac = { s.fac with lcRun := none } ∧ t.pending = s.pending ∧ t.io.tb = s.io.tb

/-- R529 to R534 and R543; `contain` is the containment of R533. -/
def Obligations.RecordsReachTheirTargetsAndErrorsAreContained : Prop :=
  (∀ s : State, (s.io.intake = [] → exec .eventRecordIntake s = .next s) ∧
    ∀ r rest, s.io.intake = r :: rest → ∃ u, exec .eventRecordIntake s = .next (deliverRecord u r) ∧
      u = { s with io := { s.io with intake := rest ++ s.io.held.take (4096 - rest.length), held := s.io.held.drop (4096 - rest.length) } }) ∧
  (∀ (s : State) (r : EvRec), (∀ q, q < 16 → queueTakes (s.mapIo (fun io => io.count64 bEvtq Off.evtq_RECORDS_LO 1)) q r = false) →
    deliverRecord s r = (let u := s.mapIo (fun io => io.count64 bEvtq Off.evtq_RECORDS_LO 1); if logTakes u r then logRec u r else u)) ∧
  (∀ (s : State) (q : Nat) (r : EvRec), q < 16 →
    (queueTakes s q r = true ↔ s.io.fld (qOff q Off.evtq_CFG) 31 31 = 1 ∧ bitOf (s.io.reg (qOff q Off.evtq_CLASS_MASK)) r.cls = true ∧
      (s.io.fld (qOff q Off.evtq_CTX_EN) 31 31 = 0 ∨ r.ctx = some (s.io.fld (qOff q Off.evtq_CTX_EN) 11 0))) ∧
    (logTakes s r = true ↔ bitOf (s.io.br bEvtq Off.evtq_LOG_MASK) r.cls = true ∨ r.src.kind = .factor ∨ r.src.kind = .power) ∧
    let size := 2 ^ s.io.fld (qOff q Off.evtq_CFG) 29 25
    let tail := s.io.reg (qOff q Off.evtq_TAIL)
    let head := s.io.fld (qOff q Off.evtq_ARM) 15 0
    let full := (tail + size - head % size) % size = size - 1
    let x := evtQueue s q
    let t := ringRecord s q r
    (full → Io.OnlyEvents [bEvtq] s.io t.io ∧ t = { s with io := t.io, evt := { s.evt with queues := t.evt.queues } } ∧ evtQueue t q = { x with afterLoss := true } ∧
      bitOf (t.io.br bEvtq 0x010) 3 = true) ∧
    (¬ full → ∃ v w : State, v = hostWrite s (s.io.reg64 (qOff q Off.evtq_BASE_LO) + 32 * tail) (evBytes { r with afterLoss := r.afterLoss || x.afterLoss } x.phase) ∧
      w = { v with io := v.io.setReg (qOff q Off.evtq_TAIL) (if tail + 1 = size then 0 else tail + 1), evt := { v.evt with queues := w.evt.queues } } ∧
      evtQueue w q = { x with phase := if tail + 1 = size then !x.phase else x.phase, armed := false, afterLoss := false } ∧ (∀ k, k ≠ q → evtQueue w k = evtQueue s k) ∧
      t = if x.armed then fireVector w (w.io.fld (qOff q Off.evtq_CFG) 24 14) else w)) ∧
  (∀ (r : EvRec) (phase : Bool), (evBytes r phase).length = 32 ∧ fieldAt (evBytes r phase) 12 2 = r.code % 65536 ∧ fieldAt (evBytes r phase) 10 1 = r.cls % 256 ∧
    fieldAt (evBytes r phase) 0 8 = r.ts % 2 ^ 64 ∧ bitOf (fieldAt (evBytes r phase) 11 1) 3 = phase ∧ fieldAt (evBytes r phase) 16 8 = r.addr % 2 ^ 64) ∧
  (∀ (s : State) (q : Nat),
    let x := evtQueue s q
    (x.batch = [] → exec (.eventBatchTimeout q) s = .next s) ∧
    (x.batch ≠ [] → evtSess s q = none → ∃ u, exec (.eventBatchTimeout q) s = .next u ∧ (q < 16 → Io.OnlyEvents [bEvtq] s.io u.io) ∧ u = { s with io := u.io, evt := u.evt } ∧
      evtQueue u q = { x with batch := [], afterLoss := true }) ∧
    (∀ n y, x.batch ≠ [] → evtSess s q = some (n, y) → y.rnrHeld = true → exec (.eventBatchTimeout q) s = .next s) ∧
    (∀ n y, x.batch ≠ [] → evtSess s q = some (n, y) → y.rnrHeld = false → ∃ u, exec (.eventBatchTimeout q) s =
        .next (sessSend u n y ((x.batch.take 32).flatMap (fun r => evBytes r false))) ∧ evtQueue u q = { x with batch := x.batch.drop 32 } ∧
      u = { s with evt := { s.evt with queues := u.evt.queues } } ∧ ∀ k, k ≠ q → evtQueue u k = evtQueue s k)) ∧
  (∀ (s : State) (who : Requester) (q : Nat) (v : W32),
    let arm := qOff q Off.evtq_ARM
    let cfg := qOff q Off.evtq_CFG
    let head := v.toNat % 65536
    let size := v.toNat / 2 ^ 25 % 32
    (∀ io, writeAllowed s.io who bEvtq arm = some io → exec (.armWrite who q v) s = .next { s with io := io }) ∧
    (∀ io, writeAllowed s.io who bEvtq cfg = some io → exec (.queueCfgWrite who q v) s = .next { s with io := io }) ∧
    (writeAllowed s.io who bEvtq arm = none → q < 16 → ∃ u, u = { s with io := s.io.setReg arm head } ∧
      (bitOf v.toNat 31 = false → exec (.armWrite who q v) s = .next u) ∧
      (bitOf v.toNat 31 = true → ∃ w a, w = { u with evt := { s.evt with queues := w.evt.queues } } ∧ evtQueue w q = { evtQueue s q with armed := a } ∧
        (∀ k, k ≠ q → evtQueue w k = evtQueue s k) ∧
        (s.io.reg (qOff q Off.evtq_TAIL) ≠ head → s.io.fld cfg 31 30 = 2 → a = false ∧ exec (.armWrite who q v) s = .next (fireVector w (s.io.fld cfg 24 14))) ∧
        (s.io.reg (qOff q Off.evtq_TAIL) = head ∨ s.io.fld cfg 31 30 ≠ 2 → a = true ∧ exec (.armWrite who q v) s = .next w))) ∧
    (writeAllowed s.io who bEvtq cfg = none → q < 16 →
      let sound := bitOf v.toNat 31 = true ∧ 6 ≤ size ∧ size ≤ 16 ∧ (bitOf v.toNat 30 = true ∨ s.io.reg64 (qOff q Off.evtq_BASE_LO) % 4096 = 0)
      (s.io.fld cfg 31 31 = 1 → bitOf v.toNat 31 = true → exec (.queueCfgWrite who q v) s = .next { s with io := s.io.capture bEvtq Code.RING_BUSY cfg }) ∧
      (s.io.fld cfg 31 31 = 1 → bitOf v.toNat 31 = false → exec (.queueCfgWrite who q v) s = .next { s with io := s.io.setReg cfg v.toNat }) ∧
      (s.io.fld cfg 31 31 = 0 → ¬ sound → exec (.queueCfgWrite who q v) s = .next { s with io := s.io.setReg cfg (v.toNat % 2 ^ 31) }) ∧
      (s.io.fld cfg 31 31 = 0 → sound → ∃ u, exec (.queueCfgWrite who q v) s = .next u ∧ u = { s with io := u.io, evt := { s.evt with queues := u.evt.queues } } ∧
        u.io.reg cfg = v.toNat ∧ u.io.reg (qOff q Off.evtq_TAIL) = 0 ∧ u.io.reg arm = 0 ∧ Io.OnlyRegs [bEvtq] s.io u.io ∧
        evtQueue u q = { evtQueue s q with phase := true, armed := false } ∧ ∀ k, k ≠ q → evtQueue u k = evtQueue s k))) ∧
  (∀ (s : State) (b : Block) (code loc : Nat),
    let up := railsUp s = true ∧ s.rst.device = none ∧ b.valid = true
    (¬ up → exec (.hwError b code loc) s = .next s) ∧
    (up → exec (.hwError b code loc) s = .next (contain 4 (s.mapIo (fun io => io.note b Cls.CONTAINMENT Code.HW_ERROR none b.base loc)) (domainOf b) b code)) ∧
    (∀ n, contain (n + 1) s .warm b code = startDevice (s.mapIo (fun io => (io.count bEvtq Off.evtq_CONTAINED 1).note b Cls.FATAL Code.DEVICE_FATAL none b.base code)) false 11 false)) ∧
  ∀ (s : State) (who : Requester) (v : W32),
    let off := bEvtq.base + Off.evtq_ONLINE
    let t := v.toNat % 256
    let kind := v.toNat / 2 ^ 28
    let bad : Host.Outcome State Fault Refusal := .next { s with io := s.io.capture bEvtq Code.BAD_RESET off }
    let go := fun (x : Scope) => (.next (startUnit { s with evt := { s.evt with onlining := s.evt.onlining ++ [x] } } x 11 false) : Host.Outcome State Fault Refusal)
    (∀ io, writeAllowed s.io who bEvtq off = some io → exec (.onlineWrite who v) s = .next { s with io := io }) ∧
    (writeAllowed s.io who bEvtq off = none →
      (kind = 2 → exec (.onlineWrite who v) s = if t < 2 then go (.die t) else bad) ∧ (kind = 3 → exec (.onlineWrite who v) s = if t < 12 then go (.cluster t) else bad) ∧
      (kind = 4 → exec (.onlineWrite who v) s = if t < 96 then go (.core t) else bad) ∧ (kind < 2 ∨ 4 < kind → exec (.onlineWrite who v) s = bad))

/-- The queue of commands is the model's own (log entry 1). -/
def Obligations.StepRunsTheFrontCommand : Prop :=
  ∀ (c : Instr) (s : State) (rest : List Instr), step { s with pending := c :: rest } = exec c { s with pending := rest }

/-- R7, R350, R439, R457, R503 and R516; that a tick is what a step on an empty queue does is the model's choice (log entry 1). -/
def Obligations.AnEmptyQueueLetsATickPass : Prop :=
  (∀ s : State, s.pending = [] → step s = .next (tick s)) ∧
  (∀ s : State, s.rst.vaux = false → tick s = s) ∧
  (∀ s : State, s.rst.vaux = true → railsUp s = false → tick s = { s with io := { s.io with tb := s.io.tb + 1 } }) ∧
  ∀ s : State, s.rst.vaux = true → railsUp s = true →
    let t := tick s
    let root := s.fab.rootUid ≠ 0 ∧ s.fab.rootUid = ownUid s
    let adj : Int := 1000000000 + signed 32 (s.io.br bTime Off.time_PTP_ADJ)
    let atto : Int := (s.host.ptpSec * 10 ^ 17 + s.host.ptpNs * 10 ^ 8 + s.host.ptpFrac : Nat) + adj
    t = { s with io := { s.io with tb := s.io.tb + 1, regs := t.io.regs }, host := { s.host with ptpSec := t.host.ptpSec, ptpNs := t.host.ptpNs, ptpFrac := t.host.ptpFrac },
                 fab := { s.fab with ft := t.fab.ft, slew := t.fab.slew, timed := t.fab.timed }, call := t.call } ∧
    (s.io.bf bTime Off.time_PTP_CTRL 0 0 = 0 → t.host = s.host) ∧
    (s.io.bf bTime Off.time_PTP_CTRL 0 0 = 1 →
      ((t.host.ptpSec * 10 ^ 17 + t.host.ptpNs * 10 ^ 8 + t.host.ptpFrac : Nat) : Int) = atto % (2 ^ 48 * 10 ^ 17) ∧ t.host.ptpSec < 2 ^ 48 ∧ t.host.ptpNs < 10 ^ 9 ∧ t.host.ptpFrac < 10 ^ 8) ∧
    (root → t.fab.ft = (s.io.tb + 1) * 2 ^ 32 ∧ t.fab.timed = true ∧ t.fab.slew = 0) ∧
    (¬ root → t.fab.timed = s.fab.timed ∧ ((s.fab.ft : Int) + 2 ^ 32 - 858993 ≤ t.fab.ft) ∧ ((t.fab.ft : Int) ≤ s.fab.ft + 2 ^ 32 + 858993) ∧
      (t.fab.ft : Int) + t.fab.slew = s.fab.ft + 2 ^ 32 + s.fab.slew) ∧
    (∀ d, d < 2 →
      let c := s.caller d
      let period := s.io.bf (bCaller d) Off.caller_TICK_CFG 19 0
      (c.tickPos + 1 < period → t.caller d = { c with tickPos := c.tickPos + 1 }) ∧
      (period ≤ c.tickPos + 1 → t.caller d = { c with tickPos := 0, tickNext := none, timers := c.timers.map (fun x => { x with left := x.left - 1 }) } ∧
        ∀ v, c.tickNext = some v → (t.io.bf (bCaller d) Off.caller_TICK_CFG 19 0 = v % 2 ^ 20))) ∧
    (∀ d, 2 ≤ d → t.caller d = s.caller d) ∧
    ((∀ n ∈ smKeys s.cores, n < 96) → (∀ off, blockAt off ≠ some (bCaller 0) → blockAt off ≠ some (bCaller 1) → t.io.reg off = s.io.reg off) ∧
      ((smKeys s.cores).Nodup → ∀ n, n < 96 → let off := (bCaller (dieOfCore n)).base + Off.caller_BUSY_TICKS + 0x20 * (n % 48)
        t.io.reg off = if (s.core n).task.isSome ∧ s.io.frozen (bCaller (dieOfCore n)) = false then min 0xFFFFFFFF (s.io.reg off + 1) else s.io.reg off))

/-- The reset columns of the register tables, R38, R39 and R49; log entry 9 names what the model chose. -/
def Obligations.ResetLeavesTheTablesValues : Prop :=
  let io := State.reset.io
  (∀ b : Block, b.valid = true → io.ready b = true ∧ io.isOffline b = false ∧ io.br b 0x010 = 0 ∧ io.br b 0x014 = 0xFFFFFFFF ∧ io.br b 0x01C = 0) ∧
  (∀ r ∈ ([(bGlb, Off.glb_NEG_STAT, 0), (bGlb, Off.glb_DRV_VER, 0), (bAdmit, Off.admit_ADM_CEIL, 0x55555555), (bAdmit, Off.admit_POWER_LIMIT, 750),
      (bPower, Off.power_LIMIT_W, 750), (bFactor, Off.factor_THERM_WARN, 0x5F0), (bFactor, Off.factor_DUTY, 0x888), (bFactor, Off.factor_MBX_STAT, 0),
      (bClkrst, Off.clkrst_RST_STAT, 0x50000000), (bCaller 0, Off.caller_TICK_CFG, 100), (bCaller 1, Off.caller_TICK_CFG, 100), (bReel, Off.reel_ROOT_CFG, 1),
      (bTime, Off.time_PTP_CTRL, 2), (bTime, Off.time_PTP_ADJ, 0)] : List (Block × Nat × Nat)), io.br r.1 r.2.1 = r.2.2) ∧
  negState io = 0 ∧ io.tb = 0 ∧ State.reset.mem.dev = [] ∧ State.reset.mem.poison = [] ∧ State.reset.cores = [] ∧ State.reset.pending = []

/-- The life-cycle state at reset is the model's choice (log entry 67). -/
def Obligations.ResetIsCoherent : Prop := State.reset.Coherent

/-- Coherence is `State.Coherent`; R487 and R489 for the fuses. -/
def Obligations.EveryStepKeepsCoherenceAndFusesOnlyBurn : Prop :=
  ∀ s : State, s.Coherent → ∃ t, step s = .next t ∧ t.Coherent ∧ t.pending = s.pending.tail ∧ s.fac.fuses.Grows t.fac.fuses
end

