-- ==== Sys2Proof/Laws/SMap.lean ====
section
/-! SUPPORT. Laws of sparse tables: reading after writing, and the canonical form (one spec lemma for each operation). -/

namespace Sys2Proof.Machine

variable {α : Type}

/-- Every key of a table lies above a bound. -/
def smAbove (k : Nat) (m : SMap α) : Prop := ∀ e ∈ m, k < e.1

theorem smSorted_cons_iff (j : Nat) (v : α) (m : SMap α) :
    smSorted ((j, v) :: m) = true ↔ smAbove j m ∧ smSorted m = true := by
  induction m generalizing j v with
  | nil => simp [smSorted, smAbove]
  | cons e m ih =>
    obtain ⟨k, w⟩ := e
    simp only [smSorted, Bool.and_eq_true, decide_eq_true_eq]
    constructor
    · rintro ⟨h, hs⟩
      refine ⟨?_, hs⟩
      intro e he
      rcases List.mem_cons.mp he with rfl | he
      · exact h
      · exact lt_trans h (((ih k w).mp hs).1 e he)
    · rintro ⟨h, hs⟩
      exact ⟨h (k, w) (List.mem_cons_self ..), hs⟩

theorem smAbove_of_lt {j k : Nat} {m : SMap α} (h : smAbove k m) (hj : j < k) : smAbove j m :=
  fun e he => lt_trans hj (h e he)

theorem smFind_of_above {k : Nat} {m : SMap α} (h : smAbove k m) : smFind k m = none := by
  induction m with
  | nil => rfl
  | cons e m ih =>
    obtain ⟨j, v⟩ := e
    have hj : k < j := h (j, v) (List.mem_cons_self ..)
    simp only [smFind, if_neg (by omega : ¬ j = k)]
    exact ih (fun x hx => h x (List.mem_cons_of_mem _ hx))

theorem smFind_smInsert_self (k : Nat) (v : α) (m : SMap α) : smFind k (smInsert k v m) = some v := by
  induction m with
  | nil => simp [smInsert, smFind]
  | cons e m ih =>
    obtain ⟨j, w⟩ := e
    simp only [smInsert]
    split
    · simp [smFind]
    · split
      · rename_i h _; simp [smFind, h, ih]
      · simp [smFind]

theorem smFind_smInsert_ne {k l : Nat} (v : α) (m : SMap α) (h : l ≠ k) : smFind l (smInsert k v m) = smFind l m := by
  induction m with
  | nil => simp [smInsert, smFind, Ne.symm h]
  | cons e m ih =>
    obtain ⟨j, w⟩ := e
    simp only [smInsert]
    split
    · rename_i hj; subst hj; simp [smFind, Ne.symm h]
    · split
      · simp only [smFind]; split <;> [rfl; exact ih]
      · simp [smFind, Ne.symm h]

theorem smFind_smErase_ne {k l : Nat} (m : SMap α) (h : l ≠ k) : smFind l (smErase k m) = smFind l m := by
  induction m with
  | nil => rfl
  | cons e m ih =>
    obtain ⟨j, w⟩ := e
    simp only [smErase]
    split
    · rename_i hj; subst hj; simp [smFind, Ne.symm h, ih]
    · simp only [smFind]; split <;> [rfl; exact ih]

theorem smFind_smErase_self (k : Nat) (m : SMap α) : smFind k (smErase k m) = none := by
  induction m with
  | nil => rfl
  | cons e m ih =>
    obtain ⟨j, w⟩ := e
    simp only [smErase]
    split
    · exact ih
    · rename_i hj; simp only [smFind, if_neg hj]; exact ih

theorem smGet_smPut_ne [DecidableEq α] (d : α) {k l : Nat} (v : α) (m : SMap α) (h : l ≠ k) :
    smGet d l (smPut d k v m) = smGet d l m := by
  unfold smGet smPut
  split
  · rw [smFind_smErase_ne m h]
  · rw [smFind_smInsert_ne v m h]

theorem smFind_smPut_ne [DecidableEq α] (d : α) {k l : Nat} (v : α) (m : SMap α) (h : l ≠ k) :
    smFind l (smPut d k v m) = smFind l m := by
  unfold smPut
  split
  · rw [smFind_smErase_ne m h]
  · rw [smFind_smInsert_ne v m h]

/-- Reading another key after a write, whatever the two defaults. -/
theorem smGet_smPut_other [DecidableEq α] (d e : α) {k l : Nat} (v : α) (m : SMap α) (h : l ≠ k) :
    smGet e l (smPut d k v m) = smGet e l m := by
  rw [smGet, smFind_smPut_ne d v m h, smGet]

/-- Reading what has been written. -/
@[simp] theorem smGet_smPut_self [DecidableEq α] (d : α) (k : Nat) (v : α) (m : SMap α) : smGet d k (smPut d k v m) = v := by
  unfold smGet smPut
  split
  · rename_i h; rw [smFind_smErase_self, h]; rfl
  · rw [smFind_smInsert_self]; rfl

/-- Reading after a write, in one equation. -/
theorem smGet_smPut [DecidableEq α] (d : α) (k l : Nat) (v : α) (m : SMap α) :
    smGet d l (smPut d k v m) = if l = k then v else smGet d l m := by
  split
  · rename_i h; subst h; exact smGet_smPut_self d l v m
  · rename_i h; exact smGet_smPut_ne d v m h

theorem mem_smErase {k : Nat} {m : SMap α} {e : Nat × α} (h : e ∈ smErase k m) : e ∈ m := by
  induction m with
  | nil => simp [smErase] at h
  | cons x m ih =>
    obtain ⟨j, w⟩ := x
    simp only [smErase] at h
    split at h
    · exact List.mem_cons_of_mem _ (ih h)
    · rcases List.mem_cons.mp h with rfl | h
      · exact List.mem_cons_self ..
      · exact List.mem_cons_of_mem _ (ih h)

theorem mem_smInsert {k : Nat} {v : α} {m : SMap α} {e : Nat × α} (h : e ∈ smInsert k v m) : e = (k, v) ∨ e ∈ m := by
  induction m with
  | nil => left; simpa [smInsert] using h
  | cons x m ih =>
    obtain ⟨j, w⟩ := x
    simp only [smInsert] at h
    split at h
    · rcases List.mem_cons.mp h with rfl | h
      · exact Or.inl rfl
      · exact Or.inr (List.mem_cons_of_mem _ h)
    · split at h
      · rcases List.mem_cons.mp h with rfl | h
        · exact Or.inr (List.mem_cons_self ..)
        · rcases ih h with h | h
          · exact Or.inl h
          · exact Or.inr (List.mem_cons_of_mem _ h)
      · rcases List.mem_cons.mp h with rfl | h
        · exact Or.inl rfl
        · exact Or.inr h

theorem smSorted_smErase {k : Nat} {m : SMap α} (hs : smSorted m = true) : smSorted (smErase k m) = true := by
  induction m with
  | nil => rfl
  | cons e m ih =>
    obtain ⟨j, w⟩ := e
    have hm := (smSorted_cons_iff j w m).mp hs
    simp only [smErase]
    split
    · exact ih hm.2
    · exact (smSorted_cons_iff ..).mpr ⟨fun e he => hm.1 e (mem_smErase he), ih hm.2⟩

theorem smSorted_smInsert {k : Nat} {v : α} {m : SMap α} (hs : smSorted m = true) : smSorted (smInsert k v m) = true := by
  induction m with
  | nil => rfl
  | cons e m ih =>
    obtain ⟨j, w⟩ := e
    have hm := (smSorted_cons_iff j w m).mp hs
    simp only [smInsert]
    split
    · rename_i hj; subst hj; exact (smSorted_cons_iff ..).mpr hm
    · split
      · rename_i hj hlt
        refine (smSorted_cons_iff ..).mpr ⟨?_, ih hm.2⟩
        intro e he
        rcases mem_smInsert he with rfl | he
        · exact hlt
        · exact hm.1 e he
      · rename_i hj hlt
        refine (smSorted_cons_iff ..).mpr ⟨?_, hs⟩
        intro e he
        rcases List.mem_cons.mp he with rfl | he
        · show k < j; omega
        · exact lt_trans (by omega : k < j) (hm.1 e he)

/-- A write keeps the canonical form. -/
theorem smWf_smPut [DecidableEq α] (d : Nat → α) (k : Nat) (v : α) {m : SMap α} (h : smWf d m = true) :
    smWf d (smPut (d k) k v m) = true := by
  simp only [smWf, Bool.and_eq_true, List.all_eq_true, decide_eq_true_eq] at h ⊢
  unfold smPut
  split
  · exact ⟨smSorted_smErase h.1, fun e he => h.2 e (mem_smErase he)⟩
  · rename_i hv
    refine ⟨smSorted_smInsert h.1, fun e he => ?_⟩
    rcases mem_smInsert he with rfl | he
    · exact hv
    · exact h.2 e he

theorem smSorted_filter (p : Nat × α → Bool) {m : SMap α} (hs : smSorted m = true) : smSorted (m.filter p) = true := by
  induction m with
  | nil => rfl
  | cons e m ih =>
    obtain ⟨j, w⟩ := e
    have hm := (smSorted_cons_iff j w m).mp hs
    simp only [List.filter]
    split
    · exact (smSorted_cons_iff ..).mpr ⟨fun e he => hm.1 e (List.mem_filter.mp he).1, ih hm.2⟩
    · exact ih hm.2

/-- Clearing a span keeps the canonical form. -/
theorem smWf_smClear [DecidableEq α] (d : Nat → α) (lo hi : Nat) {m : SMap α} (h : smWf d m = true) :
    smWf d (smClear lo hi m) = true := by
  simp only [smWf, Bool.and_eq_true, List.all_eq_true, decide_eq_true_eq] at h ⊢
  exact ⟨smSorted_filter _ h.1, fun e he => h.2 e (List.mem_filter.mp he).1⟩

end Sys2Proof.Machine
end

