-- ==== Sys2Proof/Laws/Regs.lean ====
section
/-! SUPPORT. Laws of the register file: where a page lies, what a register reads after a write, and what each operation
on registers and events leaves alone. -/

namespace Sys2Proof.Machine

/-- A row's search at the page of an offset: all of Table 2.2 counts in whole pages. -/
theorem locate_page {r : CatRow} (hf : r.first % 4096 = 0) (hs : r.stride % 4096 = 0) (d o : Nat) :
    r.locate d o = r.locate d (o / 4096 * 4096) := by
  obtain ⟨f, hf⟩ : ∃ f, r.first = 4096 * f := ⟨r.first / 4096, by omega⟩
  obtain ⟨t, hs⟩ : ∃ t, r.stride = 4096 * t := ⟨r.stride / 4096, by omega⟩
  have key : ∀ z, z / 4096 = o / 4096 → r.locate d z =
      if o / 4096 < f then none else
        (let pos := if t = 0 then 0 else (o / 4096 - f) / t
         if pos < r.count ∧ o / 4096 - f - t * pos < r.pages then
           some (⟨r.kind, (if r.perDie then d * r.count else 0) + pos⟩, o / 4096 - f - t * pos)
         else none) := by
    intro z hz
    have h1 : (z < r.first) = (o / 4096 < f) := by rw [hf]; apply propext; omega
    have h2 : (if r.stride = 0 then 0 else (z - r.first) / r.stride) = if t = 0 then 0 else (o / 4096 - f) / t := by
      rw [hs, hf]
      rcases Nat.eq_zero_or_pos t with rfl | ht
      · simp
      · rw [if_neg (by omega), if_neg (by omega), ← Nat.div_div_eq_div_mul]
        congr 1; omega
    simp only [CatRow.locate, h1, h2]
    split
    · rfl
    · generalize (if t = 0 then 0 else (o / 4096 - f) / t) = pos
      have hm : 4096 * t * pos = 4096 * (t * pos) := by ring
      have h3 : (z - r.first - r.stride * pos) / 4096 = o / 4096 - f - t * pos := by
        rw [hs, hf, hm]; omega
      have h4 : (z - r.first - r.stride * pos < 0x1000 * r.pages) = (o / 4096 - f - t * pos < r.pages) := by
        rw [← h3]; apply propext; omega
      simp only [h4, h3]
  rw [key o rfl, key (o / 4096 * 4096) (by omega)]

theorem catalogue_pages : ∀ r ∈ catalogue, r.first % 4096 = 0 ∧ r.stride % 4096 = 0 := by decide

theorem findSome_congr {α β : Type} {f g : α → Option β} {l : List α} (h : ∀ x ∈ l, f x = g x) : l.findSome? f = l.findSome? g := by
  induction l with
  | nil => rfl
  | cons x l ih =>
    simp only [List.findSome?, h x (List.mem_cons_self ..), ih (fun y hy => h y (List.mem_cons_of_mem _ hy))]

/-- The block at an offset depends on its page alone (R33). -/
theorem pageAt_page (off : Nat) : pageAt off = pageAt (off / 4096 * 4096) := by
  have h1 : off / 4096 * 4096 / 0x1000000 = off / 0x1000000 := by omega
  have h2 : off / 4096 * 4096 % 0x1000000 = off % 0x1000000 / 4096 * 4096 := by omega
  simp only [pageAt, h1, h2]
  have hm : ∀ (p : CatRow → Bool) d, (catalogue.filter p).findSome? (fun r => r.locate d (off % 0x1000000)) =
      (catalogue.filter p).findSome? (fun r => r.locate d (off % 0x1000000 / 4096 * 4096)) := fun p d =>
    findSome_congr fun r hr => locate_page (catalogue_pages r (List.mem_of_mem_filter hr)).1 (catalogue_pages r (List.mem_of_mem_filter hr)).2 d _
  rw [hm, hm]

/-- Every page of every block, looked up at its offset. -/
theorem pages_found : (allBlocks.all fun b => (List.range (catRow b.kind).pages).all fun p =>
    decide (pageAt (b.base + 4096 * p) = some (b, p))) = true := by decide +kernel

theorem mem_allBlocks {b : Block} (h : b.inst < instances b.kind) : b ∈ allBlocks := by
  obtain ⟨k, i⟩ := b
  simp only [allBlocks, List.mem_flatMap, List.mem_map, List.mem_range]
  refine ⟨catRow k, ?_, i, ?_, ?_⟩
  · cases k <;> decide
  · have : (catRow k).kind = k := by cases k <;> decide
    rw [this]; exact h
  · have : (catRow k).kind = k := by cases k <;> decide
    rw [this]

theorem base_page (b : Block) : b.base % 4096 = 0 := by
  obtain ⟨k, i⟩ := b
  cases k <;> simp [Block.base, catRow, catalogue, dieBase] <;> omega

/-- An offset in a block's pages belongs to the block (R33, R35). -/
theorem pageAt_base {b : Block} (h : b.inst < instances b.kind) {o : Nat} (ho : o < 4096 * (catRow b.kind).pages) :
    pageAt (b.base + o) = some (b, o / 4096) := by
  have hb := base_page b
  have := pages_found
  rw [List.all_eq_true] at this
  have := this b (mem_allBlocks h)
  rw [List.all_eq_true] at this
  have := this (o / 4096) (by rw [List.mem_range]; omega)
  rw [decide_eq_true_eq] at this
  rw [pageAt_page, ← this]
  congr 1; omega

theorem blockAt_base {b : Block} (h : b.inst < instances b.kind) {o : Nat} (ho : o < 4096 * (catRow b.kind).pages) :
    blockAt (b.base + o) = some b := by simp [blockAt, pageAt_base h ho]

theorem catRow_kind : ∀ r ∈ catalogue, catRow r.kind = r := by decide

/-- What a row's search answers. -/
theorem locate_some {r : CatRow} (hf : r.first % 4096 = 0) (hs : r.stride % 4096 = 0) {d o : Nat} {b : Block} {i : Nat}
    (h : r.locate d o = some (b, i)) :
    b.kind = r.kind ∧ i < r.pages ∧ ∃ pos, pos < r.count ∧ b.inst = (if r.perDie then d * r.count else 0) + pos ∧
      o = r.first + r.stride * pos + 4096 * i + o % 4096 := by
  obtain ⟨f, hf⟩ : ∃ f, r.first = 4096 * f := ⟨r.first / 4096, by omega⟩
  obtain ⟨t, hs⟩ : ∃ t, r.stride = 4096 * t := ⟨r.stride / 4096, by omega⟩
  have hle : r.stride * (if r.stride = 0 then 0 else (o - r.first) / r.stride) ≤ o - r.first := by
    split
    · simp
    · exact Nat.mul_div_le _ _
  simp only [CatRow.locate] at h
  generalize (if r.stride = 0 then 0 else (o - r.first) / r.stride) = pos at h hle
  split at h
  · cases h
  · rename_i hlt
    split at h
    · rename_i hp
      simp only [Option.some.injEq, Prod.mk.injEq] at h
      obtain ⟨rfl, rfl⟩ := h
      refine ⟨rfl, by omega, pos, hp.1, rfl, ?_⟩
      rw [hs] at hle ⊢
      have hm : 4096 * t * pos = 4096 * (t * pos) := by ring
      rw [hm] at hle ⊢
      omega
    · cases h

/-- Where the page found at an offset lies. -/
theorem pageAt_some {off : Nat} {b : Block} {i : Nat} (h : pageAt off = some (b, i)) :
    b.inst < instances b.kind ∧ i < (catRow b.kind).pages ∧ off = b.base + 4096 * i + off % 4096 := by
  have hall : ∀ (p : CatRow → Bool) (d : Nat),
      (catalogue.filter p).findSome? (fun r => r.locate d (off % 0x1000000)) = some (b, i) →
      ∃ r ∈ catalogue, p r = true ∧ catRow b.kind = r ∧ i < r.pages ∧ ∃ pos, pos < r.count ∧
        b.inst = (if r.perDie then d * r.count else 0) + pos ∧
        off % 0x1000000 = r.first + r.stride * pos + 4096 * i + off % 0x1000000 % 4096 := by
    intro p d hx
    obtain ⟨r, hr, hl⟩ := List.exists_of_findSome?_eq_some hx
    have hc := catalogue_pages r (List.mem_of_mem_filter hr)
    obtain ⟨hk, hi, pos, h1, h2, h3⟩ := locate_some hc.1 hc.2 hl
    refine ⟨r, List.mem_of_mem_filter hr, (List.mem_filter.mp hr).2, ?_, hi, pos, h1, h2, h3⟩
    rw [hk]; exact catRow_kind r (List.mem_of_mem_filter hr)
  simp only [pageAt] at h
  split at h
  · obtain ⟨r, hr, hp, hk, hi, pos, h1, h2, h3⟩ := hall _ _ h
    have hd : r.perDie = false := by simpa using hp
    simp only [Block.base, instances, hk, hd] at h2 ⊢
    simp at h2 ⊢
    subst h2
    omega
  · split at h
    · obtain ⟨r, hr, hp, hk, hi, pos, h1, h2, h3⟩ := hall _ _ h
      rw [if_pos hp] at h2
      have hq : b.inst / r.count = off / 0x1000000 - 1 ∧ b.inst % r.count = pos := by
        rw [h2, Nat.mul_comm]
        constructor
        · rw [Nat.mul_add_div (by omega), Nat.div_eq_of_lt h1]; rfl
        · rw [Nat.mul_add_mod, Nat.mod_eq_of_lt h1]
      simp only [Block.base, instances, hk, hp, if_true, hq, dieBase]
      refine ⟨?_, hi, ?_⟩
      · have : off / 0x1000000 - 1 ≤ 1 := by omega
        have := Nat.mul_le_mul_right r.count this
        omega
      · omega
    · cases h

/-- An alias lies in the same block (R37). -/
theorem blockAt_normOff (off : Nat) : blockAt (normOff off) = blockAt off := by
  unfold normOff
  split
  · rename_i b i h
    dsimp only
    split
    · have hv := pageAt_some h
      rw [blockAt_base hv.1 (by have := hv.2.1; omega)]
      simp [blockAt, h]
    · rfl
  · rfl

namespace Io

/-- A register after the device's own write: the one written and its aliases read the value. -/
theorem reg_setReg (io : Io) (off v o : Nat) :
    (io.setReg off v).reg o = if normOff o = normOff off then v % 2 ^ 32 else io.reg o := by
  simp only [reg, setReg]
  split
  · rename_i h; rw [h, smGet_smPut_self, BitVec.toNat_ofNat]
  · rename_i h; rw [smGet_smPut_other _ _ _ _ h]

@[simp] theorem reg_setReg_self (io : Io) (off v : Nat) : (io.setReg off v).reg off = v % 2 ^ 32 := by
  rw [reg_setReg, if_pos rfl]

/-- A write leaves the registers of every other block alone. -/
theorem reg_setReg_block (io : Io) {off o : Nat} (v : Nat) (h : blockAt o ≠ blockAt off) : (io.setReg off v).reg o = io.reg o := by
  rw [reg_setReg, if_neg]
  intro hn
  exact h (by rw [← blockAt_normOff o, hn, blockAt_normOff])

theorem onlyRegs_refl (bs : List Block) (a : Io) : OnlyRegs bs a a := ⟨rfl, fun _ _ => rfl⟩

theorem OnlyRegs.trans {bs : List Block} {a b c : Io} (h : OnlyRegs bs a b) (k : OnlyRegs bs b c) : OnlyRegs bs a c := by
  refine ⟨?_, fun off ho => (k.2 off ho).trans (h.2 off ho)⟩
  rw [k.1, h.1]

theorem OnlyRegs.mono {bs cs : List Block} {a b : Io} (h : OnlyRegs bs a b) (hs : bs ⊆ cs) : OnlyRegs cs a b :=
  ⟨h.1, fun off ho => h.2 off fun k hk => ho k (hs hk)⟩

/-- A write of one register of a block. -/
theorem onlyRegs_setReg (io : Io) {b : Block} (hb : b.valid = true) {o : Nat} (ho : o < 4096 * (catRow b.kind).pages) (v : Nat) :
    OnlyRegs [b] io (io.setReg (b.base + o) v) := by
  refine ⟨rfl, fun off hoff => reg_setReg_block io v ?_⟩
  rw [blockAt_base (by simpa [Block.valid] using hb) ho]
  exact hoff b (List.mem_singleton_self b)

theorem onlyRegs_count (io : Io) {b : Block} (hb : b.valid = true) {o : Nat} (ho : o < 4096 * (catRow b.kind).pages) (n : Nat) :
    OnlyRegs [b] io (io.count b o n) := by
  unfold count
  split
  · exact onlyRegs_refl _ _
  · exact onlyRegs_setReg io hb ho _

theorem onlyRegs_setReg64 (io : Io) {b : Block} (hb : b.valid = true) {o : Nat} (ho : o + 4 < 4096 * (catRow b.kind).pages) (v : Nat) :
    OnlyRegs [b] io (io.setReg64 (b.base + o) v) := by
  have h := onlyRegs_setReg (io.setReg (b.base + o) v) hb ho (v / 2 ^ 32)
  rw [← Nat.add_assoc] at h
  exact (onlyRegs_setReg io hb (by omega) _).trans h

theorem onlyRegs_count64 (io : Io) {b : Block} (hb : b.valid = true) {o : Nat} (ho : o + 4 < 4096 * (catRow b.kind).pages) (n : Nat) :
    OnlyRegs [b] io (io.count64 b o n) := by
  unfold count64
  split
  · exact onlyRegs_refl _ _
  · exact onlyRegs_setReg64 io hb ho _

theorem onlyEvents_refl (bs : List Block) (a : Io) : OnlyEvents bs a a := ⟨rfl, fun _ _ => rfl⟩

theorem OnlyEvents.trans {bs : List Block} {a b c : Io} (h : OnlyEvents bs a b) (k : OnlyEvents bs b c) : OnlyEvents bs a c := by
  refine ⟨?_, fun off ho => (k.2 off ho).trans (h.2 off ho)⟩
  rw [k.1, h.1]

theorem OnlyEvents.mono {bs cs : List Block} {a b : Io} (h : OnlyEvents bs a b) (hs : bs ⊆ cs) : OnlyEvents cs a b :=
  ⟨h.1, fun off ho => h.2 off fun k hk => ho k (List.cons_subset_cons _ hs hk)⟩

theorem OnlyRegs.events {bs : List Block} {a b : Io} (h : OnlyRegs bs a b) : OnlyEvents bs a b := by
  refine ⟨?_, fun off ho => h.2 off fun k hk => ho k (List.mem_cons_of_mem _ hk)⟩
  rw [h.1]

theorem bEvtq_valid : bEvtq.valid = true := by decide

/-- Giving a record to event delivery touches the intake and EVTQ's registers only. -/
theorem onlyEvents_emit (io : Io) (r : EvRec) (bs : List Block) : OnlyEvents bs io (io.emit r) := by
  unfold emit
  split
  · exact ⟨rfl, fun _ _ => rfl⟩
  · split
    · exact ⟨rfl, fun _ _ => rfl⟩
    · have h : OnlyRegs (bEvtq :: bs) io ((io.count bEvtq Off.evtq_SRC_LOST 1).setReg (bEvtq.base + 0x010)
          (putBits ((io.count bEvtq Off.evtq_SRC_LOST 1).br bEvtq 0x010) 2 2 1)) :=
        ((onlyRegs_count io bEvtq_valid (by decide) 1).trans (onlyRegs_setReg _ bEvtq_valid (by decide) _)).mono (by simp)
      dsimp only
      rw [show (⟨.evtq, 0⟩ : Block) = bEvtq from rfl]
      generalize (io.count bEvtq Off.evtq_SRC_LOST 1).setReg (bEvtq.base + 0x010)
          (putBits ((io.count bEvtq Off.evtq_SRC_LOST 1).br bEvtq 0x010) 2 2 1) = x at h ⊢
      obtain ⟨h1, h2⟩ := h
      exact ⟨by rw [h1], fun off ho => h2 off ho⟩

theorem onlyEvents_note (io : Io) (b : Block) (cls code : Nat) (ctx : Option Nat) (addr info : Nat) (bs : List Block) :
    OnlyEvents bs io (io.note b cls code ctx addr info) := onlyEvents_emit _ _ _

theorem pages_pos (k : BlockKind) : 4096 ≤ 4096 * (catRow k).pages := by cases k <;> decide

/-- An event bit touches its block's EVT_STAT and event delivery only (R39). -/
theorem onlyEvents_riseWith (io : Io) {b : Block} (hb : b.valid = true) (bit : Nat) (r : Option EvRec) :
    OnlyEvents [b] io (io.riseWith b bit r) := by
  unfold riseWith
  have hp := pages_pos b.kind
  simp only
  split
  · exact onlyEvents_refl _ _
  · have h := (onlyRegs_setReg io hb (o := 0x010) (by omega) (putBits (io.br b 0x010) bit bit 1)).events
    have h2 : OnlyEvents [b] io { io.setReg (b.base + 0x010) (putBits (io.br b 0x010) bit bit 1) with
        occ := smPut none (occKey b bit) r (io.setReg (b.base + 0x010) (putBits (io.br b 0x010) bit bit 1)).occ } :=
      ⟨rfl, h.2⟩
    split
    · exact h2
    · split
      · exact h2.trans (onlyEvents_emit _ _ _)
      · exact h2

theorem onlyEvents_rise (io : Io) {b : Block} (hb : b.valid = true) (bit : Nat) (ctx : Option Nat) :
    OnlyEvents [b] io (io.rise b bit ctx) := onlyEvents_riseWith io hb _ _

theorem onlyEvents_riseNamed (io : Io) {b : Block} (hb : b.valid = true) (bit cls code : Nat) (ctx : Option Nat) (addr info : Nat) :
    OnlyEvents [b] io (io.riseNamed b bit cls code ctx addr info) := onlyEvents_riseWith io hb _ _

/-- Error capture touches its block's header and event delivery only (R40). -/
theorem onlyEvents_capture (io : Io) {b : Block} (hb : b.valid = true) (code addr : Nat) (ctx : Option Nat) :
    OnlyEvents [b] io (io.capture b code addr ctx) := by
  have hp := pages_pos b.kind
  unfold capture
  simp only
  refine OnlyEvents.trans ?_ (onlyRegs_setReg _ hb (by omega) _).events
  split
  · exact (onlyRegs_setReg _ hb (by omega) _).events
  · refine OnlyEvents.trans ?_ (onlyEvents_riseNamed _ hb _ _ _ _ _ _)
    exact ((onlyRegs_setReg _ hb (by omega) _).trans (onlyRegs_setReg64 _ hb (by omega) _)).events

end Io

end Sys2Proof.Machine
end

