-- ==== Sys2Proof/Laws/State.lean ====
section
/-! SUPPORT. What each update of one part of the state leaves alone, and what reading that part gives after it. -/

namespace Sys2Proof.Machine

/-! `State.mapIo` changes `io` only. -/

@[simp] theorem mapIo_mem (s : State) (f : Io → Io) : (State.mapIo s f).mem = s.mem := rfl
@[simp] theorem mapIo_rst (s : State) (f : Io → Io) : (State.mapIo s f).rst = s.rst := rfl
@[simp] theorem mapIo_adm (s : State) (f : Io → Io) : (State.mapIo s f).adm = s.adm := rfl
@[simp] theorem mapIo_call (s : State) (f : Io → Io) : (State.mapIo s f).call = s.call := rfl
@[simp] theorem mapIo_host (s : State) (f : Io → Io) : (State.mapIo s f).host = s.host := rfl
@[simp] theorem mapIo_cores (s : State) (f : Io → Io) : (State.mapIo s f).cores = s.cores := rfl
@[simp] theorem mapIo_fetch (s : State) (f : Io → Io) : (State.mapIo s f).fetch = s.fetch := rfl
@[simp] theorem mapIo_queue (s : State) (f : Io → Io) : (State.mapIo s f).queue = s.queue := rfl
@[simp] theorem mapIo_egp (s : State) (f : Io → Io) : (State.mapIo s f).egp = s.egp := rfl
@[simp] theorem mapIo_assay (s : State) (f : Io → Io) : (State.mapIo s f).assay = s.assay := rfl
@[simp] theorem mapIo_merge (s : State) (f : Io → Io) : (State.mapIo s f).merge = s.merge := rfl
@[simp] theorem mapIo_expert (s : State) (f : Io → Io) : (State.mapIo s f).expert = s.expert := rfl
@[simp] theorem mapIo_weave (s : State) (f : Io → Io) : (State.mapIo s f).weave = s.weave := rfl
@[simp] theorem mapIo_fab (s : State) (f : Io → Io) : (State.mapIo s f).fab = s.fab := rfl
@[simp] theorem mapIo_fac (s : State) (f : Io → Io) : (State.mapIo s f).fac = s.fac := rfl
@[simp] theorem mapIo_evt (s : State) (f : Io → Io) : (State.mapIo s f).evt = s.evt := rfl
@[simp] theorem mapIo_pending (s : State) (f : Io → Io) : (State.mapIo s f).pending = s.pending := rfl

/-! `State.withIo` changes `io` only. -/

@[simp] theorem withIo_mem (s : State) (io : Io) : (State.withIo s io).mem = s.mem := rfl
@[simp] theorem withIo_rst (s : State) (io : Io) : (State.withIo s io).rst = s.rst := rfl
@[simp] theorem withIo_adm (s : State) (io : Io) : (State.withIo s io).adm = s.adm := rfl
@[simp] theorem withIo_call (s : State) (io : Io) : (State.withIo s io).call = s.call := rfl
@[simp] theorem withIo_host (s : State) (io : Io) : (State.withIo s io).host = s.host := rfl
@[simp] theorem withIo_cores (s : State) (io : Io) : (State.withIo s io).cores = s.cores := rfl
@[simp] theorem withIo_fetch (s : State) (io : Io) : (State.withIo s io).fetch = s.fetch := rfl
@[simp] theorem withIo_queue (s : State) (io : Io) : (State.withIo s io).queue = s.queue := rfl
@[simp] theorem withIo_egp (s : State) (io : Io) : (State.withIo s io).egp = s.egp := rfl
@[simp] theorem withIo_assay (s : State) (io : Io) : (State.withIo s io).assay = s.assay := rfl
@[simp] theorem withIo_merge (s : State) (io : Io) : (State.withIo s io).merge = s.merge := rfl
@[simp] theorem withIo_expert (s : State) (io : Io) : (State.withIo s io).expert = s.expert := rfl
@[simp] theorem withIo_weave (s : State) (io : Io) : (State.withIo s io).weave = s.weave := rfl
@[simp] theorem withIo_fab (s : State) (io : Io) : (State.withIo s io).fab = s.fab := rfl
@[simp] theorem withIo_fac (s : State) (io : Io) : (State.withIo s io).fac = s.fac := rfl
@[simp] theorem withIo_evt (s : State) (io : Io) : (State.withIo s io).evt = s.evt := rfl
@[simp] theorem withIo_pending (s : State) (io : Io) : (State.withIo s io).pending = s.pending := rfl

/-! `State.dwrite` changes `mem` only. -/

@[simp] theorem dwrite_io (s : State) (a : Nat) (bs : List Byte) (p : Bool) : (State.dwrite s a bs p).io = s.io := rfl
@[simp] theorem dwrite_rst (s : State) (a : Nat) (bs : List Byte) (p : Bool) : (State.dwrite s a bs p).rst = s.rst := rfl
@[simp] theorem dwrite_adm (s : State) (a : Nat) (bs : List Byte) (p : Bool) : (State.dwrite s a bs p).adm = s.adm := rfl
@[simp] theorem dwrite_call (s : State) (a : Nat) (bs : List Byte) (p : Bool) : (State.dwrite s a bs p).call = s.call := rfl
@[simp] theorem dwrite_host (s : State) (a : Nat) (bs : List Byte) (p : Bool) : (State.dwrite s a bs p).host = s.host := rfl
@[simp] theorem dwrite_cores (s : State) (a : Nat) (bs : List Byte) (p : Bool) : (State.dwrite s a bs p).cores = s.cores := rfl
@[simp] theorem dwrite_fetch (s : State) (a : Nat) (bs : List Byte) (p : Bool) : (State.dwrite s a bs p).fetch = s.fetch := rfl
@[simp] theorem dwrite_queue (s : State) (a : Nat) (bs : List Byte) (p : Bool) : (State.dwrite s a bs p).queue = s.queue := rfl
@[simp] theorem dwrite_egp (s : State) (a : Nat) (bs : List Byte) (p : Bool) : (State.dwrite s a bs p).egp = s.egp := rfl
@[simp] theorem dwrite_assay (s : State) (a : Nat) (bs : List Byte) (p : Bool) : (State.dwrite s a bs p).assay = s.assay := rfl
@[simp] theorem dwrite_merge (s : State) (a : Nat) (bs : List Byte) (p : Bool) : (State.dwrite s a bs p).merge = s.merge := rfl
@[simp] theorem dwrite_expert (s : State) (a : Nat) (bs : List Byte) (p : Bool) : (State.dwrite s a bs p).expert = s.expert := rfl
@[simp] theorem dwrite_weave (s : State) (a : Nat) (bs : List Byte) (p : Bool) : (State.dwrite s a bs p).weave = s.weave := rfl
@[simp] theorem dwrite_fab (s : State) (a : Nat) (bs : List Byte) (p : Bool) : (State.dwrite s a bs p).fab = s.fab := rfl
@[simp] theorem dwrite_fac (s : State) (a : Nat) (bs : List Byte) (p : Bool) : (State.dwrite s a bs p).fac = s.fac := rfl
@[simp] theorem dwrite_evt (s : State) (a : Nat) (bs : List Byte) (p : Bool) : (State.dwrite s a bs p).evt = s.evt := rfl
@[simp] theorem dwrite_pending (s : State) (a : Nat) (bs : List Byte) (p : Bool) : (State.dwrite s a bs p).pending = s.pending := rfl

/-! `State.setCtx` changes `adm` only. -/

@[simp] theorem setCtx_io (s : State) (c : Ctx) : (State.setCtx s c).io = s.io := rfl
@[simp] theorem setCtx_mem (s : State) (c : Ctx) : (State.setCtx s c).mem = s.mem := rfl
@[simp] theorem setCtx_rst (s : State) (c : Ctx) : (State.setCtx s c).rst = s.rst := rfl
@[simp] theorem setCtx_call (s : State) (c : Ctx) : (State.setCtx s c).call = s.call := rfl
@[simp] theorem setCtx_host (s : State) (c : Ctx) : (State.setCtx s c).host = s.host := rfl
@[simp] theorem setCtx_cores (s : State) (c : Ctx) : (State.setCtx s c).cores = s.cores := rfl
@[simp] theorem setCtx_fetch (s : State) (c : Ctx) : (State.setCtx s c).fetch = s.fetch := rfl
@[simp] theorem setCtx_queue (s : State) (c : Ctx) : (State.setCtx s c).queue = s.queue := rfl
@[simp] theorem setCtx_egp (s : State) (c : Ctx) : (State.setCtx s c).egp = s.egp := rfl
@[simp] theorem setCtx_assay (s : State) (c : Ctx) : (State.setCtx s c).assay = s.assay := rfl
@[simp] theorem setCtx_merge (s : State) (c : Ctx) : (State.setCtx s c).merge = s.merge := rfl
@[simp] theorem setCtx_expert (s : State) (c : Ctx) : (State.setCtx s c).expert = s.expert := rfl
@[simp] theorem setCtx_weave (s : State) (c : Ctx) : (State.setCtx s c).weave = s.weave := rfl
@[simp] theorem setCtx_fab (s : State) (c : Ctx) : (State.setCtx s c).fab = s.fab := rfl
@[simp] theorem setCtx_fac (s : State) (c : Ctx) : (State.setCtx s c).fac = s.fac := rfl
@[simp] theorem setCtx_evt (s : State) (c : Ctx) : (State.setCtx s c).evt = s.evt := rfl
@[simp] theorem setCtx_pending (s : State) (c : Ctx) : (State.setCtx s c).pending = s.pending := rfl

/-! `State.setCaller` changes `call` only. -/

@[simp] theorem setCaller_io (s : State) (d : Nat) (c : CallerSt) : (State.setCaller s d c).io = s.io := rfl
@[simp] theorem setCaller_mem (s : State) (d : Nat) (c : CallerSt) : (State.setCaller s d c).mem = s.mem := rfl
@[simp] theorem setCaller_rst (s : State) (d : Nat) (c : CallerSt) : (State.setCaller s d c).rst = s.rst := rfl
@[simp] theorem setCaller_adm (s : State) (d : Nat) (c : CallerSt) : (State.setCaller s d c).adm = s.adm := rfl
@[simp] theorem setCaller_host (s : State) (d : Nat) (c : CallerSt) : (State.setCaller s d c).host = s.host := rfl
@[simp] theorem setCaller_cores (s : State) (d : Nat) (c : CallerSt) : (State.setCaller s d c).cores = s.cores := rfl
@[simp] theorem setCaller_fetch (s : State) (d : Nat) (c : CallerSt) : (State.setCaller s d c).fetch = s.fetch := rfl
@[simp] theorem setCaller_queue (s : State) (d : Nat) (c : CallerSt) : (State.setCaller s d c).queue = s.queue := rfl
@[simp] theorem setCaller_egp (s : State) (d : Nat) (c : CallerSt) : (State.setCaller s d c).egp = s.egp := rfl
@[simp] theorem setCaller_assay (s : State) (d : Nat) (c : CallerSt) : (State.setCaller s d c).assay = s.assay := rfl
@[simp] theorem setCaller_merge (s : State) (d : Nat) (c : CallerSt) : (State.setCaller s d c).merge = s.merge := rfl
@[simp] theorem setCaller_expert (s : State) (d : Nat) (c : CallerSt) : (State.setCaller s d c).expert = s.expert := rfl
@[simp] theorem setCaller_weave (s : State) (d : Nat) (c : CallerSt) : (State.setCaller s d c).weave = s.weave := rfl
@[simp] theorem setCaller_fab (s : State) (d : Nat) (c : CallerSt) : (State.setCaller s d c).fab = s.fab := rfl
@[simp] theorem setCaller_fac (s : State) (d : Nat) (c : CallerSt) : (State.setCaller s d c).fac = s.fac := rfl
@[simp] theorem setCaller_evt (s : State) (d : Nat) (c : CallerSt) : (State.setCaller s d c).evt = s.evt := rfl
@[simp] theorem setCaller_pending (s : State) (d : Nat) (c : CallerSt) : (State.setCaller s d c).pending = s.pending := rfl

/-! `State.setRing` changes `host` only. -/

@[simp] theorem setRing_io (s : State) (k : Nat) (r : Ring) : (State.setRing s k r).io = s.io := rfl
@[simp] theorem setRing_mem (s : State) (k : Nat) (r : Ring) : (State.setRing s k r).mem = s.mem := rfl
@[simp] theorem setRing_rst (s : State) (k : Nat) (r : Ring) : (State.setRing s k r).rst = s.rst := rfl
@[simp] theorem setRing_adm (s : State) (k : Nat) (r : Ring) : (State.setRing s k r).adm = s.adm := rfl
@[simp] theorem setRing_call (s : State) (k : Nat) (r : Ring) : (State.setRing s k r).call = s.call := rfl
@[simp] theorem setRing_cores (s : State) (k : Nat) (r : Ring) : (State.setRing s k r).cores = s.cores := rfl
@[simp] theorem setRing_fetch (s : State) (k : Nat) (r : Ring) : (State.setRing s k r).fetch = s.fetch := rfl
@[simp] theorem setRing_queue (s : State) (k : Nat) (r : Ring) : (State.setRing s k r).queue = s.queue := rfl
@[simp] theorem setRing_egp (s : State) (k : Nat) (r : Ring) : (State.setRing s k r).egp = s.egp := rfl
@[simp] theorem setRing_assay (s : State) (k : Nat) (r : Ring) : (State.setRing s k r).assay = s.assay := rfl
@[simp] theorem setRing_merge (s : State) (k : Nat) (r : Ring) : (State.setRing s k r).merge = s.merge := rfl
@[simp] theorem setRing_expert (s : State) (k : Nat) (r : Ring) : (State.setRing s k r).expert = s.expert := rfl
@[simp] theorem setRing_weave (s : State) (k : Nat) (r : Ring) : (State.setRing s k r).weave = s.weave := rfl
@[simp] theorem setRing_fab (s : State) (k : Nat) (r : Ring) : (State.setRing s k r).fab = s.fab := rfl
@[simp] theorem setRing_fac (s : State) (k : Nat) (r : Ring) : (State.setRing s k r).fac = s.fac := rfl
@[simp] theorem setRing_evt (s : State) (k : Nat) (r : Ring) : (State.setRing s k r).evt = s.evt := rfl
@[simp] theorem setRing_pending (s : State) (k : Nat) (r : Ring) : (State.setRing s k r).pending = s.pending := rfl

/-! `State.setCore` changes `cores` only. -/

@[simp] theorem setCore_io (s : State) (n : Nat) (c : CoreSt) : (State.setCore s n c).io = s.io := rfl
@[simp] theorem setCore_mem (s : State) (n : Nat) (c : CoreSt) : (State.setCore s n c).mem = s.mem := rfl
@[simp] theorem setCore_rst (s : State) (n : Nat) (c : CoreSt) : (State.setCore s n c).rst = s.rst := rfl
@[simp] theorem setCore_adm (s : State) (n : Nat) (c : CoreSt) : (State.setCore s n c).adm = s.adm := rfl
@[simp] theorem setCore_call (s : State) (n : Nat) (c : CoreSt) : (State.setCore s n c).call = s.call := rfl
@[simp] theorem setCore_host (s : State) (n : Nat) (c : CoreSt) : (State.setCore s n c).host = s.host := rfl
@[simp] theorem setCore_fetch (s : State) (n : Nat) (c : CoreSt) : (State.setCore s n c).fetch = s.fetch := rfl
@[simp] theorem setCore_queue (s : State) (n : Nat) (c : CoreSt) : (State.setCore s n c).queue = s.queue := rfl
@[simp] theorem setCore_egp (s : State) (n : Nat) (c : CoreSt) : (State.setCore s n c).egp = s.egp := rfl
@[simp] theorem setCore_assay (s : State) (n : Nat) (c : CoreSt) : (State.setCore s n c).assay = s.assay := rfl
@[simp] theorem setCore_merge (s : State) (n : Nat) (c : CoreSt) : (State.setCore s n c).merge = s.merge := rfl
@[simp] theorem setCore_expert (s : State) (n : Nat) (c : CoreSt) : (State.setCore s n c).expert = s.expert := rfl
@[simp] theorem setCore_weave (s : State) (n : Nat) (c : CoreSt) : (State.setCore s n c).weave = s.weave := rfl
@[simp] theorem setCore_fab (s : State) (n : Nat) (c : CoreSt) : (State.setCore s n c).fab = s.fab := rfl
@[simp] theorem setCore_fac (s : State) (n : Nat) (c : CoreSt) : (State.setCore s n c).fac = s.fac := rfl
@[simp] theorem setCore_evt (s : State) (n : Nat) (c : CoreSt) : (State.setCore s n c).evt = s.evt := rfl
@[simp] theorem setCore_pending (s : State) (n : Nat) (c : CoreSt) : (State.setCore s n c).pending = s.pending := rfl

/-! `State.setStrm` changes `cores` only. -/

@[simp] theorem setStrm_io (s : State) (n : Nat) (k : Nat) (x : Strm) : (State.setStrm s n k x).io = s.io := rfl
@[simp] theorem setStrm_mem (s : State) (n : Nat) (k : Nat) (x : Strm) : (State.setStrm s n k x).mem = s.mem := rfl
@[simp] theorem setStrm_rst (s : State) (n : Nat) (k : Nat) (x : Strm) : (State.setStrm s n k x).rst = s.rst := rfl
@[simp] theorem setStrm_adm (s : State) (n : Nat) (k : Nat) (x : Strm) : (State.setStrm s n k x).adm = s.adm := rfl
@[simp] theorem setStrm_call (s : State) (n : Nat) (k : Nat) (x : Strm) : (State.setStrm s n k x).call = s.call := rfl
@[simp] theorem setStrm_host (s : State) (n : Nat) (k : Nat) (x : Strm) : (State.setStrm s n k x).host = s.host := rfl
@[simp] theorem setStrm_fetch (s : State) (n : Nat) (k : Nat) (x : Strm) : (State.setStrm s n k x).fetch = s.fetch := rfl
@[simp] theorem setStrm_queue (s : State) (n : Nat) (k : Nat) (x : Strm) : (State.setStrm s n k x).queue = s.queue := rfl
@[simp] theorem setStrm_egp (s : State) (n : Nat) (k : Nat) (x : Strm) : (State.setStrm s n k x).egp = s.egp := rfl
@[simp] theorem setStrm_assay (s : State) (n : Nat) (k : Nat) (x : Strm) : (State.setStrm s n k x).assay = s.assay := rfl
@[simp] theorem setStrm_merge (s : State) (n : Nat) (k : Nat) (x : Strm) : (State.setStrm s n k x).merge = s.merge := rfl
@[simp] theorem setStrm_expert (s : State) (n : Nat) (k : Nat) (x : Strm) : (State.setStrm s n k x).expert = s.expert := rfl
@[simp] theorem setStrm_weave (s : State) (n : Nat) (k : Nat) (x : Strm) : (State.setStrm s n k x).weave = s.weave := rfl
@[simp] theorem setStrm_fab (s : State) (n : Nat) (k : Nat) (x : Strm) : (State.setStrm s n k x).fab = s.fab := rfl
@[simp] theorem setStrm_fac (s : State) (n : Nat) (k : Nat) (x : Strm) : (State.setStrm s n k x).fac = s.fac := rfl
@[simp] theorem setStrm_evt (s : State) (n : Nat) (k : Nat) (x : Strm) : (State.setStrm s n k x).evt = s.evt := rfl
@[simp] theorem setStrm_pending (s : State) (n : Nat) (k : Nat) (x : Strm) : (State.setStrm s n k x).pending = s.pending := rfl

/-! `setInst` changes `adm` only. -/

@[simp] theorem setInst_io (s : State) (x : FusedInst) : (setInst s x).io = s.io := rfl
@[simp] theorem setInst_mem (s : State) (x : FusedInst) : (setInst s x).mem = s.mem := rfl
@[simp] theorem setInst_rst (s : State) (x : FusedInst) : (setInst s x).rst = s.rst := rfl
@[simp] theorem setInst_call (s : State) (x : FusedInst) : (setInst s x).call = s.call := rfl
@[simp] theorem setInst_host (s : State) (x : FusedInst) : (setInst s x).host = s.host := rfl
@[simp] theorem setInst_cores (s : State) (x : FusedInst) : (setInst s x).cores = s.cores := rfl
@[simp] theorem setInst_fetch (s : State) (x : FusedInst) : (setInst s x).fetch = s.fetch := rfl
@[simp] theorem setInst_queue (s : State) (x : FusedInst) : (setInst s x).queue = s.queue := rfl
@[simp] theorem setInst_egp (s : State) (x : FusedInst) : (setInst s x).egp = s.egp := rfl
@[simp] theorem setInst_assay (s : State) (x : FusedInst) : (setInst s x).assay = s.assay := rfl
@[simp] theorem setInst_merge (s : State) (x : FusedInst) : (setInst s x).merge = s.merge := rfl
@[simp] theorem setInst_expert (s : State) (x : FusedInst) : (setInst s x).expert = s.expert := rfl
@[simp] theorem setInst_weave (s : State) (x : FusedInst) : (setInst s x).weave = s.weave := rfl
@[simp] theorem setInst_fab (s : State) (x : FusedInst) : (setInst s x).fab = s.fab := rfl
@[simp] theorem setInst_fac (s : State) (x : FusedInst) : (setInst s x).fac = s.fac := rfl
@[simp] theorem setInst_evt (s : State) (x : FusedInst) : (setInst s x).evt = s.evt := rfl
@[simp] theorem setInst_pending (s : State) (x : FusedInst) : (setInst s x).pending = s.pending := rfl

/-! `setIngress` changes `host` only. -/

@[simp] theorem setIngress_io (s : State) (cn : Nat) (g : Ingress) : (setIngress s cn g).io = s.io := rfl
@[simp] theorem setIngress_mem (s : State) (cn : Nat) (g : Ingress) : (setIngress s cn g).mem = s.mem := rfl
@[simp] theorem setIngress_rst (s : State) (cn : Nat) (g : Ingress) : (setIngress s cn g).rst = s.rst := rfl
@[simp] theorem setIngress_adm (s : State) (cn : Nat) (g : Ingress) : (setIngress s cn g).adm = s.adm := rfl
@[simp] theorem setIngress_call (s : State) (cn : Nat) (g : Ingress) : (setIngress s cn g).call = s.call := rfl
@[simp] theorem setIngress_cores (s : State) (cn : Nat) (g : Ingress) : (setIngress s cn g).cores = s.cores := rfl
@[simp] theorem setIngress_fetch (s : State) (cn : Nat) (g : Ingress) : (setIngress s cn g).fetch = s.fetch := rfl
@[simp] theorem setIngress_queue (s : State) (cn : Nat) (g : Ingress) : (setIngress s cn g).queue = s.queue := rfl
@[simp] theorem setIngress_egp (s : State) (cn : Nat) (g : Ingress) : (setIngress s cn g).egp = s.egp := rfl
@[simp] theorem setIngress_assay (s : State) (cn : Nat) (g : Ingress) : (setIngress s cn g).assay = s.assay := rfl
@[simp] theorem setIngress_merge (s : State) (cn : Nat) (g : Ingress) : (setIngress s cn g).merge = s.merge := rfl
@[simp] theorem setIngress_expert (s : State) (cn : Nat) (g : Ingress) : (setIngress s cn g).expert = s.expert := rfl
@[simp] theorem setIngress_weave (s : State) (cn : Nat) (g : Ingress) : (setIngress s cn g).weave = s.weave := rfl
@[simp] theorem setIngress_fab (s : State) (cn : Nat) (g : Ingress) : (setIngress s cn g).fab = s.fab := rfl
@[simp] theorem setIngress_fac (s : State) (cn : Nat) (g : Ingress) : (setIngress s cn g).fac = s.fac := rfl
@[simp] theorem setIngress_evt (s : State) (cn : Nat) (g : Ingress) : (setIngress s cn g).evt = s.evt := rfl
@[simp] theorem setIngress_pending (s : State) (cn : Nat) (g : Ingress) : (setIngress s cn g).pending = s.pending := rfl

/-! `setSess` changes `host` only. -/

@[simp] theorem setSess_io (s : State) (n : Nat) (x : Sess) : (setSess s n x).io = s.io := rfl
@[simp] theorem setSess_mem (s : State) (n : Nat) (x : Sess) : (setSess s n x).mem = s.mem := rfl
@[simp] theorem setSess_rst (s : State) (n : Nat) (x : Sess) : (setSess s n x).rst = s.rst := rfl
@[simp] theorem setSess_adm (s : State) (n : Nat) (x : Sess) : (setSess s n x).adm = s.adm := rfl
@[simp] theorem setSess_call (s : State) (n : Nat) (x : Sess) : (setSess s n x).call = s.call := rfl
@[simp] theorem setSess_cores (s : State) (n : Nat) (x : Sess) : (setSess s n x).cores = s.cores := rfl
@[simp] theorem setSess_fetch (s : State) (n : Nat) (x : Sess) : (setSess s n x).fetch = s.fetch := rfl
@[simp] theorem setSess_queue (s : State) (n : Nat) (x : Sess) : (setSess s n x).queue = s.queue := rfl
@[simp] theorem setSess_egp (s : State) (n : Nat) (x : Sess) : (setSess s n x).egp = s.egp := rfl
@[simp] theorem setSess_assay (s : State) (n : Nat) (x : Sess) : (setSess s n x).assay = s.assay := rfl
@[simp] theorem setSess_merge (s : State) (n : Nat) (x : Sess) : (setSess s n x).merge = s.merge := rfl
@[simp] theorem setSess_expert (s : State) (n : Nat) (x : Sess) : (setSess s n x).expert = s.expert := rfl
@[simp] theorem setSess_weave (s : State) (n : Nat) (x : Sess) : (setSess s n x).weave = s.weave := rfl
@[simp] theorem setSess_fab (s : State) (n : Nat) (x : Sess) : (setSess s n x).fab = s.fab := rfl
@[simp] theorem setSess_fac (s : State) (n : Nat) (x : Sess) : (setSess s n x).fac = s.fac := rfl
@[simp] theorem setSess_evt (s : State) (n : Nat) (x : Sess) : (setSess s n x).evt = s.evt := rfl
@[simp] theorem setSess_pending (s : State) (n : Nat) (x : Sess) : (setSess s n x).pending = s.pending := rfl

/-! `setInbox` changes `fab` only. -/

@[simp] theorem setInbox_io (s : State) (n : Nat) (x : Inbox) : (setInbox s n x).io = s.io := rfl
@[simp] theorem setInbox_mem (s : State) (n : Nat) (x : Inbox) : (setInbox s n x).mem = s.mem := rfl
@[simp] theorem setInbox_rst (s : State) (n : Nat) (x : Inbox) : (setInbox s n x).rst = s.rst := rfl
@[simp] theorem setInbox_adm (s : State) (n : Nat) (x : Inbox) : (setInbox s n x).adm = s.adm := rfl
@[simp] theorem setInbox_call (s : State) (n : Nat) (x : Inbox) : (setInbox s n x).call = s.call := rfl
@[simp] theorem setInbox_host (s : State) (n : Nat) (x : Inbox) : (setInbox s n x).host = s.host := rfl
@[simp] theorem setInbox_cores (s : State) (n : Nat) (x : Inbox) : (setInbox s n x).cores = s.cores := rfl
@[simp] theorem setInbox_fetch (s : State) (n : Nat) (x : Inbox) : (setInbox s n x).fetch = s.fetch := rfl
@[simp] theorem setInbox_queue (s : State) (n : Nat) (x : Inbox) : (setInbox s n x).queue = s.queue := rfl
@[simp] theorem setInbox_egp (s : State) (n : Nat) (x : Inbox) : (setInbox s n x).egp = s.egp := rfl
@[simp] theorem setInbox_assay (s : State) (n : Nat) (x : Inbox) : (setInbox s n x).assay = s.assay := rfl
@[simp] theorem setInbox_merge (s : State) (n : Nat) (x : Inbox) : (setInbox s n x).merge = s.merge := rfl
@[simp] theorem setInbox_expert (s : State) (n : Nat) (x : Inbox) : (setInbox s n x).expert = s.expert := rfl
@[simp] theorem setInbox_weave (s : State) (n : Nat) (x : Inbox) : (setInbox s n x).weave = s.weave := rfl
@[simp] theorem setInbox_fac (s : State) (n : Nat) (x : Inbox) : (setInbox s n x).fac = s.fac := rfl
@[simp] theorem setInbox_evt (s : State) (n : Nat) (x : Inbox) : (setInbox s n x).evt = s.evt := rfl
@[simp] theorem setInbox_pending (s : State) (n : Nat) (x : Inbox) : (setInbox s n x).pending = s.pending := rfl

/-! `setEvtQueue` changes `evt` only. -/

@[simp] theorem setEvtQueue_io (s : State) (q : Nat) (x : EvtQueue) : (setEvtQueue s q x).io = s.io := rfl
@[simp] theorem setEvtQueue_mem (s : State) (q : Nat) (x : EvtQueue) : (setEvtQueue s q x).mem = s.mem := rfl
@[simp] theorem setEvtQueue_rst (s : State) (q : Nat) (x : EvtQueue) : (setEvtQueue s q x).rst = s.rst := rfl
@[simp] theorem setEvtQueue_adm (s : State) (q : Nat) (x : EvtQueue) : (setEvtQueue s q x).adm = s.adm := rfl
@[simp] theorem setEvtQueue_call (s : State) (q : Nat) (x : EvtQueue) : (setEvtQueue s q x).call = s.call := rfl
@[simp] theorem setEvtQueue_host (s : State) (q : Nat) (x : EvtQueue) : (setEvtQueue s q x).host = s.host := rfl
@[simp] theorem setEvtQueue_cores (s : State) (q : Nat) (x : EvtQueue) : (setEvtQueue s q x).cores = s.cores := rfl
@[simp] theorem setEvtQueue_fetch (s : State) (q : Nat) (x : EvtQueue) : (setEvtQueue s q x).fetch = s.fetch := rfl
@[simp] theorem setEvtQueue_queue (s : State) (q : Nat) (x : EvtQueue) : (setEvtQueue s q x).queue = s.queue := rfl
@[simp] theorem setEvtQueue_egp (s : State) (q : Nat) (x : EvtQueue) : (setEvtQueue s q x).egp = s.egp := rfl
@[simp] theorem setEvtQueue_assay (s : State) (q : Nat) (x : EvtQueue) : (setEvtQueue s q x).assay = s.assay := rfl
@[simp] theorem setEvtQueue_merge (s : State) (q : Nat) (x : EvtQueue) : (setEvtQueue s q x).merge = s.merge := rfl
@[simp] theorem setEvtQueue_expert (s : State) (q : Nat) (x : EvtQueue) : (setEvtQueue s q x).expert = s.expert := rfl
@[simp] theorem setEvtQueue_weave (s : State) (q : Nat) (x : EvtQueue) : (setEvtQueue s q x).weave = s.weave := rfl
@[simp] theorem setEvtQueue_fab (s : State) (q : Nat) (x : EvtQueue) : (setEvtQueue s q x).fab = s.fab := rfl
@[simp] theorem setEvtQueue_fac (s : State) (q : Nat) (x : EvtQueue) : (setEvtQueue s q x).fac = s.fac := rfl
@[simp] theorem setEvtQueue_pending (s : State) (q : Nat) (x : EvtQueue) : (setEvtQueue s q x).pending = s.pending := rfl

/-! `setArr` changes `assay` only. -/

@[simp] theorem setArr_io (s : State) (r : Nat) (x : AssayRow) : (setArr s r x).io = s.io := rfl
@[simp] theorem setArr_mem (s : State) (r : Nat) (x : AssayRow) : (setArr s r x).mem = s.mem := rfl
@[simp] theorem setArr_rst (s : State) (r : Nat) (x : AssayRow) : (setArr s r x).rst = s.rst := rfl
@[simp] theorem setArr_adm (s : State) (r : Nat) (x : AssayRow) : (setArr s r x).adm = s.adm := rfl
@[simp] theorem setArr_call (s : State) (r : Nat) (x : AssayRow) : (setArr s r x).call = s.call := rfl
@[simp] theorem setArr_host (s : State) (r : Nat) (x : AssayRow) : (setArr s r x).host = s.host := rfl
@[simp] theorem setArr_cores (s : State) (r : Nat) (x : AssayRow) : (setArr s r x).cores = s.cores := rfl
@[simp] theorem setArr_fetch (s : State) (r : Nat) (x : AssayRow) : (setArr s r x).fetch = s.fetch := rfl
@[simp] theorem setArr_queue (s : State) (r : Nat) (x : AssayRow) : (setArr s r x).queue = s.queue := rfl
@[simp] theorem setArr_egp (s : State) (r : Nat) (x : AssayRow) : (setArr s r x).egp = s.egp := rfl
@[simp] theorem setArr_merge (s : State) (r : Nat) (x : AssayRow) : (setArr s r x).merge = s.merge := rfl
@[simp] theorem setArr_expert (s : State) (r : Nat) (x : AssayRow) : (setArr s r x).expert = s.expert := rfl
@[simp] theorem setArr_weave (s : State) (r : Nat) (x : AssayRow) : (setArr s r x).weave = s.weave := rfl
@[simp] theorem setArr_fab (s : State) (r : Nat) (x : AssayRow) : (setArr s r x).fab = s.fab := rfl
@[simp] theorem setArr_fac (s : State) (r : Nat) (x : AssayRow) : (setArr s r x).fac = s.fac := rfl
@[simp] theorem setArr_evt (s : State) (r : Nat) (x : AssayRow) : (setArr s r x).evt = s.evt := rfl
@[simp] theorem setArr_pending (s : State) (r : Nat) (x : AssayRow) : (setArr s r x).pending = s.pending := rfl

/-! `setShadow` changes `assay` only. -/

@[simp] theorem setShadow_io (s : State) (r : Nat) (x : AssayRow) : (setShadow s r x).io = s.io := rfl
@[simp] theorem setShadow_mem (s : State) (r : Nat) (x : AssayRow) : (setShadow s r x).mem = s.mem := rfl
@[simp] theorem setShadow_rst (s : State) (r : Nat) (x : AssayRow) : (setShadow s r x).rst = s.rst := rfl
@[simp] theorem setShadow_adm (s : State) (r : Nat) (x : AssayRow) : (setShadow s r x).adm = s.adm := rfl
@[simp] theorem setShadow_call (s : State) (r : Nat) (x : AssayRow) : (setShadow s r x).call = s.call := rfl
@[simp] theorem setShadow_host (s : State) (r : Nat) (x : AssayRow) : (setShadow s r x).host = s.host := rfl
@[simp] theorem setShadow_cores (s : State) (r : Nat) (x : AssayRow) : (setShadow s r x).cores = s.cores := rfl
@[simp] theorem setShadow_fetch (s : State) (r : Nat) (x : AssayRow) : (setShadow s r x).fetch = s.fetch := rfl
@[simp] theorem setShadow_queue (s : State) (r : Nat) (x : AssayRow) : (setShadow s r x).queue = s.queue := rfl
@[simp] theorem setShadow_egp (s : State) (r : Nat) (x : AssayRow) : (setShadow s r x).egp = s.egp := rfl
@[simp] theorem setShadow_merge (s : State) (r : Nat) (x : AssayRow) : (setShadow s r x).merge = s.merge := rfl
@[simp] theorem setShadow_expert (s : State) (r : Nat) (x : AssayRow) : (setShadow s r x).expert = s.expert := rfl
@[simp] theorem setShadow_weave (s : State) (r : Nat) (x : AssayRow) : (setShadow s r x).weave = s.weave := rfl
@[simp] theorem setShadow_fab (s : State) (r : Nat) (x : AssayRow) : (setShadow s r x).fab = s.fab := rfl
@[simp] theorem setShadow_fac (s : State) (r : Nat) (x : AssayRow) : (setShadow s r x).fac = s.fac := rfl
@[simp] theorem setShadow_evt (s : State) (r : Nat) (x : AssayRow) : (setShadow s r x).evt = s.evt := rfl
@[simp] theorem setShadow_pending (s : State) (r : Nat) (x : AssayRow) : (setShadow s r x).pending = s.pending := rfl

/-! `setAssayQueue` changes `assay` only. -/

@[simp] theorem setAssayQueue_io (s : State) (u : Nat) (q : List AssayReq) : (setAssayQueue s u q).io = s.io := rfl
@[simp] theorem setAssayQueue_mem (s : State) (u : Nat) (q : List AssayReq) : (setAssayQueue s u q).mem = s.mem := rfl
@[simp] theorem setAssayQueue_rst (s : State) (u : Nat) (q : List AssayReq) : (setAssayQueue s u q).rst = s.rst := rfl
@[simp] theorem setAssayQueue_adm (s : State) (u : Nat) (q : List AssayReq) : (setAssayQueue s u q).adm = s.adm := rfl
@[simp] theorem setAssayQueue_call (s : State) (u : Nat) (q : List AssayReq) : (setAssayQueue s u q).call = s.call := rfl
@[simp] theorem setAssayQueue_host (s : State) (u : Nat) (q : List AssayReq) : (setAssayQueue s u q).host = s.host := rfl
@[simp] theorem setAssayQueue_cores (s : State) (u : Nat) (q : List AssayReq) : (setAssayQueue s u q).cores = s.cores := rfl
@[simp] theorem setAssayQueue_fetch (s : State) (u : Nat) (q : List AssayReq) : (setAssayQueue s u q).fetch = s.fetch := rfl
@[simp] theorem setAssayQueue_queue (s : State) (u : Nat) (q : List AssayReq) : (setAssayQueue s u q).queue = s.queue := rfl
@[simp] theorem setAssayQueue_egp (s : State) (u : Nat) (q : List AssayReq) : (setAssayQueue s u q).egp = s.egp := rfl
@[simp] theorem setAssayQueue_merge (s : State) (u : Nat) (q : List AssayReq) : (setAssayQueue s u q).merge = s.merge := rfl
@[simp] theorem setAssayQueue_expert (s : State) (u : Nat) (q : List AssayReq) : (setAssayQueue s u q).expert = s.expert := rfl
@[simp] theorem setAssayQueue_weave (s : State) (u : Nat) (q : List AssayReq) : (setAssayQueue s u q).weave = s.weave := rfl
@[simp] theorem setAssayQueue_fab (s : State) (u : Nat) (q : List AssayReq) : (setAssayQueue s u q).fab = s.fab := rfl
@[simp] theorem setAssayQueue_fac (s : State) (u : Nat) (q : List AssayReq) : (setAssayQueue s u q).fac = s.fac := rfl
@[simp] theorem setAssayQueue_evt (s : State) (u : Nat) (q : List AssayReq) : (setAssayQueue s u q).evt = s.evt := rfl
@[simp] theorem setAssayQueue_pending (s : State) (u : Nat) (q : List AssayReq) : (setAssayQueue s u q).pending = s.pending := rfl

/-! `setTab` changes `egp` only. -/

@[simp] theorem setTab_io (s : State) (i : Nat) (o : Nat) (n : Nat) (v : Nat) : (setTab s i o n v).io = s.io := rfl
@[simp] theorem setTab_mem (s : State) (i : Nat) (o : Nat) (n : Nat) (v : Nat) : (setTab s i o n v).mem = s.mem := rfl
@[simp] theorem setTab_rst (s : State) (i : Nat) (o : Nat) (n : Nat) (v : Nat) : (setTab s i o n v).rst = s.rst := rfl
@[simp] theorem setTab_adm (s : State) (i : Nat) (o : Nat) (n : Nat) (v : Nat) : (setTab s i o n v).adm = s.adm := rfl
@[simp] theorem setTab_call (s : State) (i : Nat) (o : Nat) (n : Nat) (v : Nat) : (setTab s i o n v).call = s.call := rfl
@[simp] theorem setTab_host (s : State) (i : Nat) (o : Nat) (n : Nat) (v : Nat) : (setTab s i o n v).host = s.host := rfl
@[simp] theorem setTab_cores (s : State) (i : Nat) (o : Nat) (n : Nat) (v : Nat) : (setTab s i o n v).cores = s.cores := rfl
@[simp] theorem setTab_fetch (s : State) (i : Nat) (o : Nat) (n : Nat) (v : Nat) : (setTab s i o n v).fetch = s.fetch := rfl
@[simp] theorem setTab_queue (s : State) (i : Nat) (o : Nat) (n : Nat) (v : Nat) : (setTab s i o n v).queue = s.queue := rfl
@[simp] theorem setTab_assay (s : State) (i : Nat) (o : Nat) (n : Nat) (v : Nat) : (setTab s i o n v).assay = s.assay := rfl
@[simp] theorem setTab_merge (s : State) (i : Nat) (o : Nat) (n : Nat) (v : Nat) : (setTab s i o n v).merge = s.merge := rfl
@[simp] theorem setTab_expert (s : State) (i : Nat) (o : Nat) (n : Nat) (v : Nat) : (setTab s i o n v).expert = s.expert := rfl
@[simp] theorem setTab_weave (s : State) (i : Nat) (o : Nat) (n : Nat) (v : Nat) : (setTab s i o n v).weave = s.weave := rfl
@[simp] theorem setTab_fab (s : State) (i : Nat) (o : Nat) (n : Nat) (v : Nat) : (setTab s i o n v).fab = s.fab := rfl
@[simp] theorem setTab_fac (s : State) (i : Nat) (o : Nat) (n : Nat) (v : Nat) : (setTab s i o n v).fac = s.fac := rfl
@[simp] theorem setTab_evt (s : State) (i : Nat) (o : Nat) (n : Nat) (v : Nat) : (setTab s i o n v).evt = s.evt := rfl
@[simp] theorem setTab_pending (s : State) (i : Nat) (o : Nat) (n : Nat) (v : Nat) : (setTab s i o n v).pending = s.pending := rfl

/-! `setFence` changes `egp` only. -/

@[simp] theorem setFence_io (s : State) (f : Fence) : (setFence s f).io = s.io := rfl
@[simp] theorem setFence_mem (s : State) (f : Fence) : (setFence s f).mem = s.mem := rfl
@[simp] theorem setFence_rst (s : State) (f : Fence) : (setFence s f).rst = s.rst := rfl
@[simp] theorem setFence_adm (s : State) (f : Fence) : (setFence s f).adm = s.adm := rfl
@[simp] theorem setFence_call (s : State) (f : Fence) : (setFence s f).call = s.call := rfl
@[simp] theorem setFence_host (s : State) (f : Fence) : (setFence s f).host = s.host := rfl
@[simp] theorem setFence_cores (s : State) (f : Fence) : (setFence s f).cores = s.cores := rfl
@[simp] theorem setFence_fetch (s : State) (f : Fence) : (setFence s f).fetch = s.fetch := rfl
@[simp] theorem setFence_queue (s : State) (f : Fence) : (setFence s f).queue = s.queue := rfl
@[simp] theorem setFence_assay (s : State) (f : Fence) : (setFence s f).assay = s.assay := rfl
@[simp] theorem setFence_merge (s : State) (f : Fence) : (setFence s f).merge = s.merge := rfl
@[simp] theorem setFence_expert (s : State) (f : Fence) : (setFence s f).expert = s.expert := rfl
@[simp] theorem setFence_weave (s : State) (f : Fence) : (setFence s f).weave = s.weave := rfl
@[simp] theorem setFence_fab (s : State) (f : Fence) : (setFence s f).fab = s.fab := rfl
@[simp] theorem setFence_fac (s : State) (f : Fence) : (setFence s f).fac = s.fac := rfl
@[simp] theorem setFence_evt (s : State) (f : Fence) : (setFence s f).evt = s.evt := rfl
@[simp] theorem setFence_pending (s : State) (f : Fence) : (setFence s f).pending = s.pending := rfl

/-! `setWeaver` changes `weave` only. -/

@[simp] theorem setWeaver_io (s : State) (u : Nat) (w : WeaverSt) : (setWeaver s u w).io = s.io := rfl
@[simp] theorem setWeaver_mem (s : State) (u : Nat) (w : WeaverSt) : (setWeaver s u w).mem = s.mem := rfl
@[simp] theorem setWeaver_rst (s : State) (u : Nat) (w : WeaverSt) : (setWeaver s u w).rst = s.rst := rfl
@[simp] theorem setWeaver_adm (s : State) (u : Nat) (w : WeaverSt) : (setWeaver s u w).adm = s.adm := rfl
@[simp] theorem setWeaver_call (s : State) (u : Nat) (w : WeaverSt) : (setWeaver s u w).call = s.call := rfl
@[simp] theorem setWeaver_host (s : State) (u : Nat) (w : WeaverSt) : (setWeaver s u w).host = s.host := rfl
@[simp] theorem setWeaver_cores (s : State) (u : Nat) (w : WeaverSt) : (setWeaver s u w).cores = s.cores := rfl
@[simp] theorem setWeaver_fetch (s : State) (u : Nat) (w : WeaverSt) : (setWeaver s u w).fetch = s.fetch := rfl
@[simp] theorem setWeaver_queue (s : State) (u : Nat) (w : WeaverSt) : (setWeaver s u w).queue = s.queue := rfl
@[simp] theorem setWeaver_egp (s : State) (u : Nat) (w : WeaverSt) : (setWeaver s u w).egp = s.egp := rfl
@[simp] theorem setWeaver_assay (s : State) (u : Nat) (w : WeaverSt) : (setWeaver s u w).assay = s.assay := rfl
@[simp] theorem setWeaver_merge (s : State) (u : Nat) (w : WeaverSt) : (setWeaver s u w).merge = s.merge := rfl
@[simp] theorem setWeaver_expert (s : State) (u : Nat) (w : WeaverSt) : (setWeaver s u w).expert = s.expert := rfl
@[simp] theorem setWeaver_fab (s : State) (u : Nat) (w : WeaverSt) : (setWeaver s u w).fab = s.fab := rfl
@[simp] theorem setWeaver_fac (s : State) (u : Nat) (w : WeaverSt) : (setWeaver s u w).fac = s.fac := rfl
@[simp] theorem setWeaver_evt (s : State) (u : Nat) (w : WeaverSt) : (setWeaver s u w).evt = s.evt := rfl
@[simp] theorem setWeaver_pending (s : State) (u : Nat) (w : WeaverSt) : (setWeaver s u w).pending = s.pending := rfl

/-! `State.setLink` changes `fab` only. -/

@[simp] theorem setLink_io (s : State) (l : Nat) (x : LinkSt) : (State.setLink s l x).io = s.io := rfl
@[simp] theorem setLink_mem (s : State) (l : Nat) (x : LinkSt) : (State.setLink s l x).mem = s.mem := rfl
@[simp] theorem setLink_rst (s : State) (l : Nat) (x : LinkSt) : (State.setLink s l x).rst = s.rst := rfl
@[simp] theorem setLink_adm (s : State) (l : Nat) (x : LinkSt) : (State.setLink s l x).adm = s.adm := rfl
@[simp] theorem setLink_call (s : State) (l : Nat) (x : LinkSt) : (State.setLink s l x).call = s.call := rfl
@[simp] theorem setLink_host (s : State) (l : Nat) (x : LinkSt) : (State.setLink s l x).host = s.host := rfl
@[simp] theorem setLink_cores (s : State) (l : Nat) (x : LinkSt) : (State.setLink s l x).cores = s.cores := rfl
@[simp] theorem setLink_fetch (s : State) (l : Nat) (x : LinkSt) : (State.setLink s l x).fetch = s.fetch := rfl
@[simp] theorem setLink_queue (s : State) (l : Nat) (x : LinkSt) : (State.setLink s l x).queue = s.queue := rfl
@[simp] theorem setLink_egp (s : State) (l : Nat) (x : LinkSt) : (State.setLink s l x).egp = s.egp := rfl
@[simp] theorem setLink_assay (s : State) (l : Nat) (x : LinkSt) : (State.setLink s l x).assay = s.assay := rfl
@[simp] theorem setLink_merge (s : State) (l : Nat) (x : LinkSt) : (State.setLink s l x).merge = s.merge := rfl
@[simp] theorem setLink_expert (s : State) (l : Nat) (x : LinkSt) : (State.setLink s l x).expert = s.expert := rfl
@[simp] theorem setLink_weave (s : State) (l : Nat) (x : LinkSt) : (State.setLink s l x).weave = s.weave := rfl
@[simp] theorem setLink_fac (s : State) (l : Nat) (x : LinkSt) : (State.setLink s l x).fac = s.fac := rfl
@[simp] theorem setLink_evt (s : State) (l : Nat) (x : LinkSt) : (State.setLink s l x).evt = s.evt := rfl
@[simp] theorem setLink_pending (s : State) (l : Nat) (x : LinkSt) : (State.setLink s l x).pending = s.pending := rfl

/-! `setColl` changes `fab` only. -/

@[simp] theorem setColl_io (s : State) (c : Coll) : (setColl s c).io = s.io := rfl
@[simp] theorem setColl_mem (s : State) (c : Coll) : (setColl s c).mem = s.mem := rfl
@[simp] theorem setColl_rst (s : State) (c : Coll) : (setColl s c).rst = s.rst := rfl
@[simp] theorem setColl_adm (s : State) (c : Coll) : (setColl s c).adm = s.adm := rfl
@[simp] theorem setColl_call (s : State) (c : Coll) : (setColl s c).call = s.call := rfl
@[simp] theorem setColl_host (s : State) (c : Coll) : (setColl s c).host = s.host := rfl
@[simp] theorem setColl_cores (s : State) (c : Coll) : (setColl s c).cores = s.cores := rfl
@[simp] theorem setColl_fetch (s : State) (c : Coll) : (setColl s c).fetch = s.fetch := rfl
@[simp] theorem setColl_queue (s : State) (c : Coll) : (setColl s c).queue = s.queue := rfl
@[simp] theorem setColl_egp (s : State) (c : Coll) : (setColl s c).egp = s.egp := rfl
@[simp] theorem setColl_assay (s : State) (c : Coll) : (setColl s c).assay = s.assay := rfl
@[simp] theorem setColl_merge (s : State) (c : Coll) : (setColl s c).merge = s.merge := rfl
@[simp] theorem setColl_expert (s : State) (c : Coll) : (setColl s c).expert = s.expert := rfl
@[simp] theorem setColl_weave (s : State) (c : Coll) : (setColl s c).weave = s.weave := rfl
@[simp] theorem setColl_fac (s : State) (c : Coll) : (setColl s c).fac = s.fac := rfl
@[simp] theorem setColl_evt (s : State) (c : Coll) : (setColl s c).evt = s.evt := rfl
@[simp] theorem setColl_pending (s : State) (c : Coll) : (setColl s c).pending = s.pending := rfl

/-! Reading after an update. -/

@[simp] theorem mapIo_io (s : State) (f : Io → Io) : (s.mapIo f).io = f s.io := rfl
@[simp] theorem withIo_io (s : State) (x : Io) : (s.withIo x).io = x := rfl
@[simp] theorem setCore_cores (s : State) (n : Nat) (c : CoreSt) : (s.setCore n c).cores = smPut {} n c s.cores := rfl
@[simp] theorem core_mapIo (s : State) (f : Io → Io) (n : Nat) : (s.mapIo f).core n = s.core n := rfl
theorem core_of_cores {s t : State} (h : t.cores = s.cores) (n : Nat) : t.core n = s.core n := by simp [State.core, h]
theorem core_setCore (s : State) (n m : Nat) (c : CoreSt) : (s.setCore n c).core m = if m = n then c else s.core m := by
  simp only [State.core, State.setCore]; exact smGet_smPut _ _ _ _ _
@[simp] theorem core_setCore_self (s : State) (n : Nat) (c : CoreSt) : (s.setCore n c).core n = c := by simp [core_setCore]
theorem core_setCore_ne (s : State) {n m : Nat} (c : CoreSt) (h : m ≠ n) : (s.setCore n c).core m = s.core m := by simp [core_setCore, h]
theorem strm_setStrm (s : State) (n k m j : Nat) (x : Strm) : (s.setStrm n k x).strm m j = if m = n ∧ j = k then x else s.strm m j := by
  simp only [State.strm, State.setStrm, core_setCore]
  by_cases h : m = n
  · subst h; simp [smGet_smPut]
  · simp [h]
theorem caller_setCaller (s : State) (d e : Nat) (c : CallerSt) : (s.setCaller d c).caller e = if e = d then c else s.caller e := by
  simp only [State.caller, State.setCaller]; exact smGet_smPut _ _ _ _ _
@[simp] theorem caller_setCaller_self (s : State) (d : Nat) (c : CallerSt) : (s.setCaller d c).caller d = c := by simp [caller_setCaller]
@[simp] theorem ctx_setCtx_self (s : State) (c : Ctx) : (s.setCtx c).ctx? c.cn = some c := smFind_smInsert_self _ _ _
theorem ctx_setCtx_ne (s : State) (c : Ctx) {n : Nat} (h : n ≠ c.cn) : (s.setCtx c).ctx? n = s.ctx? n := smFind_smInsert_ne _ _ h
@[simp] theorem ring_setRing_self (s : State) (k : Nat) (r : Ring) : (s.setRing k r).ring? k = some r := smFind_smInsert_self _ _ _
theorem ring_setRing_ne (s : State) {k j : Nat} (r : Ring) (h : j ≠ k) : (s.setRing k r).ring? j = s.ring? j := smFind_smInsert_ne _ _ h
theorem link_setLink (s : State) (l m : Nat) (x : LinkSt) : (s.setLink l x).link m = if m = l then x else s.link m := by
  simp only [State.link, State.setLink]; exact smGet_smPut _ _ _ _ _

end Sys2Proof.Machine
end

