-- ==== Sys2Proof/Laws/Core.lean ====
section
/-! SUPPORT. What the issue of an instruction does, once for every instruction: the counters of its core, its next PC, and
nothing else but what its meaning says (R124, R146, R148). -/

namespace Sys2Proof.Machine

theorem bCore_valid {n : Nat} (h : n < 96) : (bCore n).valid = true := by
  have : instances BlockKind.fcore = 96 := by decide
  simp [Block.valid, bCore, this, h]

theorem bCarter_valid {n : Nat} (h : n < 96) : (bCarter n).valid = true := by
  have : instances BlockKind.carter = 96 := by decide
  simp [Block.valid, bCarter, this, h]

theorem coreOnly_refl (s : State) (n : Nat) : CoreOnly s s n (s.core n) :=
  ⟨rfl, fun _ _ => rfl, Io.onlyRegs_refl _ _, rfl⟩

/-- A change of one core and of its counters, then another. -/
theorem CoreOnly.trans {s t u : State} {n : Nat} {c d : CoreSt} (h : CoreOnly s t n c) (k : CoreOnly t u n d) : CoreOnly s u n d := by
  refine ⟨k.1, fun m hm => (k.2.1 m hm).trans (h.2.1 m hm), h.2.2.1.trans k.2.2.1, ?_⟩
  rw [k.2.2.2, h.2.2.2]

theorem coreOnly_setCore (s : State) (n : Nat) (c : CoreSt) : CoreOnly s (s.setCore n c) n c :=
  ⟨core_setCore_self s n c, fun _ hm => core_setCore_ne s c hm, Io.onlyRegs_refl _ _, rfl⟩

/-- Counting on a core's own pages. -/
theorem coreOnly_mapIo (s : State) (n : Nat) {f : Io → Io} (h : Io.OnlyRegs [bCarter n, bCore n] s.io (f s.io)) :
    CoreOnly s (s.mapIo f) n (s.core n) := ⟨rfl, fun _ _ => rfl, h, rfl⟩

theorem coreOnly_countIssue (s : State) {n : Nat} (hn : n < 96) (k : Nat) : CoreOnly s (countIssue s n k) n (s.core n) := by
  refine coreOnly_mapIo s n ?_
  have hv := bCarter_valid hn
  have hp : 4096 * (catRow (bCarter n).kind).pages = 4096 := by simp [bCarter, catRow, catalogue]
  refine Io.OnlyRegs.mono (bs := [bCarter n]) ?_ (by simp)
  dsimp only
  refine Io.OnlyRegs.trans ?_ (Io.onlyRegs_count64 _ hv (by rw [hp]; decide) _)
  split
  · exact Io.onlyRegs_count64 _ hv (by rw [hp]; decide) _
  · exact (Io.onlyRegs_count64 _ hv (by rw [hp]; decide) _).trans (Io.onlyRegs_count64 _ hv (by rw [hp]; decide) _)

/-- The counters of an issue. -/
def issued (n : Nat) (ctr : Option Nat) (s : State) : State :=
  let s := countIssue s n 0
  match ctr with
  | some o => s.mapIo (fun io => io.count64 (bCore n) o 1)
  | none => s

theorem coreOnly_issued (s : State) {n : Nat} (hn : n < 96) {ctr : Option Nat} (hc : ∀ o ∈ ctr, o + 4 < 4096) :
    CoreOnly s (issued n ctr s) n (s.core n) := by
  unfold issued
  cases ctr with
  | none => exact coreOnly_countIssue s hn 0
  | some o =>
    refine (coreOnly_countIssue s hn 0).trans ?_
    refine coreOnly_mapIo _ n ?_
    have hp : 4096 * (catRow (bCore n).kind).pages = 4096 := by simp [bCore, catRow, catalogue]
    exact (Io.onlyRegs_count64 _ (bCore_valid hn) (by rw [hp]; exact hc o rfl) _).mono (by simp)

theorem notePoison_none {s : State} {n : Nat} (h : (s.core n).poisonAt = none) : notePoison s n = s := by
  simp [notePoison, h]

/-- The order of the exception checks: the first that holds is raised (R183). -/
theorem guardExc_nil (k : Ran) : guardExc [] k = k := rfl
theorem guardExc_false (c : Nat) (l : List (Bool × Nat)) (k : Ran) : guardExc ((false, c) :: l) k = guardExc l k := rfl
theorem guardExc_true (c : Nat) (l : List (Bool × Nat)) (k : Ran) : guardExc ((true, c) :: l) k = .exc c := rfl

/-- An instruction that completes: its core is what its meaning leaves, with PC moved on. -/
theorem runIns_done {s s' : State} {n : Nat} {i : Ins} {mine : Ins → Bool} {ctr : Option Nat} {f : State → Ins → Ran} {c : CoreSt}
    (h : Issues s n i) (hm : mine i = true) (hctr : ∀ o ∈ ctr, o + 4 < 4096) (hf : f s i = .done s') (hs : CoreOnly s s' n c)
    (hp : c.poisonAt = none) (hr : c.run = (s.core n).run) (hpc : c.pc = (s.core n).pc) :
    CoreOnly s (runIns s n mine ctr f) n { c with pc := (s.core n).pc + 8 } := by
  obtain ⟨hn, h1, h2, h3, h4, -⟩ := h
  have hc := hs.1
  have hrun : c.runs = true := by rw [CoreSt.runs, hr]; exact h1
  have hnp : notePoison s' n = s' := notePoison_none (by rw [hc]; exact hp)
  have key : runIns s n mine ctr f = issued n ctr (s'.setCore n { c with pc := (s.core n).pc + 8 }) := by
    simp only [runIns, h1, h2, h3, h4, hm, hf, hnp, hc, hrun, hpc, issued]
    simp
    try rfl
  rw [key]
  have := coreOnly_issued (s'.setCore n { c with pc := (s.core n).pc + 8 }) hn hctr
  rw [core_setCore_self] at this
  exact (hs.trans (coreOnly_setCore s' n _)).trans this

/-- An instruction that jumps. -/
theorem runIns_jump {s s' : State} {n : Nat} {i : Ins} {mine : Ins → Bool} {ctr : Option Nat} {f : State → Ins → Ran} {c : CoreSt} {pc : Nat}
    (h : Issues s n i) (hm : mine i = true) (hctr : ∀ o ∈ ctr, o + 4 < 4096) (hf : f s i = .jump s' pc) (hs : CoreOnly s s' n c)
    (hp : c.poisonAt = none) :
    CoreOnly s (runIns s n mine ctr f) n { c with pc := pc } := by
  obtain ⟨hn, h1, h2, h3, h4, -⟩ := h
  have hc := hs.1
  have hnp : notePoison s' n = s' := notePoison_none (by rw [hc]; exact hp)
  have key : runIns s n mine ctr f = issued n ctr (s'.setCore n { c with pc := pc }) := by
    simp only [runIns, h1, h2, h3, h4, hm, hf, hnp, hc, issued]
    simp
    try rfl
  rw [key]
  have := coreOnly_issued (s'.setCore n { c with pc := pc }) hn hctr
  rw [core_setCore_self] at this
  exact (hs.trans (coreOnly_setCore s' n _)).trans this

/-- An instruction that raises a core exception. -/
theorem runIns_exc {s : State} {n : Nat} {i : Ins} {mine : Ins → Bool} {ctr : Option Nat} {f : State → Ins → Ran} {code : Nat}
    (h : Issues s n i) (hm : mine i = true) (hf : f s i = .exc code) : runIns s n mine ctr f = raiseExc s n code := by
  obtain ⟨_, h1, h2, h3, h4, -⟩ := h
  simp [runIns, h1, h2, h3, h4, hm, hf]

end Sys2Proof.Machine
end

