-- ==== Sys2Proof/Laws/Kept.lean ====
section
/-! SUPPORT. Frames: what commands other than resets, power and life-cycle changes leave as it is. The lemmas `kept_<name>` of the
files KeptMachine to KeptOps say of each operation that it keeps this; those of Steady that the rest keeps coherence. -/

namespace Sys2Proof.Machine

set_option linter.unusedSimpArgs false
set_option linter.unnecessarySeqFocus false
set_option linter.unreachableTactic false
set_option linter.unusedTactic false

/-- What the Factor never loses: the fuses, the life-cycle state and whether a wipe is owed (R487 to R493). -/
def FactorSt.burnt (f : FactorSt) : Fuses × Nat × Bool := (f.fuses, f.lc, f.wipePending)
theorem burnt_mk (x0 x1 x2 x3 x4 x5 x6 x7 x8 x9 x10 x11 x12 x13 x14 x15 x16 x17 x18 x19 x20 x21 x22 x23 x24 x25 x26 x27 x28 x29)
    : FactorSt.burnt ⟨x0, x1, x2, x3, x4, x5, x6, x7, x8, x9, x10, x11, x12, x13, x14, x15, x16, x17, x18, x19, x20, x21, x22, x23, x24,
    x25, x26, x27, x28, x29⟩ = (x0, x15, x7) := rfl
theorem burnt_fold (f : FactorSt) : (f.fuses, f.lc, f.wipePending) = f.burnt := rfl

/-- What most operations leave as it is: the waiting commands, the fuses and life-cycle state, and the supplies, power and
resets. -/
def State.kept (s : State) : List Instr × (Fuses × Nat × Bool) × RstSt := (s.pending, s.fac.burnt, s.rst)
theorem kept_mk (a b c d e f g h i j k l m n o p q r) : State.kept ⟨a,b,c,d,e,f,g,h,i,j,k,l,m,n,o,p,q,r⟩ = (r, p.burnt, c) := rfl
theorem kept_fold (s : State) : (s.pending, s.fac.burnt, s.rst) = s.kept := rfl
theorem foldl_view {α β γ : Type} (v : β → γ) (f : β → α → β) (h : ∀ b x, v (f b x) = v b) (l : List α) (b : β) :
    v (l.foldl f b) = v b := by
  induction l generalizing b with
  | nil => rfl
  | cons x l ih => rw [List.foldl_cons, ih, h]
theorem kept_ite {c : Prop} [Decidable c] (s t : State) : (if c then s else t).kept = if c then s.kept else t.kept := by split <;> rfl
theorem kept_ite1 {α : Type} {c : Prop} [Decidable c] (s t : State × α)
    : (if c then s else t).1.kept = if c then s.1.kept else t.1.kept := by split <;> rfl
theorem kept_ite2 {α : Type} {c : Prop} [Decidable c] (s t : α × State)
    : (if c then s else t).2.kept = if c then s.2.kept else t.2.kept := by split <;> rfl
theorem kept_iteO {c : Prop} [Decidable c] (s t : OpRun)
    : (if c then s else t).s.kept = if c then s.s.kept else t.s.kept := by split <;> rfl
theorem kept_iteO1 {α : Type} {c : Prop} [Decidable c] (s t : OpRun × α)
    : (if c then s else t).1.s.kept = if c then s.1.s.kept else t.1.s.kept := by split <;> rfl
theorem kept_iteW {c : Prop} [Decidable c] (s t : WinRun)
    : (if c then s else t).s.kept = if c then s.s.kept else t.s.kept := by split <;> rfl
theorem kept_foldl {α : Type} (f : State → α → State) (h : ∀ s x, (f s x).kept = s.kept) (l : List α) (s : State) :
    (l.foldl f s).kept = s.kept := foldl_view State.kept f h l s
theorem kept_foldl1 {α β : Type} (f : State × β → α → State × β) (h : ∀ s x, (f s x).1.kept = s.1.kept) (l : List α) (s : State × β) :
    (l.foldl f s).1.kept = s.1.kept := foldl_view (fun p => State.kept p.1) f h l s
theorem kept_foldlO {α : Type} (f : OpRun → α → OpRun) (h : ∀ s x, (f s x).s.kept = s.s.kept) (l : List α) (s : OpRun) :
    (l.foldl f s).s.kept = s.s.kept := foldl_view (fun p => State.kept p.s) f h l s
theorem kept_foldlO1 {α β : Type} (f : OpRun × β → α → OpRun × β) (h : ∀ s x, (f s x).1.s.kept = s.1.s.kept) (l : List α) (s : OpRun × β) :
    (l.foldl f s).1.s.kept = s.1.s.kept := foldl_view (fun p => State.kept p.1.s) f h l s
theorem kept_foldlW {α : Type} (f : WinRun → α → WinRun) (h : ∀ s x, (f s x).s.kept = s.s.kept) (l : List α) (s : WinRun) :
    (l.foldl f s).s.kept = s.s.kept := foldl_view (fun p => State.kept p.s) f h l s
theorem kept_of_fst {α : Type} {p : State × α} {t a} (h : p = (t, a)) : t.kept = p.1.kept := by rw [h]
theorem kept_of_snd {α : Type} {p : α × State} {t a} (h : p = (a, t)) : t.kept = p.2.kept := by rw [h]
theorem kept_of_run {α : Type} {p : OpRun × α} {t a} (h : p = (t, a)) : t.s.kept = p.1.s.kept := by rw [h]
theorem kept_iteC {c : Prop} [Decidable c] (s t : ChainAt)
    : (if c then s else t).r.s.kept = if c then s.r.s.kept else t.r.s.kept := by split <;> rfl
theorem kept_iteT {c : Prop} [Decidable c] (s t : TokRow)
    : (if c then s else t).r.s.kept = if c then s.r.s.kept else t.r.s.kept := by split <;> rfl
theorem kept_iteP {c : Prop} [Decidable c] (s t : ProbeRes)
    : (if c then s else t).r.s.kept = if c then s.r.s.kept else t.r.s.kept := by split <;> rfl
theorem startPage_burnt (f : FactorSt) : (startPage f).burnt = f.burnt := by
  unfold startPage
  extract_lets n
  clear_value n
  split
  · rfl
  · rw [burnt_mk, burnt_fold]
theorem factorWiped_burnt (f : FactorSt) : (factorWiped f).burnt = f.burnt := rfl
theorem burnt_ite {c : Prop} [Decidable c] (f g : FactorSt)
    : (if c then f else g).burnt = if c then f.burnt else g.burnt := by split <;> rfl

/-- The state that an instruction leaves, unless it takes an exception. -/
def Ran.state : Ran → Option State
  | .done t | .jump t _ | .stall t _ _ => some t
  | .exc _ => none

/-- An instruction keeps `State.kept`. -/
def Ran.Keeps (s : State) (r : Ran) : Prop := ∀ t, r.state = some t → t.kept = s.kept
theorem ran_some {s t : State} : (∀ u, some t = some u → u.kept = s.kept) ↔ t.kept = s.kept :=
  ⟨fun h => h t rfl, fun h u e => by cases e; exact h⟩
theorem ran_done {s t} : Ran.Keeps s (.done t) ↔ t.kept = s.kept := ran_some
theorem ran_jump {s t a} : Ran.Keeps s (.jump t a) ↔ t.kept = s.kept := ran_some
theorem ran_stall {s t a b} : Ran.Keeps s (.stall t a b) ↔ t.kept = s.kept := ran_some
theorem ran_exc {s a} : Ran.Keeps s (.exc a) := fun _ h => nomatch h
theorem ran_ite {c : Prop} [Decidable c] {s a b}
    : Ran.Keeps s (if c then a else b) ↔ if c then Ran.Keeps s a else Ran.Keeps s b := by split <;> rfl
theorem ran_guard {s l k} (h : Ran.Keeps s k) : Ran.Keeps s (guardExc l k) := by
  unfold guardExc; split
  · exact ran_exc
  · exact h
theorem ran_conflict {s n c k} (h : Ran.Keeps s k) : Ran.Keeps s (withConflict n c k) := by
  unfold withConflict
  split
  · split
    · exact h
    · exact ran_done.2 ((ran_done (t := ‹State›)).1 h)
  · exact h
theorem ran_mx {s c a k} (h : Ran.Keeps s k) : Ran.Keeps s (mxRun s c a k) := by
  unfold mxRun; split
  · exact ran_stall.2 rfl
  · exact h
theorem ran_trans {s t : State} {r : Ran} (h : Ran.Keeps t r) (e : t.kept = s.kept) : Ran.Keeps s r := fun u hu => (h u hu).trans e

/-- A command answers a next state and keeps `State.kept`. -/
def OutKeeps (s : State) (o : Host.Outcome State Fault Refusal) : Prop := ∃ t, o = .next t ∧ t.kept = s.kept
theorem out_next {s t} : OutKeeps s (.next t) ↔ t.kept = s.kept := by
  constructor
  · rintro ⟨u, e, h⟩; cases e; exact h
  · exact fun h => ⟨t, rfl, h⟩
theorem out_ite {c : Prop} [Decidable c] {s a b}
    : OutKeeps s (if c then a else b) ↔ if c then OutKeeps s a else OutKeeps s b := by split <;> rfl

end Sys2Proof.Machine
end

