-- ==== Sys2Proof/Laws/KeptMachine.lean ====
section
/-! SUPPORT. Frames of memory, completions, fetching, the Callers, the fabric engine and the event emission: each keeps `State.kept`. -/

namespace Sys2Proof.Machine

set_option linter.unusedSimpArgs false
set_option linter.unnecessarySeqFocus false
set_option linter.unreachableTactic false
set_option linter.unusedTactic false

theorem kept_State_mapIo (s : State) (f : Io → Io) : (State.mapIo s f).kept = s.kept := Eq.trans rfl rfl
theorem kept_moveRefused (s : State) (code : Nat) : (moveRefused s code).kept = s.kept := Eq.trans rfl rfl
theorem kept_moveCmd (s : State) (promote : Bool) : (moveCmd s promote).kept = s.kept := by
  simp only [moveCmd, ↓kept_mk, ↓kept_fold, ↓kept_ite, ite_self, ↓kept_moveRefused]
theorem kept_State_dwrite (s : State) (a : Nat) (bs : List Byte) (p : optParam Bool false)
    : (State.dwrite s a bs p).kept = s.kept := Eq.trans rfl rfl
theorem kept_markGroups (s : State) (b : Block) (errs : List Nat) : (markGroups s b errs).kept = s.kept := by
  unfold markGroups
  split <;> simp only [↓kept_mk, ↓kept_fold, ↓kept_ite, ite_self]
theorem kept_uncorrectable (s : State) (b : Block) (a : Nat) : (uncorrectable s b a).kept = s.kept := Eq.trans rfl rfl
theorem kept_readLine (s : State) (b : Block) (a : Nat) (errs : List Nat) (checkPoisoned : Bool)
    : (readLine s b a errs checkPoisoned).kept = s.kept := by
  simp only [readLine, ↓kept_mk, ↓kept_fold, ↓kept_ite, ite_self, ↓kept_markGroups, ↓kept_uncorrectable]
theorem kept_execMemoryRead (b : Block) (addr : Nat) (errs : List Nat) (checkPoisoned : Bool) (s : State)
    : OutKeeps s (execMemoryRead b addr errs checkPoisoned s) := by
  simp only [execMemoryRead, ↓kept_mk, ↓kept_fold, ite_self, ↓kept_readLine, ↓out_next, ↓out_ite]
theorem kept_execMemoryWrite (addr : Nat) (data : List Byte) (poison : Bool) (s : State)
    : OutKeeps s (execMemoryWrite addr data poison s) := by
  unfold execMemoryWrite
  split <;> simp only [↓kept_mk, ↓kept_fold, ↓out_next]
theorem kept_execPromote (who : Requester) (s : State) : OutKeeps s (execPromote who s) := by
  unfold execPromote
  split <;> simp only [↓kept_mk, ↓kept_fold, ↓kept_moveCmd, ↓out_next]
theorem kept_execMemScrub (b : Block) (errs : List Nat) (s : State) : OutKeeps s (execMemScrub b errs s) := by
  simp only [execMemScrub, ↓kept_mk, ↓kept_fold, ↓kept_ite, ite_self, ↓kept_readLine, ↓out_next, ↓out_ite]
theorem kept_execDemote (who : Requester) (s : State) : OutKeeps s (execDemote who s) := by
  unfold execDemote
  split <;> simp only [↓kept_mk, ↓kept_fold, ↓kept_moveCmd, ↓out_next]
theorem kept_execMoveCopy (page : Nat) (s : State) : OutKeeps s (execMoveCopy page s) := by
  simp only [execMoveCopy, ↓kept_mk, ↓kept_fold, ↓out_next]
theorem kept_execMigrEpoch (s : State) : OutKeeps s (execMigrEpoch s) := by
  simp only [execMigrEpoch, ↓kept_mk, ↓kept_fold, ite_self, ↓out_next, ↓out_ite]
theorem kept_hostWrite (s : State) (a : Nat) (bs : List Byte) : (hostWrite s a bs).kept = s.kept := by
  simp only [hostWrite, ↓kept_mk, ↓kept_fold, ↓kept_ite, ite_self]
theorem kept_ringStore (s : State) (bar2 : Bool) (a : Nat) (bs : List Byte) : (ringStore s bar2 a bs).kept = s.kept := by
  simp only [ringStore, ↓kept_mk, ↓kept_fold, ↓kept_ite, ite_self, ↓kept_hostWrite]
theorem kept_State_setRing (s : State) (k : Nat) (r : Ring) : (State.setRing s k r).kept = s.kept := Eq.trans rfl rfl
theorem kept_msixNow (s : State) (v : Nat) : (msixNow s v).kept = s.kept := by
  simp only [msixNow, ↓kept_mk, ↓kept_fold, ↓kept_ite, ite_self]
theorem kept_fireVector (s : State) (v : Nat) : (fireVector s v).kept = s.kept := by
  simp only [fireVector, ↓kept_mk, ↓kept_fold, ↓kept_ite, ite_self, ↓kept_msixNow]
theorem kept_signalRing (s : State) (k : Nat) : (signalRing s k).kept = s.kept := by
  unfold signalRing
  split <;> simp only [↓kept_ite, ite_self, ↓kept_fireVector, ↓kept_State_setRing]
theorem kept_writeRecord (s : State) (k : Nat) (bs : List Byte) (sig : Bool) : (writeRecord s k bs sig).kept = s.kept := by
  unfold writeRecord
  split <;> simp only [↓kept_ite, ite_self, ↓kept_ringStore, ↓kept_State_setRing, ↓kept_signalRing]
theorem kept_postRecord (s : State) (k : Nat) (bs : List Byte) (sig : Bool) : (postRecord s k bs sig).kept = s.kept := by
  unfold postRecord
  split <;> simp only [↓kept_ite, ite_self, ↓kept_writeRecord, ↓kept_State_setRing]
theorem kept_finish (s : State) (c : Cmd) (status : Nat) (result : optParam (List Byte) []) (info : optParam Nat 0)
    : (finish s c status result info).kept = s.kept := by
  simp only [finish, ↓kept_mk, ↓kept_fold, ↓kept_ite, ite_self, ↓kept_postRecord]
theorem kept_refuse (s : State) (c : Cmd) (status : Nat) (info : optParam Nat 0) : (refuse s c status info).kept = s.kept := by
  simp only [refuse, ↓kept_finish]
theorem kept_State_setCtx (s : State) (c : Ctx) : (State.setCtx s c).kept = s.kept := Eq.trans rfl rfl
theorem kept_State_setCaller (s : State) (d : Nat) (c : CallerSt) : (State.setCaller s d c).kept = s.kept := Eq.trans rfl rfl
theorem kept_drainRing (s : State) (k : Nat) (x2 : Nat) : (drainRing s k x2).kept = s.kept := by
  induction x2 generalizing s k with
  | zero => rfl
  | succ fuel ih =>
    rw [drainRing]
    try simp only [↓kept_writeRecord, ↓kept_State_setRing, ↓ih]
    all_goals repeat' (first | (split <;> try simp only [↓kept_writeRecord, ↓kept_State_setRing, ↓ih]))
theorem kept_State_touchCtx (s : State) (slot : Nat) : (State.touchCtx s slot).kept = s.kept := by
  unfold State.touchCtx
  split <;> simp only [↓kept_State_setCtx]
theorem kept_State_withIo (s : State) (io : Io) : (State.withIo s io).kept = s.kept := Eq.trans rfl rfl
theorem kept_freeRegion (s : State) (i : Nat) : (freeRegion s i).kept = s.kept := by
  unfold freeRegion
  split <;> simp only [↓kept_mk, ↓kept_fold]
theorem kept_execRegionReg (c : Cmd) (s : State) : OutKeeps s (execRegionReg c s) := by
  unfold execRegionReg
  split <;> simp only [↓kept_mk, ↓kept_fold, ↓kept_refuse, ↓kept_finish, ↓out_next]
theorem kept_State_setCore (s : State) (n : Nat) (c : CoreSt) : (State.setCore s n c).kept = s.kept := Eq.trans rfl rfl
theorem kept_State_setStrm (s : State) (n : Nat) (k : Nat) (x : Strm) : (State.setStrm s n k x).kept = s.kept := Eq.trans rfl rfl
theorem kept_State_tWrite (s : State) (core : Nat) (tier : Nat) (a : Nat) (bs : List Byte) (p : optParam Bool false)
    : (State.tWrite s core tier a bs p).kept = s.kept := by
  simp only [State.tWrite, ↓kept_mk, ↓kept_fold, ↓kept_ite, ite_self, ↓kept_State_setCore]
theorem kept_putElem (s : State) (core : Nat) (d : Desc) (cs : List Nat) (code : Nat) (p : Bool)
    : (putElem s core d cs code p).kept = s.kept := by
  simp only [putElem, ↓kept_State_tWrite]
theorem kept_storeElem (s : State) (core : Nat) (d : Desc) (cs : List Nat) (code : Nat) (p : Bool)
    : (storeElem s core d cs code p).kept = s.kept := by
  simp only [storeElem, ↓kept_ite, ite_self, ↓kept_putElem]
theorem kept_clearLine (s : State) (core tier l : Nat) : (s.clearLine core tier l).kept = s.kept := by
  simp only [State.clearLine, ↓kept_mk, ↓kept_ite, ite_self, ↓kept_State_setCore]
  repeat' split
  all_goals rfl
theorem kept_clearWhole (s : State) (core : Nat) (d : Desc) (cs : List (List Nat × Bool)) (bad : List Nat)
    : (clearWhole s core d cs bad).kept = s.kept := by
  unfold clearWhole
  split
  · rfl
  · refine kept_foldl _ (fun s l => ?_) _ _
    split
    · rfl
    · exact kept_clearLine _ _ _ _
theorem kept_takeRefs (s : State) (cn : Nat) (ids : List Nat) : (takeRefs s cn ids).kept = s.kept := Eq.trans rfl rfl
theorem kept_dropRef (s : State) (cn : Nat) (id : Nat) : (dropRef s cn id).kept = s.kept := by
  unfold dropRef
  try simp only [↓kept_mk, ↓kept_fold, ↓kept_State_setCtx]
  repeat' (first | with_reducible rfl | (split <;> try simp only [↓kept_mk, ↓kept_fold, ↓kept_State_setCtx]))
theorem kept_dropRefs (s : State) (cn : Nat) (ids : List Nat) : (dropRefs s cn ids).kept = s.kept := by
  unfold dropRefs
  try simp only [↓kept_dropRef]
  all_goals repeat' (first
    | (intro _ _; try simp only [↓kept_dropRef])
    | (with_reducible refine (kept_foldl _ ?_ _ _).trans ?_ <;> try simp only [↓kept_dropRef]))
theorem kept_discard (s : State) (n : Nat) (bytes : Nat) : (discard s n bytes).kept = s.kept := Eq.trans rfl rfl
theorem kept_throwTiles (s : State) (n : Nat) (x : Strm) : (throwTiles s n x).kept = s.kept := by
  unfold throwTiles
  split <;> simp only [↓kept_discard]
theorem kept_endGangs (s : State) : (endGangs s).kept = s.kept := Eq.trans rfl rfl
theorem kept_closeStrm (s : State) (n : Nat) (k : Nat) : (closeStrm s n k).kept = s.kept := by
  simp only [closeStrm, ↓kept_State_setStrm, ↓kept_dropRefs]
theorem kept_mapStrms (s : State) (l : List (Nat × Nat)) (f : Strm → Strm) : (mapStrms s l f).kept = s.kept := by
  unfold mapStrms
  try simp only [↓kept_State_setStrm]
  all_goals repeat' (first
    | (intro _ _; try simp only [↓kept_State_setStrm])
    | (with_reducible refine (kept_foldl _ ?_ _ _).trans ?_ <;> try simp only [↓kept_State_setStrm]))
theorem kept_ssCount (s : State) (n : Nat) (k : Nat) (o : Nat) (v : Nat) : (ssCount s n k o v).kept = s.kept := Eq.trans rfl rfl
theorem kept_countOob (s : State) (n : Nat) (k : Nat) (pos : Nat) : (countOob s n k pos).kept = s.kept := by
  simp only [countOob, ↓kept_ite, ite_self, ↓kept_ssCount, ↓kept_State_mapIo]
theorem kept_issueTile (s : State) (n : Nat) (k : Nat) (blk : Option (List Nat)) (poison : Bool)
    : (issueTile s n k blk poison).kept = s.kept := by
  unfold issueTile
  try simp only [↓kept_mk, ↓kept_fold, ↓kept_State_setStrm, ↓kept_State_setCore]
  all_goals repeat' (first
    | (split <;> try simp only [↓kept_mk, ↓kept_fold, ↓kept_State_setStrm, ↓kept_State_setCore])
    | (intro _ _; try simp only [↓kept_mk, ↓kept_fold, ↓kept_State_setStrm, ↓kept_State_setCore])
    | (with_reducible refine (kept_foldl _ ?_ _ _).trans ?_ <;> try simp only [↓kept_mk, ↓kept_fold, ↓kept_State_setStrm,
        ↓kept_State_setCore]))
theorem kept_runAhead (s : State) (n : Nat) (k : Nat) (x3 : Nat) : (runAhead s n k x3).kept = s.kept := by
  induction x3 generalizing s n k with
  | zero => rfl
  | succ fuel ih =>
    rw [runAhead]
    try simp only [↓kept_mapStrms, ↓kept_ssCount, ↓kept_countOob, ↓kept_issueTile, ↓ih]
    all_goals repeat' (first
      | (split <;> try simp only [↓kept_mapStrms, ↓kept_ssCount, ↓kept_countOob, ↓kept_issueTile, ↓ih])
      | (intro _ _; try simp only [↓kept_mapStrms, ↓kept_ssCount, ↓kept_countOob, ↓kept_issueTile, ↓ih])
      | (with_reducible refine (kept_foldl _ ?_ _ _).trans ?_ <;> try simp only [↓kept_mapStrms, ↓kept_ssCount, ↓kept_countOob,
          ↓kept_issueTile, ↓ih]))
theorem kept_fetchMore (s : State) (n : Nat) (k : Nat) : (fetchMore s n k).kept = s.kept := by
  simp only [fetchMore, ↓kept_ite, ite_self, ↓kept_runAhead]
theorem kept_closeRead (s : State) (n : Nat) (k : Nat) : (closeRead s n k).kept = s.kept := by
  unfold closeRead
  simp only [↓kept_mk, ↓kept_fold, ↓kept_throwTiles, ↓kept_endGangs, ↓kept_closeStrm, ↓kept_fetchMore]
  split <;> simp only [↓kept_mk, ↓kept_fold, ↓kept_throwTiles, ↓kept_endGangs, ↓kept_closeStrm, ↓kept_fetchMore]
theorem kept_saveFault (s : State) (n : Nat) (k : Nat) (f : FaultPoint) : (saveFault s n k f).kept = s.kept := Eq.trans rfl rfl
theorem kept_requestPage (s : State) (page : Nat) : (requestPage s page).kept = s.kept := by
  simp only [requestPage, ↓kept_mk, ↓kept_fold, ↓kept_ite, ite_self, ↓kept_State_mapIo]
theorem kept_haltStrm (s : State) (n : Nat) (k : Nat) (f : FaultPoint) : (haltStrm s n k f).kept = s.kept := by
  simp only [haltStrm, ↓kept_ite, ite_self, ↓kept_saveFault, ↓kept_State_setStrm, ↓kept_State_setCore, ↓kept_State_mapIo,
      ↓kept_requestPage, ↓kept_closeStrm]
theorem kept_issueWrites (s : State) (n : Nat) (k : Nat) (x3 : Nat) : (issueWrites s n k x3).kept = s.kept := by
  induction x3 generalizing s n k with
  | zero => rfl
  | succ fuel ih =>
    rw [issueWrites]
    try simp only [↓kept_mk, ↓kept_fold, ↓kept_State_setStrm, ↓kept_haltStrm, ↓ih]
    all_goals repeat' (first | (split <;> try simp only [↓kept_mk, ↓kept_fold, ↓kept_State_setStrm, ↓kept_haltStrm, ↓ih]))
theorem kept_writeMore (s : State) (n : Nat) (k : Nat) : (writeMore s n k).kept = s.kept := by
  simp only [writeMore, ↓kept_issueWrites]
theorem kept_cancelStrm (s : State) (n : Nat) (k : Nat) : (cancelStrm s n k).kept = s.kept := by
  unfold cancelStrm
  try simp only [↓kept_throwTiles, ↓kept_State_setStrm, ↓kept_endGangs, ↓kept_writeMore, ↓kept_State_setCore, ↓kept_fetchMore]
  repeat' (first
    | with_reducible rfl
    | (split <;> try simp only [↓kept_throwTiles, ↓kept_State_setStrm, ↓kept_endGangs, ↓kept_writeMore, ↓kept_State_setCore,
        ↓kept_fetchMore]))
theorem kept_setMode (s : State) (n : Nat) (mode : Nat) (recover : Nat) : (setMode s n mode recover).kept = s.kept := by
  simp only [setMode, ↓kept_ite, ite_self, ↓kept_State_setCore, ↓kept_State_mapIo]
theorem kept_resumeStrm (s : State) (n : Nat) (k : Nat) : (resumeStrm s n k).kept = s.kept := by
  unfold resumeStrm
  try simp only [↓kept_mk, ↓kept_fold, ↓kept_State_setStrm, ↓kept_writeMore, ↓kept_fetchMore]
  repeat' (first
    | with_reducible rfl
    | (split <;> try simp only [↓kept_mk, ↓kept_fold, ↓kept_State_setStrm, ↓kept_writeMore, ↓kept_fetchMore]))
theorem kept_resumeWhere (s : State) (p : Nat → Nat → Bool) : (resumeWhere s p).kept = s.kept := by
  unfold resumeWhere
  try simp only [↓kept_writeMore, ↓kept_resumeStrm]
  all_goals repeat' (first
    | (intro _ _; try simp only [↓kept_writeMore, ↓kept_resumeStrm])
    | (with_reducible refine (kept_foldl _ ?_ _ _).trans ?_ <;> try simp only [↓kept_writeMore, ↓kept_resumeStrm]))
theorem kept_closeWrite (s : State) (n : Nat) (k : Nat) : (closeWrite s n k).kept = s.kept := by
  simp only [closeWrite, ↓kept_ite, ite_self, ↓kept_closeStrm, ↓kept_State_setStrm, ↓kept_writeMore]
theorem kept_closeAny (s : State) (n : Nat) (k : Nat) : (closeAny s n k).kept = s.kept := by
  simp only [closeAny, ↓kept_ite, ite_self, ↓kept_closeRead, ↓kept_closeWrite]
theorem kept_failWhere (s : State) (code : Nat) (p : Nat → Nat → Bool) : (failWhere s code p).kept = s.kept := by
  unfold failWhere
  try simp only [↓kept_haltStrm]
  all_goals repeat' (first
    | (split <;> try simp only [↓kept_haltStrm])
    | (intro _ _; try simp only [↓kept_haltStrm])
    | (with_reducible refine (kept_foldl _ ?_ _ _).trans ?_ <;> try simp only [↓kept_haltStrm]))
theorem kept_State_mapCaller (s : State) (d : Nat) (f : CallerSt → CallerSt) : (State.mapCaller s d f).kept = s.kept := Eq.trans rfl rfl
theorem kept_takeToks (s : State) (die : Nat) (ks : List Token) : (takeToks s die ks).kept = s.kept := Eq.trans rfl rfl
theorem kept_setSeq (s : State) (n : Nat) (k : Nat) (q : Seq) : (setSeq s n k q).kept = s.kept := Eq.trans rfl rfl
theorem kept_touchCn (s : State) (cn : Nat) : (touchCn s cn).kept = s.kept := by
  unfold touchCn
  split <;> simp only [↓kept_State_setCtx]
theorem kept_holdToken (s : State) (k : Token) (die : Nat) (f : Nat) (pos : Nat)
    : (holdToken s k die f pos).kept = s.kept := Eq.trans rfl rfl
theorem kept_nextTaskId (s : State) (die : Nat) : (nextTaskId s die).2.kept = s.kept := Eq.trans rfl rfl
theorem kept_takePos (s : State) (die : Nat) (f : Option Nat) (cn : Nat) (task : Nat) (inst : Option Nat) (arrs : List (Nat × Nat × Nat))
    : (takePos s die f cn task inst arrs).2.kept = s.kept := by
  unfold takePos
  split <;> simp only [↓kept_ite, ite_self, ↓kept_State_setCaller, ↓kept_State_mapIo]
theorem kept_makeTask (s : State) (die : Nat) (n : Nat) (ops : List (Option Token)) : (makeTask s die n ops).2.kept = s.kept := by
  simp only [makeTask, ↓kept_mk, ↓kept_fold, ↓kept_ite, ↓kept_ite2, ite_self, ↓kept_nextTaskId, ↓kept_takePos]
theorem kept_noteDepth (s : State) (die : Nat) (l : Nat) : (noteDepth s die l).kept = s.kept := by
  simp only [noteDepth, ↓kept_ite, ite_self, ↓kept_State_mapIo]
theorem kept_queueTask (s : State) (t : Task) : (queueTask s t).kept = s.kept := by
  simp only [queueTask, ↓kept_State_mapCaller, ↓kept_noteDepth]
theorem kept_setTimer (s : State) (die : Nat) (w : TimerFor) (d : Nat) : (setTimer s die w d).kept = s.kept := Eq.trans rfl rfl
theorem kept_fireBatch (s : State) (b : Batch) : (fireBatch s b).kept = s.kept := by
  unfold fireBatch
  repeat' split
  all_goals simp only [↓kept_mk, ↓kept_fold, ↓kept_ite, ite_self, ↓kept_makeTask, ↓kept_queueTask, ↓kept_setTimer]
theorem kept_dropTimer (s : State) (die : Nat) (w : TimerFor) : (dropTimer s die w).kept = s.kept := by
  simp only [dropTimer, ↓kept_ite, ite_self, ↓kept_State_setCaller, ↓kept_State_mapIo]
theorem kept_joinBatch (s : State) (e : ExpertStage) (k : Token) : (joinBatch s e k).kept = s.kept := by
  unfold joinBatch
  simp only [↓kept_mk, ↓kept_fold, ↓kept_ite, ite_self, ↓kept_fireBatch, ↓kept_dropTimer, ↓kept_setTimer]
  split <;> simp only [↓kept_mk, ↓kept_fold, ↓kept_ite, ite_self, ↓kept_fireBatch, ↓kept_dropTimer, ↓kept_setTimer]
theorem kept_shiftTimers (s : State) (die : Nat) (n : Nat) (key : Nat) (idx : Nat)
    : (shiftTimers s die n key idx).kept = s.kept := Eq.trans rfl rfl
theorem kept_tryForm (s : State) (die : Nat) (n : Nat) (key : Nat) : (tryForm s die n key).kept = s.kept := by
  simp only [tryForm, ↓kept_ite, ite_self, ↓kept_takeToks, ↓kept_shiftTimers, ↓kept_dropTimer, ↓kept_makeTask, ↓kept_queueTask]
theorem kept_joinPort (s : State) (k : Token) : (joinPort s k).kept = s.kept := by
  simp only [joinPort, ↓kept_ite, ite_self, ↓kept_State_setCaller, ↓kept_setTimer, ↓kept_tryForm]
theorem kept_acceptToken (s : State) (k : Token) : (acceptToken s k).kept = s.kept := by
  unfold acceptToken
  try simp only [↓kept_mk, ↓kept_fold, ↓kept_State_mapIo, ↓kept_touchCn, ↓kept_finish, ↓kept_joinBatch, ↓kept_joinPort]
  repeat' (first
    | with_reducible rfl
    | (split <;> try simp only [↓kept_mk, ↓kept_fold, ↓kept_State_mapIo, ↓kept_touchCn, ↓kept_finish, ↓kept_joinBatch, ↓kept_joinPort]))
theorem kept_offerBase (s : State) (k : Token) : (offerBase s k).1.kept = s.kept := by
  unfold offerBase
  repeat' split
  all_goals simp only [↓kept_ite, ↓kept_ite1, ite_self, ↓kept_State_mapIo, ↓kept_State_setCaller, ↓kept_holdToken, ↓kept_acceptToken]
theorem kept_groupReturn (s : State) (id : Nat) : (groupReturn s id).kept = s.kept := by
  unfold groupReturn
  repeat' split
  all_goals simp only [↓kept_mk, ↓kept_fold, ↓kept_ite, ite_self, ↓kept_setSeq, ↓kept_offerBase]
theorem kept_routeDone (s : State) (id : Nat) (ok : Bool) : (routeDone s id ok).kept = s.kept := by
  simp only [routeDone, ↓kept_mk, ↓kept_fold, ↓kept_groupReturn]
theorem kept_offerToken (s : State) (k : Token) : (offerToken s k).1.kept = s.kept := by
  unfold offerToken
  simp only [↓kept_ite, ite_self, ↓kept_offerBase, ↓kept_routeDone]
  split <;> simp only [↓kept_ite, ite_self, ↓kept_offerBase, ↓kept_routeDone]
theorem kept_deliver (s : State) (k : Token) : (deliver s k).kept = s.kept := by
  simp only [deliver, ↓kept_offerToken]
theorem kept_endPos (s : State) (die : Nat) (f : Option Nat) (pos : Nat) (outcome : Nat) : (endPos s die f pos outcome).kept = s.kept := by
  unfold endPos
  split <;> simp only [↓kept_State_mapCaller]
theorem kept_countNotOk (s : State) (die : Nat) : (countNotOk s die).kept = s.kept := Eq.trans rfl rfl
theorem kept_flowRecord (s : State) (die : Nat) (f : Option Nat) (pos : Nat) (key : Nat) (bs : List Byte) (sig : Bool)
    : (flowRecord s die f pos key bs sig).kept = s.kept := by
  unfold flowRecord
  split <;> simp only [↓kept_postRecord, ↓kept_State_mapCaller]
theorem kept_formAll (s : State) (die : Nat) (n : Nat) (key : Nat) (x4 : Nat) : (formAll s die n key x4).kept = s.kept := by
  induction x4 generalizing s die n key with
  | zero => rfl
  | succ fuel ih =>
    rw [formAll]
    try simp only [↓kept_ite, ite_self, ↓kept_tryForm, ↓ih]
    all_goals repeat' (first | with_reducible rfl)
theorem kept_execTickCfgWrite (who : Requester) (die : Nat) (value : W32) (s : State) : OutKeeps s (execTickCfgWrite who die value s) := by
  unfold execTickCfgWrite
  simp only [↓kept_mk, ↓kept_fold, ite_self, ↓kept_State_mapIo, ↓kept_State_mapCaller, ↓out_next, ↓out_ite]
  split <;> simp only [↓kept_mk, ↓kept_fold, ite_self, ↓kept_State_mapIo, ↓kept_State_mapCaller, ↓out_next, ↓out_ite]
theorem kept_acceptHeld (s : State) (die : Nat) : (acceptHeld s die).kept = s.kept := by
  unfold acceptHeld
  try simp only [↓kept_State_mapCaller, ↓kept_offerToken, ↓kept_State_setCore]
  repeat' (first | with_reducible rfl | (split <;> try simp only [↓kept_State_mapCaller, ↓kept_offerToken, ↓kept_State_setCore]))
theorem kept_execHeldTokenAccepted (die : Nat) (s : State) : OutKeeps s (execHeldTokenAccepted die s) := by
  simp only [execHeldTokenAccepted, ↓kept_acceptHeld, ↓out_next]
theorem kept_execExpertBatchExpiry (die : Nat) (serial : Nat) (s : State) : OutKeeps s (execExpertBatchExpiry die serial s) := by
  unfold execExpertBatchExpiry
  repeat' split
  all_goals simp only [ite_self, ↓kept_State_mapCaller, ↓kept_fireBatch, ↓out_next, ↓out_ite]
theorem kept_dropInstance (s : State) (die : Nat) (n : Nat) (ops : List (Option Token)) : (dropInstance s die n ops).kept = s.kept := by
  unfold dropInstance
  split <;> simp only [↓kept_ite, ite_self, ↓kept_countNotOk, ↓kept_postRecord]
theorem kept_execOperandTimeout (die : Nat) (tmpl : Nat) (key : Nat) (idx : Nat) (s : State)
    : OutKeeps s (execOperandTimeout die tmpl key idx s) := by
  simp only [execOperandTimeout, ite_self, ↓kept_State_mapCaller, ↓kept_shiftTimers, ↓kept_takeToks, ↓kept_State_mapIo, ↓kept_makeTask,
      ↓kept_queueTask, ↓kept_dropInstance, ↓out_next, ↓out_ite]
theorem kept_execTokenAccept (t : Token) (s : State) : OutKeeps s (execTokenAccept t s) := by
  simp only [execTokenAccept, ↓kept_deliver, ↓out_next]
theorem kept_State_setLink (s : State) (l : Nat) (x : LinkSt) : (State.setLink s l x).kept = s.kept := Eq.trans rfl rfl
theorem kept_linkTo (s : State) (l : Nat) (st : Nat) : (linkTo s l st).kept = s.kept := by
  simp only [linkTo, ↓kept_ite, ite_self, ↓kept_State_setLink, ↓kept_State_mapIo]
theorem kept_adopt (s : State) : (adopt s).kept = s.kept := Eq.trans rfl rfl
theorem kept_sendFlit (s : State) (l : Nat) (seq : Nat) (kind : Nat) (pvc : Nat) (payload : List Byte)
    : (sendFlit s l seq kind pvc payload).kept = s.kept := Eq.trans rfl rfl
theorem kept_sendSeq (s : State) (l : Nat) (kind : Nat) (pvc : Nat) (payload : List Byte)
    : (sendSeq s l kind pvc payload).kept = s.kept := by
  simp only [sendSeq, ↓kept_ite, ite_self, ↓kept_sendFlit, ↓kept_State_setLink, ↓kept_State_mapIo]
theorem kept_pumpVc (s : State) (l : Nat) (vc : Nat) (x3 : Nat) : (pumpVc s l vc x3).kept = s.kept := by
  induction x3 generalizing s l vc with
  | zero => rfl
  | succ fuel ih =>
    rw [pumpVc]
    try simp only [↓kept_ite, ite_self, ↓kept_State_setLink, ↓kept_sendSeq, ↓ih]
    all_goals repeat' (first | with_reducible rfl)
theorem kept_pumpLink (s : State) (l : Nat) : (pumpLink s l).kept = s.kept := by
  unfold pumpLink
  try simp only [↓kept_pumpVc]
  all_goals repeat' (first
    | (intro _ _; try simp only [↓kept_pumpVc])
    | (with_reducible refine (kept_foldl _ ?_ _ _).trans ?_ <;> try simp only [↓kept_pumpVc]))
theorem kept_sendOn (s : State) (l : Nat) (p : Pkt) : (sendOn s l p).kept = s.kept := by
  simp only [sendOn, ↓kept_pumpLink, ↓kept_State_setLink]
theorem kept_flood (s : State) (type : Nat) (arg : Nat) (payload : List Byte) (except : Option Nat)
    : (flood s type arg payload except).kept = s.kept := by
  unfold flood
  try simp only [↓kept_sendOn]
  all_goals repeat' (first
    | (intro _ _; try simp only [↓kept_sendOn])
    | (with_reducible refine (kept_foldl _ ?_ _ _).trans ?_ <;> try simp only [↓kept_sendOn]))
theorem kept_floodOwn (s : State) : (floodOwn s).kept = s.kept := by
  simp only [floodOwn, ↓kept_flood]
theorem kept_setOwnAddr (s : State) (a : Nat) : (setOwnAddr s a).kept = s.kept := by
  simp only [setOwnAddr, ↓kept_ite, ite_self, ↓kept_State_mapIo, ↓kept_floodOwn]
theorem kept_giveAddr (s : State) (uid : Nat) (a : Nat) : (giveAddr s uid a).kept = s.kept := by
  unfold giveAddr
  try simp only [↓kept_mk, ↓kept_fold, ↓kept_setOwnAddr, ↓kept_flood]
  repeat' (first | with_reducible rfl | (split <;> try simp only [↓kept_mk, ↓kept_fold, ↓kept_setOwnAddr, ↓kept_flood]))
theorem kept_addressRound (s : State) (reqs : SMap Nat) : (addressRound s reqs).kept = s.kept := by
  unfold addressRound
  try simp only [↓kept_giveAddr]
  all_goals repeat' (first
    | (split <;> try simp only [↓kept_giveAddr])
    | (intro _ _; try simp only [↓kept_giveAddr])
    | (with_reducible refine (kept_foldl _ ?_ _ _).trans ?_ <;> try simp only [↓kept_giveAddr]))
theorem kept_noteReach (s : State) : (noteReach s).kept = s.kept := Eq.trans rfl rfl
theorem kept_resend (s : State) (p : OutPkt → Bool) : (resend s p).kept = s.kept := by
  unfold resend
  try simp only [↓kept_mk, ↓kept_fold, ↓kept_State_mapIo, ↓kept_sendOn]
  all_goals repeat' (first
    | (split <;> try simp only [↓kept_mk, ↓kept_fold, ↓kept_State_mapIo, ↓kept_sendOn])
    | (intro _ _; try simp only [↓kept_mk, ↓kept_fold, ↓kept_State_mapIo, ↓kept_sendOn])
    | (with_reducible refine (kept_foldl _ ?_ _ _).trans ?_ <;> try simp only [↓kept_mk, ↓kept_fold, ↓kept_State_mapIo, ↓kept_sendOn]))
theorem kept_fabUpdate (s : State) (reqs : optParam (SMap Nat) []) : (fabUpdate s reqs).kept = s.kept := by
  simp only [fabUpdate, ↓kept_mk, ↓kept_fold, ↓kept_ite, ite_self, ↓kept_State_mapIo, ↓kept_adopt, ↓kept_addressRound, ↓kept_noteReach,
      ↓kept_resend]
theorem kept_reroute (s : State) (l : Nat) : (reroute s l).kept = s.kept := by
  simp only [reroute, ↓kept_mk, ↓kept_fold, ↓kept_ite, ite_self, ↓kept_fabUpdate, ↓kept_State_mapIo, ↓kept_floodOwn, ↓kept_resend]
theorem kept_linkFail (s : State) (l : Nat) (cause : Nat) : (linkFail s l cause).kept = s.kept := by
  simp only [linkFail, ↓kept_ite, ite_self, ↓kept_linkTo, ↓kept_State_mapIo, ↓kept_reroute]
theorem kept_linkUp (s : State) (l : Nat) : (linkUp s l).kept = s.kept := by
  simp only [linkUp, ↓kept_floodOwn, ↓kept_fabUpdate, ↓kept_linkTo]
theorem kept_helloIn (s : State) (l : Nat) (h : List Byte) : (helloIn s l h).kept = s.kept := by
  simp only [helloIn, ↓kept_ite, ite_self, ↓kept_State_setLink, ↓kept_State_mapIo, ↓kept_linkFail, ↓kept_linkUp]
theorem kept_transmit (s : State) (dst : Nat) (type : Nat) (flow : Nat) (poison : Nat) (arg : Nat) (payload : List Byte) (why : OutFor)
    : (transmit s dst type flow poison arg payload why).kept = s.kept := by
  unfold transmit
  simp only [↓kept_mk, ↓kept_fold, ↓kept_State_mapIo, ↓kept_sendOn]
  split <;> simp only [↓kept_mk, ↓kept_fold, ↓kept_State_mapIo, ↓kept_sendOn]
theorem kept_respond (s : State) (dst : Nat) (type : Nat) (flow : Nat) (eseq : Nat) (arg : Nat) (payload : List Byte)
    : (respond s dst type flow eseq arg payload).kept = s.kept := by
  unfold respond
  simp only [↓kept_State_mapIo, ↓kept_sendOn]
  split <;> simp only [↓kept_State_mapIo, ↓kept_sendOn]
theorem kept_linkDisable (s : State) (l : Nat) : (linkDisable s l).kept = s.kept := by
  simp only [linkDisable, ↓kept_ite, ite_self, ↓kept_linkTo, ↓kept_reroute]
theorem kept_execRouteEntWrite (who : Requester) (value : W32) (s : State) : OutKeeps s (execRouteEntWrite who value s) := by
  unfold execRouteEntWrite
  simp only [↓kept_mk, ↓kept_fold, ite_self, ↓kept_State_mapIo, ↓kept_resend, ↓out_next, ↓out_ite]
  split <;> simp only [↓kept_mk, ↓kept_fold, ite_self, ↓kept_State_mapIo, ↓kept_resend, ↓out_next, ↓out_ite]
theorem kept_ftSnap (s : State) : (ftSnap s).kept = s.kept := Eq.trans rfl rfl
theorem kept_ftTick (s : State) : (ftTick s).kept = s.kept := by
  simp only [ftTick, ↓kept_mk, ↓kept_fold, ↓kept_ite, ite_self]
theorem kept_execTrainingTimeout (l : Nat) (s : State) : OutKeeps s (execTrainingTimeout l s) := by
  simp only [execTrainingTimeout, ite_self, ↓kept_linkFail, ↓kept_State_setLink, ↓out_next, ↓out_ite]
theorem kept_ackPair (s : State) (dst : Nat) (flow : Nat) (eseq : Nat) (status : Nat) : (ackPair s dst flow eseq status).kept = s.kept := by
  simp only [ackPair, ↓kept_respond]
theorem kept_e2eAccept (s : State) (p : Pkt) : (e2eAccept s p).1.kept = s.kept := by
  unfold e2eAccept
  try simp only [↓kept_mk, ↓kept_fold, ↓kept_State_mapIo, ↓kept_ackPair]
  repeat' (first | with_reducible rfl | (split <;> try simp only [↓kept_mk, ↓kept_fold, ↓kept_State_mapIo, ↓kept_ackPair]))
theorem kept_takeMgmt (s : State) (l : Nat) (type : Nat) : (takeMgmt s l type).kept = s.kept := by
  unfold takeMgmt
  split <;> simp only [↓kept_mk, ↓kept_fold]
theorem kept_execTimeExchange (l : Nat) (s : State) : OutKeeps s (execTimeExchange l s) := by
  simp only [execTimeExchange, ite_self, ↓kept_sendOn, ↓out_next, ↓out_ite]
theorem kept_e2eReply (s : State) (p : Pkt) (status : Nat) : (e2eReply s p status).kept = s.kept := by
  simp only [e2eReply, ↓kept_ite, ite_self, ↓kept_State_mapIo, ↓kept_ackPair]
theorem kept_execHelloTransmit (l : Nat) (s : State) : OutKeeps s (execHelloTransmit l s) := by
  simp only [execHelloTransmit, ite_self, ↓kept_State_mapIo, ↓out_next, ↓out_ite]
theorem kept_execRetrainRetry (l : Nat) (s : State) : OutKeeps s (execRetrainRetry l s) := by
  simp only [execRetrainRetry, ite_self, ↓kept_State_setLink, ↓out_next, ↓out_ite]
theorem kept_linkAck (s : State) (l : Nat) (ack : Nat) : (linkAck s l ack).kept = s.kept := Eq.trans rfl rfl
theorem kept_execLinkSilent (l : Nat) (s : State) : OutKeeps s (execLinkSilent l s) := by
  simp only [execLinkSilent, ↓kept_ite, ite_self, ↓kept_linkFail, ↓out_next]
theorem kept_packetIn (s : State) (l : Nat) (p : Pkt) : (packetIn s l p).kept = s.kept := by
  unfold packetIn
  repeat' split
  all_goals simp only [↓kept_mk, ↓kept_fold, ↓kept_sendOn, ↓kept_State_mapIo]
theorem kept_dataIn (s : State) (l : Nat) (pvc : Nat) (payload : List Byte) : (dataIn s l pvc payload).kept = s.kept := by
  unfold dataIn
  try simp only [↓kept_State_setLink, ↓kept_State_mapIo, ↓kept_packetIn]
  all_goals repeat' (first
    | (intro _ _; try simp only [↓kept_State_setLink, ↓kept_State_mapIo, ↓kept_packetIn])
    | (with_reducible refine (kept_foldl _ ?_ _ _).trans ?_ <;> try simp only [↓kept_State_setLink, ↓kept_State_mapIo, ↓kept_packetIn]))
theorem kept_flitTake (s : State) (l : Nat) (flit : List Byte) : (flitTake s l flit).kept = s.kept := by
  simp only [flitTake, ↓kept_ite, ite_self, ↓kept_State_setLink, ↓kept_dataIn, ↓kept_sendFlit]
theorem kept_execAddrHoldExpiry (uid : Nat) (s : State) : OutKeeps s (execAddrHoldExpiry uid s) := by
  unfold execAddrHoldExpiry
  split <;> simp only [↓kept_mk, ↓kept_fold, ite_self, ↓kept_fabUpdate, ↓out_next, ↓out_ite]
theorem kept_execLinkSignalLoss (l : Nat) (s : State) : OutKeeps s (execLinkSignalLoss l s) := by
  simp only [execLinkSignalLoss, ↓kept_ite, ite_self, ↓kept_linkFail, ↓kept_State_setLink, ↓out_next, ↓out_ite]
theorem kept_flitDrop (s : State) (l : Nat) : (flitDrop s l).kept = s.kept := by
  simp only [flitDrop, ↓kept_ite, ite_self, ↓kept_sendFlit, ↓kept_State_setLink]
theorem kept_execE2eTimeout (dst : Nat) (flow : Nat) (s : State) : OutKeeps s (execE2eTimeout dst flow s) := by
  simp only [execE2eTimeout, ↓kept_resend, ↓out_next]
theorem kept_execPairForget (src : Nat) (flow : Nat) (s : State) : OutKeeps s (execPairForget src flow s) := by
  simp only [execPairForget, ↓kept_mk, ↓kept_fold, ↓out_next]
theorem kept_replay (s : State) (l : Nat) : (replay s l).kept = s.kept := by
  unfold replay
  try simp only [↓kept_linkFail, ↓kept_State_setLink, ↓kept_State_mapIo, ↓kept_sendFlit]
  all_goals repeat' (first
    | (split <;> try simp only [↓kept_linkFail, ↓kept_State_setLink, ↓kept_State_mapIo, ↓kept_sendFlit])
    | (intro _ _; try simp only [↓kept_linkFail, ↓kept_State_setLink, ↓kept_State_mapIo, ↓kept_sendFlit])
    | (with_reducible refine (kept_foldl _ ?_ _ _).trans ?_ <;> try simp only [↓kept_linkFail, ↓kept_State_setLink, ↓kept_State_mapIo,
        ↓kept_sendFlit]))
theorem kept_execTimePacket (l t1 t2 t3 t4 parentFt : Nat) (s : State) : OutKeeps s (execTimePacket l t1 t2 t3 t4 parentFt s) := by
  unfold execTimePacket
  split
  · exact out_next.2 rfl
  · extract_lets a i d b off c wl g _ e
    have hb : b.kept = s.kept := (kept_State_mapIo _ _).trans (kept_takeMgmt _ _ _)
    have hc : c.kept = s.kept := (kept_State_mapIo _ _).trans hb
    have he : e.kept = s.kept := by
      unfold e
      split
      · rw [kept_mk]; exact hc
      · rw [kept_mk]; exact hc
    clear_value b e wl g
    split
    · exact out_next.2 hb
    · refine out_next.2 ?_
      split
      · exact he
      · exact (kept_State_mapIo _ _).trans he
theorem kept_flitTells (s : State) (l : Nat) (flit : List Byte) : (flitTells s l flit).kept = s.kept := by
  simp only [flitTells, ↓kept_ite, ite_self, ↓kept_linkAck, ↓kept_State_setLink]
theorem kept_flitUp (s : State) (l : Nat) (flit : List Byte) (bad : Bool) : (flitUp s l flit bad).kept = s.kept := by
  simp only [flitUp, ↓kept_ite, ite_self, ↓kept_flitDrop, ↓kept_flitTells, ↓kept_replay, ↓kept_flitTake]
theorem kept_execFlitReceive (l : Nat) (flit : List Byte) (corrected : Nat) (uncorrectable : Bool) (s : State)
    : OutKeeps s (execFlitReceive l flit corrected uncorrectable s) := by
  unfold execFlitReceive
  try simp only [↓kept_State_mapIo, ↓kept_helloIn, ↓kept_pumpLink, ↓kept_flitUp, ↓out_next]
  repeat' (first
    | with_reducible rfl
    | (split <;> try simp only [↓kept_State_mapIo, ↓kept_helloIn, ↓kept_pumpLink, ↓kept_flitUp, ↓out_next]))
theorem kept_execLinkTraining (l : Nat) (hello : Bool) (s : State) : OutKeeps s (execLinkTraining l hello s) := by
  simp only [execLinkTraining, ite_self, ↓kept_State_setLink, ↓out_next, ↓out_ite]
theorem kept_execFtSnap (who : Requester) (s : State) : OutKeeps s (execFtSnap who s) := by
  unfold execFtSnap
  split <;> simp only [↓kept_mk, ↓kept_fold, ↓kept_ftSnap, ↓out_next]
theorem kept_execReplayTimeout (l : Nat) (s : State) : OutKeeps s (execReplayTimeout l s) := by
  simp only [execReplayTimeout, ↓kept_ite, ite_self, ↓kept_replay, ↓out_next]
theorem kept_execLinkState (l : Nat) (uid : Nat) (flags : Nat) (addr : Nat) (req : Nat) (links : List (Nat × Nat)) (s : State)
    : OutKeeps s (execLinkState l uid flags addr req links s) := by
  simp only [execLinkState, ↓kept_mk, ↓kept_fold, ite_self, ↓kept_takeMgmt, ↓kept_flood, ↓kept_fabUpdate, ↓out_next, ↓out_ite]
theorem kept_execAddrAssign (l : Nat) (uid : Nat) (addr : Nat) (s : State) : OutKeeps s (execAddrAssign l uid addr s) := by
  unfold execAddrAssign
  try simp only [↓kept_mk, ↓kept_fold, ↓kept_takeMgmt, ↓kept_fabUpdate, ↓kept_setOwnAddr, ↓kept_flood, ↓out_next]
  repeat' (first
    | with_reducible rfl
    | (split <;> try simp only [↓kept_mk, ↓kept_fold, ↓kept_takeMgmt, ↓kept_fabUpdate, ↓kept_setOwnAddr, ↓kept_flood, ↓out_next]))
theorem kept_setInst (s : State) (x : FusedInst) : (setInst s x).kept = s.kept := Eq.trans rfl rfl
theorem kept_freeEntry (s : State) (i : Nat) (st : Nat) (idx : Nat) : (freeEntry s i st idx).kept = s.kept := by
  unfold freeEntry
  split <;> simp only [↓kept_setInst]
theorem kept_stageFail (s : State) (i : Nat) (st : Nat) (code : Nat) : (stageFail s i st code).kept = s.kept := by
  unfold stageFail
  split <;> simp only [↓kept_ite, ite_self, ↓kept_setInst]
theorem kept_setSess (s : State) (n : Nat) (x : Sess) : (setSess s n x).kept = s.kept := Eq.trans rfl rfl
theorem kept_sessSend (s : State) (n : Nat) (x : Sess) (data : List Byte) : (sessSend s n x data).kept = s.kept := Eq.trans rfl rfl
theorem kept_pumpMsgs (s : State) (x1 : Nat) : (pumpMsgs s x1).kept = s.kept := by
  induction x1 generalizing s with
  | zero => rfl
  | succ fuel ih =>
    rw [pumpMsgs]
    try simp only [↓kept_mk, ↓kept_fold, ↓kept_transmit, ↓ih]
    all_goals repeat' (first
      | (split <;> try simp only [↓kept_mk, ↓kept_fold, ↓kept_transmit, ↓ih])
      | (intro _ _; try simp only [↓kept_mk, ↓kept_fold, ↓kept_transmit, ↓ih])
      | (with_reducible refine (kept_foldl _ ?_ _ _).trans ?_ <;> try simp only [↓kept_mk, ↓kept_fold, ↓kept_transmit, ↓ih]))
theorem kept_queueMsg (s : State) (dst : Nat) (inbox : Nat) (data : List Byte) (poison : List Bool) (why : MsgFor)
    : (queueMsg s dst inbox data poison why).kept = s.kept := by
  simp only [queueMsg, ↓kept_mk, ↓kept_fold, ↓kept_pumpMsgs]
theorem kept_sendEmit (s : State) (i : Nat) (st : Nat) (idx : Nat) : (sendEmit s i st idx).1.kept = s.kept := by
  unfold sendEmit
  try simp only [↓kept_freeEntry, ↓kept_sessSend, ↓kept_queueMsg, ↓kept_postRecord]
  repeat' (first | with_reducible rfl | (split <;> try simp only [↓kept_freeEntry, ↓kept_sessSend, ↓kept_queueMsg, ↓kept_postRecord]))
theorem kept_setIngress (s : State) (cn : Nat) (g : Ingress) : (setIngress s cn g).kept = s.kept := Eq.trans rfl rfl
theorem kept_tellCredit (s : State) (src : Nat) (max : Nat) : (tellCredit s src max).kept = s.kept := by
  simp only [tellCredit, ↓kept_ite, ite_self, ↓kept_State_mapIo, ↓kept_respond]
theorem kept_grantCredits (s : State) (cn : Nat) (x2 : Nat) : (grantCredits s cn x2).kept = s.kept := by
  induction x2 generalizing s cn with
  | zero => rfl
  | succ fuel ih =>
    rw [grantCredits]
    try simp only [↓kept_tellCredit, ↓kept_setIngress, ↓ih]
    all_goals repeat' (first | (split <;> try simp only [↓kept_tellCredit, ↓kept_setIngress, ↓ih]))
theorem kept_creditsFor (s : State) (cn : Nat) : (creditsFor s cn).kept = s.kept := by
  simp only [creditsFor, ↓kept_grantCredits]
theorem kept_passRecords (s : State) (cn : Nat) (done : List (Nat × Nat × Nat)) : (passRecords s cn done).kept = s.kept := by
  simp only [passRecords, ↓kept_ite, ite_self, ↓kept_setIngress, ↓kept_creditsFor]
theorem kept_sessError (s : State) (n : Nat) (code : Nat) : (sessError s n code).kept = s.kept := by
  unfold sessError
  split <;> simp only [↓kept_ite, ite_self, ↓kept_setSess, ↓kept_setIngress, ↓kept_State_mapIo]
theorem kept_placeMessage (s : State) (cn : Nat) (src : Nat) (msg : Nat) (max : Nat) (data : List Byte) (poison : Bool)
    : (placeMessage s cn src msg max data poison).2.kept = s.kept := by
  unfold placeMessage
  split <;> simp only [↓kept_State_dwrite, ↓kept_setIngress]
theorem kept_releaseAt (s : State) (cn : Nat) (svc : Nat) (cls : Nat) : (releaseAt s cn svc cls).2.kept = s.kept := by
  unfold releaseAt
  split <;> simp only [↓kept_ite, ite_self, ↓kept_State_mapIo, ↓kept_State_setCtx]

end Sys2Proof.Machine
end

