-- ==== Sys2Proof/Laws/KeptUnits.lean ====
section
/-! SUPPORT. Frames of the fused units, the collectives, the streams and the Weavers: each keeps `State.kept`. -/

namespace Sys2Proof.Machine

set_option linter.unusedSimpArgs false
set_option linter.unnecessarySeqFocus false
set_option linter.unreachableTactic false
set_option linter.unusedTactic false

theorem kept_runEnd (s : State) (id : Nat) : (runEnd s id).kept = s.kept := by
  unfold runEnd
  split <;> simp only [↓kept_mk, ↓kept_fold, ↓kept_ite, ite_self, ↓kept_dropRef, ↓kept_finish]
theorem kept_setQueue (s : State) (egp : Bool) (u : Nat) (q : List UReq) : (setQueue s egp u q).kept = s.kept := by
  simp only [setQueue, ↓kept_mk, ↓kept_fold, ↓kept_ite, ite_self]
theorem kept_pushReq (s : State) (egp : Bool) (u : Nat) (r : UReq) : (pushReq s egp u r).kept = s.kept := by
  simp only [pushReq, ↓kept_mk, ↓kept_fold, ↓kept_setQueue]
theorem kept_fillRun (s : State) (id : Nat) (x2 : Nat) : (fillRun s id x2).kept = s.kept := by
  induction x2 generalizing s id with
  | zero => rfl
  | succ fuel ih =>
    rw [fillRun]
    try simp only [↓kept_mk, ↓kept_fold, ↓kept_pushReq, ↓ih]
    all_goals repeat' (first | (split <;> try simp only [↓kept_mk, ↓kept_fold, ↓kept_pushReq, ↓ih]))
theorem kept_pumpRuns (s : State) : (pumpRuns s).kept = s.kept := by
  unfold pumpRuns
  try simp only [↓kept_runEnd, ↓kept_fillRun]
  all_goals repeat' (first
    | (intro _ _; try simp only [↓kept_runEnd, ↓kept_fillRun])
    | (with_reducible refine (kept_foldl _ ?_ _ _).trans ?_ <;> try simp only [↓kept_runEnd, ↓kept_fillRun]))
theorem kept_putDescBytes (s : State) (core : Nat) (d : Desc) (first : Nat) (bs : List Byte) (p : Bool)
    : (putDescBytes s core d first bs p).kept = s.kept := by
  unfold putDescBytes
  try simp only [↓kept_putElem]
  all_goals repeat' (first
    | (intro _ _; try simp only [↓kept_putElem])
    | (with_reducible refine (kept_foldl _ ?_ _ _).trans ?_ <;> try simp only [↓kept_putElem]))
theorem kept_runBlock (s : State) (r : UReq) (code : Nat) : (runBlock s r code).kept = s.kept := by
  unfold runBlock
  split <;> simp only [↓kept_mk, ↓kept_fold]
theorem kept_takeEntry (s : State) (i : Nat) (st : Nat) (idx : Nat) : (takeEntry s i st idx).kept = s.kept := by
  unfold takeEntry
  split <;> simp only [↓kept_setInst]
theorem kept_feedStage (s : State) (i : Nat) (st : Nat) (x3 : Nat) : (feedStage s i st x3).kept = s.kept := by
  induction x3 generalizing s i st with
  | zero => rfl
  | succ fuel ih =>
    rw [feedStage]
    try simp only [↓kept_pushReq, ↓kept_takeEntry, ↓kept_deliver, ↓kept_freeEntry, ↓kept_State_mapCaller, ↓kept_sendEmit, ↓kept_stageFail,
        ↓kept_setInst, ↓ih]
    all_goals repeat' (first
      | (split <;> try simp only [↓kept_pushReq, ↓kept_takeEntry, ↓kept_deliver, ↓kept_freeEntry, ↓kept_State_mapCaller, ↓kept_sendEmit,
          ↓kept_stageFail, ↓kept_setInst, ↓ih])
      | (with_reducible refine (kept_of_fst ‹_›).trans ?_ <;> try simp only [↓kept_pushReq, ↓kept_takeEntry, ↓kept_deliver,
          ↓kept_freeEntry, ↓kept_State_mapCaller, ↓kept_sendEmit, ↓kept_stageFail, ↓kept_setInst, ↓ih]))
theorem kept_feedInst (s : State) (i : Nat) : (feedInst s i).kept = s.kept := by
  unfold feedInst
  try simp only [↓kept_feedStage]
  all_goals repeat' (first
    | (intro _ _; try simp only [↓kept_feedStage])
    | (with_reducible refine (kept_foldl _ ?_ _ _).trans ?_ <;> try simp only [↓kept_feedStage]))
theorem kept_feedAll (s : State) : (feedAll s).kept = s.kept := by
  unfold feedAll
  try simp only [↓kept_ite, ite_self, ↓kept_feedInst]
  all_goals repeat' (first
    | (intro _ _; try simp only [↓kept_ite, ite_self, ↓kept_feedInst])
    | (with_reducible refine (kept_foldl _ ?_ _ _).trans ?_ <;> try simp only [↓kept_ite, ite_self, ↓kept_feedInst]))
theorem kept_endReq (s : State) (egp : Bool) (u : Nat) (r : UReq) (code : Nat) : (endReq s egp u r code).kept = s.kept := by
  unfold endReq
  split <;> simp only [↓kept_ite, ite_self, ↓kept_setQueue, ↓kept_runBlock, ↓kept_freeEntry, ↓kept_stageFail, ↓kept_pumpRuns, ↓kept_feedAll]
theorem kept_putEntry (s : State) (i : Nat) (st : Nat) (bs : List Byte) (poison : Bool) {w : State}
    : (putEntry s i st bs poison) = some w → w.kept = s.kept := by
  intro h
  unfold putEntry at h
  try dsimp only at h
  repeat' split at h
  all_goals first | contradiction | (cases h; try simp only [↓kept_State_setCore, ↓kept_setInst, ↓kept_feedStage]) | skip
  all_goals repeat' (first | with_reducible rfl)
theorem kept_setFence (s : State) (f : Fence) : (setFence s f).kept = s.kept := Eq.trans rfl rfl
theorem kept_fenceRefresh (s : State) (ti : Nat) : (fenceRefresh s ti).kept = s.kept := by
  unfold fenceRefresh
  split <;> simp only [↓kept_ite, ite_self, ↓kept_setFence]
theorem kept_fenceForget (s : State) (serial : Nat) : (fenceForget s serial).kept = s.kept := Eq.trans rfl rfl
theorem kept_putRow (s : State) (core : Nat) (d : Desc) (row : Nat) (codes : List Nat) (scales : List Nat) (p : Bool)
    : (putRow s core d row codes scales p).kept = s.kept := by
  unfold putRow
  try simp only [↓kept_ite, ite_self, ↓kept_clearWhole, ↓kept_putElem, ↓kept_State_tWrite]
  all_goals repeat' (first
    | (intro _ _; try simp only [↓kept_ite, ite_self, ↓kept_clearWhole, ↓kept_putElem, ↓kept_State_tWrite])
    | (with_reducible refine (kept_foldl _ ?_ _ _).trans ?_ <;> try simp only [↓kept_ite, ite_self, ↓kept_clearWhole, ↓kept_putElem, ↓kept_State_tWrite]))
theorem kept_egpFinish (s : State) (r : UReq) (i : EgpIn) (res : EgpRes) (entry : List Byte) (poison : Bool) {w : State}
    (h : egpFinish s r i res entry poison = some w) : w.kept = s.kept := by
  unfold egpFinish at h
  extract_lets b bs tb t at h
  have ht : t.kept = s.kept := by
    unfold t
    split
    · exact kept_putDescBytes _ _ _ _ _ _
    · rfl
  clear_value t
  split at h
  · exact (kept_putEntry _ _ _ _ _ h).trans ht
  · cases h; exact ht
theorem kept_egpCount (s : State) (u : Nat) (b : EgpBlk) (res : EgpRes) (zskip : Nat)
    : (egpCount s u b res zskip).kept = s.kept := Eq.trans rfl rfl
theorem kept_updateAnswer (s : State) (serial : Nat) (code : Nat) (n : Nat) : (updateAnswer s serial code n).kept = s.kept := by
  unfold updateAnswer
  try simp only [↓kept_setQueue, ↓kept_fenceForget, ↓kept_endReq, ↓kept_egpCount]
  all_goals repeat' (first
    | (split <;> try simp only [↓kept_setQueue, ↓kept_fenceForget, ↓kept_endReq, ↓kept_egpCount])
    | (intro _ _; try simp only [↓kept_setQueue, ↓kept_fenceForget, ↓kept_endReq, ↓kept_egpCount])
    | (with_reducible refine (kept_foldl _ ?_ _ _).trans ?_ <;> try simp only [↓kept_setQueue, ↓kept_fenceForget, ↓kept_endReq,
        ↓kept_egpCount])
    | (with_reducible refine (kept_egpFinish _ _ _ _ _ _  ‹_›).trans ?_ <;> try simp only [↓kept_setQueue, ↓kept_fenceForget, ↓kept_endReq,
        ↓kept_egpCount]))
theorem kept_setTab (s : State) (i : Nat) (o : Nat) (n : Nat) (v : Nat) : (setTab s i o n v).kept = s.kept := Eq.trans rfl rfl
theorem kept_fenceClose (s : State) (ti : Nat) (t : Tab) (c : Cmd) : (fenceClose s ti t c).kept = s.kept := by
  unfold fenceClose
  try simp only [↓kept_mk, ↓kept_fold, ↓kept_setTab, ↓kept_transmit]
  all_goals repeat' (first
    | (split <;> try simp only [↓kept_mk, ↓kept_fold, ↓kept_setTab, ↓kept_transmit])
    | (intro _ _; try simp only [↓kept_mk, ↓kept_fold, ↓kept_setTab, ↓kept_transmit])
    | (with_reducible refine (kept_foldl _ ?_ _ _).trans ?_ <;> try simp only [↓kept_mk, ↓kept_fold, ↓kept_setTab, ↓kept_transmit]))
theorem kept_sendUpdate (s : State) (u : Nat) (r : UReq) (i : EgpIn) : (sendUpdate s u r i).kept = s.kept := by
  unfold sendUpdate
  try simp only [↓kept_transmit, ↓kept_setQueue]
  all_goals repeat' (first
    | (intro _ _; try simp only [↓kept_transmit, ↓kept_setQueue])
    | (with_reducible refine (kept_foldl _ ?_ _ _).trans ?_ <;> try simp only [↓kept_transmit, ↓kept_setQueue]))
theorem kept_gatherRows (s : State) (r : UReq) (i : EgpIn) (stop : Nat) : (gatherRows s r i stop).1.kept = s.kept := by
  unfold gatherRows
  try simp only [↓kept_putRow]
  all_goals repeat' (first
    | (split <;> try simp only [↓kept_putRow])
    | (intro _ _; try simp only [↓kept_putRow])
    | (with_reducible refine (kept_foldl1 _ ?_ _ _).trans ?_ <;> try simp only [↓kept_putRow]))
theorem kept_logEntry (ti : Nat) (e : LogEnt) (s : State) : (logEntry ti e s).kept = s.kept := Eq.trans rfl rfl
theorem kept_addHeat (s : State) (u : Nat) (ti : Nat) (t : Tab) (r : Nat) (n : Nat) : (addHeat s u ti t r n).kept = s.kept := by
  simp only [addHeat, ↓kept_mk, ↓kept_fold, ↓kept_ite, ite_self]
theorem kept_countRead (s : State) (u : Nat) (ti : Nat) (r : Nat) : (countRead s u ti r).kept = s.kept := Eq.trans rfl rfl
theorem kept_egpServe (s : State) (u : Nat) (r : UReq) {w : State} {k : Nat} : (egpServe s u r) = .done w k → w.kept = s.kept := by
  intro h
  unfold egpServe at h
  try dsimp only at h
  repeat' split at h
  all_goals first | contradiction | (cases h; try simp only [↓kept_putDescBytes, ↓kept_egpCount, ↓kept_gatherRows, ↓kept_State_mapIo,
      ↓kept_logEntry, ↓kept_addHeat, ↓kept_countRead, ↓kept_putRow]) | skip
  all_goals repeat' (first
    | (split <;> try simp only [↓kept_putDescBytes, ↓kept_egpCount, ↓kept_gatherRows, ↓kept_State_mapIo, ↓kept_logEntry, ↓kept_addHeat,
        ↓kept_countRead, ↓kept_putRow])
    | (intro _ _; try simp only [↓kept_putDescBytes, ↓kept_egpCount, ↓kept_gatherRows, ↓kept_State_mapIo, ↓kept_logEntry, ↓kept_addHeat,
        ↓kept_countRead, ↓kept_putRow])
    | (with_reducible refine (kept_foldl _ ?_ _ _).trans ?_ <;> try simp only [↓kept_putDescBytes, ↓kept_egpCount, ↓kept_gatherRows,
        ↓kept_State_mapIo, ↓kept_logEntry, ↓kept_addHeat, ↓kept_countRead, ↓kept_putRow])
    | (with_reducible refine (kept_egpFinish _ _ _ _ _ _  ‹_›).trans ?_ <;> try simp only [↓kept_putDescBytes, ↓kept_egpCount,
        ↓kept_gatherRows, ↓kept_State_mapIo, ↓kept_logEntry, ↓kept_addHeat, ↓kept_countRead, ↓kept_putRow]))
theorem kept_egpStep (s : State) (u : Nat) (op : Nat) : (egpStep s u op).kept = s.kept := by
  unfold egpStep
  try simp only [↓kept_State_mapIo, ↓kept_sendUpdate, ↓kept_fenceForget, ↓kept_endReq]
  all_goals repeat' (first
    | (split <;> try simp only [↓kept_State_mapIo, ↓kept_sendUpdate, ↓kept_fenceForget, ↓kept_endReq])
    | (with_reducible refine (kept_egpServe _ _ _  ‹_›).trans ?_ <;> try simp only [↓kept_State_mapIo, ↓kept_sendUpdate, ↓kept_fenceForget, ↓kept_endReq]))
theorem kept_writeRow (s : State) (t : Tab) (row : Nat) (codes : List Nat) (p : Bool) : (writeRow s t row codes p).kept = s.kept := by
  unfold writeRow
  try simp only [↓kept_State_tWrite]
  all_goals repeat' (first
    | (split <;> try simp only [↓kept_State_tWrite])
    | (intro _ _; try simp only [↓kept_State_tWrite])
    | (with_reducible refine (kept_foldl _ ?_ _ _).trans ?_ <;> try simp only [↓kept_State_tWrite]))
theorem kept_dropReplicas (s : State) (ti : Nat) (row : Nat) : (dropReplicas s ti row).kept = s.kept := Eq.trans rfl rfl
theorem kept_fenceApply (s : State) (ti : Nat) : (fenceApply s ti).kept = s.kept := by
  unfold fenceApply
  try simp only [↓kept_State_mapIo, ↓kept_mk, ↓kept_fold, ↓kept_writeRow, ↓kept_dropReplicas, ↓kept_setFence]
  all_goals repeat' (first
    | (split <;> try simp only [↓kept_State_mapIo, ↓kept_mk, ↓kept_fold, ↓kept_writeRow, ↓kept_dropReplicas, ↓kept_setFence])
    | (intro _ _; try simp only [↓kept_State_mapIo, ↓kept_mk, ↓kept_fold, ↓kept_writeRow, ↓kept_dropReplicas, ↓kept_setFence])
    | (with_reducible refine (kept_foldl _ ?_ _ _).trans ?_ <;> try simp only [↓kept_State_mapIo, ↓kept_mk, ↓kept_fold, ↓kept_writeRow, ↓kept_dropReplicas,
        ↓kept_setFence]))
theorem kept_fenceOpen (s : State) (ti : Nat) : (fenceOpen s ti).kept = s.kept := by
  unfold fenceOpen
  repeat' split
  all_goals simp only [↓kept_mk, ↓kept_fold, ↓kept_setTab, ↓kept_State_mapIo, ↓kept_finish]
theorem kept_heatEpoch (s : State) : (heatEpoch s).kept = s.kept := by
  unfold heatEpoch
  try simp only [↓kept_mk, ↓kept_fold, ↓kept_State_mapIo]
  all_goals repeat' (first
    | (split <;> try simp only [↓kept_mk, ↓kept_fold, ↓kept_State_mapIo])
    | (intro _ _; try simp only [↓kept_mk, ↓kept_fold, ↓kept_State_mapIo])
    | (with_reducible refine (kept_foldl _ ?_ _ _).trans ?_ <;> try simp only [↓kept_mk, ↓kept_fold, ↓kept_State_mapIo]))
theorem kept_sealGroup (s : State) (g : Option Nat) : (sealGroup s g).kept = s.kept := by
  unfold sealGroup
  split <;> simp only [↓kept_mk, ↓kept_fold, ↓kept_groupReturn]
theorem kept_Src_put (x : Src) (s : State) (core : Nat) (first : Nat) (bs : List Byte) (p : Bool)
    : (Src.put x s core first bs p).kept = s.kept := by
  unfold Src.put
  split <;> simp only [↓kept_putDescBytes]
theorem kept_openGroup (s : State) (r : UReq) (tag : Nat) (w : Nat) : (openGroup s r tag w).1.kept = s.kept := by
  unfold openGroup
  repeat' split
  all_goals simp only [↓kept_mk, ↓kept_fold, ↓kept_ite, ite_self, ↓kept_State_setCore]
theorem kept_putRowOut (s : State) (core : Nat) (et : Nat) (mode : Nat) (val : Src) (oidx : Src) (row : Nat) (k : Nat) (p : Partial)
    : (putRowOut s core et mode val oidx row k p).1.kept = s.kept := by
  unfold putRowOut
  repeat' split
  all_goals simp only [↓kept_putRow]
theorem kept_winToken (s : State) (u : Nat) (r : UReq) (w : Nat) (g : Option Nat) (key : Nat) (val : Nat)
    : (winToken s u r w g key val).kept = s.kept := by
  simp only [winToken, ↓kept_mk, ↓kept_fold, ↓kept_ite, ite_self, ↓kept_offerToken, ↓kept_State_mapIo]
theorem kept_readRow (s : State) (r : UReq) (i : WinIn) (row : Nat) {m : Merged} {w : State} {k : Nat}
    : (readRow s r i row) = .row m w k → w.kept = s.kept := by
  intro h
  unfold readRow at h
  try dsimp only at h
  repeat' split at h
  all_goals first | contradiction | (cases h; try simp only [↓kept_Src_put]) | skip
  all_goals repeat' (first | with_reducible rfl)
theorem kept_countRow (s : State) (u : Nat) (b : WinBlk) (p : Partial) (passes : Nat)
    : (countRow s u b p passes).kept = s.kept := Eq.trans rfl rfl
theorem kept_winRow (u : Nat) (i : WinIn) (x : WinRun) (row : Nat) : (winRow u i x row).s.kept = x.s.kept := by
  unfold winRow
  try simp only [↓kept_Src_put, ↓kept_countRow, ↓kept_putRowOut, ↓kept_winToken]
  all_goals repeat' (first
    | (split <;> try simp only [↓kept_Src_put, ↓kept_countRow, ↓kept_putRowOut, ↓kept_winToken])
    | (intro _ _; try simp only [↓kept_Src_put, ↓kept_countRow, ↓kept_putRowOut, ↓kept_winToken])
    | (with_reducible refine (kept_foldl _ ?_ _ _).trans ?_ <;> try simp only [↓kept_Src_put, ↓kept_countRow, ↓kept_putRowOut,
        ↓kept_winToken])
    | (with_reducible refine (kept_readRow _ _ _ _  ‹_›).trans ?_ <;> try simp only [↓kept_Src_put, ↓kept_countRow, ↓kept_putRowOut,
        ↓kept_winToken]))
theorem kept_setMergeInst (s : State) (x : MergeInst) : (setMergeInst s x).kept = s.kept := Eq.trans rfl rfl
theorem kept_joinInst (s : State) (die : Nat) (g : Nat) (key : Nat) (rows : Nat)
    : (joinInst s die g key rows).2.2.2.kept = s.kept := Eq.trans rfl rfl
theorem kept_endMember (s : State) (u : Nat) (r : UReq) (code : Nat) : (endMember s u r code).kept = s.kept := by
  unfold endMember
  try simp only [↓kept_Src_put, ↓kept_State_mapIo, ↓kept_endReq]
  all_goals repeat' (first
    | (split <;> try simp only [↓kept_Src_put, ↓kept_State_mapIo, ↓kept_endReq])
    | (intro _ _; try simp only [↓kept_Src_put, ↓kept_State_mapIo, ↓kept_endReq])
    | (with_reducible refine (kept_foldl _ ?_ _ _).trans ?_ <;> try simp only [↓kept_Src_put, ↓kept_State_mapIo, ↓kept_endReq]))
theorem kept_mergeAbortOne (s : State) (die : Nat) (g : Nat) (n : Nat) : (mergeAbortOne s die g n).kept = s.kept := by
  unfold mergeAbortOne
  try simp only [↓kept_mk, ↓kept_fold, ↓kept_setMergeInst, ↓kept_State_mapIo, ↓kept_endMember]
  all_goals repeat' (first
    | (split <;> try simp only [↓kept_mk, ↓kept_fold, ↓kept_setMergeInst, ↓kept_State_mapIo, ↓kept_endMember])
    | (intro _ _; try simp only [↓kept_mk, ↓kept_fold, ↓kept_setMergeInst, ↓kept_State_mapIo, ↓kept_endMember])
    | (with_reducible refine (kept_foldl _ ?_ _ _).trans ?_ <;> try simp only [↓kept_mk, ↓kept_fold, ↓kept_setMergeInst, ↓kept_State_mapIo,
        ↓kept_endMember]))
theorem kept_mergeAbort (s : State) (die : Nat) (g : Nat) (n : Nat) : (mergeAbort s die g n).kept = s.kept := by
  unfold mergeAbort
  try simp only [↓kept_mergeAbortOne, ↓kept_setMergeInst]
  repeat' (first | with_reducible rfl | (split <;> try simp only [↓kept_mergeAbortOne, ↓kept_setMergeInst]))
theorem kept_dropMergeInst (s : State) (die : Nat) (g : Nat) (n : Nat) : (dropMergeInst s die g n).kept = s.kept := Eq.trans rfl rfl
theorem kept_writeInst (s : State) (g : MergeGroup) (ms : List Merged) (u : Nat) (r : UReq) {w : State}
    : (writeInst s g ms u r) = .ok w → w.kept = s.kept := by
  intro h
  unfold writeInst at h
  try dsimp only at h
  repeat' split at h
  all_goals first | contradiction | (cases h; try simp only [↓kept_openGroup, ↓kept_putRowOut, ↓kept_Src_put, ↓kept_winToken,
      ↓kept_sealGroup]) | skip
  all_goals repeat' (first
    | (intro _ _; try simp only [↓kept_openGroup, ↓kept_putRowOut, ↓kept_Src_put, ↓kept_winToken, ↓kept_sealGroup])
    | (with_reducible refine (kept_foldl _ ?_ _ _).trans ?_ <;> try simp only [↓kept_openGroup, ↓kept_putRowOut, ↓kept_Src_put,
        ↓kept_winToken, ↓kept_sealGroup]))
theorem kept_completeInsts (s : State) (die : Nat) (g : Nat) (x3 : Nat) : (completeInsts s die g x3).kept = s.kept := by
  induction x3 generalizing s die g with
  | zero => rfl
  | succ fuel ih =>
    rw [completeInsts]
    try simp only [↓kept_mk, ↓kept_fold, ↓kept_dropMergeInst, ↓kept_State_mapIo, ↓kept_endMember, ↓ih]
    all_goals repeat' (first
      | (split <;> try simp only [↓kept_mk, ↓kept_fold, ↓kept_dropMergeInst, ↓kept_State_mapIo, ↓kept_endMember, ↓ih])
      | (intro _ _; try simp only [↓kept_mk, ↓kept_fold, ↓kept_dropMergeInst, ↓kept_State_mapIo, ↓kept_endMember, ↓ih])
      | (with_reducible refine (kept_foldl _ ?_ _ _).trans ?_ <;> try simp only [↓kept_mk, ↓kept_fold, ↓kept_dropMergeInst,
          ↓kept_State_mapIo, ↓kept_endMember, ↓ih])
      | (with_reducible refine (kept_writeInst _ _ _ _ _  ‹_›).trans ?_ <;> try simp only [↓kept_mk, ↓kept_fold, ↓kept_dropMergeInst,
          ↓kept_State_mapIo, ↓kept_endMember, ↓ih]))
theorem kept_cancelOne (s : State) (egp : Bool) (u : Nat) (r : UReq) : (cancelOne s egp u r).kept = s.kept := by
  simp only [cancelOne, ↓kept_ite, ite_self, ↓kept_setQueue, ↓kept_fenceForget, ↓kept_sealGroup, ↓kept_joinInst, ↓kept_mergeAbort,
      ↓kept_completeInsts]
theorem kept_cancelReqs (s : State) (p : UReq → Bool) : (cancelReqs s p).kept = s.kept := by
  unfold cancelReqs
  try simp only [↓kept_mk, ↓kept_fold, ↓kept_cancelOne, ↓kept_completeInsts, ↓kept_mergeAbort]
  all_goals repeat' (first
    | (intro _ _; try simp only [↓kept_mk, ↓kept_fold, ↓kept_cancelOne, ↓kept_completeInsts, ↓kept_mergeAbort])
    | (with_reducible refine (kept_foldl _ ?_ _ _).trans ?_ <;> try simp only [↓kept_mk, ↓kept_fold, ↓kept_cancelOne, ↓kept_completeInsts,
        ↓kept_mergeAbort]))
theorem kept_stopRun (s : State) (id : Nat) (status : Nat) : (stopRun s id status).kept = s.kept := by
  unfold stopRun
  split <;> simp only [↓kept_mk, ↓kept_fold, ↓kept_cancelReqs, ↓kept_dropRef, ↓kept_finish]
theorem kept_resetRuns (s : State) (egp : Bool) (u : Nat) : (resetRuns s egp u).kept = s.kept := by
  unfold resetRuns
  exact kept_foldl _ (fun _ _ => kept_stopRun _ _ _) _ s
theorem kept_winStep (s : State) (u : Nat) (op : Nat) : (winStep s u op).kept = s.kept := by
  unfold winStep
  try simp only [↓kept_mk, ↓kept_fold, ↓kept_ite, ↓kept_ite1, ↓kept_ite2, ite_self, kept_fold, ↓startPage_burnt, ↓factorWiped_burnt,
      ↓burnt_ite, burnt_mk, burnt_fold, ↓kept_State_mapIo, ↓kept_Src_put, ↓kept_endReq, ↓kept_openGroup, ↓kept_winRow, ↓kept_setQueue,
      ↓kept_sealGroup, ↓kept_joinInst, ↓kept_completeInsts, ↓kept_endMember, ↓kept_pumpRuns, ↓kept_feedAll, ↓kept_iteW]
  all_goals repeat' (first
    | with_reducible rfl
    | assumption
    | (split <;> try simp only [↓kept_mk, ↓kept_fold, ↓kept_ite, ↓kept_ite1, ↓kept_ite2, ite_self, kept_fold, ↓startPage_burnt,
        ↓factorWiped_burnt, ↓burnt_ite, burnt_mk, burnt_fold, ↓kept_State_mapIo, ↓kept_Src_put, ↓kept_endReq, ↓kept_openGroup,
        ↓kept_winRow, ↓kept_setQueue, ↓kept_sealGroup, ↓kept_joinInst, ↓kept_completeInsts, ↓kept_endMember, ↓kept_pumpRuns, ↓kept_feedAll,
        ↓kept_iteW])
    | (intro _ _; try simp only [↓kept_mk, ↓kept_fold, ↓kept_ite, ↓kept_ite1, ↓kept_ite2, ite_self, kept_fold, ↓startPage_burnt,
        ↓factorWiped_burnt, ↓burnt_ite, burnt_mk, burnt_fold, ↓kept_State_mapIo, ↓kept_Src_put, ↓kept_endReq, ↓kept_openGroup,
        ↓kept_winRow, ↓kept_setQueue, ↓kept_sealGroup, ↓kept_joinInst, ↓kept_completeInsts, ↓kept_endMember, ↓kept_pumpRuns, ↓kept_feedAll,
        ↓kept_iteW])
    | (with_reducible refine (kept_foldl _ ?_ _ _).trans ?_ <;> try simp only [↓kept_mk, ↓kept_fold, ↓kept_ite, ↓kept_ite1, ↓kept_ite2,
        ite_self, kept_fold, ↓startPage_burnt, ↓factorWiped_burnt, ↓burnt_ite, burnt_mk, burnt_fold, ↓kept_State_mapIo, ↓kept_Src_put,
        ↓kept_endReq, ↓kept_openGroup, ↓kept_winRow, ↓kept_setQueue, ↓kept_sealGroup, ↓kept_joinInst, ↓kept_completeInsts, ↓kept_endMember,
        ↓kept_pumpRuns, ↓kept_feedAll, ↓kept_iteW])
    | (with_reducible refine (kept_foldl1 _ ?_ _ _).trans ?_ <;> try simp only [↓kept_mk, ↓kept_fold, ↓kept_ite, ↓kept_ite1, ↓kept_ite2,
        ite_self, kept_fold, ↓startPage_burnt, ↓factorWiped_burnt, ↓burnt_ite, burnt_mk, burnt_fold, ↓kept_State_mapIo, ↓kept_Src_put,
        ↓kept_endReq, ↓kept_openGroup, ↓kept_winRow, ↓kept_setQueue, ↓kept_sealGroup, ↓kept_joinInst, ↓kept_completeInsts, ↓kept_endMember,
        ↓kept_pumpRuns, ↓kept_feedAll, ↓kept_iteW])
    | (with_reducible refine (kept_foldlW _ ?_ _ _).trans ?_ <;> try simp only [↓kept_mk, ↓kept_fold, ↓kept_ite, ↓kept_ite1, ↓kept_ite2,
        ite_self, kept_fold, ↓startPage_burnt, ↓factorWiped_burnt, ↓burnt_ite, burnt_mk, burnt_fold, ↓kept_State_mapIo, ↓kept_Src_put,
        ↓kept_endReq, ↓kept_openGroup, ↓kept_winRow, ↓kept_setQueue, ↓kept_sealGroup, ↓kept_joinInst, ↓kept_completeInsts, ↓kept_endMember,
        ↓kept_pumpRuns, ↓kept_feedAll, ↓kept_iteW])
    | (with_reducible refine (kept_putEntry _ _ _ _ _  ‹_›).trans ?_ <;> try simp only [↓kept_mk, ↓kept_fold, ↓kept_ite, ↓kept_ite1,
        ↓kept_ite2, ite_self, kept_fold, ↓startPage_burnt, ↓factorWiped_burnt, ↓burnt_ite, burnt_mk, burnt_fold, ↓kept_State_mapIo,
        ↓kept_Src_put, ↓kept_endReq, ↓kept_openGroup, ↓kept_winRow, ↓kept_setQueue, ↓kept_sealGroup, ↓kept_joinInst, ↓kept_completeInsts,
        ↓kept_endMember, ↓kept_pumpRuns, ↓kept_feedAll, ↓kept_iteW])
    | (with_reducible refine (kept_of_fst ‹_›).trans ?_ <;> try simp only [↓kept_mk, ↓kept_fold, ↓kept_ite, ↓kept_ite1, ↓kept_ite2,
        ite_self, kept_fold, ↓startPage_burnt, ↓factorWiped_burnt, ↓burnt_ite, burnt_mk, burnt_fold, ↓kept_State_mapIo, ↓kept_Src_put,
        ↓kept_endReq, ↓kept_openGroup, ↓kept_winRow, ↓kept_setQueue, ↓kept_sealGroup, ↓kept_joinInst, ↓kept_completeInsts, ↓kept_endMember,
        ↓kept_pumpRuns, ↓kept_feedAll, ↓kept_iteW])
    | (with_reducible refine (kept_of_snd ‹_›).trans ?_ <;> try simp only [↓kept_mk, ↓kept_fold, ↓kept_ite, ↓kept_ite1, ↓kept_ite2,
        ite_self, kept_fold, ↓startPage_burnt, ↓factorWiped_burnt, ↓burnt_ite, burnt_mk, burnt_fold, ↓kept_State_mapIo, ↓kept_Src_put,
        ↓kept_endReq, ↓kept_openGroup, ↓kept_winRow, ↓kept_setQueue, ↓kept_sealGroup, ↓kept_joinInst, ↓kept_completeInsts, ↓kept_endMember,
        ↓kept_pumpRuns, ↓kept_feedAll, ↓kept_iteW]))
  all_goals
    rename_i he
    split at he
    · with_reducible refine (kept_putEntry _ _ _ _ _ he).trans ?_
      all_goals repeat' (first
        | with_reducible rfl
        | assumption
        | (split <;> try simp only [↓kept_mk, ↓kept_fold, ↓kept_ite, ↓kept_ite1, ↓kept_ite2, ite_self, kept_fold, ↓startPage_burnt,
            ↓factorWiped_burnt, ↓burnt_ite, burnt_mk, burnt_fold, ↓kept_State_mapIo, ↓kept_Src_put, ↓kept_endReq, ↓kept_openGroup,
            ↓kept_winRow, ↓kept_setQueue, ↓kept_sealGroup, ↓kept_joinInst, ↓kept_completeInsts, ↓kept_endMember, ↓kept_pumpRuns,
            ↓kept_feedAll, ↓kept_iteW])
        | (intro _ _; try simp only [↓kept_mk, ↓kept_fold, ↓kept_ite, ↓kept_ite1, ↓kept_ite2, ite_self, kept_fold, ↓startPage_burnt,
            ↓factorWiped_burnt, ↓burnt_ite, burnt_mk, burnt_fold, ↓kept_State_mapIo, ↓kept_Src_put, ↓kept_endReq, ↓kept_openGroup,
            ↓kept_winRow, ↓kept_setQueue, ↓kept_sealGroup, ↓kept_joinInst, ↓kept_completeInsts, ↓kept_endMember, ↓kept_pumpRuns,
            ↓kept_feedAll, ↓kept_iteW])
        | (with_reducible refine (kept_foldl _ ?_ _ _).trans ?_ <;> try simp only [↓kept_mk, ↓kept_fold, ↓kept_ite, ↓kept_ite1, ↓kept_ite2,
            ite_self, kept_fold, ↓startPage_burnt, ↓factorWiped_burnt, ↓burnt_ite, burnt_mk, burnt_fold, ↓kept_State_mapIo, ↓kept_Src_put,
            ↓kept_endReq, ↓kept_openGroup, ↓kept_winRow, ↓kept_setQueue, ↓kept_sealGroup, ↓kept_joinInst, ↓kept_completeInsts,
            ↓kept_endMember, ↓kept_pumpRuns, ↓kept_feedAll, ↓kept_iteW])
        | (with_reducible refine (kept_foldl1 _ ?_ _ _).trans ?_ <;> try simp only [↓kept_mk, ↓kept_fold, ↓kept_ite, ↓kept_ite1,
            ↓kept_ite2, ite_self, kept_fold, ↓startPage_burnt, ↓factorWiped_burnt, ↓burnt_ite, burnt_mk, burnt_fold, ↓kept_State_mapIo,
            ↓kept_Src_put, ↓kept_endReq, ↓kept_openGroup, ↓kept_winRow, ↓kept_setQueue, ↓kept_sealGroup, ↓kept_joinInst,
            ↓kept_completeInsts, ↓kept_endMember, ↓kept_pumpRuns, ↓kept_feedAll, ↓kept_iteW])
        | (with_reducible refine (kept_foldlW _ ?_ _ _).trans ?_ <;> try simp only [↓kept_mk, ↓kept_fold, ↓kept_ite, ↓kept_ite1,
            ↓kept_ite2, ite_self, kept_fold, ↓startPage_burnt, ↓factorWiped_burnt, ↓burnt_ite, burnt_mk, burnt_fold, ↓kept_State_mapIo,
            ↓kept_Src_put, ↓kept_endReq, ↓kept_openGroup, ↓kept_winRow, ↓kept_setQueue, ↓kept_sealGroup, ↓kept_joinInst,
            ↓kept_completeInsts, ↓kept_endMember, ↓kept_pumpRuns, ↓kept_feedAll, ↓kept_iteW])
        | (with_reducible refine (kept_putEntry _ _ _ _ _  ‹_›).trans ?_ <;> try simp only [↓kept_mk, ↓kept_fold, ↓kept_ite, ↓kept_ite1,
            ↓kept_ite2, ite_self, kept_fold, ↓startPage_burnt, ↓factorWiped_burnt, ↓burnt_ite, burnt_mk, burnt_fold, ↓kept_State_mapIo,
            ↓kept_Src_put, ↓kept_endReq, ↓kept_openGroup, ↓kept_winRow, ↓kept_setQueue, ↓kept_sealGroup, ↓kept_joinInst,
            ↓kept_completeInsts, ↓kept_endMember, ↓kept_pumpRuns, ↓kept_feedAll, ↓kept_iteW])
        | (with_reducible refine (kept_of_fst ‹_›).trans ?_ <;> try simp only [↓kept_mk, ↓kept_fold, ↓kept_ite, ↓kept_ite1, ↓kept_ite2,
            ite_self, kept_fold, ↓startPage_burnt, ↓factorWiped_burnt, ↓burnt_ite, burnt_mk, burnt_fold, ↓kept_State_mapIo, ↓kept_Src_put,
            ↓kept_endReq, ↓kept_openGroup, ↓kept_winRow, ↓kept_setQueue, ↓kept_sealGroup, ↓kept_joinInst, ↓kept_completeInsts,
            ↓kept_endMember, ↓kept_pumpRuns, ↓kept_feedAll, ↓kept_iteW])
        | (with_reducible refine (kept_of_snd ‹_›).trans ?_ <;> try simp only [↓kept_mk, ↓kept_fold, ↓kept_ite, ↓kept_ite1, ↓kept_ite2,
            ite_self, kept_fold, ↓startPage_burnt, ↓factorWiped_burnt, ↓burnt_ite, burnt_mk, burnt_fold, ↓kept_State_mapIo, ↓kept_Src_put,
            ↓kept_endReq, ↓kept_openGroup, ↓kept_winRow, ↓kept_setQueue, ↓kept_sealGroup, ↓kept_joinInst, ↓kept_completeInsts,
            ↓kept_endMember, ↓kept_pumpRuns, ↓kept_feedAll, ↓kept_iteW]))
    · cases he
      all_goals repeat' (first
        | with_reducible rfl
        | assumption
        | (split <;> try simp only [↓kept_mk, ↓kept_fold, ↓kept_ite, ↓kept_ite1, ↓kept_ite2, ite_self, kept_fold, ↓startPage_burnt,
            ↓factorWiped_burnt, ↓burnt_ite, burnt_mk, burnt_fold, ↓kept_State_mapIo, ↓kept_Src_put, ↓kept_endReq, ↓kept_openGroup,
            ↓kept_winRow, ↓kept_setQueue, ↓kept_sealGroup, ↓kept_joinInst, ↓kept_completeInsts, ↓kept_endMember, ↓kept_pumpRuns,
            ↓kept_feedAll, ↓kept_iteW])
        | (intro _ _; try simp only [↓kept_mk, ↓kept_fold, ↓kept_ite, ↓kept_ite1, ↓kept_ite2, ite_self, kept_fold, ↓startPage_burnt,
            ↓factorWiped_burnt, ↓burnt_ite, burnt_mk, burnt_fold, ↓kept_State_mapIo, ↓kept_Src_put, ↓kept_endReq, ↓kept_openGroup,
            ↓kept_winRow, ↓kept_setQueue, ↓kept_sealGroup, ↓kept_joinInst, ↓kept_completeInsts, ↓kept_endMember, ↓kept_pumpRuns,
            ↓kept_feedAll, ↓kept_iteW])
        | (with_reducible refine (kept_foldl _ ?_ _ _).trans ?_ <;> try simp only [↓kept_mk, ↓kept_fold, ↓kept_ite, ↓kept_ite1, ↓kept_ite2,
            ite_self, kept_fold, ↓startPage_burnt, ↓factorWiped_burnt, ↓burnt_ite, burnt_mk, burnt_fold, ↓kept_State_mapIo, ↓kept_Src_put,
            ↓kept_endReq, ↓kept_openGroup, ↓kept_winRow, ↓kept_setQueue, ↓kept_sealGroup, ↓kept_joinInst, ↓kept_completeInsts,
            ↓kept_endMember, ↓kept_pumpRuns, ↓kept_feedAll, ↓kept_iteW])
        | (with_reducible refine (kept_foldl1 _ ?_ _ _).trans ?_ <;> try simp only [↓kept_mk, ↓kept_fold, ↓kept_ite, ↓kept_ite1,
            ↓kept_ite2, ite_self, kept_fold, ↓startPage_burnt, ↓factorWiped_burnt, ↓burnt_ite, burnt_mk, burnt_fold, ↓kept_State_mapIo,
            ↓kept_Src_put, ↓kept_endReq, ↓kept_openGroup, ↓kept_winRow, ↓kept_setQueue, ↓kept_sealGroup, ↓kept_joinInst,
            ↓kept_completeInsts, ↓kept_endMember, ↓kept_pumpRuns, ↓kept_feedAll, ↓kept_iteW])
        | (with_reducible refine (kept_foldlW _ ?_ _ _).trans ?_ <;> try simp only [↓kept_mk, ↓kept_fold, ↓kept_ite, ↓kept_ite1,
            ↓kept_ite2, ite_self, kept_fold, ↓startPage_burnt, ↓factorWiped_burnt, ↓burnt_ite, burnt_mk, burnt_fold, ↓kept_State_mapIo,
            ↓kept_Src_put, ↓kept_endReq, ↓kept_openGroup, ↓kept_winRow, ↓kept_setQueue, ↓kept_sealGroup, ↓kept_joinInst,
            ↓kept_completeInsts, ↓kept_endMember, ↓kept_pumpRuns, ↓kept_feedAll, ↓kept_iteW])
        | (with_reducible refine (kept_putEntry _ _ _ _ _  ‹_›).trans ?_ <;> try simp only [↓kept_mk, ↓kept_fold, ↓kept_ite, ↓kept_ite1,
            ↓kept_ite2, ite_self, kept_fold, ↓startPage_burnt, ↓factorWiped_burnt, ↓burnt_ite, burnt_mk, burnt_fold, ↓kept_State_mapIo,
            ↓kept_Src_put, ↓kept_endReq, ↓kept_openGroup, ↓kept_winRow, ↓kept_setQueue, ↓kept_sealGroup, ↓kept_joinInst,
            ↓kept_completeInsts, ↓kept_endMember, ↓kept_pumpRuns, ↓kept_feedAll, ↓kept_iteW])
        | (with_reducible refine (kept_of_fst ‹_›).trans ?_ <;> try simp only [↓kept_mk, ↓kept_fold, ↓kept_ite, ↓kept_ite1, ↓kept_ite2,
            ite_self, kept_fold, ↓startPage_burnt, ↓factorWiped_burnt, ↓burnt_ite, burnt_mk, burnt_fold, ↓kept_State_mapIo, ↓kept_Src_put,
            ↓kept_endReq, ↓kept_openGroup, ↓kept_winRow, ↓kept_setQueue, ↓kept_sealGroup, ↓kept_joinInst, ↓kept_completeInsts,
            ↓kept_endMember, ↓kept_pumpRuns, ↓kept_feedAll, ↓kept_iteW])
        | (with_reducible refine (kept_of_snd ‹_›).trans ?_ <;> try simp only [↓kept_mk, ↓kept_fold, ↓kept_ite, ↓kept_ite1, ↓kept_ite2,
            ite_self, kept_fold, ↓startPage_burnt, ↓factorWiped_burnt, ↓burnt_ite, burnt_mk, burnt_fold, ↓kept_State_mapIo, ↓kept_Src_put,
            ↓kept_endReq, ↓kept_openGroup, ↓kept_winRow, ↓kept_setQueue, ↓kept_sealGroup, ↓kept_joinInst, ↓kept_completeInsts,
            ↓kept_endMember, ↓kept_pumpRuns, ↓kept_feedAll, ↓kept_iteW]))
theorem kept_mergeArrive (s : State) (die : Nat) (g : Nat) : (mergeArrive s die g).kept = s.kept := by
  unfold mergeArrive
  split <;> simp only [↓kept_mk, ↓kept_fold, ↓kept_setMergeInst, ↓kept_completeInsts]
theorem kept_setColl (s : State) (c : Coll) : (setColl s c).kept = s.kept := Eq.trans rfl rfl
theorem kept_collEnd (s : State) (c : Coll) (status : Nat) (result : List Byte) : (collEnd s c status result).kept = s.kept := by
  simp only [collEnd, ↓kept_mk, ↓kept_fold, ↓kept_finish, ↓kept_dropRefs]
theorem kept_collAbort (s : State) (c : Coll) (code : Nat) : (collAbort s c code).kept = s.kept := by
  unfold collAbort
  try simp only [↓kept_collEnd, ↓kept_transmit]
  all_goals repeat' (first
    | (split <;> try simp only [↓kept_collEnd, ↓kept_transmit])
    | (intro _ _; try simp only [↓kept_collEnd, ↓kept_transmit])
    | (with_reducible refine (kept_foldl _ ?_ _ _).trans ?_ <;> try simp only [↓kept_collEnd, ↓kept_transmit]))
theorem kept_collSend (s : State) (c : Coll) (a : Nat) (j : Nat) : (collSend s c a j).kept = s.kept := by
  unfold collSend
  try simp only [↓kept_transmit]
  all_goals repeat' (first
    | (split <;> try simp only [↓kept_transmit])
    | (intro _ _; try simp only [↓kept_transmit])
    | (with_reducible refine (kept_foldl _ ?_ _ _).trans ?_ <;> try simp only [↓kept_transmit]))
theorem kept_collPump (s : State) (g : Nat) (i : Nat) : (collPump s g i).kept = s.kept := by
  unfold collPump
  try simp only [↓kept_State_mapIo, ↓kept_setColl, ↓kept_transmit, ↓kept_collAbort, ↓kept_collSend]
  all_goals repeat' (first
    | (split <;> try simp only [↓kept_State_mapIo, ↓kept_setColl, ↓kept_transmit, ↓kept_collAbort, ↓kept_collSend])
    | (intro _ _; try simp only [↓kept_State_mapIo, ↓kept_setColl, ↓kept_transmit, ↓kept_collAbort, ↓kept_collSend])
    | (with_reducible refine (kept_foldl _ ?_ _ _).trans ?_ <;> try simp only [↓kept_State_mapIo, ↓kept_setColl, ↓kept_transmit, ↓kept_collAbort,
        ↓kept_collSend]))
theorem kept_collCtrl (s : State) (c : Coll) (src : Nat) (kind : Nat) (payload : List Byte)
    : (collCtrl s c src kind payload).kept = s.kept := by
  simp only [collCtrl, ↓kept_ite, ite_self, ↓kept_collEnd, ↓kept_collPump, ↓kept_setColl]
theorem kept_execCollRun (c : Cmd) (s : State) : OutKeeps s (execCollRun c s) := by
  unfold execCollRun
  try simp only [↓kept_mk, ↓kept_fold, ↓kept_refuse, ↓kept_takeRefs, ↓kept_collPump, ↓kept_collCtrl, ↓out_next]
  all_goals repeat' (first
    | (split <;> try simp only [↓kept_mk, ↓kept_fold, ↓kept_refuse, ↓kept_takeRefs, ↓kept_collPump, ↓kept_collCtrl, ↓out_next])
    | (intro _ _; try simp only [↓kept_mk, ↓kept_fold, ↓kept_refuse, ↓kept_takeRefs, ↓kept_collPump, ↓kept_collCtrl, ↓out_next])
    | (with_reducible refine (kept_foldl _ ?_ _ _).trans ?_ <;> try simp only [↓kept_mk, ↓kept_fold, ↓kept_refuse, ↓kept_takeRefs,
        ↓kept_collPump, ↓kept_collCtrl, ↓out_next]))
theorem kept_pumpColls (s : State) : (pumpColls s).kept = s.kept := by
  unfold pumpColls
  try simp only [↓kept_collPump]
  all_goals repeat' (first
    | (intro _ _; try simp only [↓kept_collPump])
    | (with_reducible refine (kept_foldl _ ?_ _ _).trans ?_ <;> try simp only [↓kept_collPump]))
theorem kept_execCollData (p : Pkt) (s : State) : OutKeeps s (execCollData p s) := by
  unfold execCollData
  try simp only [↓kept_e2eAccept, ↓kept_e2eReply, ↓kept_setColl, ↓out_next]
  repeat' (first | with_reducible rfl | (split <;> try simp only [↓kept_e2eAccept, ↓kept_e2eReply, ↓kept_setColl, ↓out_next]))
theorem kept_execCollCtrl (p : Pkt) (s : State) : OutKeeps s (execCollCtrl p s) := by
  unfold execCollCtrl
  try simp only [↓kept_mk, ↓kept_fold, ↓kept_e2eAccept, ↓kept_e2eReply, ↓kept_collCtrl, ↓out_next]
  repeat' (first
    | with_reducible rfl
    | (split <;> try simp only [↓kept_mk, ↓kept_fold, ↓kept_e2eAccept, ↓kept_e2eReply, ↓kept_collCtrl, ↓out_next]))
theorem kept_execGroupClear (c : Cmd) (s : State) : OutKeeps s (execGroupClear c s) := by
  unfold execGroupClear
  simp only [↓kept_mk, ↓kept_fold, ite_self, ↓kept_refuse, ↓kept_finish, ↓out_next, ↓out_ite]
  split <;> simp only [↓kept_mk, ↓kept_fold, ite_self, ↓kept_refuse, ↓kept_finish, ↓out_next, ↓out_ite]
theorem kept_putSpan (s : State) (d : Desc) (first : Nat) (codes : List Nat) (scales : List Byte) (bad : Nat → Bool)
    : (putSpan s d first codes scales bad).kept = s.kept := by
  unfold putSpan
  try simp only [↓kept_mk, ↓kept_fold, ↓kept_ite, ite_self, ↓kept_clearWhole, ↓kept_putElem, ↓kept_State_tWrite]
  all_goals repeat' (first
    | (intro _ _; try simp only [↓kept_mk, ↓kept_fold, ↓kept_ite, ite_self, ↓kept_clearWhole, ↓kept_putElem, ↓kept_State_tWrite])
    | (with_reducible refine (kept_foldl _ ?_ _ _).trans ?_ <;> try simp only [↓kept_mk, ↓kept_fold, ↓kept_ite, ite_self, ↓kept_clearWhole, ↓kept_putElem,
        ↓kept_State_tWrite]))
theorem kept_collPut (s : State) (d : Desc) (first : Nat) (n : Nat) (x : List Byte × (Nat → Bool))
    : (collPut s d first n x).kept = s.kept := by
  simp only [collPut, ↓kept_putSpan]
theorem kept_collWrite (s : State) (c : Coll) (rank : Nat) (G : Nat) : (collWrite s c rank G).kept = s.kept := by
  unfold collWrite
  try simp only [↓kept_collPut, ↓kept_putSpan]
  all_goals repeat' (first
    | (split <;> try simp only [↓kept_collPut, ↓kept_putSpan])
    | (intro _ _; try simp only [↓kept_collPut, ↓kept_putSpan])
    | (with_reducible refine (kept_foldl _ ?_ _ _).trans ?_ <;> try simp only [↓kept_collPut, ↓kept_putSpan]))
theorem kept_execCollTimeout (group : Nat) (inst : Nat) (s : State) : OutKeeps s (execCollTimeout group inst s) := by
  unfold execCollTimeout
  split <;> simp only [ite_self, ↓kept_collAbort, ↓out_next, ↓out_ite]
theorem kept_execGroupSet (c : Cmd) (s : State) : OutKeeps s (execGroupSet c s) := by
  unfold execGroupSet
  split <;> simp only [↓kept_mk, ↓kept_fold, ↓kept_refuse, ↓kept_finish, ↓out_next]
theorem kept_execCollComplete (group : Nat) (inst : Nat) (s : State) : OutKeeps s (execCollComplete group inst s) := by
  unfold execCollComplete
  try simp only [↓kept_State_mapIo, ↓kept_collPump, ↓kept_collAbort, ↓kept_collEnd, ↓kept_collWrite, ↓out_next]
  repeat' (first
    | with_reducible rfl
    | (split <;> try simp only [↓kept_State_mapIo, ↓kept_collPump, ↓kept_collAbort, ↓kept_collEnd, ↓kept_collWrite, ↓out_next]))
theorem kept_startGang (s : State) (g : Gang) : (startGang s g).kept = s.kept := by
  unfold startGang
  try simp only [↓kept_mk, ↓kept_fold, ↓kept_mapStrms, ↓kept_fetchMore]
  repeat' (first | with_reducible rfl | (split <;> try simp only [↓kept_mk, ↓kept_fold, ↓kept_mapStrms, ↓kept_fetchMore]))
theorem kept_joinGang (s : State) (n : Nat) (k : Nat) : (joinGang s n k).kept = s.kept := by
  simp only [joinGang, ↓kept_mk, ↓kept_fold, ↓kept_ite, ite_self, ↓kept_startGang, ↓kept_State_setStrm]
theorem kept_doOpen (s : State) (n : Nat) (k : Nat) (x : Strm) : (doOpen s n k x).kept = s.kept := by
  simp only [doOpen, ↓kept_ite, ite_self, ↓kept_takeRefs, ↓kept_State_setCore, ↓kept_State_setStrm, ↓kept_State_mapIo, ↓kept_joinGang,
      ↓kept_fetchMore]
theorem kept_openStrm (s : State) (n : Nat) (k : Nat) (o : Opener) (off : Nat) : (openStrm s n k o off).1.kept = s.kept := by
  unfold openStrm
  split <;> simp only [↓kept_doOpen, ↓kept_State_mapIo]
theorem kept_writeElem (s : State) (n : Nat) (k : Nat) (d : Desc) (t : Tile) (cs : List Nat) (p : Bool)
    : (writeElem s n k d t cs p).kept = s.kept := by
  simp only [writeElem, ↓kept_ite, ite_self, ↓kept_putElem, ↓kept_State_setStrm]
theorem kept_ringStep (s : State) (die : Nat) (set : Nat) : (ringStep s die set).kept = s.kept := by
  unfold ringStep
  try simp only [↓kept_mk, ↓kept_fold, ↓kept_State_setStrm, ↓kept_State_setCore]
  all_goals repeat' (first
    | (split <;> try simp only [↓kept_mk, ↓kept_fold, ↓kept_State_setStrm, ↓kept_State_setCore])
    | (intro _ _; try simp only [↓kept_mk, ↓kept_fold, ↓kept_State_setStrm, ↓kept_State_setCore])
    | (with_reducible refine (kept_foldl _ ?_ _ _).trans ?_ <;> try simp only [↓kept_mk, ↓kept_fold, ↓kept_State_setStrm,
        ↓kept_State_setCore]))
theorem kept_acquireWrite (s : State) (n : Nat) (k : Nat) : (acquireWrite s n k).1.kept = s.kept := by
  unfold acquireWrite
  try simp only [↓kept_State_setStrm, ↓kept_haltStrm, ↓kept_countOob]
  repeat' (first | with_reducible rfl | (split <;> try simp only [↓kept_State_setStrm, ↓kept_haltStrm, ↓kept_countOob]))
theorem kept_advanceWrite (s : State) (n : Nat) (k : Nat) : (advanceWrite s n k).1.kept = s.kept := by
  simp only [advanceWrite, ↓kept_ite, ite_self, ↓kept_writeMore, ↓kept_State_setStrm, ↓kept_acquireWrite]
theorem kept_acquireRead (s : State) (n : Nat) (k : Nat) : (acquireRead s n k).1.kept = s.kept := by
  unfold acquireRead
  simp only [↓kept_ite1, ite_self, ↓kept_State_setStrm, ↓kept_State_mapIo, ↓kept_fetchMore]
  split <;> simp only [↓kept_ite1, ite_self, ↓kept_State_setStrm, ↓kept_State_mapIo, ↓kept_fetchMore]
theorem kept_advanceRead (s : State) (n : Nat) (k : Nat) : (advanceRead s n k).1.kept = s.kept := by
  simp only [advanceRead, ↓kept_ite, ite_self, ↓kept_State_setStrm, ↓kept_acquireRead, ↓kept_fetchMore]
theorem kept_deliverLine (s : State) (r : LineReq) (ms : List (Nat × Nat)) : (deliverLine s r ms).kept = s.kept := by
  unfold deliverLine
  try simp only [↓kept_mk, ↓kept_fold, ↓kept_mapStrms, ↓kept_State_setStrm, ↓kept_State_setCore]
  all_goals repeat' (first
    | (split <;> try simp only [↓kept_mk, ↓kept_fold, ↓kept_mapStrms, ↓kept_State_setStrm, ↓kept_State_setCore])
    | (intro _ _; try simp only [↓kept_mk, ↓kept_fold, ↓kept_mapStrms, ↓kept_State_setStrm, ↓kept_State_setCore])
    | (with_reducible refine (kept_foldl _ ?_ _ _).trans ?_ <;> try simp only [↓kept_mk, ↓kept_fold, ↓kept_mapStrms, ↓kept_State_setStrm,
        ↓kept_State_setCore]))
theorem kept_writeTile (s : State) (n : Nat) (k : Nat) (d : Desc) (t : Tile) : (writeTile s n k d t).kept = s.kept := by
  unfold writeTile
  try simp only [↓kept_writeElem, ↓kept_State_tWrite]
  all_goals repeat' (first
    | (split <;> try simp only [↓kept_writeElem, ↓kept_State_tWrite])
    | (intro _ _; try simp only [↓kept_writeElem, ↓kept_State_tWrite])
    | (with_reducible refine (kept_foldl _ ?_ _ _).trans ?_ <;> try simp only [↓kept_writeElem, ↓kept_State_tWrite]))
theorem kept_ackTile (s : State) (n : Nat) (k : Nat) : (ackTile s n k).kept = s.kept := by
  unfold ackTile
  simp only [↓kept_mk, ↓kept_fold, ↓kept_ite, ite_self, ↓kept_writeTile, ↓kept_State_mapIo, ↓kept_State_setStrm, ↓kept_closeStrm,
      ↓kept_writeMore]
  split <;> simp only [↓kept_mk, ↓kept_fold, ↓kept_ite, ite_self, ↓kept_writeTile, ↓kept_State_mapIo, ↓kept_State_setStrm, ↓kept_closeStrm,
      ↓kept_writeMore]
theorem kept_grantLine (s : State) (arb : Block) : (grantLine s arb).kept = s.kept := by
  unfold grantLine
  simp only [↓kept_mk, ↓kept_fold]
  split <;> simp only [↓kept_mk, ↓kept_fold]
theorem kept_settleHalt (s : State) (n : Nat) (k : Nat) : (settleHalt s n k).kept = s.kept := by
  unfold settleHalt
  try simp only [↓kept_haltStrm, ↓kept_discard, ↓kept_State_setStrm]
  repeat' (first | with_reducible rfl | (split <;> try simp only [↓kept_haltStrm, ↓kept_discard, ↓kept_State_setStrm]))
theorem kept_returnLine (s : State) (r : LineReq) : (returnLine s r).kept = s.kept := by
  unfold returnLine
  simp only [↓kept_mk, ↓kept_fold, ↓kept_discard, ↓kept_deliverLine]
  split <;> simp only [↓kept_mk, ↓kept_fold, ↓kept_discard, ↓kept_deliverLine]
theorem kept_fenceDone (s : State) (n : Nat) : (fenceDone s n).kept = s.kept := by
  unfold fenceDone
  try simp only [↓kept_closeStrm, ↓kept_State_setCore, ↓kept_State_mapIo]
  all_goals repeat' (first
    | (intro _ _; try simp only [↓kept_closeStrm, ↓kept_State_setCore, ↓kept_State_mapIo])
    | (with_reducible refine (kept_foldl _ ?_ _ _).trans ?_ <;> try simp only [↓kept_closeStrm, ↓kept_State_setCore, ↓kept_State_mapIo]))
theorem kept_weaveElem (s : State) (w : WCopy) (bad : List Nat) (x : WElem) : (weaveElem s w bad x).kept = s.kept := by
  simp only [weaveElem, ↓kept_ite, ite_self, ↓kept_storeElem, ↓kept_State_tWrite]
theorem kept_weaveWrite (s : State) (w : WCopy) (bad : List Nat) (es : List WElem) : (weaveWrite s w bad es).kept = s.kept := by
  simp only [weaveWrite, ↓kept_clearWhole]
  exact kept_foldl _ (fun s x => kept_weaveElem s w bad x) es s
theorem kept_freeUpTo (s : State) (m : Nat) : (freeUpTo s m).2.kept = s.kept := rfl
theorem kept_weavePart (s : State) (w : WCopy) : (weavePart s w).1.kept = s.kept := by
  unfold weavePart
  simp only [↓kept_freeUpTo]
  refine kept_foldl1 _ (fun p l => ?_) _ _
  split <;> simp only [↓kept_weaveWrite, ↓kept_freeUpTo]
theorem kept_weaveEndCount (s : State) (u : Nat) (e : WeaveEnd) : (weaveEndCount s u e).kept = s.kept := by
  simp only [weaveEndCount, ↓kept_State_mapIo]
theorem kept_setWeaver (s : State) (u : Nat) (w : WeaverSt) : (setWeaver s u w).kept = s.kept := Eq.trans rfl rfl
theorem kept_weaveEnd (s : State) (u : Nat) (w : WCopy) (status : Nat) (flags : Nat) (read : Nat) (written : Nat) (faddr : Nat)
    : (weaveEnd s u w status flags read written faddr).kept = s.kept := by
  simp only [weaveEnd, ↓kept_setWeaver, ↓kept_dropRefs, ↓kept_finish]
theorem kept_stopCopies (s : State) (p : WCopy → Bool) (us : List Nat) (status : Nat) : (stopCopies s p us status).kept = s.kept := by
  unfold stopCopies
  try simp only [↓kept_State_mapIo, ↓kept_ite, ite_self, ↓kept_weaveEndCount, ↓kept_weavePart, ↓kept_weaveEnd]
  all_goals repeat' (first
    | (intro _ _; try simp only [↓kept_State_mapIo, ↓kept_ite, ite_self, ↓kept_weaveEndCount, ↓kept_weavePart, ↓kept_weaveEnd])
    | (with_reducible refine (kept_foldl _ ?_ _ _).trans ?_ <;> try simp only [↓kept_State_mapIo, ↓kept_ite, ite_self, ↓kept_weaveEndCount, ↓kept_weavePart, ↓kept_weaveEnd]))
theorem kept_weaveStart (s : State) (u : Nat) : (weaveStart s u).kept = s.kept := by
  unfold weaveStart
  simp only [↓kept_ite, ite_self, ↓kept_setWeaver]
  split <;> simp only [↓kept_ite, ite_self, ↓kept_setWeaver]
theorem kept_execWeaveCopyStart (unit : Nat) (s : State) : OutKeeps s (execWeaveCopyStart unit s) := by
  simp only [execWeaveCopyStart, ↓kept_weaveStart, ↓out_next]
theorem kept_weaveRun (s : State) (c : Cmd) : (weaveRun s c).kept = s.kept := by
  unfold weaveRun
  repeat' split
  all_goals simp only [↓kept_mk, ↓kept_fold, ↓kept_ite, ite_self, ↓kept_finish, ↓kept_State_mapIo, ↓kept_takeRefs, ↓kept_setWeaver]
theorem kept_weaveDone (s : State) (u : Nat) (serial : Nat) : (weaveDone s u serial).kept = s.kept := by
  unfold weaveDone
  try simp only [↓kept_ite, ite_self, ↓kept_weaveEndCount, ↓kept_weavePart, ↓kept_State_mapIo, ↓kept_weaveEnd, ↓kept_weaveWrite]
  all_goals repeat' (first
    | (split <;> try simp only [↓kept_ite, ite_self, ↓kept_weaveEndCount, ↓kept_weavePart, ↓kept_State_mapIo, ↓kept_weaveEnd, ↓kept_weaveWrite])
    | (intro _ _; try simp only [↓kept_ite, ite_self, ↓kept_weaveEndCount, ↓kept_weavePart, ↓kept_State_mapIo, ↓kept_weaveEnd, ↓kept_weaveWrite])
    | (with_reducible refine (kept_foldl _ ?_ _ _).trans ?_ <;> try simp only [↓kept_ite, ite_self, ↓kept_weaveEndCount, ↓kept_weavePart, ↓kept_State_mapIo, ↓kept_weaveEnd,
        ↓kept_weaveWrite]))
theorem kept_execWeaveCopyDone (unit : Nat) (serial : Nat) (s : State) : OutKeeps s (execWeaveCopyDone unit serial s) := by
  simp only [execWeaveCopyDone, ↓kept_weaveDone, ↓out_next]
theorem kept_execWeave (c : Cmd) (s : State) : OutKeeps s (execWeave c s) := by
  simp only [execWeave, ↓kept_weaveRun, ↓out_next]

end Sys2Proof.Machine
end

