-- ==== Sys2Proof/Laws/KeptWork.lean ====
section
/-! SUPPORT. Frames of core control, cancelling, contexts, descriptors and the admission test: each keeps `State.kept`. -/

namespace Sys2Proof.Machine

set_option linter.unusedSimpArgs false
set_option linter.unnecessarySeqFocus false
set_option linter.unreachableTactic false
set_option linter.unusedTactic false

theorem kept_takeNext (s : State) (n : Nat) {w : Task × State} : (takeNext s n) = some w → w.2.kept = s.kept := by
  intro h
  unfold takeNext at h
  try dsimp only at h
  repeat' split at h
  all_goals first | contradiction | (cases h; try simp only [↓kept_State_setCaller]) | skip
  all_goals repeat' (first | with_reducible rfl)
theorem kept_dropTask (s : State) (t : Task) (core : Nat) (outcome : Nat) : (dropTask s t core outcome).kept = s.kept := by
  unfold dropTask
  try simp only [↓kept_cancelStrm, ↓kept_State_setCore, ↓kept_State_mapCaller]
  all_goals repeat' (first
    | (intro _ _; try simp only [↓kept_cancelStrm, ↓kept_State_setCore, ↓kept_State_mapCaller])
    | (with_reducible refine (kept_foldl _ ?_ _ _).trans ?_ <;> try simp only [↓kept_cancelStrm, ↓kept_State_setCore,
        ↓kept_State_mapCaller]))
theorem kept_leaveTask (s : State) (n : Nat) (outcome : Nat) (info : Nat) (retire : Bool) (run : CoreRun)
    : (leaveTask s n outcome info retire run).kept = s.kept := by
  unfold leaveTask
  try simp only [↓kept_State_mapIo, ↓kept_setSeq, ↓kept_State_setCore, ↓kept_setMode, ↓kept_State_mapCaller]
  repeat' (first
    | with_reducible rfl
    | (split <;> try simp only [↓kept_State_mapIo, ↓kept_setSeq, ↓kept_State_setCore, ↓kept_setMode, ↓kept_State_mapCaller]))
theorem kept_bindSlot (s : State) (n : Nat) (t : Task) : (bindSlot s n t).1.kept = s.kept := by
  unfold bindSlot
  split <;> simp only [↓kept_ite, ite_self, ↓kept_State_setCore, ↓kept_State_mapIo, ↓kept_setSeq]
theorem kept_startSeq (s : State) (n : Nat) (t : Task) : (startSeq s n t).1.kept = s.kept := by
  unfold startSeq
  simp only [↓kept_ite1, ite_self, ↓kept_bindSlot, ↓kept_setSeq]
  split <;> simp only [↓kept_ite1, ite_self, ↓kept_bindSlot, ↓kept_setSeq]
theorem kept_putPre (s : State) (n : Nat) (t : Task) (st : Nat) (off : Nat) (code : Option Nat)
    : (putPre s n t st off code).kept = s.kept := Eq.trans rfl rfl
theorem kept_preOpenOne (final : Bool) (n : Nat) (t : Task) (s : State) (e : Nat × Nat) : (preOpenOne final n t s e).kept = s.kept := by
  simp only [preOpenOne, ↓kept_ite, ite_self, ↓kept_putPre, ↓kept_openStrm]
theorem kept_preOpenAll (s : State) (n : Nat) (t : Task) (final : Bool) : (preOpenAll s n t final).kept = s.kept := by
  unfold preOpenAll
  try simp only [↓kept_preOpenOne]
  all_goals repeat' (first
    | (intro _ _; try simp only [↓kept_preOpenOne])
    | (with_reducible refine (kept_foldl _ ?_ _ _).trans ?_ <;> try simp only [↓kept_preOpenOne]))
theorem kept_startTask (s : State) (n : Nat) (t : Task) : (startTask s n t).kept = s.kept := by
  unfold startTask
  try simp only [↓kept_startSeq, ↓kept_State_setCore, ↓kept_State_mapIo, ↓kept_setInst, ↓kept_touchCn, ↓kept_preOpenAll]
  repeat' (first
    | with_reducible rfl
    | (split <;> try simp only [↓kept_startSeq, ↓kept_State_setCore, ↓kept_State_mapIo, ↓kept_setInst, ↓kept_touchCn, ↓kept_preOpenAll]))
theorem kept_startNext (s : State) (n : Nat) : (startNext s n).kept = s.kept := by
  unfold startNext
  try simp only [↓kept_startTask]
  all_goals repeat' (first
    | (split <;> try simp only [↓kept_startTask])
    | (with_reducible refine (kept_takeNext _ _  ‹_›).trans ?_ <;> try simp only [↓kept_startTask]))
theorem kept_pedStatus (s : State) (n : Nat) (blk : Nat) (code : Nat) : (pedStatus s n blk code).kept = s.kept := Eq.trans rfl rfl
theorem kept_dropPeds (s : State) (n : Nat) : (dropPeds s n).kept = s.kept := by
  unfold dropPeds
  try simp only [↓kept_pedStatus, ↓kept_State_setCore]
  all_goals repeat' (first
    | (intro _ _; try simp only [↓kept_pedStatus, ↓kept_State_setCore])
    | (with_reducible refine (kept_foldl _ ?_ _ _).trans ?_ <;> try simp only [↓kept_pedStatus, ↓kept_State_setCore]))
theorem kept_stopWork (s : State) (n : Nat) (id : Nat) : (stopWork s n id).kept = s.kept := by
  unfold stopWork
  try simp only [↓kept_cancelStrm, ↓kept_dropPeds, ↓kept_State_mapCaller, ↓kept_State_setCore]
  all_goals repeat' (first
    | (intro _ _; try simp only [↓kept_cancelStrm, ↓kept_dropPeds, ↓kept_State_mapCaller, ↓kept_State_setCore])
    | (with_reducible refine (kept_foldl _ ?_ _ _).trans ?_ <;> try simp only [↓kept_cancelStrm, ↓kept_dropPeds, ↓kept_State_mapCaller,
        ↓kept_State_setCore]))
theorem kept_abortTask (s : State) (n : Nat) (outcome : Nat) (info : Nat) : (abortTask s n outcome info).kept = s.kept := by
  unfold abortTask
  split <;> simp only [↓kept_startNext, ↓kept_State_setCore, ↓kept_leaveTask, ↓kept_stopWork]
theorem kept_instStop (s : State) (x : FusedInst) : (instStop s x).kept = s.kept := by
  unfold instStop
  try simp only [↓kept_mk, ↓kept_fold, ↓kept_dropTask, ↓kept_State_mapCaller, ↓kept_abortTask, ↓kept_cancelReqs, ↓kept_setInst]
  all_goals repeat' (first
    | (split <;> try simp only [↓kept_mk, ↓kept_fold, ↓kept_dropTask, ↓kept_State_mapCaller, ↓kept_abortTask, ↓kept_cancelReqs,
        ↓kept_setInst])
    | (intro _ _; try simp only [↓kept_mk, ↓kept_fold, ↓kept_dropTask, ↓kept_State_mapCaller, ↓kept_abortTask, ↓kept_cancelReqs,
        ↓kept_setInst])
    | (with_reducible refine (kept_foldl _ ?_ _ _).trans ?_ <;> try simp only [↓kept_mk, ↓kept_fold, ↓kept_dropTask, ↓kept_State_mapCaller,
        ↓kept_abortTask, ↓kept_cancelReqs, ↓kept_setInst]))
theorem kept_instComplete (s : State) (x : FusedInst) (outcome : Nat) (info : Nat) : (instComplete s x outcome info).kept = s.kept := by
  unfold instComplete
  split <;> simp only [↓kept_mk, ↓kept_fold, ↓kept_ite, ite_self, ↓kept_finish, ↓kept_postRecord]
theorem kept_instEnd (s : State) (x : FusedInst) : (instEnd s x).kept = s.kept := by
  unfold instEnd
  repeat' split
  all_goals simp only [↓kept_instComplete, ↓kept_endPos, ↓kept_setInst]
theorem kept_settle (s : State) (x1 : Nat) : (settle s x1).kept = s.kept := by
  induction x1 generalizing s with
  | zero => rfl
  | succ fuel ih =>
    rw [settle]
    try simp only [↓kept_instStop, ↓kept_instEnd, ↓ih]
    all_goals repeat' (first | (split <;> try simp only [↓kept_instStop, ↓kept_instEnd, ↓ih]))
theorem kept_settleAll (s : State) : (settleAll s).kept = s.kept := by
  simp only [settleAll, ↓kept_settle]
theorem kept_roundEnd (s : State) (id : Nat) : (roundEnd s id).kept = s.kept := Eq.trans rfl rfl
theorem kept_reportOne (s : State) (die : Nat) (e : Ended) : (reportOne s die e).kept = s.kept := by
  unfold reportOne
  try simp only [↓kept_ite, ite_self, ↓kept_State_mapCaller, ↓kept_setSeq, ↓kept_stageFail, ↓kept_setInst, ↓kept_freeEntry,
      ↓kept_routeDone, ↓kept_countNotOk, ↓kept_State_mapIo, ↓kept_flowRecord, ↓kept_endPos, ↓kept_passRecords, ↓kept_feedAll,
      ↓kept_roundEnd]
  all_goals repeat' (first
    | (split <;> try simp only [↓kept_ite, ite_self, ↓kept_State_mapCaller, ↓kept_setSeq, ↓kept_stageFail, ↓kept_setInst, ↓kept_freeEntry,
        ↓kept_routeDone, ↓kept_countNotOk, ↓kept_State_mapIo, ↓kept_flowRecord, ↓kept_endPos, ↓kept_passRecords, ↓kept_feedAll,
        ↓kept_roundEnd])
    | (intro _ _; try simp only [↓kept_ite, ite_self, ↓kept_State_mapCaller, ↓kept_setSeq, ↓kept_stageFail, ↓kept_setInst, ↓kept_freeEntry,
        ↓kept_routeDone, ↓kept_countNotOk, ↓kept_State_mapIo, ↓kept_flowRecord, ↓kept_endPos, ↓kept_passRecords, ↓kept_feedAll,
        ↓kept_roundEnd])
    | (with_reducible refine (kept_foldl _ ?_ _ _).trans ?_ <;> try simp only [↓kept_ite, ite_self, ↓kept_State_mapCaller, ↓kept_setSeq,
        ↓kept_stageFail, ↓kept_setInst, ↓kept_freeEntry, ↓kept_routeDone, ↓kept_countNotOk, ↓kept_State_mapIo, ↓kept_flowRecord,
        ↓kept_endPos, ↓kept_passRecords, ↓kept_feedAll, ↓kept_roundEnd]))
theorem kept_reportAll (s : State) (x1 : Nat) : (reportAll s x1).kept = s.kept := by
  induction x1 generalizing s with
  | zero => rfl
  | succ fuel ih =>
    rw [reportAll]
    try simp only [↓kept_settleAll, ↓kept_reportOne, ↓ih]
    all_goals repeat' (first | (split <;> try simp only [↓kept_settleAll, ↓kept_reportOne, ↓ih]))
theorem kept_housekeep (s : State) : (housekeep s).kept = s.kept := by
  simp only [housekeep, ↓kept_reportAll]
theorem kept_retryFlow (s : State) (die : Nat) : (retryFlow s die).kept = s.kept := by
  unfold retryFlow
  try simp only [↓kept_formAll]
  all_goals repeat' (first
    | (intro _ _; try simp only [↓kept_formAll])
    | (with_reducible refine (kept_foldl _ ?_ _ _).trans ?_ <;> try simp only [↓kept_formAll]))
theorem kept_releaseOne (s : State) (die : Nat) (f : Nat) {w : State} : (releaseOne s die f) = some w → w.kept = s.kept := by
  intro h
  unfold releaseOne at h
  try dsimp only at h
  repeat' split at h
  all_goals first | contradiction | (cases h; try simp only [↓kept_State_mapCaller, ↓kept_deliver, ↓kept_sendEmit, ↓kept_stageFail,
      ↓kept_postRecord, ↓kept_instComplete, ↓kept_passRecords, ↓kept_retryFlow, ↓kept_State_mapIo]) | skip
  all_goals repeat' (first
    | (split <;> try simp only [↓kept_State_mapCaller, ↓kept_deliver, ↓kept_sendEmit, ↓kept_stageFail, ↓kept_postRecord,
        ↓kept_instComplete, ↓kept_passRecords, ↓kept_retryFlow, ↓kept_State_mapIo])
    | (intro _ _; try simp only [↓kept_State_mapCaller, ↓kept_deliver, ↓kept_sendEmit, ↓kept_stageFail, ↓kept_postRecord,
        ↓kept_instComplete, ↓kept_passRecords, ↓kept_retryFlow, ↓kept_State_mapIo])
    | (with_reducible refine (kept_foldl _ ?_ _ _).trans ?_ <;> try simp only [↓kept_State_mapCaller, ↓kept_deliver, ↓kept_sendEmit,
        ↓kept_stageFail, ↓kept_postRecord, ↓kept_instComplete, ↓kept_passRecords, ↓kept_retryFlow, ↓kept_State_mapIo])
    | (with_reducible refine (kept_foldl1 _ ?_ _ _).trans ?_ <;> try simp only [↓kept_State_mapCaller, ↓kept_deliver, ↓kept_sendEmit,
        ↓kept_stageFail, ↓kept_postRecord, ↓kept_instComplete, ↓kept_passRecords, ↓kept_retryFlow, ↓kept_State_mapIo])
    | (with_reducible refine (kept_of_fst ‹_›).trans ?_ <;> try simp only [↓kept_State_mapCaller, ↓kept_deliver, ↓kept_sendEmit,
        ↓kept_stageFail, ↓kept_postRecord, ↓kept_instComplete, ↓kept_passRecords, ↓kept_retryFlow, ↓kept_State_mapIo]))
theorem kept_releaseFlow (s : State) (die : Nat) (f : Nat) (x3 : Nat) : (releaseFlow s die f x3).kept = s.kept := by
  induction x3 generalizing s die f with
  | zero => rfl
  | succ fuel ih =>
    rw [releaseFlow]
    try simp only [↓ih]
    all_goals repeat' (first
      | (split <;> try simp only [↓ih])
      | (with_reducible refine (kept_releaseOne _ _ _  ‹_›).trans ?_ <;> try simp only [↓ih]))
theorem kept_formRound (s : State) (die : Nat) : (formRound s die).kept = s.kept := by
  unfold formRound
  try simp only [↓kept_mk, ↓kept_fold, ↓kept_dropTimer, ↓kept_queueTask, ↓kept_makeTask]
  all_goals repeat' (first
    | (split <;> try simp only [↓kept_mk, ↓kept_fold, ↓kept_dropTimer, ↓kept_queueTask, ↓kept_makeTask])
    | (intro _ _; try simp only [↓kept_mk, ↓kept_fold, ↓kept_dropTimer, ↓kept_queueTask, ↓kept_makeTask])
    | (with_reducible refine (kept_foldl _ ?_ _ _).trans ?_ <;> try simp only [↓kept_mk, ↓kept_fold, ↓kept_dropTimer, ↓kept_queueTask,
        ↓kept_makeTask])
    | (with_reducible refine (kept_foldl1 _ ?_ _ _).trans ?_ <;> try simp only [↓kept_mk, ↓kept_fold, ↓kept_dropTimer, ↓kept_queueTask,
        ↓kept_makeTask]))
theorem kept_execFlowRelease (die : Nat) (flow : Nat) (s : State) : OutKeeps s (execFlowRelease die flow s) := by
  simp only [execFlowRelease, ↓kept_housekeep, ↓kept_releaseFlow, ↓out_next]
theorem kept_placeTask (s : State) (t : Task) (n : Nat) (now : Bool) : (placeTask s t n now).kept = s.kept := by
  simp only [placeTask, ↓kept_ite, ite_self, ↓kept_State_mapCaller, ↓kept_State_mapIo, ↓kept_touchCn, ↓kept_startTask, ↓kept_preOpenAll]
theorem kept_refill (s : State) (n : Nat) : (refill s n).kept = s.kept := by
  unfold refill
  try simp only [↓kept_placeTask]
  repeat' (first | with_reducible rfl | (split <;> try simp only [↓kept_placeTask]))
theorem kept_refillAll (s : State) (die : Nat) : (refillAll s die).kept = s.kept := by
  unfold refillAll
  try simp only [↓kept_refill, ↓kept_State_setCore]
  all_goals repeat' (first
    | (intro _ _; try simp only [↓kept_refill, ↓kept_State_setCore])
    | (with_reducible refine (kept_foldl _ ?_ _ _).trans ?_ <;> try simp only [↓kept_refill, ↓kept_State_setCore]))
theorem kept_dropStale (s : State) (die : Nat) : (dropStale s die).kept = s.kept := by
  unfold dropStale
  try simp only [↓kept_State_mapIo, ↓kept_dropTask]
  all_goals repeat' (first
    | (intro _ _; try simp only [↓kept_State_mapIo, ↓kept_dropTask])
    | (with_reducible refine (kept_foldl _ ?_ _ _).trans ?_ <;> try simp only [↓kept_State_mapIo, ↓kept_dropTask]))
theorem kept_dispatchOne (s : State) (die : Nat) : (dispatchOne s die).kept = s.kept := by
  unfold dispatchOne
  try simp only [↓kept_refillAll, ↓kept_housekeep, ↓kept_dropStale, ↓kept_formRound, ↓kept_placeTask]
  repeat' (first
    | with_reducible rfl
    | (split <;> try simp only [↓kept_refillAll, ↓kept_housekeep, ↓kept_dropStale, ↓kept_formRound, ↓kept_placeTask]))
theorem kept_execDispatch (die : Nat) (s : State) : OutKeeps s (execDispatch die s) := by
  simp only [execDispatch, ↓kept_dispatchOne, ↓out_next]
theorem kept_execRoundWaitExpiry (die : Nat) (set : Nat) (s : State) : OutKeeps s (execRoundWaitExpiry die set s) := by
  simp only [execRoundWaitExpiry, ↓kept_mk, ↓kept_fold, ite_self, ↓kept_State_mapCaller, ↓kept_formRound, ↓out_next, ↓out_ite]
theorem kept_releaseAll (s : State) : (releaseAll s).kept = s.kept := by
  unfold releaseAll
  try simp only [↓kept_releaseFlow]
  all_goals repeat' (first
    | (intro _ _; try simp only [↓kept_releaseFlow])
    | (with_reducible refine (kept_foldl _ ?_ _ _).trans ?_ <;> try simp only [↓kept_releaseFlow]))
theorem kept_freeFlow (s : State) (die : Nat) (f : Option Nat) : (freeFlow s die f).kept = s.kept := by
  unfold freeFlow
  split <;> simp only [↓kept_State_mapCaller]
theorem kept_unbindSess (s : State) (n : Nat) : (unbindSess s n).kept = s.kept := by
  unfold unbindSess
  split <;> simp only [↓kept_mk, ↓kept_fold, ↓kept_setIngress, ↓kept_freeFlow]
theorem kept_unbindInbox (s : State) (n : Nat) : (unbindInbox s n).kept = s.kept := by
  unfold unbindInbox
  split <;> simp only [↓kept_mk, ↓kept_fold, ↓kept_setIngress, ↓kept_freeFlow]
theorem kept_closeContext (s : State) (cn : Nat) : (closeContext s cn).kept = s.kept := by
  unfold closeContext
  try simp only [↓kept_mk, ↓kept_fold, ↓kept_unbindSess, ↓kept_unbindInbox, ↓kept_State_setCtx, ↓kept_freeRegion, ↓kept_finish]
  all_goals repeat' (first
    | (split <;> try simp only [↓kept_mk, ↓kept_fold, ↓kept_unbindSess, ↓kept_unbindInbox, ↓kept_State_setCtx, ↓kept_freeRegion,
        ↓kept_finish])
    | (intro _ _; try simp only [↓kept_mk, ↓kept_fold, ↓kept_unbindSess, ↓kept_unbindInbox, ↓kept_State_setCtx, ↓kept_freeRegion,
        ↓kept_finish])
    | (with_reducible refine (kept_foldl _ ?_ _ _).trans ?_ <;> try simp only [↓kept_mk, ↓kept_fold, ↓kept_unbindSess, ↓kept_unbindInbox,
        ↓kept_State_setCtx, ↓kept_freeRegion, ↓kept_finish]))
theorem kept_finishCancels (s : State) : (finishCancels s).kept = s.kept := by
  unfold finishCancels
  try simp only [↓kept_mk, ↓kept_fold, ↓kept_ite, ite_self, ↓kept_releaseAll, ↓kept_housekeep, ↓kept_closeContext, ↓kept_finish]
  all_goals repeat' (first
    | (intro _ _; try simp only [↓kept_mk, ↓kept_fold, ↓kept_ite, ite_self, ↓kept_releaseAll, ↓kept_housekeep, ↓kept_closeContext,
        ↓kept_finish])
    | (with_reducible refine (kept_foldl _ ?_ _ _).trans ?_ <;> try simp only [↓kept_mk, ↓kept_fold, ↓kept_ite, ite_self, ↓kept_releaseAll,
        ↓kept_housekeep, ↓kept_closeContext, ↓kept_finish]))
theorem kept_cancelInst (s : State) (i : Nat) : (cancelInst s i).1.kept = s.kept := by
  unfold cancelInst
  split <;> simp only [↓kept_ite1, ite_self, ↓kept_setInst, ↓kept_State_mapIo, ↓kept_settleAll, ↓kept_instStop]
theorem kept_dropTokens (s : State) (p : Token → Bool) : (dropTokens s p).kept = s.kept := by
  unfold dropTokens
  try simp only [↓kept_mk, ↓kept_fold, ↓kept_passRecords, ↓kept_State_mapCaller, ↓kept_routeDone, ↓kept_finish]
  all_goals repeat' (first
    | (split <;> try simp only [↓kept_mk, ↓kept_fold, ↓kept_passRecords, ↓kept_State_mapCaller, ↓kept_routeDone, ↓kept_finish])
    | (intro _ _; try simp only [↓kept_mk, ↓kept_fold, ↓kept_passRecords, ↓kept_State_mapCaller, ↓kept_routeDone, ↓kept_finish])
    | (with_reducible refine (kept_foldl _ ?_ _ _).trans ?_ <;> try simp only [↓kept_mk, ↓kept_fold, ↓kept_passRecords,
        ↓kept_State_mapCaller, ↓kept_routeDone, ↓kept_finish]))
theorem kept_stopCmd (s : State) (r : CmdRun) : (stopCmd s r).1.kept = s.kept := by
  unfold stopCmd
  try simp only [↓kept_finish, ↓kept_cancelInst, ↓kept_dropTokens, ↓kept_stopRun, ↓kept_setFence, ↓kept_stopCopies, ↓kept_collAbort,
      ↓kept_State_setCtx]
  repeat' (first
    | with_reducible rfl
    | (split <;> try simp only [↓kept_finish, ↓kept_cancelInst, ↓kept_dropTokens, ↓kept_stopRun, ↓kept_setFence, ↓kept_stopCopies,
        ↓kept_collAbort, ↓kept_State_setCtx]))
theorem kept_stopCmds (s : State) (p : CmdRun → Bool) : (stopCmds s p).1.kept = s.kept := by
  unfold stopCmds
  try simp only [↓kept_ite1, ite_self, ↓kept_stopCmd]
  all_goals repeat' (first
    | (intro _ _; try simp only [↓kept_ite1, ite_self, ↓kept_stopCmd])
    | (with_reducible refine (kept_foldl1 _ ?_ _ _).trans ?_ <;> try simp only [↓kept_ite1, ite_self, ↓kept_stopCmd]))
theorem kept_dropFired (s : State) (t : Task) : (dropFired s t).kept = s.kept := by
  simp only [dropFired, ↓kept_mk, ↓kept_fold, ↓kept_dropTask]
theorem kept_cancelTask (s : State) (t : Task) (core : Option Nat) : (cancelTask s t core).1.kept = s.kept := by
  unfold cancelTask
  repeat' split
  all_goals simp only [↓kept_cancelInst, ↓kept_abortTask, ↓kept_dropFired, ↓kept_dropTask]
theorem kept_cancelTasks (s : State) (p : Task → Bool) : (cancelTasks s p).1.kept = s.kept := by
  unfold cancelTasks
  try simp only [↓kept_cancelTask]
  all_goals repeat' (first
    | (split <;> try simp only [↓kept_cancelTask])
    | (intro _ _; try simp only [↓kept_cancelTask])
    | (with_reducible refine (kept_foldl1 _ ?_ _ _).trans ?_ <;> try simp only [↓kept_cancelTask]))
theorem kept_retireSlots (s : State) (cn : Nat) : (retireSlots s cn).kept = s.kept := by
  unfold retireSlots
  try simp only [↓kept_setSeq]
  all_goals repeat' (first
    | (intro _ _; try simp only [↓kept_setSeq])
    | (with_reducible refine (kept_foldl _ ?_ _ _).trans ?_ <;> try simp only [↓kept_setSeq]))
theorem kept_cancelContext (s : State) (cn : Nat) (keep : Option Cmd) : (cancelContext s cn keep).1.kept = s.kept := by
  unfold cancelContext
  try simp only [↓kept_mk, ↓kept_fold, ↓kept_stopCmds, ↓kept_cancelTasks, ↓kept_cancelInst, ↓kept_retireSlots, ↓kept_cancelReqs,
      ↓kept_dropTokens, ↓kept_groupReturn, ↓kept_housekeep]
  all_goals repeat' (first
    | (intro _ _; try simp only [↓kept_mk, ↓kept_fold, ↓kept_stopCmds, ↓kept_cancelTasks, ↓kept_cancelInst, ↓kept_retireSlots,
        ↓kept_cancelReqs, ↓kept_dropTokens, ↓kept_groupReturn, ↓kept_housekeep])
    | (with_reducible refine (kept_foldl _ ?_ _ _).trans ?_ <;> try simp only [↓kept_mk, ↓kept_fold, ↓kept_stopCmds, ↓kept_cancelTasks,
        ↓kept_cancelInst, ↓kept_retireSlots, ↓kept_cancelReqs, ↓kept_dropTokens, ↓kept_groupReturn, ↓kept_housekeep])
    | (with_reducible refine (kept_foldl1 _ ?_ _ _).trans ?_ <;> try simp only [↓kept_mk, ↓kept_fold, ↓kept_stopCmds, ↓kept_cancelTasks,
        ↓kept_cancelInst, ↓kept_retireSlots, ↓kept_cancelReqs, ↓kept_dropTokens, ↓kept_groupReturn, ↓kept_housekeep]))
theorem kept_containContext (s : State) (cn : Nat) : (containContext s cn).kept = s.kept := by
  unfold containContext
  split <;> simp only [↓kept_ite, ite_self, ↓kept_State_setCtx, ↓kept_State_mapIo, ↓kept_cancelContext]
theorem kept_raiseExc (s : State) (n : Nat) (code : Nat) : (raiseExc s n code).kept = s.kept := by
  unfold raiseExc
  try simp only [↓kept_State_mapIo, ↓kept_State_setCore, ↓kept_housekeep, ↓kept_abortTask, ↓kept_containContext]
  repeat' (first
    | with_reducible rfl
    | (split <;> try simp only [↓kept_State_mapIo, ↓kept_State_setCore, ↓kept_housekeep, ↓kept_abortTask, ↓kept_containContext]))
theorem kept_execCmdNop (c : Cmd) (s : State) : OutKeeps s (execCmdNop c s) := by
  simp only [execCmdNop, ↓kept_finish, ↓out_next]
theorem kept_putRelease (s : State) (cn : Nat) (svc : Nat) (die : Nat) (n : Nat) : (putRelease s cn svc die n).2.2.kept = s.kept := by
  unfold putRelease
  split <;> simp only [↓kept_releaseAt]
theorem kept_fusedRun (s : State) (c : Cmd) : (fusedRun s c).kept = s.kept := by
  unfold fusedRun
  simp only [↓kept_ite, ite_self, ↓kept_refuse, ↓kept_State_mapIo, ↓kept_putRelease, ↓kept_makeTask, ↓kept_touchCn, ↓kept_queueTask]
  split <;> simp only [↓kept_ite, ite_self, ↓kept_refuse, ↓kept_State_mapIo, ↓kept_putRelease, ↓kept_makeTask, ↓kept_touchCn,
      ↓kept_queueTask]
theorem kept_execFusedRun (c : Cmd) (s : State) : OutKeeps s (execFusedRun c s) := by
  simp only [execFusedRun, ↓kept_fusedRun, ↓out_next]
theorem kept_tokenPut (s : State) (c : Cmd) : (tokenPut s c).kept = s.kept := by
  unfold tokenPut
  try simp only [↓kept_putRelease, ↓kept_offerToken, ↓kept_finish]
  all_goals repeat' (first
    | (split <;> try simp only [↓kept_putRelease, ↓kept_offerToken, ↓kept_finish])
    | (with_reducible refine (kept_of_fst ‹_›).trans ?_ <;> try simp only [↓kept_putRelease, ↓kept_offerToken, ↓kept_finish]))
theorem kept_execTokenPut (c : Cmd) (s : State) : OutKeeps s (execTokenPut c s) := by
  simp only [execTokenPut, ↓kept_tokenPut, ↓out_next]
theorem kept_cancelRun (s : State) (c : Cmd) : (cancelRun s c).kept = s.kept := by
  simp only [cancelRun, ↓kept_mk, ↓kept_fold, ↓kept_ite, ↓kept_ite1, ite_self, ↓kept_refuse, ↓kept_cancelTasks, ↓kept_stopCmds,
      ↓kept_cancelContext, ↓kept_housekeep, ↓kept_finishCancels]
theorem kept_execCancelCmd (c : Cmd) (s : State) : OutKeeps s (execCancelCmd c s) := by
  simp only [execCancelCmd, ↓kept_cancelRun, ↓out_next]
theorem kept_execFencedCommandStart (ring : Nat) (pos : Nat) (s : State) : OutKeeps s (execFencedCommandStart ring pos s) := by
  simp only [execFencedCommandStart, ↓kept_mk, ↓kept_fold, ite_self, ↓out_next, ↓out_ite]
theorem kept_execAdmCeilWrite (who : Requester) (value : W32) (s : State) : OutKeeps s (execAdmCeilWrite who value s) := by
  unfold execAdmCeilWrite
  simp only [↓kept_mk, ↓kept_fold, ↓kept_State_mapIo, ↓out_next]
  split <;> simp only [↓kept_mk, ↓kept_fold, ↓kept_State_mapIo, ↓out_next]
theorem kept_execPowerLimitWrite (who : Requester) (value : W32) (s : State) : OutKeeps s (execPowerLimitWrite who value s) := by
  unfold execPowerLimitWrite
  simp only [↓kept_mk, ↓kept_fold, ↓kept_State_mapIo, ↓out_next]
  split <;> simp only [↓kept_mk, ↓kept_fold, ↓kept_State_mapIo, ↓out_next]
theorem kept_wakeCtx (s : State) (c : Ctx) : (wakeCtx s c).kept = s.kept := by
  simp only [wakeCtx, ↓kept_mk, ↓kept_fold, ↓kept_ite, ite_self, ↓kept_State_setCtx]
theorem kept_arrive (s : State) (k : Token) : (arrive s k).kept = s.kept := by
  unfold arrive
  split <;> simp only [↓kept_mk, ↓kept_fold, ↓kept_ite, ite_self, ↓kept_creditsFor, ↓kept_deliver, ↓kept_touchCn, ↓kept_passRecords,
      ↓kept_wakeCtx, ↓kept_State_setCtx]
theorem kept_markMissed (s : State) (die : Nat) (id : Nat) : (markMissed s die id).kept = s.kept := Eq.trans rfl rfl
theorem kept_ctxDestroy (s : State) (c : Cmd) : (ctxDestroy s c).kept = s.kept := by
  unfold ctxDestroy
  try simp only [↓kept_mk, ↓kept_fold, ↓kept_refuse, ↓kept_State_setCtx, ↓kept_finish, ↓kept_sessError, ↓kept_cancelContext,
      ↓kept_finishCancels]
  all_goals repeat' (first
    | (split <;> try simp only [↓kept_mk, ↓kept_fold, ↓kept_refuse, ↓kept_State_setCtx, ↓kept_finish, ↓kept_sessError, ↓kept_cancelContext,
        ↓kept_finishCancels])
    | (intro _ _; try simp only [↓kept_mk, ↓kept_fold, ↓kept_refuse, ↓kept_State_setCtx, ↓kept_finish, ↓kept_sessError,
        ↓kept_cancelContext, ↓kept_finishCancels])
    | (with_reducible refine (kept_foldl _ ?_ _ _).trans ?_ <;> try simp only [↓kept_mk, ↓kept_fold, ↓kept_refuse, ↓kept_State_setCtx,
        ↓kept_finish, ↓kept_sessError, ↓kept_cancelContext, ↓kept_finishCancels]))
theorem kept_slotRecord (s : State) (code : Nat) (cn : Nat) (slot : Nat) : (slotRecord s code cn slot).kept = s.kept := Eq.trans rfl rfl
theorem kept_parkCtx (s : State) (c : Ctx) (slot : Nat) : (parkCtx s c slot).kept = s.kept := by
  unfold parkCtx
  simp only [↓kept_mk, ↓kept_fold, ↓kept_ite, ite_self, ↓kept_State_setRing, ↓kept_State_setCtx, ↓kept_slotRecord, ↓kept_State_mapIo]
  split <;> simp only [↓kept_mk, ↓kept_fold, ↓kept_ite, ite_self, ↓kept_State_setRing, ↓kept_State_setCtx, ↓kept_slotRecord,
      ↓kept_State_mapIo]
theorem kept_winnable (s : State) {w : Nat × State} (h : winnable s = some w) : w.2.kept = s.kept := by
  unfold winnable at h
  split at h
  · cases h; rfl
  · obtain ⟨e, _, rfl⟩ := Option.map_eq_some_iff.1 h
    exact kept_parkCtx _ _ _
theorem kept_deliverArrivals (s : State) (cn : Nat) : (deliverArrivals s cn).kept = s.kept := by
  unfold deliverArrivals
  try simp only [↓kept_mk, ↓kept_fold, ↓kept_creditsFor, ↓kept_deliver]
  all_goals repeat' (first
    | (intro _ _; try simp only [↓kept_mk, ↓kept_fold, ↓kept_creditsFor, ↓kept_deliver])
    | (with_reducible refine (kept_foldl _ ?_ _ _).trans ?_ <;> try simp only [↓kept_mk, ↓kept_fold, ↓kept_creditsFor, ↓kept_deliver]))
theorem kept_winSlot (s : State) : (winSlot s).kept = s.kept := by
  unfold winSlot
  try simp only [↓kept_mk, ↓kept_fold, ↓kept_State_setCtx, ↓kept_slotRecord, ↓kept_State_mapIo, ↓kept_finish, ↓kept_deliverArrivals]
  all_goals repeat' (first
    | (split <;> try simp only [↓kept_mk, ↓kept_fold, ↓kept_State_setCtx, ↓kept_slotRecord, ↓kept_State_mapIo, ↓kept_finish,
        ↓kept_deliverArrivals])
    | (intro _ _; try simp only [↓kept_mk, ↓kept_fold, ↓kept_State_setCtx, ↓kept_slotRecord, ↓kept_State_mapIo, ↓kept_finish,
        ↓kept_deliverArrivals])
    | (with_reducible refine (kept_foldl _ ?_ _ _).trans ?_ <;> try simp only [↓kept_mk, ↓kept_fold, ↓kept_State_setCtx, ↓kept_slotRecord,
        ↓kept_State_mapIo, ↓kept_finish, ↓kept_deliverArrivals])
    | (with_reducible refine (kept_winnable _  ‹_›).trans ?_ <;> try simp only [↓kept_mk, ↓kept_fold, ↓kept_State_setCtx, ↓kept_slotRecord,
        ↓kept_State_mapIo, ↓kept_finish, ↓kept_deliverArrivals]))
theorem kept_execCtxWinSlot (s : State) : OutKeeps s (execCtxWinSlot s) := by
  simp only [execCtxWinSlot, ↓kept_winSlot, ↓out_next]
theorem kept_execCtxWake (c : Cmd) (s : State) : OutKeeps s (execCtxWake c s) := by
  unfold execCtxWake
  repeat' split
  all_goals simp only [↓kept_refuse, ↓kept_finish, ↓kept_wakeCtx, ↓kept_State_setCtx, ↓out_next]
theorem kept_execCtxDestroy (c : Cmd) (s : State) : OutKeeps s (execCtxDestroy c s) := by
  simp only [execCtxDestroy, ↓kept_ctxDestroy, ↓out_next]
theorem kept_execCtxCreate (c : Cmd) (s : State) : OutKeeps s (execCtxCreate c s) := by
  unfold execCtxCreate
  repeat' split
  all_goals simp only [↓kept_mk, ↓kept_fold, ↓kept_refuse, ↓kept_parkCtx, ↓kept_State_setCtx, ↓kept_finish, ↓out_next]
theorem kept_execDeadlineMiss (die : Nat) (id : Nat) (s : State) : OutKeeps s (execDeadlineMiss die id s) := by
  unfold execDeadlineMiss
  try simp only [↓kept_State_mapIo, ↓kept_markMissed, ↓out_next]
  repeat' (first | with_reducible rfl | (split <;> try simp only [↓kept_State_mapIo, ↓kept_markMissed, ↓out_next]))
theorem kept_askPages (s : State) (h : Nat) (off : Nat) (len : Nat) : (askPages s h off len).kept = s.kept := by
  unfold askPages
  repeat' split
  all_goals first | rfl | simp only [↓kept_requestPage]
theorem kept_execRegionUnreg (c : Cmd) (s : State) : OutKeeps s (execRegionUnreg c s) := by
  unfold execRegionUnreg
  simp only [ite_self, ↓kept_refuse, ↓kept_finish, ↓kept_freeRegion, ↓out_next, ↓out_ite]
  split <;> simp only [ite_self, ↓kept_refuse, ↓kept_finish, ↓kept_freeRegion, ↓out_next, ↓out_ite]
theorem kept_execDescDestroy (c : Cmd) (s : State) : OutKeeps s (execDescDestroy c s) := by
  unfold execDescDestroy
  try simp only [↓kept_refuse, ↓kept_finish, ↓kept_State_setCtx, ↓out_next]
  repeat' (first | with_reducible rfl | (split <;> try simp only [↓kept_refuse, ↓kept_finish, ↓kept_State_setCtx, ↓out_next]))
theorem kept_execDescCreate (c : Cmd) (s : State) : OutKeeps s (execDescCreate c s) := by
  unfold execDescCreate
  try simp only [↓kept_refuse, ↓kept_askPages, ↓kept_finish, ↓kept_State_setCtx, ↓out_next]
  repeat' (first
    | with_reducible rfl
    | (split <;> try simp only [↓kept_refuse, ↓kept_askPages, ↓kept_finish, ↓kept_State_setCtx, ↓out_next]))
theorem kept_shortRecord (s : State) (svc : Nat) (kind : Nat) (inst : Nat) : (shortRecord s svc kind inst).kept = s.kept := Eq.trans rfl rfl
theorem kept_guardLost (s : State) (cl : Nat) (was : Nat) : (guardLost s cl was).kept = s.kept := by
  unfold guardLost
  try simp only [↓kept_shortRecord]
  all_goals repeat' (first
    | (split <;> try simp only [↓kept_shortRecord])
    | (intro _ _; try simp only [↓kept_shortRecord])
    | (with_reducible refine (kept_foldl _ ?_ _ _).trans ?_ <;> try simp only [↓kept_shortRecord]))
theorem kept_retestOne (x : State × List Charge) (v : Service) : (retestOne x v).1.kept = x.1.kept := by
  unfold retestOne
  split <;> simp only [↓kept_mk, ↓kept_fold, ↓kept_shortRecord]
theorem kept_retest (s : State) : (retest s).kept = s.kept := by
  unfold retest
  try simp only [↓kept_retestOne]
  all_goals repeat' (first
    | (intro _ _; try simp only [↓kept_retestOne])
    | (with_reducible refine (kept_foldl1 _ ?_ _ _).trans ?_ <;> try simp only [↓kept_retestOne]))
theorem kept_reguard (s : State) : (reguard s).kept = s.kept := Eq.trans rfl rfl

end Sys2Proof.Machine
end

