-- ==== Sys2Proof/Laws/KeptInstr.lean ====
section
/-! SUPPORT. Frames of the core's instructions, the Assayers and admission: each keeps `State.kept`. -/

namespace Sys2Proof.Machine

set_option linter.unusedSimpArgs false
set_option linter.unnecessarySeqFocus false
set_option linter.unreachableTactic false
set_option linter.unusedTactic false

theorem kept_notePoison (s : State) (n : Nat) : (notePoison s n).kept = s.kept := by
  unfold notePoison
  simp only [↓kept_State_mapIo, ↓kept_State_setCore]
  split <;> simp only [↓kept_State_mapIo, ↓kept_State_setCore]
theorem kept_countStall (s : State) (n : Nat) (cause : Nat) (st : Option Nat) : (countStall s n cause st).kept = s.kept := by
  unfold countStall
  split <;> simp only [↓kept_State_mapIo, ↓kept_ssCount]
theorem kept_countIssue (s : State) (n : Nat) (conflict : Nat) : (countIssue s n conflict).kept = s.kept := Eq.trans rfl rfl
theorem kept_runIns (s : State) (n : Nat) (mine : Ins → Bool) (ctr : Option Nat) (f : State → Ins → Ran)
    (h : ∀ s i, Ran.Keeps s (f s i)) : (runIns s n mine ctr f).kept = s.kept := by
  unfold runIns
  extract_lets c issue
  have hiss : ∀ t : State, (issue t).kept = t.kept := by
    intro t
    unfold issue
    dsimp only
    split
    · exact (kept_State_mapIo _ _).trans (kept_countIssue _ _ _)
    · exact kept_countIssue _ _ _
  clear_value c issue
  split
  · rfl
  · split
    · rfl
    · rename_i i _
      have hi := h s i
      split
      · rfl
      · split
        · exact kept_countStall _ _ _ _
        · split
          · exact kept_countStall _ _ _ _
          · split
            · rename_i t e
              rw [e, ran_done] at hi
              rw [hiss]
              split
              · exact (kept_State_setCore _ _ _).trans ((kept_notePoison _ _).trans hi)
              · exact (kept_notePoison _ _).trans hi
            · rename_i t pc e
              rw [e, ran_jump] at hi
              rw [hiss]
              exact (kept_State_setCore _ _ _).trans ((kept_notePoison _ _).trans hi)
            · rename_i t c st e
              rw [e, ran_stall] at hi
              exact (kept_countStall _ _ _ _).trans hi
            · exact kept_raiseExc _ _ _
theorem kept_execIllegalInstr (core : Nat) (s : State) : OutKeeps s (execIllegalInstr core s) := by
  unfold execIllegalInstr
  try simp only [↓kept_raiseExc, ↓out_next]
  repeat' (first | with_reducible rfl | (split <;> try simp only [↓kept_raiseExc, ↓out_next]))
theorem kept_execTaskOverrun (core : Nat) (s : State) : OutKeeps s (execTaskOverrun core s) := by
  unfold execTaskOverrun
  simp only [ite_self, ↓kept_raiseExc, ↓out_next, ↓out_ite]
  split <;> simp only [ite_self, ↓kept_raiseExc, ↓out_next, ↓out_ite]
theorem kept_scalarLoad (n : Nat) (s : State) (i : Ins) : Ran.Keeps s (scalarLoad n s i) := by
  unfold scalarLoad
  try simp only [↓kept_State_setCore, ↓ran_done]
  all_goals repeat' (first | (with_reducible refine ran_guard ?_; try simp only [↓kept_State_setCore, ↓ran_done]))
theorem kept_scalarStore (n : Nat) (s : State) (i : Ins) : Ran.Keeps s (scalarStore n s i) := by
  unfold scalarStore
  try simp only [↓kept_State_setCore, ↓ran_done]
  all_goals repeat' (first | (with_reducible refine ran_guard ?_; try simp only [↓kept_State_setCore, ↓ran_done]))
theorem kept_csrPut (f : Nat → Nat → Nat) (n : Nat) (s : State) (i : Ins) : Ran.Keeps s (csrPut f n s i) := by
  unfold csrPut
  try simp only [↓kept_State_setCore, ↓ran_done]
  all_goals repeat' (first | exact ran_exc | (split <;> try simp only [↓kept_State_setCore, ↓ran_done]))
theorem kept_execCsrClr (core : Nat) (s : State) : OutKeeps s (execCsrClr core s) := by
  unfold execCsrClr
  try simp only [↓out_next]
  all_goals repeat' (first | with_reducible exact kept_runIns _ _ _ _ _ (fun _ _ => kept_csrPut _ _ _ _ ))
theorem kept_execCsrWr (core : Nat) (s : State) : OutKeeps s (execCsrWr core s) := by
  unfold execCsrWr
  try simp only [↓out_next]
  all_goals repeat' (first | with_reducible exact kept_runIns _ _ _ _ _ (fun _ _ => kept_csrPut _ _ _ _ ))
theorem kept_scalarImm (n : Nat) (s : State) (i : Ins) : Ran.Keeps s (scalarImm n s i) := by
  unfold scalarImm
  try simp only [↓kept_State_setCore, ↓ran_done]
  all_goals repeat' (first | (with_reducible refine ran_guard ?_; try simp only [↓kept_State_setCore, ↓ran_done]))
theorem kept_execScalarStore (core : Nat) (s : State) : OutKeeps s (execScalarStore core s) := by
  unfold execScalarStore
  try simp only [↓out_next]
  all_goals repeat' (first | with_reducible exact kept_runIns _ _ _ _ _ (fun _ _ => kept_scalarStore _ _ _ ))
theorem kept_jumpTo (s : State) (n : Nat) (target : Int) : Ran.Keeps s (jumpTo s n target) := by
  unfold jumpTo
  try simp only [↓ran_jump]
  all_goals repeat' (first | exact ran_exc | (split <;> try simp only [↓ran_jump]))
theorem kept_jr (n : Nat) (s : State) (i : Ins) : Ran.Keeps s (jr n s i) := by
  unfold jr
  try simp only [↓kept_State_setCore]
  all_goals repeat' (first
    | (with_reducible refine ran_trans (kept_jumpTo _ _ _ ) ?_; try simp only [↓kept_State_setCore])
    | exact ran_exc
    | (with_reducible refine ran_guard ?_; try simp only [↓kept_State_setCore])
    | (split <;> try simp only [↓kept_State_setCore]))
theorem kept_csrRd (n : Nat) (s : State) (i : Ins) : Ran.Keeps s (csrRd n s i) := by
  unfold csrRd
  try simp only [↓kept_State_setCore, ↓ran_done]
  all_goals repeat' (first | exact ran_exc | (split <;> try simp only [↓kept_State_setCore, ↓ran_done]))
theorem kept_jal (n : Nat) (s : State) (i : Ins) : Ran.Keeps s (jal n s i) := by
  unfold jal
  try simp only [↓kept_State_setCore]
  all_goals repeat' (first
    | (with_reducible refine ran_trans (kept_jumpTo _ _ _ ) ?_; try simp only [↓kept_State_setCore])
    | exact ran_exc
    | (with_reducible refine ran_guard ?_; try simp only [↓kept_State_setCore])
    | (split <;> try simp only [↓kept_State_setCore]))
theorem kept_execJal (core : Nat) (s : State) : OutKeeps s (execJal core s) := by
  unfold execJal
  try simp only [↓out_next]
  all_goals repeat' (first | with_reducible exact kept_runIns _ _ _ _ _ (fun _ _ => kept_jal _ _ _ ))
theorem kept_execScalarLoad (core : Nat) (s : State) : OutKeeps s (execScalarLoad core s) := by
  unfold execScalarLoad
  try simp only [↓out_next]
  all_goals repeat' (first | with_reducible exact kept_runIns _ _ _ _ _ (fun _ _ => kept_scalarLoad _ _ _ ))
theorem kept_scalarAlu (n : Nat) (s : State) (i : Ins) : Ran.Keeps s (scalarAlu n s i) := by
  unfold scalarAlu
  try simp only [↓kept_State_setCore, ↓ran_done]
  all_goals repeat' (first | (with_reducible refine ran_guard ?_; try simp only [↓kept_State_setCore, ↓ran_done]))
theorem kept_execScalarAlu (core : Nat) (s : State) : OutKeeps s (execScalarAlu core s) := by
  unfold execScalarAlu
  try simp only [↓out_next]
  all_goals repeat' (first | with_reducible exact kept_runIns _ _ _ _ _ (fun _ _ => kept_scalarAlu _ _ _ ))
theorem kept_execScalarImmediate (core : Nat) (s : State) : OutKeeps s (execScalarImmediate core s) := by
  unfold execScalarImmediate
  try simp only [↓out_next]
  all_goals repeat' (first | with_reducible exact kept_runIns _ _ _ _ _ (fun _ _ => kept_scalarImm _ _ _ ))
theorem kept_condBranch (n : Nat) (s : State) (i : Ins) : Ran.Keeps s (condBranch n s i) := by
  unfold condBranch
  try simp only [↓ran_done]
  all_goals repeat' (first
    | with_reducible exact kept_jumpTo _ _ _ 
    | exact ran_exc
    | (with_reducible refine ran_guard ?_; try simp only [↓ran_done])
    | (split <;> try simp only [↓ran_done]))
theorem kept_execConditionalBranch (core : Nat) (s : State) : OutKeeps s (execConditionalBranch core s) := by
  unfold execConditionalBranch
  try simp only [↓out_next]
  all_goals repeat' (first | with_reducible exact kept_runIns _ _ _ _ _ (fun _ _ => kept_condBranch _ _ _ ))
theorem kept_execJr (core : Nat) (s : State) : OutKeeps s (execJr core s) := by
  unfold execJr
  try simp only [↓out_next]
  all_goals repeat' (first | with_reducible exact kept_runIns _ _ _ _ _ (fun _ _ => kept_jr _ _ _ ))
theorem kept_execCsrSet (core : Nat) (s : State) : OutKeeps s (execCsrSet core s) := by
  unfold execCsrSet
  try simp only [↓out_next]
  all_goals repeat' (first | with_reducible exact kept_runIns _ _ _ _ _ (fun _ _ => kept_csrPut _ _ _ _ ))
theorem kept_execCsrRd (core : Nat) (s : State) : OutKeeps s (execCsrRd core s) := by
  unfold execCsrRd
  try simp only [↓out_next]
  all_goals repeat' (first | with_reducible exact kept_runIns _ _ _ _ _ (fun _ _ => kept_csrRd _ _ _ ))
theorem kept_vstore (form : Nat) (n : Nat) (s : State) (i : Ins) : Ran.Keeps s (vstore form n s i) := by
  unfold vstore
  try simp only [↓kept_State_setCore, ↓ran_done]
  all_goals repeat' (first
    | (with_reducible refine ran_guard ?_; try simp only [↓kept_State_setCore, ↓ran_done])
    | (with_reducible refine ran_conflict ?_; try simp only [↓kept_State_setCore, ↓ran_done]))
theorem kept_vload (form : Nat) (n : Nat) (s : State) (i : Ins) : Ran.Keeps s (vload form n s i) := by
  unfold vload
  try simp only [↓kept_State_setCore, ↓ran_done]
  all_goals repeat' (first
    | (with_reducible refine ran_guard ?_; try simp only [↓kept_State_setCore, ↓ran_done])
    | (with_reducible refine ran_conflict ?_; try simp only [↓kept_State_setCore, ↓ran_done]))
theorem kept_execVlds (core : Nat) (s : State) : OutKeeps s (execVlds core s) := by
  unfold execVlds
  try simp only [↓out_next]
  all_goals repeat' (first | with_reducible exact kept_runIns _ _ _ _ _ (fun _ _ => kept_vload _ _ _ _ ))
theorem kept_vecLanes (n : Nat) (s : State) (i : Ins) : Ran.Keeps s (vecLanes n s i) := by
  unfold vecLanes
  try simp only [↓kept_State_setCore, ↓ran_done]
  all_goals repeat' (first | (with_reducible refine ran_guard ?_; try simp only [↓kept_State_setCore, ↓ran_done]))
theorem kept_vecSel (n : Nat) (s : State) (i : Ins) : Ran.Keeps s (vecSel n s i) := by
  unfold vecSel
  try simp only [↓kept_State_setCore, ↓ran_done]
  all_goals repeat' (first | (with_reducible refine ran_guard ?_; try simp only [↓kept_State_setCore, ↓ran_done]))
theorem kept_vecBcast (n : Nat) (s : State) (i : Ins) : Ran.Keeps s (vecBcast n s i) := by
  unfold vecBcast
  try simp only [↓kept_State_setCore, ↓ran_done]
  all_goals repeat' (first | (with_reducible refine ran_guard ?_; try simp only [↓kept_State_setCore, ↓ran_done]))
theorem kept_vecMovx (n : Nat) (s : State) (i : Ins) : Ran.Keeps s (vecMovx n s i) := by
  unfold vecMovx
  try simp only [↓kept_State_setCore, ↓ran_done]
  all_goals repeat' (first | (with_reducible refine ran_guard ?_; try simp only [↓kept_State_setCore, ↓ran_done]))
theorem kept_vecArith (n : Nat) (s : State) (i : Ins) : Ran.Keeps s (vecArith n s i) := by
  unfold vecArith
  try simp only []
  all_goals repeat' (first
    | with_reducible exact kept_vecLanes _ _ _ 
    | with_reducible exact kept_vecSel _ _ _ 
    | with_reducible exact kept_vecBcast _ _ _ 
    | with_reducible exact kept_vecMovx _ _ _ 
    | (split <;> try simp only []))
theorem kept_execVectorArithmetic (core : Nat) (s : State) : OutKeeps s (execVectorArithmetic core s) := by
  unfold execVectorArithmetic
  try simp only [↓out_next]
  all_goals repeat' (first | with_reducible exact kept_runIns _ _ _ _ _ (fun _ _ => kept_vecArith _ _ _ ))
theorem kept_execVst (core : Nat) (s : State) : OutKeeps s (execVst core s) := by
  unfold execVst
  try simp only [↓out_next]
  all_goals repeat' (first | with_reducible exact kept_runIns _ _ _ _ _ (fun _ _ => kept_vstore _ _ _ _ ))
theorem kept_vecCompare (n : Nat) (s : State) (i : Ins) : Ran.Keeps s (vecCompare n s i) := by
  unfold vecCompare
  try simp only [↓kept_State_setCore, ↓ran_done]
  all_goals repeat' (first | (with_reducible refine ran_guard ?_; try simp only [↓kept_State_setCore, ↓ran_done]))
theorem kept_vecCvt (n : Nat) (s : State) (i : Ins) : Ran.Keeps s (vecCvt n s i) := by
  unfold vecCvt
  try simp only [↓kept_State_setCore, ↓ran_done]
  all_goals repeat' (first | (with_reducible refine ran_guard ?_; try simp only [↓kept_State_setCore, ↓ran_done]))
theorem kept_execCvt (core : Nat) (s : State) : OutKeeps s (execCvt core s) := by
  unfold execCvt
  try simp only [↓out_next]
  all_goals repeat' (first | with_reducible exact kept_runIns _ _ _ _ _ (fun _ _ => kept_vecCvt _ _ _ ))
theorem kept_vecReduce (n : Nat) (s : State) (i : Ins) : Ran.Keeps s (vecReduce n s i) := by
  unfold vecReduce
  try simp only [↓kept_State_setCore, ↓ran_done]
  all_goals repeat' (first | (with_reducible refine ran_guard ?_; try simp only [↓kept_State_setCore, ↓ran_done]))
theorem kept_execRedsum (core : Nat) (s : State) : OutKeeps s (execRedsum core s) := by
  unfold execRedsum
  try simp only [↓out_next]
  all_goals repeat' (first | with_reducible exact kept_runIns _ _ _ _ _ (fun _ _ => kept_vecReduce _ _ _ ))
theorem kept_execVectorCompare (core : Nat) (s : State) : OutKeeps s (execVectorCompare core s) := by
  unfold execVectorCompare
  try simp only [↓out_next]
  all_goals repeat' (first | with_reducible exact kept_runIns _ _ _ _ _ (fun _ _ => kept_vecCompare _ _ _ ))
theorem kept_execVldg (core : Nat) (s : State) : OutKeeps s (execVldg core s) := by
  unfold execVldg
  try simp only [↓out_next]
  all_goals repeat' (first | with_reducible exact kept_runIns _ _ _ _ _ (fun _ _ => kept_vload _ _ _ _ ))
theorem kept_execVld (core : Nat) (s : State) : OutKeeps s (execVld core s) := by
  unfold execVld
  try simp only [↓out_next]
  all_goals repeat' (first | with_reducible exact kept_runIns _ _ _ _ _ (fun _ _ => kept_vload _ _ _ _ ))
theorem kept_execVstg (core : Nat) (s : State) : OutKeeps s (execVstg core s) := by
  unfold execVstg
  try simp only [↓out_next]
  all_goals repeat' (first | with_reducible exact kept_runIns _ _ _ _ _ (fun _ _ => kept_vstore _ _ _ _ ))
theorem kept_execVsts (core : Nat) (s : State) : OutKeeps s (execVsts core s) := by
  unfold execVsts
  try simp only [↓out_next]
  all_goals repeat' (first | with_reducible exact kept_runIns _ _ _ _ _ (fun _ _ => kept_vstore _ _ _ _ ))
theorem kept_setAssayQueue (s : State) (u : Nat) (q : List AssayReq) : (setAssayQueue s u q).kept = s.kept := Eq.trans rfl rfl
theorem kept_vtAssay (lm : Bool) (n : Nat) (s : State) (i : Ins) : Ran.Keeps s (vtAssay lm n s i) := by
  unfold vtAssay
  try simp only [ite_self, ↓kept_setAssayQueue, ↓kept_State_setCore, ↓ran_done, ↓ran_stall, ↓ran_ite]
  all_goals repeat' (first
    | (with_reducible refine ran_guard ?_; try simp only [ite_self, ↓kept_setAssayQueue, ↓kept_State_setCore, ↓ran_done, ↓ran_stall,
        ↓ran_ite]))
theorem kept_selTopk (n : Nat) (s : State) (i : Ins) : Ran.Keeps s (selTopk n s i) := by
  unfold selTopk
  try simp only [↓kept_State_setCore, ↓ran_done]
  all_goals repeat' (first | (with_reducible refine ran_guard ?_; try simp only [↓kept_State_setCore, ↓ran_done]))
theorem kept_execSelTopk (core : Nat) (s : State) : OutKeeps s (execSelTopk core s) := by
  unfold execSelTopk
  try simp only [↓out_next]
  all_goals repeat' (first | with_reducible exact kept_runIns _ _ _ _ _ (fun _ _ => kept_selTopk _ _ _ ))
theorem kept_execVtAssay (core : Nat) (s : State) : OutKeeps s (execVtAssay core s) := by
  unfold execVtAssay
  try simp only [↓out_next]
  all_goals repeat' (first | with_reducible exact kept_runIns _ _ _ _ _ (fun _ _ => kept_vtAssay _ _ _ _ ))
theorem kept_execVtAssayLm (core : Nat) (s : State) : OutKeeps s (execVtAssayLm core s) := by
  unfold execVtAssayLm
  try simp only [↓out_next]
  all_goals repeat' (first | with_reducible exact kept_runIns _ _ _ _ _ (fun _ _ => kept_vtAssay _ _ _ _ ))
theorem kept_vtLookup (n : Nat) (s : State) (i : Ins) : Ran.Keeps s (vtLookup n s i) := by
  unfold vtLookup
  try simp only [↓kept_State_setCore, ↓ran_done]
  all_goals repeat' (first
    | (with_reducible refine ran_guard ?_; try simp only [↓kept_State_setCore, ↓ran_done])
    | (with_reducible refine ran_conflict ?_; try simp only [↓kept_State_setCore, ↓ran_done]))
theorem kept_vtHash (n : Nat) (s : State) (i : Ins) : Ran.Keeps s (vtHash n s i) := by
  unfold vtHash
  try simp only [↓kept_State_setCore, ↓ran_done]
  all_goals repeat' (first | (with_reducible refine ran_guard ?_; try simp only [↓kept_State_setCore, ↓ran_done]))
theorem kept_selMerge (n : Nat) (s : State) (i : Ins) : Ran.Keeps s (selMerge n s i) := by
  unfold selMerge
  try simp only [↓kept_State_setCore, ↓ran_done]
  all_goals repeat' (first | (with_reducible refine ran_guard ?_; try simp only [↓kept_State_setCore, ↓ran_done]))
theorem kept_execSelMerge (core : Nat) (s : State) : OutKeeps s (execSelMerge core s) := by
  unfold execSelMerge
  try simp only [↓out_next]
  all_goals repeat' (first | with_reducible exact kept_runIns _ _ _ _ _ (fun _ _ => kept_selMerge _ _ _ ))
theorem kept_vtBucket (n : Nat) (s : State) (i : Ins) : Ran.Keeps s (vtBucket n s i) := by
  unfold vtBucket
  try simp only [↓kept_State_setCore, ↓ran_done]
  all_goals repeat' (first | (with_reducible refine ran_guard ?_; try simp only [↓kept_State_setCore, ↓ran_done]))
theorem kept_execVtHash (core : Nat) (s : State) : OutKeeps s (execVtHash core s) := by
  unfold execVtHash
  try simp only [↓out_next]
  all_goals repeat' (first | with_reducible exact kept_runIns _ _ _ _ _ (fun _ _ => kept_vtHash _ _ _ ))
theorem kept_execVtBucket (core : Nat) (s : State) : OutKeeps s (execVtBucket core s) := by
  unfold execVtBucket
  try simp only [↓out_next]
  all_goals repeat' (first | with_reducible exact kept_runIns _ _ _ _ _ (fun _ _ => kept_vtBucket _ _ _ ))
theorem kept_execVtLookup (core : Nat) (s : State) : OutKeeps s (execVtLookup core s) := by
  unfold execVtLookup
  try simp only [↓out_next]
  all_goals repeat' (first | with_reducible exact kept_runIns _ _ _ _ _ (fun _ _ => kept_vtLookup _ _ _ ))
theorem kept_assayAnswer (s : State) (q : AssayReq) (payload : Nat) (status : Nat) (hit : Bool) (flags : Nat)
    : (assayAnswer s q payload status hit flags).kept = s.kept := by
  unfold assayAnswer
  simp only [↓kept_State_setCore]
  split <;> simp only [↓kept_State_setCore]
theorem kept_seedWrite (s : State) (u : Nat) (k : Nat) (v : Nat) : (seedWrite s u k v).kept = s.kept := by
  simp only [seedWrite, ↓kept_mk, ↓kept_fold, ↓kept_ite, ite_self]
theorem kept_setShadow (s : State) (r : Nat) (x : AssayRow) : (setShadow s r x).kept = s.kept := Eq.trans rfl rfl
theorem kept_setArr (s : State) (r : Nat) (x : AssayRow) : (setArr s r x).kept = s.kept := Eq.trans rfl rfl
theorem kept_loseRow (s : State) (r : Nat) : (loseRow s r).kept = s.kept := Eq.trans rfl rfl
theorem kept_repairRow (s : State) (r : Nat) : (repairRow s r).kept = s.kept := by
  simp only [repairRow, ↓kept_ite, ite_self, ↓kept_loseRow, ↓kept_State_mapIo, ↓kept_setArr]
theorem kept_lookup (s : State) (u : Nat) (k : Nat) (f : Nat) (key : List Byte) (long : Bool)
    : (lookup s u k f key long).1.kept = s.kept := by
  unfold lookup
  try simp only [↓kept_ite, ite_self, ↓kept_repairRow, ↓kept_State_mapIo]
  all_goals repeat' (first
    | (intro _ _; try simp only [↓kept_ite, ite_self, ↓kept_repairRow, ↓kept_State_mapIo])
    | (with_reducible refine (kept_foldl _ ?_ _ _).trans ?_ <;> try simp only [↓kept_ite, ite_self, ↓kept_repairRow, ↓kept_State_mapIo]))
theorem kept_serveExact (s : State) (q : AssayReq) : (serveExact s q).kept = s.kept := by
  simp only [serveExact, ↓kept_ite, ite_self, ↓kept_assayAnswer, ↓kept_lookup]
theorem kept_putAssayRow (s : State) (r : Nat) (x : AssayRow) : (putAssayRow s r x).kept = s.kept := Eq.trans rfl rfl
theorem kept_invalidate (s : State) (u : Nat) (k : Nat) (first : Nat) (n : Nat) : (invalidate s u k first n).kept = s.kept := by
  unfold invalidate
  try simp only [↓kept_putAssayRow]
  all_goals repeat' (first
    | (intro _ _; try simp only [↓kept_putAssayRow])
    | (with_reducible refine (kept_foldl _ ?_ _ _).trans ?_ <;> try simp only [↓kept_putAssayRow]))
theorem kept_clearTable (s : State) (u : Nat) (k : Nat) : (clearTable s u k).kept = s.kept := by
  simp only [clearTable, ↓kept_mk, ↓kept_fold, ↓kept_invalidate]
theorem kept_lmLoop (u : Nat) (k : Nat) (win : List Byte) (x3 : Nat) (x4 : State × LmSearch)
    : (lmLoop u k win x3 x4).1.kept = x4.1.kept := by
  induction x3 generalizing u k win x4 with
  | zero => rfl
  | succ fuel ih =>
    rw [lmLoop]
    try simp only [↓kept_lookup, ↓ih]
    all_goals repeat' (first | (split <;> try simp only [↓kept_lookup, ↓ih]))
theorem kept_assayLm (s : State) (u : Nat) (k : Nat) (win : List Byte) (lo : Nat) (hi : Nat) (best : Nat)
    : (assayLm s u k win lo hi best).1.kept = s.kept := by
  simp only [assayLm, ↓kept_lmLoop]
theorem kept_loadImages (d : Desc) (u k first : Nat) (l : List Nat) (s : State) : (loadImages d u k first l s).1.kept = s.kept := by
  induction l generalizing s with
  | nil => rfl
  | cons j l ih =>
    unfold loadImages
    dsimp only
    split
    · rfl
    · exact (ih _).trans (kept_putAssayRow _ _ _)
theorem kept_execAssayLoad (c : Cmd) (s : State) : OutKeeps s (execAssayLoad c s) := by
  unfold execAssayLoad
  try simp only [↓kept_State_mapIo, ↓kept_refuse, ↓kept_finish, ↓kept_invalidate, ↓kept_clearTable, ↓kept_loadImages, ↓out_next]
  repeat' (first
    | with_reducible rfl
    | (split <;> try simp only [↓kept_State_mapIo, ↓kept_refuse, ↓kept_finish, ↓kept_invalidate, ↓kept_clearTable, ↓kept_loadImages, ↓out_next]))
theorem kept_execFpSeedWrite (who : Requester) (unit : Nat) (slot : Nat) (value : W64) (s : State)
    : OutKeeps s (execFpSeedWrite who unit slot value s) := by
  unfold execFpSeedWrite
  split <;> simp only [↓kept_mk, ↓kept_fold, ↓kept_seedWrite, ↓out_next]
theorem kept_serveLm (s : State) (q : AssayReq) : (serveLm s q).kept = s.kept := by
  simp only [serveLm, ↓kept_ite, ite_self, ↓kept_assayAnswer, ↓kept_assayLm]
theorem kept_upset (s : State) (l : List AssayUpset) : (upset s l).kept = s.kept := by
  unfold upset
  try simp only [↓kept_ite, ite_self, ↓kept_setArr, ↓kept_setShadow]
  all_goals repeat' (first
    | (intro _ _; try simp only [↓kept_ite, ite_self, ↓kept_setArr, ↓kept_setShadow])
    | (with_reducible refine (kept_foldl _ ?_ _ _).trans ?_ <;> try simp only [↓kept_ite, ite_self, ↓kept_setArr, ↓kept_setShadow]))
theorem kept_serveAssay (lm : Bool) (unit : Nat) (ups : List AssayUpset) (s : State) : (serveAssay lm unit ups s).kept = s.kept := by
  unfold serveAssay
  split <;> simp only [↓kept_ite, ite_self, ↓kept_setAssayQueue, ↓kept_upset, ↓kept_serveLm, ↓kept_serveExact]
theorem kept_execScrubRow (unit : Nat) (ups : List AssayUpset) (s : State) : OutKeeps s (execScrubRow unit ups s) := by
  simp only [execScrubRow, ↓kept_repairRow, ↓kept_upset, ↓kept_State_mapIo, ↓out_next]
theorem kept_execAssayLookup (unit : Nat) (ups : List AssayUpset) (s : State) : OutKeeps s (execAssayLookup unit ups s) := by
  simp only [execAssayLookup, ↓kept_serveAssay, ↓out_next]
theorem kept_execAssayLmSearch (unit : Nat) (ups : List AssayUpset) (s : State) : OutKeeps s (execAssayLmSearch unit ups s) := by
  simp only [execAssayLmSearch, ↓kept_serveAssay, ↓out_next]
theorem kept_clearRows (s : State) (us : List Nat) (lo : Nat) (n : Nat) : (clearRows s us lo n).kept = s.kept := by
  unfold clearRows
  try simp only [↓kept_mk, ↓kept_fold]
  all_goals repeat' (first
    | (intro _ _; try simp only [↓kept_mk, ↓kept_fold])
    | (with_reducible refine (kept_foldl _ ?_ _ _).trans ?_ <;> try simp only [↓kept_mk, ↓kept_fold]))
theorem kept_removeService (s : State) (v : Service) : (removeService s v).kept = s.kept := by
  unfold removeService
  try simp only [↓kept_mk, ↓kept_fold, ↓kept_State_mapCaller, ↓kept_clearRows, ↓kept_State_mapIo, ↓kept_setSeq, ↓kept_reguard,
      ↓kept_freeRegion]
  all_goals repeat' (first
    | (intro _ _; try simp only [↓kept_mk, ↓kept_fold, ↓kept_State_mapCaller, ↓kept_clearRows, ↓kept_State_mapIo, ↓kept_setSeq,
        ↓kept_reguard, ↓kept_freeRegion])
    | (with_reducible refine (kept_foldl _ ?_ _ _).trans ?_ <;> try simp only [↓kept_mk, ↓kept_fold, ↓kept_State_mapCaller,
        ↓kept_clearRows, ↓kept_State_mapIo, ↓kept_setSeq, ↓kept_reguard, ↓kept_freeRegion]))
theorem kept_execSvcRemove (c : Cmd) (s : State) : OutKeeps s (execSvcRemove c s) := by
  unfold execSvcRemove
  repeat' split
  all_goals simp only [↓kept_refuse, ↓kept_finish, ↓kept_removeService, ↓out_next]
theorem kept_installTab (svc : Nat) (s : State) (e : Nat × List Byte) : (installTab svc s e).kept = s.kept := Eq.trans rfl rfl
theorem kept_admRefused (s : State) (adopt : Bool) : (admRefused s adopt).kept = s.kept := by
  simp only [admRefused, ↓kept_ite, ite_self, ↓kept_State_mapIo]
theorem kept_installAssay (svc : Nat) (s : State) (d : Nat × Nat × Nat × Nat × List Nat) : (installAssay svc s d).kept = s.kept := by
  simp only [installAssay, ↓kept_mk, ↓kept_fold, ↓kept_clearRows, ↓kept_State_mapIo]
theorem kept_installSet (svc : Nat) (shards : List (Nat × Nat × Nat × List Byte)) (s : State) (q : ResSet)
    : (installSet svc shards s q).kept = s.kept := by
  unfold installSet
  try simp only [↓kept_mk, ↓kept_fold, ↓kept_State_setCore]
  all_goals repeat' (first
    | (intro _ _; try simp only [↓kept_mk, ↓kept_fold, ↓kept_State_setCore])
    | (with_reducible refine (kept_foldl _ ?_ _ _).trans ?_ <;> try simp only [↓kept_mk, ↓kept_fold, ↓kept_State_setCore]))
theorem kept_install (s : State) (p : Plan) (x : Sections) : (install s p x).kept = s.kept := by
  unfold install
  try simp only [↓kept_mk, ↓kept_fold, ↓kept_ite, ite_self, ↓kept_State_mapCaller, ↓kept_State_setCore, ↓kept_installTab,
      ↓kept_installAssay, ↓kept_installSet, ↓kept_setSeq]
  all_goals repeat' (first
    | (intro _ _; try simp only [↓kept_mk, ↓kept_fold, ↓kept_ite, ite_self, ↓kept_State_mapCaller, ↓kept_State_setCore, ↓kept_installTab,
        ↓kept_installAssay, ↓kept_installSet, ↓kept_setSeq])
    | (with_reducible refine (kept_foldl _ ?_ _ _).trans ?_ <;> try simp only [↓kept_mk, ↓kept_fold, ↓kept_ite, ite_self,
        ↓kept_State_mapCaller, ↓kept_State_setCore, ↓kept_installTab, ↓kept_installAssay, ↓kept_installSet, ↓kept_setSeq]))
theorem kept_svcEnd (s : State) (adopt : Bool) (c : Cmd) (x : Sections) (ticks crc : Nat) (r : Region) (res : Except AdmFail Plan) :
    (svcEnd s adopt c x ticks crc r res).kept = s.kept := by
  unfold svcEnd
  try simp only [↓kept_refuse, ↓kept_admRefused, ↓kept_requestPage, ↓kept_State_tWrite, ↓kept_State_mapIo, ↓kept_finish, ↓kept_install]
  repeat' (first
    | with_reducible rfl
    | (split <;> try simp only [↓kept_refuse, ↓kept_admRefused, ↓kept_requestPage, ↓kept_State_tWrite, ↓kept_State_mapIo, ↓kept_finish,
        ↓kept_install]))
theorem kept_svcRun (adopt : Bool) (c : Cmd) (x : Sections) (ticks : Nat) (s : State) : (svcRun adopt c x ticks s).kept = s.kept := by
  unfold svcRun
  try simp only [↓kept_refuse, ↓kept_admRefused, ↓kept_askPages, ↓kept_svcEnd]
  repeat' (first
    | with_reducible rfl
    | (split <;> try simp only [↓kept_refuse, ↓kept_admRefused, ↓kept_askPages, ↓kept_svcEnd]))
theorem kept_execSvcAdmit (c : Cmd) (secs : Sections) (ticks : Nat) (s : State) : OutKeeps s (execSvcAdmit c secs ticks s) := by
  simp only [execSvcAdmit, ↓kept_svcRun, ↓out_next]
theorem kept_execSvcQuery (c : Cmd) (secs : Sections) (ticks : Nat) (s : State) : OutKeeps s (execSvcQuery c secs ticks s) := by
  simp only [execSvcQuery, ↓kept_svcRun, ↓out_next]
theorem kept_mxStoreacc (n : Nat) (s : State) (i : Ins) : Ran.Keeps s (mxStoreacc n s i) := by
  unfold mxStoreacc
  try simp only [↓kept_State_setCore, ↓ran_done]
  all_goals repeat' (first
    | (with_reducible refine ran_guard ?_; try simp only [↓kept_State_setCore, ↓ran_done])
    | (with_reducible refine ran_mx ?_; try simp only [↓kept_State_setCore, ↓ran_done]))
theorem kept_execMxStoreacc (core : Nat) (s : State) : OutKeeps s (execMxStoreacc core s) := by
  unfold execMxStoreacc
  try simp only [↓out_next]
  all_goals repeat' (first | with_reducible exact kept_runIns _ _ _ _ _ (fun _ _ => kept_mxStoreacc _ _ _ ))
theorem kept_mxLoadacc (n : Nat) (s : State) (i : Ins) : Ran.Keeps s (mxLoadacc n s i) := by
  unfold mxLoadacc
  try simp only [↓kept_State_setCore, ↓ran_done]
  all_goals repeat' (first
    | (with_reducible refine ran_guard ?_; try simp only [↓kept_State_setCore, ↓ran_done])
    | (with_reducible refine ran_mx ?_; try simp only [↓kept_State_setCore, ↓ran_done]))
theorem kept_mxMma (n : Nat) (s : State) (i : Ins) : Ran.Keeps s (mxMma n s i) := by
  unfold mxMma
  try simp only [↓kept_State_setCore, ↓ran_done]
  all_goals repeat' (first
    | (with_reducible refine ran_guard ?_; try simp only [↓kept_State_setCore, ↓ran_done])
    | (with_reducible refine ran_mx ?_; try simp only [↓kept_State_setCore, ↓ran_done]))
theorem kept_execMxMma (core : Nat) (s : State) : OutKeeps s (execMxMma core s) := by
  unfold execMxMma
  try simp only [↓out_next]
  all_goals repeat' (first | with_reducible exact kept_runIns _ _ _ _ _ (fun _ _ => kept_mxMma _ _ _ ))
theorem kept_execMxLoadacc (core : Nat) (s : State) : OutKeeps s (execMxLoadacc core s) := by
  unfold execMxLoadacc
  try simp only [↓out_next]
  all_goals repeat' (first | with_reducible exact kept_runIns _ _ _ _ _ (fun _ _ => kept_mxLoadacc _ _ _ ))
theorem kept_mxZero (n : Nat) (s : State) (i : Ins) : Ran.Keeps s (mxZero n s i) := by
  unfold mxZero
  try simp only [↓kept_State_setCore, ↓ran_done]
  all_goals repeat' (first
    | (with_reducible refine ran_guard ?_; try simp only [↓kept_State_setCore, ↓ran_done])
    | (with_reducible refine ran_mx ?_; try simp only [↓kept_State_setCore, ↓ran_done]))
theorem kept_execMxZero (core : Nat) (s : State) : OutKeeps s (execMxZero core s) := by
  unfold execMxZero
  try simp only [↓out_next]
  all_goals repeat' (first | with_reducible exact kept_runIns _ _ _ _ _ (fun _ _ => kept_mxZero _ _ _ ))
theorem kept_execMmaExecute (core : Nat) (s : State) : OutKeeps s (execMmaExecute core s) := by
  unfold execMmaExecute
  simp only [↓kept_State_mapIo, ↓kept_notePoison, ↓kept_State_setCore, ↓out_next]
  split <;> simp only [↓kept_State_mapIo, ↓kept_notePoison, ↓kept_State_setCore, ↓out_next]
theorem kept_evtCountRun (n : Nat) (s : State) (i : Ins) : Ran.Keeps s (evtCountRun n s i) := by
  unfold evtCountRun
  try simp only [↓kept_State_mapIo, ↓ran_done]
  all_goals repeat' (first | (with_reducible refine ran_guard ?_; try simp only [↓kept_State_mapIo, ↓ran_done]))
theorem kept_execEvtCount (core : Nat) (s : State) : OutKeeps s (execEvtCount core s) := by
  unfold execEvtCount
  try simp only [↓out_next]
  all_goals repeat' (first | with_reducible exact kept_runIns _ _ _ _ _ (fun _ _ => kept_evtCountRun _ _ _ ))
theorem kept_emitRecord (n : Nat) (s : State) (i : Ins) (inst : Nat) (st : Nat) : Ran.Keeps s (emitRecord n s i inst st) := by
  unfold emitRecord
  try simp only [↓kept_State_setCore, ↓ran_done, ↓ran_stall]
  all_goals repeat' (first
    | (with_reducible refine ran_guard ?_; try simp only [↓kept_State_setCore, ↓ran_done, ↓ran_stall])
    | (split <;> try simp only [↓kept_State_setCore, ↓ran_done, ↓ran_stall])
    | (with_reducible refine (kept_putEntry _ _ _ _ _  ‹_›).trans ?_ <;> try simp only [↓kept_State_setCore, ↓ran_done, ↓ran_stall]))
theorem kept_emitOn (n : Nat) (s : State) (i : Ins) (k : Token) : Ran.Keeps s (emitOn n s i k) := by
  simp only [emitOn, ite_self, ↓kept_offerToken, ↓kept_State_setCore, ↓ran_done, ↓ran_jump, ↓ran_ite]
theorem kept_taskEmitRun (n : Nat) (s : State) (i : Ins) : Ran.Keeps s (taskEmitRun n s i) := by
  unfold taskEmitRun
  try simp only [↓ran_done]
  all_goals repeat' (first
    | with_reducible exact kept_emitRecord _ _ _ _ _ 
    | with_reducible exact kept_emitOn _ _ _ _ 
    | (with_reducible refine ran_guard ?_; try simp only [↓ran_done])
    | (split <;> try simp only [↓ran_done]))
theorem kept_fenceRun (s : State) (i : Ins) (conds : List (Bool × Nat)) : Ran.Keeps s (fenceRun s i conds) := by
  unfold fenceRun
  try simp only [↓ran_done, ↓ran_stall]
  all_goals repeat' (first
    | (with_reducible refine ran_guard ?_; try simp only [↓ran_done, ↓ran_stall])
    | (split <;> try simp only [↓ran_done, ↓ran_stall]))
theorem kept_execFenceTable (core : Nat) (s : State) : OutKeeps s (execFenceTable core s) := by
  unfold execFenceTable
  try simp only [↓out_next]
  all_goals repeat' (first | with_reducible exact kept_runIns _ _ _ _ _ (fun _ _ => kept_fenceRun _ _ _ ))
theorem kept_taskDoneRun (n : Nat) (s : State) (i : Ins) : Ran.Keeps s (taskDoneRun n s i) := by
  unfold taskDoneRun
  try simp only [↓kept_closeAny, ↓kept_housekeep, ↓kept_leaveTask, ↓ran_jump, ↓ran_stall]
  all_goals repeat' (first
    | (with_reducible refine ran_guard ?_; try simp only [↓kept_closeAny, ↓kept_housekeep, ↓kept_leaveTask, ↓ran_jump, ↓ran_stall])
    | (split <;> try simp only [↓kept_closeAny, ↓kept_housekeep, ↓kept_leaveTask, ↓ran_jump, ↓ran_stall])
    | (intro _ _; try simp only [↓kept_closeAny, ↓kept_housekeep, ↓kept_leaveTask, ↓ran_jump, ↓ran_stall])
    | (with_reducible refine (kept_foldl _ ?_ _ _).trans ?_ <;> try simp only [↓kept_closeAny, ↓kept_housekeep, ↓kept_leaveTask, ↓ran_jump,
        ↓ran_stall]))
theorem kept_execTaskDone (core : Nat) (s : State) : OutKeeps s (execTaskDone core s) := by
  unfold execTaskDone
  try simp only [↓out_next]
  all_goals repeat' (first | with_reducible exact kept_runIns _ _ _ _ _ (fun _ _ => kept_taskDoneRun _ _ _ ))
theorem kept_taskWaitRun (n : Nat) (s : State) (i : Ins) : Ran.Keeps s (taskWaitRun n s i) := by
  unfold taskWaitRun
  try simp only [↓kept_startNext, ↓kept_State_setCore, ↓ran_jump]
  all_goals repeat' (first | (with_reducible refine ran_guard ?_; try simp only [↓kept_startNext, ↓kept_State_setCore, ↓ran_jump]))
theorem kept_execTaskWait (core : Nat) (s : State) : OutKeeps s (execTaskWait core s) := by
  unfold execTaskWait
  try simp only [↓out_next]
  all_goals repeat' (first | with_reducible exact kept_runIns _ _ _ _ _ (fun _ _ => kept_taskWaitRun _ _ _ ))
theorem kept_execTaskEmit (core : Nat) (s : State) : OutKeeps s (execTaskEmit core s) := by
  unfold execTaskEmit
  try simp only [↓out_next]
  all_goals repeat' (first | with_reducible exact kept_runIns _ _ _ _ _ (fun _ _ => kept_taskEmitRun _ _ _ ))
theorem kept_execFenceAll (core : Nat) (s : State) : OutKeeps s (execFenceAll core s) := by
  unfold execFenceAll
  try simp only [↓out_next]
  all_goals repeat' (first | with_reducible exact kept_runIns _ _ _ _ _ (fun _ _ => kept_fenceRun _ _ _ ))
theorem kept_evtRaiseRun (n : Nat) (s : State) (i : Ins) : Ran.Keeps s (evtRaiseRun n s i) := by
  unfold evtRaiseRun
  try simp only [↓kept_ite, ite_self, ↓kept_State_mapIo, ↓kept_State_setCore, ↓ran_done]
  all_goals repeat' (first
    | (with_reducible refine ran_guard ?_; try simp only [↓kept_ite, ite_self, ↓kept_State_mapIo, ↓kept_State_setCore, ↓ran_done]))
theorem kept_execEvtRaise (core : Nat) (s : State) : OutKeeps s (execEvtRaise core s) := by
  unfold execEvtRaise
  try simp only [↓out_next]
  all_goals repeat' (first | with_reducible exact kept_runIns _ _ _ _ _ (fun _ _ => kept_evtRaiseRun _ _ _ ))
theorem kept_execNop (core : Nat) (s : State) : OutKeeps s (execNop core s) :=
  out_next.2 (kept_runIns _ _ _ _ _ (fun _ _ => ran_guard (ran_done.2 rfl)))
theorem kept_execFenceWrite (core : Nat) (s : State) : OutKeeps s (execFenceWrite core s) := by
  unfold execFenceWrite
  try simp only [↓out_next]
  all_goals repeat' (first | with_reducible exact kept_runIns _ _ _ _ _ (fun _ _ => kept_fenceRun _ _ _ ))
theorem kept_execTaskWaitTimeout (core : Nat) (s : State) : OutKeeps s (execTaskWaitTimeout core s) := by
  unfold execTaskWaitTimeout
  simp only [ite_self, ↓kept_startNext, ↓kept_State_mapIo, ↓kept_State_setCore, ↓out_next, ↓out_ite]
  split <;> simp only [ite_self, ↓kept_startNext, ↓kept_State_mapIo, ↓kept_State_setCore, ↓out_next, ↓out_ite]
theorem kept_setPed (s : State) (n : Nat) (serial : Nat) (f : Ped → Ped) : (setPed s n serial f).kept = s.kept := Eq.trans rfl rfl
theorem kept_writeLines (s : State) (tier : Nat) (a : Nat) (bs : List Byte) (poison : Nat)
    : (writeLines s tier a bs poison).kept = s.kept := by
  unfold writeLines
  try simp only [↓kept_State_tWrite]
  all_goals repeat' (first
    | (intro _ _; try simp only [↓kept_State_tWrite])
    | (with_reducible refine (kept_foldl _ ?_ _ _).trans ?_ <;> try simp only [↓kept_State_tWrite]))
theorem kept_endPed (s : State) (n : Nat) (p : Ped) (status : Option Nat) : (endPed s n p status).kept = s.kept := by
  unfold endPed
  split <;> simp only [↓kept_State_setCore, ↓kept_pedStatus]
theorem kept_applyPed (s : State) (n : Nat) (p : Ped) : (applyPed s n p).kept = s.kept := by
  unfold applyPed
  try simp only [↓kept_endPed, ↓kept_writeLines]
  repeat' (first | with_reducible rfl | (split <;> try simp only [↓kept_endPed, ↓kept_writeLines]))
theorem kept_streamAdvanceRun (n : Nat) (s : State) (i : Ins) : Ran.Keeps s (streamAdvanceRun n s i) := by
  unfold streamAdvanceRun
  try simp only [↓kept_ite1, ite_self, ↓kept_advanceRead, ↓kept_advanceWrite, ↓kept_State_setCore, ↓ran_done, ↓ran_stall, ↓ran_ite]
  all_goals repeat' (first
    | (with_reducible refine ran_guard ?_; try simp only [↓kept_ite1, ite_self, ↓kept_advanceRead, ↓kept_advanceWrite, ↓kept_State_setCore,
        ↓ran_done, ↓ran_stall, ↓ran_ite]))
theorem kept_execStreamAdvance (core : Nat) (s : State) : OutKeeps s (execStreamAdvance core s) := by
  unfold execStreamAdvance
  try simp only [↓out_next]
  all_goals repeat' (first | with_reducible exact kept_runIns _ _ _ _ _ (fun _ _ => kept_streamAdvanceRun _ _ _ ))
theorem kept_execWriteAck (core : Nat) (st : Nat) (s : State) : OutKeeps s (execWriteAck core st s) := by
  simp only [execWriteAck, ↓kept_housekeep, ↓kept_ackTile, ↓out_next]
theorem kept_streamReadRun (n : Nat) (s : State) (i : Ins) : Ran.Keeps s (streamReadRun n s i) := by
  unfold streamReadRun
  try simp only [↓kept_State_setCore, ↓ran_done]
  all_goals repeat' (first | (with_reducible refine ran_guard ?_; try simp only [↓kept_State_setCore, ↓ran_done]))
theorem kept_execPedlarIssue (core : Nat) (s : State) : OutKeeps s (execPedlarIssue core s) := by
  unfold execPedlarIssue
  split <;> simp only [↓kept_ite, ite_self, ↓kept_endPed, ↓kept_setPed, ↓kept_pedStatus, ↓kept_transmit, ↓out_next, ↓out_ite]
theorem kept_execPedlarComplete (core : Nat) (serial : Nat) (s : State) : OutKeeps s (execPedlarComplete core serial s) := by
  unfold execPedlarComplete
  repeat' split
  all_goals simp only [↓kept_applyPed, ↓kept_endPed, ↓out_next]
theorem kept_execLineRequestGrant (arb : Block) (s : State) : OutKeeps s (execLineRequestGrant arb s) := by
  simp only [execLineRequestGrant, ↓kept_grantLine, ↓out_next]
theorem kept_execLineReturn (r : LineReq) (s : State) : OutKeeps s (execLineReturn r s) := by
  simp only [execLineReturn, ite_self, ↓kept_housekeep, ↓kept_returnLine, ↓out_next, ↓out_ite]
theorem kept_execStreamHalt (core : Nat) (st : Nat) (s : State) : OutKeeps s (execStreamHalt core st s) := by
  simp only [execStreamHalt, ↓kept_housekeep, ↓kept_settleHalt, ↓out_next]
theorem kept_execRingStep (die : Nat) (set : Nat) (s : State) : OutKeeps s (execRingStep die set s) := by
  simp only [execRingStep, ↓kept_ringStep, ↓out_next]
theorem kept_execStreamRead (core : Nat) (s : State) : OutKeeps s (execStreamRead core s) := by
  unfold execStreamRead
  try simp only [↓out_next]
  all_goals repeat' (first | with_reducible exact kept_runIns _ _ _ _ _ (fun _ _ => kept_streamReadRun _ _ _ ))
theorem kept_pedlarSendRun (n : Nat) (s : State) (i : Ins) : Ran.Keeps s (pedlarSendRun n s i) := by
  unfold pedlarSendRun
  try simp only [ite_self, ↓kept_pedStatus, ↓kept_State_setCore, ↓ran_done, ↓ran_stall, ↓ran_ite]
  all_goals repeat' (first
    | (with_reducible refine ran_guard ?_; try simp only [ite_self, ↓kept_pedStatus, ↓kept_State_setCore, ↓ran_done, ↓ran_stall, ↓ran_ite]))
theorem kept_execPedlarSend (core : Nat) (s : State) : OutKeeps s (execPedlarSend core s) := by
  unfold execPedlarSend
  try simp only [↓out_next]
  all_goals repeat' (first | with_reducible exact kept_runIns _ _ _ _ _ (fun _ _ => kept_pedlarSendRun _ _ _ ))
theorem kept_streamOpenRun (n : Nat) (s : State) (i : Ins) : Ran.Keeps s (streamOpenRun n s i) := by
  unfold streamOpenRun
  try simp only [↓kept_State_setCore, ↓kept_openStrm, ↓ran_done]
  all_goals repeat' (first
    | (with_reducible refine ran_guard ?_; try simp only [↓kept_State_setCore, ↓kept_openStrm, ↓ran_done])
    | (split <;> try simp only [↓kept_State_setCore, ↓kept_openStrm, ↓ran_done]))
theorem kept_execStreamOpen (core : Nat) (s : State) : OutKeeps s (execStreamOpen core s) := by
  unfold execStreamOpen
  try simp only [↓out_next]
  all_goals repeat' (first | with_reducible exact kept_runIns _ _ _ _ _ (fun _ _ => kept_streamOpenRun _ _ _ ))
theorem kept_streamCloseRun (n : Nat) (s : State) (i : Ins) : Ran.Keeps s (streamCloseRun n s i) := by
  unfold streamCloseRun
  try simp only [↓kept_closeAny, ↓ran_done]
  all_goals repeat' (first | (with_reducible refine ran_guard ?_; try simp only [↓kept_closeAny, ↓ran_done]))
theorem kept_execCancelFenceDone (core : Nat) (s : State) : OutKeeps s (execCancelFenceDone core s) := by
  simp only [execCancelFenceDone, ite_self, ↓kept_finishCancels, ↓kept_housekeep, ↓kept_fenceDone, ↓out_next, ↓out_ite]
theorem kept_execStreamClose (core : Nat) (s : State) : OutKeeps s (execStreamClose core s) := by
  unfold execStreamClose
  try simp only [↓kept_housekeep, ↓out_next]
  all_goals repeat' (first | with_reducible exact kept_runIns _ _ _ _ _ (fun _ _ => kept_streamCloseRun _ _ _ ))

end Sys2Proof.Machine
end

