-- ==== Sys2Proof/Laws/KeptRows.lean ====
section
/-! SUPPORT. Frames of the fabric commands, the log, the wipes, rings, placement, resets and the Factor: each keeps `State.kept`. -/

namespace Sys2Proof.Machine

set_option linter.unusedSimpArgs false
set_option linter.unnecessarySeqFocus false
set_option linter.unreachableTactic false
set_option linter.unusedTactic false

theorem kept_msgDone (s : State) (serial : Nat) (last : Bool) (status : Nat) : (msgDone s serial last status).kept = s.kept := by
  unfold msgDone
  repeat' split
  all_goals simp only [↓kept_mk, ↓kept_fold, ↓kept_stageFail, ↓kept_sessError]
theorem kept_outDone (s : State) (o : OutPkt) (status : Nat) : (outDone s o status).kept = s.kept := by
  unfold outDone
  repeat' split
  all_goals simp only [↓kept_setPed, ↓kept_updateAnswer, ↓kept_collAbort, ↓kept_msgDone]
theorem kept_setInbox (s : State) (n : Nat) (x : Inbox) : (setInbox s n x).kept = s.kept := Eq.trans rfl rfl
theorem kept_execStepMark (p : Pkt) (s : State) : OutKeeps s (execStepMark p s) := by
  unfold execStepMark
  try simp only [↓kept_mk, ↓kept_fold, ↓kept_e2eAccept, ↓kept_e2eReply, ↓kept_State_mapIo, ↓out_next]
  repeat' (first
    | with_reducible rfl
    | (split <;> try simp only [↓kept_mk, ↓kept_fold, ↓kept_e2eAccept, ↓kept_e2eReply, ↓kept_State_mapIo, ↓out_next]))
theorem kept_takePkt (s : State) (p : Pkt) : (takePkt s p).kept = s.kept := by
  unfold takePkt
  split <;> simp only [↓kept_mk, ↓kept_fold]
theorem kept_fwdCredits (s : State) (dst : Nat) (inbox : Nat) : (fwdCredits s dst inbox).kept = s.kept := by
  unfold fwdCredits
  try simp only [↓kept_State_mapIo, ↓kept_setSess]
  all_goals repeat' (first
    | (split <;> try simp only [↓kept_State_mapIo, ↓kept_setSess])
    | (intro _ _; try simp only [↓kept_State_mapIo, ↓kept_setSess])
    | (with_reducible refine (kept_foldl _ ?_ _ _).trans ?_ <;> try simp only [↓kept_State_mapIo, ↓kept_setSess]))
theorem kept_execInboxCredit (p : Pkt) (s : State) : OutKeeps s (execInboxCredit p s) := by
  simp only [execInboxCredit, ↓kept_mk, ↓kept_fold, ↓kept_takePkt, ↓kept_pumpMsgs, ↓kept_fwdCredits, ↓out_next]
theorem kept_pumpFabric (s : State) : (pumpFabric s).kept = s.kept := by
  simp only [pumpFabric, ↓kept_pumpColls, ↓kept_pumpMsgs]
theorem kept_execE2eAck (p : Pkt) (s : State) : OutKeeps s (execE2eAck p s) := by
  unfold execE2eAck
  try simp only [↓kept_mk, ↓kept_fold, ↓kept_takePkt, ↓kept_outDone, ↓kept_pumpFabric, ↓out_next]
  all_goals repeat' (first
    | (intro _ _; try simp only [↓kept_mk, ↓kept_fold, ↓kept_takePkt, ↓kept_outDone, ↓kept_pumpFabric, ↓out_next])
    | (with_reducible refine (kept_foldl _ ?_ _ _).trans ?_ <;> try simp only [↓kept_mk, ↓kept_fold, ↓kept_takePkt, ↓kept_outDone,
        ↓kept_pumpFabric, ↓out_next]))
theorem kept_giveFlow (s : State) (die : Nat) (f : Nat) : (giveFlow s die f).kept = s.kept := Eq.trans rfl rfl
theorem kept_execInboxBind (c : Cmd) (s : State) : OutKeeps s (execInboxBind c s) := by
  unfold execInboxBind
  split <;> simp only [↓kept_refuse, ↓kept_setInbox, ↓kept_giveFlow, ↓kept_creditsFor, ↓kept_finish, ↓out_next]
theorem kept_execInboxUnbind (c : Cmd) (s : State) : OutKeeps s (execInboxUnbind c s) := by
  unfold execInboxUnbind
  simp only [ite_self, ↓kept_refuse, ↓kept_creditsFor, ↓kept_finish, ↓kept_unbindInbox, ↓out_next, ↓out_ite]
  split <;> simp only [ite_self, ↓kept_refuse, ↓kept_creditsFor, ↓kept_finish, ↓kept_unbindInbox, ↓out_next, ↓out_ite]
theorem kept_execUnreachableTimeout (dst : Nat) (s : State) : OutKeeps s (execUnreachableTimeout dst s) := by
  unfold execUnreachableTimeout
  try simp only [↓kept_mk, ↓kept_fold, ↓kept_State_mapIo, ↓kept_outDone, ↓kept_pumpFabric, ↓out_next]
  all_goals repeat' (first
    | (split <;> try simp only [↓kept_mk, ↓kept_fold, ↓kept_State_mapIo, ↓kept_outDone, ↓kept_pumpFabric, ↓out_next])
    | (intro _ _; try simp only [↓kept_mk, ↓kept_fold, ↓kept_State_mapIo, ↓kept_outDone, ↓kept_pumpFabric, ↓out_next])
    | (with_reducible refine (kept_foldl _ ?_ _ _).trans ?_ <;> try simp only [↓kept_mk, ↓kept_fold, ↓kept_State_mapIo, ↓kept_outDone,
        ↓kept_pumpFabric, ↓out_next]))
theorem kept_execEgpUpd (p : Pkt) (s : State) : OutKeeps s (execEgpUpd p s) := by
  unfold execEgpUpd
  try simp only [↓kept_mk, ↓kept_fold, ↓kept_e2eAccept, ↓kept_respond, ↓kept_e2eReply, ↓kept_logEntry, ↓kept_State_mapIo, ↓out_next]
  all_goals repeat' (first
    | (split <;> try simp only [↓kept_mk, ↓kept_fold, ↓kept_e2eAccept, ↓kept_respond, ↓kept_e2eReply, ↓kept_logEntry, ↓kept_State_mapIo,
        ↓out_next])
    | (intro _ _; try simp only [↓kept_mk, ↓kept_fold, ↓kept_e2eAccept, ↓kept_respond, ↓kept_e2eReply, ↓kept_logEntry, ↓kept_State_mapIo,
        ↓out_next])
    | (with_reducible refine (kept_foldl _ ?_ _ _).trans ?_ <;> try simp only [↓kept_mk, ↓kept_fold, ↓kept_e2eAccept, ↓kept_respond,
        ↓kept_e2eReply, ↓kept_logEntry, ↓kept_State_mapIo, ↓out_next]))
theorem kept_inboxWhole (s : State) (n : Nat) (x : Inbox) (src : Nat) (data : List Byte) (bad : Bool)
    : (inboxWhole s n x src data bad).kept = s.kept := by
  unfold inboxWhole
  split <;> simp only [↓kept_setInbox, ↓kept_placeMessage, ↓kept_releaseAt, ↓kept_arrive]
theorem kept_execInboxMsg (p : Pkt) (s : State) : OutKeeps s (execInboxMsg p s) := by
  unfold execInboxMsg
  try simp only [↓kept_e2eAccept, ↓kept_e2eReply, ↓kept_setIngress, ↓kept_creditsFor, ↓kept_setInbox, ↓kept_inboxWhole, ↓out_next]
  repeat' (first
    | with_reducible rfl
    | (split <;> try simp only [↓kept_e2eAccept, ↓kept_e2eReply, ↓kept_setIngress, ↓kept_creditsFor, ↓kept_setInbox, ↓kept_inboxWhole,
        ↓out_next]))
theorem kept_execPedlarWr (p : Pkt) (s : State) : OutKeeps s (execPedlarWr p s) := by
  unfold execPedlarWr
  try simp only [↓kept_e2eAccept, ↓kept_e2eReply, ↓kept_writeLines, ↓out_next]
  repeat' (first | with_reducible rfl | (split <;> try simp only [↓kept_e2eAccept, ↓kept_e2eReply, ↓kept_writeLines, ↓out_next]))
theorem kept_execSessFwd (c : Cmd) (s : State) : OutKeeps s (execSessFwd c s) := by
  unfold execSessFwd
  repeat' split
  all_goals simp only [ite_self, ↓kept_refuse, ↓kept_setSess, ↓kept_fwdCredits, ↓kept_finish, ↓out_next, ↓out_ite]
theorem kept_execEgpRes (p : Pkt) (s : State) : OutKeeps s (execEgpRes p s) := by
  unfold execEgpRes
  simp only [↓kept_takePkt, ↓kept_updateAnswer, ↓out_next]
  split <;> simp only [↓kept_takePkt, ↓kept_updateAnswer, ↓out_next]
theorem kept_logRec (s : State) (r : EvRec) : (logRec s r).kept = s.kept := by
  simp only [logRec, ↓kept_mk, ↓kept_fold, ↓kept_ite, ite_self, ↓startPage_burnt, ↓burnt_ite, burnt_mk, burnt_fold]
theorem kept_toLog (s : State) (r : EvRec) : (toLog s r).kept = s.kept := by
  simp only [toLog, ↓kept_ite, ite_self, ↓kept_logRec]
theorem kept_allToLog (s : State) : (allToLog s).kept = s.kept := by
  unfold allToLog
  try simp only [↓kept_mk, ↓kept_fold, ↓kept_toLog]
  all_goals repeat' (first
    | (intro _ _; try simp only [↓kept_mk, ↓kept_fold, ↓kept_toLog])
    | (with_reducible refine (kept_foldl _ ?_ _ _).trans ?_ <;> try simp only [↓kept_mk, ↓kept_fold, ↓kept_toLog]))
theorem kept_setEvtQueue (s : State) (q : Nat) (x : EvtQueue) : (setEvtQueue s q x).kept = s.kept := Eq.trans rfl rfl
theorem kept_execQueueCfgWrite (who : Requester) (q : Nat) (value : W32) (s : State) : OutKeeps s (execQueueCfgWrite who q value s) := by
  unfold execQueueCfgWrite
  simp only [↓kept_mk, ↓kept_fold, ite_self, ↓kept_State_mapIo, ↓kept_setEvtQueue, ↓out_next, ↓out_ite]
  split <;> simp only [↓kept_mk, ↓kept_fold, ite_self, ↓kept_State_mapIo, ↓kept_setEvtQueue, ↓out_next, ↓out_ite]
theorem kept_execArmWrite (who : Requester) (q : Nat) (value : W32) (s : State) : OutKeeps s (execArmWrite who q value s) := by
  unfold execArmWrite
  simp only [↓kept_mk, ↓kept_fold, ite_self, ↓kept_State_mapIo, ↓kept_fireVector, ↓kept_setEvtQueue, ↓out_next, ↓out_ite]
  split <;> simp only [↓kept_mk, ↓kept_fold, ite_self, ↓kept_State_mapIo, ↓kept_fireVector, ↓kept_setEvtQueue, ↓out_next, ↓out_ite]
theorem kept_queueLost (s : State) (q : Nat) (n : Nat) : (queueLost s q n).kept = s.kept := Eq.trans rfl rfl
theorem kept_sendBatch (s : State) (q : Nat) : (sendBatch s q).kept = s.kept := by
  unfold sendBatch
  split <;> simp only [↓kept_ite, ite_self, ↓kept_setEvtQueue, ↓kept_queueLost, ↓kept_sessSend]
theorem kept_execEventBatchTimeout (q : Nat) (s : State) : OutKeeps s (execEventBatchTimeout q s) := by
  simp only [execEventBatchTimeout, ↓kept_sendBatch, ↓out_next]
theorem kept_execLogPageWritten (s : State) : OutKeeps s (execLogPageWritten s) := by
  simp only [execLogPageWritten, ↓kept_mk, ↓kept_fold, ite_self, ↓startPage_burnt, ↓burnt_ite, burnt_mk, burnt_fold, ↓out_next]
theorem kept_ringRecord (s : State) (q : Nat) (r : EvRec) : (ringRecord s q r).kept = s.kept := by
  simp only [ringRecord, ↓kept_ite, ite_self, ↓kept_queueLost, ↓kept_hostWrite, ↓kept_setEvtQueue, ↓kept_State_mapIo, ↓kept_fireVector]
theorem kept_sessRecord (s : State) (q : Nat) (r : EvRec) : (sessRecord s q r).kept = s.kept := by
  simp only [sessRecord, ↓kept_ite, ite_self, ↓kept_queueLost, ↓kept_setEvtQueue, ↓kept_sendBatch]
theorem kept_deliverRecord (s : State) (r : EvRec) : (deliverRecord s r).kept = s.kept := by
  unfold deliverRecord
  try simp only [↓kept_ite, ite_self, ↓kept_State_mapIo, ↓kept_sessRecord, ↓kept_ringRecord, ↓kept_toLog]
  all_goals repeat' (first
    | (intro _ _; try simp only [↓kept_ite, ite_self, ↓kept_State_mapIo, ↓kept_sessRecord, ↓kept_ringRecord, ↓kept_toLog])
    | (with_reducible refine (kept_foldl _ ?_ _ _).trans ?_ <;> try simp only [↓kept_ite, ite_self, ↓kept_State_mapIo, ↓kept_sessRecord,
        ↓kept_ringRecord, ↓kept_toLog]))
theorem kept_execLogFlushTimeout (s : State) : OutKeeps s (execLogFlushTimeout s) := by
  simp only [execLogFlushTimeout, ↓kept_mk, ↓kept_fold, ↓startPage_burnt, ↓out_next]
theorem kept_execEventRecordIntake (s : State) : OutKeeps s (execEventRecordIntake s) := by
  unfold execEventRecordIntake
  split <;> simp only [↓kept_mk, ↓kept_fold, ↓kept_deliverRecord, ↓out_next]
theorem kept_closeAllStrms (s : State) (n : Nat) : (closeAllStrms s n).kept = s.kept := by
  unfold closeAllStrms
  try simp only [↓kept_mk, ↓kept_fold, ↓kept_ite, ite_self, ↓kept_closeRead, ↓kept_closeStrm, ↓kept_endGangs]
  all_goals repeat' (first
    | (intro _ _; try simp only [↓kept_mk, ↓kept_fold, ↓kept_ite, ite_self, ↓kept_closeRead, ↓kept_closeStrm, ↓kept_endGangs])
    | (with_reducible refine (kept_foldl _ ?_ _ _).trans ?_ <;> try simp only [↓kept_mk, ↓kept_fold, ↓kept_ite, ite_self, ↓kept_closeRead,
        ↓kept_closeStrm, ↓kept_endGangs]))
theorem kept_requeueNext (s : State) (n : Nat) : (requeueNext s n).kept = s.kept := by
  unfold requeueNext
  try simp only [↓kept_dropTask, ↓kept_State_mapCaller]
  all_goals repeat' (first
    | (split <;> try simp only [↓kept_dropTask, ↓kept_State_mapCaller])
    | (with_reducible refine (kept_takeNext _ _  ‹_›).trans ?_ <;> try simp only [↓kept_dropTask, ↓kept_State_mapCaller]))
theorem kept_coreWipe (imem : Bool) (s : State) (n : Nat) : (coreWipe imem s n).kept = s.kept := by
  unfold coreWipe
  try simp only [↓kept_mk, ↓kept_fold, ↓kept_closeAllStrms, ↓kept_requeueNext, ↓kept_leaveTask, ↓kept_State_mapCaller, ↓kept_State_setCore,
      ↓kept_housekeep, ↓kept_settleAll, ↓kept_stageFail, ↓kept_finishCancels, ↓kept_State_mapIo, ↓kept_setMode]
  all_goals repeat' (first
    | (intro _ _; try simp only [↓kept_mk, ↓kept_fold, ↓kept_closeAllStrms, ↓kept_requeueNext, ↓kept_leaveTask, ↓kept_State_mapCaller,
        ↓kept_State_setCore, ↓kept_housekeep, ↓kept_settleAll, ↓kept_stageFail, ↓kept_finishCancels, ↓kept_State_mapIo, ↓kept_setMode])
    | (with_reducible refine (kept_foldl _ ?_ _ _).trans ?_ <;> try simp only [↓kept_mk, ↓kept_fold, ↓kept_closeAllStrms,
        ↓kept_requeueNext, ↓kept_leaveTask, ↓kept_State_mapCaller, ↓kept_State_setCore, ↓kept_housekeep, ↓kept_settleAll, ↓kept_stageFail,
        ↓kept_finishCancels, ↓kept_State_mapIo, ↓kept_setMode]))
theorem kept_instDrop (s : State) (x : FusedInst) : (instDrop s x).kept = s.kept := by
  simp only [instDrop, ↓kept_setInst, ↓kept_instStop, ↓kept_instComplete]
theorem kept_callerWipe (keep : Bool) (s : State) (d : Nat) : (callerWipe keep s d).kept = s.kept := by
  unfold callerWipe
  try simp only [↓kept_mk, ↓kept_fold, ↓kept_instDrop, ↓kept_State_setCaller, ↓kept_routeDone, ↓kept_finish, ↓kept_passRecords,
      ↓kept_State_mapIo]
  all_goals repeat' (first
    | (split <;> try simp only [↓kept_mk, ↓kept_fold, ↓kept_instDrop, ↓kept_State_setCaller, ↓kept_routeDone, ↓kept_finish,
        ↓kept_passRecords, ↓kept_State_mapIo])
    | (intro _ _; try simp only [↓kept_mk, ↓kept_fold, ↓kept_instDrop, ↓kept_State_setCaller, ↓kept_routeDone, ↓kept_finish,
        ↓kept_passRecords, ↓kept_State_mapIo])
    | (with_reducible refine (kept_foldl _ ?_ _ _).trans ?_ <;> try simp only [↓kept_mk, ↓kept_fold, ↓kept_instDrop, ↓kept_State_setCaller,
        ↓kept_routeDone, ↓kept_finish, ↓kept_passRecords, ↓kept_State_mapIo]))
theorem kept_mergeWipe (s : State) (d : Nat) : (mergeWipe s d).kept = s.kept := by
  unfold mergeWipe
  try simp only [↓kept_mk, ↓kept_fold, ↓kept_completeInsts, ↓kept_mergeAbort, ↓kept_State_mapIo]
  all_goals repeat' (first
    | (intro _ _; try simp only [↓kept_mk, ↓kept_fold, ↓kept_completeInsts, ↓kept_mergeAbort, ↓kept_State_mapIo])
    | (with_reducible refine (kept_foldl _ ?_ _ _).trans ?_ <;> try simp only [↓kept_mk, ↓kept_fold, ↓kept_completeInsts, ↓kept_mergeAbort,
        ↓kept_State_mapIo]))
theorem kept_weaverWipe (s : State) (u : Nat) : (weaverWipe s u).kept = s.kept := by
  simp only [weaverWipe, ↓kept_State_mapIo, ↓kept_stopCopies]
theorem kept_assayDrop (s : State) (u : Nat) : (assayDrop s u).kept = s.kept := by
  unfold assayDrop
  try simp only [↓kept_mk, ↓kept_fold, ↓kept_assayAnswer]
  all_goals repeat' (first
    | (intro _ _; try simp only [↓kept_mk, ↓kept_fold, ↓kept_assayAnswer])
    | (with_reducible refine (kept_foldl _ ?_ _ _).trans ?_ <;> try simp only [↓kept_mk, ↓kept_fold, ↓kept_assayAnswer]))
theorem kept_assayWipe (s : State) (u : Nat) : (assayWipe s u).kept = s.kept := by
  simp only [assayWipe, ↓kept_State_mapIo, ↓kept_clearRows, ↓kept_assayDrop]
theorem kept_egpWipe (s : State) (u : Nat) : (egpWipe s u).kept = s.kept := by
  unfold egpWipe
  try simp only [↓kept_mk, ↓kept_fold, ↓kept_resetRuns, ↓kept_fenceForget, ↓kept_endReq, ↓kept_State_mapIo]
  all_goals repeat' (first
    | (intro _ _; try simp only [↓kept_mk, ↓kept_fold, ↓kept_resetRuns, ↓kept_fenceForget, ↓kept_endReq, ↓kept_State_mapIo])
    | (with_reducible refine (kept_foldl _ ?_ _ _).trans ?_ <;> try simp only [↓kept_mk, ↓kept_fold, ↓kept_resetRuns, ↓kept_fenceForget, ↓kept_endReq,
        ↓kept_State_mapIo]))
theorem kept_winDrop (s : State) (u : Nat) (r : UReq) : (winDrop s u r).kept = s.kept := by
  simp only [winDrop, ↓kept_cancelOne, ↓kept_endReq]
theorem kept_winWipe (s : State) (u : Nat) : (winWipe s u).kept = s.kept := by
  unfold winWipe
  try simp only [↓kept_mk, ↓kept_fold, ↓kept_resetRuns, ↓kept_winDrop, ↓kept_endMember, ↓kept_completeInsts, ↓kept_mergeAbort, ↓kept_State_mapIo]
  all_goals repeat' (first
    | (split <;> try simp only [↓kept_mk, ↓kept_fold, ↓kept_resetRuns, ↓kept_winDrop, ↓kept_endMember, ↓kept_completeInsts, ↓kept_mergeAbort,
        ↓kept_State_mapIo])
    | (intro _ _; try simp only [↓kept_mk, ↓kept_fold, ↓kept_resetRuns, ↓kept_winDrop, ↓kept_endMember, ↓kept_completeInsts, ↓kept_mergeAbort,
        ↓kept_State_mapIo])
    | (with_reducible refine (kept_foldl _ ?_ _ _).trans ?_ <;> try simp only [↓kept_mk, ↓kept_fold, ↓kept_resetRuns, ↓kept_winDrop, ↓kept_endMember,
        ↓kept_completeInsts, ↓kept_mergeAbort, ↓kept_State_mapIo]))
theorem kept_withdrawAll (s : State) : (withdrawAll s).kept = s.kept := Eq.trans rfl rfl
theorem kept_clusterWipe (imem : Bool) (s : State) (c : Nat) : (clusterWipe imem s c).kept = s.kept := by
  unfold clusterWipe
  try simp only [↓kept_coreWipe, ↓kept_winWipe, ↓kept_egpWipe, ↓kept_assayWipe]
  all_goals repeat' (first
    | (intro _ _; try simp only [↓kept_coreWipe, ↓kept_winWipe, ↓kept_egpWipe, ↓kept_assayWipe])
    | (with_reducible refine (kept_foldl _ ?_ _ _).trans ?_ <;> try simp only [↓kept_coreWipe, ↓kept_winWipe, ↓kept_egpWipe,
        ↓kept_assayWipe]))
theorem kept_dieWipe (s : State) (d : Nat) : (dieWipe s d).kept = s.kept := by
  unfold dieWipe
  try simp only [↓kept_clusterWipe, ↓kept_weaverWipe, ↓kept_callerWipe, ↓kept_mergeWipe, ↓kept_State_mapIo, ↓kept_housekeep]
  all_goals repeat' (first
    | (intro _ _; try simp only [↓kept_clusterWipe, ↓kept_weaverWipe, ↓kept_callerWipe, ↓kept_mergeWipe, ↓kept_State_mapIo,
        ↓kept_housekeep])
    | (with_reducible refine (kept_foldl _ ?_ _ _).trans ?_ <;> try simp only [↓kept_clusterWipe, ↓kept_weaverWipe, ↓kept_callerWipe,
        ↓kept_mergeWipe, ↓kept_State_mapIo, ↓kept_housekeep]))
theorem kept_facAnswer (s : State) (src : Option Nat) (op : Nat) (status : Nat) (payload : List Byte)
    : (facAnswer s src op status payload).kept = s.kept := by
  unfold facAnswer
  split <;> simp only [↓kept_mk, ↓kept_fold, burnt_mk, burnt_fold, ↓kept_State_mapIo]
theorem kept_facRecord (s : State) (b : Block) (cls : Nat) (code : Nat) (addr : Nat) (info : Nat)
    : (facRecord s b cls code addr info).kept = s.kept := by
  simp only [facRecord, ↓kept_mk, ↓kept_fold, ↓kept_ite, ite_self, ↓kept_logRec]
theorem kept_facNote (s : State) (b : Block) (bit : Nat) (cls : Nat) (code : Nat) (info : Nat)
    : (facNote s b bit cls code info).kept = s.kept := by
  simp only [facNote, ↓kept_facRecord, ↓kept_State_mapIo]
theorem kept_execFenceRefresh (table : Nat) (s : State) : OutKeeps s (execFenceRefresh table s) := by
  simp only [execFenceRefresh, ↓kept_fenceRefresh, ↓out_next]
theorem kept_execStepFence (c : Cmd) (s : State) : OutKeeps s (execStepFence c s) := by
  unfold execStepFence
  split <;> simp only [↓kept_refuse, ↓kept_housekeep, ↓kept_fenceClose, ↓out_next]
theorem kept_winRow1 (s : State) (u : Nat) (op : Nat) : (winRow1 s u op).kept = s.kept := by
  simp only [winRow1, ↓kept_ite, ite_self, ↓kept_housekeep, ↓kept_winStep]
theorem kept_execListmerge (unit : Nat) (s : State) : OutKeeps s (execListmerge unit s) := by
  simp only [execListmerge, ↓kept_winRow1, ↓out_next]
theorem kept_egpRow (s : State) (u : Nat) (op : Nat) : (egpRow s u op).kept = s.kept := by
  simp only [egpRow, ↓kept_ite, ite_self, ↓kept_housekeep, ↓kept_egpStep]
theorem kept_execPoolMean (unit : Nat) (s : State) : OutKeeps s (execPoolMean unit s) := by
  simp only [execPoolMean, ↓kept_egpRow, ↓out_next]
theorem kept_execMergePartial (die : Nat) (group : Nat) (s : State) : OutKeeps s (execMergePartial die group s) := by
  simp only [execMergePartial, ↓kept_housekeep, ↓kept_mergeArrive, ↓out_next]
theorem kept_execFenceApply (table : Nat) (s : State) : OutKeeps s (execFenceApply table s) := by
  simp only [execFenceApply, ↓kept_fenceApply, ↓out_next]
theorem kept_unitRun (s : State) (egp : Bool) (c : Cmd) : (unitRun s egp c).kept = s.kept := by
  unfold unitRun
  try simp only [↓kept_mk, ↓kept_fold, ↓kept_finish, ↓kept_refuse, ↓kept_takeRefs, ↓kept_housekeep, ↓kept_pumpRuns]
  repeat' (first
    | with_reducible rfl
    | (split <;> try simp only [↓kept_mk, ↓kept_fold, ↓kept_finish, ↓kept_refuse, ↓kept_takeRefs, ↓kept_housekeep, ↓kept_pumpRuns]))
theorem kept_execEgpRun (c : Cmd) (s : State) : OutKeeps s (execEgpRun c s) := by
  simp only [execEgpRun, ↓kept_unitRun, ↓out_next]
theorem kept_execEgpUpdate (unit : Nat) (s : State) : OutKeeps s (execEgpUpdate unit s) := by
  simp only [execEgpUpdate, ↓kept_egpRow, ↓out_next]
theorem kept_execWeightedSum (unit : Nat) (s : State) : OutKeeps s (execWeightedSum unit s) := by
  simp only [execWeightedSum, ↓kept_egpRow, ↓out_next]
theorem kept_execTopk (unit : Nat) (s : State) : OutKeeps s (execTopk unit s) := by
  simp only [execTopk, ↓kept_winRow1, ↓out_next]
theorem kept_execFenceOpen (table : Nat) (s : State) : OutKeeps s (execFenceOpen table s) := by
  simp only [execFenceOpen, ↓kept_housekeep, ↓kept_fenceOpen, ↓out_next]
theorem kept_execGather (unit : Nat) (s : State) : OutKeeps s (execGather unit s) := by
  simp only [execGather, ↓kept_egpRow, ↓out_next]
theorem kept_execWinnowRun (c : Cmd) (s : State) : OutKeeps s (execWinnowRun c s) := by
  simp only [execWinnowRun, ↓kept_unitRun, ↓out_next]
theorem kept_execPoolSum (unit : Nat) (s : State) : OutKeeps s (execPoolSum unit s) := by
  simp only [execPoolSum, ↓kept_egpRow, ↓out_next]
theorem kept_execHeatEpoch (s : State) : OutKeeps s (execHeatEpoch s) := by
  simp only [execHeatEpoch, ↓kept_heatEpoch, ↓out_next]
theorem kept_ctrlRingWrite (s : State) (off value : Nat) : (ctrlRingWrite s off value).kept = s.kept := by
  unfold ctrlRingWrite
  extract_lets o cap sq cq r bad new t
  have hc : ∀ c, (cap c).kept = s.kept := fun c => kept_State_mapIo _ _
  have ht : t.kept = s.kept := kept_State_mapIo _ _
  clear_value o cap sq cq r bad new t
  split
  · exact hc _
  · split
    · exact hc _
    · rw [kept_mk]; exact ht
theorem kept_ringFault (s : State) (k : Nat) (r : Ring) : (ringFault s k r).kept = s.kept := Eq.trans rfl rfl
theorem kept_dbDiscard (s : State) (slot : Nat) (o : Nat) (stale : Bool) : (dbDiscard s slot o stale).kept = s.kept := Eq.trans rfl rfl
theorem kept_execCqDb (slot : Nat) (value : W32) (s : State) : OutKeeps s (execCqDb slot value s) := by
  unfold execCqDb
  simp only [ite_self, ↓kept_dbDiscard, ↓kept_drainRing, ↓kept_State_setRing, ↓out_next, ↓out_ite]
  split <;> simp only [ite_self, ↓kept_dbDiscard, ↓kept_drainRing, ↓kept_State_setRing, ↓out_next, ↓out_ite]
theorem kept_execCqArm (slot : Nat) (value : W32) (s : State) : OutKeeps s (execCqArm slot value s) := by
  unfold execCqArm
  simp only [ite_self, ↓kept_dbDiscard, ↓kept_fireVector, ↓kept_State_setRing, ↓out_next, ↓out_ite]
  split <;> simp only [ite_self, ↓kept_dbDiscard, ↓kept_fireVector, ↓kept_State_setRing, ↓out_next, ↓out_ite]
theorem kept_execRingSet (c : Cmd) (s : State) : OutKeeps s (execRingSet c s) := by
  unfold execRingSet
  split <;> simp only [↓kept_mk, ↓kept_fold, ↓kept_ite, ite_self, ↓kept_refuse, ↓kept_State_setRing, ↓kept_creditsFor, ↓kept_finish,
      ↓out_next]
theorem kept_advanceHead (s : State) (k : Nat) (r : Ring) : (advanceHead s k r).kept = s.kept := Eq.trans rfl rfl
theorem kept_takeSubmission (s : State) (k : Nat) (r : Ring) : (takeSubmission s k r).kept = s.kept := by
  unfold takeSubmission
  simp only [↓kept_mk, ↓kept_fold, ↓kept_ite, ite_self, ↓kept_advanceHead, ↓kept_touchCn, ↓kept_refuse]
  split <;> simp only [↓kept_mk, ↓kept_fold, ↓kept_ite, ite_self, ↓kept_advanceHead, ↓kept_touchCn, ↓kept_refuse]
theorem kept_execSubmissionEntryRead (ring : Nat) (how : ReadEnd) (s : State) : OutKeeps s (execSubmissionEntryRead ring how s) := by
  unfold execSubmissionEntryRead
  repeat' split
  all_goals simp only [↓kept_ringFault, ↓kept_State_mapIo, ↓kept_advanceHead, ↓kept_postRecord, ↓kept_takeSubmission, ↓out_next]
theorem kept_execModTimeExpiry (ring : Nat) (s : State) : OutKeeps s (execModTimeExpiry ring s) := by
  unfold execModTimeExpiry
  split <;> simp only [ite_self, ↓kept_fireVector, ↓kept_State_setRing, ↓out_next, ↓out_ite]
theorem kept_execCtrlRingWrite (who : Requester) (off : Nat) (value : W64) (s : State)
    : OutKeeps s (execCtrlRingWrite who off value s) := by
  have h := kept_ctrlRingWrite s off value.toNat
  unfold execCtrlRingWrite
  generalize ctrlRingWrite s off value.toNat = t at *
  extract_lets o
  clear_value o
  split
  · exact out_next.2 rfl
  · split
    · exact out_next.2 rfl
    · exact out_next.2 h
theorem kept_sendPending (s : State) : (sendPending s).kept = s.kept := by
  unfold sendPending
  try simp only [↓kept_mk, ↓kept_fold, ↓kept_fireVector]
  all_goals repeat' (first
    | (intro _ _; try simp only [↓kept_mk, ↓kept_fold, ↓kept_fireVector])
    | (with_reducible refine (kept_foldl _ ?_ _ _).trans ?_ <;> try simp only [↓kept_mk, ↓kept_fold, ↓kept_fireVector]))
theorem kept_releaseHeld (s : State) : (releaseHeld s).kept = s.kept := by
  unfold releaseHeld
  try simp only [↓kept_mk, ↓kept_fold, ↓kept_hostWrite, ↓kept_fireVector]
  all_goals repeat' (first
    | (split <;> try simp only [↓kept_mk, ↓kept_fold, ↓kept_hostWrite, ↓kept_fireVector])
    | (intro _ _; try simp only [↓kept_mk, ↓kept_fold, ↓kept_hostWrite, ↓kept_fireVector])
    | (with_reducible refine (kept_foldl _ ?_ _ _).trans ?_ <;> try simp only [↓kept_mk, ↓kept_fold, ↓kept_hostWrite, ↓kept_fireVector]))
theorem kept_execBusMasterEnable (on : Bool) (s : State) : OutKeeps s (execBusMasterEnable on s) := by
  simp only [execBusMasterEnable, ↓kept_mk, ↓kept_fold, ↓kept_ite, ite_self, ↓kept_releaseHeld, ↓out_next]
theorem kept_execMsixVectorUnmask (off : Nat) (value : W32) (s : State) : OutKeeps s (execMsixVectorUnmask off value s) := by
  simp only [execMsixVectorUnmask, ↓kept_mk, ↓kept_fold, ite_self, ↓kept_sendPending, ↓out_next, ↓out_ite]
theorem kept_execSqDb (slot : Nat) (value : W32) (s : State) : OutKeeps s (execSqDb slot value s) := by
  unfold execSqDb
  simp only [↓kept_mk, ↓kept_fold, ite_self, ↓kept_dbDiscard, ↓kept_State_setRing, ↓out_next, ↓out_ite]
  split <;> simp only [↓kept_mk, ↓kept_fold, ite_self, ↓kept_dbDiscard, ↓kept_State_setRing, ↓out_next, ↓out_ite]
theorem kept_tier3Feature (s : State) : (tier3Feature s).kept = s.kept := Eq.trans rfl rfl
theorem kept_execCxlHotAdd (port : Nat) (raw : Nat) (speed : Nat) (width : Nat) (type3 : Bool) (s : State)
    : OutKeeps s (execCxlHotAdd port raw speed width type3 s) := by
  simp only [execCxlHotAdd, ↓kept_mk, ↓kept_fold, ite_self, ↓kept_tier3Feature, ↓out_next, ↓out_ite]
theorem kept_nextPage (s : State) (left : List Nat) : (nextPage s left).kept = s.kept := by
  unfold nextPage
  split <;> simp only [↓kept_State_mapIo]
theorem kept_execPrgResponse (page : Nat) (resp : PrgResp) (s : State) : OutKeeps s (execPrgResponse page resp s) := by
  unfold execPrgResponse
  repeat' split
  all_goals simp only [↓kept_mk, ↓kept_fold, ↓kept_housekeep, ↓kept_resumeWhere, ↓kept_nextPage, ↓kept_failWhere, ↓out_next]
theorem kept_execAtsPriEnable (ats : Bool) (pri : Bool) (s : State) : OutKeeps s (execAtsPriEnable ats pri s) := by
  simp only [execAtsPriEnable, ↓kept_mk, ↓kept_fold, ↓out_next]
theorem kept_withCplErr (s : State) (f : State → State) (h : ∀ s, (f s).kept = s.kept) : (withCplErr s f).kept = s.kept := h _
theorem kept_execCplTimeout (what : HostRead) (s : State) : OutKeeps s (execCplTimeout what s) := by
  unfold execCplTimeout
  try simp only [↓kept_State_mapIo, ↓kept_ringFault, ↓kept_housekeep, ↓kept_returnLine, ↓kept_egpRow, ↓kept_winRow1, ↓kept_weaveDone,
      ↓out_next]
  all_goals repeat' (first
    | (split <;> try simp only [↓kept_State_mapIo, ↓kept_ringFault, ↓kept_housekeep, ↓kept_returnLine, ↓kept_egpRow, ↓kept_winRow1,
        ↓kept_weaveDone, ↓out_next])
    | (refine kept_withCplErr _ _ (fun _ => ?_) <;> try simp only [↓kept_State_mapIo, ↓kept_ringFault, ↓kept_housekeep, ↓kept_returnLine,
        ↓kept_egpRow, ↓kept_winRow1, ↓kept_weaveDone, ↓out_next]))
theorem kept_execCxlLinkDown (port : Nat) (s : State) : OutKeeps s (execCxlLinkDown port s) := by
  simp only [execCxlLinkDown, ↓kept_mk, ↓kept_fold, ite_self, ↓kept_tier3Feature, ↓out_next, ↓out_ite]
theorem kept_execAtsInvalidation (die : Nat) (page : Nat) (s : State) : OutKeeps s (execAtsInvalidation die page s) := by
  simp only [execAtsInvalidation, ↓kept_mk, ↓kept_fold, ↓out_next]
theorem kept_execAtsInvalidationDone (die : Nat) (page : Nat) (s : State) : OutKeeps s (execAtsInvalidationDone die page s) := by
  simp only [execAtsInvalidationDone, ↓kept_mk, ↓kept_fold, ite_self, ↓out_next, ↓out_ite]
theorem kept_execResizableBar (log2 : Nat) (s : State) : OutKeeps s (execResizableBar log2 s) := by
  simp only [execResizableBar, ↓kept_mk, ↓kept_fold, ite_self, ↓out_next, ↓out_ite]
theorem kept_barAccess (s : State) (h : HeldAccess) : (barAccess s h).kept = s.kept := by
  unfold barAccess
  repeat' split
  all_goals simp only [↓kept_mk, ↓kept_fold, ↓kept_ite, ite_self]
theorem kept_releaseAccesses (s : State) : (releaseAccesses s).kept = s.kept := by
  unfold releaseAccesses
  try simp only [↓kept_mk, ↓kept_fold, ↓kept_barAccess]
  all_goals repeat' (first
    | (intro _ _; try simp only [↓kept_mk, ↓kept_fold, ↓kept_barAccess])
    | (with_reducible refine (kept_foldl _ ?_ _ _).trans ?_ <;> try simp only [↓kept_mk, ↓kept_fold, ↓kept_barAccess]))
theorem kept_execPoolWrite (who : Requester) (value : W32) (s : State) : OutKeeps s (execPoolWrite who value s) := by
  unfold execPoolWrite
  simp only [↓kept_mk, ↓kept_fold, ite_self, ↓out_next, ↓out_ite]
  split <;> simp only [↓kept_mk, ↓kept_fold, ite_self, ↓out_next, ↓out_ite]
theorem kept_execApertureAccess (off : Nat) (len : Nat) (data : Option (List Byte)) (ep : Bool) (s : State)
    : OutKeeps s (execApertureAccess off len data ep s) := by
  unfold execApertureAccess
  try simp only [↓kept_mk, ↓kept_fold, ↓kept_State_mapIo, ↓kept_barAccess, ↓out_next]
  repeat' (first | with_reducible rfl | (split <;> try simp only [↓kept_mk, ↓kept_fold, ↓kept_State_mapIo, ↓kept_barAccess, ↓out_next]))
theorem kept_execMoveMark (page : Nat) (s : State) : OutKeeps s (execMoveMark page s) := by
  unfold execMoveMark
  split <;> simp only [↓kept_mk, ↓kept_fold, ite_self, ↓out_next, ↓out_ite]
theorem kept_execMoveRelease (page : Nat) (s : State) : OutKeeps s (execMoveRelease page s) := by
  unfold execMoveRelease
  split <;> simp only [↓kept_mk, ↓kept_fold, ↓kept_releaseAccesses, ↓kept_housekeep, ↓kept_resumeWhere, ↓out_next]
theorem kept_keepPage (s : State) (t : State) (b : Block) : (keepPage s t b).kept = t.kept := Eq.trans rfl rfl
theorem kept_carterWipe (s : State) (n : Nat) : (carterWipe s n).kept = s.kept := by
  unfold carterWipe
  try simp only [↓kept_closeAllStrms, ↓kept_pedStatus, ↓kept_State_setCore, ↓kept_setMode, ↓kept_housekeep, ↓kept_finishCancels,
      ↓kept_State_mapIo]
  all_goals repeat' (first
    | (intro _ _; try simp only [↓kept_closeAllStrms, ↓kept_pedStatus, ↓kept_State_setCore, ↓kept_setMode, ↓kept_housekeep,
        ↓kept_finishCancels, ↓kept_State_mapIo])
    | (with_reducible refine (kept_foldl _ ?_ _ _).trans ?_ <;> try simp only [↓kept_closeAllStrms, ↓kept_pedStatus, ↓kept_State_setCore,
        ↓kept_setMode, ↓kept_housekeep, ↓kept_finishCancels, ↓kept_State_mapIo]))
theorem kept_memCtlWipe (s : State) (b : Block) : (memCtlWipe s b).kept = s.kept := Eq.trans rfl rfl
theorem kept_sessionWipe (s : State) : (sessionWipe s).kept = s.kept := by
  unfold sessionWipe
  try simp only [↓kept_mk, ↓kept_fold, ↓kept_unbindSess, ↓kept_passRecords]
  all_goals repeat' (first
    | (intro _ _; try simp only [↓kept_mk, ↓kept_fold, ↓kept_unbindSess, ↓kept_passRecords])
    | (with_reducible refine (kept_foldl _ ?_ _ _).trans ?_ <;> try simp only [↓kept_mk, ↓kept_fold, ↓kept_unbindSess, ↓kept_passRecords]))
theorem kept_migrWipe (s : State) : (migrWipe s).kept = s.kept := by
  simp only [migrWipe, ↓kept_mk, ↓kept_fold, ↓kept_releaseAccesses]
theorem kept_reelWipe (s : State) : (reelWipe s).kept = s.kept := by
  unfold reelWipe
  try simp only [↓kept_mk, ↓kept_fold, ↓kept_collAbort, ↓kept_outDone, ↓kept_unbindInbox]
  all_goals repeat' (first
    | (intro _ _; try simp only [↓kept_mk, ↓kept_fold, ↓kept_collAbort, ↓kept_outDone, ↓kept_unbindInbox])
    | (with_reducible refine (kept_foldl _ ?_ _ _).trans ?_ <;> try simp only [↓kept_mk, ↓kept_fold, ↓kept_collAbort, ↓kept_outDone,
        ↓kept_unbindInbox]))
theorem kept_blockWipe (s : State) (b : Block) : (blockWipe s b).kept = s.kept := by
  unfold blockWipe
  split <;> simp only [↓kept_mk, ↓kept_fold, ↓kept_keepPage, ↓kept_coreWipe, ↓kept_carterWipe, ↓kept_callerWipe, ↓kept_mergeWipe,
      ↓kept_weaverWipe, ↓kept_assayWipe, ↓kept_egpWipe, ↓kept_winWipe, ↓kept_memCtlWipe, ↓kept_withdrawAll, ↓kept_sessionWipe,
      ↓kept_migrWipe, ↓kept_linkDisable, ↓kept_reelWipe]
theorem kept_scopeWipe (s : State) (x1 : Scope) : (scopeWipe s x1).kept = s.kept := by
  unfold scopeWipe
  split <;> simp only [↓kept_blockWipe, ↓kept_coreWipe, ↓kept_clusterWipe, ↓kept_dieWipe]
theorem kept_freshDevice (s : State) (cold : Bool) : (freshDevice s cold).kept = s.kept := by
  simp only [freshDevice, ↓kept_mk, ↓kept_fold, ite_self, ↓factorWiped_burnt, ↓burnt_ite]
theorem kept_glbUp (s : State) : (glbUp s).kept = s.kept := Eq.trans rfl rfl
theorem kept_proxyCore (s : State) (n : Nat) : (proxyCore s n).kept = s.kept := by
  unfold proxyCore
  try simp only [↓kept_mk, ↓kept_fold, ↓kept_State_mapIo]
  all_goals repeat' (first
    | (intro _ _; try simp only [↓kept_mk, ↓kept_fold, ↓kept_State_mapIo])
    | (with_reducible refine (kept_foldl _ ?_ _ _).trans ?_ <;> try simp only [↓kept_mk, ↓kept_fold, ↓kept_State_mapIo]))
theorem kept_loseTables (s : State) (bs : List Block) : (loseTables s bs).kept = s.kept := by
  unfold loseTables
  try simp only [↓kept_mk, ↓kept_fold, ↓kept_ite, ite_self, ↓kept_State_mapIo]
  all_goals repeat' (first
    | (intro _ _; try simp only [↓kept_mk, ↓kept_fold, ↓kept_ite, ite_self, ↓kept_State_mapIo])
    | (with_reducible refine (kept_foldl _ ?_ _ _).trans ?_ <;> try simp only [↓kept_mk, ↓kept_fold, ↓kept_ite, ite_self,
        ↓kept_State_mapIo]))
theorem kept_cancelDie (s : State) (d : Nat) : (cancelDie s d).kept = s.kept := by
  unfold cancelDie
  try simp only [↓kept_cancelContext, ↓kept_sessError]
  all_goals repeat' (first
    | (intro _ _; try simp only [↓kept_cancelContext, ↓kept_sessError])
    | (with_reducible refine (kept_foldl _ ?_ _ _).trans ?_ <;> try simp only [↓kept_cancelContext, ↓kept_sessError]))
theorem kept_offlineScope (s : State) (x : Scope) : (offlineScope s x).kept = s.kept := by
  unfold offlineScope
  try simp only [↓kept_mk, ↓kept_fold, ↓kept_State_mapIo, ↓kept_tier3Feature, ↓kept_linkDisable, ↓kept_proxyCore, ↓kept_loseTables,
      ↓kept_cancelDie, ↓kept_retest]
  all_goals repeat' (first
    | (split <;> try simp only [↓kept_mk, ↓kept_fold, ↓kept_State_mapIo, ↓kept_tier3Feature, ↓kept_linkDisable, ↓kept_proxyCore,
        ↓kept_loseTables, ↓kept_cancelDie, ↓kept_retest])
    | (intro _ _; try simp only [↓kept_mk, ↓kept_fold, ↓kept_State_mapIo, ↓kept_tier3Feature, ↓kept_linkDisable, ↓kept_proxyCore,
        ↓kept_loseTables, ↓kept_cancelDie, ↓kept_retest])
    | (with_reducible refine (kept_foldl _ ?_ _ _).trans ?_ <;> try simp only [↓kept_mk, ↓kept_fold, ↓kept_State_mapIo, ↓kept_tier3Feature,
        ↓kept_linkDisable, ↓kept_proxyCore, ↓kept_loseTables, ↓kept_cancelDie, ↓kept_retest]))
theorem kept_reloadShards (s : State) (n : Nat) : (reloadShards s n).kept = s.kept := by
  unfold reloadShards
  try simp only [↓kept_mk, ↓kept_fold, ↓kept_State_setCore]
  all_goals repeat' (first
    | (intro _ _; try simp only [↓kept_mk, ↓kept_fold, ↓kept_State_setCore])
    | (with_reducible refine (kept_foldl _ ?_ _ _).trans ?_ <;> try simp only [↓kept_mk, ↓kept_fold, ↓kept_State_setCore]))
theorem kept_retrained (s : State) (b : Block) : (retrained s b).kept = s.kept := by
  simp only [retrained, ↓kept_mk, ↓kept_fold, ↓kept_ite, ite_self, ↓kept_tier3Feature, ↓kept_State_mapIo]
theorem kept_bringOnline (s : State) (x : Scope) : (bringOnline s x).kept = s.kept := by
  unfold bringOnline
  try simp only [↓kept_mk, ↓kept_fold, ↓kept_State_mapIo, ↓kept_retest, ↓kept_reloadShards, ↓kept_setMode]
  all_goals repeat' (first
    | (intro _ _; try simp only [↓kept_mk, ↓kept_fold, ↓kept_State_mapIo, ↓kept_retest, ↓kept_reloadShards, ↓kept_setMode])
    | (with_reducible refine (kept_foldl _ ?_ _ _).trans ?_ <;> try simp only [↓kept_mk, ↓kept_fold, ↓kept_State_mapIo, ↓kept_retest,
        ↓kept_reloadShards, ↓kept_setMode]))
theorem kept_backInService (s : State) (b : Block) : (backInService s b).kept = s.kept := by
  unfold backInService
  split <;> rfl
theorem kept_unitPass (s : State) (u : ResetRun) (on : List Scope) : (unitPass s u on).kept = s.kept := by
  unfold unitPass
  try simp only [↓kept_ite, ite_self, ↓kept_retrained, ↓kept_backInService, ↓kept_setMode, ↓kept_bringOnline]
  all_goals repeat' (first
    | (intro _ _; try simp only [↓kept_ite, ite_self, ↓kept_retrained, ↓kept_backInService, ↓kept_setMode, ↓kept_bringOnline])
    | (with_reducible refine (kept_foldl _ ?_ _ _).trans ?_ <;> try simp only [↓kept_ite, ite_self, ↓kept_retrained, ↓kept_backInService, ↓kept_setMode,
        ↓kept_bringOnline]))
theorem kept_mbxRing (s : State) (v : Nat) : (mbxRing s v).kept = s.kept := by
  simp only [mbxRing, ↓kept_mk, ↓kept_fold, ↓kept_ite, ite_self, burnt_mk, burnt_fold, ↓kept_State_mapIo, ↓kept_facAnswer]
theorem kept_facServe (s : State) (src : Option (Nat × List Byte)) (op : Nat) (f : State → Option Nat → List Byte → State)
    (h : ∀ s w p, (f s w p).kept = s.kept) : (facServe s src op f).kept = s.kept := by
  unfold facServe
  dsimp only
  repeat' split
  all_goals first | rfl | exact h _ _ _ | exact kept_facAnswer _ _ _ _ _
theorem kept_execCalWrite (src : Option (Nat × List Byte)) (ok : Bool) (s : State) : OutKeeps s (execCalWrite src ok s) := by
  unfold execCalWrite
  try simp only [↓kept_mk, ↓kept_fold, ↓kept_ite, ite_self, burnt_mk, burnt_fold, ↓kept_facAnswer, ↓out_next]
  all_goals repeat' (first
    | (refine kept_facServe _ _ _ _ (fun _ _ _ => ?_) <;> try simp only [↓kept_mk, ↓kept_fold, ↓kept_ite, ite_self, burnt_mk, burnt_fold,
        ↓kept_facAnswer, ↓out_next]))
theorem kept_execGetInfo (src : Option (Nat × List Byte)) (s : State) : OutKeeps s (execGetInfo src s) := by
  unfold execGetInfo
  try simp only [↓kept_facAnswer, ↓out_next]
  all_goals repeat' (first | (refine kept_facServe _ _ _ _ (fun _ _ _ => ?_) <;> try simp only [↓kept_facAnswer, ↓out_next]))
theorem kept_execCalRead (src : Option (Nat × List Byte)) (s : State) : OutKeeps s (execCalRead src s) := by
  unfold execCalRead
  try simp only [↓kept_ite, ite_self, ↓kept_facAnswer, ↓out_next]
  all_goals repeat' (first
    | (refine kept_facServe _ _ _ _ (fun _ _ _ => ?_) <;> try simp only [↓kept_ite, ite_self, ↓kept_facAnswer, ↓out_next]))
theorem kept_execWipePolicy (src : Option (Nat × List Byte)) (s : State) : OutKeeps s (execWipePolicy src s) := by
  unfold execWipePolicy
  try simp only [↓kept_mk, ↓kept_fold, burnt_mk, burnt_fold, ↓kept_facAnswer, ↓out_next]
  all_goals repeat' (first
    | (refine kept_facServe _ _ _ _ (fun _ _ _ => ?_) <;> try simp only [↓kept_mk, ↓kept_fold, burnt_mk, burnt_fold, ↓kept_facAnswer,
        ↓out_next]))
theorem kept_execMbxDoorbell (who : Requester) (value : W32) (s : State) : OutKeeps s (execMbxDoorbell who value s) := by
  unfold execMbxDoorbell
  split <;> simp only [↓kept_mk, ↓kept_fold, ↓kept_mbxRing, ↓out_next]
theorem kept_execPowerLimitSet (src : Option (Nat × List Byte)) (s : State) : OutKeeps s (execPowerLimitSet src s) := by
  unfold execPowerLimitSet
  try simp only [↓kept_ite, ite_self, ↓kept_facAnswer, ↓kept_State_mapIo, ↓out_next]
  all_goals repeat' (first
    | (refine kept_facServe _ _ _ _ (fun _ _ _ => ?_) <;> try simp only [↓kept_ite, ite_self, ↓kept_facAnswer, ↓kept_State_mapIo,
        ↓out_next]))
theorem kept_execNonceExpiry (s : State) : OutKeeps s (execNonceExpiry s) := by
  simp only [execNonceExpiry, ↓kept_mk, ↓kept_fold, burnt_mk, burnt_fold, ↓out_next]
theorem kept_execLcChallenge (src : Option (Nat × List Byte)) (nonce : List Byte) (s : State)
    : OutKeeps s (execLcChallenge src nonce s) := by
  unfold execLcChallenge
  try simp only [↓kept_mk, ↓kept_fold, burnt_mk, burnt_fold, ↓kept_facAnswer, ↓out_next]
  all_goals repeat' (first
    | (refine kept_facServe _ _ _ _ (fun _ _ _ => ?_) <;> try simp only [↓kept_mk, ↓kept_fold, burnt_mk, burnt_fold, ↓kept_facAnswer,
        ↓out_next]))
theorem kept_execLogRead (src : Option (Nat × List Byte)) (s : State) : OutKeeps s (execLogRead src s) := by
  unfold execLogRead
  try simp only [↓kept_ite, ite_self, ↓kept_facAnswer, ↓out_next]
  all_goals repeat' (first
    | (refine kept_facServe _ _ _ _ (fun _ _ _ => ?_) <;> try simp only [↓kept_ite, ite_self, ↓kept_facAnswer, ↓out_next]))
theorem kept_execFwActivate (src : Option (Nat × List Byte)) (s : State) : OutKeeps s (execFwActivate src s) := by
  unfold execFwActivate
  try simp only [↓kept_mk, ↓kept_fold, ↓kept_ite, ite_self, burnt_mk, burnt_fold, ↓kept_facAnswer, ↓kept_State_mapIo, ↓out_next]
  all_goals repeat' (first
    | (refine kept_facServe _ _ _ _ (fun _ _ _ => ?_) <;> try simp only [↓kept_mk, ↓kept_fold, ↓kept_ite, ite_self, burnt_mk, burnt_fold,
        ↓kept_facAnswer, ↓kept_State_mapIo, ↓out_next]))
theorem kept_execThreshSet (src : Option (Nat × List Byte)) (s : State) : OutKeeps s (execThreshSet src s) := by
  unfold execThreshSet
  try simp only [↓kept_ite, ite_self, ↓kept_facAnswer, ↓kept_State_mapIo, ↓out_next]
  all_goals repeat' (first
    | (refine kept_facServe _ _ _ _ (fun _ _ _ => ?_) <;> try simp only [↓kept_ite, ite_self, ↓kept_facAnswer, ↓kept_State_mapIo,
        ↓out_next]))
theorem kept_sampleOne (body : List Byte) (s : State) (i : Nat) (raw : Int) : (sampleOne body s i raw).kept = s.kept := by
  simp only [sampleOne, ↓kept_mk, ↓kept_fold, ↓kept_ite, ite_self, burnt_mk, burnt_fold, ↓kept_State_mapIo, ↓kept_facNote]
theorem kept_execThermalDutyUpdate (s : State) : OutKeeps s (execThermalDutyUpdate s) := by
  simp only [execThermalDutyUpdate, ↓kept_ite, ite_self, ↓kept_State_mapIo, ↓out_next, ↓out_ite]
theorem kept_execOvercurrent (s : State) : OutKeeps s (execOvercurrent s) := by
  simp only [execOvercurrent, ↓kept_mk, ↓kept_fold, ↓kept_ite, ite_self, burnt_mk, burnt_fold, ↓kept_State_mapIo, ↓out_next, ↓out_ite]
theorem kept_execPowerDutyUpdate (p : Nat) (vin : Nat) (iin : Nat) (s : State) : OutKeeps s (execPowerDutyUpdate p vin iin s) := by
  simp only [execPowerDutyUpdate, ↓kept_mk, ↓kept_fold, ite_self, burnt_mk, burnt_fold, ↓kept_State_mapIo, ↓out_next, ↓out_ite]
theorem kept_mctpSend (s : State) (kind : String) (t : Nat) (bs : List Byte) : (mctpSend s kind t bs).kept = s.kept := Eq.trans rfl rfl
theorem kept_execRequestFirmwareData (transport : Nat) (start : Bool) (off : Nat) (data : List Byte) (s : State)
    : OutKeeps s (execRequestFirmwareData transport start off data s) := by
  unfold execRequestFirmwareData
  try simp only [↓kept_mk, ↓kept_fold, burnt_mk, burnt_fold, ↓kept_mctpSend, ↓out_next]
  repeat' (first | with_reducible rfl | (split <;> try simp only [↓kept_mk, ↓kept_fold, burnt_mk, burnt_fold, ↓kept_mctpSend, ↓out_next]))
theorem kept_execPldmSensorRead (transport : Nat) (msg : List Byte) (s : State) : OutKeeps s (execPldmSensorRead transport msg s) := by
  simp only [execPldmSensorRead, ite_self, ↓kept_mctpSend, ↓out_next, ↓out_ite]
theorem kept_execSpdmRequest (transport : Nat) (msg : List Byte) (rnd : List Byte) (s : State)
    : OutKeeps s (execSpdmRequest transport msg rnd s) := by
  simp only [execSpdmRequest, ↓kept_mk, ↓kept_fold, ite_self, burnt_mk, burnt_fold, ↓kept_mctpSend, ↓out_next, ↓out_ite]
theorem kept_execMctpControl (transport : Nat) (msg : List Byte) (s : State) : OutKeeps s (execMctpControl transport msg s) := by
  simp only [execMctpControl, ↓kept_mk, ↓kept_fold, ite_self, burnt_mk, burnt_fold, ↓kept_mctpSend, ↓out_next, ↓out_ite]
theorem kept_execActivateFirmware (transport : Nat) (s : State) : OutKeeps s (execActivateFirmware transport s) := by
  unfold execActivateFirmware
  simp only [↓kept_mk, ↓kept_fold, ite_self, burnt_mk, burnt_fold, ↓kept_mctpSend, ↓out_next, ↓out_ite]
  split <;> simp only [↓kept_mk, ↓kept_fold, ite_self, burnt_mk, burnt_fold, ↓kept_mctpSend, ↓out_next, ↓out_ite]
theorem kept_execVerifyComplete (transport : Nat) (s : State) : OutKeeps s (execVerifyComplete transport s) := by
  unfold execVerifyComplete
  simp only [↓kept_mk, ↓kept_fold, ite_self, burnt_mk, burnt_fold, ↓kept_mctpSend, ↓out_next, ↓out_ite]
  split <;> simp only [↓kept_mk, ↓kept_fold, ite_self, burnt_mk, burnt_fold, ↓kept_mctpSend, ↓out_next, ↓out_ite]

end Sys2Proof.Machine
end

