-- ==== Sys2Proof/Laws/KeptOps.lean ====
section
/-! SUPPORT. Frames of the relational operators, sessions, plain register writes and the tick: each keeps `State.kept`. -/

namespace Sys2Proof.Machine

set_option linter.unusedSimpArgs false
set_option linter.unnecessarySeqFocus false
set_option linter.unreachableTactic false
set_option linter.unusedTactic false

theorem kept_OpRun_touch (r : OpRun) (row : Nat) (l : List (Nat × Nat × Nat)) : (OpRun.touch r row l).s.kept = r.s.kept := by
  unfold OpRun.touch
  repeat' split
  all_goals simp only [↓kept_notePoison, ↓kept_State_setCore]
theorem kept_OpRun_touchRow (r : OpRun) (cs : List Col) (row : Nat) : (OpRun.touchRow r cs row).s.kept = r.s.kept := by
  simp only [OpRun.touchRow, ↓kept_OpRun_touch]
theorem kept_OpRun_countBad (r : OpRun) (row : Nat) : (OpRun.countBad r row).s.kept = r.s.kept := Eq.trans rfl rfl
theorem kept_OpRun_read (r : OpRun) (c : Col) (row : Nat) : (OpRun.read r c row).1.s.kept = r.s.kept := by
  unfold OpRun.read
  split <;> simp only [ite_self, ↓kept_OpRun_countBad, ↓kept_iteO]
theorem kept_OpRun_put (r : OpRun) (d : Desc) (cs : List Nat) (code : Nat) : (OpRun.put r d cs code).s.kept = r.s.kept := by
  unfold OpRun.put
  repeat' split
  all_goals simp only [↓kept_State_setCore, ↓kept_storeElem]
theorem kept_OpRun_putBit (r : OpRun) (d : Desc) (row : Nat) (b : Bool) : (OpRun.putBit r d row b).s.kept = r.s.kept := by
  simp only [OpRun.putBit, ↓kept_OpRun_put]
theorem kept_OpRun_putMany (r : OpRun) (d : Desc) (a : Nat) (l : List Nat) : (OpRun.putMany r d a l).s.kept = r.s.kept := by
  unfold OpRun.putMany
  try simp only [↓kept_OpRun_put]
  all_goals repeat' (first
    | (intro _ _; try simp only [↓kept_OpRun_put])
    | (with_reducible refine (kept_foldlO _ ?_ _ _).trans ?_ <;> try simp only [↓kept_OpRun_put]))
theorem kept_OpRun_putCell (r : OpRun) (c : Col) (row : Nat) (x : Cell) : (OpRun.putCell r c row x).s.kept = r.s.kept := by
  unfold OpRun.putCell
  try simp only [↓kept_OpRun_putBit, ↓kept_OpRun_put, ↓kept_OpRun_putMany]
  all_goals repeat' (first
    | (split <;> try simp only [↓kept_OpRun_putBit, ↓kept_OpRun_put, ↓kept_OpRun_putMany])
    | (intro _ _; try simp only [↓kept_OpRun_putBit, ↓kept_OpRun_put, ↓kept_OpRun_putMany])
    | (with_reducible refine (kept_foldlO _ ?_ _ _).trans ?_ <;> try simp only [↓kept_OpRun_putBit, ↓kept_OpRun_put, ↓kept_OpRun_putMany]))
theorem kept_OpRun_emitRow (r : OpRun) (row : Nat) (inRow : Nat) (sub : Nat) (l : List (Col × Cell))
    : (OpRun.emitRow r row inRow sub l).s.kept = r.s.kept := by
  unfold OpRun.emitRow
  try simp only [↓kept_OpRun_putCell]
  all_goals repeat' (first
    | (split <;> try simp only [↓kept_OpRun_putCell])
    | (intro _ _; try simp only [↓kept_OpRun_putCell])
    | (with_reducible refine (kept_foldlO _ ?_ _ _).trans ?_ <;> try simp only [↓kept_OpRun_putCell]))
theorem kept_opRun (s : State) (n : Nat) (cn : Nat) (o : Opb) : (opRun s n cn o).s.kept = s.kept := Eq.trans rfl rfl
theorem kept_putResult (r : OpRun) (code : Nat) : (putResult r code).kept = r.s.kept := Eq.trans rfl rfl
theorem kept_putOverflow (r : OpRun) : (putOverflow r).s.kept = r.s.kept := by
  unfold putOverflow
  split <;> simp only [ite_self, ↓kept_OpRun_putMany, ↓kept_iteO]
theorem kept_opEnd (r : OpRun) {w : State} : (opEnd r) = some w → w.kept = r.s.kept := by
  intro h
  unfold opEnd at h
  try dsimp only at h
  repeat' split at h
  all_goals first | contradiction | (cases h; try simp only [↓kept_putOverflow, ↓kept_putResult, ↓kept_raiseExc, ↓kept_offerToken]) | skip
  all_goals repeat' (first | with_reducible rfl)
theorem kept_opTry {s : State} {n cn : Nat} {o : Opb} {f : OpRun → OpSpec} (h : ∀ r q, ((f r).run q).s.kept = q.s.kept) {w : State}
    (hw : opTry s n cn o f = some w) : w.kept = s.kept := by
  unfold opTry at hw
  dsimp only at hw
  repeat' split at hw
  · cases hw; exact kept_putResult _ _
  · cases hw; exact kept_putResult _ _
  · exact (kept_opEnd _ hw).trans (h _ _)
theorem kept_opCall (s : State) (n op : Nat) (f : OpRun → OpSpec) (h : ∀ r q, ((f r).run q).s.kept = q.s.kept)
    : (opCall s n op f).kept = s.kept := by
  unfold opCall
  dsimp only
  split
  · cases e : opTry (notePoison (s.setCore n ((s.core n).noteRead ((s.core n).xr 1) 256)) n) n _ _ f with
    | none => exact (kept_State_mapIo _ _).trans rfl
    | some t => exact (kept_opTry h e).trans (by simp only [↓kept_mk, ↓kept_fold, ↓kept_ite, ↓kept_ite1, ↓kept_ite2, ite_self, kept_fold,
        ↓startPage_burnt, ↓factorWiped_burnt, ↓burnt_ite, burnt_mk, burnt_fold, ↓kept_notePoison, ↓kept_State_setCore, ↓kept_raiseExc,
        ↓kept_iteO, ↓kept_iteO1, ↓kept_iteC, ↓kept_iteT, ↓kept_iteP])
  · repeat' (first
    | with_reducible rfl
    | (split <;> try simp only [↓kept_mk, ↓kept_fold, ↓kept_ite, ↓kept_ite1, ↓kept_ite2, ite_self, kept_fold, ↓startPage_burnt,
        ↓factorWiped_burnt, ↓burnt_ite, burnt_mk, burnt_fold, ↓kept_notePoison, ↓kept_State_setCore, ↓kept_raiseExc, ↓kept_iteO,
        ↓kept_iteO1, ↓kept_iteC, ↓kept_iteT, ↓kept_iteP]))
theorem kept_OpRun_cut (r : OpRun) (row : Nat) (item : Nat) (val : Nat) : (OpRun.cut r row item val).s.kept = r.s.kept := by
  simp only [OpRun.cut, ite_self, ↓kept_OpRun_put, ↓kept_iteO]
theorem kept_OpRun_key (r : OpRun) (cs : List Col) (raw : Bool) (row : Nat) : (OpRun.key r cs raw row).1.s.kept = r.s.kept := by
  unfold OpRun.key
  try simp only [↓kept_OpRun_read]
  all_goals repeat' (first
    | (split <;> try simp only [↓kept_OpRun_read])
    | (intro _ _; try simp only [↓kept_OpRun_read])
    | (with_reducible refine (kept_foldlO1 _ ?_ _ _).trans ?_ <;> try simp only [↓kept_OpRun_read]))
theorem kept_OpRun_keyOnce (r : OpRun) (cs : List Col) (raw : Bool) (row : Nat) : (OpRun.keyOnce r cs raw row).1.s.kept = r.s.kept := by
  simp only [OpRun.keyOnce, ↓kept_OpRun_key]
theorem kept_peerWait (s : State) (n : Nat) (cycles : Nat) : (peerWait s n cycles).kept = s.kept := Eq.trans rfl rfl
theorem kept_filterRow (l : List PredWord) (zone : Option (Desc × List ZoneTerm)) (r : OpRun) (row : Nat)
    : (filterRow l zone r row).s.kept = r.s.kept := by
  unfold filterRow
  try simp only [↓kept_OpRun_touch, ↓kept_OpRun_touchRow, ↓kept_OpRun_read, ↓kept_OpRun_emitRow]
  all_goals repeat' (first
    | (split <;> try simp only [↓kept_OpRun_touch, ↓kept_OpRun_touchRow, ↓kept_OpRun_read, ↓kept_OpRun_emitRow])
    | (intro _ _; try simp only [↓kept_OpRun_touch, ↓kept_OpRun_touchRow, ↓kept_OpRun_read, ↓kept_OpRun_emitRow])
    | (with_reducible refine (kept_foldlO _ ?_ _ _).trans ?_ <;> try simp only [↓kept_OpRun_touch, ↓kept_OpRun_touchRow, ↓kept_OpRun_read,
        ↓kept_OpRun_emitRow]))
theorem kept_eachRow (f : OpRun → Nat → OpRun) (h : ∀ r i, (f r i).s.kept = r.s.kept) (l : List Nat) (r : OpRun)
    : (OpRun.eachRow f l r).s.kept = r.s.kept := by
  induction l generalizing r with
  | nil => rfl
  | cons i l ih =>
    unfold OpRun.eachRow
    dsimp only
    split
    · exact h r i
    · exact (ih _).trans (h r i)
theorem kept_bucketRow (b : List Nat) (r : OpRun) (row : Nat) : (bucketRow b r row).s.kept = r.s.kept := by
  unfold bucketRow
  try simp only [↓kept_OpRun_touchRow, ↓kept_OpRun_read, ↓kept_OpRun_emitRow]
  all_goals repeat' (first
    | (split <;> try simp only [↓kept_OpRun_touchRow, ↓kept_OpRun_read, ↓kept_OpRun_emitRow])
    | (with_reducible refine (kept_of_run ‹_›).trans ?_ <;> try simp only [↓kept_OpRun_touchRow, ↓kept_OpRun_read, ↓kept_OpRun_emitRow]))
theorem kept_bucketSpec (r : OpRun) (q : OpRun) : ((bucketSpec r).run q).s.kept = q.s.kept := by
  unfold bucketSpec
  try simp only [↓kept_bucketRow, ↓kept_OpRun_touch]
  all_goals repeat' (first
    | (intro _ _; try simp only [↓kept_bucketRow, ↓kept_OpRun_touch])
    | (refine (kept_eachRow _ ?_ _ _).trans ?_ <;> try simp only [↓kept_bucketRow, ↓kept_OpRun_touch]))
theorem kept_execBucketize (core : Nat) (s : State) : OutKeeps s (execBucketize core s) := by
  unfold execBucketize
  try simp only [↓out_next]
  all_goals repeat' (first | with_reducible exact kept_opCall _ _ _ _ (fun _ _ => kept_bucketSpec _ _))
theorem kept_tokenizeFrom (tab : Nat × Nat) (cap : Option Nat) (room skip fuel p : Nat) (text : List Byte) (a : TokRow) :
    (tokenizeFrom tab cap room skip fuel p text a).r.s.kept = a.r.s.kept := by
  induction fuel generalizing p text a with
  | zero => rfl
  | succ fuel ih =>
    cases text with
    | nil => rfl
    | cons b rest =>
      rw [tokenizeFrom]
      extract_lets fl sp w win c
      clear_value fl sp w win
      split
      · exact ih _ _ _
      · split
        split
        rename_i m hm
        have hs : (‹State› : State).kept = a.r.s.kept := by
          rw [kept_of_fst hm]
          split
          · exact kept_assayLm _ _ _ _ _ _ _
          · rfl
        simp only [↓kept_iteT, ↓ih, hs, ite_self]
theorem kept_tokenizeRow (tab : Nat × Nat) (r : OpRun) (row : Nat) : (tokenizeRow tab r row).s.kept = r.s.kept := by
  unfold tokenizeRow
  try simp only [↓kept_OpRun_touchRow, ↓kept_OpRun_read, ↓kept_tokenizeFrom, ↓kept_OpRun_emitRow, ↓kept_OpRun_cut]
  all_goals repeat' (first
    | (split <;> try simp only [↓kept_OpRun_touchRow, ↓kept_OpRun_read, ↓kept_tokenizeFrom, ↓kept_OpRun_emitRow, ↓kept_OpRun_cut])
    | (with_reducible refine (kept_of_run ‹_›).trans ?_ <;> try simp only [↓kept_OpRun_touchRow, ↓kept_OpRun_read, ↓kept_tokenizeFrom,
        ↓kept_OpRun_emitRow, ↓kept_OpRun_cut]))
theorem kept_tokenizeSpec (r : OpRun) (q : OpRun) : ((tokenizeSpec r).run q).s.kept = q.s.kept := by
  unfold tokenizeSpec
  try simp only [↓kept_tokenizeRow]
  all_goals repeat' (first
    | (intro _ _; try simp only [↓kept_tokenizeRow])
    | (refine (kept_eachRow _ ?_ _ _).trans ?_ <;> try simp only [↓kept_tokenizeRow]))
theorem kept_execTokenize (core : Nat) (s : State) : OutKeeps s (execTokenize core s) := by
  unfold execTokenize
  try simp only [↓kept_raiseExc, ↓out_next]
  all_goals repeat' (first
    | with_reducible exact kept_opCall _ _ _ _ (fun _ _ => kept_tokenizeSpec _ _)
    | (split <;> try simp only [↓kept_raiseExc, ↓out_next]))
theorem kept_normRow (st : StatRec) (rs : Nat) (r : OpRun) (row : Nat) : (normRow st rs r row).s.kept = r.s.kept := by
  unfold normRow
  try simp only [↓kept_OpRun_touchRow, ↓kept_OpRun_read, ↓kept_OpRun_emitRow]
  all_goals repeat' (first
    | (split <;> try simp only [↓kept_OpRun_touchRow, ↓kept_OpRun_read, ↓kept_OpRun_emitRow])
    | (with_reducible refine (kept_of_run ‹_›).trans ?_ <;> try simp only [↓kept_OpRun_touchRow, ↓kept_OpRun_read, ↓kept_OpRun_emitRow]))
theorem kept_normSpec (r : OpRun) (q : OpRun) : ((normSpec r).run q).s.kept = q.s.kept := by
  unfold normSpec
  try simp only [ite_self, ↓kept_OpRun_touch, ↓kept_normRow, ↓kept_iteO]
  all_goals repeat' (first
    | (intro _ _; try simp only [ite_self, ↓kept_OpRun_touch, ↓kept_normRow, ↓kept_iteO])
    | (refine (kept_eachRow _ ?_ _ _).trans ?_ <;> try simp only [ite_self, ↓kept_OpRun_touch, ↓kept_normRow, ↓kept_iteO]))
theorem kept_putScales (r : OpRun) (i : Col) (c : Col) (row : Nat) (src : Nat) (x : Cell)
    : (putScales r i c row src x).s.kept = r.s.kept := by
  unfold putScales
  try simp only [↓kept_State_tWrite]
  all_goals repeat' (first
    | (split <;> try simp only [↓kept_State_tWrite])
    | (intro _ _; try simp only [↓kept_State_tWrite])
    | (with_reducible refine (kept_foldlO _ ?_ _ _).trans ?_ <;> try simp only [↓kept_State_tWrite]))
theorem kept_projectRow (r : OpRun) (row : Nat) : (projectRow r row).s.kept = r.s.kept := by
  unfold projectRow
  extract_lets gather idx r1
  have h1 : r1.s.kept = r.s.kept := by
    unfold r1
    split
    · exact kept_OpRun_touchRow _ _ _
    · rfl
  clear_value r1 gather idx
  split
  · exact h1
  · split
    rename_i r2 src e
    have h2 : r2.s.kept = r.s.kept := by
      rw [kept_of_run e]
      split
      · exact h1
      · cases idx with
        | none => exact h1
        | some c =>
          have hr := (kept_OpRun_read r1 c row).trans h1
          dsimp only
          split
          · rename_i e; rw [e] at hr; exact hr
          · rename_i e; rw [e] at hr; exact hr
    clear e
    extract_lets pairs inR r3 k r4
    have h3 : r3.s.kept = r.s.kept := by
      unfold r3
      split <;> exact h2
    have h4 : r4.s.kept = r.s.kept := (kept_OpRun_touch _ _ _).trans h3
    clear_value r3 r4 inR pairs k
    split
    · exact h4
    · refine (kept_iteO _ _).trans ?_
      have hf : ∀ (l : List (Col × Col)) (a : OpRun × List (Col × Col × Cell × Cell)), (l.foldl (fun a e =>
          if !inR e.2 then (a.1, a.2 ++ [(e.1, e.2, .null, .null)])
          else
            let (r, x) := a.1.read e.2 k
            let y := convertCell r e.2 e.1 k x
            let cutS := match x with
              | .str bs => decide (e.1.cap < bs.length)
              | _ => false
            ({ r with aux1 := r.aux1 + b2n cutS }, a.2 ++ [(e.1, e.2, x, y)])) a).1.s.kept = a.1.s.kept := by
        refine fun l a => kept_foldlO1 _ (fun a e => ?_) l a
        dsimp only
        split
        · rfl
        · exact kept_OpRun_read _ _ _
      split
      · exact (kept_OpRun_emitRow _ _ _ _ _).trans ((hf _ _).trans h4)
      · refine (kept_foldlO _ (fun _ _ => kept_putScales _ _ _ _ _ _) _ _).trans ?_
        exact (kept_OpRun_emitRow _ _ _ _ _).trans ((hf _ _).trans h4)
theorem kept_hashRow (tab : Option (Nat × Nat)) (r : OpRun) (row : Nat) : (hashRow tab r row).s.kept = r.s.kept := by
  unfold hashRow
  try simp only [↓kept_OpRun_emitRow, ↓kept_OpRun_touchRow, ↓kept_OpRun_read, ↓kept_OpRun_keyOnce]
  all_goals repeat' (first
    | (split <;> try simp only [↓kept_OpRun_emitRow, ↓kept_OpRun_touchRow, ↓kept_OpRun_read, ↓kept_OpRun_keyOnce])
    | (with_reducible refine (kept_of_run ‹_›).trans ?_ <;> try simp only [↓kept_OpRun_emitRow, ↓kept_OpRun_touchRow, ↓kept_OpRun_read,
        ↓kept_OpRun_keyOnce]))
theorem kept_scanRecord (r : OpRun) (row : Nat) (bs : List Byte) : (scanRecord r row bs).s.kept = r.s.kept := by
  unfold scanRecord
  try simp only [↓kept_OpRun_emitRow, ↓kept_OpRun_countBad, ↓kept_OpRun_cut]
  all_goals repeat' (first
    | (split <;> try simp only [↓kept_OpRun_emitRow, ↓kept_OpRun_countBad, ↓kept_OpRun_cut])
    | (intro _ _; try simp only [↓kept_OpRun_emitRow, ↓kept_OpRun_countBad, ↓kept_OpRun_cut])
    | (with_reducible refine (kept_foldlO _ ?_ _ _).trans ?_ <;> try simp only [↓kept_OpRun_emitRow, ↓kept_OpRun_countBad, ↓kept_OpRun_cut])
    | (with_reducible refine (kept_foldlO1 _ ?_ _ _).trans ?_ <;> try simp only [↓kept_OpRun_emitRow, ↓kept_OpRun_countBad,
        ↓kept_OpRun_cut]))
theorem kept_scanFrom (d : Desc) (x1 : Nat) (x2 : Nat) (x3 : Nat) (x4 : OpRun) : (scanFrom d x1 x2 x3 x4).s.kept = x4.s.kept := by
  induction x1 generalizing d x2 x3 x4 with
  | zero => rfl
  | succ fuel ih =>
    rw [scanFrom]
    try simp only [ite_self, ↓kept_OpRun_touch, ↓kept_OpRun_countBad, ↓kept_scanRecord, ↓kept_iteO, ↓ih]
    all_goals repeat' (first | with_reducible rfl)
theorem kept_filterSpec (r : OpRun) (q : OpRun) : ((filterSpec r).run q).s.kept = q.s.kept := by
  unfold filterSpec
  try simp only [↓kept_filterRow]
  all_goals repeat' (first
    | (intro _ _; try simp only [↓kept_filterRow])
    | (refine (kept_eachRow _ ?_ _ _).trans ?_ <;> try simp only [↓kept_filterRow]))
theorem kept_execNormalize (core : Nat) (s : State) : OutKeeps s (execNormalize core s) := by
  unfold execNormalize
  try simp only [↓out_next]
  all_goals repeat' (first | with_reducible exact kept_opCall _ _ _ _ (fun _ _ => kept_normSpec _ _))
theorem kept_projectSpec (r : OpRun) (q : OpRun) : ((projectSpec r).run q).s.kept = q.s.kept := by
  unfold projectSpec
  try simp only [↓kept_projectRow]
  all_goals repeat' (first
    | (intro _ _; try simp only [↓kept_projectRow])
    | (refine (kept_eachRow _ ?_ _ _).trans ?_ <;> try simp only [↓kept_projectRow]))
theorem kept_execOpProject (core : Nat) (s : State) : OutKeeps s (execOpProject core s) := by
  unfold execOpProject
  try simp only [↓out_next]
  all_goals repeat' (first | with_reducible exact kept_opCall _ _ _ _ (fun _ _ => kept_projectSpec _ _))
theorem kept_hashSpec (r : OpRun) (q : OpRun) : ((hashSpec r).run q).s.kept = q.s.kept := by
  unfold hashSpec
  try simp only [↓kept_hashRow]
  all_goals repeat' (first
    | (intro _ _; try simp only [↓kept_hashRow])
    | (refine (kept_eachRow _ ?_ _ _).trans ?_ <;> try simp only [↓kept_hashRow]))
theorem kept_execOpFilter (core : Nat) (s : State) : OutKeeps s (execOpFilter core s) := by
  unfold execOpFilter
  try simp only [↓out_next]
  all_goals repeat' (first | with_reducible exact kept_opCall _ _ _ _ (fun _ _ => kept_filterSpec _ _))
theorem kept_execOpHash (core : Nat) (s : State) : OutKeeps s (execOpHash core s) := by
  unfold execOpHash
  try simp only [↓out_next]
  all_goals repeat' (first | with_reducible exact kept_opCall _ _ _ _ (fun _ _ => kept_hashSpec _ _))
theorem kept_scanSpec (r : OpRun) (q : OpRun) : ((scanSpec r).run q).s.kept = q.s.kept := by
  simp only [scanSpec, ↓kept_scanFrom]
theorem kept_execOpScan (core : Nat) (s : State) : OutKeeps s (execOpScan core s) := by
  unfold execOpScan
  try simp only [↓out_next]
  all_goals repeat' (first | with_reducible exact kept_opCall _ _ _ _ (fun _ _ => kept_scanSpec _ _))
theorem kept_OpRun_hput (r : OpRun) (t : HTab) (o : Nat) (n : Nat) (v : Nat) : (OpRun.hput r t o n v).s.kept = r.s.kept := by
  simp only [OpRun.hput, ↓kept_OpRun_putMany]
theorem kept_initTable (r : OpRun) (t : HTab) (geom : Option (Nat × Nat × Nat × Nat × Nat)) (rowsCap : Nat) (base : Nat) (lock : Nat)
    : (initTable r t geom rowsCap base lock).s.kept = r.s.kept := by
  unfold initTable
  try simp only [↓kept_OpRun_hput]
  all_goals repeat' (first
    | (split <;> try simp only [↓kept_OpRun_hput])
    | (intro _ _; try simp only [↓kept_OpRun_hput])
    | (with_reducible refine (kept_foldlO _ ?_ _ _).trans ?_ <;> try simp only [↓kept_OpRun_hput]))
theorem kept_walkChain (t : HTab) (tag : Nat) (eq : OpRun → Nat → Bool) (first : Bool) (row fuel : Nat) (cap : Option Nat) (b : Nat) (a
    : ChainAt) :
    (walkChain t tag eq first row fuel cap b a).r.s.kept = a.r.s.kept := by
  induction fuel generalizing cap b a with
  | zero => rfl
  | succ fuel ih =>
    rw [walkChain]
    simp only [↓kept_iteC, ↓ih, ↓kept_OpRun_touch, ite_self]
theorem kept_findKey (r : OpRun) (t : HTab) (f : Nat) (eq : OpRun → Nat → Bool) (first : Bool) (cap : Option Nat) (row : Nat) :
    (findKey r t f eq first cap row).r.s.kept = r.s.kept := kept_walkChain _ _ _ _ _ _ _ _ _
theorem kept_findEntry (r : OpRun) (t : HTab) (k : Option (List Byte)) (row : Nat)
    : (findEntry r t k row).1.s.kept = r.s.kept := kept_findKey _ _ _ _ _ _ _
theorem kept_writeEntry (r : OpRun) (t : HTab) (i : Nat) (k : Option (List Byte)) : (writeEntry r t i k).s.kept = r.s.kept := by
  simp only [writeEntry, ↓kept_OpRun_hput]
theorem kept_placeRow (r : OpRun) (t : HTab) (f : Nat) (id : Nat) {w : OpRun} : (placeRow r t f id) = some w → w.s.kept = r.s.kept := by
  intro h
  unfold placeRow at h
  try dsimp only at h
  repeat' split at h
  all_goals first | contradiction | (cases h; try simp only [↓kept_OpRun_hput]) | skip
  all_goals repeat' (first | with_reducible rfl)
theorem kept_openEntry (r : OpRun) (t : HTab) (k : Option (List Byte)) {w : OpRun × Nat} (h : openEntry r t k = some w)
    : w.1.s.kept = r.s.kept := by
  unfold openEntry at h
  extract_lets i cap at h
  split at h
  · contradiction
  · obtain ⟨q, hq, rfl⟩ := Option.map_eq_some_iff.1 h
    dsimp only
    rw [kept_OpRun_hput, kept_foldlO _ (fun _ _ => kept_OpRun_hput _ _ _ _ _), kept_writeEntry]
    exact kept_placeRow _ _ _ _ hq
theorem kept_groupRow (t : HTab) (nkey nagg : Nat) (r : OpRun) (row : Nat) : (groupRow t nkey nagg r row).s.kept = r.s.kept := by
  unfold groupRow
  extract_lets cs aggs vals r1
  have h1 : r1.s.kept = r.s.kept := kept_OpRun_touchRow _ _ _
  clear_value r1
  split
  · exact h1
  · split
    rename_i r2 k e
    have h2 : r2.s.kept = r.s.kept := ((kept_of_run e).trans (kept_OpRun_keyOnce _ _ _ _)).trans h1
    split
    rename_i r3 i e
    have h3 : r3.s.kept = r.s.kept := ((kept_of_run e).trans (kept_findEntry _ _ _ _)).trans h2
    split
    · exact h3
    · extract_lets got
      have hg : ∀ w, got = some w → w.1.s.kept = r.s.kept := by
        intro w hw
        unfold got at hw
        split at hw
        · cases hw; exact h3
        · obtain ⟨q, hq, rfl⟩ := Option.map_eq_some_iff.1 hw
          exact (kept_openEntry _ _ _ hq).trans h3
      clear_value got
      split
      · rw [← h3]
        simp only [↓kept_mk, ↓kept_fold, ↓kept_ite, ↓kept_ite1, ↓kept_ite2, ite_self, kept_fold, ↓startPage_burnt, ↓factorWiped_burnt,
            ↓burnt_ite, burnt_mk, burnt_fold, ↓kept_OpRun_touchRow, ↓kept_OpRun_keyOnce, ↓kept_findEntry, ↓kept_OpRun_cut,
            ↓kept_OpRun_read, ↓kept_OpRun_hput, ↓kept_iteO, ↓kept_iteO1, ↓kept_iteC, ↓kept_iteT, ↓kept_iteP]
      · rename_i q j
        rw [← hg _ rfl]
        simp only [↓kept_mk, ↓kept_fold, ↓kept_ite, ↓kept_ite1, ↓kept_ite2, ite_self, kept_fold, ↓startPage_burnt, ↓factorWiped_burnt,
            ↓burnt_ite, burnt_mk, burnt_fold, ↓kept_OpRun_touchRow, ↓kept_OpRun_keyOnce, ↓kept_findEntry, ↓kept_OpRun_cut,
            ↓kept_OpRun_read, ↓kept_OpRun_hput, ↓kept_iteO, ↓kept_iteO1, ↓kept_iteC, ↓kept_iteT, ↓kept_iteP]
        all_goals repeat' (first
          | with_reducible rfl
          | assumption
          | (split <;> try simp only [↓kept_mk, ↓kept_fold, ↓kept_ite, ↓kept_ite1, ↓kept_ite2, ite_self, kept_fold, ↓startPage_burnt,
              ↓factorWiped_burnt, ↓burnt_ite, burnt_mk, burnt_fold, ↓kept_OpRun_touchRow, ↓kept_OpRun_keyOnce, ↓kept_findEntry,
              ↓kept_OpRun_cut, ↓kept_OpRun_read, ↓kept_OpRun_hput, ↓kept_iteO, ↓kept_iteO1, ↓kept_iteC, ↓kept_iteT, ↓kept_iteP])
          | (intro _ _; try simp only [↓kept_mk, ↓kept_fold, ↓kept_ite, ↓kept_ite1, ↓kept_ite2, ite_self, kept_fold, ↓startPage_burnt,
              ↓factorWiped_burnt, ↓burnt_ite, burnt_mk, burnt_fold, ↓kept_OpRun_touchRow, ↓kept_OpRun_keyOnce, ↓kept_findEntry,
              ↓kept_OpRun_cut, ↓kept_OpRun_read, ↓kept_OpRun_hput, ↓kept_iteO, ↓kept_iteO1, ↓kept_iteC, ↓kept_iteT, ↓kept_iteP])
          | (with_reducible refine (kept_foldl _ ?_ _ _).trans ?_ <;> try simp only [↓kept_mk, ↓kept_fold, ↓kept_ite, ↓kept_ite1,
              ↓kept_ite2, ite_self, kept_fold, ↓startPage_burnt, ↓factorWiped_burnt, ↓burnt_ite, burnt_mk, burnt_fold,
              ↓kept_OpRun_touchRow, ↓kept_OpRun_keyOnce, ↓kept_findEntry, ↓kept_OpRun_cut, ↓kept_OpRun_read, ↓kept_OpRun_hput, ↓kept_iteO,
              ↓kept_iteO1, ↓kept_iteC, ↓kept_iteT, ↓kept_iteP])
          | (with_reducible refine (kept_foldl1 _ ?_ _ _).trans ?_ <;> try simp only [↓kept_mk, ↓kept_fold, ↓kept_ite, ↓kept_ite1,
              ↓kept_ite2, ite_self, kept_fold, ↓startPage_burnt, ↓factorWiped_burnt, ↓burnt_ite, burnt_mk, burnt_fold,
              ↓kept_OpRun_touchRow, ↓kept_OpRun_keyOnce, ↓kept_findEntry, ↓kept_OpRun_cut, ↓kept_OpRun_read, ↓kept_OpRun_hput, ↓kept_iteO,
              ↓kept_iteO1, ↓kept_iteC, ↓kept_iteT, ↓kept_iteP])
          | (with_reducible refine (kept_foldlO _ ?_ _ _).trans ?_ <;> try simp only [↓kept_mk, ↓kept_fold, ↓kept_ite, ↓kept_ite1,
              ↓kept_ite2, ite_self, kept_fold, ↓startPage_burnt, ↓factorWiped_burnt, ↓burnt_ite, burnt_mk, burnt_fold,
              ↓kept_OpRun_touchRow, ↓kept_OpRun_keyOnce, ↓kept_findEntry, ↓kept_OpRun_cut, ↓kept_OpRun_read, ↓kept_OpRun_hput, ↓kept_iteO,
              ↓kept_iteO1, ↓kept_iteC, ↓kept_iteT, ↓kept_iteP])
          | (with_reducible refine (kept_foldlO1 _ ?_ _ _).trans ?_ <;> try simp only [↓kept_mk, ↓kept_fold, ↓kept_ite, ↓kept_ite1,
              ↓kept_ite2, ite_self, kept_fold, ↓startPage_burnt, ↓factorWiped_burnt, ↓burnt_ite, burnt_mk, burnt_fold,
              ↓kept_OpRun_touchRow, ↓kept_OpRun_keyOnce, ↓kept_findEntry, ↓kept_OpRun_cut, ↓kept_OpRun_read, ↓kept_OpRun_hput, ↓kept_iteO,
              ↓kept_iteO1, ↓kept_iteC, ↓kept_iteT, ↓kept_iteP])
          | (with_reducible refine (kept_openEntry _ _ _  ‹_›).trans ?_ <;> try simp only [↓kept_mk, ↓kept_fold, ↓kept_ite, ↓kept_ite1,
              ↓kept_ite2, ite_self, kept_fold, ↓startPage_burnt, ↓factorWiped_burnt, ↓burnt_ite, burnt_mk, burnt_fold,
              ↓kept_OpRun_touchRow, ↓kept_OpRun_keyOnce, ↓kept_findEntry, ↓kept_OpRun_cut, ↓kept_OpRun_read, ↓kept_OpRun_hput, ↓kept_iteO,
              ↓kept_iteO1, ↓kept_iteC, ↓kept_iteT, ↓kept_iteP])
          | (with_reducible refine (kept_of_fst ‹_›).trans ?_ <;> try simp only [↓kept_mk, ↓kept_fold, ↓kept_ite, ↓kept_ite1, ↓kept_ite2,
              ite_self, kept_fold, ↓startPage_burnt, ↓factorWiped_burnt, ↓burnt_ite, burnt_mk, burnt_fold, ↓kept_OpRun_touchRow,
              ↓kept_OpRun_keyOnce, ↓kept_findEntry, ↓kept_OpRun_cut, ↓kept_OpRun_read, ↓kept_OpRun_hput, ↓kept_iteO, ↓kept_iteO1,
              ↓kept_iteC, ↓kept_iteT, ↓kept_iteP])
          | (with_reducible refine (kept_of_snd ‹_›).trans ?_ <;> try simp only [↓kept_mk, ↓kept_fold, ↓kept_ite, ↓kept_ite1, ↓kept_ite2,
              ite_self, kept_fold, ↓startPage_burnt, ↓factorWiped_burnt, ↓burnt_ite, burnt_mk, burnt_fold, ↓kept_OpRun_touchRow,
              ↓kept_OpRun_keyOnce, ↓kept_findEntry, ↓kept_OpRun_cut, ↓kept_OpRun_read, ↓kept_OpRun_hput, ↓kept_iteO, ↓kept_iteO1,
              ↓kept_iteC, ↓kept_iteT, ↓kept_iteP])
          | (with_reducible refine (kept_of_run ‹_›).trans ?_ <;> try simp only [↓kept_mk, ↓kept_fold, ↓kept_ite, ↓kept_ite1, ↓kept_ite2,
              ite_self, kept_fold, ↓startPage_burnt, ↓factorWiped_burnt, ↓burnt_ite, burnt_mk, burnt_fold, ↓kept_OpRun_touchRow,
              ↓kept_OpRun_keyOnce, ↓kept_findEntry, ↓kept_OpRun_cut, ↓kept_OpRun_read, ↓kept_OpRun_hput, ↓kept_iteO, ↓kept_iteO1,
              ↓kept_iteC, ↓kept_iteT, ↓kept_iteP]))
theorem kept_freeBytes (r : OpRun) (x1 : Nat) : (freeBytes r x1).1.s.kept = r.s.kept := by
  induction x1 generalizing r with
  | zero => rfl
  | succ fuel ih =>
    rw [freeBytes]
    try simp only [↓kept_mk, ↓kept_fold, ↓ih]
    all_goals repeat' (first | with_reducible rfl)
theorem kept_keyCells (raw : Bool) (l : List Col) (bs : List Byte) (long : Bool) (r : OpRun)
    : (keyCells raw l bs long r).1.s.kept = r.s.kept := by
  induction l generalizing bs r with
  | nil => rfl
  | cons c l ih =>
    unfold keyCells
    simp only [↓kept_mk, ↓kept_fold, ↓kept_ite, ↓kept_ite1, ↓kept_ite2, ite_self, kept_fold, ↓startPage_burnt, ↓factorWiped_burnt,
        ↓burnt_ite, burnt_mk, burnt_fold, ↓kept_freeBytes, ↓kept_iteO, ↓kept_iteO1, ↓kept_iteC, ↓kept_iteT, ↓kept_iteP, ↓ih]
theorem kept_flushGroup (t : HTab) (nkey : Nat) (nagg : Nat) (r : OpRun) (i : Nat) : (flushGroup t nkey nagg r i).s.kept = r.s.kept := by
  simp only [flushGroup, ite_self, ↓kept_keyCells, ↓kept_OpRun_emitRow, ↓kept_iteO, ↓kept_iteO1]
theorem kept_giveLock (r : OpRun) (t : HTab) : (giveLock r t).s.kept = r.s.kept := by
  unfold giveLock
  split <;> simp only [↓kept_OpRun_hput]
theorem kept_groupRun (t : HTab) (init : Bool) (nkey : Nat) (nagg : Nat) (r : OpRun) : (groupRun t init nkey nagg r).s.kept = r.s.kept := by
  unfold groupRun
  try simp only [↓kept_OpRun_touch, ↓kept_OpRun_hput, ↓kept_initTable, ↓kept_groupRow, ↓kept_flushGroup, ↓kept_giveLock]
  all_goals repeat' (first
    | (split <;> try simp only [↓kept_OpRun_touch, ↓kept_OpRun_hput, ↓kept_initTable, ↓kept_groupRow, ↓kept_flushGroup, ↓kept_giveLock])
    | (intro _ _; try simp only [↓kept_OpRun_touch, ↓kept_OpRun_hput, ↓kept_initTable, ↓kept_groupRow, ↓kept_flushGroup, ↓kept_giveLock])
    | (with_reducible refine (kept_foldlO _ ?_ _ _).trans ?_ <;> try simp only [↓kept_OpRun_touch, ↓kept_OpRun_hput, ↓kept_initTable,
        ↓kept_groupRow, ↓kept_flushGroup, ↓kept_giveLock])
    | (refine (kept_eachRow _ ?_ _ _).trans ?_ <;> try simp only [↓kept_OpRun_touch, ↓kept_OpRun_hput, ↓kept_initTable, ↓kept_groupRow,
        ↓kept_flushGroup, ↓kept_giveLock]))
theorem kept_groupSpec (r : OpRun) (q : OpRun) : ((groupSpec r).run q).s.kept = q.s.kept := by
  simp only [groupSpec, ↓kept_groupRun]
theorem kept_dedupRow (t : HTab) (nkey : Nat) (r : OpRun) (row : Nat) : (dedupRow t nkey r row).s.kept = r.s.kept := by
  unfold dedupRow
  try simp only [↓kept_OpRun_emitRow, ↓kept_OpRun_touchRow, ↓kept_OpRun_keyOnce, ↓kept_findEntry, ↓kept_OpRun_cut]
  all_goals repeat' (first
    | (split <;> try simp only [↓kept_OpRun_emitRow, ↓kept_OpRun_touchRow, ↓kept_OpRun_keyOnce, ↓kept_findEntry, ↓kept_OpRun_cut])
    | (with_reducible refine (kept_openEntry _ _ _  ‹_›).trans ?_ <;> try simp only [↓kept_OpRun_emitRow, ↓kept_OpRun_touchRow,
        ↓kept_OpRun_keyOnce, ↓kept_findEntry, ↓kept_OpRun_cut]))
theorem kept_dedupRun (t : HTab) (init : Bool) (nkey : Nat) (r : OpRun) : (dedupRun t init nkey r).s.kept = r.s.kept := by
  unfold dedupRun
  try simp only [↓kept_OpRun_touch, ↓kept_OpRun_hput, ↓kept_initTable, ↓kept_dedupRow, ↓kept_giveLock]
  all_goals repeat' (first
    | (split <;> try simp only [↓kept_OpRun_touch, ↓kept_OpRun_hput, ↓kept_initTable, ↓kept_dedupRow, ↓kept_giveLock])
    | (intro _ _; try simp only [↓kept_OpRun_touch, ↓kept_OpRun_hput, ↓kept_initTable, ↓kept_dedupRow, ↓kept_giveLock])
    | (refine (kept_eachRow _ ?_ _ _).trans ?_ <;> try simp only [↓kept_OpRun_touch, ↓kept_OpRun_hput, ↓kept_initTable, ↓kept_dedupRow,
        ↓kept_giveLock]))
theorem kept_dedupSpec (r : OpRun) (q : OpRun) : ((dedupSpec r).run q).s.kept = q.s.kept := by
  simp only [dedupSpec, ↓kept_dedupRun]
theorem kept_execFoldLockPoll (core : Nat) (s : State) : OutKeeps s (execFoldLockPoll core s) := by
  unfold execFoldLockPoll
  extract_lets c s1
  have hs1 : s1.kept = s.kept := kept_peerWait _ _ _
  split
  · split
    · exact out_next.2 rfl
    · extract_lets o f
      have h1 : s1.kept = s.kept := kept_peerWait _ _ _
      have hf : ∀ r q, ((f r).run q).s.kept = q.s.kept := by
        intro r q
        unfold f
        split
        · exact kept_groupSpec _ _
        · exact kept_dedupSpec _ _
      clear_value s1 f
      split
      · exact out_next.2 h1
      · refine out_next.2 ?_
        cases e : opTry (s1.setCore core { s1.core core with opWait := none }) core _ o f with
        | none => exact h1
        | some t => exact (kept_opTry hf e).trans ((kept_State_setCore _ _ _).trans h1)
  · exact out_next.2 rfl
theorem kept_probeKey (r : OpRun) (first : Bool) (cap : Option Nat) (row : Nat) (k : List Byte)
    : (probeKey r first cap row k).r.s.kept = r.s.kept := by
  unfold probeKey
  split
  · exact kept_lookup _ _ _ _ _ _
  · exact kept_findKey _ _ _ _ _ _ _
theorem kept_dictRow (r : OpRun) (row : Nat) : (dictRow r row).s.kept = r.s.kept := by
  unfold dictRow
  try simp only [↓kept_OpRun_touchRow, ↓kept_OpRun_keyOnce, ↓kept_probeKey, ↓kept_OpRun_emitRow, ↓kept_OpRun_putBit, ↓kept_OpRun_cut]
  repeat' (first
    | with_reducible rfl
    | (split <;> try simp only [↓kept_OpRun_touchRow, ↓kept_OpRun_keyOnce, ↓kept_probeKey, ↓kept_OpRun_emitRow, ↓kept_OpRun_putBit,
        ↓kept_OpRun_cut]))
theorem kept_joinEmit (r : OpRun) (row : Nat) (k : Nat) (vals : List Nat) : (joinEmit r row k vals).s.kept = r.s.kept := by
  simp only [joinEmit, ite_self, ↓kept_OpRun_emitRow, ↓kept_iteO]
theorem kept_probeRow (r : OpRun) (row : Nat) : (probeRow r row).s.kept = r.s.kept := by
  unfold probeRow
  try simp only [ite_self, ↓kept_OpRun_touchRow, ↓kept_OpRun_keyOnce, ↓kept_probeKey, ↓kept_joinEmit, ↓kept_OpRun_cut, ↓kept_iteO]
  all_goals repeat' (first
    | (split <;> try simp only [ite_self, ↓kept_OpRun_touchRow, ↓kept_OpRun_keyOnce, ↓kept_probeKey, ↓kept_joinEmit, ↓kept_OpRun_cut,
        ↓kept_iteO])
    | (intro _ _; try simp only [ite_self, ↓kept_OpRun_touchRow, ↓kept_OpRun_keyOnce, ↓kept_probeKey, ↓kept_joinEmit, ↓kept_OpRun_cut,
        ↓kept_iteO])
    | (with_reducible refine (kept_foldlO _ ?_ _ _).trans ?_ <;> try simp only [ite_self, ↓kept_OpRun_touchRow, ↓kept_OpRun_keyOnce,
        ↓kept_probeKey, ↓kept_joinEmit, ↓kept_OpRun_cut, ↓kept_iteO]))
theorem kept_probeSpec (r : OpRun) (q : OpRun) : ((probeSpec r).run q).s.kept = q.s.kept := by
  unfold probeSpec
  try simp only [↓kept_probeRow]
  all_goals repeat' (first
    | (intro _ _; try simp only [↓kept_probeRow])
    | (refine (kept_eachRow _ ?_ _ _).trans ?_ <;> try simp only [↓kept_probeRow]))
theorem kept_execJoinProbe (core : Nat) (s : State) : OutKeeps s (execJoinProbe core s) := by
  unfold execJoinProbe
  try simp only [↓out_next]
  all_goals repeat' (first | with_reducible exact kept_opCall _ _ _ _ (fun _ _ => kept_probeSpec _ _))
theorem kept_writeStat (r : OpRun) (t : HTab) (o : Nat) (x : StatRec) (tag : Nat) : (writeStat r t o x tag).s.kept = r.s.kept := by
  simp only [writeStat, ↓kept_OpRun_hput]
theorem kept_buildRow (t : HTab) (nkey : Nat) (kind : Nat) (base : Nat) (r : OpRun) (row : Nat)
    : (buildRow t nkey kind base r row).s.kept = r.s.kept := by
  unfold buildRow
  try simp only [↓kept_OpRun_touchRow, ↓kept_OpRun_keyOnce, ↓kept_OpRun_cut, ↓kept_writeEntry, ↓kept_OpRun_hput]
  all_goals repeat' (first
    | (split <;> try simp only [↓kept_OpRun_touchRow, ↓kept_OpRun_keyOnce, ↓kept_OpRun_cut, ↓kept_writeEntry, ↓kept_OpRun_hput])
    | (with_reducible refine (kept_placeRow _ _ _ _  ‹_›).trans ?_ <;> try simp only [↓kept_OpRun_touchRow, ↓kept_OpRun_keyOnce,
        ↓kept_OpRun_cut, ↓kept_writeEntry, ↓kept_OpRun_hput])
    | (with_reducible refine (kept_of_run ‹_›).trans ?_ <;> try simp only [↓kept_OpRun_touchRow, ↓kept_OpRun_keyOnce, ↓kept_OpRun_cut,
        ↓kept_writeEntry, ↓kept_OpRun_hput]))
theorem kept_buildSpec (r : OpRun) (q : OpRun) : ((buildSpec r).run q).s.kept = q.s.kept := by
  unfold buildSpec
  try simp only [↓kept_OpRun_touch, ↓kept_initTable, ↓kept_buildRow, ↓kept_OpRun_hput]
  all_goals repeat' (first
    | (split <;> try simp only [↓kept_OpRun_touch, ↓kept_initTable, ↓kept_buildRow, ↓kept_OpRun_hput])
    | (intro _ _; try simp only [↓kept_OpRun_touch, ↓kept_initTable, ↓kept_buildRow, ↓kept_OpRun_hput])
    | (refine (kept_eachRow _ ?_ _ _).trans ?_ <;> try simp only [↓kept_OpRun_touch, ↓kept_initTable, ↓kept_buildRow, ↓kept_OpRun_hput]))
theorem kept_execJoinBuild (core : Nat) (s : State) : OutKeeps s (execJoinBuild core s) := by
  unfold execJoinBuild
  try simp only [↓out_next]
  all_goals repeat' (first | with_reducible exact kept_opCall _ _ _ _ (fun _ _ => kept_buildSpec _ _))
theorem kept_foldParts (t : HTab) (nf : Nat) (w : Nat) (x3 : Nat) (x4 : OpRun) (x5 : Nat) (x6 : List StatRec)
    : (foldParts t nf w x3 x4 x5 x6).1.s.kept = x4.s.kept := by
  induction x3 generalizing t nf w x4 x5 x6 with
  | zero => rfl
  | succ fuel ih =>
    rw [foldParts]
    try simp only [↓kept_OpRun_hput, ↓ih]
    all_goals repeat' (first
      | (split <;> try simp only [↓kept_OpRun_hput, ↓ih])
      | (intro _ _; try simp only [↓kept_OpRun_hput, ↓ih])
      | (with_reducible refine (kept_foldlO _ ?_ _ _).trans ?_ <;> try simp only [↓kept_OpRun_hput, ↓ih]))
theorem kept_statsRun (t : HTab) (r : OpRun) : (statsRun t r).s.kept = r.s.kept := by
  unfold statsRun
  try simp only [↓kept_OpRun_touchRow, ↓kept_OpRun_read, ↓kept_writeStat, ↓kept_foldParts, ↓kept_OpRun_hput]
  all_goals repeat' (first
    | (split <;> try simp only [↓kept_OpRun_touchRow, ↓kept_OpRun_read, ↓kept_writeStat, ↓kept_foldParts, ↓kept_OpRun_hput])
    | (intro _ _; try simp only [↓kept_OpRun_touchRow, ↓kept_OpRun_read, ↓kept_writeStat, ↓kept_foldParts, ↓kept_OpRun_hput])
    | (with_reducible refine (kept_foldlO _ ?_ _ _).trans ?_ <;> try simp only [↓kept_OpRun_touchRow, ↓kept_OpRun_read, ↓kept_writeStat,
        ↓kept_foldParts, ↓kept_OpRun_hput])
    | (with_reducible refine (kept_foldlO1 _ ?_ _ _).trans ?_ <;> try simp only [↓kept_OpRun_touchRow, ↓kept_OpRun_read, ↓kept_writeStat,
        ↓kept_foldParts, ↓kept_OpRun_hput])
    | (refine (kept_eachRow _ ?_ _ _).trans ?_ <;> try simp only [↓kept_OpRun_touchRow, ↓kept_OpRun_read, ↓kept_writeStat, ↓kept_foldParts,
        ↓kept_OpRun_hput])
    | (with_reducible refine (kept_of_run ‹_›).trans ?_ <;> try simp only [↓kept_OpRun_touchRow, ↓kept_OpRun_read, ↓kept_writeStat,
        ↓kept_foldParts, ↓kept_OpRun_hput]))
theorem kept_statsSpec (r : OpRun) (q : OpRun) : ((statsSpec r).run q).s.kept = q.s.kept := by
  simp only [statsSpec, ite_self, ↓kept_OpRun_touch, ↓kept_statsRun, ↓kept_iteO]
theorem kept_execOpStats (core : Nat) (s : State) : OutKeeps s (execOpStats core s) := by
  unfold execOpStats
  try simp only [↓kept_peerWait, ↓out_next]
  all_goals repeat' (first
    | with_reducible exact kept_opCall _ _ _ _ (fun _ _ => kept_statsSpec _ _)
    | (split <;> try simp only [↓kept_peerWait, ↓out_next]))
theorem kept_lockCall (s : State) (n op : Nat) (f : OpRun → OpSpec) (h : ∀ r q, ((f r).run q).s.kept = q.s.kept)
    : (lockCall s n op f).kept = s.kept := by
  unfold lockCall
  have := kept_opCall s n op f h
  repeat' split
  all_goals first | exact this | rfl
theorem kept_execGroupAgg (core : Nat) (s : State) : OutKeeps s (execGroupAgg core s) := by
  unfold execGroupAgg
  try simp only [↓out_next]
  all_goals repeat' (first | with_reducible exact kept_lockCall _ _ _ _ (fun _ _ => kept_groupSpec _ _))
theorem kept_dictSpec (r : OpRun) (q : OpRun) : ((dictSpec r).run q).s.kept = q.s.kept := by
  unfold dictSpec
  try simp only [↓kept_dictRow]
  all_goals repeat' (first
    | (intro _ _; try simp only [↓kept_dictRow])
    | (refine (kept_eachRow _ ?_ _ _).trans ?_ <;> try simp only [↓kept_dictRow]))
theorem kept_execDictLookup (core : Nat) (s : State) : OutKeeps s (execDictLookup core s) := by
  unfold execDictLookup
  try simp only [↓out_next]
  all_goals repeat' (first | with_reducible exact kept_opCall _ _ _ _ (fun _ _ => kept_dictSpec _ _))
theorem kept_execOpDedup (core : Nat) (s : State) : OutKeeps s (execOpDedup core s) := by
  unfold execOpDedup
  try simp only [↓out_next]
  all_goals repeat' (first | with_reducible exact kept_lockCall _ _ _ _ (fun _ _ => kept_dedupSpec _ _))
theorem kept_execSnap (who : Requester) (s : State) : OutKeeps s (execSnap who s) := by
  unfold execSnap
  split <;> simp only [↓kept_mk, ↓kept_fold, ↓kept_State_mapIo, ↓out_next]
theorem kept_sessGot (s : State) (n : Nat) (x : Sess) (len : Nat) : (sessGot s n x len).kept = s.kept := Eq.trans rfl rfl
theorem kept_messageIn (s : State) (n : Nat) (x : Sess) (data : List Byte) : (messageIn s n x data).kept = s.kept := by
  unfold messageIn
  split <;> simp only [↓kept_sessGot, ↓kept_placeMessage, ↓kept_releaseAt, ↓kept_arrive]
theorem kept_oversize (s : State) (n : Nat) : (oversize s n).kept = s.kept := by
  simp only [oversize, ↓kept_State_mapIo, ↓kept_sessError]
theorem kept_messageFwd (s : State) (n : Nat) (x : Sess) (dst : Nat) (inbox : Nat) (data : List Byte)
    : (messageFwd s n x dst inbox data).kept = s.kept := by
  simp only [messageFwd, ↓kept_sessGot, ↓kept_queueMsg]
theorem kept_sessResend (s : State) (n : Nat) (x : Sess) : (sessResend s n x).kept = s.kept := by
  unfold sessResend
  try simp only [↓kept_State_mapIo]
  all_goals repeat' (first
    | (intro _ _; try simp only [↓kept_State_mapIo])
    | (with_reducible refine (kept_foldl _ ?_ _ _).trans ?_ <;> try simp only [↓kept_State_mapIo]))
theorem kept_execSessUnbind (c : Cmd) (s : State) : OutKeeps s (execSessUnbind c s) := by
  unfold execSessUnbind
  simp only [ite_self, ↓kept_refuse, ↓kept_creditsFor, ↓kept_finish, ↓kept_unbindSess, ↓out_next, ↓out_ite]
  split <;> simp only [ite_self, ↓kept_refuse, ↓kept_creditsFor, ↓kept_finish, ↓kept_unbindSess, ↓out_next, ↓out_ite]
theorem kept_execEcnCeReceived (sess : Nat) (s : State) : OutKeeps s (execEcnCeReceived sess s) := by
  unfold execEcnCeReceived
  split <;> simp only [ite_self, ↓kept_State_mapIo, ↓kept_setSess, ↓out_next, ↓out_ite]
theorem kept_rnrNak (s : State) (n : Nat) : (rnrNak s n).kept = s.kept := Eq.trans rfl rfl
theorem kept_protocolError (s : State) (n : Nat) : (protocolError s n).kept = s.kept := by
  simp only [protocolError, ↓kept_sessError]; rfl
theorem kept_sendIn (s : State) (sess : Nat) (x : Sess) (data : List Byte) : (sendIn s sess x data).kept = s.kept := by
  unfold sendIn
  split
  · split
    · exact kept_oversize _ _
    · split
      · exact kept_rnrNak _ _
      · exact kept_messageIn _ _ _ _
  · simp only []
    split
    · exact kept_oversize _ _
    · split
      · exact kept_rnrNak _ _
      · exact kept_messageFwd _ _ _ _ _ _
theorem kept_execSendMessage (sess : Nat) (data : Option (List Byte)) (s : State) : OutKeeps s (execSendMessage sess data s) := by
  unfold execSendMessage
  repeat' split
  all_goals simp only [↓kept_State_mapIo, ↓kept_protocolError, ↓kept_sendIn, ↓out_next]
theorem kept_ptpTick (s : State) : (ptpTick s).kept = s.kept := by
  simp only [ptpTick, ↓kept_mk, ↓kept_fold, ↓kept_ite, ite_self]
theorem kept_execRateIncrease (sess : Nat) (s : State) : OutKeeps s (execRateIncrease sess s) := by
  unfold execRateIncrease
  split <;> simp only [ite_self, ↓kept_setSess, ↓out_next, ↓out_ite]
theorem kept_execEthLinkChange (port : Nat) (up : Bool) (s : State) : OutKeeps s (execEthLinkChange port up s) := by
  simp only [execEthLinkChange, ↓kept_mk, ↓kept_fold, ite_self, ↓kept_State_mapIo, ↓out_next, ↓out_ite]
theorem kept_execPtpMessage (sec : Nat) (ns : Nat) (locked : Bool) (ppb : W32) (s : State)
    : OutKeeps s (execPtpMessage sec ns locked ppb s) := by
  simp only [execPtpMessage, ↓kept_mk, ↓kept_fold, ↓kept_ite, ite_self, ↓kept_State_mapIo, ↓out_next, ↓out_ite]
theorem kept_execCnpReceived (sess : Nat) (s : State) : OutKeeps s (execCnpReceived sess s) := by
  unfold execCnpReceived
  split <;> simp only [↓kept_setSess, ↓out_next]
theorem kept_sessRetry (s : State) (n : Nat) (x : Sess) : (sessRetry s n x).kept = s.kept := by
  simp only [sessRetry, ↓kept_ite, ite_self, ↓kept_sessError, ↓kept_sessResend, ↓kept_setSess]
theorem kept_execLocalAckTimeout (sess : Nat) (s : State) : OutKeeps s (execLocalAckTimeout sess s) := by
  unfold execLocalAckTimeout
  split <;> simp only [ite_self, ↓kept_sessResend, ↓kept_setSess, ↓kept_sessRetry, ↓out_next, ↓out_ite]
theorem kept_execSessBind (c : Cmd) (s : State) : OutKeeps s (execSessBind c s) := by
  unfold execSessBind
  split <;> simp only [↓kept_refuse, ↓kept_creditsFor, ↓kept_finish, ↓kept_setSess, ↓kept_giveFlow, ↓out_next]
theorem kept_execRoceAck (sess : Nat) (psn : Nat) (kind : AckKind) (s : State) : OutKeeps s (execRoceAck sess psn kind s) := by
  unfold execRoceAck
  repeat' split
  all_goals simp only [↓kept_setSess, ↓kept_sessRetry, ↓kept_protocolError, ↓out_next]
theorem kept_execNonRoceFrame (port : Nat) (s : State) : OutKeeps s (execNonRoceFrame port s) := by
  simp only [execNonRoceFrame, ite_self, ↓kept_State_mapIo, ↓out_next, ↓out_ite]
theorem kept_afterCtrl (s : State) (t : State) (b : Block) : (afterCtrl s t b).kept = t.kept := by
  unfold afterCtrl
  split <;> simp only [↓kept_ite, ite_self, ↓kept_linkDisable, ↓kept_State_setLink, ↓kept_State_mapIo, ↓kept_guardLost]
theorem kept_ctrClear (s : State) (b : Block) : (ctrClear s b).kept = s.kept := by
  simp only [ctrClear, ↓kept_mk, ↓kept_fold, ↓kept_ite, ite_self, ↓kept_State_mapIo]
theorem kept_plainWrite (s : State) (b : Block) (off : Nat) (v : Nat) : (plainWrite s b off v).kept = s.kept := Eq.trans rfl rfl
theorem kept_pairCommit (s : State) (b : Block) (off : Nat) (v : Nat) : (pairCommit s b off v).kept = s.kept := by
  unfold pairCommit
  split <;> simp only [↓kept_ite, ite_self, ↓kept_plainWrite, ↓kept_ctrlRingWrite, ↓kept_seedWrite, ↓kept_State_mapIo]
theorem kept_drvVerWrite (s : State) (v : Nat) : (drvVerWrite s v).kept = s.kept := by
  simp only [drvVerWrite, ↓kept_ite, ite_self, ↓kept_State_mapIo, ↓kept_withdrawAll]
theorem kept_outState {o : Host.Outcome State Fault Refusal} {s u : State} (h : OutKeeps u o) : (outState o s).kept = u.kept := by
  obtain ⟨t, rfl, h⟩ := h
  exact h
theorem kept_pageWord (s : State) (off : Nat) : (pageWord s off).2.kept = s.kept := by
  unfold pageWord
  extract_lets r
  clear_value r
  split
  · rfl
  · split
    · split <;> rfl
    · rfl
theorem kept_pageWrite (s : State) (off v : Nat) : (pageWrite s off v).kept = s.kept := by
  unfold pageWrite
  extract_lets w slot
  repeat' split
  · exact kept_outState (kept_execSqDb ..)
  · exact kept_outState (kept_execCqDb ..)
  · exact kept_outState (kept_execCqArm ..)
  · rfl
theorem kept_answerRead (s : State) (bs : List Byte) : (answerRead s bs).kept = s.kept := Eq.trans rfl rfl
theorem kept_badPage (s : State) (off : Nat) : (badPage s off).kept = s.kept := kept_State_mapIo _ _
theorem kept_bar2Read (s : State) (off len : Nat) : (bar2Read s off len).kept = s.kept := by
  unfold bar2Read
  extract_lets p q
  have hp : p.2.kept = s.kept := kept_pageWord _ _
  have hq : q.2.kept = s.kept := (kept_pageWord _ _).trans hp
  clear_value q p
  repeat' split
  all_goals first
    | exact kept_answerRead _ _
    | exact (kept_answerRead _ _).trans (kept_badPage _ _)
    | exact (kept_answerRead _ _).trans hp
    | exact (kept_answerRead _ _).trans hq
    | exact (kept_answerRead _ _).trans rfl
theorem kept_bar2Write (s : State) (off : Nat) (bs : List Byte) : (bar2Write s off bs).kept = s.kept := by
  unfold bar2Write
  repeat' split
  · exact kept_badPage _ _
  · exact kept_foldl _ (fun _ _ => kept_pageWrite _ _ _) _ _
  · rfl
  · exact kept_foldl _ (fun _ _ => kept_outState (kept_execMsixVectorUnmask ..)) _ _
  · rfl
theorem kept_execRingAreaAccess (off : Nat) (len : Nat) (data : Option (List Byte)) (s : State)
    : OutKeeps s (execRingAreaAccess off len data s) := by
  unfold execRingAreaAccess
  split
  · exact out_next.2 rfl
  · split
    · exact out_next.2 (kept_bar2Write ..)
    · exact out_next.2 (kept_bar2Read ..)
theorem kept_gidWrite (s : State) (b : Block) (o : Nat) (v : Nat) : (gidWrite s b o v).kept = s.kept := Eq.trans rfl rfl
theorem kept_reelWrite (s : State) (o : Nat) (v : Nat) : (reelWrite s o v).kept = s.kept := by
  simp only [reelWrite, ↓kept_ite, ite_self, ↓kept_plainWrite, ↓kept_fabUpdate, ↓kept_floodOwn]
theorem kept_execNegotiation (s : State) : OutKeeps s (execNegotiation s) := by
  unfold execNegotiation
  try simp only [↓kept_mk, ↓kept_fold, ↓kept_State_mapIo, ↓kept_State_setRing, ↓out_next]
  repeat' (first | with_reducible rfl | (split <;> try simp only [↓kept_mk, ↓kept_fold, ↓kept_State_mapIo, ↓kept_State_setRing, ↓out_next]))
theorem kept_badAccess (s : State) (off : Nat) : (badAccess s off).kept = s.kept := Eq.trans rfl rfl
theorem kept_writeRefused (s : State) (who : Requester) (b : Block) (off : Nat) {w : State}
    : (writeRefused s who b off) = some w → w.kept = s.kept := by
  intro h
  unfold writeRefused at h
  try dsimp only at h
  repeat' split at h
  all_goals first | contradiction | (cases h; try simp only [↓kept_State_mapIo]) | skip
  all_goals repeat' (first | with_reducible rfl)
theorem kept_clearRead (s : State) (off : Nat) : (clearRead s off).kept = s.kept := by
  unfold clearRead
  split <;> simp only [↓kept_ite, ite_self, ↓kept_State_mapIo]
theorem kept_read8 (s : State) (off : Nat) : (read8 s off).kept = s.kept := by
  simp only [read8, ↓kept_State_mapIo, ↓kept_clearRead]
theorem kept_read4 (s : State) (who : Requester) (off : Nat) : (read4 s who off).kept = s.kept := by
  unfold read4
  split <;> simp only [↓kept_ite, ite_self, ↓kept_clearRead, ↓kept_State_mapIo]
theorem kept_regRead (s : State) (who : Requester) (off : Nat) (size : Nat) : (regRead s who off size).kept = s.kept := by
  simp only [regRead, ↓kept_ite, ite_self, ↓kept_State_mapIo, ↓kept_badAccess, ↓kept_read8, ↓kept_read4]
theorem kept_execPairHiRead (who : Requester) (off : Nat) (s : State) : OutKeeps s (execPairHiRead who off s) := by
  simp only [execPairHiRead, ↓kept_regRead, ↓out_next]
theorem kept_execPairLoRead (who : Requester) (off : Nat) (s : State) : OutKeeps s (execPairLoRead who off s) := by
  simp only [execPairLoRead, ↓kept_regRead, ↓out_next]
theorem kept_execRcFieldRead (who : Requester) (off : Nat) (size : Nat) (s : State) : OutKeeps s (execRcFieldRead who off size s) := by
  simp only [execRcFieldRead, ↓kept_regRead, ↓out_next]
theorem kept_callerBoundary (s : State) (d : Nat) : (callerBoundary s d).kept = s.kept := Eq.trans rfl rfl
theorem kept_callerTick (s : State) (d : Nat) : (callerTick s d).kept = s.kept := by
  simp only [callerTick, ↓kept_ite, ite_self, ↓kept_callerBoundary, ↓kept_State_setCaller]
theorem kept_busyTick (s : State) (n : Nat) : (busyTick s n).kept = s.kept := by
  simp only [busyTick, ↓kept_ite, ite_self, ↓kept_State_mapIo]
theorem kept_tick (s : State) : (tick s).kept = s.kept := by
  unfold tick
  try simp only [↓kept_State_mapIo, ↓kept_busyTick, ↓kept_callerTick, ↓kept_ftTick, ↓kept_ptpTick]
  all_goals repeat' (first
    | (split <;> try simp only [↓kept_State_mapIo, ↓kept_busyTick, ↓kept_callerTick, ↓kept_ftTick, ↓kept_ptpTick])
    | (intro _ _; try simp only [↓kept_State_mapIo, ↓kept_busyTick, ↓kept_callerTick, ↓kept_ftTick, ↓kept_ptpTick])
    | (with_reducible refine (kept_foldl _ ?_ _ _).trans ?_ <;> try simp only [↓kept_State_mapIo, ↓kept_busyTick, ↓kept_callerTick,
        ↓kept_ftTick, ↓kept_ptpTick]))

end Sys2Proof.Machine
end

