-- ==== Sys2Proof/Laws/Memory.lean ====
section
/-! SUPPORT. Laws of the memories: every operation keeps the canonical form, a byte reads as it was written, and a write
leaves every other byte alone. -/

namespace Sys2Proof.Machine

/-- Erasing or inserting one byte keeps the form of device memory. -/
theorem devWf_putByte (m : MemSt) (a : Nat) (v : Byte) (h : m.devWf = true) : (m.putByte a v).devWf = true := by
  simp only [MemSt.devWf, Bool.and_eq_true, List.all_eq_true] at h ⊢
  have hz : ∀ x, (m.putByte a v).readsZero x = m.readsZero x := fun _ => rfl
  simp only [hz]
  unfold MemSt.putByte
  split
  · exact ⟨smSorted_smErase h.1, fun e he => h.2 e (mem_smErase he)⟩
  · rename_i hv
    refine ⟨smSorted_smInsert h.1, fun e he => ?_⟩
    rcases mem_smInsert he with rfl | he
    · cases hr : m.readsZero a <;> simp_all
    · exact h.2 e he

theorem cellsWf_smPut (m : SMap Byte) (a : Nat) (v : Byte) (h : cellsWf m = true) : cellsWf (smPut 0 a v m) = true :=
  smWf_smPut (fun _ => 0) a v h

/-- The canonical form is kept by a write of one byte of each memory. -/
theorem wf_putByte (m : MemSt) (a : Nat) (v : Byte) (h : m.wf = true) : (m.putByte a v).wf = true := by
  simp only [MemSt.wf, Bool.and_eq_true] at h ⊢
  exact ⟨⟨devWf_putByte m a v h.1.1, h.1.2⟩, h.2⟩

theorem wf_putHostByte (m : MemSt) (a : Nat) (v : Byte) (h : m.wf = true) : (m.putHostByte a v).wf = true := by
  simp only [MemSt.wf, Bool.and_eq_true] at h ⊢
  exact ⟨⟨h.1.1, cellsWf_smPut _ _ _ h.1.2⟩, h.2⟩

theorem wf_putRingByte (m : MemSt) (a : Nat) (v : Byte) (h : m.wf = true) : (m.putRingByte a v).wf = true := by
  simp only [MemSt.wf, Bool.and_eq_true] at h ⊢
  exact ⟨⟨h.1.1, h.1.2⟩, cellsWf_smPut _ _ _ h.2⟩

/-- The canonical form is kept by a write of bytes. -/
theorem wf_putBytes (m : MemSt) (a : Nat) (bs : List Byte) (h : m.wf = true) : (m.putBytes a bs).wf = true := by
  induction bs generalizing m a with
  | nil => exact h
  | cons b bs ih => exact ih _ _ (wf_putByte m a b h)

theorem wf_putHost (m : MemSt) (a : Nat) (bs : List Byte) (h : m.wf = true) : (m.putHost a bs).wf = true := by
  induction bs generalizing m a with
  | nil => exact h
  | cons b bs ih => exact ih _ _ (wf_putHostByte m a b h)

theorem wf_putRing (m : MemSt) (a : Nat) (bs : List Byte) (h : m.wf = true) : (m.putRing a bs).wf = true := by
  induction bs generalizing m a with
  | nil => exact h
  | cons b bs ih => exact ih _ _ (wf_putRingByte m a b h)

@[simp] theorem wf_setPoison (m : MemSt) (l : Nat) (p : Bool) : (m.setPoison l p).wf = m.wf := rfl

@[simp] theorem wf_writePoison (m : MemSt) (a n : Nat) (p : Bool) : (m.writePoison a n p).wf = m.wf := by
  unfold MemSt.writePoison
  generalize linesOf a n = ls
  induction ls generalizing m with
  | nil => rfl
  | cons l ls ih =>
    rw [List.foldl_cons, ih]
    split
    · rfl
    · split <;> rfl

/-- The canonical form is kept by a write of bytes with their poison. -/
theorem wf_write (m : MemSt) (a : Nat) (bs : List Byte) (p : Bool) (h : m.wf = true) : (m.write a bs p).wf = true := by
  rw [MemSt.write, wf_writePoison]
  exact wf_putBytes m a bs h

@[simp] theorem wf_sample (m : MemSt) (io : Io) (a : Nat) : (m.sample io a).wf = m.wf := by
  unfold MemSt.sample
  split
  · rfl
  · dsimp only; split <;> rfl

/-- Reset's memory has the canonical form. -/
theorem reset_mem_wf : State.reset.mem.wf = true := by decide

/-- The canonical form of a core's SRAM is kept by a write of bytes. -/
theorem wf_putCells (m : SMap Byte) (a : Nat) (bs : List Byte) (h : cellsWf m = true) : cellsWf (putCells m a bs) = true := by
  induction bs generalizing m a with
  | nil => exact h
  | cons b bs ih => exact ih _ _ (cellsWf_smPut m a b h)

/-- Reading a byte of device memory after a write of one byte. -/
theorem byte_putByte (m : MemSt) (a b : Nat) (v : Byte) : (m.putByte a v).byte b = if b = a then v else m.byte b := by
  unfold MemSt.byte
  have hd : (m.putByte a v).dflt b = m.dflt b := rfl
  rw [hd]
  unfold MemSt.putByte
  dsimp only
  split
  · rename_i h
    rw [Bool.and_eq_true, decide_eq_true_eq] at h
    by_cases hb : b = a
    · subst hb
      rw [smFind_smErase_self, if_pos rfl]
      simp [MemSt.dflt, h.1, h.2]
    · rw [smFind_smErase_ne _ hb, if_neg hb]
  · by_cases hb : b = a
    · subst hb; rw [smFind_smInsert_self, if_pos rfl]; rfl
    · rw [smFind_smInsert_ne _ _ hb, if_neg hb]

/-- Reading a byte of device memory after a write of bytes. -/
theorem byte_putBytes (m : MemSt) (a b : Nat) (bs : List Byte) :
    (m.putBytes a bs).byte b = if a ≤ b ∧ b < a + bs.length then bs.getD (b - a) 0 else m.byte b := by
  induction bs generalizing m a with
  | nil => simp [MemSt.putBytes]
  | cons x bs ih =>
    rw [MemSt.putBytes, ih, byte_putByte]
    by_cases hb : b = a
    · subst hb; simp
    · by_cases h1 : a + 1 ≤ b ∧ b < a + 1 + bs.length
      · rw [if_pos h1, if_pos (by simp only [List.length_cons]; omega)]
        obtain ⟨k, rfl⟩ : ∃ k, b = a + 1 + k := ⟨b - (a + 1), by omega⟩
        rw [show a + 1 + k - (a + 1) = k by omega, show a + 1 + k - a = k + 1 by omega, List.getD_cons_succ]
      · rw [if_neg h1, if_neg hb, if_neg (by simp only [List.length_cons]; omega)]

@[simp] theorem byte_writePoison (m : MemSt) (a n b : Nat) (p : Bool) : (m.writePoison a n p).byte b = m.byte b := by
  unfold MemSt.writePoison
  generalize linesOf a n = ls
  induction ls generalizing m with
  | nil => rfl
  | cons l ls ih =>
    rw [List.foldl_cons, ih]
    split
    · rfl
    · split <;> rfl

/-- Reading a byte of device memory after a write. -/
theorem byte_write (m : MemSt) (a b : Nat) (bs : List Byte) (p : Bool) :
    (m.write a bs p).byte b = if a ≤ b ∧ b < a + bs.length then bs.getD (b - a) 0 else m.byte b := by
  rw [MemSt.write, byte_writePoison, byte_putBytes]

theorem ringByte_putRingByte (m : MemSt) (a b : Nat) (v : Byte) : (m.putRingByte a v).ringByte b = if b = a then v else m.ringByte b := by
  simp only [MemSt.ringByte, MemSt.putRingByte]; exact smGet_smPut _ _ _ _ _

theorem ringByte_putRing (m : MemSt) (a b : Nat) (bs : List Byte) :
    (m.putRing a bs).ringByte b = if a ≤ b ∧ b < a + bs.length then bs.getD (b - a) 0 else m.ringByte b := by
  induction bs generalizing m a with
  | nil => simp [MemSt.putRing]
  | cons x bs ih =>
    rw [MemSt.putRing, ih, ringByte_putRingByte]
    by_cases hb : b = a
    · subst hb; simp
    · by_cases h1 : a + 1 ≤ b ∧ b < a + 1 + bs.length
      · rw [if_pos h1, if_pos (by simp only [List.length_cons]; omega)]
        obtain ⟨k, rfl⟩ : ∃ k, b = a + 1 + k := ⟨b - (a + 1), by omega⟩
        rw [show a + 1 + k - (a + 1) = k by omega, show a + 1 + k - a = k + 1 by omega, List.getD_cons_succ]
      · rw [if_neg h1, if_neg hb, if_neg (by simp only [List.length_cons]; omega)]

/-- Reading one byte of a plain byte memory after a write of bytes. -/
theorem smGet_putCells (m : SMap Byte) (a b : Nat) (bs : List Byte) :
    smGet 0 b (putCells m a bs) = if a ≤ b ∧ b < a + bs.length then bs.getD (b - a) 0 else smGet 0 b m := by
  induction bs generalizing m a with
  | nil => simp [putCells]
  | cons x bs ih =>
    rw [putCells, ih, smGet_smPut]
    by_cases hb : b = a
    · subst hb; simp
    · by_cases h1 : a + 1 ≤ b ∧ b < a + 1 + bs.length
      · rw [if_pos h1, if_pos (by simp only [List.length_cons]; omega)]
        obtain ⟨k, rfl⟩ : ∃ k, b = a + 1 + k := ⟨b - (a + 1), by omega⟩
        rw [show a + 1 + k - (a + 1) = k by omega, show a + 1 + k - a = k + 1 by omega, List.getD_cons_succ]
      · rw [if_neg h1, if_neg hb, if_neg (by simp only [List.length_cons]; omega)]

end Sys2Proof.Machine
end

