-- ==== Sys2Proof/Laws/Vector.lean ====
section
/-! SUPPORT. Laws of core registers and SRAM: what a register, a lane, a mask bit or a byte reads after each write. -/

namespace Sys2Proof.Machine

theorem setX_run (c : CoreSt) (r v : Nat) : (c.setX r v).run = c.run ∧ (c.setX r v).pc = c.pc ∧ (c.setX r v).poisonAt = c.poisonAt := by
  unfold CoreSt.setX; split <;> exact ⟨rfl, rfl, rfl⟩

/-- A scalar register after a write; X0 reads zero (Table 6.1). -/
theorem xr_setX (c : CoreSt) (r v q : Nat) : (c.setX r v).xr q = if q = 0 then 0 else if q = r then v % 2 ^ 64 else c.xr q := by
  unfold CoreSt.setX CoreSt.xr
  by_cases hq : q = 0
  · rw [if_pos hq, if_pos hq]
  · rw [if_neg hq, if_neg hq, if_neg hq]
    by_cases hr : r = 0
    · rw [if_pos hr, if_neg (by omega)]
    · rw [if_neg hr]; simp only [smGet_smPut]

theorem bytes_one (c : CoreSt) (a : Nat) : c.bytes a 1 = [smGet 0 a c.sram] := by simp [CoreSt.bytes, cells]

/-- A read of clean lines leaves the core as it is (Table 15.4). -/
theorem noteRead_clean {c : CoreSt} {a n : Nat} (h : c.anyPoison a n = false) : c.noteRead a n = c := by
  unfold CoreSt.noteRead
  split
  · rfl
  · have : (linesOf a n).find? (fun l => smGet false l c.sramPoison) = none := by
      rw [List.find?_eq_none]
      intro x hx
      have := List.any_eq_false.mp h x hx
      simpa using this
    rw [this]

theorem leBytes_getD (w n k : Nat) (h : k < w) : (leBytes w n).getD k 0 = BitVec.ofNat 8 (n / 256 ^ k) := by
  induction w generalizing n k with
  | zero => omega
  | succ w ih =>
    cases k with
    | zero => simp [leBytes]
    | succ k =>
      rw [leBytes, List.getD_cons_succ, ih _ _ (by omega), Nat.div_div_eq_div_mul, ← pow_succ']

@[simp] theorem leBytes_length (w n : Nat) : (leBytes w n).length = w := by
  induction w generalizing n with
  | zero => rfl
  | succ w ih => simp [leBytes, ih]

/-- A store writes its bytes and leaves every other byte. -/
theorem sram_store (c : CoreSt) (a b : Nat) (bs : List Byte) (vst : Bool) :
    smGet 0 b (c.store a bs vst).sram = if a ≤ b ∧ b < a + bs.length then bs.getD (b - a) 0 else smGet 0 b c.sram := by
  simp only [CoreSt.store, CoreSt.poisonLines, smGet_putCells]

/-- A store changes SRAM and its poison only. -/
theorem store_only (c : CoreSt) (a : Nat) (bs : List Byte) (vst : Bool) :
    c.store a bs vst = { c with sram := (c.store a bs vst).sram, sramPoison := (c.store a bs vst).sramPoison } := rfl

/-- A lane after a write of a lane. -/
theorem vl_setVl (c : CoreSt) (n m i j v : Nat) (hi : i < 64) (hj : j < 64) :
    (c.setVl n i v).vl m j = if m = n ∧ j = i then v % 2 ^ 32 else c.vl m j := by
  simp only [CoreSt.vl, CoreSt.setVl, smGet_smPut]
  by_cases h : m = n ∧ j = i
  · rw [if_pos h, if_pos (by rw [h.1, h.2])]
  · rw [if_neg h, if_neg (by omega)]

theorem vl_setElem (c : CoreSt) (w n m i j v : Nat) (hi : i < 64) (hj : j < 64) :
    (c.setElem w n i v).vl m j = if j = i ∧ m = n then v % 2 ^ 32 else if w = 64 ∧ j = i ∧ m = n + 1 then v / 2 ^ 32 % 2 ^ 32 else c.vl m j := by
  unfold CoreSt.setElem
  split
  · rename_i hw
    rw [vl_setVl _ _ _ _ _ _ hi hj, vl_setVl _ _ _ _ _ _ hi hj]
    by_cases h1 : m = n + 1 ∧ j = i
    · rw [if_pos h1, if_neg (by omega), if_pos ⟨hw, h1.2, h1.1⟩]
    · rw [if_neg h1]
      by_cases h2 : m = n ∧ j = i
      · rw [if_pos h2, if_pos ⟨h2.2, h2.1⟩]
      · rw [if_neg h2, if_neg (by omega), if_neg (by omega)]
  · rename_i hw
    rw [vl_setVl _ _ _ _ _ _ hi hj]
    by_cases h2 : m = n ∧ j = i
    · rw [if_pos h2, if_pos ⟨h2.2, h2.1⟩]
    · rw [if_neg h2, if_neg (by omega), if_neg (by omega)]

/-- The value of a lane after the lanes of a result are written, one after another from lane `k`. -/
theorem vl_putFold (c : CoreSt) (i : Ins) (w n : Nat) (vals : List Nat) (k : Nat) (d : CoreSt) (m j : Nat) (hj : j < 64) (hk : k + vals.length ≤ 64) :
    ((vals.zipIdx k).foldl (fun d e => if c.active i e.2 then d.setElem w n e.2 e.1 else if i.zm then d.setElem w n e.2 0 else d) d).vl m j =
    if k ≤ j ∧ j < k + vals.length ∧ (c.active i j = true ∨ i.zm = true) ∧ m = n then
      (if c.active i j then vals.getD (j - k) 0 else 0) % 2 ^ 32
    else if k ≤ j ∧ j < k + vals.length ∧ (c.active i j = true ∨ i.zm = true) ∧ w = 64 ∧ m = n + 1 then
      (if c.active i j then vals.getD (j - k) 0 else 0) / 2 ^ 32 % 2 ^ 32
    else d.vl m j := by
  induction vals generalizing k d with
  | nil => simp; rw [if_neg (by omega), if_neg (by omega)]
  | cons v vals ih =>
    rw [List.zipIdx_cons, List.foldl_cons, ih (k + 1) _ (by simp at hk; omega)]
    simp only [List.length_cons] at hk ⊢
    by_cases hjk : j = k
    · subst hjk
      rw [if_neg (by omega), if_neg (by omega)]
      simp only [Nat.sub_self, List.getD_cons_zero, le_refl, true_and, (by omega : j < j + (vals.length + 1))]
      by_cases ha : c.active i j = true
      · simp only [ha, if_true, true_or, true_and]
        rw [vl_setElem _ _ _ _ _ _ _ (by omega) hj]
        simp only [true_and]
      · by_cases hz : i.zm = true
        · simp only [ha, hz, if_true, or_true, true_and, if_false, Bool.false_eq_true]
          rw [vl_setElem _ _ _ _ _ _ _ (by omega) hj]
          simp only [true_and]
        · simp only [ha, hz, or_self, false_and, if_false, Bool.false_eq_true]
    · have hd : (if c.active i k then d.setElem w n k v else if i.zm then d.setElem w n k 0 else d).vl m j = d.vl m j := by
        have hs : ∀ x, (d.setElem w n k x).vl m j = d.vl m j := fun x => by
          rw [vl_setElem _ _ _ _ _ _ _ (by omega) hj, if_neg (by omega), if_neg (by omega)]
        split
        · exact hs _
        · split
          · exact hs _
          · rfl
      rw [hd]
      by_cases hb : k + 1 ≤ j ∧ j < k + 1 + vals.length
      · obtain ⟨q, rfl⟩ : ∃ q, j = k + 1 + q := ⟨j - (k + 1), by omega⟩
        have e1 : k + 1 + q - (k + 1) = q := by omega
        have e2 : k + 1 + q - k = q + 1 := by omega
        have c1 : (k + 1 ≤ k + 1 + q) = True := by simp
        have c2 : (k + 1 + q < k + 1 + vals.length) = True := by simp; omega
        have c3 : (k ≤ k + 1 + q) = True := by simp; omega
        have c4 : (k + 1 + q < k + (vals.length + 1)) = True := by simp; omega
        simp only [e1, e2, List.getD_cons_succ, c1, c2, c3, c4, true_and]
      · rw [if_neg (by omega), if_neg (by omega), if_neg (by omega), if_neg (by omega)]

/-- A lane of the destination after a vector result of 64 lanes: its value, zero, or what it was (R145). -/
theorem elem_putLanes (c : CoreSt) (i : Ins) (w n : Nat) (hw : w = 32 ∨ w = 64) (vals : List Nat) (hl : vals.length = 64) (j : Nat) (hj : j < 64) :
    (c.putLanes i w n vals).elem w n j = if c.active i j then vals.getD j 0 % 2 ^ w else if i.zm then 0 else c.elem w n j := by
  unfold CoreSt.elem CoreSt.putLanes
  simp only [vl_putFold c i w n vals 0 c _ j hj (by omega), hl, Nat.zero_le, true_and, Nat.zero_add, hj, Nat.sub_zero]
  rcases hw with rfl | rfl
  · simp
    by_cases ha : c.active i j = true <;> by_cases hz : i.zm = true <;> simp [ha, hz]
  · simp
    by_cases ha : c.active i j = true <;> by_cases hz : i.zm = true <;> simp [ha, hz] <;> omega

theorem vl_putLanes_ne (c : CoreSt) (i : Ins) (w n : Nat) (vals : List Nat) (hl : vals.length = 64) (m j : Nat) (hj : j < 64)
    (hm : m ≠ n) (hm2 : w = 64 → m ≠ n + 1) : (c.putLanes i w n vals).vl m j = c.vl m j := by
  unfold CoreSt.putLanes
  rw [vl_putFold c i w n vals 0 c _ j hj (by omega), if_neg (by tauto), if_neg (by tauto)]

/-- A vector result changes the vector registers only. -/
theorem putLanes_only (c : CoreSt) (i : Ins) (w n : Nat) (vals : List Nat) :
    c.putLanes i w n vals = { c with v := (c.putLanes i w n vals).v } := by
  have hset : ∀ (d : CoreSt) w n l x, d.setElem w n l x = { d with v := (d.setElem w n l x).v } := by
    intro d w n l x; unfold CoreSt.setElem; split <;> rfl
  unfold CoreSt.putLanes
  generalize vals.zipIdx = l
  suffices h : ∀ d : CoreSt, d = { c with v := d.v } →
      l.foldl (fun d e => if c.active i e.2 then d.setElem w n e.2 e.1 else if i.zm then d.setElem w n e.2 0 else d) d =
      { c with v := (l.foldl (fun d e => if c.active i e.2 then d.setElem w n e.2 e.1 else if i.zm then d.setElem w n e.2 0 else d) d).v } from h c rfl
  induction l with
  | nil => exact fun d h => h
  | cons e l ih =>
    intro d h
    rw [List.foldl_cons]
    apply ih
    split
    · rw [hset, h]
    · split
      · rw [hset, h]
      · exact h

/-- No exception condition holds. -/
theorem guard_clear (l : List (Bool × Nat)) (k : Ran) (h : ∀ e ∈ l, e.1 = false) : guardExc l k = k := by
  induction l with
  | nil => rfl
  | cons e l ih =>
    obtain ⟨b, c⟩ := e
    have := h (b, c) (List.mem_cons_self ..)
    simp only at this; subst this
    rw [guardExc_false]; exact ih (fun e he => h e (List.mem_cons_of_mem _ he))

/-- Register types are 32 or 64 bits wide (R144). -/
theorem width_reg {et : Nat} (h : regType et = true) : Num.width et = 32 ∨ Num.width et = 64 := by
  simp only [regType, Bool.or_eq_true, beq_iff_eq] at h
  rcases h with ((((h | h) | h) | h) | h) | h <;> subst h <;> decide

theorem map_range_getD (f : Nat → Nat) (l : Nat) (h : l < 64) : ((List.range 64).map f).getD l 0 = f l := by
  simp [List.getD, h]

theorem zipIdx_fold (p : Nat → Bool) (f : Nat → Nat × Num.FFlags) :
    (((List.range 64).map f).zipIdx.foldl (fun a e => if p e.2 then Nat.lor a (flagBits e.1.2) else a) 0) =
    (List.range 64).foldl (fun a l => if p l then Nat.lor a (flagBits (f l).2) else a) 0 := by
  have : ((List.range 64).map f).zipIdx = (List.range 64).map (fun l => (f l, l)) := by
    apply List.ext_getElem?
    intro k
    simp [List.getElem?_zipIdx]
    by_cases h : k < 64
    · simp [h]
    · simp [h]
  rw [this, List.foldl_map]

/-- What an instruction that writes the lanes of a vector register and adds flags leaves. -/
theorem lanes_done {s : State} {n : Nat} {i : Ins} {mine : Ins → Bool} {f : State → Ins → Ran} {w fl : Nat} {r : Nat → Nat}
    (h : Issues s n i) (hw : w = 32 ∨ w = 64) (hm : mine i = true)
    (hf : f s i = .done (s.setCore n (((s.core n).putLanes i w i.dst ((List.range 64).map r)).orF fl))) :
    let t := runIns s n mine (some Off.fcore_INSTR_VECTOR_LO) f
    (∀ l, l < 64 → (t.core n).elem w i.dst l = if (s.core n).active i l then r l % 2 ^ w else if i.zm then 0 else (s.core n).elem w i.dst l) ∧
    (∀ q l, l < 64 → q ≠ i.dst → (w = 64 → q ≠ i.dst + 1) → (t.core n).vl q l = (s.core n).vl q l) ∧
    CoreOnly s t n { s.core n with v := (t.core n).v, fstat := Nat.lor (s.core n).fstat fl, pc := (s.core n).pc + 8 } := by
  intro t
  have ho := putLanes_only (s.core n) i w i.dst ((List.range 64).map r)
  have key := runIns_done (mine := mine) (ctr := some Off.fcore_INSTR_VECTOR_LO) (f := f) h hm (by decide) hf (coreOnly_setCore _ _ _)
    (by rw [ho]; exact h.2.2.2.2.2) (by rw [ho]; rfl) (by rw [ho]; rfl)
  have hv : (t.core n).v = ((s.core n).putLanes i w i.dst ((List.range 64).map r)).v := by
    rw [show t.core n = _ from key.1]; rfl
  have hvl : ∀ q l, (t.core n).vl q l = ((s.core n).putLanes i w i.dst ((List.range 64).map r)).vl q l := by
    intro q l; unfold CoreSt.vl; rw [hv]
  refine ⟨fun l hl => ?_, fun q l hl h1 h2 => ?_, ?_⟩
  · have := elem_putLanes (s.core n) i w i.dst hw ((List.range 64).map r) (by simp) l hl
    rw [map_range_getD _ _ hl] at this
    rw [← this]; unfold CoreSt.elem; simp only [hvl]
  · rw [hvl, vl_putLanes_ne _ _ _ _ _ (by simp) _ _ hl h1 h2]
  · have hc : { (((s.core n).putLanes i w i.dst ((List.range 64).map r)).orF fl) with pc := (s.core n).pc + 8 } =
        { s.core n with v := (t.core n).v, fstat := Nat.lor (s.core n).fstat fl, pc := (s.core n).pc + 8 } := by
      rw [hv]; conv_lhs => rw [ho]
      rfl
    rw [← hc]; exact key


end Sys2Proof.Machine
end

