-- ==== Sys2Proof/Laws/Matrix.lean ====
section
/-! SUPPORT. Laws of the accumulators: what an element reads after an accumulator is written. -/

namespace Sys2Proof.Machine

/-- An entry of a sparse map after entries `b + e` were put for every `e` of a list without repeats. -/
theorem smGet_foldPut (l : List Nat) (b : Nat) (f : Nat → Nat) (m : SMap Nat) (k : Nat) (hn : l.Nodup) :
    smGet 0 k (l.foldl (fun m e => smPut 0 (b + e) (f e) m) m) = if b ≤ k ∧ k - b ∈ l then f (k - b) else smGet 0 k m := by
  induction l generalizing m with
  | nil => simp
  | cons x l ih =>
    rw [List.foldl_cons, ih _ (List.nodup_cons.mp hn).2, smGet_smPut]
    have := (List.nodup_cons.mp hn).1
    by_cases h : b ≤ k ∧ k - b ∈ l
    · rw [if_pos h, if_pos ⟨h.1, List.mem_cons_of_mem _ h.2⟩]
    · rw [if_neg h]
      by_cases h2 : k = b + x
      · subst h2; simp
      · rw [if_neg (by omega), if_neg]
        intro h3
        rcases List.mem_cons.mp h3.2 with h4 | h4
        · omega
        · exact h ⟨h3.1, h4⟩

/-- Writing an accumulator sets its elements and leaves the others (Table 6.1). -/
theorem accAt_putAcc (c : CoreSt) (a q j k : Nat) (f : Nat → Nat → Nat) (hj : j < 64) (hk : k < 32) :
    accAt (putAcc c a f) q j k = if q = a then f j k else accAt c q j k := by
  have h0 := smGet_foldPut (List.range 2048) (2048 * a) (fun e => f (e / 32) (e % 32)) c.a (2048 * q + 32 * j + k) List.nodup_range
  simp only [List.mem_range] at h0
  have h1 : accAt (putAcc c a f) q j k =
      smGet 0 (2048 * q + 32 * j + k) ((List.range 2048).foldl (fun m e => smPut 0 (2048 * a + e) (f (e / 32) (e % 32)) m) c.a) := by
    with_reducible unfold accAt putAcc
    generalize List.range 2048 = l
    rfl
  rw [h1, h0]
  by_cases h : q = a
  · subst h
    have e1 : 2048 * q ≤ 2048 * q + 32 * j + k ∧ 2048 * q + 32 * j + k - 2048 * q < 2048 := by omega
    have e2 : (2048 * q + 32 * j + k - 2048 * q) / 32 = j := by omega
    have e3 : (2048 * q + 32 * j + k - 2048 * q) % 32 = k := by omega
    rw [if_pos e1, if_pos rfl, e2, e3]
  · have e1 : ¬ (2048 * a ≤ 2048 * q + 32 * j + k ∧ 2048 * q + 32 * j + k - 2048 * a < 2048) := by omega
    rw [if_neg e1, if_neg h]; rfl

/-- Writing an accumulator changes the accumulators only. -/
theorem putAcc_only (c : CoreSt) (a : Nat) (f : Nat → Nat → Nat) : putAcc c a f = { c with a := (putAcc c a f).a } := by
  unfold putAcc
  generalize List.range 2048 = l
  rfl

end Sys2Proof.Machine
end

