-- ==== Sys2Proof/Laws/Steady.lean ====
section
/-! SUPPORT. Coherence under resets, power and register writes: the queue stays, coherence is kept, fuses only burn (R487, R489, R507 to R519). -/

namespace Sys2Proof.Machine

set_option linter.unusedSimpArgs false
set_option linter.unnecessarySeqFocus false
set_option linter.unreachableTactic false
set_option linter.unusedTactic false

/-- From `s` to `t` the queue of commands stays, and where `s` is coherent `t` is too and its fuses only burned more. -/
def Steady (s t : State) : Prop := t.pending = s.pending ∧ (s.Coherent → t.Coherent ∧ s.fac.fuses.Grows t.fac.fuses)
theorem grows_refl (f : Fuses) : f.Grows f := ⟨Nat.le_refl _, Nat.le_refl _, Nat.le_refl _, id, id, fun _ h => h, rfl, rfl⟩
theorem grows_trans {f g h : Fuses} (a : f.Grows g) (b : g.Grows h) : f.Grows h := by
  obtain ⟨a1, a2, a3, a4, a5, a6, a7, a8⟩ := a
  obtain ⟨b1, b2, b3, b4, b5, b6, b7, b8⟩ := b
  exact ⟨Nat.le_trans a1 b1, Nat.le_trans a2 b2, Nat.le_trans a3 b3, b4 ∘ a4, b5 ∘ a5, fun k h => b6 k (a6 k h), b7.trans a7, b8.trans a8⟩
theorem steady_refl (s : State) : Steady s s := ⟨rfl, fun h => ⟨h, grows_refl _⟩⟩
theorem steady_trans {s t u : State} (a : Steady s t) (b : Steady t u) : Steady s u :=
  ⟨b.1.trans a.1, fun h => ⟨(b.2 (a.2 h).1).1, grows_trans (a.2 h).2 (b.2 (a.2 h).1).2⟩⟩
theorem kept_parts {s t : State} (h : t.kept = s.kept) :
    t.pending = s.pending ∧ t.fac.fuses = s.fac.fuses ∧ t.fac.lc = s.fac.lc ∧ t.fac.wipePending = s.fac.wipePending ∧ t.rst = s.rst := by
  simp only [State.kept, FactorSt.burnt, Prod.mk.injEq] at h
  obtain ⟨a, ⟨b, c, d⟩, e⟩ := h
  exact ⟨a, b, c, d, e⟩
theorem steady_of_kept {s t : State} (h : t.kept = s.kept) : Steady s t := by
  obtain ⟨a, b, c, d, e⟩ := kept_parts h
  refine ⟨a, fun hc => ⟨?_, ?_⟩⟩
  · simpa only [State.Coherent, FactorSt.Coherent, b, c, d, e] using hc
  · rw [b]; exact grows_refl _
theorem steady_then {s t u : State} (a : Steady s t) (b : u.kept = t.kept) : Steady s u := steady_trans a (steady_of_kept b)
theorem steady_after {s t u : State} (b : t.kept = s.kept) (a : Steady t u) : Steady s u := steady_trans (steady_of_kept b) a
/-- The general step: the status moves from one coherent value to another, and the Factor keeps what is burnt. -/
theorem steady_to {s t : State} (p : t.pending = s.pending) (f : t.fac.burnt = s.fac.burnt) (r : s.rst.Coherent → t.rst.Coherent) : Steady s t := by
  simp only [FactorSt.burnt, Prod.mk.injEq] at f
  obtain ⟨f1, f2, f3⟩ := f
  refine ⟨p, fun hc => ⟨⟨r hc.1, ?_⟩, ?_⟩⟩
  · simpa only [FactorSt.Coherent, f1, f2, f3] using hc.2
  · rw [f1]; exact grows_refl _
theorem steady_foldl {α : Type} (f : State → α → State) (h : ∀ s x, Steady s (f s x)) (l : List α) (s : State) : Steady s (l.foldl f s) := by
  induction l generalizing s with
  | nil => exact steady_refl _
  | cons x l ih => exact steady_trans (h s x) (ih _)

theorem steady_railsFall {s : State} (v : s.rst.vaux = true) : Steady s (railsFall s) :=
  steady_to rfl rfl (fun h => by
    obtain ⟨h1, h2, h3, h4, h5, h6, h7, h8⟩ := h
    simp_all [RstSt.Coherent, railsFall, freshDevice])
theorem steady_nextPhase {s : State} {micros next : Nat} (h : s.rst.Coherent → RstSt.Coherent { s.rst with phase := next }) : Steady s (nextPhase s micros next) :=
  steady_to rfl rfl h
theorem steady_startWipe (s : State) (full : Bool) : Steady s (startWipe s full) := steady_to rfl rfl id
theorem beginDevice_fac (s : State) (cold : Bool) (cause : Nat) (byCmd : Bool) : (beginDevice s cold cause byCmd).fac.burnt = s.fac.burnt := by
  unfold beginDevice
  have h : ∀ c, (freshDevice (if cold = true then s else allToLog s) c).fac.burnt = s.fac.burnt := by
    intro c
    have := (kept_freshDevice (if cold = true then s else allToLog s) c)
    cases cold
    · have e := this.trans (kept_allToLog s)
      simp only [State.kept, Prod.mk.injEq] at e
      exact e.2.1
    · simp only [State.kept, Prod.mk.injEq] at this
      exact this.2.1
  exact h cold
theorem beginDevice_pending (s : State) (cold : Bool) (cause : Nat) (byCmd : Bool) : (beginDevice s cold cause byCmd).pending = s.pending := by
  unfold beginDevice
  cases cold
  · exact (kept_parts (kept_allToLog s)).1
  · rfl
theorem beginDevice_rst (s : State) (cold : Bool) (cause : Nat) (byCmd : Bool) : ∃ full,
    (beginDevice s cold cause byCmd).rst =
      (let r : RstSt := { s.rst with device := some ⟨if cold then .cold else .warm, cause, byCmd⟩, phase := 1, units := [], cxlOut := [], fullWipe := full }
       if cold then { r with thermtripN := true, thermalDown := false, factorUp := false, vinLost := false, refLost := false, pwrGood := false, power := .standby } else r) := by
  unfold beginDevice
  cases cold
  · have h := (kept_parts (kept_allToLog s)).2.2.2.2
    exact ⟨s.rst.fullWipe && decide (s.rst.phase = 6), by simp only [Bool.false_eq_true, if_false, freshDevice, h]⟩
  · exact ⟨s.rst.fullWipe && decide (s.rst.phase = 6), by simp only [if_true, freshDevice]⟩
theorem steady_beginDevice {s : State} {cold : Bool} {cause : Nat} {byCmd : Bool} (v : s.rst.vaux = true) (u : cold = true ∨ s.rst.pwrGood = true) :
    Steady s (beginDevice s cold cause byCmd) :=
  steady_to (beginDevice_pending ..) (beginDevice_fac ..) (fun h => by
    obtain ⟨full, e⟩ := beginDevice_rst s cold cause byCmd
    rw [e]
    obtain ⟨h1, h2, h3, h4, h5, h6, h7, h8⟩ := h
    cases cold <;> simp_all [RstSt.Coherent])
theorem steady_startDevice (s : State) (cold : Bool) (cause : Nat) (byCmd : Bool) : Steady s (startDevice s cold cause byCmd) := by
  unfold startDevice
  split
  · exact steady_refl _
  · rename_i v
    have v : s.rst.vaux = true := by simpa using v
    split
    · split
      · rename_i h; exact steady_beginDevice v h
      · exact steady_refl _
    · rename_i r hr
      split
      · exact steady_beginDevice v (.inl rfl)
      · have h0 : Steady s { s with rst := { s.rst with device := some { r with byCmd := r.byCmd || byCmd } } } :=
          steady_to rfl rfl (fun h => by
            obtain ⟨h1, h2, h3, h4, h5, h6, h7, h8⟩ := h
            simp_all [RstSt.Coherent])
        dsimp only
        split
        · refine steady_trans h0 (steady_to rfl rfl (fun h => ?_))
          obtain ⟨h1, h2, h3, h4, h5, h6, h7, h8⟩ := h
          simp_all [RstSt.Coherent]
        · split
          · exact steady_trans h0 (steady_startWipe _ _)
          · exact h0
theorem steady_startUnit (s : State) (x : Scope) (cause : Nat) (byCmd : Bool) : Steady s (startUnit s x cause byCmd) := by
  unfold startUnit
  extract_lets covered r0 mark was left s1 s2 s3
  split
  · refine steady_to rfl rfl (fun h => ?_)
    obtain ⟨h1, h2, h3, h4, h5, h6, h7, h8⟩ := h
    refine ⟨h1, h2, h3, h4, h5, h6, ?_, ?_⟩
    · exact h7.trans Option.map_eq_none_iff.symm
    · intro d hd
      obtain ⟨r, hr, rfl⟩ := Option.map_eq_some_iff.1 hd
      exact h8 r hr
  · rename_i hc
    split
    · refine steady_to rfl rfl (fun h => ?_)
      obtain ⟨h1, h2, h3, h4, h5, h6, h7, h8⟩ := h
      refine ⟨h1, h2, h3, h4, h5, h6, h7, fun d hd => ?_⟩
      obtain ⟨a, b, c, e, f, g, i⟩ := h8 d hd
      refine ⟨a, b, c, e, f, g, fun u hu => ?_⟩
      obtain ⟨v, hv, rfl⟩ := List.mem_map.1 hu
      by_cases w : x.within v.scope = true
      · rw [show mark v = { v with byCmd := v.byCmd || byCmd } from if_pos w]; exact i v hv
      · rw [show mark v = v from if_neg w]; exact i v hv
    · have hs : Steady s s1 := steady_to rfl rfl (fun h => by
        obtain ⟨h1, h2, h3, h4, h5, h6, h7, h8⟩ := h
        refine ⟨h1, h2, h3, h4, h5, h6, h7, fun d hd => ?_⟩
        obtain ⟨a, b, c, e, f, g, i⟩ := h8 d hd
        refine ⟨a, b, c, e, f, g, fun u hu => ?_⟩
        rcases List.mem_append.1 hu with hu | hu
        · exact i u ((List.mem_filter.1 hu).1)
        · rw [List.mem_singleton] at hu
          subst hu
          have hd : s.rst.device = some d := hd
          simp only [covered, hd, Bool.not_eq_true] at hc
          exact hc)
      refine steady_trans hs (steady_of_kept ?_)
      rw [kept_foldl _ (fun _ _ => kept_guardLost _ _ _)]
      exact (kept_State_mapIo _ _).trans (kept_scopeWipe _ _)
theorem steady_contain (fuel : Nat) (s : State) (x : Scope) (b : Block) (code : Nat) : Steady s (contain fuel s x b code) := by
  induction fuel generalizing s x with
  | zero => exact steady_refl _
  | succ fuel ih =>
    have hn : ∀ (s : State) (f : Io → Io), (s.mapIo f).kept = s.kept := kept_State_mapIo
    rw [contain]
    dsimp only
    split
    · exact steady_after ((hn _ _).trans (hn _ _)) (steady_startDevice _ _ _ _)
    · generalize hs : State.mapIo (State.mapIo s _) _ = s2
      have h2 : s2.kept = s.kept := by rw [← hs]; exact (hn _ _).trans (hn _ _)
      clear hs
      generalize hu : startUnit _ x 11 false = s3
      have h3 : Steady s s3 := by
        rw [← hu]
        refine steady_after ?_ (steady_startUnit _ _ _ _)
        rw [kept_mk, kept_fold]; exact h2
      clear hu
      split
      · exact h3
      · refine steady_trans (steady_then h3 (kept_offlineScope s3 x)) ?_
        split
        · exact ih _ _
        · exact steady_refl _
theorem steady_failScope (s : State) (x : Scope) (b : Block) : Steady s (failScope s x b) := by
  unfold failScope
  dsimp only
  refine steady_after (kept_offlineScope s x) ?_
  split
  · exact steady_contain ..
  · exact steady_contain ..
  · exact steady_refl _
theorem steady_unitFail (s : State) (u : ResetRun) (on : List Scope) (test : Nat) : Steady s (unitFail s u on test) := by
  unfold unitFail
  dsimp only
  generalize hs : State.mapIo s _ = s1
  refine steady_after (t := s1) (by rw [← hs]; exact kept_State_mapIo _ _) ?_
  clear hs
  split
  · exact steady_of_kept (kept_offlineScope ..)
  · split
    · exact steady_refl _
    · split
      · exact steady_failScope ..
      · exact steady_contain ..
theorem steady_unitEnds (s : State) (x : Scope) (fail : Option Nat) : Steady s (unitEnds s x fail) := by
  unfold unitEnds
  split
  · exact steady_refl _
  · extract_lets left busy ready on r0 i0 e0 s1 s2 s3
    have h1 : Steady s s1 := steady_to rfl rfl (fun h => by
      obtain ⟨h1, h2, h3, h4, h5, h6, h7, h8⟩ := h
      refine ⟨h1, h2, h3, h4, h5, h6, h7, fun d hd => ?_⟩
      obtain ⟨a, b, c, e, f, g, i⟩ := h8 d hd
      exact ⟨a, b, c, e, f, g, fun u hu => i u ((List.mem_filter.1 hu).1)⟩)
    have h2 : Steady s s2 := steady_trans h1 (by
      unfold s2
      split
      · exact steady_of_kept (kept_unitPass ..)
      · exact steady_unitFail ..)
    have h3 : Steady s s3 := steady_then h2 (kept_releaseAccesses _)
    split
    · exact steady_then h3 (kept_State_mapIo _ _)
    · exact h3
theorem steady_factorBoot (s : State) : Steady s (factorBoot s) := by
  unfold factorBoot
  extract_lets f a b s1 f1 s2
  have h1 : s1.kept = s.kept := by
    unfold s1
    split
    · rw [kept_mk]; rfl
    · split
      · rw [kept_facNote, kept_mk]; rfl
      · rw [kept_mk]; rfl
  have h2 : Steady s1 s2 := ⟨rfl, fun h => ⟨⟨h.1, ⟨fun _ => rfl, h.2.2⟩⟩, grows_refl _⟩⟩
  have h3 := steady_after h1 h2
  split
  · exact steady_then h3 (kept_facNote ..)
  · exact h3

theorem factorBoot_rst (s : State) : (factorBoot s).rst = s.rst := by
  unfold factorBoot
  extract_lets f a b s1 f1 s2
  have h1 : s1.rst = s.rst := by
    unfold s1
    split
    · rfl
    · split
      · exact (kept_parts (kept_facNote ..)).2.2.2.2
      · rfl
  split
  · exact ((kept_parts (kept_facNote ..)).2.2.2.2).trans h1
  · exact h1
theorem kept_glbUp' (s : State) : (glbUp s).kept = s.kept := rfl
theorem coherent_booted {r : RstSt} {d : ResetRun} {cold : Bool} (h : r.Coherent) (p : r.phase = 2) (hd : r.device = some d) (hw : cold = false → d.scope = .warm) :
    RstSt.Coherent { r with factorUp := true, phase := if cold = true then 3 else 4 } := by
  obtain ⟨h1, h2, h3, h4, h5, h6, h7, h8⟩ := h
  cases cold <;> simp_all [RstSt.Coherent]
theorem steady_bootEnds {s : State} (cold : Bool) (micros : Nat) (p : s.rst.phase = 2) (d : ∃ r, s.rst.device = some r ∧ cold = decide (r.scope = .cold)) :
    Steady s (bootEnds s cold micros) := by
  unfold bootEnds
  extract_lets i0 s1 s2 r0 s3
  have h2 : Steady s s2 := steady_trans (steady_to (t := s1) rfl rfl id) (steady_factorBoot _)
  have hr : s2.rst = s.rst := factorBoot_rst _
  split
  · exact h2
  · have h3 : Steady s2 s3 := steady_to rfl rfl (fun h => by
      obtain ⟨r, hd, hw⟩ := d
      have hw : cold = false → r.scope = .warm := fun c => by
        rcases (h.2.2.2.2.2.2.2 r (hr ▸ hd)).1 with h | h
        · exact h
        · rw [h] at hw; simp [hw] at c
      have e : s3.rst = { s2.rst with factorUp := true, phase := if cold = true then 3 else 4 } := rfl
      rw [e]
      rw [← hr] at p hd
      exact coherent_booted h p hd hw)
    split
    · exact steady_trans h2 h3
    · exact steady_trans h2 (steady_then h3 rfl)
theorem steady_trainEnds {s : State} (micros : Nat) (trained : List Block) (cxl : List (Nat × Nat × Nat × Nat)) (p : s.rst.phase = 5) :
    Steady s (trainEnds s micros trained cxl) := by
  unfold trainEnds
  extract_lets up ports m0 m io s1 back
  have k : (back.foldl backInService s1).kept = s.kept := (kept_foldl _ (fun s b => kept_backInService s b) _ _).trans rfl
  refine steady_trans (steady_of_kept k) ?_
  have p : (back.foldl backInService s1).rst.phase = 5 := by rw [(kept_parts k).2.2.2.2]; exact p
  generalize back.foldl backInService s1 = t at p
  exact steady_to rfl rfl (fun h => by
    have e : ∃ f, (nextPhase (startWipe t false) micros 6).rst = { t.rst with fullWipe := f, phase := 6 } := ⟨_, rfl⟩
    obtain ⟨f, e⟩ := e
    rw [e]
    clear e
    obtain ⟨h1, h2, h3, h4, h5, h6, h7, h8⟩ := h
    simp_all [RstSt.Coherent])
theorem steady_wipeEnds {s : State} (micros : Nat) (wipes : List Nat) (p : s.rst.phase = 6) : Steady s (wipeEnds s micros wipes) := by
  unfold wipeEnds
  extract_lets m f zeroed s1 f1 s2 r0
  have h1 : Steady s s1 := ⟨rfl, fun h => ⟨⟨h.1, ⟨fun _ => rfl, h.2.2⟩⟩, grows_refl _⟩⟩
  have k2 : s2.kept = s1.kept := by
    unfold s2
    split
    · refine (kept_State_mapIo _ _).trans ((kept_facAnswer _ _ _ _ _).trans ?_)
      rfl
    · rfl
  have h2 : Steady s s2 := steady_then h1 k2
  have hr : s2.rst = s.rst := (kept_parts k2).2.2.2.2
  clear_value s2
  refine steady_trans h2 (steady_to rfl rfl (fun h => ?_))
  have e : (nextPhase { s2 with rst := { r0 with fullWipe := false } } micros 7).rst = { s2.rst with fullWipe := false, phase := 7 } := rfl
  rw [e]
  rw [← hr] at p
  obtain ⟨h1, h2, h3, h4, h5, h6, h7, h8⟩ := h
  simp_all [RstSt.Coherent]
theorem steady_testEnds {s : State} (micros : Nat) (p : s.rst.phase = 7) : Steady s (testEnds s micros) := by
  unfold testEnds
  extract_lets cmd s1 i0 r0 s2
  have h2 : Steady s s2 := steady_to rfl rfl (fun h => by
    have e : s2.rst = { s.rst with phase := 0, device := none, power := .d0 } := rfl
    rw [e]
    obtain ⟨h1, h2, h3, h4, h5, h6, h7, h8⟩ := h
    have hn : s.rst.device ≠ none := fun h => by simp [h7.2 h] at p
    obtain ⟨d, hd⟩ := Option.ne_none_iff_exists'.1 hn
    obtain ⟨a, b, c, _⟩ := h8 d hd
    have c := c (.inr (by omega))
    simp_all [RstSt.Coherent])
  split
  · exact steady_then h2 (kept_State_mapIo _ _)
  · exact h2
theorem steady_phaseEnds (micros : Nat) (trained : List Block) (cxl : List (Nat × Nat × Nat × Nat)) (wipes : List Nat) (s : State) :
    Steady s (phaseEnds micros trained cxl wipes s) := by
  unfold phaseEnds
  split
  · exact steady_refl _
  · rename_i r hr
    extract_lets cold
    have nx : ∀ (t : State) (n : Nat), t.kept = s.kept → s.rst.phase ≤ 3 ∨ 4 ≤ s.rst.phase → 1 ≤ n → n ≤ 3 ∨ r.scope = .warm ∨ 4 ≤ s.rst.phase → n ≤ 7 → Steady s (nextPhase t micros n) := by
      intro t n ht hp h1 h2 h7
      refine steady_after ht (steady_to rfl rfl (fun h => ?_))
      have e : (nextPhase t micros n).rst = { t.rst with phase := n } := rfl
      have ht := (kept_parts ht).2.2.2.2
      rw [e, ht] 
      rw [ht] at h
      obtain ⟨a1, a2, a3, a4, a5, a6, a7, a8⟩ := h
      refine ⟨a1, a2, a3, a4, a5, h7, ⟨fun h => by have h : n = 0 := h; omega, fun h => by rw [show s.rst.device = none from h] at hr; cases hr⟩, fun d hd => ?_⟩
      obtain ⟨b1, b2, b3, b4⟩ := a8 d hd
      have : d = r := by simpa [hr] using hd.symm
      subst this
      refine ⟨b1, b2, fun h => b3 ?_, b4⟩
      rcases h with h | h
      · exact .inl h
      · have h : 4 ≤ n := h
        rcases h2 with h2 | h2 | h2
        · omega
        · exact .inl h2
        · exact .inr h2
    split
    · rename_i hp
      split
      · exact steady_refl _
      · split
        · exact nx s 2 rfl (by omega) (by omega) (by omega) (by omega)
        · rename_i hc
          have hw : s.rst.Coherent → r.scope = .warm := fun h => by
            rcases (h.2.2.2.2.2.2.2 r hr).1 with h | h
            · exact h
            · simp [cold, h] at hc
          have nx4 : ∀ (t : State) (n : Nat), t.kept = s.kept → 1 ≤ n → n ≤ 7 → Steady s (nextPhase t micros n) := by
            intro t n ht h1 h7
            obtain ⟨k1, k2, k3, k4, k5⟩ := kept_parts ht
            refine steady_to (t := nextPhase t micros n) k1 (by simp only [State.kept, Prod.mk.injEq] at ht; exact ht.2.1) (fun h => ?_)
            have e : (nextPhase t micros n).rst = { t.rst with phase := n } := rfl
            rw [e, k5]
            have w := hw h
            obtain ⟨a1, a2, a3, a4, a5, a6, a7, a8⟩ := h
            refine ⟨a1, a2, a3, a4, a5, h7, ⟨fun h => by have h : n = 0 := h; omega, fun h => by rw [show s.rst.device = none from h] at hr; cases hr⟩, fun d hd => ?_⟩
            obtain ⟨b1, b2, b3, b4⟩ := a8 d hd
            have : d = r := by simpa [hr] using hd.symm
            subst this
            exact ⟨b1, b2, fun _ => b3 (.inl w), b4⟩
          split
          · exact steady_then (nx4 s 4 rfl (by omega) (by omega)) rfl
          · exact nx4 _ 2 rfl (by omega) (by omega)
    · rename_i hp
      exact steady_bootEnds _ _ hp ⟨r, hr, rfl⟩
    · rename_i hp
      split
      · exact steady_refl _
      · rename_i hn
        refine steady_to rfl rfl (fun h => ?_)
        have e : ∀ t : State, t = glbUp (nextPhase s micros 4) → ({ t with rst := { t.rst with pwrGood := true, power := .d0 } } : State).rst = { s.rst with phase := 4, pwrGood := true, power := .d0 } := by
          rintro _ rfl; rfl
        rw [e _ rfl]
        obtain ⟨a1, a2, a3, a4, a5, a6, a7, a8⟩ := h
        obtain ⟨b1, b2, b3, b4, b5, b6, b7⟩ := a8 r hr
        simp_all [RstSt.Coherent]
    · rename_i hp
      exact nx _ 5 rfl (by omega) (by omega) (by omega) (by omega)
    · rename_i hp; exact steady_trainEnds _ _ _ hp
    · rename_i hp; exact steady_wipeEnds _ _ hp
    · rename_i hp; exact steady_testEnds _ hp
    · exact steady_refl _
theorem steady_rstCommand (s : State) (v : Nat) : Steady s (rstCommand s v) := by
  unfold rstCommand
  extract_lets t bad
  have hb : Steady s bad := steady_of_kept (kept_State_mapIo _ _)
  clear_value bad
  split
  · exact steady_refl _
  all_goals first
    | exact hb
    | (split
       · exact hb
       · first | exact steady_startDevice .. | exact steady_startUnit ..)
theorem steady_rstWrite (s : State) (who : Requester) (v : Nat) : Steady s (rstWrite s who v) := by
  unfold rstWrite
  split
  · exact steady_of_kept rfl
  · exact steady_rstCommand _ _
theorem steady_blockReset (s : State) (who : Requester) (b : Block) (v : Nat) : Steady s (blockReset s who b v) := by
  unfold blockReset
  split
  · exact steady_refl _
  · split
    · exact steady_of_kept rfl
    · exact steady_startUnit ..
theorem steady_onlineCommand (s : State) (v : Nat) : Steady s (onlineCommand s v) := by
  unfold onlineCommand
  extract_lets t e0 go bad
  have hb : Steady s bad := steady_of_kept (kept_State_mapIo _ _)
  have hg : ∀ x, Steady s (go x) := fun x => steady_after (t := { s with evt := { s.evt with onlining := s.evt.onlining ++ [x] } }) rfl (steady_startUnit ..)
  clear_value bad go
  split
  all_goals first
    | exact hb
    | (split
       · exact hb
       · exact hg _)
theorem steady_outState {o : Host.Outcome State Fault Refusal} {s u : State} (h : OutKeeps u o) : Steady u (outState o s) := steady_of_kept (kept_outState h)
theorem steady_ctrlWrite (s : State) (who : Requester) (b : Block) (v : Nat) : Steady s (ctrlWrite s who b v) := by
  unfold ctrlWrite
  split
  · exact steady_blockReset ..
  · refine steady_of_kept ((kept_afterCtrl _ _ _).trans ?_)
    split
    · exact (kept_ctrClear _ _).trans (kept_State_mapIo _ _)
    · exact kept_State_mapIo _ _
theorem steady_headerWrite (s : State) (who : Requester) (b : Block) (o v : Nat) : Steady s (headerWrite s who b o v) := by
  unfold headerWrite
  split
  · exact steady_ctrlWrite ..
  · exact steady_of_kept (kept_plainWrite ..)
  · exact steady_of_kept (kept_State_mapIo ..)
  · exact steady_of_kept (kept_State_mapIo ..)
  · split
    · exact steady_of_kept (kept_State_mapIo ..)
    · exact steady_refl _
  · exact steady_refl _
theorem steady_ite {c : Prop} [Decidable c] {s a b : State} (ha : Steady s a) (hb : Steady s b) : Steady s (if c then a else b) := by
  split
  · exact ha
  · exact hb
theorem steady_blockWrite (s : State) (who : Requester) (b : Block) (o v : Nat) : Steady s (blockWrite s who b o v) := by
  unfold blockWrite
  extract_lets off w plain
  have hp : Steady s plain := steady_of_kept (kept_plainWrite ..)
  have hq : ∀ f, Steady s (plain.mapIo f) := fun f => steady_then hp (kept_State_mapIo _ _)
  clear_value plain off w
  split
  · exact steady_ite (steady_of_kept (kept_drvVerWrite ..)) hp
  · exact steady_ite (steady_rstCommand ..) hp
  · exact steady_ite (steady_ite (steady_outState (kept_execSnap ..)) (steady_refl _)) (steady_ite (hq _) hp)
  · exact steady_ite (steady_onlineCommand ..) (steady_ite (steady_outState (kept_execQueueCfgWrite ..)) (steady_ite (steady_outState (kept_execArmWrite ..)) hp))
  · exact steady_ite (steady_of_kept (kept_mbxRing ..)) hp
  · exact steady_ite (steady_outState (kept_execAdmCeilWrite ..)) (steady_ite (steady_outState (kept_execPowerLimitWrite ..)) hp)
  · exact steady_ite (steady_outState (kept_execPoolWrite ..)) (steady_ite (steady_ite (steady_of_kept (kept_moveCmd ..))
      (steady_ite (steady_of_kept (kept_moveCmd ..)) (steady_refl _))) (steady_ite (steady_ite (steady_refl _) hp) hp))
  · exact steady_ite (steady_of_kept (kept_gidWrite ..)) hp
  · exact steady_ite (steady_of_kept (kept_ctrlRingWrite ..)) hp
  · exact steady_ite (steady_outState (kept_execRouteEntWrite ..)) (steady_ite (steady_ite (steady_of_kept (kept_ftSnap ..)) (steady_refl _))
      (steady_ite (steady_of_kept (kept_reelWrite ..)) hp))
  · exact steady_ite (steady_outState (kept_execTickCfgWrite ..)) hp
  · exact hp
theorem steady_write4 (s : State) (who : Requester) (b : Block) (off v : Nat) : Steady s (write4 s who b off v) := by
  unfold write4
  extract_lets o
  clear_value o
  split
  · exact steady_headerWrite ..
  · split
    · exact steady_of_kept (kept_State_mapIo ..)
    · split
      · split
        · split
          · exact steady_of_kept ((kept_pairCommit ..).trans (kept_State_mapIo ..))
          · exact steady_of_kept (kept_pairCommit ..)
        · exact steady_of_kept (kept_pairCommit ..)
      · split
        · exact steady_refl _
        · exact steady_blockWrite ..
theorem steady_writeAt (s : State) (who : Requester) (off v : Nat) : Steady s (writeAt s who off v) := by
  unfold writeAt
  split
  · exact steady_refl _
  · split
    · rename_i h; exact steady_of_kept (kept_writeRefused _ _ _ _ h)
    · exact steady_write4 ..
theorem steady_write8 (s : State) (who : Requester) (off v : Nat) : Steady s (write8 s who off v) := by
  unfold write8
  split
  · exact steady_refl _
  · split
    · split
      · rename_i h; exact steady_of_kept (kept_writeRefused _ _ _ _ h)
      · exact steady_of_kept (kept_pairCommit ..)
    · exact steady_trans (steady_writeAt ..) (steady_writeAt ..)
theorem steady_regWrite (s : State) (who : Requester) (off size v : Nat) : Steady s (regWrite s who off size v) := by
  unfold regWrite
  split
  · exact steady_refl _
  · split
    · exact steady_of_kept (kept_badAccess ..)
    · split
      · exact steady_write8 ..
      · exact steady_writeAt ..
theorem steady_tapRun (s : State) (op : TapOp) : Steady s (tapRun s op) := by
  unfold tapRun
  extract_lets out
  have ho : ∀ t bs, t.kept = s.kept → Steady s (out t bs) := fun t bs h => steady_after h (steady_of_kept (kept_State_mapIo _ _))
  clear_value out
  split
  · exact steady_refl _
  · exact steady_refl _
  · exact ho _ _ rfl
  · exact ho _ _ rfl
  · split
    · exact steady_refl _
    · exact ho _ _ rfl
  · split
    · exact steady_refl _
    · exact steady_of_kept (kept_State_setCore ..)
  · exact ho _ _ rfl
  · exact steady_regWrite ..
theorem steady_vinFails (s : State) (b : Block) (code mv : Nat) : Steady s (vinFails s b code mv) := by
  unfold vinFails
  split
  · rename_i v
    have v : s.rst.vaux = false := by simpa using v
    refine steady_to rfl rfl (fun h => ?_)
    obtain ⟨h1, h2, h3, h4, h5, h6, h7, h8⟩ := h
    simp_all [RstSt.Coherent]
  · rename_i v
    have v : s.rst.vaux = true := by simpa using v
    refine steady_trans (steady_railsFall v) ?_
    generalize hf : railsFall s = t
    have hp : t.rst.pwrGood = false ∧ t.rst.device = none := by rw [← hf]; exact ⟨rfl, rfl⟩
    clear hf
    refine steady_then (t := { t with rst := { t.rst with vin := false, vinLost := true } }) (steady_to rfl rfl (fun h => ?_)) (kept_facRecord ..)
    obtain ⟨h1, h2, h3, h4, h5, h6, h7, h8⟩ := h
    obtain ⟨p1, p2⟩ := hp
    simp_all [RstSt.Coherent]

end Sys2Proof.Machine
end

