-- ==== Sys2Proof/Laws/SteadyFactor.lean ====
section
/-! SUPPORT. Coherence under the Factor's commands (R476, R487, R491, R492, R499). -/

namespace Sys2Proof.Machine

set_option linter.unusedSimpArgs false
set_option linter.unnecessarySeqFocus false
set_option linter.unreachableTactic false
set_option linter.unusedTactic false

theorem coherent_vaux {s : State} (h : s.rst.Coherent) (p : s.rst.pwrGood = true) : s.rst.vaux = true := by
  obtain ⟨h1, h2, h3, h4, h5, h6, h7, h8⟩ := h
  cases hv : s.rst.vaux
  · have := h1.2 hv
    have := h2.1 p
    simp_all
  · rfl
theorem steady_thermalFall {s : State} (u : s.rst.pwrGood = true) :
    Steady s (railsFall { s with rst := { s.rst with thermalDown := true, thermtripN := false } }) :=
  steady_to rfl rfl (fun h => by
    have v := coherent_vaux h u
    obtain ⟨h1, h2, h3, h4, h5, h6, h7, h8⟩ := h
    simp_all [RstSt.Coherent, railsFall, freshDevice])
theorem steady_hotFall {s t : State} (h : t.kept = s.kept) (u : t.rst.pwrGood = true) (code addr info : Nat) (b : Block) (cls : Nat) :
    Steady s (facRecord (railsFall { t with rst := { t.rst with thermalDown := true, thermtripN := false } }) b cls code addr info) :=
  steady_after h (steady_then (steady_thermalFall u) (kept_facRecord ..))
theorem kept_facMap (s : State) (w h : Bool) : State.kept { s with fac := { s.fac with warned := w, hot := h } } = s.kept := rfl
theorem kept_facHot (s : State) (h : Bool) : State.kept { s with fac := { s.fac with hot := h } } = s.kept := rfl
theorem kept_facWarned (s : State) (h : Bool) : State.kept { s with fac := { s.fac with warned := h } } = s.kept := rfl
theorem railsUp_kept {s t : State} (h : t.kept = s.kept) : railsUp t = railsUp s := by
  unfold railsUp; rw [(kept_parts h).2.2.2.2]
theorem steady_judgeThermal (s : State) : Steady s (judgeThermal s) := by
  unfold judgeThermal
  extract_lets l
  split
  · exact steady_refl _
  · extract_lets s1 warn f1 s2 hot f2 s3 r0 t
    have h1 : s1.kept = s.kept := kept_State_mapIo _ _
    have h2 : s2.kept = s1.kept := by
      unfold s2
      split
      · exact (kept_facNote ..).trans (kept_facWarned ..)
      · split
        · exact kept_facWarned ..
        · rfl
    have h3 : s3.kept = s2.kept := kept_facHot ..
    have h4 : s3.kept = s.kept := h3.trans (h2.trans h1)
    split
    · rename_i hu
      have hu : railsUp s2 = true := hu.2.2
      have hu : railsUp s3 = true := (railsUp_kept h3).trans hu
      unfold t r0
      exact steady_hotFall h4 hu ..
    · exact steady_of_kept h4
/-- A command answers a next state and is steady. -/
def OutSteady (s : State) (o : Host.Outcome State Fault Refusal) : Prop := ∃ t, o = .next t ∧ Steady s t
theorem outSteady_next {s t : State} (h : Steady s t) : OutSteady s (.next t) := ⟨t, rfl, h⟩
theorem outSteady_ite {c : Prop} [Decidable c] {s : State} {a b} (ha : OutSteady s a) (hb : OutSteady s b) : OutSteady s (if c then a else b) := by
  split
  · exact ha
  · exact hb
theorem outSteady_kept {s : State} {o} (h : OutKeeps s o) : OutSteady s o := by
  obtain ⟨t, e, k⟩ := h
  exact ⟨t, e, steady_of_kept k⟩
theorem steady_execSensorSample (therm volt : List Int) (s : State) : OutSteady s (execSensorSample therm volt s) := by
  unfold execSensorSample
  refine outSteady_ite (outSteady_next (steady_refl _)) ?_
  exact outSteady_next (steady_after (kept_foldl _ (fun _ _ => kept_sampleOne ..) _ _) (steady_judgeThermal _))
theorem steady_facServe {s : State} {src : Option (Nat × List Byte)} {op : Nat} {f : State → Option Nat → List Byte → State}
    (h : ∀ w p, Steady s (f s w p)) : Steady s (facServe s src op f) := by
  unfold facServe
  split
  · exact steady_refl _
  · split
    · exact steady_refl _
    · split
      · exact steady_ite (steady_of_kept (kept_facAnswer ..)) (steady_refl _)
      · exact steady_ite (steady_refl _) (h _ _)
theorem fuses_state_floor (f : Fuses) (n : Nat) : Fuses.state { f with floor := n } = f.state := rfl
theorem steady_execFwRaiseFloor (src : Option (Nat × List Byte)) (burns : Nat) (s : State) : OutSteady s (execFwRaiseFloor src burns s) := by
  unfold execFwRaiseFloor
  refine outSteady_next (steady_facServe (fun w p => ?_))
  extract_lets v f floor new g0 s2
  split
  · exact steady_of_kept (kept_facAnswer ..)
  · rename_i hv
    have h2 : Steady s s2 := by
      refine ⟨rfl, fun hc => ⟨⟨hc.1, hc.2⟩, ⟨?_, Nat.le_refl _, Nat.le_refl _, id, id, fun _ h => h, rfl, rfl⟩⟩⟩
      show s.fac.fuses.floor ≤ min v (s.fac.fuses.floor + burns)
      have : ¬ (v ≤ s.fac.fuses.floor) := fun h => hv (.inl h)
      omega
    exact steady_ite (steady_then h2 (kept_facAnswer ..)) (steady_then h2 (kept_facAnswer ..))
theorem lcBurn_ok {f : FactorSt} {b : Nat} {k : List Byte} (hc : f.Coherent) (w : f.wipePending = false) (a : lcArc f.lc b = true)
    (e : ¬ (f.lc = 2 ∧ b = 3 ∧ 32 ≤ f.fuses.opens)) :
    FactorSt.Coherent { f with fuses := lcBurn f.fuses f.lc b k, wipePending := true } ∧ f.fuses.Grows (lcBurn f.fuses f.lc b k) := by
  obtain ⟨h1, h2, h3, h4, h5, h6⟩ := hc
  have h1 := h1 w
  unfold lcBurn
  by_cases h : b = 4
  · rw [if_pos h]
    exact ⟨⟨nofun, h2, h3, h4, h5, h6⟩, Nat.le_refl _, Nat.le_refl _, Nat.le_refl _, id, fun _ => rfl, fun _ h => h, rfl, rfl⟩
  · rw [if_neg h]
    have st : f.fuses.state = f.lc := h1.symm
    unfold Fuses.state at st
    have hl : (f.lc = 0 ∧ b = 1) ∨ (f.lc = 1 ∧ b = 2) ∨ (f.lc = 2 ∧ b = 3) ∨ (f.lc = 3 ∧ b = 2) := by
      simp only [lcArc, Bool.or_eq_true, Bool.and_eq_true, beq_iff_eq, Prod.mk.injEq] at a
      omega
    rcases hl with ⟨l, rfl⟩ | ⟨l, rfl⟩ | ⟨l, rfl⟩ | ⟨l, rfl⟩ <;> simp only [l] at st e ⊢
    · have ho : f.fuses.owner = none := by
        cases ho : f.fuses.owner
        · rfl
        · simp only [ho, Option.isSome_some, if_true] at st
          repeat' split at st
          all_goals omega
      have hm : f.fuses.commit = false := by
        cases hm : f.fuses.commit
        · rfl
        · simp only [hm, if_true] at st
          repeat' split at st
          all_goals omega
      exact ⟨⟨nofun, h2, h3, h4, h5, fun _ => rfl⟩, Nat.le_refl _, Nat.le_refl _, Nat.le_refl _, id, id, fun k h => (by rw [ho] at h; cases h), rfl, rfl⟩
    · have ho : f.fuses.owner.isSome = true := by
        cases ho : f.fuses.owner.isSome
        · simp only [ho, Bool.false_eq_true, if_false] at st
          repeat' split at st
          all_goals omega
        · rfl
      exact ⟨⟨nofun, h2, h3, h4, fun _ => rfl, fun _ => ho⟩, Nat.le_refl _, Nat.le_refl _, Nat.le_refl _, fun _ => rfl, id, fun k h => h, rfl, rfl⟩
    · have hm : f.fuses.commit = true ∧ f.fuses.opens ≤ f.fuses.closes := by
        repeat' split at st
        all_goals first | omega | exact ⟨by assumption, by omega⟩
      have e : f.fuses.opens < 32 := by simpa using e
      obtain ⟨hm, hn⟩ := hm
      refine ⟨⟨nofun, ?_, ?_, ?_, fun _ => hm, h6⟩, Nat.le_refl _, Nat.le_succ _, Nat.le_refl _, id, id, fun k h => h, rfl, rfl⟩ <;> dsimp only <;> omega
    · have hm : f.fuses.closes < f.fuses.opens := by
        repeat' split at st
        all_goals omega
      refine ⟨⟨nofun, ?_, ?_, h4, h5, h6⟩, Nat.le_refl _, Nat.le_refl _, Nat.le_succ _, id, id, fun k h => h, rfl, rfl⟩ <;> simp only <;> omega
theorem lcCheck_ok {s : State} {p : List Byte} (h : lcCheck s p = none) :
    lcArc s.fac.lc (fieldAt p 0 1) = true ∧ s.fac.wipePending = false ∧ ¬ (s.fac.lc = 2 ∧ fieldAt p 0 1 = 3 ∧ 32 ≤ s.fac.fuses.opens) := by
  unfold lcCheck at h
  dsimp only at h
  split at h
  · cases h
  · rename_i a
    split at h
    · cases h
    · rename_i w
      split at h
      · cases h
      · split at h
        · cases h
        · rename_i e
          refine ⟨by simpa using a, ?_, e⟩
          cases hw : s.fac.wipePending
          · rfl
          · exact absurd (.inr (.inr (.inl hw))) w
theorem kept_setFac {s : State} {f : FactorSt} (h : f.burnt = s.fac.burnt) : State.kept { s with fac := f } = s.kept := by
  show (s.pending, f.burnt, s.rst) = _
  rw [h]; rfl
theorem used_burnt (f : FactorSt) (n : Option (List Byte)) : FactorSt.burnt { f with nonce := n } = f.burnt := rfl
theorem steady_burn {s : State} {p k : List Byte} {f : FactorSt} (h : lcCheck s p = none)
    (e : f.burnt = (lcBurn s.fac.fuses s.fac.lc (fieldAt p 0 1) k, s.fac.lc, true)) : Steady s { s with fac := f } := by
  obtain ⟨a, w, x⟩ := lcCheck_ok h
  simp only [FactorSt.burnt, Prod.mk.injEq] at e
  obtain ⟨e1, e2, e3⟩ := e
  refine ⟨rfl, fun hc => ?_⟩
  obtain ⟨c, g⟩ := lcBurn_ok (k := k) hc.2 w a x
  refine ⟨⟨hc.1, ?_⟩, ?_⟩
  · simpa only [FactorSt.Coherent, e1, e2, e3] using c
  · simpa only [e1] using g
theorem steady_execLcTransition (src : Option (Nat × List Byte)) (burned : Bool) (s : State) : OutSteady s (execLcTransition src burned s) := by
  unfold execLcTransition
  refine outSteady_next (steady_facServe (fun w p => ?_))
  extract_lets f b used
  split
  · refine steady_of_kept ((kept_facAnswer ..).trans (kept_setFac ?_))
    rw [burnt_ite]
    split
    · exact used_burnt ..
    · rfl
  · rename_i hc
    refine steady_ite (steady_of_kept ((kept_facAnswer ..).trans (kept_setFac (used_burnt ..)))) ?_
    exact steady_trans (steady_burn hc rfl) (steady_after (kept_facRecord ..) (steady_startDevice ..))
theorem steady_execTapInstruction (code : Nat) (op : TapOp) (s : State) : OutSteady s (execTapInstruction code op s) := by
  unfold execTapInstruction
  refine outSteady_ite (outSteady_next (steady_refl _)) (outSteady_ite (outSteady_ite (outSteady_next (steady_refl _)) ?_) ?_)
  · refine outSteady_next (steady_after ?_ (steady_tapRun ..))
    split
    · rfl
    · exact (kept_facRecord ..).trans rfl
  · exact outSteady_next (steady_after (t := { s with fac := { s.fac with tap := false } }) rfl (steady_tapRun ..))

end Sys2Proof.Machine
end

