-- ==== Sys2Proof/Laws/SteadyReset.lean ====
section
/-! SUPPORT. Coherence under the commands of resets and power (R503, R507 to R517, R533, R534). -/

namespace Sys2Proof.Machine

set_option linter.unusedSimpArgs false
set_option linter.unnecessarySeqFocus false
set_option linter.unreachableTactic false
set_option linter.unusedTactic false

theorem steady_execVauxRise (s : State) : OutSteady s (execVauxRise s) := by
  unfold execVauxRise
  split
  · exact outSteady_next (steady_refl _)
  · rename_i v
    extract_lets r0 r
    have hr : Steady s { s with rst := r } := steady_to rfl rfl (fun h => by
      obtain ⟨h1, h2, h3, h4, h5, h6, h7, h8⟩ := h
      cases hd : s.rst.device <;> cases ho : s.rst.refOk <;> cases hp : s.rst.pwrGood <;> simp_all [RstSt.Coherent, r, r0])
    exact outSteady_next (steady_trans hr (steady_startDevice ..))
theorem steady_execVauxLoss (s : State) : OutSteady s (execVauxLoss s) := by
  unfold execVauxLoss
  extract_lets t r0
  have hk : t.pending = s.pending ∧ t.fac.burnt = s.fac.burnt ∧ t.rst = (railsFall s).rst := by
    have := kept_freshDevice (railsFall s) true
    simp only [State.kept, Prod.mk.injEq] at this
    obtain ⟨a, b, c⟩ := this
    exact ⟨a, b, c⟩
  clear_value t
  obtain ⟨k1, k2, k3⟩ := hk
  refine outSteady_next (steady_to k1 k2 (fun h => ?_))
  obtain ⟨h1, h2, h3, h4, h5, h6, h7, h8⟩ := h
  simp_all [RstSt.Coherent, railsFall, freshDevice, r0]
theorem steady_execVinReturn (s : State) : OutSteady s (execVinReturn s) := by
  unfold execVinReturn
  split
  · exact outSteady_next (steady_refl _)
  · extract_lets r0 t
    have ht : Steady s t := steady_to rfl rfl (fun h => by
      obtain ⟨h1, h2, h3, h4, h5, h6, h7, h8⟩ := h
      refine ⟨h1, h2, fun p => ?_, h4, h5, h6, h7, fun d hd => ?_⟩
      · obtain ⟨a, b, c, e⟩ := h3 p; exact ⟨rfl, b, c, rfl, e.2⟩
      · obtain ⟨a, b, c, e⟩ := h8 d hd; exact ⟨a, b, c, rfl, e.2⟩)
    exact outSteady_ite (outSteady_next (steady_trans ht (steady_startDevice ..))) (outSteady_next ht)
theorem steady_execVinRise (s : State) : OutSteady s (execVinRise s) := by
  unfold execVinRise
  refine outSteady_ite (outSteady_next (steady_refl _)) (outSteady_next (steady_to rfl rfl (fun h => ?_)))
  obtain ⟨h1, h2, h3, h4, h5, h6, h7, h8⟩ := h
  exact ⟨h1, h2, fun p => ⟨rfl, (h3 p).2⟩, h4, h5, h6, h7, h8⟩
theorem steady_execRefclkLoss (s : State) : OutSteady s (execRefclkLoss s) := by
  unfold execRefclkLoss
  split
  · rename_i v
    refine outSteady_next (steady_to rfl rfl (fun h => ?_))
    obtain ⟨h1, h2, h3, h4, h5, h6, h7, h8⟩ := h
    simp_all [RstSt.Coherent]
  · rename_i v
    have v : s.rst.vaux = true := by simpa using v
    split
    · exact outSteady_next (steady_refl _)
    · extract_lets up r0 t r1 w u
      split
      · rename_i hu
        have hu : s.rst.pwrGood = false := by simpa [up, railsUp] using hu
        refine outSteady_next (steady_to rfl rfl (fun h => ?_))
        obtain ⟨h1, h2, h3, h4, h5, h6, h7, h8⟩ := h
        refine ⟨h1, h2, fun p => ?_, ?_, h5, h6, h7, h8⟩
        · have p : s.rst.pwrGood = true := p
          rw [hu] at p; cases p
        · exact ⟨fun _ => ⟨v, rfl⟩, fun _ => rfl⟩
      · have hw : Steady s w := steady_to rfl rfl (fun h => by
          obtain ⟨h1, h2, h3, h4, h5, h6, h7, h8⟩ := h
          simp_all [RstSt.Coherent, w, r0, r1, t, railsFall, freshDevice])
        clear_value w
        exact outSteady_next (steady_then (steady_then hw (kept_facNote ..)) (kept_State_mapIo _ _))
theorem steady_execRefclkReturn (s : State) : OutSteady s (execRefclkReturn s) := by
  unfold execRefclkReturn
  extract_lets r0 t
  have ht : Steady s t := steady_to rfl rfl (fun h => by
    obtain ⟨h1, h2, h3, h4, h5, h6, h7, h8⟩ := h
    refine ⟨h1, h2, fun p => ?_, by simp [t], h5, h6, h7, fun d hd => ?_⟩
    · obtain ⟨a, b, c, e, f, g⟩ := h3 p; exact ⟨a, rfl, c, e, rfl, g⟩
    · obtain ⟨a, b, c, e, f, g⟩ := h8 d hd; exact ⟨a, b, c, e, rfl, g⟩)
  exact outSteady_ite (outSteady_next (steady_trans ht (steady_startDevice ..))) (outSteady_next ht)
theorem steady_pin (s : State) (a b : Bool) : Steady s { s with rst := { s.rst with coldRstN := a, perstN := b } } := steady_to rfl rfl id
theorem steady_execColdRstN (low : Bool) (s : State) : OutSteady s (execColdRstN low s) := by
  unfold execColdRstN
  exact outSteady_ite (outSteady_next (steady_trans (steady_pin s ..) (steady_startDevice ..))) (outSteady_next (steady_pin s ..))
theorem steady_execPerstN (low : Bool) (s : State) : OutSteady s (execPerstN low s) := by
  unfold execPerstN
  exact outSteady_ite (outSteady_next (steady_trans (steady_pin s ..) (steady_startDevice ..))) (outSteady_next (steady_pin s ..))
theorem steady_execD3hotEntry (s : State) : OutSteady s (execD3hotEntry s) := by
  unfold execD3hotEntry
  split
  · rename_i hp
    refine outSteady_next (steady_to rfl rfl (fun h => ?_))
    obtain ⟨h1, h2, h3, h4, h5, h6, h7, h8⟩ := h
    simp_all [RstSt.Coherent]
  · rename_i hp
    refine outSteady_ite (outSteady_next (steady_refl _)) (outSteady_next (steady_to rfl rfl (fun h => ?_)))
    obtain ⟨h1, h2, h3, h4, h5, h6, h7, h8⟩ := h
    simp_all [RstSt.Coherent]
  · exact outSteady_next (steady_refl _)
theorem steady_execD0Return (s : State) : OutSteady s (execD0Return s) := by
  unfold execD0Return
  split
  · rename_i hp
    extract_lets r t
    have ht : Steady s t := steady_to rfl rfl (fun h => by
      obtain ⟨h1, h2, h3, h4, h5, h6, h7, h8⟩ := h
      rcases hp with hp | hp <;> simp_all [RstSt.Coherent, t, r])
    exact outSteady_next (steady_then ht (kept_foldl _ (fun _ _ => kept_creditsFor ..) _ _))
  · exact outSteady_next (steady_refl _)
theorem steady_execCxlTrainTimeout (port : Nat) (s : State) : OutSteady s (execCxlTrainTimeout port s) := by
  unfold execCxlTrainTimeout
  exact outSteady_ite (outSteady_next (steady_refl _)) (outSteady_next (steady_to rfl rfl id))
theorem steady_execResetPhaseComplete (micros : Nat) (trained : List Block) (cxl : List (Nat × Nat × Nat × Nat)) (fails wipes : List Nat) (s : State) :
    OutSteady s (execResetPhaseComplete micros trained cxl fails wipes s) := by
  unfold execResetPhaseComplete
  extract_lets last t
  have ht : Steady s t := steady_phaseEnds ..
  clear_value t
  refine outSteady_ite (outSteady_next ht) (outSteady_next (steady_trans ht (steady_foldl _ (fun u n => ?_) _ _)))
  exact steady_after (kept_State_mapIo _ _) (steady_contain ..)
theorem steady_execUnitResetComplete (scope : Scope) (fail : Option Nat) (s : State) : OutSteady s (execUnitResetComplete scope fail s) :=
  outSteady_next (steady_unitEnds ..)
theorem steady_execHwError (b : Block) (code loc : Nat) (s : State) : OutSteady s (execHwError b code loc s) := by
  unfold execHwError
  exact outSteady_ite (outSteady_next (steady_refl _)) (outSteady_next (steady_after (kept_State_mapIo _ _) (steady_contain ..)))
theorem steady_execOnlineWrite (who : Requester) (value : W32) (s : State) : OutSteady s (execOnlineWrite who value s) := by
  unfold execOnlineWrite
  split
  · exact outSteady_next (steady_of_kept rfl)
  · exact outSteady_next (steady_onlineCommand ..)
theorem steady_execBootWatchdog (s : State) : OutSteady s (execBootWatchdog s) := by
  unfold execBootWatchdog
  split
  · exact outSteady_next (steady_refl _)
  · rename_i hp
    extract_lets f t
    have ht : Steady s t := steady_of_kept rfl
    refine outSteady_next ?_
    refine ⟨(beginDevice_pending ..).trans rfl, fun hc => ?_⟩
    have hv : t.rst.vaux = true := by
      obtain ⟨h1, h2, h3, h4, h5, h6, h7, h8⟩ := hc.1
      cases hd : s.rst.device with
      | none => rw [h7.2 hd] at hp; exact absurd rfl (fun h : (7 : Nat) = 7 => hp (by simp))
      | some d => exact (h8 d hd).2.1
    exact (steady_trans ht (steady_beginDevice (cold := true) (cause := 4) (byCmd := false) hv (.inl rfl))).2 hc
theorem steady_execRegisterWrite (who : Requester) (off size : Nat) (value : W64) (s : State) : OutSteady s (execRegisterWrite who off size value s) :=
  outSteady_next (steady_regWrite ..)
theorem steady_execPairLoWrite (who : Requester) (off : Nat) (value : W32) (s : State) : OutSteady s (execPairLoWrite who off value s) :=
  outSteady_next (steady_regWrite ..)
theorem steady_execPairHiWrite (who : Requester) (off : Nat) (value : W32) (s : State) : OutSteady s (execPairHiWrite who off value s) :=
  outSteady_next (steady_regWrite ..)
theorem steady_execDrvVerWrite (who : Requester) (value : W32) (s : State) : OutSteady s (execDrvVerWrite who value s) :=
  outSteady_next (steady_regWrite ..)
theorem steady_execEnableWrite (who : Requester) (b : Block) (on : Bool) (s : State) : OutSteady s (execEnableWrite who b on s) := by
  unfold execEnableWrite
  exact outSteady_ite (outSteady_next (steady_refl _)) (outSteady_next (steady_regWrite ..))
theorem steady_execEvtMaskWrite (who : Requester) (b : Block) (value : W32) (s : State) : OutSteady s (execEvtMaskWrite who b value s) := by
  unfold execEvtMaskWrite
  exact outSteady_ite (outSteady_next (steady_refl _)) (outSteady_next (steady_regWrite ..))
theorem steady_execEvtForce (who : Requester) (b : Block) (value : W32) (s : State) : OutSteady s (execEvtForce who b value s) := by
  unfold execEvtForce
  exact outSteady_ite (outSteady_next (steady_refl _)) (outSteady_next (steady_regWrite ..))
theorem steady_execCtrClear (who : Requester) (b : Block) (s : State) : OutSteady s (execCtrClear who b s) := by
  unfold execCtrClear
  exact outSteady_ite (outSteady_next (steady_refl _)) (outSteady_next (steady_regWrite ..))
theorem steady_execErrCaptClear (who : Requester) (b : Block) (err : Option (Nat × Nat)) (s : State) : OutSteady s (execErrCaptClear who b err s) := by
  unfold execErrCaptClear
  refine outSteady_ite (outSteady_next (steady_refl _)) ?_
  extract_lets t
  have ht : Steady s t := steady_regWrite ..
  clear_value t
  split
  · exact outSteady_next (steady_then ht (kept_State_mapIo _ _))
  · exact outSteady_next ht
theorem steady_execBlkCtrlReset (who : Requester) (b : Block) (value : W32) (s : State) : OutSteady s (execBlkCtrlReset who b value s) :=
  outSteady_next (steady_blockReset ..)
theorem steady_execFunctionLevelReset (s : State) : OutSteady s (execFunctionLevelReset s) := outSteady_next (steady_startDevice ..)
theorem steady_execPcieHotReset (s : State) : OutSteady s (execPcieHotReset s) := outSteady_next (steady_startDevice ..)
theorem steady_execDeviceWarm (who : Requester) (s : State) : OutSteady s (execDeviceWarm who s) := outSteady_next (steady_rstWrite ..)
theorem steady_execDeviceCold (who : Requester) (s : State) : OutSteady s (execDeviceCold who s) := outSteady_next (steady_rstWrite ..)
theorem steady_execDieReset (who : Requester) (target : Nat) (s : State) : OutSteady s (execDieReset who target s) := outSteady_next (steady_rstWrite ..)
theorem steady_execClusterReset (who : Requester) (target : Nat) (s : State) : OutSteady s (execClusterReset who target s) :=
  outSteady_next (steady_rstWrite ..)
theorem steady_execCoreReset (who : Requester) (target : Nat) (s : State) : OutSteady s (execCoreReset who target s) :=
  outSteady_next (steady_rstWrite ..)
theorem steady_execVinLoss (mv : Nat) (s : State) : OutSteady s (execVinLoss mv s) := outSteady_next (steady_vinFails ..)
theorem steady_execVinOv (mv : Nat) (s : State) : OutSteady s (execVinOv mv s) := outSteady_next (steady_vinFails ..)

end Sys2Proof.Machine
end

