-- ==== Sys2Proof/WellFormed.lean ====
section
/-! DEFINITION. Well-formed commands: the parts that a command names exist, and its fields fit their widths.  The meanings are
total: a command that is not well-formed changes nothing or acts on the parts that do exist. -/

namespace Sys2Proof

open Sys2Proof.Machine (Block Cmd Token Pkt Scope instances)

/-- A block of Table 2.2. -/
def wfBlock (b : Block) : Bool := decide (b.inst < instances b.kind)

/-- A submission entry's fields (R360): a service context's or the control ring, and 48 parameter bytes. -/
def wfCmd (c : Cmd) : Bool := decide (c.ring ≤ 65536 ∧ c.tag < 2 ^ 64 ∧ c.op < 256 ∧ c.ctx < 65536 ∧ c.param.length = 48)

/-- An operand token's fields (R337). -/
def wfToken (t : Token) : Bool := decide (t.die < 2 ∧ t.key < 2 ^ 64 ∧ t.val < 2 ^ 64 ∧ t.ctx < 65536)

/-- A fabric packet's fields (R451). -/
def wfPkt (p : Pkt) : Bool := decide (p.dst < 65536 ∧ p.src < 65536 ∧ p.type < 256 ∧ p.vc < 16 ∧ p.flow < 2 ^ 32 ∧ p.eseq < 2 ^ 32 ∧ p.poison < 2 ^ 64 ∧ p.arg < 2 ^ 64 ∧ p.payload.length ≤ 4096)

/-- A reset scope (R507) whose parts exist. -/
def wfScope : Scope → Bool
  | .block b => wfBlock b
  | .core n => decide (n < 96)
  | .cluster c => decide (c < 12)
  | .die d => decide (d < 2)
  | .warm | .cold => true

/-- A well-formed command. -/
def Instr.wf : Instr → Bool
  | .registerWrite _ off _ _ => decide (off < 0x4000000)
  | .rcFieldRead _ off _ => decide (off < 0x4000000)
  | .pairLoRead _ off => decide (off < 0x4000000)
  | .pairHiRead _ off => decide (off < 0x4000000)
  | .pairLoWrite _ off _ => decide (off < 0x4000000)
  | .pairHiWrite _ off _ => decide (off < 0x4000000)
  | .blkCtrlReset _ b _ => wfBlock b
  | .enableWrite _ b _ => wfBlock b
  | .evtMaskWrite _ b _ => wfBlock b
  | .evtForce _ b _ => wfBlock b
  | .errCaptClear _ b _ => wfBlock b
  | .ctrClear _ b => wfBlock b
  | .apertureAccess _ _ _ _ => true
  | .ringAreaAccess off _ _ => decide (off < 0x4000000)
  | .drvVerWrite _ _ => true
  | .negotiation => true
  | .regionReg c => wfCmd c
  | .regionUnreg c => wfCmd c
  | .descCreate c => wfCmd c
  | .descDestroy c => wfCmd c
  | .streamOpen core => decide (core < instances .fcore)
  | .streamAdvance core => decide (core < instances .fcore)
  | .streamClose core => decide (core < instances .fcore)
  | .streamRead core => decide (core < instances .fcore)
  | .lineRequestGrant arb => wfBlock arb
  | .lineReturn r => decide (r.core < instances .fcore ∧ r.st < 16)
  | .streamHalt core st => decide (core < instances .fcore) && decide (st < 16)
  | .writeAck core st => decide (core < instances .fcore) && decide (st < 16)
  | .ringStep die _ => decide (die < 2)
  | .cancelFenceDone core => decide (core < instances .fcore)
  | .pedlarSend core => decide (core < instances .fcore)
  | .pedlarIssue core => decide (core < instances .fcore)
  | .pedlarComplete core _ => decide (core < instances .fcore)
  | .scalarAlu core => decide (core < instances .fcore)
  | .scalarImmediate core => decide (core < instances .fcore)
  | .jal core => decide (core < instances .fcore)
  | .jr core => decide (core < instances .fcore)
  | .conditionalBranch core => decide (core < instances .fcore)
  | .scalarLoad core => decide (core < instances .fcore)
  | .scalarStore core => decide (core < instances .fcore)
  | .csrRd core => decide (core < instances .fcore)
  | .csrWr core => decide (core < instances .fcore)
  | .csrSet core => decide (core < instances .fcore)
  | .csrClr core => decide (core < instances .fcore)
  | .vectorArithmetic core => decide (core < instances .fcore)
  | .cvt core => decide (core < instances .fcore)
  | .redsum core => decide (core < instances .fcore)
  | .vectorCompare core => decide (core < instances .fcore)
  | .vld core => decide (core < instances .fcore)
  | .vlds core => decide (core < instances .fcore)
  | .vldg core => decide (core < instances .fcore)
  | .vst core => decide (core < instances .fcore)
  | .vsts core => decide (core < instances .fcore)
  | .vstg core => decide (core < instances .fcore)
  | .vtHash core => decide (core < instances .fcore)
  | .vtBucket core => decide (core < instances .fcore)
  | .vtLookup core => decide (core < instances .fcore)
  | .vtAssay core => decide (core < instances .fcore)
  | .vtAssayLm core => decide (core < instances .fcore)
  | .assayLookup unit ups => decide (unit < instances .assayer) && ups.all (fun u => decide (u.unit < instances .assayer ∧ u.row < 32768))
  | .assayLmSearch unit ups => decide (unit < instances .assayer) && ups.all (fun u => decide (u.unit < instances .assayer ∧ u.row < 32768))
  | .selTopk core => decide (core < instances .fcore)
  | .selMerge core => decide (core < instances .fcore)
  | .mxMma core => decide (core < instances .fcore)
  | .mmaExecute core => decide (core < instances .fcore)
  | .mxZero core => decide (core < instances .fcore)
  | .mxLoadacc core => decide (core < instances .fcore)
  | .mxStoreacc core => decide (core < instances .fcore)
  | .taskWait core => decide (core < instances .fcore)
  | .taskWaitTimeout core => decide (core < instances .fcore)
  | .taskEmit core => decide (core < instances .fcore)
  | .taskDone core => decide (core < instances .fcore)
  | .nop core => decide (core < instances .fcore)
  | .fenceTable core => decide (core < instances .fcore)
  | .fenceWrite core => decide (core < instances .fcore)
  | .fenceAll core => decide (core < instances .fcore)
  | .evtRaise core => decide (core < instances .fcore)
  | .evtCount core => decide (core < instances .fcore)
  | .taskOverrun core => decide (core < instances .fcore)
  | .opScan core => decide (core < instances .fcore)
  | .opFilter core => decide (core < instances .fcore)
  | .opProject core => decide (core < instances .fcore)
  | .opHash core => decide (core < instances .fcore)
  | .joinBuild core => decide (core < instances .fcore)
  | .joinProbe core => decide (core < instances .fcore)
  | .dictLookup core => decide (core < instances .fcore)
  | .bucketize core => decide (core < instances .fcore)
  | .normalize core => decide (core < instances .fcore)
  | .opStats core => decide (core < instances .fcore)
  | .groupAgg core => decide (core < instances .fcore)
  | .opDedup core => decide (core < instances .fcore)
  | .tokenize core => decide (core < instances .fcore)
  | .foldLockPoll core => decide (core < instances .fcore)
  | .assayLoad c => wfCmd c
  | .scrubRow unit ups => decide (unit < instances .assayer) && ups.all (fun u => decide (u.unit < instances .assayer ∧ u.row < 32768))
  | .fpSeedWrite _ unit _ _ => decide (unit < instances .assayer)
  | .egpRun c => wfCmd c
  | .gather unit => decide (unit < instances .egp)
  | .poolSum unit => decide (unit < instances .egp)
  | .poolMean unit => decide (unit < instances .egp)
  | .weightedSum unit => decide (unit < instances .egp)
  | .egpUpdate unit => decide (unit < instances .egp)
  | .heatEpoch => true
  | .stepFence c => wfCmd c
  | .fenceApply table => decide (table < 1024)
  | .fenceRefresh table => decide (table < 1024)
  | .fenceOpen table => decide (table < 1024)
  | .winnowRun c => wfCmd c
  | .topk unit => decide (unit < instances .winnower)
  | .listmerge unit => decide (unit < instances .winnower)
  | .mergePartial die _ => decide (die < 2)
  | .expertBatchExpiry die _ => decide (die < 2)
  | .roundWaitExpiry die _ => decide (die < 2)
  | .weave c => wfCmd c
  | .weaveCopyStart unit => decide (unit < instances .weaver)
  | .weaveCopyDone unit _ => decide (unit < instances .weaver)
  | .tokenAccept t => wfToken t
  | .heldTokenAccepted die => decide (die < 2)
  | .operandTimeout die _ _ _ => decide (die < 2)
  | .dispatch die => decide (die < 2)
  | .flowRelease die _ => decide (die < 2)
  | .fusedRun c => wfCmd c
  | .tokenPut c => wfCmd c
  | .cancelCmd c => wfCmd c
  | .cmdNop c => wfCmd c
  | .fencedCommandStart ring _ => decide (ring ≤ 65536)
  | .submissionEntryRead ring _ => decide (ring ≤ 65536)
  | .tickCfgWrite _ die _ => decide (die < 2)
  | .svcAdmit c _ _ => wfCmd c
  | .svcQuery c _ _ => wfCmd c
  | .svcRemove c => wfCmd c
  | .ctxCreate c => wfCmd c
  | .ctxDestroy c => wfCmd c
  | .ctxWake c => wfCmd c
  | .ctxWinSlot => true
  | .deadlineMiss die _ => decide (die < 2)
  | .admCeilWrite _ _ => true
  | .powerLimitWrite _ _ => true
  | .memoryRead b _ _ _ => wfBlock b
  | .memoryWrite _ _ _ => true
  | .memScrub b _ => wfBlock b
  | .migrEpoch => true
  | .promote _ => true
  | .demote _ => true
  | .poolWrite _ _ => true
  | .moveMark page => decide (page < 2 ^ 52)
  | .moveCopy page => decide (page < 2 ^ 52)
  | .moveRelease page => decide (page < 2 ^ 52)
  | .atsInvalidation die page => decide (die < 2) && decide (page < 2 ^ 52)
  | .atsInvalidationDone die page => decide (die < 2) && decide (page < 2 ^ 52)
  | .busMasterEnable _ => true
  | .functionLevelReset => true
  | .cplTimeout _ => true
  | .prgResponse page _ => decide (page < 2 ^ 52)
  | .ctrlRingWrite _ off _ => decide (off < 0x4000000)
  | .ringSet c => wfCmd c
  | .sqDb slot _ => decide (slot < 4096)
  | .cqDb slot _ => decide (slot < 4096)
  | .cqArm slot _ => decide (slot < 4096)
  | .modTimeExpiry ring => decide (ring ≤ 65536)
  | .sessBind c => wfCmd c
  | .sessUnbind c => wfCmd c
  | .sendMessage sess _ => decide (sess < 16384)
  | .ecnCeReceived sess => decide (sess < 16384)
  | .cnpReceived sess => decide (sess < 16384)
  | .rateIncrease sess => decide (sess < 16384)
  | .ethLinkChange port _ => decide (port < instances .eth)
  | .ptpMessage sec ns _ _ => decide (sec < 2 ^ 48) && decide (ns < 10 ^ 9)
  | .snap _ => true
  | .cxlLinkDown port => decide (port < instances .cxl)
  | .cxlHotAdd port _ _ _ _ => decide (port < instances .cxl)
  | .d3hotEntry => true
  | .d0Return => true
  | .flitReceive link flit _ _ => decide (link < instances .reelLink) && decide (flit.length = 256)
  | .replayTimeout link => decide (link < instances .reelLink)
  | .linkTraining link _ => decide (link < instances .reelLink)
  | .trainingTimeout link => decide (link < instances .reelLink)
  | .retrainRetry link => decide (link < instances .reelLink)
  | .linkSilent link => decide (link < instances .reelLink)
  | .linkSignalLoss link => decide (link < instances .reelLink)
  | .linkState link uid _ _ _ _ => decide (link < instances .reelLink) && decide (uid < 2 ^ 64)
  | .addrAssign link uid addr => decide (link < instances .reelLink) && decide (uid < 2 ^ 64) && decide (addr < 65536)
  | .addrHoldExpiry uid => decide (uid < 2 ^ 64)
  | .timeExchange link => decide (link < instances .reelLink)
  | .timePacket link _ _ _ _ _ => decide (link < instances .reelLink)
  | .ftSnap _ => true
  | .routeEntWrite _ _ => true
  | .pedlarWr p => wfPkt p
  | .egpUpd p => wfPkt p
  | .egpRes p => wfPkt p
  | .stepMark p => wfPkt p
  | .collCtrl p => wfPkt p
  | .collData p => wfPkt p
  | .collComplete _ _ => true
  | .inboxMsg p => wfPkt p
  | .inboxCredit p => wfPkt p
  | .e2eAck p => wfPkt p
  | .e2eTimeout dst _ => decide (dst < 65536)
  | .unreachableTimeout dst => decide (dst < 65536)
  | .pairForget src _ => decide (src < 65536)
  | .groupSet c => wfCmd c
  | .groupClear c => wfCmd c
  | .collRun c => wfCmd c
  | .collTimeout _ _ => true
  | .inboxBind c => wfCmd c
  | .inboxUnbind c => wfCmd c
  | .sessFwd c => wfCmd c
  | .mbxDoorbell _ _ => true
  | .getInfo _ => true
  | .logRead _ => true
  | .threshSet _ => true
  | .wipePolicy _ => true
  | .calRead _ => true
  | .calWrite _ _ => true
  | .fwActivate _ => true
  | .fwRaiseFloor _ _ => true
  | .lcChallenge _ _ => true
  | .nonceExpiry => true
  | .lcTransition _ _ => true
  | .powerLimitSet _ => true
  | .mctpControl transport msg => decide (transport < 2) && decide (msg.length ≤ 4096)
  | .pldmSensorRead transport msg => decide (transport < 2) && decide (msg.length ≤ 4096)
  | .requestFirmwareData transport _ _ _ => decide (transport < 2)
  | .verifyComplete transport => decide (transport < 2)
  | .activateFirmware transport => decide (transport < 2)
  | .spdmRequest transport msg _ => decide (transport < 2) && decide (msg.length ≤ 4096)
  | .sensorSample _ _ => true
  | .thermalDutyUpdate => true
  | .powerDutyUpdate _ _ _ => true
  | .overcurrent => true
  | .logFlushTimeout => true
  | .logPageWritten => true
  | .bootWatchdog => true
  | .tapInstruction _ _ => true
  | .deviceWarm _ => true
  | .deviceCold _ => true
  | .dieReset _ target => decide (target < 256)
  | .clusterReset _ target => decide (target < 256)
  | .coreReset _ target => decide (target < 256)
  | .resetPhaseComplete _ _ _ _ _ => true
  | .unitResetComplete scope _ => wfScope scope
  | .cxlTrainTimeout port => decide (port < instances .cxl)
  | .vauxRise => true
  | .vauxLoss => true
  | .vinLoss _ => true
  | .vinOv _ => true
  | .vinReturn => true
  | .refclkLoss => true
  | .refclkReturn => true
  | .coldRstN _ => true
  | .perstN _ => true
  | .pcieHotReset => true
  | .eventRecordIntake => true
  | .eventBatchTimeout q => decide (q < 16)
  | .armWrite _ q _ => decide (q < 16)
  | .queueCfgWrite _ q _ => decide (q < 16)
  | .hwError b _ _ => wfBlock b
  | .onlineWrite _ _ => true
  | .vinRise => true
  | .msixVectorUnmask _ _ => true
  | .atsPriEnable _ _ => true
  | .resizableBar _ => true
  | .illegalInstr core => decide (core < instances .fcore)
  | .roceAck sess psn _ => decide (sess < 16384) && decide (psn < 2 ^ 24)
  | .localAckTimeout sess => decide (sess < 16384)
  | .nonRoceFrame port => decide (port < instances .eth)
  | .helloTransmit link => decide (link < instances .reelLink)

/-- A well-formed command, as a claim. -/
abbrev Instr.WellFormed (i : Instr) : Prop := i.wf = true

end Sys2Proof
end

