-- ==== Sys2Proof/Tests/Slice0.lean ====
section
/-! SUPPORT. Tests: worked examples of the spec, the checks of well-formedness, and for each statement with hypotheses a state and
operands that meet them. -/

set_option Elab.async false

namespace Sys2Proof.Tests

open Sys2Proof Sys2Proof.Machine

/-! ### Helpers -/

/-- An instruction word from its fields (Table 6.3). -/
def ins (major sub dst s1 s2 s3 low : Nat) : Ins :=
  ⟨major * 2 ^ 58 + sub * 2 ^ 52 + dst * 2 ^ 47 + s1 * 2 ^ 42 + s2 * 2 ^ 37 + s3 * 2 ^ 32 + low⟩

/-- A core that runs with one word at PC 0 of a range of 64 bytes. -/
def coreWith (i : Ins) : CoreSt :=
  { run := .running, range := (0, 64), imem := (leBytes 8 i.w).zipIdx.map (fun e => (e.2, e.1)) }

/-- The reset state with that core as core 0. -/
def onCore (c : CoreSt) : State := State.reset.setCore 0 c

/-- A task of template 0 in context 0. -/
def aTask : Task := { id := 1, die := 0, tmpl := 0, key := 0, opnds := [], ctx := 0, svc := 0 }

/-! ### Core instructions: worked words, and a state for each statement -/

/-- Chapter 6's example words. -/
theorem test_word_vcmp : ins 0x09 2 2 2 9 0 0x11000000 = ⟨0x2421092011000000⟩ := by decide
theorem test_word_vadd : ins 0x08 0 1 2 3 0 0x11A00000 = ⟨0x2000886011A00000⟩ := by decide

theorem witness_scalar : ∀ e ∈ [((0x01, List.range 18), ins 0x01 17 0 1 2 0 0, [fDst, fS1, fS2]),
    ((0x02, List.range 9), ins 0x02 7 31 0 0 0 0xFFFFFFFF, [fDst, fImm32]), ((0x02, List.range 9), ins 0x02 8 3 3 0 0 5, [fDst, fImm32, fS1]),
    ((0x03, [0]), ins 0x03 0 1 0 0 0 7, [fDst, fImm32]), ((0x03, [1]), ins 0x03 1 1 2 0 0 0, [fDst, fS1]),
    ((0x03, [2, 3, 4, 5, 6, 7]), ins 0x03 2 0 0 0 0 0, [fS1, fS2, fImm32]),
    ((0x04, List.range 7), ins 0x04 6 1 0 0 0 0x3FFFF8, [fDst, fS1, fImm32]), ((0x04, [8, 9, 10, 11]), ins 0x04 11 0 0 1 0 0x3FFFF8, [fS1, fS2, fImm32]),
    ((0x05, [0]), ins 0x05 0 1 0 0 0 0, [fDst, (11, 0)]), ((0x05, [0]), ins 0x05 0 1 0 0 0 0xFFF, [fDst, (11, 0)]),
    ((0x05, [1]), ins 0x05 1 0 1 0 0 0, [fS1, (11, 0)]), ((0x05, [2]), ins 0x05 2 0 1 0 0 1, [fS1, (11, 0)]),
    ((0x05, [3]), ins 0x05 3 0 1 0 0 2, [fS1, (11, 0)]), ((0x05, [3]), ins 0x05 3 0 1 0 0 3, [fS1, (11, 0)])],
    (isOp e.1.1 e.1.2 e.2.1 = true ∧ e.2.1.onlyUses e.2.2 = true) ∧ Issues (onCore (coreWith e.2.1)) 0 e.2.1 := by
  unfold Issues; decide +kernel

theorem witness_branch : ∀ i ∈ [ins 0x03 0 1 0 0 0 7, ins 0x03 2 0 0 0 0 7, ins 0x03 7 0 0 0 0 0],
    0 ≤ relTarget ((onCore (coreWith i)).core 0) i ∧ (coreWith i).inRange (relTarget ((onCore (coreWith i)).core 0) i).toNat = true := by decide +kernel

theorem witness_jr : ({ coreWith (ins 0x03 1 1 2 0 0 0) with x := [(2, 56)] } : CoreSt).inRange 56 = true ∧
    Issues (onCore { coreWith (ins 0x03 1 1 2 0 0 0) with x := [(2, 56)] }) 0 (ins 0x03 1 1 2 0 0 0) := by unfold Issues; decide +kernel

theorem witness_scalar_memory : ∀ i ∈ [ins 0x04 6 1 0 0 0 0x3FFFF8, ins 0x04 11 0 0 1 0 0x3FFFF8], let c := (onCore (coreWith i)).core 0
    memAddr c i + memWidth i.sub ≤ 0x400000 ∧ memAddr c i % memWidth i.sub = 0 ∧ c.anyPoison (memAddr c i) (memWidth i.sub) = false ∧
    inShard (onCore (coreWith i)) 0 (memAddr c i) (memWidth i.sub) = false := by decide +kernel

theorem witness_csr : csr (onCore (coreWith (ins 0x05 0 1 0 0 0 0))) 0 0 = some 0 ∧ csr (onCore (coreWith (ins 0x05 0 1 0 0 0 0xFFF))) 0 0xFFF = none := by
  decide +kernel

/-- One word for each row of Table 6.9, at types FP32, FP64 and U32. -/
def vectorWords : List Ins :=
  [ins 0x08 0 1 2 3 0 0x11A00000, ins 0x08 3 2 4 6 8 0x10000000, ins 0x08 19 1 2 3 0 0x05000000, ins 0x08 23 1 2 0 0 0x05000000,
   ins 0x08 24 1 2 0 0 0x05003F00, ins 0x08 18 1 2 0 0 0x11000500, ins 0x08 20 1 2 0 0 0x11000000, ins 0x08 22 1 2 0 0 0x05000000, ins 0x09 2 2 2 9 0 0x11000000]

theorem witness_vector : ∀ i ∈ vectorWords, Issues (onCore (coreWith i)) 0 i ∧ Num.valid i.type = true ∧ regType i.type = true ∧
    oddPair i.type [i.dst, i.s1] = false := by unfold Issues; decide +kernel

theorem witness_vector_forms :
    (∀ i ∈ vectorWords.take 2, isOp 0x08 (List.range 17) i = true ∧ laneTypes i.sub i.type = true ∧
      i.onlyUses ([fDst, fS1, fType, fPred] ++ (if hasSrc2 i.sub then [fS2, (0, 0)] else []) ++ (if i.sub = 3 then [fS3] else []) ++ roundFields i.sub i.type) = true ∧
      oddPair i.type ([i.dst, i.s1] ++ (if hasSrc2 i.sub = true ∧ (!i.s2x) = true then [i.s2] else []) ++ (if i.sub = 3 then [i.s3] else [])) = false) ∧
    (let i := ins 0x08 19 1 2 3 0 0x05000000
     isOp 0x08 [19] i = true ∧ i.onlyUses [fDst, fS1, fS2, fType, fPred, fRm, fSat, (10, 8), (0, 0)] = true ∧ i.rm = 0 ∧ i.sat = false) ∧
    (let i := ins 0x08 23 1 2 0 0 0x05000000; isOp 0x08 [23] i = true ∧ i.onlyUses [fDst, fS1, fType, fPred] = true) ∧
    (let i := ins 0x08 24 1 2 0 0 0x05003F00; isOp 0x08 [24] i = true ∧ i.onlyUses [fDst, fS1, fType, fPred, (13, 8)] = true) ∧
    (let i := ins 0x08 18 1 2 0 0 0x11000500
     isOp 0x08 [18] i = true ∧ Num.valid (bitsOf i.w 15 8) = true ∧ regType (bitsOf i.w 15 8) = true ∧ i.onlyUses [fDst, fS1, fType, fPred, fSat, (15, 8), fRm] = true) ∧
    (let i := ins 0x08 20 1 2 0 0 0x11000000; isOp 0x08 [20, 21, 22] i = true ∧ i.onlyUses ([fDst, fS1, fType, fPred] ++ roundFields 0 i.type) = true) ∧
    (let i := ins 0x09 2 2 2 9 0 0x11000000; isOp 0x09 (List.range 6) i = true ∧ i.onlyUses [(49, 47), fS1, fS2, fType, fPred, (0, 0)] = true) := by
  decide +kernel

/-- Vector loads and stores of FP32, in each form, with a stride of 4 in X2. -/
theorem witness_vector_memory : ∀ form ∈ [0, 1, 2], ∀ store ∈ [false, true],
    let i := ins 0x0A (form + if store then 4 else 0) 1 0 (if form = 0 then 0 else 2) 0 0x11000000
    let s := onCore { coreWith i with x := [(2, 4)] }
    Issues s 0 i ∧ isOp 0x0A [form + if store then 4 else 0] i = true ∧ (∀ e ∈ vmemExc s 0 (s.core 0) i form store, e.1 = false) ∧
      (∀ l ∈ activeLanes (s.core 0) i, (s.core 0).anyPoison (laneSpan (s.core 0) i form l).1 (laneSpan (s.core 0) i form l).2 = false) := by
  unfold Issues; decide +kernel

/-- VT.HASH with SMX64 and FEATURE over U32 lanes, VT.BUCKET over one boundary and VT.LOOKUP in an empty table. -/
theorem witness_tables :
    (∀ i ∈ [ins 0x0C 0 2 1 0 0 0x05000000, ins 0x0C 0 2 1 0 3 0x05000002, ins 0x0C 0 2 0 0 0 0x00000003],
      let s := onCore { coreWith i with x := [(3, 1)] }
      Issues s 0 i ∧ isOp 0x0C [0] i = true ∧ (∀ e ∈ hashExc (s.core 0) i, e.1 = false) ∧ bitOf i.w 4 = false) ∧
    (let i := ins 0x0C 1 2 1 2 0 0x11000000
     let s := onCore { coreWith i with x := [(2, 64)], sram := [(64, 1)] }
     Issues s 0 i ∧ isOp 0x0C [1] i = true ∧ (∀ e ∈ bucketExc (s.core 0) i, e.1 = false) ∧ (s.core 0).anyPoison 64 68 = false) ∧
    (let i := ins 0x0C 2 2 1 2 3 0x11000000
     let s := onCore { coreWith i with x := [(3, 1)] }
     Issues s 0 i ∧ isOp 0x0C [2] i = true ∧ (∀ e ∈ lookupExc (s.core 0) i, e.1 = false) ∧
       ∀ l ∈ lookupHits (s.core 0) i, (s.core 0).anyPoison (lookupAddr (s.core 0) i l) (elemBytes i.type) = false) := by
  unfold Issues; decide +kernel

theorem witness_select : ∀ e ∈ [(0, ins 0x0D 0 2 4 0 0 0x11000001, [2]), (1, ins 0x0D 1 2 4 6 0 0x11000040, [2, 4, 6])],
    Issues (onCore (coreWith e.2.1)) 0 e.2.1 ∧ isOp 0x0D [e.1] e.2.1 = true ∧ ∀ x ∈ selExc e.2.1 e.2.2, x.1 = false := by
  unfold Issues; decide +kernel

/-- MX.MMA of FP16 with K 32, MX.ZERO, MX.LOADACC at the last place and MX.STOREACC of FP32. -/
theorem witness_matrix :
    (let i := ins 0x10 0 0 1 1 1 0x13000013
     let s := onCore { coreWith i with x := [(1, 32)] }
     Issues s 0 i ∧ mxWaits (s.core 0) i.dst = false ∧ isOp 0x10 [0] i = true ∧ ∀ e ∈ mmaExc (s.core 0) i, e.1 = false) ∧
    (let i := ins 0x10 1 3 0 0 0 0; Issues (onCore (coreWith i)) 0 i ∧ isOp 0x10 [1] i = true ∧ i.onlyUses [fDst] = true ∧ i.dst ≤ 3) ∧
    (let i := ins 0x10 2 3 1 0 0 0
     let s := onCore { coreWith i with x := [(1, 0x3FE000)] }
     Issues s 0 i ∧ isOp 0x10 [2] i = true ∧ i.onlyUses [fDst, fS1] = true ∧ (s.core 0).xr i.s1 + 8192 ≤ 0x400000 ∧ (s.core 0).xr i.s1 % 4 = 0 ∧
       (s.core 0).anyPoison ((s.core 0).xr i.s1) 8192 = false) ∧
    (let i := ins 0x10 3 3 0 2 0 0x11000000
     let s := onCore { coreWith i with x := [(2, 128)] }
     Issues s 0 i ∧ isOp 0x10 [3] i = true ∧ (∀ e ∈ storeaccExc s 0 i, e.1 = false) ∧ 4 * Num.width i.type ≤ (s.core 0).xr i.s2) := by
  unfold Issues; decide +kernel

theorem witness_mma_execute :
    (let m : Mma := mmaOf { x := [(1, 32)] } (ins 0x10 0 0 1 1 1 0x13000013)
     ((onCore { mmas := [m] }).core 0).mmas = m :: [] ∧ ((onCore { mmas := [m] }).core 0).poisonAt = none ∧ m.drop = false ∧
       (({ mmas := [m] } : CoreSt).anyPoison m.aOff m.aBytes) = false ∧ ({ m with drop := true } : Mma).drop = true) := by decide +kernel

/-- TASK.WAIT between tasks and inside one, TASK.EMIT to an output that is a token port, TASK.DONE, and a wait that has run out. -/
theorem witness_task :
    (let i := ins 0x18 0 3 0 0 0 0
     Issues (onCore (coreWith i)) 0 i ∧ isOp 0x18 [0] i = true ∧ i.onlyUses [fDst, fS1] = true ∧ ((onCore (coreWith i)).core 0).task = none ∧
       smFind 0 ((onCore (coreWith i)).caller 0).next = none ∧ ((onCore { coreWith i with task := some aTask }).core 0).task ≠ none) ∧
    (let i := ins 0x18 2 0 0 0 0 127
     let s := onCore { coreWith i with task := some aTask }
     Issues s 0 i ∧ isOp 0x18 [2] i = true ∧ i.onlyUses [(8, 0)] = true ∧ bitsOf i.w 7 0 ≤ 127 ∧ (s.core 0).task = some aTask ∧ bitOf i.w 8 = false ∧
       (s.core 0).mmas = [] ∧ (((taskStrms s 0 aTask.id).foldl (fun s j => closeAny s 0 j) s).core 0).task = some aTask) ∧
    (let s := onCore { run := .waiting, waitEnd := some 0, waitDst := some 3 }
     (s.core 0).run = .waiting ∧ (s.core 0).waitEnd = some 0 ∧ (s.core 0).waitDst = some 3 ∧ 0 ≤ s.io.tb ∧ smFind 0 (s.caller 0).next = none) := by
  unfold Issues; decide +kernel

theorem witness_fence : ∀ e ∈ [((0 : Nat), ([] : List (Nat × Nat)), ins 0x1C 0 0 0 0 0 0), (1, [], ins 0x1C 1 0 0 0 0 0), (2, [], ins 0x1C 2 0 0 0 0 0), (3, [], ins 0x1C 3 0 0 0 0 0),
    (8, [fS1, (7, 0)], ins 0x1C 8 0 1 0 0 255), (9, [fS1, (2, 0)], ins 0x1C 9 0 1 0 0 7)],
    Issues (onCore (coreWith e.2.2)) 0 e.2.2 ∧ isOp 0x1C [e.1] e.2.2 = true ∧ e.2.2.onlyUses e.2.1 = true ∧
      ((onCore (coreWith e.2.2)).core 0).lastUser.all (fun t => decide (t + 1024 ≤ 0)) = true ∧
      (some 0).all (fun t => decide (t + 1024 ≤ (0 : Nat))) = false ∧ (onCore (coreWith e.2.2)).io.frozen (bCore 0) = false := by
  unfold Issues; decide +kernel

/-- A core whose PC has left its range, one at a reserved opcode, and a task past its budget. -/
theorem witness_exceptions :
    (let c : CoreSt := { run := .running, range := (8, 8) }; c.runs = true ∧ c.inRange c.pc = false) ∧
    (let i := ins 0x3F 0 0 0 0 0 0; (coreWith i).runs = true ∧ (coreWith i).fetch = some i ∧ knownOp i.major i.sub = false) ∧
    (let t : Tmpl := ⟨[1, 0, 0, 0, 0, 0, 0, 0, 0, 0, 0, 0, 1, 0, 0, 0]⟩; t.budget ≠ 0 ∧ t.budget * 1024 ≤ cyclesOf (1000 - 0)) := by decide +kernel

/-- Template 0 of service 0: valid, one port, and an output on a token port of itself. -/
def aTmpl : List Byte := (1 :: List.replicate 7 0) ++ (1 :: List.replicate 31 0) ++ [0, 0, 0, 0x40] ++ List.replicate 84 0

theorem witness_emit :
    let i := ins 0x18 1 3 1 2 0 0
    let c := { coreWith i with task := some aTask }
    let s := (onCore c).setCaller 0 { tmpls := [(0, aTmpl)] }
    let w := (tmplOf s 0 0).out 0
    let r := offerToken s (emitToken s 0 aTask w 0 0 false)
    let held := s.mapIo (fun io => { io with notReady := [bCaller 0] })
    let bad := { s with call := [] }
    Issues s 0 i ∧ isOp 0x18 [1] i = true ∧ i.onlyUses [fDst, fS1, fS2, (8, 0)] = true ∧ (s.core 0).task = some aTask ∧ bitsOf w 31 30 = 1 ∧
      r.1.core 0 = c ∧ r.2 = .accepted ∧ (offerToken held (emitToken held 0 aTask w 0 0 false)).2 = .held ∧ (offerToken bad (emitToken bad 0 aTask w 0 0 false)).2 = .refused := by
  unfold Issues; decide +kernel

/-! ### Streams, Pedlar transfers and the Assayers -/

/-- A linear read descriptor of U32 over 4,096 elements of tier 0. -/
def aDesc : Desc := { rank := 1, etype := 0x05, tier := 0, flags := 1, base := 0x10000, region := 1, blk := [4], scaleBase := 0, size := [4096], stride := [1] }

/-- STREAM instructions: an open whose block is zero, and an advance, a close and a read of an open stream and of one that is not. -/
theorem witness_streams :
    let sOpen := onCore { coreWith (ins 0x14 0 1 2 0 0 0) with task := some aTask }
    let own : Strm := { st := 1, task := 1, desc := some aDesc }
    (Issues sOpen 0 (ins 0x14 0 1 2 0 0 0) ∧ isOp 0x14 [0] (ins 0x14 0 1 2 0 0 0) = true ∧ (ins 0x14 0 1 2 0 0 0).onlyUses [fDst, fS1, (3, 0)] = true ∧
      (sOpen.core 0).anyPoison 0 128 = false ∧ ((openStrm sOpen 0 0 aTask.opener 0).1.core 0).pc = (sOpen.core 0).pc ∧ ((openStrm sOpen 0 0 aTask.opener 0).1.core 0).run = .running ∧
      ((openStrm sOpen 0 0 aTask.opener 0).1.core 0).poisonAt = none ∧ (openCheck sOpen 0 0 aTask.opener 0).toOption.isSome = false) ∧
    (∀ e ∈ [(1, [fDst, (3, 0)]), (2, [(3, 0)]), (3, [fDst, (3, 0)])],
      let i := ins 0x14 e.1 (if e.1 = 2 then 0 else 1) 0 0 0 15
      let s := onCore { coreWith i with task := some aTask, strms := [(15, own)] }
      Issues s 0 i ∧ isOp 0x14 [e.1] i = true ∧ i.onlyUses e.2 = true ∧ ownsStrm s 0 15 = true ∧ ownsStrm s 0 14 = false ∧
        (let u := (advanceRead s 0 15).1; (u.core 0).pc = 0 ∧ (u.core 0).run = .running ∧ (u.core 0).poisonAt = none) ∧
        (let u := closeAny s 0 15; (u.core 0).pc = 0 ∧ (u.core 0).run = .running ∧ (u.core 0).poisonAt = none) ∧
        (s.strm 0 15).reads = true ∧ (s.strm 0 15).gang = none) := by
  unfold Issues; decide +kernel

/-- A line of the first tile of a read stream. -/
def aLine : LineReq := { core := 0, st := 0, inst := 1, ord := 0, idx := 0, write := false, tier := 0, addr := 0x10000, key := 5, issued := 0, path := [] }
def aReader : Strm :=
  { st := 1, desc := some aDesc, inst := 1, start := [0], count := [256], step := [1], order := [0], tiles := [{ pos := 0, ord := 0, wait := [0], blk := some [0] }] }
def aWriter : Strm :=
  { st := 1, kind := 2, desc := some aDesc, inst := 1, start := [0], count := [256], step := [1], order := [0],
    tiles := [{ pos := 0, ord := 0, blk := some [0], issued := true }, { pos := 1, ord := 1, blk := some [1] }] }

theorem witness_lines :
    (let r := { aLine with path := [⟨.noc, 0⟩] }
     let q := { aLine with path := [⟨.noc, 0⟩], key := 1, idx := 1 }
     r ∈ [q, r] ∧ r.path.head? = some (⟨.noc, 0⟩) ∧ ∀ x ∈ [q, r], x.path.head? = some (⟨.noc, 0⟩) → x ≠ q → q.before x = true ∧ x.before q = false) ∧
    (let s := { onCore { strms := [(0, aReader)] } with fetch := { lines := [aLine] } }
     aLine ∈ s.fetch.lines ∧ tHeld s 0 0x10000 = false ∧ s.strm 0 0 = aReader ∧ tFault s 0 0x10000 1 false = none ∧
       aReader.tiles.find? (fun t => t.ord == aLine.ord) = some { pos := 0, ord := 0, wait := [0], blk := some [0] } ∧
       ((tileSpans aDesc { pos := 0, ord := 0, wait := [0], blk := some [0] })[0]?).isSome = true ∧
       (tileSpans aDesc { pos := 0, ord := 0, wait := [0], blk := some [0] }).all (fun l => s.tPoison 0 0 l.addr l.len == false) = true) ∧
    (let x : Strm := { aReader with fault := some ⟨Code.MEM_UE, 0, [0], 0x10000⟩ }
     (onCore { strms := [(0, x)] }).strm 0 0 = x ∧ x.desc ≠ none ∧ x.tiles.find? (fun t => !(t.bad == [])) = none ∧ x.fault ≠ none ∧
       Code.MEM_UE ≠ Code.HOST_DENIED ∧ Code.MEM_UE ≠ Code.TIER_OFFLINE) ∧
    (let s := onCore { strms := [(0, aWriter)] }
     s.strm 0 0 = aWriter ∧ aDesc.accum = false ∧ aWriter.reads = false ∧ s.fetch.lines = []) ∧
    (let g : Gang := { id := 1, die := 0, group := 2, resident := true, running := true }
     let r : ResSet := { die := 0, set := 2, svc := 0, tiles := 1, bytes := 64, base := 0 }
     let s := { State.reset with fetch := { gangs := [g], sets := [r] } }
     resSet s 0 2 = some r ∧ s.fetch.gangs.find? (fun g => g.resident && decide (g.die = 0) && decide (g.group = 2) && g.running) = some g ∧ g.step < 48 * r.tiles) ∧
    fenceReady (onCore { fence := true }) 0 = true := by decide +kernel

/-- A Pedlar request to a tier, refused and taken, its issue and its completion. -/
theorem witness_pedlar :
    let i := ins 0x15 0 0 1 0 0 0
    let c := { coreWith i with task := some aTask }
    let s := onCore c
    (Issues s 0 i ∧ isOp 0x15 [0] i = true ∧ i.onlyUses [fS1] = true ∧ c.xr i.s1 % 32 = 0 ∧ c.anyPoison 0 32 = false ∧ pedCheck s aTask (c.bytes 0 32) ≠ 0) ∧
    (let p : Ped := { blk := 0, dest := 0, region := 1, fabric := 0, ack := true, fence := true, offset := 0, data := [1, 2], poison := 0, serial := 7 }
     let u := onCore { peds := [p] }
     (u.core 0).peds.find? (fun p => !p.issued) = some p ∧ p.dest = 0 ∧ (∀ e ∈ (u.core 0).strms, e.2.reads = false → e.2.tiles = [])) ∧
    (let p : Ped := { blk := 0, dest := 0, region := 65537, fabric := 0, ack := true, fence := false, offset := 0, data := [1, 2], poison := 0, serial := 7, issued := true }
     let r : Region := { gen := 1, used := true, base := 0x10000, len := 64, perm := 3 }
     let u := { onCore { peds := [p] } with adm := { regions := [(1, r)] } }
     (u.core 0).peds.find? (fun q => q.serial == 7 && q.issued) = some p ∧ regionOf u p.region = some r ∧ tFault u r.tier (r.base + p.offset) p.data.length true = none ∧
       tHeld u r.tier (r.base + p.offset) = false ∧ ∀ q ∈ (u.core 0).peds, p.serial ≤ q.serial) := by
  unfold Issues; decide +kernel

/-- The same request filled in: two bytes of SRAM 64 to region 65537 with ACK, which passes every check. -/
theorem witness_pedlar_taken :
    let i := ins 0x15 0 0 1 0 0 0
    let blk : List Byte := [1, 0, 2, 0, 64, 0, 0, 0, 1, 0, 1, 0, 0, 0, 1, 0] ++ List.replicate 16 0
    let c := { coreWith i with task := some aTask, sram := (blk.zipIdx.map (fun e => (e.2, e.1))).filter (fun e => e.2 ≠ 0) }
    let s := { onCore c with adm := { regions := [(1, { gen := 1, used := true, base := 0x10000, len := 64, perm := 3, owner := 1 })] } }
    Issues s 0 i ∧ pedCheck s aTask (c.bytes 0 32) = 0 ∧ fieldAt (c.bytes 0 32) 4 4 + fieldAt (c.bytes 0 32) 2 2 ≤ 0x400000 ∧
      c.anyPoison 64 2 = false ∧ c.peds.length < 8 := by
  unfold Issues; decide +kernel

/-- Context table 5 of service 0 is slot 0 of Assayer 0: exact, or longest match, of 1,024 entries with no entry yet. -/
def withTable (lm : Bool) (s : State) : State :=
  let io := (s.io.setReg ((bAssayer 0).base + Off.assayer_TBL_CTRL) (2 ^ 31 + if lm then 2 ^ 30 else 0)).setReg ((bAssayer 0).base + Off.assayer_TBL_RANGE) 0x10000
  { s with io := io, assay := { s.assay with binds := [(0, 5, 0, 0)] } }

/-- A command of context 0 with parameter bytes from 0x10 on. -/
def aCmd (op : Nat) (ps : List Byte) : Cmd :=
  { ring := 1, pos := 0, tag := 7, op := op, fence := false, silent := false, irq := false, ctx := 0, param := ps ++ List.replicate (48 - ps.length) 0 }
def aCtx : Ctx := { cn := 0, svc := 0, st := .live, slot := some 1, home := 0, buckets := [], last := 0, descs := [], tableLen := 16 }
def withCtx (s : State) : State := { s with adm := { s.adm with ctxs := [(0, aCtx)] } }

theorem witness_assay_send : ∀ lm ∈ [false, true],
    let i := ins 0x0C (if lm then 4 else 3) 2 4 6 1 5
    let s := withTable lm (onCore { coreWith i with task := some aTask })
    Issues s 0 i ∧ isOp 0x0C [if lm then 4 else 3] i = true ∧ (∀ e ∈ assayExc s 0 i lm, e.1 = false) ∧ noteKeys (s.core 0) i i.s2 (!lm) = s.core 0 ∧
      assayTab s 0 i = some (0, 0) ∧ (assayQueue s 0).length + (assaySent s 0 i lm).length ≤ 256 ∧ s.io.enabled (bAssayer 0) = true := by
  unfold Issues; decide +kernel

theorem witness_assay_lookup :
    (let row : AssayRow := ⟨9, 1, 0x880C0009, true, false⟩
     let s := { withTable false State.reset with assay := { (withTable false State.reset).assay with arr := [(3, row)], shadow := [(3, row)] } }
     candidates s 0 0 9 = [(3, 3)] ∧ ∀ e ∈ candidates s 0 0 9, (shadowRow s e.2).bad = false ∧ (shadowRow s e.2).fp = 9 ∧ (arrRow s e.2).valid = true) ∧
    (let q : AssayReq := ⟨0, 1, 0, 0, 0, false, 9, [], false⟩
     let s := { withTable false State.reset with assay := { (withTable false State.reset).assay with queue := [(0, [q])] } }
     assayQueue s 0 = [q] ∧ AssayTab.lost s 0 0 = false ∧ AssayTab.valid s 0 0 = true ∧ q.lm = false) ∧
    (let w : AssayWait := { serial := 1, dst := 2, mreg := 0, act := 1, zm := false, wide := false, left := 1, tstat := 0 }
     ((onCore { assay := [w] }).core 0).assay.find? (fun w => w.serial == 1) = some w) := by decide +kernel

theorem witness_assay_load :
    let s := withTable false (withCtx State.reset)
    (let c := aCmd 0x30 [5, 1, 0, 0, 0xFF, 3, 0, 0, 1, 0, 0, 0]
     c.context s = some aCtx ∧ assayBind s 0 (c.p 0x10 1) 0 = some (0, 0) ∧ AssayTab.lost s 0 0 = false ∧ c.p 0x14 4 + c.p 0x18 4 = AssayTab.entries s 0 0 ∧
       c.p 0x11 1 = 1 ∧ c.p 0x12 2 = 0) ∧
    (let c := aCmd 0x30 [5, 2]; assayBind s 0 (c.p 0x10 1) 0 = some (0, 0) ∧ c.p 0x11 1 = 2 ∧ c.p 0x12 2 = 0 ∧ c.p 0x14 4 = 0 ∧ c.p 0x18 4 = 0) ∧
    (let d : Desc := { rank := 1, etype := 0x07, tier := 1, flags := 1, base := 0x10000, region := 65537, blk := [4, 0, 0, 0, 0, 0], scaleBase := 0, size := [2, 0, 0, 0, 0, 0], stride := [1, 0, 0, 0, 0, 0] }
     let r : Region := { gen := 1, used := true, tier := 1, base := 0x10000, len := 4096, perm := 3, owner := 1 }
     let t := { s with adm := { s.adm with ctxs := [(0, { aCtx with descs := [(1, { d := d })] })], regions := [(1, r)] } }
     let c := aCmd 0x30 [5, 0, 1, 0, 0, 0, 0, 0, 1, 0, 0, 0]
     imageDesc t c = some d ∧ descFault t d 0 2 false = none ∧ tHeld t d.tier d.base = false ∧
       (assayImage false (leBytes 8 (elemCode t 0 d (d.coords 0)) ++ leBytes 8 (elemCode t 0 d (d.coords 1)))).isSome = true) ∧
    (AssayTab.valid s 0 0 = true ∧ tableValid s 0 0 = 0 ∧ writeAllowed s.io .factor (bAssayer 0) ((bAssayer 0).base + Off.assayer_FP_SEED_LO) = none ∧
      (let row : AssayRow := ⟨9, 1, 0x880C0009, true, false⟩; 0 < tableValid { s with assay := { s.assay with shadow := [(3, row)] } } 0 0)) := by decide +kernel

/-! ### Register accesses -/

/-- Accesses that reach the pages, of every form, on pages that the host may write and may not, ready or not. -/
theorem witness_register_access :
    (∀ w ∈ [Requester.host, Requester.factor], reaches State.reset w 0x3068 = true) ∧
    (pageAt 0x3068 = some (bTime, 0) ∧ State.reset.io.ready bTime = true ∧ bTime.hostWr = true ∧ isPairLo (normOff 0x3068) = false ∧ isPairHi (normOff 0x3068) = false) ∧
    (let off := bPower.base + Off.power_LIMIT_W
     pageAt off = some (bPower, 0) ∧ bPower.hostWr = false ∧ 0x040 ≤ off % 0x1000 ∧ fieldsAt off ≠ [] ∧ off % 4 = 0) ∧
    (let s := State.reset.mapIo (fun io => { io with notReady := [bTime] }); s.io.ready bTime = false ∧ reaches s .host 0x3014 = true) ∧
    (let off := bEvtq.base + Off.evtq_RECORDS_LO
     pageAt off = some (bEvtq, off % 0x4000 / 0x1000) ∧ 0x040 ≤ off % 0x1000 ∧ off % 8 = 0 ∧ isPairLo off = true ∧ isPairHi off = false ∧ isPairLo (off + 4) = false ∧
       pageAt (off + 4) = pageAt off ∧ reaches State.reset .host off = true ∧ reaches State.reset .host (off + 4) = true ∧
       snapOf (State.reset.mapIo (fun io => setSnap io .host (some (off, 9)))).io .host = some (off, 9) ∧ snapOf State.reset.io .host = none ∧
       writeRefused State.reset .host bEvtq off = none ∧ keepsOnZero bEvtq (off - bEvtq.base) = []) ∧
    (bTime.valid = true ∧ bitOf (State.reset.io.br bTime 0x01C) 31 = false ∧ bitOf ((State.reset.io.capture bTime Code.BAD_ACCESS 0x3000).br bTime 0x01C) 31 = true ∧
      reaches State.reset .host (bTime.base + 0x01C) = true) := by decide +kernel

theorem witness_header :
    let s := State.reset
    (∀ b ∈ [bTime, bCarter 0, bCore 95, bLink 11, bPower], b.valid = true ∧ s.io.ready b = true ∧ bitOf (s.io.br b 0x008) 1 = false ∧ bitOf (s.io.br b 0x008) 9 = false ∧
      ∀ o ∈ [0, 0x008, 0x014, 0x018], reaches s .host (b.base + o) = true) ∧
    ((fieldsAt (bTime.base + 0x008)).any (fun f => decide (f.lo = 9) && f.acc == .wo) = true) ∧
    (s.io.intake.length < 4096 ∧ s.io.held = [] ∧ s.rst.device = none ∧ s.rst.units = [] ∧ bitOf (2 : W32).toNat 1 = true) ∧
    (Io.eventBits bTime ≠ [] ∧ bitOf (s.io.br bTime 0x010) 2 = false ∧ bitOf (s.io.br bTime 0x014) 2 = true) ∧
    (let io := ((s.io.setBf bTime 0x010 2 2 1)).setBf bTime 0x014 3 3 0
     bitOf (io.br bTime 0x010) 2 = true ∧ bitOf (io.br bTime 0x014) 2 = true ∧ bitOf (io.br bTime 0x014) 3 = false ∧
       (∀ j, j < 32 → j ≠ 2 → bitOf (io.br bTime 0x010) j = false)) := by decide +kernel

theorem witness_negotiation :
    let s := State.reset
    let neg := s.mapIo (fun io => (io.setReg (bGlb.base + Off.glb_DRV_VER) 0x01030000).setBf bGlb Off.glb_NEG_STAT 1 0 1)
    reaches s .host (bGlb.base + Off.glb_DRV_VER) = true ∧ s.io.ready bGlb = true ∧ s.adm.ctxs = [] ∧ (withCtx s).adm.ctxs ≠ [] ∧
      bitsOf (0x01030000 : W32).toNat 31 24 ≠ 0 ∧ bitsOf (0 : W32).toNat 31 24 = 0 ∧
      negState neg.io = 1 ∧ bitOf (devStat neg) 0 = true ∧ facServes neg = true ∧ neg.io.bf bGlb Off.glb_DRV_VER 31 24 = 1 ∧ neg.fac.lc = 2 := by decide +kernel

/-- The driver example: version 1.3 is honoured as 1.0, with the feature mask 0x117. -/
theorem test_negotiation :
    let neg := State.reset.mapIo (fun io => (io.setReg (bGlb.base + Off.glb_DRV_VER) 0x01030000).setBf bGlb Off.glb_NEG_STAT 1 0 1)
    (match exec .negotiation neg with
      | .next t => decide (negState t.io = 2 ∧ t.io.bf bGlb Off.glb_NEG_STAT 31 24 = 1 ∧ t.io.bf bGlb Off.glb_NEG_STAT 23 16 = 0)
      | _ => false) = true := by decide +kernel

theorem witness_memory :
    let s := State.reset
    let m := s.mem
    (∃ b ∈ [(⟨.hbm, 0⟩ : Block)], m.controller 0 = some b ∧ b.valid = true ∧ isController b = true) ∧ m.controller 0x10000000000 = some ⟨.ddr, 0⟩ ∧
      m.controller 0x40000000000 = some ⟨.cxl, 0⟩ ∧ m.poisoned 0 = false ∧ ({ m with poison := [(0, true)] } : MemSt).poisoned 0 = true ∧
      correctable [] 0 = true ∧ correctable [1, 2, 3] 0 = true ∧ correctable [1, 2, 3, 4, 5] 0 = false ∧
      s.io.bf ⟨.hbm, 0⟩ Off.hbm_SCRUB_CFG 15 0 ≠ 0 ∧ (s.io.setBf ⟨.hbm, 0⟩ Off.hbm_SCRUB_CFG 15 0 0).bf ⟨.hbm, 0⟩ Off.hbm_SCRUB_CFG 15 0 = 0 ∧
      0 < (scrubSpan m ⟨.hbm, 0⟩).2 ∧ m.moving (scrubAddr m ⟨.hbm, 0⟩ 0) = false := by decide +kernel

/-- Apertures: the first tier-1 byte, an address no window maps, a page under way, and a stack out of service. -/
theorem witness_apertures :
    let s := State.reset.mapIo (fun io => io.setReg (bGlb.base + Off.glb_APT_BASE_LO) 1)
    s.rst.power = .d0 ∧ apertureAddr s.io 0 ≠ none ∧ apertureAddr State.reset.io 0 = none ∧
      (∀ a ∈ apertureAddr s.io 0, s.mem.moving a = false ∧ (s.mem.controller a).any (fun b => s.io.notReady.contains b) = false ∧
        (linesOf a 64).all (fun l => s.mem.mapped (l * 64)) = true ∧ (s.mem.rangeFault a 64).any (fun e => e.1 = Code.TIER_OFFLINE) = false ∧
        (({ s.mem with lost := [⟨.hbm, 0⟩] } : MemSt).rangeFault a 64).any (fun e => e.1 = Code.TIER_OFFLINE) = true) ∧
      (s.mem.mapped 0x3FFFFFFFFFFC0 = false) := by decide +kernel

def aMove (ph : MovePhase) : Move := ⟨0x1000000, true, 0, true, ph⟩

theorem witness_placement :
    let s := State.reset
    let pool := s.mapIo (fun io => io.setBf bMigr Off.migr_POOL 18 0 16)
    let at2 := pool.mapIo (fun io => io.setReg64 (bMigr.base + Off.migr_MOVE_ADDR_LO) 0x10000000000)
    (s.io.enabled bMigr = false ∧ (s.io.setBf bMigr 0x008 0 0 1).enabled bMigr = true) ∧
    (aMove .waiting ∉ ([] : List Move) ∧ (aMove .waiting).phase = .waiting) ∧
    (at2.mem.freeFrame 16 = some 0 ∧ at2.mem.freeFrame 0 = none ∧ smFind 0x1000000 at2.mem.promoted = none ∧
      writeAllowed at2.io .host bMigr (bMigr.base + Off.migr_MOVE_CMD) = none ∧ at2.io.bf bMigr Off.migr_MOVE_STAT 31 30 ≠ 1 ∧
      at2.io.reg64 (bMigr.base + Off.migr_MOVE_ADDR_LO) / 65536 = 0x1000000 ∧ (windowOf (0x1000000 * 65536)).isSome = true ∧ homeLost at2.mem 0x1000000 = false ∧
      at2.mem.running.length < 16) ∧
    (writeAllowed s.io .host bMigr (bMigr.base + Off.migr_POOL) = none ∧ bitsOf (7 : W32).toNat 18 0 % 8 ≠ 0 ∧ bitsOf (262144 : W32).toNat 18 0 = 262144 ∧
      s.adm.services = [] ∧ poolHits s 262144 = false) ∧
    (∀ ph ∈ [MovePhase.pinWait, .pinHeld, .copy], let u := { s with mem := { s.mem with moves := [aMove ph] } }
      u.mem.moves.find? (fun v => decide (v.page = 0x1000000)) = some (aMove ph) ∧ pinned u 0x1000000 = false) := by decide +kernel

/-! ### Regions, descriptors and operators -/

/-- Bytes as a sparse map. -/
def cellsAt (a : Nat) (bs : List Byte) : SMap Byte := (bs.zipIdx.map (fun e => (a + e.2, e.1))).filter (fun e => e.2 ≠ 0)

theorem witness_regions :
    let s := State.reset
    let reg := fun (tier base len perm : Nat) => aCmd 0x20 (leBytes 8 base ++ leBytes 8 len ++ [BitVec.ofNat 8 tier, BitVec.ofNat 8 perm])
    let ok := reg 1 0x10000 0x1000 3
    (4 < (reg 5 0 0x1000 1).p 0x20 1 % 16) ∧ ((reg 0 0 0x1000 1).p 0x20 1 % 16 = 0) ∧ ((reg 1 1 0x1000 1).p 0x10 8 % 4096 ≠ 0) ∧
    (ok.p 0x20 1 % 16 = 1 ∧ ok.p 0x10 8 % 4096 = 0 ∧ ok.p 0x18 8 = 0x1000 ∧ spanOk s.mem 1 0x10000 0x1000 = true ∧
      (s.adm.regions.filter (fun e => e.2.used)).length < 65535) ∧
    (let r : Region := { gen := 1, used := true, tier := 1, base := 0x10000, len := 4096, perm := 3, owner := 1 }
     let t := withCtx { s with adm := { regions := [(1, r)] } }
     let u := aCmd 0x21 (leBytes 4 65537)
     regionOf t (u.p 0x10 4) = some r ∧ u.ring = r.owner ∧ regionBusy t 65537 = false ∧ regionOf s 65537 = none ∧
       u.context t = some aCtx ∧ u.context s = none ∧ fixedDescs t aCtx ≤ 3 ∧ 3 < aCtx.tableLen ∧ smFind 3 aCtx.descs = none ∧ t.ctx? aCtx.cn = some aCtx ∧
       (regionRead t ⟨1, 0⟩ 65537 0 128).toOption.isSome = true ∧ (regionRead t ⟨1, 0⟩ 65537 4096 128).toOption.isSome = false) := by decide +kernel

/-- The 128 bytes of a descriptor of tier 0 (Table 4.2). -/
def descBytes (etype flags base : Nat) (size : List Nat) (stride : List Nat) : List Byte :=
  [1, BitVec.ofNat 8 size.length, BitVec.ofNat 8 etype, 0] ++ leBytes 4 flags ++ leBytes 8 base ++ leBytes 4 0 ++ leBytes 4 4 ++ leBytes 8 0 ++
    (List.range 6).flatMap (fun i => leBytes 4 (size.getD i 0)) ++ leBytes 8 0 ++ (List.range 6).flatMap (fun i => leBytes 8 (stride.getD i 0)) ++ leBytes 16 0

/-- Chapter 4's slab with a reversed third dimension passes every check; with half the slab stride it would write an element twice. -/
theorem witness_descriptor :
    checkDesc State.reset ⟨1, 0⟩ (descBytes 0x11 3 (4 * 76800) [256, 100, 4] [1, 256, 2 ^ 64 - 25600]) = none ∧
    (checkDesc State.reset ⟨1, 0⟩ (descBytes 0x11 3 0 [256, 100, 4] [1, 256, 12800])).map Prod.fst = some Code.ALIAS_WRITE := by decide +kernel

/-- Context 0 with a column of four FP32 values, three boundaries and four U32 results, in SRAM. -/
def bucketCtx : Ctx :=
  let d := fun (et flags base n : Nat) => ({ rank := 1, etype := et, tier := 0, flags := flags, base := base, region := 0, blk := [4, 0, 0, 0, 0, 0], scaleBase := 0, size := [n, 0, 0, 0, 0, 0], stride := [1, 0, 0, 0, 0, 0] } : Desc)
  { aCtx with descs := [(1, ⟨d 0x11 1 0x1000 4, false⟩), (2, ⟨d 0x11 1 0x1100 3, false⟩), (3, ⟨d 0x05 2 0x1200 4, false⟩)] }
def bucketBlock : List Byte :=
  [1, 8, 0, 2] ++ leBytes 4 4 ++ leBytes 7 0 ++ [0xFF] ++ leBytes 4 0x900 ++ leBytes 12 0 ++ leBytes 2 2 ++ leBytes 2 0 ++ leBytes 4 3 ++ leBytes 24 0 ++
    ([1, 0, 0, 0, 0, 0, 0, 0x11] ++ leBytes 8 0) ++ ([3, 0, 0, 0, 0, 0, 0, 0x05, 0, 0, 0, 0, 1] ++ leBytes 3 0) ++ leBytes 160 0
def bucketState : State :=
  let vals := leBytes 4 0xC0A00000 ++ leBytes 4 0 ++ leBytes 4 0x425C0000 ++ leBytes 4 0x42C80000
  let bounds := leBytes 4 0 ++ leBytes 4 0x41200000 ++ leBytes 4 0x42C80000
  let c : CoreSt := { run := .running, task := some aTask, x := [(1, 0x800)], sram := cellsAt 0x800 bucketBlock ++ cellsAt 0x1000 vals ++ cellsAt 0x1100 bounds }
  { onCore c with adm := { ctxs := [(0, bucketCtx)] } }

/-- BUCKETIZE of −5, 0, 55 and 100 at the boundaries 0, 10 and 100 gives 0, 1, 2 and 3. -/
theorem test_bucketize :
    let r := opRun bucketState 0 0 ⟨(bucketState.core 0).bytes 0x800 256⟩
    (((bucketSpec r).run r).s.core 0).bytes 0x1200 16 = leBytes 4 0 ++ leBytes 4 1 ++ leBytes 4 2 ++ leBytes 4 3 := by decide +kernel

theorem witness_operators :
    let c := bucketState.core 0
    let o : Opb := ⟨c.bytes 0x800 256⟩
    let s' := notePoison (bucketState.setCore 0 (c.noteRead 0x800 256)) 0
    (c.run = .running ∧ c.task = some aTask ∧ c.emitDst = none ∧ c.opWait = none ∧ (∀ k, k < 8 → (bucketState.strm 0 (8 + k)).st = 0) ∧ o.op = 8 ∧
      opExc 0x800 o = none ∧ opCheck (opRun s' 0 0 o) (bucketSpec (opRun s' 0 0 o)) = none ∧ o.rows ≠ o.resumeRow ∧
      (opEnd ((bucketSpec (opRun s' 0 0 o)).run (opRun s' 0 0 o))).isSome = true) ∧
    opExc 0x804 o ≠ none ∧ opCheck (opRun s' 0 0 ⟨o.bs.set 0 2⟩) (bucketSpec (opRun s' 0 0 ⟨o.bs.set 0 2⟩)) ≠ none ∧
    (let s := onCore { strms := [(15, { st := 1 })] }; (s.strm 0 15).st ≠ 0) := by decide +kernel

theorem witness_operator_rows :
    (∀ i, i < 3 → ∀ j, j < 3 → i < j → Num.intOf 0x06 ([0xFFFFFFFF, 0, 7].getD i 0) < Num.intOf 0x06 ([0xFFFFFFFF, 0, 7].getD j 0)) ∧
    Num.isInt 0x06 = true ∧ Num.isInt 0x11 = false ∧ Num.isNaN (Num.value 0x11 0x7FC00000) = true := by decide +kernel

/-! ### EGP -/

/-- Whether a check passes with inputs of which `f` holds, or fails with a code of which `f` holds. -/
def okAnd {α : Type} (e : Except Nat α) (f : α → Bool) : Bool :=
  match e with
  | .ok a => f a
  | .error _ => false
def errAnd {α : Type} (e : Except Nat α) (f : Nat → Bool) : Bool :=
  match e with
  | .ok _ => false
  | .error c => f c

/-- A descriptor of tier 0 with strides of a packed array. -/
def aDesc0 (etype flags base : Nat) (size : List Nat) : Desc :=
  { rank := size.length, etype := etype, tier := 0, flags := flags, base := base, region := 0, blk := [4, 0, 0, 0, 0, 0], scaleBase := 0,
    size := size ++ List.replicate (6 - size.length) 0, stride := [1, (size.getD 0 0 : Int), 0, 0, 0, 0] }

/-- Table 5 of service 0 is record 0: 16 rows of 4 FP32 values in tier 1, applied by ADD under DET or by SET. -/
def aTab (mode flags state step : Nat) : List Byte :=
  [1, BitVec.ofNat 8 state, 0x11, 1, BitVec.ofNat 8 mode, BitVec.ofNat 8 flags] ++ leBytes 2 4 ++ leBytes 8 16 ++ leBytes 8 0x100000 ++ leBytes 4 64 ++
    leBytes 4 0 ++ leBytes 8 0 ++ leBytes 4 8 ++ leBytes 4 8 ++ leBytes 4 step ++ leBytes 12 0

/-- A request for that table. -/
def egpBytes (op out wt n step : Nat) : List Byte :=
  [1, BitVec.ofNat 8 op, 5, BitVec.ofNat 8 out, 0, 0, 0, 0] ++ leBytes 4 n ++ leBytes 4 0x77 ++ leBytes 2 1 ++ leBytes 2 wt ++ leBytes 2 3 ++ leBytes 2 4 ++
    leBytes 16 0 ++ leBytes 4 step ++ leBytes 20 0

def egpReq (op out wt n step : Nat) : UReq := { serial := 1, blk := egpBytes op out wt n step, cn := 0, svc := 0, run := some 1, core := some 0 }

/-- Chapter 9's worked request: its table rows in tier 1, its lists in SRAM of core 0, the request in the queue of EGP 0. -/
def egpState (r : UReq) : State :=
  let row := fun (a b c d : Nat) => leBytes 4 a ++ leBytes 4 b ++ leBytes 4 c ++ leBytes 4 d
  let m := ((State.reset.mem.putBytes 0x1000C0 (row 0x3E800000 0 0x40800000 0x41000000)).putBytes 0x1001C0
    (row 0x3F800000 0x40000000 0x3F000000 0xBF800000)).putBytes 0x100240 (row 0x7F800000 0x3F800000 0x3F800000 0x3F800000)
  let sram := cellsAt 0x1000 ([7, 3, 7, 9, 0xFFFFFFFF, 3].flatMap (leBytes 4)) ++
    cellsAt 0x1100 ([0x3F000000, 0x40000000, 0x3FC00000, 0, 0x3F800000, 0xBF800000].flatMap (leBytes 4))
  let ds := [(1, ⟨aDesc0 0x05 1 0x1000 [6], false⟩), (2, ⟨aDesc0 0x11 1 0x1100 [6], false⟩), (3, ⟨aDesc0 0x11 3 0x1200 [4, 6], false⟩), (4, ⟨aDesc0 0x01 2 0x1300 [32], false⟩)]
  { onCore { sram := sram } with
    mem := m, adm := { ctxs := [(0, { aCtx with descs := ds })] },
    egp := { dir := [(0, aTab 1 1 1 0)], binds := [(0, 5, 0)] }, queue := { egp := [(0, [r])] } }

/-- The request's pooled vector is 2.25, 4, 5, 6; one null, six positions of which four contribute to two rows. -/
theorem test_egp_worked :
    let s := egpState (egpReq 3 0x11 2 6 0)
    (match egpCheck s (egpReq 3 0x11 2 6 0) with
     | .ok i =>
       let b : EgpBlk := ⟨egpBytes 3 0x11 2 6 0⟩
       let g := egpGroups b i.t.rows (fun p => i.idx.code s 0 p 4) (fun p => i.wt.code s 0 p 4)
       (poolVector s i.t 3 g.2.1.contrib g.1, g.2.1.indices, g.2.1.contrib, g.2.1.groups, g.2.1.nulls)
     | .error _ => ([], 0, 0, 0, 0)) = ([0x40100000, 0x40800000, 0x40A00000, 0x40C00000], 6, 4, 2, 1) := by decide +kernel

theorem witness_egp_requests :
    (∀ e ∈ [(0, 0, 0), (1, 0x11, 0), (2, 0x11, 0), (3, 0x11, 2), (4, 0, 0)],
      let r := egpReq e.1 e.2.1 e.2.2 6 0
      let s := egpState r
      let s := if e.1 = 4 then { s with egp := { s.egp with dir := [(0, aTab 2 0 1 0)] } } else s
      s.io.isOffline (bEgp 0) = false ∧ nextReq (unitQueue s true 0) (egpHeld s) = some r ∧
      okAnd (egpCheck s r) (fun i => decide (egpFault s 0 r i = none ∧ i.out = .desc (aDesc0 0x11 3 0x1200 [4, 6]) ∧ i.res = .desc (aDesc0 0x01 2 0x1300 [32]))) = true) ∧
    tHeld State.reset 0 0x1200 = false ∧
    (let r := egpReq 9 0 0 6 0; nextReq (unitQueue (egpState r) true 0) (egpHeld (egpState r)) = some r ∧
      errAnd (egpCheck (egpState r) r) (fun c => c == Code.BAD_EGP_OP) = true) ∧
    (∀ e ∈ [(0, true), (1, true), (0, false), (1, false)],
      let r := egpReq e.1 (17 * e.1) 0 6 0
      let s := egpState r
      let t := if e.2 then { s with io := { s.io with notReady := (List.range 8).map (fun h => ⟨.hbm, h⟩) } }
        else { s with egp := { s.egp with dir := [(0, (aTab 1 1 1 0).set 21 0xFF)] } }
      okAnd (egpCheck t r) (fun i => (egpFault t 0 r i).any (fun f => faultWaits f.1 == e.2)) = true) ∧
    (let s := egpState (egpReq 0 0 0 6 0)
     let d : Desc := { aDesc0 1 1 0x10000 [128] with tier := 1 }
     let t := { s with adm := { ctxs := [(0, { aCtx with descs := [(1, ⟨d, false⟩)] })] } }
     let c := fun (cl n : Nat) => aCmd 0x40 ([1, 0, BitVec.ofNat 8 cl, 0] ++ leBytes 4 0 ++ leBytes 4 n)
     (∀ e ∈ [(0, 2), (0xFF, 1), (5, 65536), (5, 65537), (0, 0), (6, 1), (0xFE, 1)], ((c e.1 e.2).context t).isSome = true ∧ (c e.1 e.2).p 0x12 1 = e.1 ∧ (c e.1 e.2).p 0x18 4 = e.2) ∧
       okAnd (useDescDir t 0 1 false) (fun d => decide (d.etype = Num.U8 ∧ d.tier = 1 ∧ d.count = 128)) = true ∧ errAnd (useDescDir s 0 9 false) (fun _ => true) = true) := by
  decide +kernel

/-- Chapter 9's entries for row 12 as they arrive: sources 5, 2 and 2. -/
def fenceLog : List LogEnt := [⟨12, 12, 5, 0, 3, [0x3F800000, 0, 0, 0], false⟩, ⟨12, 12, 2, 1, 0, [0x4CBEBC20, 0, 0, 0], false⟩,
  ⟨12, 12, 2, 0, 7, [0xCCBEBC20, 0, 0, 0], false⟩]
def aFence (phase : FencePhase) (waits : List Nat) : Fence := { table := 0, step := 12, phase := phase, waits := waits, cmd := aCmd 0x41 [5] }
def fenceState (mode flags state : Nat) (fs : List Fence) : State :=
  { withCtx State.reset with egp := { dir := [(0, aTab mode flags state 12)], binds := [(0, 5, 0)], log := fenceLog.map (fun e => (0, e)), fences := fs } }

/-- ADD under DET gives 1.0 and in order of arrival 0.0; SET gives 1.0. -/
theorem test_fence_worked : (∀ e ∈ [(1, 1, 0x3F800000), (1, 0, 0), (2, 0, 0x3F800000)],
    applyRow (fenceState e.1 e.2.1 1 []) ⟨aTab e.1 e.2.1 1 12⟩ fenceLog 12 = [e.2.2, 0, 0, 0]) ∧
    applyRow (fenceState 1 1 1 []) ⟨aTab 1 1 1 12⟩ fenceLog.reverse 12 = [0x3F800000, 0, 0, 0] := by decide +kernel

theorem witness_fences :
    ((fenceLog.map (fun e => (e.src * 65536 + e.batch) * 2 ^ 32 + e.pos)).Nodup ∧ Num.isInt 0x11 = false ∧ Num.isInt 0x06 = true) ∧
    (∀ e ∈ [(1, 12), (1, 11), (1, 13), (2, 12)],
      let s := fenceState 1 1 e.1 []
      let c := aCmd 0x41 ([5, 0, 0, 0] ++ leBytes 4 e.2)
      bindOf s (c.issuerSvc s) (c.p 0x10 1) = some 0 ∧ c.p 0x14 4 = e.2 ∧ (Tab.mk (aTab 1 1 e.1 12)).step = 12 ∧ (Tab.mk (aTab 1 1 e.1 12)).peers = 0 ∧
        (tabAt s 0 = some ⟨aTab 1 1 e.1 12⟩ ∧ (aTab 1 1 e.1 12).length = 64) ∧
        (if e = (1, 12) then okAnd (fenceCheck s c) (fun x => decide (x = (0, ⟨aTab 1 1 1 12⟩))) else errAnd (fenceCheck s c) (fun _ => true)) = true) ∧
    (∀ e ∈ [FencePhase.close, .apply, .refresh],
      let s := fenceState 1 1 2 [aFence e []]
      let t : Tab := ⟨aTab 1 1 2 12⟩
      s.egp.fences.find? (fun f => f.table == 0) = some (aFence e []) ∧ tabAt s 0 = some t ∧ t.peers ≤ 1 ∧ 1 ≤ t.tier ∧ t.tier ≤ 3 ∧ Num.isMx t.etype = false ∧
        ∀ x ∈ fenceLog, tHeld s t.tier t.base = false ∧ tFault s t.tier (t.rowAddr x.row) t.rowBytes true = none) ∧
    (let f := { aFence .refresh [] with failed := 2 }; f.phase = .refresh ∧ f.failed ≠ 0) ∧
    (let t : Tab := ⟨(aTab 1 5 1 12).set 0x1C 1⟩
     let s := fenceState 1 5 1 []
     let s := { s with egp := { s.egp with dir := [(0, t.bs)], heat := [(0, [(7, 1000000)])] } }
     (heatEpoch s).egp.hot = [⟨0, 7, 1000000⟩] ∧ (heatEpoch s).egp.warm = [⟨0, 7, 1000000⟩]) := by decide +kernel

/-! ### Winnower and merge trees -/

/-- Chapter 10's row: ten values at the indices 100 to 109. -/
def winData : List (Nat × Nat) :=
  [(100, 0x40400000), (101, 0x7FC00000), (102, 0x40A00000), (103, 0x80000000), (104, 0x40A00000), (105, 0x40000000), (106, 0x40000000), (107, 0),
   (108, 0x40000000), (109, 0x3FC00000)]

/-- K 4 keeps 5, 5, 3 and 2, with two ties, one NaN, and the sums 15 and 5.5; K 12 pads after ten. -/
theorem test_winnower_worked :
    let p := selectRow 0x11 4 false winData false
    p.entries.map Prod.fst = [102, 104, 100, 105] ∧ p.tie = 2 ∧ p.nan = 1 ∧ p.sel.code 0x11 false = 0x41700000 ∧ p.rest.code 0x11 false = 0x40B00000 ∧
    (selectRow 0x11 12 false winData false).entries.map Prod.fst = [102, 104, 100, 105, 106, 108, 109, 103, 107, 101] := by decide +kernel

/-- That part merged with 200, 102, 201 and 202, of a row with 3.0 left out, keeps index 102 once, with its larger value. -/
theorem test_merge_worked :
    let p := selectRow 0x11 4 false winData false
    let q := selectRow 0x11 4 false [(102, 0x40800000), (200, 0x40C00000), (201, 0x40000000), (202, 0x3F800000),
      (203, 0x3F800000), (204, 0x3F800000), (205, 0x3F800000)] false
    let m := mergeRows 0x11 4 4 [p, q]
    m.row.entries = [(200, 0x40C00000), (102, 0x40A00000), (104, 0x40A00000), (100, 0x40400000)] ∧ m.dups = 1 ∧ m.diffs = 1 ∧
      m.row.sel.code 0x11 false = 0x41980000 ∧ m.row.rest.code 0x11 false = 0x41580000 := by decide +kernel

def winReq (bs : List Byte) : UReq := { serial := 1, blk := bs, cn := 0, svc := 0, run := some 1, core := some 0 }
/-- A TOPK of the row with K 4, or a LISTMERGE of two stored lists of 4, in a mode. -/
def winBytes (op mode k len : Nat) : List Byte :=
  [1, BitVec.ofNat 8 op, 0x11, BitVec.ofNat 8 mode] ++ leBytes 4 k ++ leBytes 4 len ++ leBytes 4 (1 + op) ++ leBytes 2 1 ++ leBytes 2 (2 * op) ++ leBytes 2 3 ++
    leBytes 2 (if mode = 0 then 4 else 0) ++ leBytes 2 5 ++ leBytes 2 0 ++ leBytes 2 (6 * op) ++ leBytes 2 0 ++ leBytes 4 0 ++ leBytes 4 (if op = 1 then 0 else 100) ++ leBytes 24 0
def winState (r : UReq) : State :=
  let ds := [(1, ⟨aDesc0 0x11 1 0x1000 [10, 2], false⟩), (2, ⟨aDesc0 0x05 1 0x1100 [10, 2], false⟩), (3, ⟨aDesc0 (if r.blk.getD 3 0 = 1 then 0x05 else 0x11) 3 0x1200 [16, 1], false⟩),
    (4, ⟨aDesc0 0x05 3 0x1300 [16, 1], false⟩), (5, ⟨aDesc0 0x01 2 0x1400 [64], false⟩), (6, ⟨aDesc0 0x01 1 0x1500 [64], false⟩)]
  { onCore { sram := cellsAt 0x1000 (winData.flatMap (fun e => leBytes 4 e.2)) } with
    adm := { ctxs := [(0, { aCtx with descs := ds })] }, queue := { win := [(0, [r])] } }

theorem witness_selection :
    (0x11 ∈ [Num.FP32, Num.BF16, Num.FP16, Num.U32, Num.I32] ∧ (winData.map Prod.fst).Pairwise (fun a b => a < b) ∧ (∀ e ∈ winData, e.2 < 2 ^ Num.width 0x11)) ∧
    (∀ e ∈ [(0, 0, 4, 10), (0, 1, 4, 10), (1, 0, 4, 4), (1, 1, 4, 4)],
      let r := winReq (winBytes e.1 e.2.1 e.2.2.1 e.2.2.2)
      let s := winState r
      let b : WinBlk := ⟨r.blk⟩
      s.io.isOffline (bWinnower 0) = false ∧ nextReq (unitQueue s false 0) (fun _ => false) = some r ∧ b.mode ≤ 1 ∧ b.outRows = 1 ∧ r.group = none ∧ r.rows = 0 ∧
        okAnd (winCheck s 0 r) (fun i => decide ((∃ d ∈ [aDesc0 0x11 3 0x1200 [16, 1], aDesc0 0x05 3 0x1200 [16, 1]], i.val = .desc d) ∧
          i.res = .desc (aDesc0 0x01 2 0x1400 [64]) ∧ i.oidx.isBuf = false) && (match readRow s r i 0 with | .row _ _ _ => true | _ => false)) = true) ∧
    (let r := winReq (winBytes 0 0 0 10); errAnd (winCheck (winState r) 0 r) (fun c => c == Code.K_RANGE) = true) := by decide +kernel

/-- A group of two members on die 0, its instance with the first member's part, and the second member's part on its way. -/
def mergeState (members : Nat) (snd : Bool) : State :=
  let r := winReq (winBytes 0 3 4 10)
  let part := fun (m : Nat) => ({ member := m, req := some (m, r), rows := [selectRow 0x11 4 false winData false] } : MemberPart)
  let g : MergeGroup :=
    { die := 0, group := 1, svc := 0, members := members, remote := false, sender := snd, k := 4, type := 0x11, outMode := 0, sum64 := false,
      outVal := 3, outIdx := 4, res := 5, outFirst := 0, resFirst := 0, port := 0, tag := 0 }
  { winState r with merge := { groups := [g], insts := [{ die := 0, group := 1, n := 0, rows := 1, parts := [part 0] }], flight := [(0, 1, 0, part 1)] } }

theorem witness_merge : ∀ e ∈ [(2, false), (3, false), (3, true)],
    let s := mergeState e.1 e.2
    okAnd (((mergeGroup s 0 1).bind (fun d => (mergeInst s 0 1 0).map (fun x => (d, x)))).elim (.error 0) .ok) (fun (d, x) =>
      (s.merge.flight.find? (fun e => e.1 == 0 && e.2.1 == 1)).any (fun q => q.2.2.2.req.isSome && !x.aborted && decide (q.2.2.1 = 0) && decide (x.parts.length = 1) &&
        decide (d.total = e.1 + b2n (e.2 && false)) && decide ((s.merge.insts.filter (fun y => y.die == 0 && y.group == 1 && y.n == 0)).length = 1) &&
        (decide (e.1 = 3) || (match writeInst s d [mergeRows 0x11 4 4 [q.2.2.2.rows.getD 0 ⟨[], 0, 0, {}, {}, false⟩]] 0 (winReq (winBytes 0 3 4 10)) with | .ok _ => true | _ => false)))) = true := by
  decide +kernel

/-! ### Weavers -/

/-- Chapter 12's copy, smaller: S of 6 by 2 to D of 3 by 4 under PERM 0x01 with RESHAPE, and copies that are refused. -/
def weaveCtx : Ctx :=
  let d := fun (fl base : Nat) (sz : List Nat) => { aDesc0 0x11 fl base sz with tier := 1 }
  { aCtx with descs := [(1, ⟨d 1 0x10000 [6, 2], false⟩), (2, ⟨d 2 0x20000 [3, 4], false⟩), (3, ⟨d 2 0x10010 [3, 4], false⟩), (4, ⟨d 3 0x30000 [0, 2], false⟩),
    (5, ⟨d 3 0x30000 [6, 2], false⟩)] }
def weaveState : State := { State.reset with adm := { ctxs := [(0, weaveCtx)] } }
def weaveCmd (src dst perm mode : Nat) : Cmd := aCmd 0x50 (leBytes 2 src ++ leBytes 2 dst ++ leBytes 4 perm ++ [BitVec.ofNat 8 mode, 1])
def aCopy : WCopy := match weaveCheck weaveState (weaveCmd 1 2 0x01 1) 0 with
  | .copy w => { w with serial := 1 }
  | _ => { serial := 0, cmd := weaveCmd 1 2 0x01 1, cn := 0, srcId := 1, dstId := 2, src := aDesc0 0 0 0 [], dst := aDesc0 0 0 0 [], perm := [], reshape := false }

/-- Chapter 12's element: document 5, dimension 11 of S (768, 32) under PERM 0x01 is t 357, at (37, 5) of D (64, 384). -/
theorem test_weaver_worked :
    let w : WCopy := { aCopy with src := aDesc0 0x11 1 0 [768, 32], dst := aDesc0 0x11 2 0 [64, 384], perm := [1, 0], reshape := true }
    w.coords 357 = ([11, 5], [37, 5]) := by decide +kernel

theorem witness_weaver :
    let run := fun (w : WCopy) (n : Nat) => { weaveState with weave := { units := [(0, { queue := [w], active := List.replicate n w })], next := 2 } }
    (weaveCmd 1 2 0x01 1).context weaveState = some weaveCtx ∧ aCopy.perm.Perm (List.range aCopy.src.rank) ∧ 11 < aCopy.count ∧
    (match weaveCheck weaveState (weaveCmd 1 2 0x01 1) 0 with | .copy w => w.count == 12 | _ => false) = true ∧
    (match weaveCheck weaveState (weaveCmd 1 3 0x01 1) 0 with | .refused c => c == Code.OVERLAP | _ => false) = true ∧
    (match weaveCheck weaveState (weaveCmd 4 4 0x10 0) 0 with | .nothing b => !b | _ => false) = true ∧
    (match weaveCheck weaveState (weaveCmd 5 5 0x10 0) 0 with | .nothing b => b | _ => false) = true ∧
    (weaver weaveState 0).queue.length < 32 ∧ weaveState.io.enabled (bWeaver 0) = true ∧
    (∀ n, n < 4 → (weaver (run aCopy n) 0).queue = [aCopy] ∧ (weaver (run aCopy n) 0).active.length = n) ∧
    (let s := run aCopy 1
     (weaver s 0).active.find? (fun w => w.serial == 1) = some aCopy ∧ aCopy.elems.findSome? (weaveFault s aCopy) = none ∧ aCopy.dst.tier ≠ 0 ∧
       (∀ x ∈ aCopy.elems, ∀ y ∈ aCopy.elems, x ≠ y → aCopy.dst.addrOf x.e + 4 ≤ aCopy.dst.addrOf y.e ∨ aCopy.dst.addrOf y.e + 4 ≤ aCopy.dst.addrOf x.e) ∧
       ∀ x ∈ aCopy.elems, ∀ y ∈ aCopy.elems, aCopy.src.addrOf x.i + 4 ≤ aCopy.dst.addrOf y.e ∨ aCopy.dst.addrOf y.e + 4 ≤ aCopy.src.addrOf x.i) ∧
    (let bad := { aCopy with dst := { aCopy.dst with base := 0xFFFFFFFFFF000 } }
     bad.elems.findSome? (weaveFault (run bad 1) bad) = some (Code.TIER_OFFLINE, 0xFFFFFFFFFF000)) ∧
    (let s := { run aCopy 1 with io := { (run aCopy 1).io with notReady := (List.range 8).map (fun h => ⟨.hbm, h⟩) } }
     (aCopy.elems.findSome? (weaveFault s aCopy)).any (fun e => faultWaits e.1) = true) := by decide +kernel

/-! ### Callers -/

/-- A template (Table 13.1): its first byte, its inputs, its timeout and whether it fires on part of them. -/
def tmplBytes (b0 nin timeout part : Nat) : List Byte :=
  [BitVec.ofNat 8 b0, 2] ++ leBytes 2 0 ++ leBytes 4 0 ++ [BitVec.ofNat 8 nin, 0] ++ leBytes 6 0 ++ leBytes 3 timeout ++ [BitVec.ofNat 8 part] ++ leBytes 2 0xFFFF ++
    leBytes 0x52 0 ++ leBytes 24 0
/-- Service 0 with code on every core of die 0, and quotas of four slots. -/
def aService : Service :=
  { num := 0, deadline := false, home := 0, maxCtx := 4, quota0 := 4, quota1 := 4, tmpls := [0, 1, 2], jobs := [], descs := [], tableLen := 16, chains := [],
    code := (List.range 48).map (fun n => (n, 0, 64)), handles := [], charges := [], held := [] }
/-- Template 0 has one port, 1 two, 2 two with a timeout; 3 and 4 are of an expert stage; 5 fires on part. -/
def callState (toks held : List Token) (timers : List Timer) : State :=
  let c : CallerSt :=
    { tmpls := [(0, tmplBytes 1 1 0 0), (1, tmplBytes 1 2 0 0), (2, tmplBytes 1 2 5 0), (3, tmplBytes 0x41 1 0 0), (4, tmplBytes 1 1 0 0), (5, tmplBytes 1 2 5 1)],
      toks := toks, held := held, timers := timers }
  { withCtx (State.reset.setCaller 0 c) with adm := { ctxs := [(0, aCtx)], services := [(0, aService)] } }
def aTok (tmpl port key : Nat) : Token := { die := 0, tmpl := tmpl, port := port, key := key, val := 9, ctx := 0, svc := 0, src := .ring 1 }

theorem witness_tokens :
    (∀ e ∈ [(0, 0), (1, 1)], let k := aTok e.1 e.2 7
      let s := callState [] [] []
      tokenCheck s k = none ∧ k.grp = none ∧ k.hold = none ∧ k.cmd = none ∧ (tmplOf s 0 k.tmpl).kind = 0 ∧ slotFree s 0 0 = true ∧ needsTimer s k = false ∧
        s.io.enabled (bCaller 0) = true ∧ s.io.ready (bCaller 0) = true) ∧
    (let s := callState [aTok 1 0 3] [] []
     let c := s.caller 0
     let k := aTok 1 1 7
     let t := tmplOf s 0 1
     (∀ p, p < t.nin → portQueue { c with toks := c.toks ++ [k] } t 1 p (meetKey t k.key) ≠ []) ∧ windowFull s 0 (flowOf t none) = false) ∧
    (let s := callState [] [] []
     let t := tmplOf s 0 1
     portQueue { s.caller 0 with toks := [aTok 1 1 7] } t 1 0 0 = [] ∧ t.nin = 2) ∧
    tokenCheck (callState [] [] []) (aTok 1 2 7) = some .refused ∧ tokenCheck (callState [] [] []) (aTok 9 0 7) = some .refused ∧
    tokenCheck (callState [] [] []) { aTok 0 0 7 with binding := some ⟨0, 0, 5⟩ } = some .stale ∧
    slotFree (callState [aTok 1 0 1, aTok 1 0 2, aTok 1 0 3, aTok 1 0 4] [] []) 0 0 = false ∧
    (∀ src ∈ [Source.ring 1, .core 3], acceptableHeld (callState [] [{ aTok 0 0 7 with src := src }] []) 0 = some { aTok 0 0 7 with src := src }) ∧
    acceptableHeld State.reset 0 = none ∧ ((onCore {}).setCore 3 { emitDst := some 5 } |>.core 3).emitDst = some 5 := by decide +kernel

theorem witness_operand_timeout : ∀ n ∈ [2, 5],
    let s := callState [aTok n 1 3] [] [⟨.instance_ n 0 0, 0⟩]
    (s.caller 0).timers.any (fun t => t.what == .instance_ n 0 0 && decide (t.left = 0)) = true ∧
    instanceToks s 0 n 0 0 = [none, some (aTok n 1 3)] ∧ (tmplOf s 0 n).partialFire = decide (n = 5) := by decide +kernel

theorem witness_tick_cfg : let off := (bCaller 0).base + Off.caller_TICK_CFG
    writeAllowed State.reset.io .factor (bCaller 0) off = none ∧ (writeAllowed State.reset.io .host (bCaller 0) off).isSome = true := by decide +kernel

/-- A ready task of template 0, and cores 1 and 2 that wait, 2 with the task's context, or run. -/
def readyState (run : CoreRun) : State :=
  let s := callState [] [] []
  let t : Task := { id := 1, die := 0, tmpl := 0, key := 0, opnds := [some (5, 6)], ctx := 0, svc := 0 }
  ((s.mapCaller 0 (fun c => { c with ready := [t] })).setCore 1 { s.core 1 with run := run, startAt := 5 }).setCore 2 { s.core 2 with run := run, lastCn := some 0, startAt := 3 }

theorem witness_dispatch : let t : Task := { id := 1, die := 0, tmpl := 0, key := 0, opnds := [some (5, 6)], ctx := 0, svc := 0 }
    readyOrder (readyState .waiting) 0 = [t] ∧ chooseCore (readyState .waiting) t = some (2, true) ∧ chooseCore (readyState .running) { t with only := some 2 } = some (2, false) ∧
    chooseCore (readyState .between) { t with only := some 50 } = none ∧ preOpens (readyState .waiting) t = [] ∧ (tmplOf (readyState .waiting) 0 0).seq ≠ 1 ∧
    (readyState .waiting).io.bf (bCaller 0) 0x008 10 10 ≠ 1 ∧
    (let s := readyState .waiting
     let v := refillAll (housekeep (dropStale (formRound s 0) 0)) 0
     readyOrder v 0 = [] ++ t :: [] ∧ chooseCore v t = some (2, true)) ∧
    (let s := (readyState .waiting).mapIo (fun io => io.setReg ((bCaller 0).base + 8) 0x400); s.io.bf (bCaller 0) 0x008 10 10 = 1) := by decide +kernel

/-- An expert stage of eight experts, resident in sets of one, or not, with a due batch. -/
def expertState (setFirst : Nat) : State :=
  let e : ExpertStage :=
    { die := 0, stage := 0, svc := 0, base := 0, experts := 8, gatherN := 4, delay := 3, service := false, entry := 3, setFirst := setFirst, perSet := 1,
      roundMin := 2, roundWait := 5, fwdEntry := 4, retTmpl := 0, retPort := 0, pri := 3 }
  { callState [] [] [⟨.expert 0 2 1, 0⟩] with expert := { stages := [e], batches := [⟨1, 0, 3, 2, 0, [aTok 3 0 2]⟩], nextBatch := 2 } }

theorem witness_expert : ∀ f ∈ [0xFF, 0],
    let s := expertState f
    s.expert.batches.find? (fun b => b.die == 0 && b.serial == 1) = some ⟨1, 0, 3, 2, 0, [aTok 3 0 2]⟩ ∧
    (stageOf s 0 3).any (fun e => decide (e.pri < 8) && (s.caller 0).timers.any (fun t => t.what == .expert e.stage 2 1 && decide (t.left = 0)) &&
      decide (expertSet e 2 = if f = 0 then some 2 else none)) = true := by decide +kernel

theorem witness_round :
    let t : Task := { id := 1, die := 0, tmpl := 3, key := 0, opnds := [some (2, 9)], ctx := 0, svc := 0, pri := some 3 }
    let f : FiredBatch := ⟨0, 2, t, 0, 4, 5, 2⟩
    let s := { callState [] [] [⟨.round 2, 0⟩] with expert := { fired := [f] } }
    s.expert.fired.find? (fun f => f.die == 0) = some f ∧ s.expert.rounds.any (fun r => r.die == 0) = false ∧
    (s.caller 0).timers.any (fun t => t.what == .round 2 && decide (t.left = 0)) = true ∧ (∀ b ∈ waitingBatches s 0 2, b.task.die = 0) ∧
    (let u := { s with expert := { s.expert with rounds := [⟨0, 1, [7]⟩] } }; u.expert.rounds.any (fun r => r.die == 0) = true) := by decide +kernel

/-! ### Admission -/

/-- A deadline template with a budget. -/
def dlTmpl (budget : Nat) : List Byte := ((tmplBytes 1 1 0 0).set 1 8).set 12 (BitVec.ofNat 8 budget)
/-- A stage on cluster 3 that reads `bytes` a job from stack 2 (Table 14.3). -/
def dlStage (tmpl subdl bytes : Nat) : List Byte :=
  leBytes 2 tmpl ++ [3, 0] ++ leBytes 4 subdl ++ leBytes 20 0 ++ [if bytes = 0 then 0 else 1] ++ leBytes 19 0 ++
    (if bytes = 0 then [] else [7, 0] ++ leBytes 2 2 ++ leBytes 4 0 ++ leBytes 8 bytes)
/-- An image of one job class (Tables 14.2, 14.3). -/
def dlImage (period burst dl ns : Nat) (stages : List Byte) : List Byte :=
  let n := 96 + stages.length
  let f := fun (crc : Nat) => [1, 1] ++ leBytes 2 1 ++ leBytes 4 n ++ leBytes 4 64 ++ leBytes 4 64 ++ leBytes 4 64 ++ leBytes 2 4 ++ [0, 0] ++ leBytes 4 16 ++ leBytes 4 16 ++
    leBytes 4 crc ++ leBytes 28 0 ++ (leBytes 2 1 ++ [BitVec.ofNat 8 ns, 1] ++ leBytes 4 period ++ leBytes 2 burst ++ leBytes 2 0 ++ leBytes 4 dl ++ leBytes 16 0 ++ stages)
  f (Hash.crc32c 0 (f 0))
/-- Chapter 14's services A and B. -/
def imageA : List Byte := dlImage 1000 4 10000 2 (dlStage 1 4000 49152 ++ dlStage 2 6000 0)
def imageB (bytes : Nat) : List Byte := dlImage 500 1 1500 1 (dlStage 3 1500 bytes)
def sectionsA : Sections := { tmpls := [(0, 1, dlTmpl 9), (0, 2, dlTmpl 4)], code := leBytes 64 0 }
def sectionsB : Sections := { tmpls := [(0, 3, dlTmpl 2)] }
def withFeat (f : Nat) (s : State) : State := { s with io := (s.io.setReg64 (bGlb.base + Off.glb_FEAT_LO) f).setReg (bGlb.base + Off.glb_NEG_STAT) 2 }

/-- Service A is admitted with its entries of chapter 14; then B is refused with MEM_BW, or passes with two guard cores. -/
theorem test_admission_worked :
    okAnd ((admTest (withFeat 0x117 State.reset) imageA sectionsA).mapError AdmFail.code) (fun p =>
      (p.ents.filter (fun e => decide (4 ≤ e.kind ∧ e.kind ≤ 7))).map (fun e => (e.kind, e.g, e.inst, e.util, e.slack)) == [(4, 1, 3, 693333, 6535), (7, 1, 2, 2457, 997108)] &&
      errAnd ((admTest (install (withFeat 0x117 State.reset) p sectionsA) (imageB 8500000) sectionsB).mapError (fun f =>
        if f = { code := Code.MEM_BW, kind := 7, inst := 2, ceil := 85, g := 1, lhs := 17049152, rhs := 17000000 } then 1 else 0)) (fun c => c == 1) &&
      okAnd ((admTest (install (withFeat 0x117 State.reset) p sectionsA) (imageB 8400000) sectionsB).mapError AdmFail.code) (fun q =>
        q.ents.any (fun e => e.kind == 4 && e.g == 2) && ((chargesOf (withFeat 0x117 State.reset) none ++ q.svc.charges).all (fun c => decide (1 ≤ c.cls.period))))) = true := by
  decide +kernel

/-- A region of the control ring that holds an image at 0x100 and takes the record at 0x1000. -/
def admState (perm : Nat) (img : List Byte) : State :=
  let s := withFeat 0x117 State.reset
  let r : Region := { gen := 1, used := true, tier := 1, base := 0x10000, len := 0x10000, perm := perm, owner := 0 }
  { s with mem := s.mem.putBytes 0x10100 img, adm := { regions := [(1, r)] } }
def admCmd (off rec_ : Nat) : Cmd := { aCmd 0x20 (leBytes 8 65537 ++ leBytes 8 off ++ leBytes 8 rec_) with ring := 0 }

theorem witness_admission_commands :
    (∀ img ∈ [imageA, imageA.set 70 9],
      let s := admState 3 img
      let c := admCmd 0x100 0x1000
      let n : Namer := ⟨c.ring, c.issuerSvc s⟩
      s.io.enabled bAdmit = true ∧ c.p 0x20 8 = 0x1000 ∧ fieldAt img 4 4 = img.length ∧ 64 ≤ img.length ∧
      (regionOf s (c.p 0x10 4)).any (fun r => scopeOk r n && bitOf r.perm 1 && decide (0x1000 + 64 + 16384 ≤ r.len) &&
        decide (tFault s r.tier (r.base + 0x1000) 64 true = none)) = true ∧
      okAnd (regionRead s n (c.p 0x10 4) (c.p 0x18 8) 64) (fun b => decide (b = some (img.take 64))) = true ∧
      okAnd (regionRead s n (c.p 0x10 4) (c.p 0x18 8) img.length) (fun b => decide (b = some img)) = true ∧
      (admTest s img sectionsA).toOption.isSome = decide (img = imageA)) ∧
    regionOf State.reset ((admCmd 0x100 0x1000).p 0x10 4) = none ∧ (admCmd 0x100 0x1001).p 0x20 8 % 64 ≠ 0 ∧
    (let s := admState 3 imageA
     let c : Cmd := { admCmd 0x100 0x1000 with ring := 1 }
     (regionOf s (c.p 0x10 4)).any (fun r => !scopeOk r ⟨c.ring, 0⟩) = true ∧
       errAnd (regionRead s ⟨0, 0⟩ 65537 0xFFF0 64) (fun _ => true) = true ∧ (Io.enabled (s.io.setReg (bAdmit.base + 8) 1) bAdmit = true)) ∧
    (let r : Region := { gen := 1, used := true, tier := 4, base := 0x10000, len := 0x10000, perm := 3, owner := 0 }
     let s := { admState 3 imageA with adm := { regions := [(1, r)] }, host := { bme := true, unmapped := [16], atsEn := true, priEn := true } }
     okAnd (regionRead s ⟨0, 0⟩ 65537 0 64) (fun b => b.isNone) = true) := by decide +kernel

/-- Services 0, best-effort, and 1, deadline, and contexts in each state. -/
def ctxState : State :=
  let y := fun (cn svc : Nat) (st : CtxState) (k : Option Nat) => { aCtx with cn := cn, svc := svc, st := st, slot := k }
  { withFeat 0x117 State.reset with adm :=
    { services := [(0, { aService with maxCtx := 9 }), (1, { aService with num := 1, deadline := true }), (2, { aService with num := 2 })],
      ctxs := [(0, y 0 0 .live (some 1)), (1, y 1 1 .pinned (some 2)), (2, y 2 0 .parked none), (3, y 3 0 .waking none), (4, y 4 0 .closing none)],
      slots := [(1, 0), (2, 1)], waking := [3], nextCn := 5 } }

theorem witness_contexts :
    let s := ctxState
    (∀ e ∈ [(0, CtxState.live), (1, .pinned), (2, .parked), (3, .waking), (4, .closing)], (s.ctx? e.1).any (fun y => decide (y.cn = e.1 ∧ y.st = e.2)) = true) ∧
    s.ctx? 9 = none ∧ s.service? 9 = none ∧ (s.service? 0).any (fun v => decide (v.num = 0)) = true ∧ ctxsOf s 0 ≠ [] ∧ ctxsOf s 2 = [] ∧
    s.io.enabled bAdmit = true ∧ errAnd (ctxCreateCheck s 9) (fun c => c == Code.NO_SERVICE) = true ∧
    (∀ n ∈ [0, 1], okAnd (ctxCreateCheck s n) (fun x => decide ((x.2.bind s.ctxOfSlot) = none ∧ x.1.deadline = decide (n = 1))) = true) ∧
    s.adm.waking = 3 :: [] ∧ freeUnreserved s = some 3 ∧ (winnable s).isSome = true := by decide +kernel

theorem witness_deadline_miss :
    (∀ e ∈ [(false, 5), (true, 5), (false, 20)],
      let t : Task := { id := 7, die := 0, tmpl := 0, key := 0, opnds := [], ctx := 0, svc := 0, missed := e.1, deadline := some e.2 }
      let s := (State.reset.mapCaller 0 (fun c => { c with ready := [t] })).mapIo (fun io => { io with tb := 10 })
      ((s.caller 0).ready ++ (s.caller 0).next.map Prod.snd ++ s.cores.filterMap (fun e => e.2.task)).find? (fun t => t.die == 0 && t.id == 7) = some t ∧ s.io.tb = 10) ∧
    (∀ o ∈ [Off.admit_ADM_CEIL, Off.admit_POWER_LIMIT], writeAllowed State.reset.io .host bAdmit (bAdmit.base + o) = none) := by decide +kernel

/-! ### Rings, commands and flows -/

/-- Ring 1 of 16 entries in BAR2 with `n` NOPs written, as context 0's; `held` records of its completion ring. -/
def ringState (r : Ring) (entry : List Byte) : State :=
  let s := withFeat 0x117 State.reset
  { s with mem := s.mem.putRing (r.sqBase + 64 * r.sqHead) entry, host := { s.host with rings := [(1, r), (0, r)] }, adm := { ctxs := [(0, aCtx)], slots := [(1, 0)] } }
def aRing : Ring := { sqBase := 0, sqLog2 := 4, sqBar2 := true, cqBase := 0x400, cqLog2 := 4, cqBar2 := true, sqTail := 1 }
def entryBytes (op ctx : Nat) : List Byte := [1, BitVec.ofNat 8 op, 0, 0] ++ leBytes 4 ctx ++ leBytes 8 7 ++ leBytes 48 0

theorem witness_rings :
    (∀ r ∈ [aRing, { aRing with cqTail := 15 }, { aRing with cqTail := 14 }, { aRing with held := [([], false)] }, { aRing with cqTail := 15, cqHead := 15 }],
      (ringState r []).ring? 1 = some r) ∧
    aRing.unconsumed + 1 < 2 ^ 4 ∧ ({ aRing with cqTail := 15 } : Ring).unconsumed + 1 = 2 ^ 4 ∧
    mayTake (ringState aRing (entryBytes 1 1)) 1 aRing = true ∧ mayTake (ringState aRing (entryBytes 1 1)) 1 { aRing with sqTail := 0 } = false ∧
    (∀ e ∈ [(0, 0x11, Code.BAD_VERSION), (1, 0xFF, Code.BAD_OPCODE)],
      let bs := (entryBytes e.2.1 1).set 0 (BitVec.ofNat 8 e.1)
      envelopeCheck (ringState aRing bs) bs (parseCmd bs 1 0) (some 1) none = some e.2.2) ∧
    (let bs := entryBytes 0x10 0; envelopeCheck (ringState aRing bs) bs (parseCmd bs 0 0) (some 0) none = some Code.NO_SERVICE ∧ (paramSpans 0x10).isSome = true) ∧
    (let bs := entryBytes 0x25 1; envelopeCheck (ringState aRing bs) bs (parseCmd bs 1 0) (some 1) none = some Code.CTRL_ONLY) ∧
    (let bs := entryBytes 1 1; envelopeCheck (ringState aRing bs) bs (parseCmd bs 1 0) (some 1) none = none) := by decide +kernel

/-- BAR2: slot 1 holds context 0 with rings set, slot 2 none, and slot 0 the control rings or none. -/
theorem witness_bar2 :
    let s := ringState { aRing with sqHead := 3 } []
    railsUp s = true ∧ s.cnOfSlot 1 = some 0 ∧ (s.ring? 1).isSome = true ∧ s.cnOfSlot 2 = none ∧ (s.ring? 0).isSome = true ∧ (State.reset.ring? 0).isSome = false ∧
      (∀ a ∈ [0x1000, 0x1008, 0x1010], a < 0x1000000 ∧ a % 8 = 0) ∧ goodForm 0x1002 4 = false ∧ goodForm 0x1004 8 = false ∧ goodForm 0 2 = false ∧
      (∀ a ∈ [0x1000000, 0x3FEFFFF], inArea a = true) ∧ inArea 0xFFFFFF = false ∧ inArea 0x3FF0000 = false ∧
      (∀ a ∈ [0x3FF0000, 0x3FF7FFC, 0x3FF8000, 0x3FFFFFC], 0x3FF0000 ≤ a ∧ a < 0x4000000 ∧ a % 4 = 0) := by decide +kernel

/-- Table 16.3: RING_STAT of a bound slot shows BOUND and SQ_HEAD. -/
theorem test_ring_stat :
    (match exec (.ringAreaAccess 0x1010 4 none) (ringState { aRing with sqHead := 3 } []) with
      | .next t => t.io.readBytes == [3, 0, 0, 0x80]
      | _ => false) = true := by decide +kernel
/-- R547: an 8-byte write of a doorbell page is the doorbells of its words, and one of 2 bytes is refused. -/
theorem test_doorbell_forms :
    (match exec (.ringAreaAccess 0x1000 0 (some [5, 0, 0, 0, 2, 0, 0, 0])) (ringState aRing []) with
      | .next t => (t.ring? 1).any (fun r => r.sqTail == 5 && r.cqHead == 2)
      | _ => false) = true ∧
    (match exec (.ringAreaAccess 0x1000 2 none) (ringState aRing []) with
      | .next t => t.io.readBytes == [0xFF, 0xFF, 0xFF, 0xFF] && t.io.br bCtxt 0x01C % 65536 == Code.BAD_ACCESS
      | _ => false) = true := by decide +kernel

/-- Service 0 with a chain whose head is template 6 of two ports, and its ring's commands. -/
def fusedState (toks : List Token) : State :=
  let t := ((tmplBytes 1 2 0 0).set 0x14 3).set 0x15 0
  let ch : Chain := { id := 3, svc := 0, stages := [{ kind := 1, tmpl := 6, entries := 4, bytes := 64 }, { kind := 3 }], bufs := [0] }
  let s := callState toks [] []
  { s.mapCaller 0 (fun c => { c with tmpls := c.tmpls ++ [(6, t)] }) with adm := { s.adm with services := [(0, { aService with chains := [ch] })] } }
def fusedCmd (op : Nat) (ps : List Byte) : Cmd := { aCmd op ps with ring := 1 }

theorem witness_commands :
    (let s := fusedState []
     let c := fusedCmd 0x10 (leBytes 2 3 ++ [2])
     let x := (s.service? (c.issuerSvc s)).bind (fun v => v.chains.find? (fun x => x.id == c.p 0x10 2))
     x.any (fun x => decide ((x.stage 0).tmpl / 32768 = 0 ∧ (x.stage 0).tmpl % 16384 = 6)) = true ∧ c.op = 0x10 ∧ c.issuerSvc s = 0 ∧
       (tmplOf s 0 6).nin = 2 ∧ (tmplOf s 0 6).chain = 3 ∧ (tmplOf s 0 6).stage = 0 ∧ (tmplOf s 0 6).flowMode = 0 ∧ windowFull s 0 (flowOf (tmplOf s 0 6) none) = false ∧
       classOfPut s 0 0 6 = none ∧ (slotHolders s 0).length = 0 ∧ (slotHolders (fusedState [aTok 1 0 1, aTok 1 0 2, aTok 1 0 3]) 0).length = 3) ∧
    ((fusedState []).service? ((fusedCmd 0x10 [9]).issuerSvc (fusedState []))).bind (fun v => v.chains.find? (fun x => x.id == (fusedCmd 0x10 [9]).p 0x10 2)) = none ∧
    (∀ n ∈ [0, 1, 2, 3], (fusedCmd 0x12 [BitVec.ofNat 8 n]).p 0x10 1 = n) ∧
    (let t : Task := { id := 7, die := 0, tmpl := 0, key := 0, opnds := [], ctx := 0, svc := 0 }
     let a := State.reset.mapCaller 0 (fun c => { c with ready := [t] })
     let b := onCore { run := .running, task := some t }
     liveTasks a (fun t => t.id == 7) = [(t, none)] ∧ liveTasks b (fun t => t.id == 7) = [(t, some 0)] ∧ liveTasks a (fun t => t.id == 8) = [] ∧ t.inst = none ∧
       (housekeep (cancelTasks a (fun t => t.id == 7)).1).adm.cancels = [] ∧ ((housekeep (cancelTasks a (fun t => t.id == 7)).1).cores.filter (fun e => e.2.fence)) = [] ∧
       (let v := a.setCore 3 { fence := true }; (v.cores.filter (fun e => e.2.fence)).map Prod.fst = [3])) ∧
    (let r : CmdRun := { cmd := fusedCmd 1 [], started := false }
     (∀ e ∈ [r].takeWhile (fun q => !(q.cmd.ring == 1 && q.cmd.pos == 0)), e.cmd.ring ≠ 1) ∧
       ∃ e ∈ [{ r with cmd := { r.cmd with pos := 5 } }, r].takeWhile (fun q => !(q.cmd.ring == 1 && q.cmd.pos == 0)), e.cmd.ring = 1) := by decide +kernel

/-- A flow with one ended position, then one that has not ended. -/
def flowState (ended : Bool) : State :=
  State.reset.mapCaller 0 (fun c => { c with flows := [(3, { assigned := true, next := 2, rel := 0, window := [{ pos := 0, ctx := 0, ended := ended }, { pos := 1, ctx := 0 }] })] })

theorem witness_flows :
    (∀ e, (smGet {} 3 ((flowState e).caller 0).flows).window = [{ pos := 0, ctx := 0, ended := e }, { pos := 1, ctx := 0 }]) ∧
    (releaseOne (housekeep (flowState false)) 0 3).isNone = true ∧
    (releaseOne (housekeep (flowState true)) 0 3).any (fun v => decide ((smGet {} 3 (v.caller 0).flows).window.length <
      (smGet {} 3 ((housekeep (flowState true)).caller 0).flows).window.length)) = true := by decide +kernel

theorem witness_doorbells :
    (∀ o ∈ [Off.ctxt_CTRL_SQ_BASE_LO, Off.ctxt_CTRL_CQ_BASE_LO, Off.ctxt_CTRL_RING],
      writeAllowed State.reset.io .host bCtxt (bCtxt.base + o) = none ∧ negState State.reset.io ≠ 2 ∧ negState (withFeat 0 State.reset).io = 2) ∧
    (let s := ringState aRing []
     dbRing s 0 0 = some (0, aRing) ∧ dbRing s 1 0 = some (1, aRing) ∧ dbRing s 1 5 = none ∧ dbRing s 2 0 = none ∧ s.cnOfSlot 1 = some 0) ∧
    (let s := { ringState aRing [] with host := {} }
     let c := aCmd 0x26 (leBytes 2 0 ++ [4, 4] ++ leBytes 2 5 ++ [3, 0] ++ leBytes 8 0x1002000 ++ leBytes 8 0x1004000)
     s.ctx? (c.p 0x10 2) = some aCtx ∧ ringSetCheck s c = none ∧ aRing.sqHead ≠ aRing.sqTail ∧ ringSetCheck s (aCmd 0x26 (leBytes 2 0 ++ [1])) = some Code.RING_RANGE ∧
       s.ctx? 9 = none ∧ ((ringState aRing []).ctx? 0).isSome = true ∧ (ringState aRing []).ring? 1 = some aRing) ∧
    (let r := { aRing with pend := 2, modTime := 1, pendAt := 0 }
     let s := (ringState r []).mapIo (fun io => { io with tb := 100 })
     s.ring? 1 = some r ∧ r.armed = true ∧ r.pend ≠ 0 ∧ r.modTime ≠ 0 ∧ r.pendAt + 100 * r.modTime ≤ s.io.tb) ∧
    (fnMaskOff < 0x3FF0000 ∨ fnMaskOff ≥ 0x3FF8000) := by decide +kernel

theorem witness_host_pages :
    (let s := { State.reset with host := { bme := true, invs := [(0, 5)], priPages := [16], unmapped := [16], atsEn := true, priEn := true } }
     transUsed s 0 5 = false ∧ 16 ∈ s.host.priPages.take 512 ∧ 17 ∉ s.host.priPages.take 512 ∧ hostFault s.host 16 false = some Code.HOST_NOT_PRESENT) ∧
    (let h : HostSt := { priStopped := true, unmapped := [16] }; h.priStopped = true ∧ h.cplErr = false ∧ 16 ∈ h.unmapped) ∧
    (let r := { aRing with sqBar2 := false }
     let s := { ringState r [] with host := { (ringState r []).host with bme := true } }
     s.ring? 1 = some r ∧ mayTake s 1 r = true ∧ r.sqBar2 = false) ∧
    (let s := { State.reset with fetch := { lines := [{ core := 2, st := 3, inst := 1, ord := 0, idx := 0, write := false, tier := 4, addr := 576, key := 0, issued := 0, path := [] }] } }
     (s.fetch.lines.find? (fun r => decide (r.core = 2) && decide (r.st = 3) && decide (r.tier = 4) && !r.write)).isSome = true) := by decide +kernel

/-! ### Sessions, links and power -/

/-- Context 0 of service 0 with an ingress ring of 64 KiB and session 37 with a credit, forwarding or not. -/
def sessState (q : Sess) : State :=
  let s := callState [] [] []
  let r : Region := { gen := 1, used := true, tier := 1, base := 0x100000, len := 0x10000, perm := 3, owner := 1 }
  { s with
    host := { rings := [(1, { aRing with inRegion := 65537 })], sess := [(37, q)], ing := [(0, { tail := 47232, recs := [], resv := [(37, 65536)] })], bme := true },
    adm := { s.adm with ctxs := [(0, aCtx)], slots := [(1, 0)], services := [(0, aService)], regions := [(1, r)] } }
def aSess (st : Nat) (unacked : List (Nat × List Byte)) : Sess :=
  { st := st, cn := 0, tmpl := 0, die := 0, port := 0, eth := 0, rqpn := 0, mtu := 5, psnRx := 0, dscp := 0, rgid := 0, maxMsg := 16384, psnTx := 0, prio := 0,
    classId := 0xFFFF, rnrTimer := 0, ackTo := 0, sgid := 0, flow := some 2, msgs := 4, unacked := unacked }
/-- A SESS_BIND of session 38 to template 0. -/
def bindCmd (n : Nat) : Cmd :=
  { aCmd 0x27 (leBytes 2 n ++ leBytes 2 0 ++ leBytes 2 0 ++ [0, 0] ++ leBytes 3 0 ++ [5] ++ leBytes 20 0 ++ leBytes 4 16384 ++ leBytes 3 0 ++ [0] ++ leBytes 2 0xFFFF) with ring := 0 }

/-- Chapter 16's ingress ring of 64 KiB: messages of at most 16 KiB never wrap, and message 4 goes to the tail, 47,232. -/
theorem test_ingress_worked : placeAt 65536 16384 47232 = 47232 ∧ placeAt 65536 16384 62272 = 65536 := by decide +kernel

theorem witness_sessions :
    (let s := sessState (aSess 1 [])
     smFind 37 s.host.sess = some (aSess 1 []) ∧ smFind 38 s.host.sess = none ∧ inRegion s 0 = some (65536, 0x100000) ∧ (∃ e ∈ (ingress s 0).resv, e.1 = 37) ∧
       (aSess 1 []).classId = 0xFFFF ∧ (aSess 1 []).fwd = none ∧ (∀ r ∈ (ingress s 0).recs, r.src ≠ 37) ∧
       okAnd (sessBindCheck s (bindCmd 38)) (fun x => x.1 == aCtx && decide (x.2 < 8192)) = true ∧ errAnd (sessBindCheck s (bindCmd 37)) (fun c => c == Code.SESS_RANGE) = true ∧
       errAnd (sessBindCheck s (bindCmd 16384)) (fun c => c == Code.SESS_RANGE) = true) ∧
    (let q := { aSess 1 [(5, [1]), (7, [2])] with fwd := some (3, 4), credits := 1, rate := 1000, lastCnpRx := some 0, lastCnpTx := some 0, retries := 7 }
     let s := (sessState q).mapIo (fun io => { io with tb := 5500 })
     smFind 37 s.host.sess = some q ∧ q.unacked ≠ [] ∧ q.rate < 1048576 ∧ 5500 ≤ s.io.tb ∧ 2 ^ 23 ≤ (5 + 2 ^ 24 - 7) % 2 ^ 24) ∧
    (State.reset.host.ethUp.contains 0 = false ∧ (⟨.eth, 0⟩ : Block) = bEth 0) ∧
    (let s := State.reset.mapIo (fun io => io.setReg (bTime.base + Off.time_PTP_CTRL) 3)
     s.io.bf bTime Off.time_PTP_CTRL 0 0 = 1 ∧ s.io.bf bTime Off.time_PTP_CTRL 1 1 = 1 ∧ s.host.ptpSec < 2 ^ 64 ∧ s.host.ptpNs < 2 ^ 32 ∧ s.io.tb < 2 ^ 64 ∧
       writeAllowed s.io .host bTime (bTime.base + Off.time_SNAP) = none) := by decide +kernel

theorem witness_power :
    (∀ p, p < 2 → State.reset.io.bf ⟨.cxl, p⟩ Off.cxl_LINK 31 31 = 1 ∧ p ∈ State.reset.mem.cxlUp) ∧ State.reset.mem.cxlRaw.length = 2 ∧
    (let s := State.reset.mapIo (fun io => io.setReg ((⟨.cxl, 0⟩ : Block).base + Off.cxl_LINK) 0)
     s.io.bf ⟨.cxl, 0⟩ Off.cxl_LINK 31 31 ≠ 1 ∧ (⟨.cxl, 0⟩ : Block) ∉ s.mem.lost) ∧
    (let s := withCtx { State.reset with rst := { State.reset.rst with power := .d3pend } }
     s.rst.power = .d3pend ∧ (∀ e ∈ s.adm.ctxs, ctxActive s e.1 = false) ∧
       (let u := { s with call := (s.mapCaller 0 (fun c => { c with ready := [aTask] })).call }; ∃ e ∈ u.adm.ctxs, ctxActive u e.1 = true)) := by decide +kernel

/-- Link 0 in a state, with two flits not acknowledged. -/
def linkState (st rx : Nat) (nak : Bool) : State :=
  State.reset.setLink 0 { st := st, rxSeq := rx, nakSent := nak, txSeq := 2, unacked := [⟨0, 1, 0, [1], 0⟩, ⟨1, 1, 0, [2], 8⟩] }

theorem witness_links :
    (flitBytes 5 1 1 0 0 0 (leBytes 242 7)).length = 256 ∧ flitBad (flitBytes 5 1 1 0 0 0 (leBytes 242 7)) false = false ∧ flitBad (flitBytes 5 1 1 0 0 0 []) true = true ∧
    (∀ k, k < 4 → flitKind (flitBytes 5 k 1 0 0 0 []) = k ∧ flitSeq (flitBytes 5 k 1 0 0 0 []) = 5) ∧
    (∀ st, st < 6 → ((linkState st 5 false).link 0).st = st ∧ ((linkState st 5 true).link 0).nakSent = true ∧ ((linkState st 5 true).link 0).rxSeq = 5) ∧
    (∃ f ∈ ((linkState 4 0 false).link 0).unacked, 8 ≤ f.replays) ∧ (∀ f ∈ (((linkState 4 0 false).link 0).unacked.take 1), f.replays < 8) ∧
    State.reset.io.enabled (bLink 0) = true ∧ (State.reset.mapIo (fun io => io.setReg ((bLink 0).base + 8) 0)).io.enabled (bLink 0) = false ∧
    ((State.reset.setLink 0 { waitRetry := true }).link 0).waitRetry = true ∧
    (let h := leBytes 1 1 ++ leBytes 1 1 ++ leBytes 6 0 ++ leBytes 8 9 ++ leBytes 2 3
     let s := State.reset.setLink 0 { st := 3, hello := h, same := 1 }
     h = (s.link 0).hello ∧ 1 ≤ (s.link 0).same ∧ 1 ≤ min 1 (fieldAt h 0 1) ∧ fieldAt h 1 1 ≤ 1) := by decide +kernel

/-- Of two hellos one at least has another UID than the device's, which the part fixes. -/
theorem witness_hello : ∃ n ∈ [9, 10], fieldAt (leBytes 1 1 ++ leBytes 1 1 ++ leBytes 6 0 ++ leBytes 8 n ++ leBytes 2 3) 8 8 ≠ ownUid State.reset := by
  have h : fieldAt (leBytes 1 1 ++ leBytes 1 1 ++ leBytes 6 0 ++ leBytes 8 9 ++ leBytes 2 3) 8 8 = 9 ∧
      fieldAt (leBytes 1 1 ++ leBytes 1 1 ++ leBytes 6 0 ++ leBytes 8 10 ++ leBytes 2 3) 8 8 = 10 := by decide +kernel
  by_cases e : ownUid State.reset = 9
  · exact ⟨10, by decide, by rw [h.2, e]; decide⟩
  · exact ⟨9, by decide, by rw [h.1]; omega⟩

/-! ### Fabric -/

/-- Device 2 of the fabric, READY, with link 0 UP, a route to device 5, group 1 of 2 and 5, inbox 7 of context 0, an own table of the group, and descriptors. -/
def fabState0 : State :=
  let s := withFeat 0x1FF (sessState (aSess 1 []))
  let d := fun (et fl base : Nat) (sz : List Nat) => ({ aDesc0 et fl base sz with tier := 1 } : Desc)
  let s := (s.mapIo (fun io => io.setReg (bReel.base + Off.reel_FAB_STAT) (2 * 2 ^ 28 + 2 ^ 27 + 2))).setLink 0 { st := 4 }
  let box : Inbox := { svc := 0, cn := 0, tmpl := 0, die := 0, port := 0, maxMsg := 16384, classId := 0xFFFF, group := 1, flow := some 3 }
  let c := { aCtx with descs := [(1, ⟨d 0x03 1 0x20000 [2], false⟩), (2, ⟨d 0x11 1 0x30000 [4, 2], false⟩), (3, ⟨d 0x11 2 0x40000 [4, 2], false⟩), (4, ⟨d 0x11 2 0x50000 [4, 1], false⟩)] }
  let tab : List Byte := ((((aTab 1 2 1 12).set 0x1E 2).set 0x34 1))
  { s with
    mem := (s.mem.putByte 0x20000 2).putByte 0x20002 5,
    adm := { s.adm with ctxs := [(0, c)] },
    host := { s.host with ing := [(0, { resv := [(2 ^ 20 + 7 * 4096 + 5, 16384)] })] },
    egp := { dir := [(0, tab)], binds := [(0, 5, 0)] },
    fab := { s.fab with routes := [(5, { links := [0], hops := 1 })], groups := [(1, ⟨0, [2, 5]⟩)], inboxes := [(7, box)], db := [(9, ⟨3, 5, []⟩)],
                        addrs := [(9, { addr := 5, seen := 0 })], rootUid := 9 } }
def aPkt (type flow eseq arg : Nat) (payload : List Byte) : Pkt := { dst := 2, src := 5, type := type, vc := 0, flow := flow, eseq := eseq, poison := 0, arg := arg, payload := payload }
def fabCmd (op : Nat) (ps : List Byte) : Cmd := { aCmd op ps with ring := 1 }
def aColl (c : Cmd) : Coll :=
  { group := 1, inst := 1, cmd := c, cn := 0, start := ⟨0, 0, 0x11, 0, 4, groupHash ⟨0, [2, 5]⟩⟩, send := none, recv := none, refs := [], acceptedAt := 0, timeout := 5 }

theorem witness_fabric_database :
    (let s := fabState0
     smFind 9 s.fab.db = some ⟨3, 5, []⟩ ∧ smFind 8 s.fab.db = none ∧ (s.link 0).st = 4 ∧ (s.link 1).st ≠ 4 ∧ ownAddr s = some 2 ∧ upLinks s = [0] ∧
       (smGet {} 5 s.fab.routes).links = [0] ∧ nextHop s 2 5 0 = some 0 ∧ addrUsed s 6 9 = false ∧ addrUsed s 5 8 = true) ∧
    (let s := { fabState0 with fab := { fabState0.fab with addrs := [(9, { addr := 5, seen := 0, gone := true })] } }
     let t := s.mapIo (fun io => { io with tb := s.io.bf bReel Off.reel_HOLD 15 0 * 100000000 })
     smFind 9 t.fab.addrs = some { addr := 5, seen := 0, gone := true } ∧ 0 + t.io.bf bReel Off.reel_HOLD 15 0 * 100000000 ≤ t.io.tb) ∧
    (∀ v, v < 2 → let s := State.reset.mapIo (fun io => io.setReg (bReel.base + Off.reel_ROUTE_CTRL) v)
      writeAllowed s.io .host bReel (bReel.base + Off.reel_ROUTE_ENT) = none ∧ s.io.bf bReel Off.reel_ROUTE_CTRL 0 0 = v) ∧
    writeAllowed State.reset.io .host bReel (bReel.base + Off.reel_FT_SNAP) = none ∧ State.reset.fab.ft / 2 ^ 32 < 2 ^ 64 ∧ State.reset.io.tb < 2 ^ 64 := by decide +kernel

theorem witness_packets :
    (∀ p ∈ [aPkt 0 1 0 0 (leBytes 4 65537 ++ leBytes 68 0), aPkt 2 0x01000001 0 (12 * 2 ^ 32) (leBytes 32 0), aPkt 8 7 0 (16 * 2 ^ 32) (leBytes 16 1)], (e2eAccept fabState0 p).2 = true) ∧
    (let s := { fabState0 with fab := { fabState0.fab with rxSeq := [(pairKey 5 1, 4)] } }
     (e2eAccept s (aPkt 0 1 4 0 [])).2 = true ∧ (e2eAccept s (aPkt 0 1 5 0 [])).2 = false ∧ (e2eAccept s (aPkt 0 1 3 0 [])).2 = false) ∧
    (let p := aPkt 0 1 0 0 (leBytes 4 65537 ++ leBytes 68 0)
     okAnd (pedWrCheck fabState0 p) (fun r => decide (tFault fabState0 r.tier r.base 64 true = none ∧ tHeld fabState0 r.tier r.base = false)) = true ∧
       errAnd (pedWrCheck fabState0 { p with src := 9 }) (fun c => c == Code.REMOTE_DENIED) = true) ∧
    (let p := aPkt 2 0x01000001 0 (12 * 2 ^ 32) (leBytes 32 0)
     okAnd (updCheck fabState0 p 1) (fun x => x.1 == 0 && x.2.state == 1) = true ∧ errAnd (updCheck fabState0 { p with arg := 0 } 1) (fun c => c == Code.STEP_CLOSED) = true) ∧
    ((tabOfGroup fabState0 1).isSome = true ∧ groupOf fabState0 1 = some ⟨0, [2, 5]⟩ ∧ tabOfGroup fabState0 3 = none) ∧
    (let s := { fabState0 with fab := { fabState0.fab with colls := [aColl (fabCmd 0x43 [])] } }
     collOf s 1 1 = some (aColl (fabCmd 0x43 [])) ∧ collOf s 1 2 = none ∧ startsAgree (parseStart (startBytes (aColl (fabCmd 0x43 [])).start)) (aColl (fabCmd 0x43 [])).start = true ∧
       startsAgree (parseStart []) (aColl (fabCmd 0x43 [])).start = false) ∧
    ((smFind 7 fabState0.fab.inboxes).any (fun x => decide (inboxCheck fabState0 7 x 5 16 = none ∧ inboxCheck fabState0 7 x 6 16 = some Code.REMOTE_DENIED ∧
      inboxCheck fabState0 7 x 5 16385 = some Code.MSG_SIZE)) = true ∧ smFind 8 fabState0.fab.inboxes = none) ∧
    (let s := { fabState0 with queue := { egp := [(0, [{ egpReq 4 0 0 1 0 with blk := ((egpBytes 4 0 0 1 0).set 4 2).set 0x2C 5, sent := some (1, 0, 0) }])] } }
     ∃ r ∈ unitQueue s true 0, r.sent.isSome = true ∧ r.serial % 65536 = 1 ∧ fieldAt r.blk 0x2C 2 = 5) ∧
    (let o : OutPkt := ⟨aPkt 0 1 0 0 [], .mark, none⟩
     let s := { fabState0 with fab := { fabState0.fab with routes := [], out := [{ o with p := { o.p with dst := 5 } }] } }
     reachable s 5 = false ∧ s.fab.out.filter (fun o => decide (o.p.dst = 5) && o.link.isNone) ≠ [] ∧ reachable fabState0 5 = true) := by decide +kernel

theorem witness_groups :
    (let s := fabState0
     let c := fabCmd 0x41 (leBytes 2 2 ++ leBytes 2 1 ++ leBytes 2 2)
     okAnd (groupSetCheck s c) (fun l => l == [2, 5]) = true ∧ fabCheck s = none ∧ fabCheck State.reset = some Code.FEATURE_OFF ∧
       errAnd (groupSetCheck s (fabCmd 0x41 (leBytes 2 0 ++ leBytes 2 1 ++ leBytes 2 2))) (fun c => c == Code.FAB_GROUP_BAD) = true ∧ c.issuerSvc s = 0 ∧
       groupInUse s 1 = false) ∧
    (∀ e ∈ [(0, 3), (1, 4)],
      let c := fabCmd 0x43 (leBytes 2 1 ++ [BitVec.ofNat 8 e.1, 0] ++ leBytes 2 2 ++ leBytes 2 e.2 ++ leBytes 4 0 ++ leBytes 4 5)
      okAnd (collCheck fabState0 c) (fun x => x.2.1.isSome && x.2.2.isSome) = true) ∧
    errAnd (collCheck fabState0 (fabCmd 0x43 (leBytes 2 1 ++ [3]))) (fun c => c == Code.COLL_KIND) = true ∧
    (let s := { fabState0 with fab := { fabState0.fab with colls := [aColl (fabCmd 0x43 [])] } }
     let t := s.mapIo (fun io => { io with tb := 5 })
     s.io.tb < 0 + 5 ∧ collOf t 1 1 = some (aColl (fabCmd 0x43 [])) ∧ 0 + 5 ≤ t.io.tb ∧ groupInUse t 1 = true) ∧
    (let c := fabCmd 0x44 (leBytes 2 8 ++ leBytes 2 0 ++ leBytes 2 0 ++ [0, 0] ++ leBytes 4 64 ++ leBytes 2 0xFFFF ++ leBytes 2 1)
     okAnd (inboxBindCheck fabState0 c) (fun f => decide (f < 8192)) = true ∧ errAnd (inboxBindCheck fabState0 { c with param := c.param.set 0 7 }) (fun c => c == Code.INBOX_RANGE) = true) ∧
    ((smFind 7 fabState0.fab.inboxes).any (fun x => x.svc == 0) = true ∧ (∀ r ∈ (ingress fabState0 0).recs, ¬ (2 ^ 20 ≤ r.src ∧ (r.src - 2 ^ 20) / 4096 = 7))) ∧
    (let c := fabCmd 0x46 (leBytes 2 38 ++ leBytes 2 0 ++ leBytes 2 5 ++ [0, 0] ++ leBytes 3 0 ++ [5] ++ leBytes 20 0 ++ leBytes 4 64)
     c.p 0x10 2 < 16384 ∧ smFind (c.p 0x10 2) fabState0.host.sess = none ∧ 3 ≤ c.p 0x1B 1 ∧ c.p 0x1B 1 ≤ 5 ∧ 64 ≤ c.p 0x30 4 ∧ c.p 0x12 2 = c.ring - 1 ∧ reachable fabState0 (c.p 0x14 2) = true) ∧
    ((fabState0.host.sess.map Prod.fst).Nodup ∧
      (((fabState0.host.sess.filter (fun e => decide (e.2.st = 1) && e.2.fwd == some (5, 7))).map (fun f => ((smFind f.1 fabState0.host.sess).map (fun y => y.credits)).getD 0)).sum ≤
        smGet 0 (5 * 65536 + 7) fabState0.fab.credits)) := by decide +kernel

/-- Of two devices one at least is another than this one, and a request of either is seen; without one there is none. -/
theorem witness_requested : (∃ n ∈ [9, 10], requested State.reset [(9, 2 ^ 31 + 6), (10, 2 ^ 31 + 6)] n = some 6) ∧ requested State.reset [] 8 = none := by
  have h : bitOf (State.reset.io.br bReel Off.reel_ADDR_REQ) 31 = false := by decide +kernel
  constructor
  · by_cases e : ownUid State.reset = 9
    · have e' : ¬ 10 = ownUid State.reset := by rw [e]; decide
      refine ⟨10, by decide, ?_⟩
      unfold requested
      simp only [e', if_false]
      decide
    · have e' : ¬ 9 = ownUid State.reset := fun h => e h.symm
      refine ⟨9, by decide, ?_⟩
      unfold requested
      simp only [e', if_false]
      decide
  · unfold requested
    split
    · simp only [h]; rfl
    · decide

/-! ### Factor -/

/-- A mailbox request of an opcode with a payload, and its state in a life-cycle state. -/
def facBytes (op : Nat) (p : List Byte) : List Byte := [BitVec.ofNat 8 op, 0] ++ leBytes 2 p.length ++ leBytes 4 0 ++ p
def facState (lc op : Nat) (p : List Byte) : State := { State.reset with fac := { lc := lc, mbx := some (7, facBytes op p), fuses := { commit := true, owner := some [], opens := if lc = 3 then 6 else 5, closes := 5 } } }

/-- Every opcode is served in a state that allows it, with a payload of its length. -/
theorem witness_factor_requests :
    (∀ e ∈ [(1, 2, []), (2, 2, leBytes 8 0 ++ leBytes 2 1), (2, 4, leBytes 8 0 ++ leBytes 2 62), (3, 2, leBytes 2 960), (3, 2, leBytes 2 1664), (4, 1, [3]),
        (5, 2, leBytes 2 80 ++ leBytes 2 4016), (6, 1, leBytes 2 8 ++ leBytes 2 1 ++ [5]), (6, 3, leBytes 2 0x400 ++ leBytes 2 1 ++ [5]), (6, 1, leBytes 2 0x280 ++ leBytes 2 1 ++ [5]),
        (7, 2, [1]), (8, 2, leBytes 2 0), (9, 2, []), (10, 3, [2, 0]), (10, 2, [3, 0]), (10, 2, [1, 0]), (11, 2, leBytes 2 300), (11, 2, leBytes 2 751)],
      let s := facState e.2.1 e.1 e.2.2
      facRequest s none = some (none, facBytes e.1 e.2.2) ∧ facServes s = true ∧ s.fac.lcRun = none ∧ facCheck s (facBytes e.1 e.2.2) = none ∧ s.fac.cal.length = 2) ∧
    (∀ e ∈ [(0, 2), (12, 2), (6, 2), (8, 1)], (facCheck (facState e.2 e.1 []) (facBytes e.1 [])).isSome = true) ∧
    (lcArc 3 2 = true ∧ lcArc 2 3 = true ∧ lcArc 2 1 = false ∧ lcAuth (facState 3 10 [2, 0]).fac 2 [2, 0] = true ∧ lcAuth (facState 2 10 [3, 0]).fac 3 [3, 0] = false ∧
      (facState 3 10 [2, 0]).adm.services = [] ∧ (facState 3 10 [2, 0]).rst.device = none ∧ (facState 3 10 [2, 0]).fac.fuses.state = 3) ∧
    (writeAllowed State.reset.io .host bFactor (bFactor.base + Off.factor_MBX_DOORBELL) = none ∧ State.reset.fac.mbx = none) := by decide +kernel

/-- Chapter 18's worked transition: five pairs burned and debug open, closing burns the CLOSE fuse and leaves 27 pairs; the next opening leaves 26. -/
theorem test_life_cycle_worked :
    let f : Fuses := { owner := some [], commit := true, opens := 5, closes := 5 }
    f.state = 2 ∧ (lcBurn f 2 3 []).state = 3 ∧ 32 - (lcBurn f 2 3 []).opens = 26 ∧ (lcBurn (lcBurn f 2 3 []) 3 2 []).state = 2 := by decide +kernel

theorem witness_factor_log :
    (let r : EvRec := { ts := 0, src := bFactor, cls := 4, code := 1, ctx := none, addr := 0, info := 0 }
     let l : LogRec := ⟨r, 0, 1, true, false⟩
     let s := { State.reset with fac := { sram := List.replicate 256 l, writing := 64 } }
     256 ≤ s.fac.sram.length ∧ State.reset.fac.sram.length < 63 ∧ s.fac.writing ≤ 64 ∧ s.fac.flash.length + s.fac.writing ≤ 262144) ∧
    (State.reset.rst.vaux = true ∧ facServes State.reset = true ∧ State.reset.fac.eids.length = 2 ∧ 128 ≤ fieldAt [0x81, 1, 0, 9] 0 1 ∧ fieldAt [0x81, 1, 0, 9] 1 1 = 1) ∧
    (∀ id, id ∈ [1, 113] → fieldAt ([0x80, 2, 0x11] ++ leBytes 2 id) 2 1 = 0x11 ∧ fieldAt ([0x80, 2, 0x11] ++ leBytes 2 id) 3 2 = id) ∧
    (let s := { State.reset with fac := { update := some { transport := 1, slot := 1 } } }
     s.fac.update = some { transport := 1, slot := 1 } ∧ s.fac.lcRun = none ∧ 0 + [1, 2].length ≤ 32 * 2 ^ 20 ∧ imageValid s.fac.fuses [] = false ∧ updateSlot s.fac = 1) ∧
    (let s := { State.reset with rst := { State.reset.rst with phase := 7 } }; s.rst.phase = 7) ∧
    (∀ lc, lc = 3 ∨ lc = 4 → tapInternal (.sramRead 95 0 4) = true ∧ tapInternal .boundary = false ∧ 0 + 4 ≤ 2 ^ 22) := by
  refine ⟨by decide +kernel, by decide +kernel, by decide +kernel, by decide +kernel, by decide +kernel, fun _ _ => by decide⟩

/-- Sensors of which two read 115 °C and 30 °C, and one has failed. -/
def hotState : State :=
  let s := { State.reset with fac := { sensors := [(0, { last := 1840, same := 1 }), (1, { last := 480, same := 1 }), (2, { failed := true, same := 1 })], hot := true } }
  s.mapIo (fun io => (io.setReg (sensorOff 0) 1840).setReg (sensorOff 1) 480)

theorem witness_sensors :
    facServes hotState = true ∧ railsUp hotState = true ∧ (thermals hotState 0 72).length = 2 ∧ hottest (thermals hotState 0 72) = some (0, 1840) ∧ thermals State.reset 0 72 = [] ∧
    (hottest (thermals (hotState.mapIo (fun io => io.setReg (sensorOff 0) 1500)) 0 72) = some (0, 1500)) ∧ hotState.fac.hot = true ∧ dutyT hotState.io ≤ 8 ∧ dutyP hotState.io = 8 ∧
    dutyH hotState.io = 8 ∧ (∃ e ∈ thermDies, 2 * (thermals hotState e.1 e.2).length < e.2) := by decide +kernel

/-! ### Resets, event delivery and the step -/

/-- A device reset in progress in a phase. -/
def resetState (cold : Bool) (phase : Nat) : State :=
  { State.reset with rst := { device := some ⟨if cold then .cold else .warm, 5, true⟩, phase := phase, pwrGood := !cold, power := if cold then .standby else .d0 } }
/-- The rails are down: standby supply only, or none of it. -/
def railsDown (vaux : Bool) : State := { State.reset with rst := { pwrGood := false, vaux := vaux, power := if vaux then .standby else .off } }
def isIdle (x : Option ResetRun) : Bool := x.isNone

theorem witness_resets :
    (let off := bClkrst.base + Off.clkrst_RST_CMD
     writeAllowed State.reset.io .host bClkrst off = none ∧ (∃ io, writeAllowed (State.reset.mapIo (fun io => { io with notReady := [bClkrst] })).io .host bClkrst off = some io) ∧
       ∀ t ∈ [0, 1, 2, 11, 12, 95, 96, 255], t < 256) ∧
    (State.reset.rst.vaux = true ∧ (railsDown false).rst.vaux = false ∧ railsUp (railsDown true) = false ∧ (railsDown true).rst.vaux = true ∧ (railsDown true).rst.refOk = true ∧
      railsUp State.reset = true ∧ State.reset.rst.refOk = true ∧ State.reset.rst.vin = true ∧ State.reset.rst.device = none) ∧
    (let s := { State.reset with rst := { State.reset.rst with refOk := false, vin := false } }; s.rst.refOk = false ∧ s.rst.vin = false ∧ s.rst.vaux = true) ∧
    (∀ cold ∈ [true, false], ∀ p ∈ [1, 3, 4, 5, 6, 7], let s := resetState cold p
      s.rst.vaux = true ∧ s.rst.device = some ⟨if cold then .cold else .warm, 5, true⟩ ∧ s.rst.phase = p ∧ s.rst.vin = true ∧ s.rst.refOk = true ∧ s.rst.factorUp = true ∧
      s.rst.coldRstN = true ∧ s.rst.perstN = true ∧ s.rst.testEn = false ∧ s.io.offline = []) ∧
    (let s := resetState false 1; { s with rst := { s.rst with perstN := false } }.rst.perstN = false ∧ { s with rst := { s.rst with factorUp := false, phase := 3 } }.rst.factorUp = false) ∧
    ({ resetState true 5 with fac := { wipePending := true } }.fac.wipePending = true ∧
      { resetState true 6 with mem := { State.reset.mem with hbmUp := [0, 7], ddrUp := [11], cxlUp := [1] } }.mem.hbmUp = [0, 7]) ∧
    (Scope.within (.core 8) .warm = true ∧ Scope.within (.core 8) (.cluster 1) = true ∧ Scope.within (.cluster 1) (.core 8) = false ∧ isIdle State.reset.rst.device = true) ∧
    (let s := { State.reset with rst := { State.reset.rst with units := [⟨.cluster 1, 11, false⟩] } }
     (∃ u ∈ s.rst.units, Scope.within (.core 8) u.scope = true) ∧ (∀ u ∈ s.rst.units, Scope.within (.die 0) u.scope = false) ∧ (∃ u ∈ s.rst.units, u.scope = .cluster 1) ∧
       ∀ u ∈ s.rst.units, u.scope ≠ .core 8) ∧
    (let b := bEgp 0; b.valid = true ∧ b.kind ∉ [.clkrst, .evtq, .admission] ∧ blockAt (b.base + 0x10) = some b ∧ standbyBlock b = false ∧ standbyBlock bFactor = true) := by
  refine ⟨⟨by decide +kernel, ⟨_, rfl⟩, by decide +kernel⟩, by decide +kernel, by decide +kernel, by decide +kernel, by decide +kernel, by decide +kernel, by decide +kernel, by decide +kernel, by decide +kernel⟩

def aRec : EvRec := { ts := 5, src := bEgp 2, cls := 3, code := 0x502, ctx := some 0, addr := 0, info := 0 }
/-- Event queue 0 enabled for class 3, of 64 records, with the given tail. -/
def evtState (cfg tail : Nat) (q : EvtQueue) : State :=
  let s := sessState (aSess 1 [])
  let io := ((s.io.setReg (qOff 0 Off.evtq_CFG) cfg).setReg (qOff 0 Off.evtq_CLASS_MASK) 8).setReg (qOff 0 Off.evtq_TAIL) tail
  { s with io := { io with intake := [aRec] }, evt := { queues := [(0, q)] } }

theorem witness_events :
    (let s := evtState 0x8C000000 0 { armed := true }
     s.io.intake = [aRec] ∧ State.reset.io.intake = [] ∧ queueTakes s 0 aRec = true ∧ (∀ q, q < 16 → queueTakes (State.reset.mapIo (fun io => io.count64 bEvtq Off.evtq_RECORDS_LO 1)) q aRec = false) ∧
       2 ^ s.io.fld (qOff 0 Off.evtq_CFG) 29 25 = 64 ∧ (0 + 64 - s.io.fld (qOff 0 Off.evtq_ARM) 15 0 % 64) % 64 ≠ 63 ∧ (evtQueue s 0).armed = true) ∧
    (let s := evtState 0x8C000000 63 {}; s.io.reg (qOff 0 Off.evtq_TAIL) = 63 ∧ s.io.fld (qOff 0 Off.evtq_ARM) 15 0 = 0) ∧
    (let s := evtState (0xCC000000 + 37) 0 { batch := [aRec] }
     (evtQueue s 0).batch ≠ [] ∧ ((evtSess s 0).any (fun x => x.1 == 37 && !x.2.rnrHeld)) = true ∧ (evtQueue State.reset 0).batch = []) ∧
    (let s := evtState (0xCC000000 + 38) 0 { batch := [aRec] }; (evtQueue s 0).batch ≠ [] ∧ evtSess s 0 = none) ∧
    (let s := { evtState (0xCC000000 + 37) 0 { batch := [aRec] } with host := { sess := [(37, { aSess 1 [] with rnrHeld := true })] } }
     ((evtSess s 0).any (fun x => x.2.rnrHeld)) = true) ∧
    (writeAllowed State.reset.io .host bEvtq (qOff 15 Off.evtq_ARM) = none ∧ writeAllowed State.reset.io .host bEvtq (qOff 0 Off.evtq_CFG) = none ∧
      writeAllowed State.reset.io .host bEvtq (bEvtq.base + Off.evtq_ONLINE) = none ∧ (evtState 0x8C000000 0 {}).io.fld (qOff 0 Off.evtq_CFG) 31 31 = 1 ∧
      State.reset.io.fld (qOff 0 Off.evtq_CFG) 31 31 = 0 ∧ (evtState 0x8C000000 0 {}).io.fld (qOff 0 Off.evtq_CFG) 31 30 = 2 ∧ (evtState 0x8C000000 5 {}).io.reg (qOff 0 Off.evtq_TAIL) ≠ 0 ∧
      State.reset.io.reg (qOff 0 Off.evtq_TAIL) = 0) ∧
    (let v : W32 := 0x8C000000; bitOf v.toNat 31 = true ∧ 6 ≤ v.toNat / 2 ^ 25 % 32 ∧ v.toNat / 2 ^ 25 % 32 ≤ 16 ∧ State.reset.io.reg64 (qOff 0 Off.evtq_BASE_LO) % 4096 = 0) ∧
    (railsUp State.reset = true ∧ State.reset.rst.device = none ∧ (bEgp 2).valid = true ∧ (⟨.egp, 99⟩ : Block).valid = false) ∧
    ((0x20000001 : W32).toNat / 2 ^ 28 = 2 ∧ (0x20000001 : W32).toNat % 256 = 1 ∧ (0x3000000B : W32).toNat / 2 ^ 28 = 3 ∧ (0x4000005F : W32).toNat / 2 ^ 28 = 4 ∧
      (0x4000005F : W32).toNat % 256 = 95 ∧ 4 < (0x50000000 : W32).toNat / 2 ^ 28 ∧ (0x10000000 : W32).toNat / 2 ^ 28 < 2) := by
  refine ⟨by decide +kernel, by decide +kernel, by decide +kernel, by decide +kernel, by decide +kernel, by decide +kernel, by decide +kernel, by decide +kernel, by decide +kernel⟩

/-- The PTP clock runs and Caller 0 is about to count to its period, on a device of which core 3 executes. -/
def tickState : State :=
  let s := State.reset.mapIo (fun io => io.setReg (bTime.base + Off.time_PTP_CTRL) 3)
  { s with call := [(0, { tickPos := 99 })] }

theorem witness_ticks :
    (tickState.pending = [] ∧ tickState.rst.vaux = true ∧ railsUp tickState = true ∧ tickState.io.bf bTime Off.time_PTP_CTRL 0 0 = 1 ∧ State.reset.io.bf bTime Off.time_PTP_CTRL 0 0 = 0 ∧
      tickState.io.bf (bCaller 0) Off.caller_TICK_CFG 19 0 ≤ (tickState.caller 0).tickPos + 1 ∧ (State.reset.caller 1).tickPos + 1 < State.reset.io.bf (bCaller 1) Off.caller_TICK_CFG 19 0) ∧
    ((railsDown false).rst.vaux = false ∧ (railsDown true).rst.vaux = true ∧ railsUp (railsDown true) = false) ∧ (∀ n ∈ smKeys tickState.cores, n < 96) ∧ (smKeys tickState.cores).Nodup ∧
    State.reset.fab.rootUid = 0 := by
  decide +kernel

theorem test_tick :
    (tick tickState).io.tb = 1 ∧ (tick tickState).host.ptpNs = 10 ∧ ((tick tickState).caller 0).tickPos = 0 ∧ ((tick tickState).caller 1).tickPos = 1 := by decide +kernel

theorem witness_coherent : State.reset.Coherent := by
  unfold State.Coherent RstSt.Coherent FactorSt.Coherent
  refine ⟨⟨by decide, by decide, by decide, by decide, by decide, by decide, by decide, fun d h => nomatch h⟩, by decide, by decide, by decide, by decide, by decide, by decide⟩

theorem test_step_takes_the_front :
    let s := { State.reset with pending := [.functionLevelReset, .vinRise] }
    match step s with
    | .next t => t.pending = [.vinRise] ∧ t.rst.device.isSome = true
    | _ => False := by
  refine ⟨?_, ?_⟩ <;> decide +kernel

/-- The CRC-32C check value. -/
theorem test_crc32c : Hash.crc32c 0 [0x31, 0x32, 0x33, 0x34, 0x35, 0x36, 0x37, 0x38, 0x39] = 0xE3069283 := by decide +kernel

/-! ### Well-formedness: one ill-formed command for each check -/

def wfAll (l : List Instr) : Bool := l.all Instr.wf
def illAll (l : List Instr) : Bool := l.all (fun i => !i.wf)

/-- A core, a unit, a link, a port, a block or a scope that the device lacks. -/
theorem test_ill_formed_parts :
    illAll [.streamOpen 96, .streamHalt 95 16, .writeAck 96 0, .assayLookup 12 [], .gather 12, .topk 12, .weaveCopyStart 4, .heldTokenAccepted 2, .lineRequestGrant (bCarter 96),
      .blkCtrlReset .host (bLink 99) 0, .linkSilent (instances .reelLink), .cxlHotAdd (instances .cxl) 0 0 0 true, .nonRoceFrame (instances .eth), .unitResetComplete (.cluster 12) none,
      .unitResetComplete (.core 96) none, .unitResetComplete (.die 2) none, .unitResetComplete (.block (bEgp 12)) none, .armWrite .host 16 0, .roceAck 16384 0 .ack,
      .scrubRow 0 [⟨0, 32768, none, none, false⟩], .lineReturn ⟨0, 16, 0, 0, 0, false, 1, 0, 0, 0, [], none⟩] = true := by decide +kernel

/-- A field that does not fit its width. -/
theorem test_ill_formed_fields :
    illAll [.registerWrite .host 0x4000000 4 0, .regionReg (aCmd 256 []), .regionReg { aCmd 1 [] with param := [] }, .regionReg { aCmd 1 [] with ring := 65537 },
      .regionReg { aCmd 1 [] with tag := 2 ^ 64 }, .regionReg { aCmd 1 [] with ctx := 65536 }, .tokenAccept { aTok 0 0 1 with die := 2 }, .tokenAccept { aTok 0 0 1 with key := 2 ^ 64 },
      .pedlarWr { aPkt 0 1 0 0 [] with dst := 65536 }, .pedlarWr { aPkt 0 1 0 0 [] with vc := 16 }, .pedlarWr { aPkt 0 1 0 0 [] with payload := leBytes 4097 0 }, .flitReceive 0 [] 0 false,
      .sqDb 4096 0, .submissionEntryRead 65537 .ok, .fenceApply 1024, .e2eTimeout 65536 0, .pairForget 65536 0, .ptpMessage 0 (10 ^ 9) true 0, .ptpMessage (2 ^ 48) 0 true 0,
      .addrAssign 0 0 65536, .addrHoldExpiry (2 ^ 64), .moveCopy (2 ^ 52), .roceAck 0 (2 ^ 24) .ack, .requestFirmwareData 2 true 0 [], .dieReset .host 256] = true := by decide +kernel

theorem test_well_formed :
    wfAll [.streamOpen 95, .streamHalt 0 15, .assayLookup 11 [⟨11, 32767, none, none, true⟩], .gather 11, .regionReg (aCmd 1 []), .tokenAccept (aTok 0 0 1), .pedlarWr (aPkt 0 1 0 0 []),
      .flitReceive 0 (leBytes 256 0) 0 false, .sqDb 4095 0, .submissionEntryRead 65536 .ok, .fenceApply 1023, .unitResetComplete (.core 95) none, .armWrite .host 15 0,
      .dieReset .host 255] = true := by decide +kernel

end Sys2Proof.Tests
end

section
/-! SUPPORT. Where a register lies, its fields, and what it reads after a write of another (R36, R37). -/

namespace Sys2Proof.Machine

/-- An offset past the header names its register itself (R37). -/
theorem normOff_of_past_header {off : Nat} (h : 0x028 < off % 0x1000) : normOff off = off := by
  unfold normOff
  split
  · exact if_neg (by omega)
  · rfl

/-- The register that an offset names has the same offset in its page. -/
theorem normOff_mod (off : Nat) : normOff off % 0x1000 = off % 0x1000 := by
  unfold normOff
  split
  · rename_i b _ _
    have hb := base_page b
    dsimp only
    split <;> omega
  · rfl

theorem Io.reg_lt (io : Io) (off : Nat) : io.reg off < 2 ^ 32 := BitVec.isLt _

theorem Io.reg_setReg_of_ne (io : Io) {off o : Nat} (v : Nat) (h : normOff o ≠ normOff off) : (io.setReg off v).reg o = io.reg o := by
  rw [reg_setReg, if_neg h]

theorem Io.bf_congr {x y : Io} {b : Block} {o : Nat} (h : x.reg (b.base + o) = y.reg (b.base + o)) (hi lo : Nat) :
    x.bf b o hi lo = y.bf b o hi lo := by
  rw [bf, bf, fld, fld, h]

/-- A field of bits `hi` to 0 after it is written. -/
theorem bitsOf_putBits_low (v hi x : Nat) : bitsOf (putBits v hi 0 x) hi 0 = x % 2 ^ (hi + 1) := by
  simp only [bitsOf, putBits, Nat.sub_zero, pow_zero, Nat.div_one, Nat.mul_one]
  rw [← Nat.div_mul_self_eq_mod_sub_self, Nat.mul_add_mod', Nat.mod_mod]

/-- An offset in a block's first page names its register itself. -/
theorem normOff_base {b : Block} (hb : b.valid = true) {o : Nat} (ho : o < 0x1000) : normOff (b.base + o) = b.base + o := by
  have hp := Io.pages_pos b.kind
  have hpage := base_page b
  have hmod : (b.base + o) % 0x1000 = o := by omega
  simp only [normOff, pageAt_base (by simpa [Block.valid] using hb) (by omega : o < 4096 * (catRow b.kind).pages), hmod, ite_self]

/-- The header of a block's first page holds the fields of Tables 2.5 to 2.11. -/
theorem fieldsAt_header {b : Block} (hb : b.valid = true) {o : Nat} (ho : o < 0x040) : fieldsAt (b.base + o) = headerFields b 0 o := by
  have hp := Io.pages_pos b.kind
  have hpage := base_page b
  have hmod : (b.base + o) % 0x1000 = o := by omega
  simp only [fieldsAt, pageAt_base (by simpa [Block.valid] using hb) (by omega : o < 4096 * (catRow b.kind).pages), hmod, if_pos ho,
    Nat.div_eq_of_lt (by omega : o < 4096)]

end Sys2Proof.Machine
end

section
/-! PROOF. The scalar operations of Table 6.5 on 64-bit words (R13, R151). -/

namespace Sys2Proof.Machine

theorem i64_toNat (a : W64) : i64 a.toNat = a.toInt := by
  have h := a.isLt
  rw [BitVec.toInt_eq_toNat_cond, i64, signed, Nat.mod_eq_of_lt h]
  split <;> split <;> omega

theorem u64_eq (z : Int) : u64 z = (BitVec.ofInt 64 z).toNat := by
  rw [BitVec.toNat_ofInt]; rfl

theorem sdiv_eq_ofInt (a b : W64) : a.sdiv b = BitVec.ofInt 64 (a.toInt.tdiv b.toInt) :=
  BitVec.eq_of_toInt_eq (by rw [BitVec.toInt_sdiv, BitVec.toInt_ofInt])

theorem srem_eq_ofInt (a b : W64) : a.srem b = BitVec.ofInt 64 (a.toInt.tmod b.toInt) := by
  rw [← BitVec.toInt_srem, BitVec.ofInt_toInt]

theorem sshiftRight_eq_ofInt (a : W64) (n : Nat) : a.sshiftRight n = BitVec.ofInt 64 (a.toInt / (2 ^ n : Nat)) := by
  rw [← Int.shiftRight_eq_div_pow, ← BitVec.toInt_sshiftRight, BitVec.ofInt_toInt]

theorem word_toNat_eq_zero (b : W64) : b.toNat = 0 ↔ b = 0 := BitVec.toNat_eq (y := 0#64) |>.symm

/-! Each operation unfolds through `aluOp.eq_def`: an arm's own equation would have the kernel count to 2^64. -/

theorem aluOp_add (a b : W64) : aluOp 0 a.toNat b.toNat = (a + b).toNat := (BitVec.toNat_add a b).symm

theorem aluOp_sub (a b : W64) : aluOp 1 a.toNat b.toNat = (a - b).toNat := by
  have := b.isLt
  simp only [aluOp.eq_def, BitVec.toNat_sub]
  congr 1; omega

theorem aluOp_mul (a b : W64) : aluOp 2 a.toNat b.toNat = (a * b).toNat := (BitVec.toNat_mul a b).symm

theorem aluOp_mulHigh (a b : W64) :
    aluOp 3 a.toNat b.toNat = ((a.zeroExtend 128 * b.zeroExtend 128) >>> 64).toNat := by
  have hlt : a.toNat * b.toNat < 2 ^ 64 * 2 ^ 64 := Nat.mul_lt_mul'' a.isLt b.isLt
  rw [BitVec.toNat_ushiftRight, BitVec.toNat_mul]
  simp only [BitVec.truncate_eq_setWidth, BitVec.toNat_setWidth_of_le (by decide : 64 ≤ 128)]
  rw [Nat.mod_eq_of_lt (by omega), Nat.shiftRight_eq_div_pow]; rfl

theorem aluOp_div (a b : W64) :
    aluOp 4 a.toNat b.toNat = (if b = 0 then BitVec.allOnes 64 else a.sdiv b).toNat := by
  simp only [aluOp.eq_def, word_toNat_eq_zero, i64_toNat, u64_eq, ← sdiv_eq_ofInt]
  split <;> rfl

theorem aluOp_divu (a b : W64) :
    aluOp 5 a.toNat b.toNat = (if b = 0 then BitVec.allOnes 64 else a / b).toNat := by
  simp only [aluOp.eq_def, word_toNat_eq_zero]
  split <;> rfl

theorem aluOp_rem (a b : W64) : aluOp 6 a.toNat b.toNat = (if b = 0 then a else a.srem b).toNat := by
  simp only [aluOp.eq_def, word_toNat_eq_zero, i64_toNat, u64_eq, ← srem_eq_ofInt]
  split <;> rfl

theorem aluOp_remu (a b : W64) : aluOp 7 a.toNat b.toNat = (if b = 0 then a else a % b).toNat := by
  simp only [aluOp.eq_def, word_toNat_eq_zero]
  split <;> rfl

theorem aluOp_shl (a b : W64) : aluOp 11 a.toNat b.toNat = (a <<< (b.toNat % 64)).toNat := by
  rw [BitVec.toNat_shiftLeft, Nat.shiftLeft_eq]; rfl

theorem aluOp_shr (a b : W64) : aluOp 12 a.toNat b.toNat = (a >>> (b.toNat % 64)).toNat := by
  rw [BitVec.toNat_ushiftRight, Nat.shiftRight_eq_div_pow]; rfl

theorem aluOp_sar (a b : W64) : aluOp 13 a.toNat b.toNat = (a.sshiftRight (b.toNat % 64)).toNat := by
  simp only [aluOp.eq_def, i64_toNat, u64_eq, ← sshiftRight_eq_ofInt]

theorem aluOp_slt (a b : W64) : aluOp 14 a.toNat b.toNat = (if a.slt b then 1 else 0) := by
  simp only [aluOp.eq_def, i64_toNat, BitVec.slt, b2n]

theorem aluOp_sltu (a b : W64) : aluOp 15 a.toNat b.toNat = (if a < b then 1 else 0) := by
  simp only [aluOp.eq_def, b2n, BitVec.lt_def, decide_eq_true_eq]

theorem aluOp_min (a b : W64) : aluOp 16 a.toNat b.toNat = (if b.slt a then b else a).toNat := by
  simp only [aluOp.eq_def, i64_toNat, BitVec.slt, decide_eq_true_eq]
  split <;> rfl

theorem aluOp_max (a b : W64) : aluOp 17 a.toNat b.toNat = (if a.slt b then b else a).toNat := by
  simp only [aluOp.eq_def, i64_toNat, BitVec.slt, decide_eq_true_eq]
  split <;> rfl

/-- Settles O1: one equation for each operation of Table 6.5; the bitwise three are those of Nat. -/
theorem scalarArithmeticIsTable6_5 : Obligations.ScalarArithmeticIsTable6_5 := fun a b =>
  ⟨aluOp_add a b, aluOp_sub a b, aluOp_mul a b, aluOp_mulHigh a b, aluOp_div a b, aluOp_divu a b, aluOp_rem a b, aluOp_remu a b,
    (BitVec.toNat_and a b).symm, (BitVec.toNat_or a b).symm, (BitVec.toNat_xor a b).symm,
    aluOp_shl a b, aluOp_shr a b, aluOp_sar a b, aluOp_slt a b, aluOp_sltu a b, aluOp_min a b, aluOp_max a b⟩

end Sys2Proof.Machine
end

section
/-! PROOF. Reads and writes of the halves of a 64-bit pair (R11, R42). -/

namespace Sys2Proof.Machine

/-- A 64-bit pair past its page's header, on a page that is ready. -/
structure ReadyPair (s : State) (b : Block) (p off : Nat) : Prop where
  pageLo : pageAt off = some (b, p)
  pageHi : pageAt (off + 4) = some (b, p)
  past : 0x040 ≤ off % 0x1000
  aligned : off % 8 = 0
  lo : isPairLo off = true
  hiNotLo : isPairLo (off + 4) = false
  ready : s.io.ready b = true

namespace ReadyPair

variable {s : State} {b : Block} {p off : Nat} (h : ReadyPair s b p off)
include h

theorem normOff_lo : normOff off = off := normOff_of_past_header (by have := h.past; omega)

theorem normOff_hi : normOff (off + 4) = off + 4 :=
  normOff_of_past_header (by have := h.past; have := h.aligned; omega)

theorem hi : isPairHi (off + 4) = true := by
  simp [isPairHi, h.lo]

/-- Both halves lie past the header of their block. -/
theorem past_base : b.base + 0x040 ≤ off := by
  obtain ⟨-, -, hoff⟩ := pageAt_some h.pageLo
  have := h.past
  omega

end ReadyPair

theorem regRead_four {s : State} {who : Requester} {off : Nat} (hr : reaches s who off = true) (ha : off % 4 = 0) :
    regRead s who off 4 = read4 s who off := by
  simp [regRead, hr, goodForm, ha]

theorem regRead_eight {s : State} {who : Requester} {off : Nat} (hr : reaches s who off = true) (ha : off % 8 = 0) :
    regRead s who off 8 = read8 s off := by
  simp [regRead, hr, goodForm, ha]

theorem regWrite_four {s : State} {who : Requester} {off : Nat} (hr : reaches s who off = true) (ha : off % 4 = 0) (v : W32) :
    regWrite s who off 4 v.toNat = writeAt s who off v.toNat := by
  have hv : v.toNat % 4294967296 = v.toNat := Nat.mod_eq_of_lt v.isLt
  simp [regWrite, hr, goodForm, ha, hv]

/-- Clearing the read registers leaves every snapshot. -/
@[simp] theorem snapOf_clearRead (s : State) (off : Nat) (who : Requester) : snapOf (clearRead s off).io who = snapOf s.io who := by
  unfold clearRead
  split
  · rfl
  · split
    · rfl
    · cases who <;> rfl

theorem snapOf_read8 (s : State) (off : Nat) (who : Requester) : snapOf (read8 s off).io who = snapOf s.io who := by
  refine Eq.trans ?_ ((snapOf_clearRead (clearRead s off) (off + 4) who).trans (snapOf_clearRead s off who))
  cases who <;> rfl

/-- The other of the two requesters. -/
def otherRequester (w : Requester) : Requester := if w = .host then .factor else .host

theorem snapOf_setSnap_self (io : Io) (who : Requester) (v : Option (Nat × W32)) (r : List W32) :
    snapOf { setSnap io who v with read := r } who = v := by
  cases who <;> rfl

theorem snapOf_setSnap_other (io : Io) (who : Requester) (v : Option (Nat × W32)) (r : List W32) :
    snapOf { setSnap io who v with read := r } (otherRequester who) = snapOf io (otherRequester who) := by
  cases who <;> rfl

theorem stagedOf_setStaged_self (io : Io) (who : Requester) (v : Option (Nat × W32)) : stagedOf (setStaged io who v) who = v := by
  cases who <;> rfl

theorem stagedOf_setStaged_other (io : Io) (who : Requester) (v : Option (Nat × W32)) :
    stagedOf (setStaged io who v) (otherRequester who) = stagedOf io (otherRequester who) := by
  cases who <;> rfl

theorem reg_setStaged (io : Io) (who : Requester) (v : Option (Nat × W32)) (a : Nat) : (setStaged io who v).reg a = io.reg a := by
  cases who <;> rfl

/-- A register's fields written by their access kinds (R11). -/
def fieldWrite (off v : Nat) (io : Io) : Io := io.setReg off (applyWrite (fieldsAt off) (io.reg off) v)

theorem plainWrite_of_keeps_nothing {b : Block} {off : Nat} (hk : keepsOnZero b (off - b.base) = []) (s : State) (v : Nat) :
    plainWrite s b off v = s.mapIo (fieldWrite off v) := by
  rw [plainWrite, hk]
  rfl

/-- Both halves of a pair written by the access kinds of their fields. -/
def commitPair (off lo hi : Nat) (io : Io) : Io := fieldWrite (off + 4) hi (fieldWrite off lo io)

theorem pairCommit_plain {b : Block} {off : Nat} (hc : b.kind ≠ .ctxt) (ha : b.kind ≠ .assayer) (he : b.kind ≠ .evtq)
    (hlo : keepsOnZero b (off - b.base) = []) (hhi : keepsOnZero b (off + 4 - b.base) = []) (s : State) {lo : Nat} (hlt : lo < 2 ^ 32) (hi : Nat) :
    pairCommit s b off (lo + 2 ^ 32 * hi) = s.mapIo (commitPair off lo hi) := by
  have h1 : (lo + 2 ^ 32 * hi) % 2 ^ 32 = lo := by omega
  have h2 : (lo + 2 ^ 32 * hi) / 2 ^ 32 = hi := by omega
  have hplain : plainWrite (plainWrite s b off ((lo + 2 ^ 32 * hi) % 2 ^ 32)) b (off + 4) ((lo + 2 ^ 32 * hi) / 2 ^ 32) =
      s.mapIo (commitPair off lo hi) := by
    rw [h1, h2, plainWrite_of_keeps_nothing hlo, plainWrite_of_keeps_nothing hhi]
    rfl
  unfold pairCommit
  split
  · exact absurd ‹_› hc
  · exact absurd ‹_› ha
  · exact absurd ‹_› he
  · exact hplain

theorem stagedOf_commitPair (off lo hi : Nat) (io : Io) (who : Requester) : stagedOf (commitPair off lo hi io) who = stagedOf io who := by
  cases who <;> rfl

/-- The lower half that a write of the upper half commits: the requester's staged one of this pair, or the present one (R42). -/
def lowToCommit (io : Io) (who : Requester) (off : Nat) : Nat :=
  match stagedOf io who with
  | some (a, lo) => if a = off then lo.toNat else io.reg off
  | none => io.reg off

theorem lowToCommit_lt (io : Io) (who : Requester) (off : Nat) : lowToCommit io who off < 2 ^ 32 := by
  unfold lowToCommit
  split
  · split
    · exact BitVec.isLt _
    · exact io.reg_lt off
  · exact io.reg_lt off

/-- The requester's staged half of a pair taken up; one of another pair stays. -/
def takeStaged (who : Requester) (off : Nat) (io : Io) : Io :=
  match stagedOf io who with
  | some (a, _) => if a = off then setStaged io who none else io
  | none => io

theorem takeStaged_cases (who : Requester) (off : Nat) (io : Io) : takeStaged who off io = setStaged io who none ∨ takeStaged who off io = io := by
  unfold takeStaged
  split
  · split
    · exact .inl rfl
    · exact .inr rfl
  · exact .inr rfl

theorem stagedOf_takeStaged {io : Io} {who : Requester} {off : Nat} {lo : W32} (h : stagedOf io who = some (off, lo)) :
    stagedOf (takeStaged who off io) who = none := by
  simp [takeStaged, h, stagedOf_setStaged_self]

theorem reg_takeStaged (who : Requester) (off : Nat) (io : Io) (a : Nat) : (takeStaged who off io).reg a = io.reg a := by
  obtain h | h := takeStaged_cases who off io
  · rw [h, reg_setStaged]
  · rw [h]

theorem stagedOf_takeStaged_other (who : Requester) (off : Nat) (io : Io) :
    stagedOf (takeStaged who off io) (otherRequester who) = stagedOf io (otherRequester who) := by
  obtain h | h := takeStaged_cases who off io
  · rw [h, stagedOf_setStaged_other]
  · rw [h]

namespace ReadyPair

variable {s : State} {b : Block} {p off : Nat} (h : ReadyPair s b p off)
include h

/-- A read of the lower half snapshots the upper one for the requester (R42). -/
theorem read4_lo (who : Requester) : read4 s who off =
    (clearRead (clearRead s off) (off + 4)).mapIo
      (fun io => { setSnap io who (some (off, readWord s (off + 4))) with read := [readWord s off] }) := by
  simp only [read4, h.normOff_lo, h.lo, if_true]

/-- A read of the upper half uses the snapshot of its pair up (R42). -/
theorem read4_hi_snapped {who : Requester} {hi : W32} (hs : snapOf s.io who = some (off, hi)) :
    read4 s who (off + 4) = s.mapIo (fun io => { setSnap io who none with read := [hi] }) := by
  simp [read4, h.normOff_hi, h.hiNotLo, h.hi, hs, h.pageHi, h.ready]

/-- With no snapshot of its pair a read of the upper half takes the live half (R42). -/
theorem read4_hi_live {who : Requester} (hs : ∀ hi, snapOf s.io who ≠ some (off, hi)) :
    read4 s who (off + 4) = s.mapIo (fun io => { io with read := [readWord s (off + 4)] }) := by
  simp only [read4, h.normOff_hi, h.hiNotLo, h.hi, if_true]
  cases hsn : snapOf s.io who with
  | none => rfl
  | some x =>
    have hne : x.1 ≠ off := fun e => hs x.2 (by rw [hsn, ← e])
    simp [hne]

/-- A write of the lower half is only staged (R42). -/
theorem writeAt_lo {who : Requester} (hw : writeRefused s who b off = none) (v : W32) :
    writeAt s who off v.toNat = s.mapIo (fun io => setStaged io who (some (off, v))) := by
  have hb := h.past_base
  have ho : ¬ off - b.base < 0x040 := by omega
  simp [writeAt, h.pageLo, hw, write4, h.normOff_lo, ho, h.lo]

/-- A write of the upper half commits the pair with the lower half that stands ready for it (R42). -/
theorem writeAt_hi {who : Requester} (hw : writeRefused s who b (off + 4) = none) (v : Nat) :
    writeAt s who (off + 4) v = pairCommit (s.mapIo (takeStaged who off)) b off (lowToCommit s.io who off + 2 ^ 32 * v) := by
  have hb := h.past_base
  have ho : ¬ off + 4 - b.base < 0x040 := by omega
  simp only [writeAt, h.pageHi, hw, write4, h.normOff_hi, ho, h.hiNotLo, h.hi, if_true, if_false, Nat.add_sub_cancel, State.mapIo,
    takeStaged, lowToCommit]
  rcases stagedOf s.io who with _ | ⟨a, lo⟩
  · rfl
  · by_cases ha : a = off
    · simp [ha]
    · simp [ha]

/-- The lower half after the pair is committed. -/
theorem reg_commitPair_lo (lo hi : Nat) (io : Io) :
    (commitPair off lo hi io).reg off = applyWrite (fieldsAt off) (io.reg off) lo % 2 ^ 32 := by
  rw [commitPair, fieldWrite, Io.reg_setReg_of_ne, fieldWrite, Io.reg_setReg_self]
  rw [h.normOff_lo, h.normOff_hi]
  omega

theorem reg_commitPair_hi (lo hi : Nat) (io : Io) :
    (commitPair off lo hi io).reg (off + 4) = applyWrite (fieldsAt (off + 4)) (io.reg (off + 4)) hi % 2 ^ 32 := by
  have hne : normOff (off + 4) ≠ normOff off := by
    rw [h.normOff_lo, h.normOff_hi]
    omega
  rw [commitPair, fieldWrite, Io.reg_setReg_self, fieldWrite, Io.reg_setReg_of_ne _ _ hne]

theorem reg_commitPair_of_ne (lo hi : Nat) (io : Io) {a : Nat} (hl : normOff a ≠ off) (hh : normOff a ≠ off + 4) :
    (commitPair off lo hi io).reg a = io.reg a := by
  rw [commitPair, fieldWrite, Io.reg_setReg_of_ne _ _ (by rwa [h.normOff_hi]), fieldWrite, Io.reg_setReg_of_ne _ _ (by rwa [h.normOff_lo])]

end ReadyPair

/-- Settles O24: a pair's reads, its staged write and its commit, from the rules of each. -/
theorem registerPairsAreReadAndWrittenWhole : Obligations.RegisterPairsAreReadAndWrittenWhole := by
  intro s who off b p hpage hpast halign hlo _ hhi hpage4 hready hr hr4
  have h : ReadyPair s b p off := ⟨hpage, hpage4, hpast, halign, hlo, hhi, hready⟩
  have h4 : off % 4 = 0 := by omega
  have h44 : (off + 4) % 4 = 0 := by omega
  refine ⟨⟨_, rfl, ?_⟩, fun hi hs => ⟨_, rfl, ?_⟩, fun hs => ?_, ⟨_, rfl, ?_⟩, fun hw v => ?_,
    fun hw hc ha he k1 k2 v => ⟨_, rfl, ?_⟩, fun f o v => ?_⟩
  · rw [regRead_four hr h4, h.read4_lo]
    exact ⟨rfl, snapOf_setSnap_self _ who _ _, (snapOf_setSnap_other _ who _ _).trans (by simp only [snapOf_clearRead]; rfl)⟩
  · rw [regRead_four hr4 h44, h.read4_hi_snapped hs]
    exact ⟨rfl, snapOf_setSnap_self _ who _ _, rfl⟩
  · exact congrArg _ ((regRead_four hr4 h44).trans (h.read4_hi_live hs))
  · rw [regRead_eight hr halign]
    exact ⟨rfl, snapOf_read8 s off .host, snapOf_read8 s off .factor⟩
  · exact congrArg _ ((regWrite_four hr h4 v).trans (h.writeAt_lo hw v))
  · rw [regWrite_four hr4 h44, h.writeAt_hi hw, pairCommit_plain hc ha he k1 k2 _ (lowToCommit_lt _ _ _)]
    have hreg := reg_takeStaged who off s.io
    refine ⟨?_, ?_, fun lo hs => ?_, ?_, fun a hl hh => ?_, rfl⟩
    · exact (h.reg_commitPair_lo _ _ _).trans (by rw [mapIo_io, hreg]; rfl)
    · exact (h.reg_commitPair_hi _ _ _).trans (by rw [mapIo_io, hreg])
    · exact (stagedOf_commitPair _ _ _ _ who).trans (stagedOf_takeStaged hs)
    · exact (stagedOf_commitPair _ _ _ _ _).trans (stagedOf_takeStaged_other who off s.io)
    · exact (h.reg_commitPair_of_ne _ _ _ hl hh).trans (hreg a)
  · obtain ⟨_, _, acc, _⟩ := f
    cases acc <;> rfl

end Sys2Proof.Machine
end

section
/-! PROOF. A step: the front command, or a tick of 10 ns part by part (R7, R350, R439, R457; log entry 1). -/

namespace Sys2Proof.Machine

/-! ### The clocks -/

/-- The PTP clock moves no other part of the state. -/
theorem ptpTick_only (s : State) : ptpTick s =
    { s with host := { s.host with ptpSec := (ptpTick s).host.ptpSec, ptpNs := (ptpTick s).host.ptpNs, ptpFrac := (ptpTick s).host.ptpFrac } } := by
  unfold ptpTick
  split <;> rfl

theorem ptpTick_disabled {s : State} (h : s.io.bf bTime Off.time_PTP_CTRL 0 0 = 0) : ptpTick s = s := if_pos h

/-- The enabled PTP clock, in units of 10^-17 s: one tick of 10 ns with PTP_ADJ, modulo its 2^48 seconds (R439). -/
theorem ptpTick_enabled {s : State} (h : s.io.bf bTime Off.time_PTP_CTRL 0 0 = 1) :
    let u := (ptpTick s).host
    ((u.ptpSec * 10 ^ 17 + u.ptpNs * 10 ^ 8 + u.ptpFrac : Nat) : Int) =
      (((s.host.ptpSec * 10 ^ 17 + s.host.ptpNs * 10 ^ 8 + s.host.ptpFrac : Nat) : Int)
        + (1000000000 + signed 32 (s.io.br bTime Off.time_PTP_ADJ))) % (2 ^ 48 * 10 ^ 17) ∧
    u.ptpSec < 2 ^ 48 ∧ u.ptpNs < 10 ^ 9 ∧ u.ptpFrac < 10 ^ 8 := by
  simp only [ptpTick, h, one_ne_zero, if_false]
  push_cast
  generalize (s.host.ptpSec : Int) * 10 ^ 17 + s.host.ptpNs * 10 ^ 8 + s.host.ptpFrac
    + (1000000000 + signed 32 (s.io.br bTime Off.time_PTP_ADJ)) = z
  omega

/-- Fabric time's tick moves nothing else. -/
theorem ftTick_only (s : State) :
    ftTick s = { s with fab := { s.fab with ft := (ftTick s).fab.ft, slew := (ftTick s).fab.slew, timed := (ftTick s).fab.timed } } := by
  unfold ftTick
  split <;> rfl

theorem ftTick_root {s : State} (h : s.fab.rootUid ≠ 0 ∧ s.fab.rootUid = ownUid s) :
    (ftTick s).fab.ft = s.io.tb * 2 ^ 32 ∧ (ftTick s).fab.timed = true ∧ (ftTick s).fab.slew = 0 := by
  rw [ftTick, if_pos h]
  exact ⟨rfl, rfl, rfl⟩

/-- Away from the root fabric time takes up its slew at no more than 200 ppm of a tick (R457). -/
theorem ftTick_not_root {s : State} (h : ¬ (s.fab.rootUid ≠ 0 ∧ s.fab.rootUid = ownUid s)) :
    let u := (ftTick s).fab
    u.timed = s.fab.timed ∧ ((s.fab.ft : Int) + 2 ^ 32 - 858993 ≤ u.ft) ∧ ((u.ft : Int) ≤ s.fab.ft + 2 ^ 32 + 858993) ∧
      (u.ft : Int) + u.slew = s.fab.ft + 2 ^ 32 + s.fab.slew := by
  rw [ftTick, if_neg h]
  refine ⟨rfl, ?_⟩
  dsimp only
  push_cast
  split
  · omega
  · split <;> omega

/-- The time base of a tick. -/
def tbTick (s : State) : State := s.mapIo (fun io => { io with tb := io.tb + 1 })

/-- The clocks of a tick: the time base, the PTP clock and fabric time. -/
def clocksTick (s : State) : State := ftTick (ptpTick (tbTick s))

theorem clocksTick_only (s : State) : clocksTick s =
    { s with io := { s.io with tb := s.io.tb + 1 },
             host := { s.host with ptpSec := (clocksTick s).host.ptpSec, ptpNs := (clocksTick s).host.ptpNs, ptpFrac := (clocksTick s).host.ptpFrac },
             fab := { s.fab with ft := (clocksTick s).fab.ft, slew := (clocksTick s).fab.slew, timed := (clocksTick s).fab.timed } } := by
  unfold clocksTick
  rw [ftTick_only, ptpTick_only]
  rfl

/-! ### The Callers and the running cores -/

/-- From one state to the next only registers and Callers differ. -/
def RegsAndCallersOnly (s t : State) : Prop := t = { s with io := { s.io with regs := t.io.regs }, call := t.call }

theorem RegsAndCallersOnly.refl (s : State) : RegsAndCallersOnly s s := rfl

theorem RegsAndCallersOnly.trans {s t u : State} (h : RegsAndCallersOnly s t) (k : RegsAndCallersOnly t u) : RegsAndCallersOnly s u := by
  unfold RegsAndCallersOnly
  rw [k, h]

theorem RegsAndCallersOnly.foldl {f : State → Nat → State} (h : ∀ s n, RegsAndCallersOnly s (f s n)) (l : List Nat) (s : State) :
    RegsAndCallersOnly s (l.foldl f s) := by
  induction l generalizing s with
  | nil => exact .refl s
  | cons n l ih => exact (h s n).trans (ih (f s n))

theorem RegsAndCallersOnly.core {s t : State} (h : RegsAndCallersOnly s t) (n : Nat) : t.core n = s.core n :=
  core_of_cores (by rw [h]) n

theorem regsAndCallersOnly_callerTick (s : State) (d : Nat) : RegsAndCallersOnly s (callerTick s d) := by
  unfold callerTick callerBoundary
  dsimp only
  split
  · split <;> rfl
  · rfl

theorem regsAndCallersOnly_busyTick (s : State) (n : Nat) : RegsAndCallersOnly s (busyTick s n) := by
  unfold busyTick Io.count State.mapIo
  dsimp only
  split
  · split <;> rfl
  · rfl

theorem tickCfg_mod (d : Nat) : ((bCaller d).base + Off.caller_TICK_CFG) % 0x1000 = 0x040 := by
  have := base_page (bCaller d)
  simp only [Off.caller_TICK_CFG]
  omega

theorem normOff_tickCfg (d : Nat) : normOff ((bCaller d).base + Off.caller_TICK_CFG) = (bCaller d).base + Off.caller_TICK_CFG := by
  refine normOff_of_past_header ?_
  rw [tickCfg_mod]
  decide

/-- A Caller's part of a tick writes no register but its TICK_CFG. -/
theorem reg_callerTick (s : State) (d : Nat) {off : Nat} (h : normOff off ≠ (bCaller d).base + Off.caller_TICK_CFG) :
    (callerTick s d).io.reg off = s.io.reg off := by
  have hn : normOff off ≠ normOff ((bCaller d).base + Off.caller_TICK_CFG) := by
    rwa [normOff_tickCfg]
  unfold callerTick callerBoundary
  dsimp only
  split
  · split
    · exact Io.reg_setReg_of_ne _ _ hn
    · rfl
  · rfl

theorem caller_callerTick_of_ne (s : State) {d e : Nat} (h : e ≠ d) : (callerTick s d).caller e = s.caller e := by
  unfold callerTick callerBoundary
  dsimp only
  split
  · rw [caller_setCaller, if_neg h]; rfl
  · rw [caller_setCaller, if_neg h]

theorem caller_callerTick_within {s : State} {d : Nat}
    (h : (s.caller d).tickPos + 1 < s.io.bf (bCaller d) Off.caller_TICK_CFG 19 0) :
    (callerTick s d).caller d = { s.caller d with tickPos := (s.caller d).tickPos + 1 } := by
  rw [callerTick, if_neg (by omega), caller_setCaller_self]

theorem callerTick_boundary {s : State} {d : Nat}
    (h : s.io.bf (bCaller d) Off.caller_TICK_CFG 19 0 ≤ (s.caller d).tickPos + 1) : callerTick s d = callerBoundary s d := if_pos h

theorem caller_callerBoundary (s : State) (d : Nat) : (callerBoundary s d).caller d =
    { s.caller d with tickPos := 0, tickNext := none, timers := (s.caller d).timers.map (fun x => { x with left := x.left - 1 }) } :=
  caller_setCaller_self _ _ _

/-- A TICK_CFG value that waits takes effect at the boundary (R350). -/
theorem tickCfg_callerBoundary {s : State} {d v : Nat} (h : (s.caller d).tickNext = some v) :
    (callerBoundary s d).io.bf (bCaller d) Off.caller_TICK_CFG 19 0 = v % 2 ^ 20 := by
  have hio : (callerBoundary s d).io = s.io.setBf (bCaller d) Off.caller_TICK_CFG 19 0 v := by
    simp only [callerBoundary, h, setCaller_io]
  rw [hio, Io.setBf, Io.setFld, Io.bf, Io.fld, Io.reg_setReg_self]
  have hlow : ∀ x : Nat, bitsOf (x % 2 ^ 32) 19 0 = bitsOf x 19 0 := by
    simp only [bitsOf]
    omega
  rw [hlow, bitsOf_putBits_low]

/-- BUSY_TICKS of a core (Table 13.16). -/
def busyTicksOff (n : Nat) : Nat := (bCaller (dieOfCore n)).base + Off.caller_BUSY_TICKS + 0x20 * (n % 48)

theorem bCaller_base (d : Nat) : (bCaller d).base = 0x1000000 * (1 + d) := by
  simp [bCaller, Block.base, catRow, catalogue, dieBase]

theorem normOff_busyTicksOff (n : Nat) : normOff (busyTicksOff n) = busyTicksOff n := by
  refine normOff_of_past_header ?_
  simp only [busyTicksOff, bCaller_base, Off.caller_BUSY_TICKS]
  omega

theorem busyTicksOff_ne {m n : Nat} (h : m ≠ n) : busyTicksOff m ≠ busyTicksOff n := by
  simp only [busyTicksOff, bCaller_base, Off.caller_BUSY_TICKS, dieOfCore]
  omega

theorem reg_busyTick_of_ne (s : State) (n : Nat) {off : Nat} (h : normOff off ≠ busyTicksOff n) : (busyTick s n).io.reg off = s.io.reg off := by
  unfold busyTick Io.count
  split
  · dsimp only [mapIo_io]
    split
    · rfl
    · refine Io.reg_setReg_of_ne _ _ ?_
      rw [← Nat.add_assoc]
      exact fun hn => h (hn.trans (normOff_busyTicksOff n))
  · rfl

theorem reg_busyTick (s : State) (n : Nat) : (busyTick s n).io.reg (busyTicksOff n) =
    if (s.core n).task.isSome ∧ s.io.frozen (bCaller (dieOfCore n)) = false then min 0xFFFFFFFF (s.io.reg (busyTicksOff n) + 1)
    else s.io.reg (busyTicksOff n) := by
  unfold busyTick Io.count
  by_cases ht : (s.core n).task.isSome = true
  · rw [if_pos ht]
    dsimp only [mapIo_io]
    cases hf : s.io.frozen (bCaller (dieOfCore n)) with
    | true => simp
    | false =>
      rw [if_neg (by decide), if_pos ⟨ht, rfl⟩, ← Nat.add_assoc]
      exact (Io.reg_setReg_self _ _ _).trans (Nat.mod_eq_of_lt (by omega))
  · rw [if_neg ht, if_neg (fun h => ht h.1)]

/-- CTR_FREEZE of a Caller is a bit of its BLK_CTRL (Table 13.13). -/
theorem frozen_caller (io : Io) (d : Nat) : io.frozen (bCaller d) = decide (bitsOf (io.reg ((bCaller d).base + 0x008)) 8 8 = 1) := rfl

theorem blkCtrl_caller_mod (d : Nat) : ((bCaller d).base + 0x008) % 0x1000 = 0x008 := by
  have := base_page (bCaller d)
  omega

theorem busyTicksOff_mod (n : Nat) : 0x048 ≤ busyTicksOff n % 0x1000 := by
  simp only [busyTicksOff, bCaller_base, Off.caller_BUSY_TICKS]
  omega

/-- No count of a core is a register at the start of a page. -/
theorem normOff_ne_busyTicksOff {off : Nat} (h : off % 0x1000 < 0x048) (n : Nat) : normOff off ≠ busyTicksOff n := by
  intro hn
  have hmod := normOff_mod off
  have := busyTicksOff_mod n
  rw [hn] at hmod
  omega

theorem frozen_busyTick (s : State) (n d : Nat) : (busyTick s n).io.frozen (bCaller d) = s.io.frozen (bCaller d) := by
  rw [frozen_caller, frozen_caller, reg_busyTick_of_ne s n (normOff_ne_busyTicksOff (by rw [blkCtrl_caller_mod]; decide) n)]

theorem frozen_callerTick (s : State) (e d : Nat) : (callerTick s e).io.frozen (bCaller d) = s.io.frozen (bCaller d) := by
  rw [frozen_caller, frozen_caller, reg_callerTick]
  intro hn
  have := congrArg (· % 0x1000) hn
  simp only [normOff_mod, blkCtrl_caller_mod, tickCfg_mod] at this
  omega

/-- The counts of several cores write no register but their BUSY_TICKS. -/
theorem reg_busyTicks_of_ne (l : List Nat) (s : State) {off : Nat} (h : ∀ n ∈ l, normOff off ≠ busyTicksOff n) :
    (l.foldl busyTick s).io.reg off = s.io.reg off := by
  induction l generalizing s with
  | nil => rfl
  | cons n l ih =>
    obtain ⟨hn, hl⟩ := List.forall_mem_cons.mp h
    exact (ih _ hl).trans (reg_busyTick_of_ne s n hn)

/-- Another core's count leaves a core's own as it would be. -/
theorem reg_busyTick_busyTick (s : State) {m n : Nat} (h : n ≠ m) :
    (busyTick (busyTick s m) n).io.reg (busyTicksOff n) = (busyTick s n).io.reg (busyTicksOff n) := by
  have hreg : (busyTick s m).io.reg (busyTicksOff n) = s.io.reg (busyTicksOff n) :=
    reg_busyTick_of_ne s m (by rw [normOff_busyTicksOff]; exact busyTicksOff_ne h)
  rw [reg_busyTick, reg_busyTick, hreg, frozen_busyTick, (regsAndCallersOnly_busyTick s m).core]

/-- Each core of a list without repeats counts once. -/
theorem reg_busyTicks_of_mem {l : List Nat} (hl : l.Nodup) (s : State) {n : Nat} (hn : n ∈ l) :
    (l.foldl busyTick s).io.reg (busyTicksOff n) = (busyTick s n).io.reg (busyTicksOff n) := by
  induction l generalizing s with
  | nil => cases hn
  | cons m l ih =>
    obtain ⟨hm, hl⟩ := List.nodup_cons.mp hl
    rw [List.foldl_cons]
    by_cases h : n = m
    · subst h
      refine reg_busyTicks_of_ne l _ fun k hk => ?_
      rw [normOff_busyTicksOff]
      exact busyTicksOff_ne fun e => hm (e ▸ hk)
    · rw [ih hl _ ((List.mem_cons.mp hn).resolve_left h), reg_busyTick_busyTick s h]

theorem caller_busyTicks (l : List Nat) (s : State) (d : Nat) : (l.foldl busyTick s).caller d = s.caller d := by
  induction l generalizing s with
  | nil => rfl
  | cons n l ih =>
    refine (ih _).trans ?_
    unfold busyTick
    split <;> rfl

/-- Both Callers' part of a tick. -/
def callersTick (s : State) : State := (List.range 2).foldl callerTick s

/-- The two Callers tick apart: each as it would from the state, its own TICK_CFG and all. -/
theorem callersTick_at (s : State) {d : Nat} (hd : d < 2) :
    ∃ v : State, v.caller d = s.caller d ∧ v.io.bf (bCaller d) Off.caller_TICK_CFG 19 0 = s.io.bf (bCaller d) Off.caller_TICK_CFG 19 0 ∧
      (callersTick s).caller d = (callerTick v d).caller d ∧
      (callersTick s).io.bf (bCaller d) Off.caller_TICK_CFG 19 0 = (callerTick v d).io.bf (bCaller d) Off.caller_TICK_CFG 19 0 := by
  have hcfg : ∀ {a b : Nat} (u : State), a ≠ b →
      (callerTick u b).io.bf (bCaller a) Off.caller_TICK_CFG 19 0 = u.io.bf (bCaller a) Off.caller_TICK_CFG 19 0 := by
    intro a b u hab
    refine Io.bf_congr (reg_callerTick u b ?_) 19 0
    rw [normOff_tickCfg, bCaller_base, bCaller_base]
    omega
  obtain rfl | rfl : d = 0 ∨ d = 1 := by omega
  · exact ⟨s, rfl, rfl, caller_callerTick_of_ne _ (by decide), hcfg _ (by decide)⟩
  · exact ⟨callerTick s 0, caller_callerTick_of_ne _ (by decide), hcfg _ (by decide), rfl, rfl⟩

theorem caller_callersTick_of_le (s : State) {d : Nat} (hd : 2 ≤ d) : (callersTick s).caller d = s.caller d :=
  (caller_callerTick_of_ne (d := 1) _ (by omega)).trans (caller_callerTick_of_ne (d := 0) _ (by omega))

theorem reg_callersTick (s : State) {off : Nat} (h : ∀ d < 2, normOff off ≠ (bCaller d).base + Off.caller_TICK_CFG) :
    (callersTick s).io.reg off = s.io.reg off :=
  (reg_callerTick _ 1 (h 1 (by decide))).trans (reg_callerTick _ 0 (h 0 (by decide)))

/-! ### The tick -/

theorem tick_of_railsUp {s : State} (hv : s.rst.vaux = true) (hr : railsUp s = true) :
    tick s = (smKeys s.cores).foldl busyTick (callersTick (clocksTick s)) := by
  have hr' : railsUp (s.mapIo (fun io => { io with tb := io.tb + 1 })) = true := hr
  simp only [tick, hv, hr']
  rfl

theorem tick_of_railsDown {s : State} (hv : s.rst.vaux = true) (hr : railsUp s = false) :
    tick s = { s with io := { s.io with tb := s.io.tb + 1 } } := by
  have hr' : railsUp (s.mapIo (fun io => { io with tb := io.tb + 1 })) = false := hr
  simp only [tick, hv, hr']
  rfl

theorem tick_without_vaux {s : State} (h : s.rst.vaux = false) : tick s = s := by
  simp [tick, h]

theorem smFind_of_not_mem_keys {α : Type} {k : Nat} {m : SMap α} (h : k ∉ smKeys m) : smFind k m = none := by
  induction m with
  | nil => rfl
  | cons e m ih =>
    obtain ⟨hk, hm⟩ := List.ne_and_not_mem_of_not_mem_cons h
    rw [smFind, if_neg (Ne.symm hk), ih hm]

theorem core_of_not_mem_keys {s : State} {n : Nat} (h : n ∉ smKeys s.cores) : s.core n = {} := by
  rw [State.core, smGet, smFind_of_not_mem_keys h]
  rfl

theorem regsAndCallersOnly_callersTick (s : State) : RegsAndCallersOnly s (callersTick s) := .foldl regsAndCallersOnly_callerTick _ s

section
variable {s : State} (hv : s.rst.vaux = true) (hr : railsUp s = true)
include hv hr

theorem regsAndCallersOnly_tick : RegsAndCallersOnly (clocksTick s) (tick s) := by
  rw [tick_of_railsUp hv hr]
  exact (regsAndCallersOnly_callersTick _).trans (.foldl regsAndCallersOnly_busyTick _ _)

theorem tick_only : tick s =
    { s with io := { s.io with tb := s.io.tb + 1, regs := (tick s).io.regs },
             host := { s.host with ptpSec := (tick s).host.ptpSec, ptpNs := (tick s).host.ptpNs, ptpFrac := (tick s).host.ptpFrac },
             fab := { s.fab with ft := (tick s).fab.ft, slew := (tick s).fab.slew, timed := (tick s).fab.timed },
             call := (tick s).call } := by
  rw [regsAndCallersOnly_tick hv hr, clocksTick_only]

theorem host_tick : (tick s).host = (ptpTick (tbTick s)).host := by
  rw [regsAndCallersOnly_tick hv hr]
  dsimp only
  rw [clocksTick, ftTick_only]

theorem fab_tick : (tick s).fab = (ftTick (ptpTick (tbTick s))).fab := by
  rw [regsAndCallersOnly_tick hv hr]
  rfl

theorem caller_tick (d : Nat) : (tick s).caller d = (callersTick (clocksTick s)).caller d := by
  rw [tick_of_railsUp hv hr, caller_busyTicks]

theorem tickCfg_tick (d : Nat) :
    (tick s).io.bf (bCaller d) Off.caller_TICK_CFG 19 0 = (callersTick (clocksTick s)).io.bf (bCaller d) Off.caller_TICK_CFG 19 0 := by
  rw [tick_of_railsUp hv hr]
  exact Io.bf_congr (reg_busyTicks_of_ne _ _ fun n _ => normOff_ne_busyTicksOff (by rw [tickCfg_mod]; decide) n) 19 0

end

@[simp] theorem ptpTick_io (s : State) : (ptpTick s).io = s.io := by rw [ptpTick_only]
@[simp] theorem ptpTick_fab (s : State) : (ptpTick s).fab = s.fab := by rw [ptpTick_only]

theorem clocksTick_caller (s : State) (d : Nat) : (clocksTick s).caller d = s.caller d := by
  rw [clocksTick_only]
  rfl

theorem clocksTick_reg (s : State) (off : Nat) : (clocksTick s).io.reg off = s.io.reg off := by
  rw [clocksTick_only]
  rfl

theorem clocksTick_bf (s : State) (b : Block) (o hi lo : Nat) : (clocksTick s).io.bf b o hi lo = s.io.bf b o hi lo :=
  Io.bf_congr (clocksTick_reg s _) hi lo

section
variable {s : State} (hv : s.rst.vaux = true) (hr : railsUp s = true)
include hv hr

/-- The root's fabric time is the time base after the tick. -/
theorem fab_tick_root (h : s.fab.rootUid ≠ 0 ∧ s.fab.rootUid = ownUid s) :
    (tick s).fab.ft = (s.io.tb + 1) * 2 ^ 32 ∧ (tick s).fab.timed = true ∧ (tick s).fab.slew = 0 := by
  have key := ftTick_root (s := ptpTick (tbTick s)) (by rw [ptpTick_fab]; exact h)
  rw [ptpTick_io] at key
  rw [fab_tick hv hr]
  exact key

theorem fab_tick_not_root (h : ¬ (s.fab.rootUid ≠ 0 ∧ s.fab.rootUid = ownUid s)) :
    let u := (tick s).fab
    u.timed = s.fab.timed ∧ ((s.fab.ft : Int) + 2 ^ 32 - 858993 ≤ u.ft) ∧ ((u.ft : Int) ≤ s.fab.ft + 2 ^ 32 + 858993) ∧
      (u.ft : Int) + u.slew = s.fab.ft + 2 ^ 32 + s.fab.slew := by
  have key := ftTick_not_root (s := ptpTick (tbTick s)) (by rw [ptpTick_fab]; exact h)
  rw [ptpTick_fab] at key
  rw [fab_tick hv hr]
  exact key

/-- A Caller inside its period counts one tick more. -/
theorem caller_tick_within {d : Nat} (hd : d < 2) (h : (s.caller d).tickPos + 1 < s.io.bf (bCaller d) Off.caller_TICK_CFG 19 0) :
    (tick s).caller d = { s.caller d with tickPos := (s.caller d).tickPos + 1 } := by
  obtain ⟨v, hc, hb, hu, -⟩ := callersTick_at (clocksTick s) hd
  rw [clocksTick_caller] at hc
  rw [clocksTick_bf] at hb
  rw [caller_tick hv hr, hu, caller_callerTick_within (by rw [hc, hb]; exact h), hc]

/-- A Caller at its period's end takes a tick off its timers, and a waiting TICK_CFG takes effect (R350). -/
theorem caller_tick_boundary {d : Nat} (hd : d < 2) (h : s.io.bf (bCaller d) Off.caller_TICK_CFG 19 0 ≤ (s.caller d).tickPos + 1) :
    (tick s).caller d =
      { s.caller d with tickPos := 0, tickNext := none, timers := (s.caller d).timers.map (fun x => { x with left := x.left - 1 }) } ∧
    ∀ v, (s.caller d).tickNext = some v → (tick s).io.bf (bCaller d) Off.caller_TICK_CFG 19 0 = v % 2 ^ 20 := by
  obtain ⟨v, hc, hb, hu, hw⟩ := callersTick_at (clocksTick s) hd
  rw [clocksTick_caller] at hc
  rw [clocksTick_bf] at hb
  have hbd : callerTick v d = callerBoundary v d := callerTick_boundary (by rw [hc, hb]; exact h)
  rw [hbd] at hu hw
  refine ⟨by rw [caller_tick hv hr, hu, caller_callerBoundary, hc], fun x hx => ?_⟩
  rw [tickCfg_tick hv hr, hw, tickCfg_callerBoundary (by rw [hc]; exact hx)]

theorem caller_tick_of_le {d : Nat} (hd : 2 ≤ d) : (tick s).caller d = s.caller d := by
  rw [caller_tick hv hr, caller_callersTick_of_le _ hd, clocksTick_caller]

/-- A register that is neither TICK_CFG nor a running core's count keeps its value. -/
theorem reg_tick {off : Nat} (hc : ∀ d < 2, normOff off ≠ (bCaller d).base + Off.caller_TICK_CFG)
    (hb : ∀ n ∈ smKeys s.cores, normOff off ≠ busyTicksOff n) : (tick s).io.reg off = s.io.reg off := by
  rw [tick_of_railsUp hv hr, reg_busyTicks_of_ne _ _ hb, reg_callersTick _ hc, clocksTick_reg]

/-- A running core counts once, unless its Caller's counters are frozen. -/
theorem reg_tick_busyTicks (hn : (smKeys s.cores).Nodup) (n : Nat) : (tick s).io.reg (busyTicksOff n) =
    if (s.core n).task.isSome ∧ s.io.frozen (bCaller (dieOfCore n)) = false then min 0xFFFFFFFF (s.io.reg (busyTicksOff n) + 1)
    else s.io.reg (busyTicksOff n) := by
  have hcfg : ∀ d < 2, normOff (busyTicksOff n) ≠ (bCaller d).base + Off.caller_TICK_CFG := by
    intro d _
    rw [normOff_busyTicksOff, ← normOff_tickCfg]
    exact (normOff_ne_busyTicksOff (by rw [tickCfg_mod]; decide) n).symm
  by_cases hk : n ∈ smKeys s.cores
  · have hcore : (callersTick (clocksTick s)).core n = s.core n := by
      rw [(regsAndCallersOnly_callersTick _).core, clocksTick_only]
      rfl
    have hfrozen : (callersTick (clocksTick s)).io.frozen (bCaller (dieOfCore n)) = s.io.frozen (bCaller (dieOfCore n)) := by
      refine (frozen_callerTick _ 1 _).trans ((frozen_callerTick _ 0 _).trans ?_)
      rw [frozen_caller, frozen_caller, clocksTick_reg]
    rw [tick_of_railsUp hv hr, reg_busyTicks_of_mem hn _ hk, reg_busyTick, hcore, hfrozen, reg_callersTick _ hcfg, clocksTick_reg]
  · have hidle : ¬ ((s.core n).task.isSome ∧ s.io.frozen (bCaller (dieOfCore n)) = false) := by
      rw [core_of_not_mem_keys hk]
      simp
    rw [if_neg hidle, reg_tick hv hr hcfg]
    intro m hm
    rw [normOff_busyTicksOff]
    exact busyTicksOff_ne fun h => hk (h ▸ hm)

end

/-- A register that a Caller of the device holds lies in its pages. -/
theorem blockAt_of_normOff_caller {off d o : Nat} (hd : d < 2) (ho : o < 0x8000) (h : normOff off = (bCaller d).base + o) :
    blockAt off = some (bCaller d) := by
  rw [← blockAt_normOff, h]
  exact blockAt_base hd ho

/-- Outside the two Callers' pages a tick writes no register, where every listed core is one of the device's. -/
theorem reg_tick_of_no_caller {s : State} (hv : s.rst.vaux = true) (hr : railsUp s = true) (hk : ∀ n ∈ smKeys s.cores, n < 96) {off : Nat}
    (h0 : blockAt off ≠ some (bCaller 0)) (h1 : blockAt off ≠ some (bCaller 1)) : (tick s).io.reg off = s.io.reg off := by
  have hne : ∀ d < 2, ∀ o < 0x8000, normOff off ≠ (bCaller d).base + o := by
    intro d hd o ho h
    have hb := blockAt_of_normOff_caller hd ho h
    obtain rfl | rfl : d = 0 ∨ d = 1 := by omega
    · exact h0 hb
    · exact h1 hb
  refine reg_tick hv hr (fun d hd => hne d hd _ (by decide)) fun n hn => ?_
  have hlt := hk n hn
  rw [busyTicksOff, Nat.add_assoc]
  exact hne _ (by rw [dieOfCore]; omega) _ (by simp only [Off.caller_BUSY_TICKS]; omega)

/-- Settles O57: the parts of a tick one by one, each with the rule of what it leaves alone. -/
theorem anEmptyQueueLetsATickPass : Obligations.AnEmptyQueueLetsATickPass := by
  refine ⟨fun s h => ?_, fun s h => tick_without_vaux h, fun s hv hr => tick_of_railsDown hv hr, fun s hv hr => ?_⟩
  · rw [step, h]
  · refine ⟨tick_only hv hr, fun h => ?_, fun h => ?_, fab_tick_root hv hr, fab_tick_not_root hv hr,
      fun d hd => ⟨caller_tick_within hv hr hd, caller_tick_boundary hv hr hd⟩, fun d => caller_tick_of_le hv hr,
      fun hk => ⟨fun off => reg_tick_of_no_caller hv hr hk, fun hn n _ => reg_tick_busyTicks hv hr hn n⟩⟩
    · rw [host_tick hv hr, ptpTick_disabled (s := tbTick s) h]
      rfl
    · rw [host_tick hv hr]
      exact ptpTick_enabled (s := tbTick s) h

/-- Settles O56: the definition of a step on a queue that is not empty. -/
theorem stepRunsTheFrontCommand : Obligations.StepRunsTheFrontCommand := fun _ _ _ => rfl

end Sys2Proof.Machine
end

section
/-! PROOF. What reset leaves in the registers (R38, R39, R49; log entry 9). -/

namespace Sys2Proof.Machine

/-- A header register reads its table's value at reset: the registers that start elsewhere lie past the headers (log entry 9). -/
theorem br_reset_header {b : Block} (hb : b.valid = true) {o : Nat} (ho : o < 0x040) :
    State.reset.io.br b o = resetOf (headerFields b 0 o) % 2 ^ 32 := by
  have hpage := base_page b
  have hnone : smFind (b.base + o) resetRegisters = none := by
    simp only [resetRegisters, smFind]
    rw [if_neg (by omega), if_neg (by omega), if_neg (by omega)]
  simp only [Io.br, Io.reg, normOff_base hb (by omega : o < 0x1000), smGet, State.reset, hnone, Option.getD_none, resetWord,
    fieldsAt_header hb ho, BitVec.toNat_ofNat]

/-- No kind of block starts with an event bit set. -/
theorem resetOf_evtStat (b : Block) : resetOf (headerFields b 0 0x010) = 0 := by
  obtain ⟨k, _⟩ := b
  cases k <;> rfl

/-- Settles O58: the header from its field lists, the listed registers by evaluation. -/
theorem resetLeavesTheTablesValues : Obligations.ResetLeavesTheTablesValues := by
  refine ⟨fun b hb => ⟨rfl, rfl, ?_, ?_, ?_⟩, by decide +kernel, by decide +kernel, rfl, rfl, rfl, rfl, rfl⟩
  · rw [br_reset_header hb (by decide), resetOf_evtStat, Nat.zero_mod]
  · exact br_reset_header hb (by decide)
  · exact br_reset_header hb (by decide)

end Sys2Proof.Machine
end

section
/-! PROOF. The forms of access that BAR0 accepts, and what every other one meets (R41). -/

namespace Sys2Proof.Machine

/-- The page that captures a refused form of access: the one addressed, or GLB for an empty one (R41). -/
def pageOrGlb (off : Nat) : Block :=
  match pageAt off with
  | some (b, _) => b
  | none => bGlb

theorem badAccess_eq (s : State) (off : Nat) : badAccess s off = s.mapIo (fun io => io.capture (pageOrGlb off) Code.BAD_ACCESS off) := by
  unfold badAccess pageOrGlb
  cases pageAt off <;> rfl

theorem goodForm_iff (off size : Nat) : goodForm off size = true ↔ (size = 4 ∧ off % 4 = 0) ∨ (size = 8 ∧ off % 8 = 0) := by
  simp [goodForm]

section
variable {s : State} {who : Requester} {off : Nat} (hr : reaches s who off = true)
include hr

theorem regRead_refused {size : Nat} (hf : goodForm off size = false) :
    regRead s who off size = (badAccess s off).mapIo (fun io => { io with read := List.replicate (cdiv size 4) 0xFFFFFFFF }) := by
  simp [regRead, hr, hf]

theorem regWrite_refused {size : Nat} (hf : goodForm off size = false) (v : Nat) : regWrite s who off size v = badAccess s off := by
  simp [regWrite, hr, hf]

theorem regWrite_word (ha : off % 4 = 0) (v : Nat) : regWrite s who off 4 v = writeAt s who off (v % 2 ^ 32) := by
  simp [regWrite, hr, goodForm, ha]

theorem regWrite_eight (ha : off % 8 = 0) (v : Nat) : regWrite s who off 8 v = write8 s who off v := by
  simp [regWrite, hr, goodForm, ha]

end

/-- Settles O21: each form of access by its rule, the refused ones by the capture of their page. -/
theorem otherAccessFormsAreRefused : Obligations.OtherAccessFormsAreRefused := by
  intro s who off size v hr page
  refine ⟨?_, ?_, fun h4 h8 => ?_⟩
  · rintro ⟨rfl, ha⟩
    exact ⟨congrArg _ (regRead_four hr ha), congrArg _ (regWrite_word hr ha _)⟩
  · rintro ⟨rfl, ha⟩
    exact ⟨congrArg _ (regRead_eight hr ha), congrArg _ (regWrite_eight hr ha _)⟩
  · have hf : goodForm off size = false := by
      rw [← Bool.not_eq_true, goodForm_iff]
      exact not_or.mpr ⟨h4, h8⟩
    refine ⟨⟨_, congrArg Host.Outcome.next (regRead_refused hr hf), rfl, ?_⟩, congrArg _ ((regWrite_refused hr hf _).trans (badAccess_eq s off))⟩
    rw [badAccess_eq]
    rfl

end Sys2Proof.Machine
end

section
/-! SUPPORT. Registers told apart by their place in a page; what event delivery and error capture leave alone (R36, R39, R40). -/

namespace Sys2Proof.Machine

theorem base_add_mod (b : Block) {o : Nat} (ho : o < 0x1000) : (b.base + o) % 0x1000 = o := by
  have := base_page b
  omega

theorem normOff_ne_of_mod {x y : Nat} (h : x % 0x1000 ≠ y % 0x1000) : normOff x ≠ normOff y := fun e =>
  h (by rw [← normOff_mod x, e, normOff_mod])

namespace Io

theorem reg_setReg_of_mod (io : Io) {off o : Nat} (v : Nat) (h : o % 0x1000 ≠ off % 0x1000) : (io.setReg off v).reg o = io.reg o :=
  reg_setReg_of_ne io v (normOff_ne_of_mod h)

theorem reg_count_of_mod (io : Io) (b : Block) {c o : Nat} (n : Nat) (h : o % 0x1000 ≠ (b.base + c) % 0x1000) :
    (io.count b c n).reg o = io.reg o := by
  unfold count
  split
  · rfl
  · exact reg_setReg_of_mod io _ h

/-- A record given to event delivery writes no register but EVTQ's EVT_STAT and its count of losses (R529). -/
theorem reg_emit (io : Io) (r : EvRec) {o : Nat} (hs : o % 0x1000 ≠ 0x010) (hl : o % 0x1000 ≠ Off.evtq_SRC_LOST) :
    (io.emit r).reg o = io.reg o := by
  unfold emit
  split
  · rfl
  · split
    · rfl
    · exact (reg_setReg_of_mod _ _ hs).trans (reg_count_of_mod io bEvtq 1 hl)

/-- An event bit writes no register but its block's EVT_STAT and what event delivery writes (R39). -/
theorem reg_riseWith (io : Io) (b : Block) (bit : Nat) (r : Option EvRec) {o : Nat} (hs : o % 0x1000 ≠ 0x010)
    (hl : o % 0x1000 ≠ Off.evtq_SRC_LOST) : (io.riseWith b bit r).reg o = io.reg o := by
  have hstat : ∀ v, (io.setReg (b.base + 0x010) v).reg o = io.reg o := fun v =>
    reg_setReg_of_mod io v (by rwa [base_add_mod b (by decide)])
  unfold riseWith
  dsimp only
  split
  · rfl
  · split
    · exact hstat _
    · split
      · exact (reg_emit _ _ hs hl).trans (hstat _)
      · exact hstat _

theorem reg64_congr {x y : Io} {o : Nat} (hlo : x.reg o = y.reg o) (hhi : x.reg (o + 4) = y.reg (o + 4)) : x.reg64 o = y.reg64 o := by
  rw [reg64, reg64, hlo, hhi]

/-- A 64-bit pair after the device's own write. -/
theorem reg64_setReg64 (io : Io) {o v : Nat} (h : normOff o ≠ normOff (o + 4)) : (io.setReg64 o v).reg64 o = v % 2 ^ 64 := by
  rw [reg64, setReg64, reg_setReg_self, reg_setReg_of_ne _ _ h, reg_setReg_self]
  omega

theorem reg_setReg64_of_mod (io : Io) {off o : Nat} (v : Nat) (hlo : o % 0x1000 ≠ off % 0x1000) (hhi : o % 0x1000 ≠ (off + 4) % 0x1000) :
    (io.setReg64 off v).reg o = io.reg o :=
  (reg_setReg_of_mod _ _ hhi).trans (reg_setReg_of_mod _ _ hlo)

end Io

end Sys2Proof.Machine
end

section
/-! PROOF. Error capture: the first error, the further ones, and the clear (R40). -/

namespace Sys2Proof.Machine

namespace Io

/-- The registers that an error leaves before it is counted. -/
def captured (io : Io) (b : Block) (code addr : Nat) (ctx : Option Nat) : Io :=
  if bitOf (io.br b 0x01C) 31 then io.setReg (b.base + 0x01C) (putBits (io.br b 0x01C) 30 30 1)
  else ((io.setReg (b.base + 0x01C) (2 ^ 31 + classOf code * 2 ^ 16 + code)).setReg64 (b.base + 0x020) addr).riseNamed b 0 (classOf code) code ctx addr 0

theorem capture_eq (io : Io) (b : Block) (code addr : Nat) (ctx : Option Nat) : io.capture b code addr ctx =
    (io.captured b code addr ctx).setReg (b.base + 0x028) (min 0xFFFFFFFF ((io.captured b code addr ctx).reg (b.base + 0x028) + 1)) := rfl

theorem classOf_lt (code : Nat) : classOf code < 2 ^ 15 := by
  unfold classOf
  split_ifs <;> decide

section
variable (io : Io) (b : Block) (code addr : Nat) (ctx : Option Nat)

/-- ERR_ADDR's two halves are two registers. -/
theorem normOff_errAddr_ne : normOff (b.base + 0x020) ≠ normOff (b.base + 0x020 + 4) :=
  normOff_ne_of_mod (by rw [Nat.add_assoc, base_add_mod b (by decide), base_add_mod b (by decide)]; decide)

theorem reg_captured_of_mod {o : Nat} (h : o % 0x1000 = 0x028) : (io.captured b code addr ctx).reg o = io.reg o := by
  unfold captured
  split
  · exact reg_setReg_of_mod _ _ (by rw [h, base_add_mod b (by decide)]; decide)
  · refine (reg_riseWith _ _ _ _ (by omega) (by rw [h]; decide)).trans ((reg_setReg64_of_mod _ _ ?_ ?_).trans (reg_setReg_of_mod _ _ ?_))
    · rw [h, base_add_mod b (by decide)]; decide
    · rw [h, Nat.add_assoc, base_add_mod b (by decide)]; decide
    · rw [h, base_add_mod b (by decide)]; decide

theorem reg_capture_of_mod {o : Nat} (h : o % 0x1000 ≠ 0x028) : (io.capture b code addr ctx).reg o = (io.captured b code addr ctx).reg o := by
  rw [capture_eq]
  exact reg_setReg_of_mod _ _ (by rwa [base_add_mod b (by decide)])

/-- Every error is counted, up to the largest value. -/
theorem errCount_capture : (io.capture b code addr ctx).br b 0x028 = min 0xFFFFFFFF (io.br b 0x028 + 1) := by
  rw [br, capture_eq, reg_setReg_self, reg_captured_of_mod _ _ _ _ _ (base_add_mod b (by decide)), br]
  omega

variable {io b code}

/-- The first error sets the capture (R40). -/
theorem errCapt_capture_first (h : bitOf (io.br b 0x01C) 31 = false) (hc : code < 2 ^ 16) :
    (io.capture b code addr ctx).br b 0x01C = 2 ^ 31 + classOf code * 2 ^ 16 + code := by
  have hcls := classOf_lt code
  rw [br, reg_capture_of_mod _ _ _ _ _ (by rw [base_add_mod b (by decide)]; decide), captured, h, if_neg Bool.false_ne_true, riseNamed,
    reg_riseWith _ _ _ _ (by rw [base_add_mod b (by decide)]; decide) (by rw [base_add_mod b (by decide)]; decide),
    reg_setReg64_of_mod _ _ (by rw [base_add_mod b (by decide), base_add_mod b (by decide)]; decide)
      (by rw [Nat.add_assoc, base_add_mod b (by decide), base_add_mod b (by decide)]; decide), reg_setReg_self]
  omega

theorem errAddr_capture_first (h : bitOf (io.br b 0x01C) 31 = false) :
    (io.capture b code addr ctx).reg64 (b.base + 0x020) = addr % 2 ^ 64 := by
  have keep : ∀ o, 0x010 < o → o < 0x028 → (io.capture b code addr ctx).reg (b.base + o) =
      ((io.setReg (b.base + 0x01C) (2 ^ 31 + classOf code * 2 ^ 16 + code)).setReg64 (b.base + 0x020) addr).reg (b.base + o) := by
    intro o h1 h2
    have hm := base_add_mod b (o := o) (by omega)
    rw [reg_capture_of_mod _ _ _ _ _ (by omega), captured, h, if_neg Bool.false_ne_true, riseNamed,
      reg_riseWith _ _ _ _ (by omega) (by simp only [Off.evtq_SRC_LOST]; omega)]
  rw [reg64_congr (keep 0x020 (by decide) (by decide)) (keep 0x024 (by decide) (by decide)), reg64_setReg64 _ (normOff_errAddr_ne b)]

/-- A further error sets OVERFLOW and changes nothing else in the capture (R40). -/
theorem errCapt_capture_further (h : bitOf (io.br b 0x01C) 31 = true) :
    (io.capture b code addr ctx).br b 0x01C = putBits (io.br b 0x01C) 30 30 1 % 2 ^ 32 := by
  rw [br, reg_capture_of_mod _ _ _ _ _ (by rw [base_add_mod b (by decide)]; decide), captured, if_pos h, reg_setReg_self]

theorem errAddr_capture_further (h : bitOf (io.br b 0x01C) 31 = true) :
    (io.capture b code addr ctx).reg64 (b.base + 0x020) = io.reg64 (b.base + 0x020) := by
  have keep : ∀ o, 0x01C < o → o < 0x028 → (io.capture b code addr ctx).reg (b.base + o) = io.reg (b.base + o) := by
    intro o h1 h2
    have hm := base_add_mod b (o := o) (by omega)
    rw [reg_capture_of_mod _ _ _ _ _ (by omega), captured, if_pos h,
      reg_setReg_of_mod _ _ (by rw [hm, base_add_mod b (by decide)]; omega)]
  exact reg64_congr (keep 0x020 (by decide) (by decide)) (keep 0x024 (by decide) (by decide))

/-- VALID stands after every capture. -/
theorem valid_capture (hc : code < 2 ^ 16) : bitOf ((io.capture b code addr ctx).br b 0x01C) 31 = true := by
  cases h : bitOf (io.br b 0x01C) 31 with
  | false =>
    have hcls := classOf_lt code
    rw [errCapt_capture_first addr ctx h hc, bitOf, beq_iff_eq]
    omega
  | true =>
    have hlt := io.reg_lt (b.base + 0x01C)
    rw [errCapt_capture_further addr ctx h]
    simp only [bitOf, beq_iff_eq, putBits, bitsOf, br] at h ⊢
    omega

end

/-- Writing VALID clears the capture. -/
theorem errCapt_clearCapture (io : Io) (b : Block) : (io.clearCapture b).br b 0x01C = 0 := by
  rw [br, clearCapture, reg_setReg64_of_mod _ _ (by rw [base_add_mod b (by decide), base_add_mod b (by decide)]; decide)
    (by rw [Nat.add_assoc, base_add_mod b (by decide), base_add_mod b (by decide)]; decide), reg_setReg_self, Nat.zero_mod]

theorem errAddr_clearCapture (io : Io) (b : Block) : (io.clearCapture b).reg64 (b.base + 0x020) = 0 :=
  (reg64_setReg64 _ (normOff_errAddr_ne b)).trans (Nat.zero_mod _)

theorem onlyRegs_clearCapture (io : Io) {b : Block} (hb : b.valid = true) : OnlyRegs [b] io (io.clearCapture b) := by
  have hp := pages_pos b.kind
  exact (onlyRegs_setReg io hb (by omega) 0).trans (onlyRegs_setReg64 _ hb (by omega) 0)

end Io

end Sys2Proof.Machine
end

section
/-! PROOF. Writes of the header, and what HOST_WR and READY let through (R40, R43, R44). -/

namespace Sys2Proof.Machine

/-- A header register that later pages show too is the first page's (R37). -/
theorem normOff_header {off : Nat} {b : Block} {p : Nat} (hpage : pageAt off = some (b, p)) (h1 : 0x004 ≤ off % 0x1000)
    (h2 : off % 0x1000 ≤ 0x028) : normOff off = b.base + off % 0x1000 := by
  simp only [normOff, hpage, if_pos (And.intro h1 h2)]

section
variable {s : State} {who : Requester} {off : Nat} {b : Block} {p : Nat} (hpage : pageAt off = some (b, p))
include hpage

theorem writeAt_refused {t : State} (hw : writeRefused s who b off = some t) (v : Nat) : writeAt s who off v = t := by
  simp [writeAt, hpage, hw]

theorem writeAt_header (h1 : 0x004 ≤ off % 0x1000) (h2 : off % 0x1000 ≤ 0x028) (hw : writeRefused s who b off = none) (v : Nat) :
    writeAt s who off v = headerWrite s who b (off % 0x1000) v := by
  have ho : off % 0x1000 < 0x040 := by omega
  simp only [writeAt, hpage, hw, write4, normOff_header hpage h1 h2, Nat.add_sub_cancel_left, if_pos ho]

end

/-- The registers of events and errors, which the host writes whatever HOST_WR says (R43). -/
theorem writeRefused_event {s : State} {who : Requester} {b : Block} {off : Nat} (hr : s.io.ready b = true)
    (ho : off % 0x1000 ≠ 0x008) (ho' : off % 0x1000 < 0x040) : writeRefused s who b off = none := by
  have hn : ¬ 0x040 ≤ off % 0x1000 := by omega
  simp [writeRefused, hr, ho, hn]

theorem writeRefused_denied {s : State} {b : Block} {off : Nat} (hr : s.io.ready b = true) (hb : b.hostWr = false)
    (ho : off % 0x1000 = 0x008 ∨ (0x040 ≤ off % 0x1000 ∧ fieldsAt off ≠ [])) :
    writeRefused s .host b off = some (s.mapIo (fun io => io.capture b Code.HOST_WRITE_DENIED off)) := by
  simp [writeRefused, hr, hb, ho]

theorem writeRefused_notReady {s : State} (who : Requester) {b : Block} {off : Nat} (hr : s.io.ready b = false) (ho : off % 0x1000 ≠ 0x014) :
    writeRefused s who b off = some (s.mapIo (fun io => io.capture bGlb Code.WRITE_NOT_READY off)) := by
  simp [writeRefused, hr, ho]

theorem writeRefused_notReady_mask {s : State} (who : Requester) {b : Block} {off : Nat} (hr : s.io.ready b = false)
    (ho : off % 0x1000 = 0x014) : writeRefused s who b off = none := by
  simp [writeRefused, hr, ho]

/-! ### Error capture -/

theorem executed {b : Block} (hb : b.valid = true) : ¬ instances b.kind ≤ b.inst := by
  simpa [Block.valid] using hb

theorem errCaptWrite {s : State} {who : Requester} {b : Block} (hb : b.valid = true) (hr : reaches s who (b.base + 0x01C) = true)
    (hready : s.io.ready b = true) : regWrite s who (b.base + 0x01C) 4 (2 ^ 31) = s.mapIo (fun io => io.clearCapture b) := by
  have hp := Io.pages_pos b.kind
  have hm := base_add_mod b (o := 0x01C) (by decide)
  have hpage := pageAt_base (by simpa [Block.valid] using hb) (by omega : 0x01C < 4096 * (catRow b.kind).pages)
  rw [regWrite_word hr (by omega), writeAt_header hpage (by omega) (by omega) (writeRefused_event hready (by omega) (by omega)), hm]
  rfl

theorem putBits_overflow_lt {v : Nat} (h : v < 2 ^ 32) : putBits v 30 30 1 < 2 ^ 32 := by
  simp only [putBits, bitsOf]
  omega

/-- Settles O23: the capture by its two cases, and the clear before the error of the same clock. -/
theorem errorCaptureKeepsTheFirstError : Obligations.ErrorCaptureKeepsTheFirstError := by
  intro s b hb captured
  refine ⟨fun code addr hc => ⟨fun h => ?_, fun h => ?_, Io.errCount_capture ..⟩, fun who hr hready => ?_⟩
  · exact ⟨Io.errCapt_capture_first addr none h hc, Io.errAddr_capture_first addr none h⟩
  · exact ⟨(Io.errCapt_capture_further addr none h).trans (Nat.mod_eq_of_lt (putBits_overflow_lt (Io.reg_lt ..))),
      Io.errAddr_capture_further addr none h⟩
  · have hclear := errCaptWrite hb hr hready
    have hvalid : bitOf ((s.io.clearCapture b).br b 0x01C) 31 = false := by
      rw [Io.errCapt_clearCapture]
      rfl
    refine ⟨⟨s.mapIo (fun io => io.clearCapture b), ?_, Io.errCapt_clearCapture .., Io.errAddr_clearCapture .., rfl,
      Io.onlyRegs_clearCapture _ hb⟩, fun code addr hc => ⟨s.mapIo (fun io => (io.clearCapture b).capture b code addr), ?_,
        ⟨Io.errCapt_capture_first addr none hvalid hc, Io.errAddr_capture_first addr none hvalid⟩, rfl,
        (Io.onlyRegs_clearCapture _ hb).events.trans (Io.onlyEvents_capture _ hb ..)⟩⟩
    · exact (if_neg (executed hb)).trans (congrArg Host.Outcome.next hclear)
    · refine (if_neg (executed hb)).trans ?_
      rw [hclear]
      rfl

/-! ### HOST_WR and READY -/

theorem readWord_ready {s : State} {off : Nat} {b : Block} {p : Nat} (hpage : pageAt off = some (b, p)) (hr : s.io.ready b = true) :
    readWord s off = BitVec.ofNat 32 (readable (fieldsAt (normOff off)) (shownWord s off)) := by
  simp [readWord, hpage, hr]

theorem readWord_notReady {s : State} {off : Nat} {b : Block} {p : Nat} (hpage : pageAt off = some (b, p)) (hr : s.io.ready b = false) :
    readWord s off = if 0x040 ≤ off % 0x1000 then 0 else BitVec.ofNat 32 (readable (fieldsAt (normOff off)) (shownWord s off)) := by
  simp [readWord, hpage, hr]

/-- A register that is no half of a pair reads its word. -/
theorem read_read4_single {s : State} {who : Requester} {off : Nat} (hlo : isPairLo (normOff off) = false) (hhi : isPairHi (normOff off) = false) :
    (read4 s who off).io.read = [readWord s off] := by
  simp [read4, hlo, hhi]

/-- While READY is 0 a read uses no snapshot up. -/
theorem read_read4_notReady {s : State} (who : Requester) {off : Nat} {b : Block} {p : Nat} (hpage : pageAt off = some (b, p))
    (hr : s.io.ready b = false) : (read4 s who off).io.read = [readWord s off] := by
  cases hlo : isPairLo (normOff off) with
  | true => simp [read4, hlo]
  | false =>
    cases hhi : isPairHi (normOff off) with
    | false => exact read_read4_single hlo hhi
    | true => cases hs : snapOf s.io who <;> simp [read4, hlo, hhi, hs, hpage, hr]

theorem pageAt_add_four {off : Nat} (h : off % 8 = 0) : pageAt (off + 4) = pageAt off := by
  rw [pageAt_page, pageAt_page off, show (off + 4) / 4096 = off / 4096 by omega]

theorem errCount_capture_ne_zero (io : Io) (b : Block) (code addr : Nat) (ctx : Option Nat) :
    (io.capture b code addr ctx).br b 0x028 ≠ 0 := by
  rw [Io.errCount_capture]
  omega

/-- A capture leaves READY as it is. -/
theorem ready_capture (io : Io) {b : Block} (hb : b.valid = true) (code addr : Nat) (ctx : Option Nat) (c : Block) :
    (io.capture b code addr ctx).ready c = io.ready c := by
  rw [(Io.onlyEvents_capture io hb code addr ctx).1]
  rfl

theorem bGlb_valid : bGlb.valid = true := by decide

/-- An 8-byte write past the header of a page that is not ready only captures in GLB, once or for each half (R44). -/
theorem write8_notReady {s : State} (who : Requester) {off : Nat} {b : Block} {p : Nat} (hpage : pageAt off = some (b, p))
    (hr : s.io.ready b = false) (ho : 0x040 ≤ off % 0x1000) (ha : off % 8 = 0) (v : Nat) :
    ∃ x : Io, Io.OnlyEvents [bGlb] s.io x ∧ ∃ a, write8 s who off v = s.withIo (x.capture bGlb Code.WRITE_NOT_READY a) := by
  have hlo := writeRefused_notReady who hr (off := off) (by omega)
  unfold write8
  simp only [hpage]
  split
  · rw [hlo]
    exact ⟨s.io, Io.onlyEvents_refl _ _, off, rfl⟩
  · have hhi : ((s.mapIo (fun io => io.capture bGlb Code.WRITE_NOT_READY off)).io).ready b = false := by
      rw [mapIo_io, ready_capture _ bGlb_valid, hr]
    rw [writeAt_refused hpage hlo, writeAt_refused (by rw [pageAt_add_four ha, hpage]) (writeRefused_notReady who hhi (by omega))]
    exact ⟨_, Io.onlyEvents_capture s.io bGlb_valid _ _ _, off + 4, rfl⟩

/-- Settles O22: each access by whether its page is ready, and whose its writes are. -/
theorem writesFollowHostWrAndReady : Obligations.WritesFollowHostWrAndReady := by
  intro s who off b p v hpage ha hreach o word
  have hword : regWrite s who off 4 v.toNat = writeAt s who off word := regWrite_word hreach ha _
  have hread : regRead s who off 4 = read4 s who off := regRead_four hreach ha
  refine ⟨fun hr => ⟨?_, fun ho => ?_, fun hlo hhi => ?_⟩, fun hr => ⟨?_, fun ho => ?_, fun ho => ?_, fun ha8 ho => ?_⟩⟩
  · rintro rfl hb ho
    have hw := writeRefused_denied hr hb ho
    refine ⟨congrArg _ (hword.trans (writeAt_refused hpage hw _)), fun ha8 ho' hlo => congrArg Host.Outcome.next ?_⟩
    rw [regWrite_eight hreach ha8]
    simp only [write8, hpage, hlo, true_and, hw]
    exact if_pos ho'
  · exact congrArg _ (hword.trans (writeAt_header hpage (by omega) (by omega) (writeRefused_event hr (by omega) (by omega)) _))
  · exact ⟨_, congrArg Host.Outcome.next hread, (read_read4_single hlo hhi).trans (by rw [readWord_ready hpage hr])⟩
  · exact ⟨_, congrArg Host.Outcome.next hread, (read_read4_notReady who hpage hr).trans (by rw [readWord_notReady hpage hr])⟩
  · exact congrArg _ (hword.trans (writeAt_refused hpage (writeRefused_notReady who hr ho) _))
  · refine congrArg _ (hword.trans ((writeAt_header hpage (by omega) (by omega) (writeRefused_notReady_mask who hr ho) _).trans ?_))
    rw [show off % 0x1000 = 0x014 from ho]
    rfl
  · obtain ⟨x, hx, a, hwrite⟩ := write8_notReady who hpage hr ho ha8 v.toNat
    exact ⟨_, congrArg _ ((regWrite_eight hreach ha8 _).trans hwrite), hx.trans (Io.onlyEvents_capture x bGlb_valid _ _ _),
      Io.valid_capture _ _ (by decide), errCount_capture_ne_zero _ _ _ _ _⟩

end Sys2Proof.Machine
end

section
/-! PROOF. A forced event of EVTQ that finds no room: its loss is an event of EVTQ itself (R39, R529). -/

namespace Sys2Proof.Machine

/-- The reset state with EVTQ's ERR_CAPTURED unmasked and the 16 places of records held at EVTQ taken. -/
def evtqSourceFull : State :=
  { State.reset with io := { State.reset.io with
      regs := (0x4014, 0) :: resetRegisters
      held := List.replicate 16 { ts := 0, src := bEvtq, cls := Cls.ERROR, code := 0 } } }

/-- EVT_FORCE of bit 0 sets bit 2 too, for the record that was lost (R529). -/
theorem evtStat_force_sourceFull : (regWrite evtqSourceFull .host (bEvtq.base + 0x018) 4 1).io.br bEvtq 0x010 = 5 := by decide +kernel

/-- Refutes O25: EVT_FORCE of one bit of EVTQ, whose record finds no room (R529), sets the bit for lost records as well, so that EVT_STAT is not
what it was with the one bit set. -/
theorem not_headerRegistersControlTheirBlock : ¬ Obligations.HeaderRegistersControlTheirBlock := by
  intro h
  obtain ⟨-, -, hforce, -⟩ := h evtqSourceFull .host bEvtq (by decide) (by decide +kernel) (by decide +kernel) (by decide +kernel)
    (by decide +kernel) (by decide +kernel)
  obtain ⟨t, ht, -, -, hstat, -⟩ := hforce 0 (by decide +kernel) (by decide +kernel)
  have hwrite : t = regWrite evtqSourceFull .host (bEvtq.base + 0x018) 4 1 := (Host.Outcome.next.inj ht).symm
  rw [hwrite, evtStat_force_sourceFull] at hstat
  exact absurd hstat (by decide +kernel)

end Sys2Proof.Machine
end

section
/-! SUPPORT. Fields of a register word, and sets of indices as bits. -/

namespace Sys2Proof.Machine

/-- A field of a word is a field of the number it is cut from. -/
theorem bitsOf_mod_word {hi : Nat} (h : hi < 32) (x lo : Nat) : bitsOf (x % 2 ^ 32) hi lo = bitsOf x hi lo := by
  unfold bitsOf
  by_cases hlo : lo ≤ hi
  · rw [show (2 : Nat) ^ 32 = 2 ^ lo * 2 ^ (32 - lo) by rw [← pow_add]; congr 1; omega, Nat.mod_mul_right_div_self,
      Nat.mod_mod_of_dvd _ (pow_dvd_pow 2 (by omega))]
  · rw [show hi + 1 - lo = 0 by omega]
    simp [Nat.mod_one]

theorem bitOf_eq_testBit (n i : Nat) : bitOf n i = n.testBit i := by
  rw [bitOf, Nat.testBit_eq_decide_div_mod_eq]
  rfl

theorem bitSet_succ (n : Nat) (p : Nat → Bool) : bitSet (n + 1) p = bitSet n p + if p n then 2 ^ n else 0 := by
  rw [bitSet, List.range_succ, List.foldl_append]
  simp only [List.foldl_cons, List.foldl_nil, bitSet]
  split <;> rfl

theorem bitSet_lt (n : Nat) (p : Nat → Bool) : bitSet n p < 2 ^ n := by
  induction n with
  | zero => exact Nat.one_pos
  | succ n ih =>
    rw [bitSet_succ, pow_succ]
    split <;> omega

/-- The bits of a set of indices. -/
theorem bitOf_bitSet {n : Nat} (p : Nat → Bool) {i : Nat} (hi : i < n) : bitOf (bitSet n p) i = p i := by
  rw [bitOf_eq_testBit]
  induction n with
  | zero => omega
  | succ n ih =>
    have key : bitSet (n + 1) p = 2 ^ n * (if p n then 1 else 0) + bitSet n p := by
      rw [bitSet_succ]
      split <;> omega
    rw [key, Nat.testBit_two_pow_mul_add _ (bitSet_lt n p)]
    split
    · exact ih ‹_›
    · obtain rfl : i = n := by omega
      rw [Nat.sub_self]
      cases p i <;> rfl

namespace Io

theorem reg_setBf_of_mod (io : Io) (b : Block) (c hi lo x : Nat) {o : Nat} (h : o % 0x1000 ≠ (b.base + c) % 0x1000) :
    (io.setBf b c hi lo x).reg o = io.reg o :=
  reg_setReg_of_mod io _ h

theorem bf_setBf_low (io : Io) (b : Block) (c x : Nat) {hi : Nat} (h : hi < 32) : (io.setBf b c hi 0 x).bf b c hi 0 = x % 2 ^ (hi + 1) := by
  rw [bf, fld, setBf, setFld, reg_setReg_self, bitsOf_mod_word h, bitsOf_putBits_low]

theorem onlyRegs_setBf (io : Io) {b : Block} (hb : b.valid = true) {o : Nat} (ho : o < 4096 * (catRow b.kind).pages) (hi lo x : Nat) :
    OnlyRegs [b] io (io.setBf b o hi lo x) :=
  onlyRegs_setReg io hb ho _

end Io

end Sys2Proof.Machine
end

section
/-! PROOF. Driver negotiation: what a write of DRV_VER asks for, and what the Factor answers (R48 to R51, Table 2.13). -/

namespace Sys2Proof.Machine

theorem bCtxt_valid : bCtxt.valid = true := by decide

/-- BAR0 offset of DRV_VER. -/
def drvVerOff : Nat := bGlb.base + Off.glb_DRV_VER

/-- A withdrawal writes FEAT, NEG_STAT and CTRL_RING only. -/
theorem reg_withdraw (io : Io) {o : Nat} (hf : o % 0x1000 ≠ 0x58) (hg : o % 0x1000 ≠ 0x5c) (hn : o % 0x1000 ≠ 0x60) (hr : o % 0x1000 ≠ 0x50) :
    (withdraw io).reg o = io.reg o := by
  unfold withdraw
  rw [Io.reg_setBf_of_mod _ _ _ _ _ _ hr, Io.reg_setBf_of_mod _ _ _ _ _ _ hr, Io.reg_setBf_of_mod _ _ _ _ _ _ hn, Io.reg_setReg64_of_mod _ _ hf hg]

theorem feat_withdraw (io : Io) : (withdraw io).reg64 (bGlb.base + Off.glb_FEAT_LO) = 0 := by
  have keep : ∀ o, o = Off.glb_FEAT_LO ∨ o = Off.glb_FEAT_HI →
      (withdraw io).reg (bGlb.base + o) = (io.setReg64 (bGlb.base + Off.glb_FEAT_LO) 0).reg (bGlb.base + o) := by
    rintro o (rfl | rfl)
    all_goals
      unfold withdraw
      rw [Io.reg_setBf_of_mod _ _ _ _ _ _ (by decide), Io.reg_setBf_of_mod _ _ _ _ _ _ (by decide), Io.reg_setBf_of_mod _ _ _ _ _ _ (by decide)]
  rw [Io.reg64_congr (keep _ (.inl rfl)) (keep _ (.inr rfl)), Io.reg64_setReg64 _ (normOff_ne_of_mod (by decide)), Nat.zero_mod]

theorem negState_withdraw (io : Io) : negState (withdraw io) = 0 := by
  rw [negState, withdraw, Io.bf_congr (Io.reg_setBf_of_mod _ _ _ _ _ _ (by decide)), Io.bf_congr (Io.reg_setBf_of_mod _ _ _ _ _ _ (by decide)),
    Io.bf_setBf_low _ _ _ _ (by decide), Nat.zero_mod]

theorem onlyRegs_withdraw (io : Io) : Io.OnlyRegs [bGlb, bCtxt] io (withdraw io) := by
  have hg := (Io.onlyRegs_setReg64 io bGlb_valid (o := Off.glb_FEAT_LO) (by decide) 0).trans
    (Io.onlyRegs_setBf _ bGlb_valid (o := Off.glb_NEG_STAT) (by decide) 1 0 0)
  exact (hg.mono (by simp)).trans (((Io.onlyRegs_setBf _ bCtxt_valid (o := Off.ctxt_CTRL_RING) (by decide) 15 11 0).trans
    (Io.onlyRegs_setBf _ bCtxt_valid (o := Off.ctxt_CTRL_RING) (by decide) 20 16 0)).mono (by simp))

/-! ### The write of DRV_VER -/

/-- A write of DRV_VER on a ready page is R49's. -/
theorem regWrite_drvVer {s : State} {who : Requester} (hr : reaches s who drvVerOff = true) (hready : s.io.ready bGlb = true) (v : W32) :
    regWrite s who drvVerOff 4 v.toNat = drvVerWrite s v.toNat := by
  have hpage : pageAt drvVerOff = some (bGlb, 0) := by decide +kernel
  have hnorm : normOff drvVerOff = drvVerOff := normOff_of_past_header (by decide)
  have hlo : isPairLo drvVerOff = false := by decide +kernel
  have hhi : isPairHi drvVerOff = false := by decide +kernel
  have hfields : fieldsAt drvVerOff ≠ [] := by decide +kernel
  have hw : writeRefused s who bGlb drvVerOff = none := by
    simp [writeRefused, hready, show bGlb.hostWr = true from rfl]
  rw [regWrite_four hr (by decide)]
  simp only [writeAt, hpage, hw, hnorm, write4, hlo, hhi, hfields, Bool.false_eq_true, if_false,
    show drvVerOff - bGlb.base = Off.glb_DRV_VER by decide, show ¬ Off.glb_DRV_VER < 0x040 by decide]
  unfold blockWrite
  exact if_pos rfl

/-- A context or a command of the control ring exists (R49). -/
def negBusy (s : State) : Prop := s.adm.ctxs ≠ [] ∨ s.adm.cmds.any (fun r => decide (r.cmd.ring = 0)) = true

/-- DRV_VER written. -/
def drvVerSet (s : State) (v : Nat) : State := s.mapIo (fun io => io.setReg drvVerOff v)

/-- Negotiation stands PENDING (R48). -/
def askNegotiation (s : State) : State := s.mapIo (fun io => io.setBf bGlb Off.glb_NEG_STAT 1 0 1)

theorem drvVerWrite_busy {s : State} (h : negBusy s) (v : Nat) :
    drvVerWrite s v = s.mapIo (fun io => io.capture bGlb Code.DRV_VER_BUSY drvVerOff) := if_pos h

theorem drvVerWrite_withdraws {s : State} (h : ¬ negBusy s) {v : Nat} (hv : bitsOf v 31 24 = 0) :
    drvVerWrite s v = withdrawAll (drvVerSet s v) := (if_neg h).trans (if_pos hv)

theorem drvVerWrite_asks {s : State} (h : ¬ negBusy s) {v : Nat} (hv : bitsOf v 31 24 ≠ 0) :
    drvVerWrite s v = askNegotiation (if negState s.io = 2 ∨ negState s.io = 3 then withdrawAll (drvVerSet s v) else drvVerSet s v) :=
  (if_neg h).trans (if_neg hv)

theorem reg_drvVerSet (s : State) (v : W32) : (drvVerSet s v.toNat).io.reg drvVerOff = v.toNat :=
  (Io.reg_setReg_self _ _ _).trans (Nat.mod_eq_of_lt v.isLt)

theorem onlyRegs_drvVerSet (s : State) (v : Nat) : Io.OnlyRegs [bGlb, bCtxt] s.io (drvVerSet s v).io :=
  (Io.onlyRegs_setReg s.io bGlb_valid (o := Off.glb_DRV_VER) (by decide) v).mono (by simp)

theorem negState_askNegotiation (s : State) : negState (askNegotiation s).io = 1 :=
  Io.bf_setBf_low _ _ _ _ (by decide)

theorem onlyRegs_askNegotiation (s : State) : Io.OnlyRegs [bGlb, bCtxt] s.io (askNegotiation s).io :=
  (Io.onlyRegs_setBf s.io bGlb_valid (o := Off.glb_NEG_STAT) (by decide) 1 0 1).mono (by simp)

theorem reg_askNegotiation (s : State) : (askNegotiation s).io.reg drvVerOff = s.io.reg drvVerOff :=
  Io.reg_setBf_of_mod _ _ _ _ _ _ (by decide)

theorem ring_askNegotiation (s : State) (k : Nat) : (askNegotiation s).ring? k = s.ring? k := rfl

theorem reg_withdrawAll_drvVer (s : State) : (withdrawAll s).io.reg drvVerOff = s.io.reg drvVerOff :=
  reg_withdraw _ (by decide) (by decide) (by decide) (by decide)

theorem ring_withdrawAll (s : State) : (withdrawAll s).ring? 0 = none := smFind_smErase_self _ _

/-- The control ring's bases stay through a withdrawal (R49). -/
theorem ctrlBase_withdrawn (s : State) (v : Nat) {o : Nat} (ho : o = Off.ctxt_CTRL_SQ_BASE_LO ∨ o = Off.ctxt_CTRL_CQ_BASE_LO) :
    (withdrawAll (drvVerSet s v)).io.br bCtxt o = s.io.br bCtxt o := by
  obtain rfl | rfl := ho
  all_goals exact (reg_withdraw _ (by decide) (by decide) (by decide) (by decide)).trans (Io.reg_setReg_of_mod _ _ (by decide))

/-! ### The Factor's answer -/

theorem featureMask_lt (s : State) : featureMask s < 2 ^ 10 := bitSet_lt _ _

theorem featureMask_ddr (s : State) : bitOf (featureMask s) 1 = s.mem.ddrUp.any (fun c => !s.mem.lost.contains ⟨.ddr, c⟩) :=
  bitOf_bitSet _ (by decide)

theorem featureMask_links (s : State) : bitOf (featureMask s) 3 = (List.range 12).any (fun l => (s.link l).st == 4) :=
  bitOf_bitSet _ (by decide)

/-- BAR0 offset of NEG_STAT. -/
def negStatOff : Nat := bGlb.base + Off.glb_NEG_STAT

/-- The registers of an honoured request: version 1.0, the mask and DONE (R48). -/
def honourIo (io : Io) (mask : Nat) : Io :=
  (((io.setFld negStatOff 31 24 1).setFld negStatOff 23 16 0).setReg64 (bGlb.base + Off.glb_FEAT_LO) mask).setFld negStatOff 1 0 2

theorem negStat_honourIo (io : Io) (mask : Nat) : (honourIo io mask).reg negStatOff =
    putBits (putBits (putBits (io.reg negStatOff) 31 24 1 % 2 ^ 32) 23 16 0 % 2 ^ 32) 1 0 2 % 2 ^ 32 := by
  rw [honourIo, Io.setFld, Io.reg_setReg_self, Io.reg_setReg64_of_mod _ _ (by decide) (by decide), Io.setFld, Io.reg_setReg_self, Io.setFld,
    Io.reg_setReg_self]

theorem negState_honourIo (io : Io) (mask : Nat) : negState (honourIo io mask) = 2 := by
  rw [negState, Io.bf, Io.fld, show bGlb.base + Off.glb_NEG_STAT = negStatOff from rfl, negStat_honourIo, bitsOf_mod_word (by decide),
    bitsOf_putBits_low]
  decide

theorem version_honourIo (io : Io) (mask : Nat) :
    (honourIo io mask).bf bGlb Off.glb_NEG_STAT 31 24 = 1 ∧ (honourIo io mask).bf bGlb Off.glb_NEG_STAT 23 16 = 0 := by
  have hlt := io.reg_lt negStatOff
  simp only [Io.bf, Io.fld, show bGlb.base + Off.glb_NEG_STAT = negStatOff from rfl, negStat_honourIo, bitsOf, putBits]
  omega

theorem feat_honourIo (io : Io) {mask : Nat} (h : mask < 2 ^ 64) : (honourIo io mask).reg64 (bGlb.base + Off.glb_FEAT_LO) = mask := by
  have keep : ∀ x : Io, (x.setFld negStatOff 1 0 2).reg64 (bGlb.base + Off.glb_FEAT_LO) = x.reg64 (bGlb.base + Off.glb_FEAT_LO) := fun x =>
    Io.reg64_congr (Io.reg_setReg_of_mod _ _ (by decide)) (Io.reg_setReg_of_mod _ _ (by decide))
  rw [honourIo, keep, Io.reg64_setReg64 _ (normOff_ne_of_mod (by decide)), Nat.mod_eq_of_lt h]

theorem onlyRegs_honourIo (io : Io) (mask : Nat) : Io.OnlyRegs [bGlb] io (honourIo io mask) :=
  (((Io.onlyRegs_setBf io bGlb_valid (o := Off.glb_NEG_STAT) (by decide) 31 24 1).trans
    (Io.onlyRegs_setBf _ bGlb_valid (o := Off.glb_NEG_STAT) (by decide) 23 16 0)).trans
    (Io.onlyRegs_setReg64 _ bGlb_valid (o := Off.glb_FEAT_LO) (by decide) mask)).trans
    (Io.onlyRegs_setBf _ bGlb_valid (o := Off.glb_NEG_STAT) (by decide) 1 0 2)

/-- The registers of a refused request. -/
def rejectIo (io : Io) : Io := io.setBf bGlb Off.glb_NEG_STAT 1 0 3

/-- The control ring takes the doorbell that was kept for it (R50). -/
def takeKeptDb (s : State) : State :=
  match s.host.keptDb, s.ring? 0 with
  | some t, some r => ({ s with host := { s.host with keptDb := none } }.setRing 0 { r with sqTail := t })
  | _, _ => s

theorem takeKeptDb_only (s : State) : takeKeptDb s = { s with io := (takeKeptDb s).io, host := (takeKeptDb s).host } := by
  unfold takeKeptDb
  split <;> rfl

@[simp] theorem takeKeptDb_io (s : State) : (takeKeptDb s).io = s.io := by
  unfold takeKeptDb
  split <;> rfl

theorem next_takeKeptDb (s : State) : Host.Outcome.next (φ := Fault) (ρ := Refusal) (takeKeptDb s) =
    match s.host.keptDb, s.ring? 0 with
    | some t, some r => .next ({ s with host := { s.host with keptDb := none } }.setRing 0 { r with sqTail := t })
    | _, _ => .next s := by
  unfold takeKeptDb
  cases s.host.keptDb <;> cases s.ring? 0 <;> rfl

theorem takeKeptDb_kept {s : State} {r : Ring} {k : Nat} (hr : s.ring? 0 = some r) (hk : s.host.keptDb = some k) :
    (takeKeptDb s).ring? 0 = some { r with sqTail := k } ∧ (takeKeptDb s).host.keptDb = none := by
  simp only [takeKeptDb, hk, hr]
  exact ⟨ring_setRing_self _ _ _, rfl⟩

/-- What a request must be for the Factor to honour it (R48, R490). -/
def honoured (s : State) : Prop := s.io.bf bGlb Off.glb_DRV_VER 31 24 = 1 ∧ s.fac.lc ≠ 0 ∧ s.fac.lc ≠ 4

section
variable {s : State} (hp : negState s.io = 1) (hready : bitOf (devStat s) 0 = true) (hf : facServes s = true)
include hp hready hf

theorem negotiation_honours (h : honoured s) :
    exec .negotiation s = .next (takeKeptDb (s.mapIo (fun io => honourIo io (featureMask s)))) := by
  obtain ⟨hv, h0, h4⟩ := h
  have hwait : ¬ (negState s.io ≠ 1 ∨ (!bitOf (devStat s) 0) = true ∨ (!facServes s) = true) := by simp [hp, hready, hf]
  have hno : ¬ (s.io.bf bGlb Off.glb_DRV_VER 31 24 ≠ 1 ∨ s.fac.lc = 0 ∨ s.fac.lc = 4) := by simp [hv, h0, h4]
  refine (if_neg hwait).trans ((if_neg hno).trans ?_)
  exact (next_takeKeptDb (s.mapIo (fun io => honourIo io (featureMask s)))).symm

theorem negotiation_rejects (h : ¬ honoured s) : exec .negotiation s = .next (s.mapIo rejectIo) := by
  have hwait : ¬ (negState s.io ≠ 1 ∨ (!bitOf (devStat s) 0) = true ∨ (!facServes s) = true) := by simp [hp, hready, hf]
  have hno : s.io.bf bGlb Off.glb_DRV_VER 31 24 ≠ 1 ∨ s.fac.lc = 0 ∨ s.fac.lc = 4 := by
    unfold honoured at h
    tauto
  exact (if_neg hwait).trans (if_pos hno)

end

/-- Settles O26: the write by its three cases, the answer by its two, the mask bit by bit. -/
theorem driverNegotiationFollowsR48AndR49 : Obligations.DriverNegotiationFollowsR48AndR49 := by
  intro s drv
  refine ⟨fun who v hr hready => ?_, fun hp hready hf => ?_, bitOf_bitSet _ (by decide), ?_, ?_,
    (bitOf_bitSet _ (by decide)).trans (featureMask_links s).symm, bitOf_bitSet _ (by decide), bitOf_bitSet _ (by decide),
    bitOf_bitSet _ (by decide), featureMask_lt s⟩
  · have hwrite : exec (.drvVerWrite who v) s = .next (drvVerWrite s v.toNat) := congrArg Host.Outcome.next (regWrite_drvVer hr hready v)
    rw [hwrite]
    refine ⟨fun hb => ?_, fun hb hv => ⟨_, congrArg Host.Outcome.next (drvVerWrite_withdraws hb hv), ?_⟩,
      fun hb hv => ⟨_, congrArg Host.Outcome.next (drvVerWrite_asks hb hv), ?_⟩⟩
    · exact congrArg Host.Outcome.next (drvVerWrite_busy hb _)
    · exact ⟨(reg_withdrawAll_drvVer _).trans (reg_drvVerSet s v), feat_withdraw _, negState_withdraw _, ring_withdrawAll _, rfl,
        ctrlBase_withdrawn s _ (.inl rfl), ctrlBase_withdrawn s _ (.inr rfl), (onlyRegs_drvVerSet s _).trans (onlyRegs_withdraw _), rfl⟩
    · by_cases hst : negState s.io = 2 ∨ negState s.io = 3
      · rw [if_pos hst]
        exact ⟨(reg_askNegotiation _).trans ((reg_withdrawAll_drvVer _).trans (reg_drvVerSet s v)), negState_askNegotiation _,
          fun _ => (ring_askNegotiation _ 0).trans (ring_withdrawAll _), fun hlt => absurd hst (by omega),
          ((onlyRegs_drvVerSet s _).trans (onlyRegs_withdraw _)).trans (onlyRegs_askNegotiation _), rfl⟩
      · rw [if_neg hst]
        exact ⟨(reg_askNegotiation _).trans (reg_drvVerSet s v), negState_askNegotiation _, fun h => absurd h hst, fun _ => rfl,
          (onlyRegs_drvVerSet s _).trans (onlyRegs_askNegotiation _), rfl⟩
  · by_cases hy : honoured s
    · have hio : (takeKeptDb (s.mapIo (fun io => honourIo io (featureMask s)))).io = honourIo s.io (featureMask s) := by
        rw [takeKeptDb_io]
        rfl
      refine ⟨_, negotiation_honours hp hready hf hy, ?_, takeKeptDb_only (s.mapIo (fun io => honourIo io (featureMask s))),
        fun _ => ?_, fun h => absurd hy h⟩
      · rw [hio]
        exact onlyRegs_honourIo _ _
      · rw [hio]
        exact ⟨negState_honourIo _ _, (version_honourIo _ _).1, (version_honourIo _ _).2,
          feat_honourIo _ ((featureMask_lt s).trans (by decide)), fun r k hr hk => takeKeptDb_kept hr hk⟩
    · exact ⟨_, negotiation_rejects hp hready hf hy, Io.onlyRegs_setBf _ bGlb_valid (by decide) _ _ _, rfl, fun h => absurd h hy,
        fun _ => ⟨Io.bf_setBf_low _ _ _ _ (by decide),
          Io.reg64_congr (Io.reg_setBf_of_mod _ _ _ _ _ _ (by decide)) (Io.reg_setBf_of_mod _ _ _ _ _ _ (by decide)), rfl⟩⟩
  · rw [featureMask_ddr, List.any_eq_true]
    simp
  · rw [featureMask_links, List.any_eq_true]
    simp

end Sys2Proof.Machine
end

section
/-! PROOF. Host pages and host reads: invalidations, page responses and completion timeouts (R414, R419, R420). -/

namespace Sys2Proof.Machine

theorem bPcie_valid : bPcie.valid = true := by decide

theorem bitOf_mod_word {k : Nat} (h : k < 32) (x : Nat) : bitOf (x % 2 ^ 32) k = bitOf x k := by
  rw [bitOf_eq_testBit, bitOf_eq_testBit, Nat.testBit_mod_two_pow, decide_eq_true h, Bool.true_and]

/-- A bit that was clear is set after it is written 1. -/
theorem bitOf_putBits_bit {v k : Nat} (h : bitOf v k = false) : bitOf (putBits v k k 1) k = true := by
  simp only [bitOf, beq_eq_false_iff_ne, beq_iff_eq, putBits, bitsOf, Nat.add_sub_cancel_left, pow_one] at h ⊢
  rw [show v / 2 ^ k % 2 = 0 by omega, Nat.zero_mul, Nat.sub_zero, Nat.one_mul, Nat.add_div_right _ (Nat.two_pow_pos k)]
  omega

/-- A record given to event delivery leaves the registers of every block but EVTQ (R529). -/
theorem Io.br_emit (io : Io) (r : EvRec) {b : Block} (hb : b.valid = true) (hne : b ≠ bEvtq) {o : Nat} (ho : o < 0x1000) :
    (io.emit r).br b o = io.br b o := by
  have hp := pages_pos b.kind
  refine (onlyEvents_emit io r []).2 _ fun k hk => ?_
  rw [blockAt_base (by simpa [Block.valid] using hb) (by omega), List.mem_singleton.mp hk]
  exact fun h => hne (Option.some.inj h)

/-- An event that occurs leaves its bit set (R39). -/
theorem Io.bit_riseWith (io : Io) {b : Block} (hb : b.valid = true) (hne : b ≠ bEvtq) {bit : Nat} (hbit : bit < 32) (r : Option EvRec) :
    bitOf ((io.riseWith b bit r).br b 0x010) bit = true := by
  cases hst : bitOf (io.br b 0x010) bit with
  | true =>
    rw [riseWith, if_pos hst]
    exact hst
  | false =>
    have hset : bitOf ((io.setReg (b.base + 0x010) (putBits (io.br b 0x010) bit bit 1)).br b 0x010) bit = true := by
      rw [br, reg_setReg_self, bitOf_mod_word hbit, bitOf_putBits_bit hst]
    simp only [riseWith, hst, Bool.false_eq_true, if_false]
    split
    · exact hset
    · split
      · rw [br_emit _ _ hb hne (by decide)]
        exact hset
      · exact hset

/-! ### Translations -/

theorem mem_addOnce {α : Type} [BEq α] [LawfulBEq α] (a : α) (l : List α) (x : α) :
    x ∈ (if l.contains a then l else l ++ [a]) ↔ x ∈ l ∨ x = a := by
  split
  · rename_i h
    have ha : a ∈ l := List.contains_iff_mem.mp h
    constructor
    · exact .inl
    · rintro (hx | rfl)
      · exact hx
      · exact ha
  · simp

/-- The list of pages that deny a kind of access, once a response has named the rights of one of them. -/
def setRight (granted : Bool) (page : Nat) (l : List Nat) : List Nat :=
  if granted then l.filter (fun p => p != page) else l.filter (fun p => p != page) ++ [page]

theorem mem_setRight_self (granted : Bool) (page : Nat) (l : List Nat) : page ∈ setRight granted page l ↔ granted = false := by
  cases granted <;> simp [setRight]

theorem mem_setRight_ne {granted : Bool} {page p : Nat} (h : p ≠ page) (l : List Nat) : p ∈ setRight granted page l ↔ p ∈ l := by
  cases granted <;> simp [setRight, h]

/-- The page request that may now go out (R414). -/
def nextPageIo (io : Io) (left : List Nat) : Io :=
  match left[511]? with
  | some p => io.send ⟨"PRI", p, 0, []⟩
  | none => io

theorem nextPage_eq (s : State) (left : List Nat) : nextPage s left = s.withIo (nextPageIo s.io left) := by
  unfold nextPage nextPageIo
  cases left[511]? <;> rfl

/-- The streams that wait for a host page's translation. -/
def waitsForPage (page c a : Nat) : Bool := decide (c = Code.HOST_NOT_PRESENT) && decide (a / 4096 = page)

/-- The host side once a page request has been answered with the rights of its page (R420). -/
def grantPage (h : HostSt) (page : Nat) (r w : Bool) : HostSt :=
  { h with priPages := h.priPages.erase page, unmapped := h.unmapped.filter (fun p => p != page),
           noRead := setRight r page h.noRead, noWrite := setRight w page h.noWrite }

section
variable {s : State} {page : Nat} (hp : page ∈ s.host.priPages.take 512)
include hp

theorem outstanding : ¬ (!(s.host.priPages.take 512).contains page) = true := by
  simpa using hp

theorem prgResponse_success (r w : Bool) : exec (.prgResponse page (.success r w)) s =
    .next (housekeep (resumeWhere { s with host := grantPage s.host page r w, io := nextPageIo s.io (s.host.priPages.erase page) } (waitsForPage page))) := by
  refine (if_neg (outstanding hp)).trans ?_
  dsimp only
  rw [nextPage_eq]
  rfl

theorem prgResponse_invalid : exec (.prgResponse page .invalidRequest) s =
    .next (housekeep (failWhere { s with host := { s.host with priPages := s.host.priPages.erase page },
                                         io := nextPageIo s.io (s.host.priPages.erase page) } Code.HOST_DENIED (waitsForPage page))) := by
  refine (if_neg (outstanding hp)).trans ?_
  dsimp only
  rw [nextPage_eq]
  rfl

theorem prgResponse_failure : exec (.prgResponse page .responseFailure) s =
    .next (housekeep (failWhere { s with host := { s.host with priPages := s.host.priPages.erase page, priStopped := true },
                                         io := s.io.rise bPcie 3 } Code.HOST_DENIED (waitsForPage page))) :=
  if_neg (outstanding hp)

end

/-! ### Host reads that fail -/

/-- The registers of a completion timeout: counted, and the event (R419). -/
def cplTimeoutIo (io : Io) : Io := (io.count bPcie Off.pcie_CPL_TO 1).rise bPcie 2

theorem onlyEvents_cplTimeoutIo (io : Io) : Io.OnlyEvents [bPcie] io (cplTimeoutIo io) :=
  (Io.onlyRegs_count io bPcie_valid (by decide) 1).events.trans (Io.onlyEvents_rise _ bPcie_valid 2 none)

/-- The state in which a completion timeout has been counted. -/
def timedOut (s : State) : State := s.mapIo cplTimeoutIo

theorem cplTimeout_ring {s : State} {k : Nat} {r : Ring} (hr : s.ring? k = some r) (ht : mayTake (timedOut s) k r = true)
    (hb : r.sqBar2 = false) : exec (.cplTimeout (.ring k)) s = .next (ringFault (timedOut s) k r) := by
  have hr' : (timedOut s).ring? k = some r := hr
  change (match (timedOut s).ring? k with
    | some r => Host.Outcome.next (if mayTake (timedOut s) k r && !r.sqBar2 then ringFault (timedOut s) k r else timedOut s)
    | none => .next (timedOut s)) = _
  simp [hr', ht, hb]

theorem cplTimeout_no_ring {s : State} {k : Nat} (hr : s.ring? k = none) : exec (.cplTimeout (.ring k)) s = .next (timedOut s) := by
  have hr' : (timedOut s).ring? k = none := hr
  change (match (timedOut s).ring? k with
    | some r => Host.Outcome.next (if mayTake (timedOut s) k r && !r.sqBar2 then ringFault (timedOut s) k r else timedOut s)
    | none => .next (timedOut s)) = _
  rw [hr']

/-- The request that a stream's failed read answers. -/
def oldestHostRead (s : State) (n k : Nat) : Option LineReq :=
  s.fetch.lines.find? (fun r => decide (r.core = n) && decide (r.st = k) && decide (r.tier = 4) && !r.write)

theorem cplTimeout_stream {s : State} {n k : Nat} {r : LineReq} (h : oldestHostRead s n k = some r) :
    exec (.cplTimeout (.stream n k)) s = .next (housekeep (withCplErr (timedOut s) (fun s => returnLine s r))) := by
  change (match oldestHostRead s n k with
    | some r => Host.Outcome.next (housekeep (withCplErr (timedOut s) (fun s => returnLine s r)))
    | none => .next (timedOut s)) = _
  rw [h]

/-- Settles O44: the branches of each row, one by one. -/
theorem hostPagesAndReadsResolveOrFail : Obligations.HostPagesAndReadsResolveOrFail := by
  refine ⟨fun s die page => ⟨_, rfl, rfl, fun e => mem_addOnce _ _ _, fun p => mem_addOnce _ _ _⟩, fun s die page => ⟨fun h => ?_, fun hm hu => ?_⟩,
    fun s page resp hp => if_pos (by simpa using hp), ?_,
    fun h page hs hc hm w => ?_, fun h page => rfl, fun s => ?_, fun s ats pri => ?_, fun s n => ⟨fun h1 h2 => ?_, fun h => if_pos h⟩⟩
  · refine if_neg ?_
    rintro ⟨hc, hu⟩
    obtain h | h := h
    · exact h (List.contains_iff_mem.mp hc)
    · simp [h] at hu
  · exact if_pos ⟨List.contains_iff_mem.mpr hm, by simp [hu]⟩
  · intro s page hp left mine more
    refine ⟨fun r w => ⟨grantPage s.host page r w, prgResponse_success hp r w, rfl, by simp [grantPage], mem_setRight_self .., mem_setRight_self ..,
      fun p hne => ⟨by simp [grantPage, hne], mem_setRight_ne hne _, mem_setRight_ne hne _⟩⟩, prgResponse_invalid hp, ?_⟩
    exact ⟨_, Io.onlyEvents_rise s.io bPcie_valid 3 none, Io.bit_riseWith _ bPcie_valid (by decide) (by decide) _, prgResponse_failure hp⟩
  · simp [hostFault, hs, hc, hm]
  · exact ⟨cplTimeoutIo s.io, onlyEvents_cplTimeoutIo s.io, Io.bit_riseWith _ bPcie_valid (by decide) (by decide) _,
      fun k r => cplTimeout_ring, fun k => cplTimeout_no_ring, fun n k r => cplTimeout_stream, fun u op => rfl, fun u op => rfl, fun u n => rfl⟩
  · have hagain : (!(pri && !s.host.priEn)) = (s.host.priEn || !pri) := by rw [Bool.not_and, Bool.not_not, Bool.or_comm]
    intro h
    simp only [h, ← hagain]
    rfl
  · exact if_neg (by omega)

end Sys2Proof.Machine
end

section
/-! PROOF. Control-ring registers: refused while DONE or out of bounds, else an empty ring (R421). -/

namespace Sys2Proof.Machine

/-- A size that a control ring may have; 0 means none (R421). -/
def ctrlSize (n : Nat) : Prop := n = 0 ∨ (4 ≤ n ∧ n ≤ 16)

/-- Values of the control-ring registers that keep R421's bounds. -/
def ctrlGood (sq cq r : Nat) : Prop :=
  ctrlSize (bitsOf r 15 11) ∧ ctrlSize (bitsOf r 20 16) ∧ ∀ x, ctrlRing sq cq r = some x → badCtrl x = false

theorem badSize_iff (n : Nat) : (decide (n ≠ 0) && badLog2 n) = true ↔ ¬ ctrlSize n := by
  simp only [badLog2, ctrlSize, Bool.and_eq_true, Bool.or_eq_true, decide_eq_true_eq]
  omega

theorem badCtrl_any_iff (x : Option Ring) : x.any badCtrl = true ↔ ¬ ∀ y, x = some y → badCtrl y = false := by
  cases x <;> simp

/-- The registers of the control rings written (R421). -/
def ctrlIo (sq cq r : Nat) (io : Io) : Io :=
  ((io.setReg64 (bCtxt.base + Off.ctxt_CTRL_SQ_BASE_LO) sq).setReg64 (bCtxt.base + Off.ctxt_CTRL_CQ_BASE_LO) cq).setReg
    (bCtxt.base + Off.ctxt_CTRL_RING) r

/-- The rings of the device once the control rings are set, or gone. -/
def putCtrlRing (new : Option Ring) (rings : SMap Ring) : SMap Ring :=
  match new with
  | some x => smInsert 0 x rings
  | none => smErase 0 rings

theorem smFind_putCtrlRing_zero (new : Option Ring) (rings : SMap Ring) : smFind 0 (putCtrlRing new rings) = new := by
  cases new with
  | none => exact smFind_smErase_self _ _
  | some x => exact smFind_smInsert_self _ _ _

theorem smFind_putCtrlRing_ne (new : Option Ring) (rings : SMap Ring) {k : Nat} (h : k ≠ 0) : smFind k (putCtrlRing new rings) = smFind k rings := by
  cases new with
  | none => exact smFind_smErase_ne _ h
  | some x => exact smFind_smInsert_ne _ _ h

/-- Control rings set by the values of their registers. -/
def setCtrlRing (s : State) (sq cq r : Nat) : State :=
  { s with io := ctrlIo sq cq r s.io, host := { s.host with keptDb := none, rings := putCtrlRing (ctrlRing sq cq r) s.host.rings } }

/-- The values that the three registers have after a write of `v` to the one at `o`. -/
def sqAfter (io : Io) (o v : Nat) : Nat := if o = Off.ctxt_CTRL_SQ_BASE_LO then v else io.reg64 (bCtxt.base + Off.ctxt_CTRL_SQ_BASE_LO)
def cqAfter (io : Io) (o v : Nat) : Nat := if o = Off.ctxt_CTRL_CQ_BASE_LO then v else io.reg64 (bCtxt.base + Off.ctxt_CTRL_CQ_BASE_LO)
def ringAfter (io : Io) (o v : Nat) : Nat := if o = Off.ctxt_CTRL_RING then v % 2 ^ 32 / 512 * 512 else io.br bCtxt Off.ctxt_CTRL_RING

section
variable {s : State} {o v : Nat}

theorem ctrlRingWrite_done (h : negState s.io = 2) :
    ctrlRingWrite s (bCtxt.base + o) v = s.mapIo (fun io => io.capture bCtxt Code.RING_BUSY (bCtxt.base + o)) := if_pos h

/-- The condition that refuses values is that they break R421's bounds. -/
theorem ctrlBad_iff (sq cq r : Nat) : ((decide (bitsOf r 15 11 ≠ 0) && badLog2 (bitsOf r 15 11)) = true ∨
    (decide (bitsOf r 20 16 ≠ 0) && badLog2 (bitsOf r 20 16)) = true ∨ (ctrlRing sq cq r).any badCtrl = true) ↔ ¬ ctrlGood sq cq r := by
  rw [badSize_iff, badSize_iff, badCtrl_any_iff, ctrlGood]
  tauto

theorem ctrlRingWrite_range (h : negState s.io ≠ 2) (hg : ¬ ctrlGood (sqAfter s.io o v) (cqAfter s.io o v) (ringAfter s.io o v)) :
    ctrlRingWrite s (bCtxt.base + o) v = s.mapIo (fun io => io.capture bCtxt Code.RING_RANGE (bCtxt.base + o)) := by
  unfold ctrlRingWrite
  rw [Nat.add_sub_cancel_left]
  exact (if_neg h).trans (if_pos ((ctrlBad_iff ..).mpr hg))

theorem ctrlRingWrite_sets (h : negState s.io ≠ 2) (hg : ctrlGood (sqAfter s.io o v) (cqAfter s.io o v) (ringAfter s.io o v)) :
    ctrlRingWrite s (bCtxt.base + o) v = setCtrlRing s (sqAfter s.io o v) (cqAfter s.io o v) (ringAfter s.io o v) := by
  unfold ctrlRingWrite
  rw [Nat.add_sub_cancel_left]
  exact (if_neg h).trans (if_neg (fun hb => (ctrlBad_iff ..).mp hb hg))

end

theorem onlyRegs_ctrlIo (sq cq r : Nat) (io : Io) : Io.OnlyRegs [bCtxt] io (ctrlIo sq cq r io) :=
  ((Io.onlyRegs_setReg64 io bCtxt_valid (by decide) sq).trans (Io.onlyRegs_setReg64 _ bCtxt_valid (by decide) cq)).trans
    (Io.onlyRegs_setReg _ bCtxt_valid (by decide) r)

theorem sqBase_ctrlIo {sq : Nat} (h : sq < 2 ^ 64) (cq r : Nat) (io : Io) :
    (ctrlIo sq cq r io).reg64 (bCtxt.base + Off.ctxt_CTRL_SQ_BASE_LO) = sq := by
  have keep : ∀ o, o = Off.ctxt_CTRL_SQ_BASE_LO ∨ o = Off.ctxt_CTRL_SQ_BASE_HI →
      (ctrlIo sq cq r io).reg (bCtxt.base + o) = (io.setReg64 (bCtxt.base + Off.ctxt_CTRL_SQ_BASE_LO) sq).reg (bCtxt.base + o) := by
    rintro o (rfl | rfl)
    all_goals exact (Io.reg_setReg_of_mod _ _ (by decide)).trans (Io.reg_setReg64_of_mod _ _ (by decide) (by decide))
  rw [Io.reg64_congr (keep _ (.inl rfl)) (keep _ (.inr rfl)), Io.reg64_setReg64 _ (normOff_ne_of_mod (by decide)), Nat.mod_eq_of_lt h]

theorem cqBase_ctrlIo (sq : Nat) {cq : Nat} (h : cq < 2 ^ 64) (r : Nat) (io : Io) :
    (ctrlIo sq cq r io).reg64 (bCtxt.base + Off.ctxt_CTRL_CQ_BASE_LO) = cq := by
  refine (Io.reg64_congr (Io.reg_setReg_of_mod _ _ (by decide)) (Io.reg_setReg_of_mod _ _ (by decide))).trans ?_
  rw [Io.reg64_setReg64 _ (normOff_ne_of_mod (by decide)), Nat.mod_eq_of_lt h]

theorem ring_ctrlIo (sq cq : Nat) {r : Nat} (h : r < 2 ^ 32) (io : Io) : (ctrlIo sq cq r io).br bCtxt Off.ctxt_CTRL_RING = r :=
  (Io.reg_setReg_self _ _ _).trans (Nat.mod_eq_of_lt h)

theorem Io.reg64_lt (io : Io) (o : Nat) : io.reg64 o < 2 ^ 64 := by
  have h1 := io.reg_lt o
  have h2 := io.reg_lt (o + 4)
  rw [reg64]
  omega

theorem sqAfter_lt (io : Io) (o : Nat) (v : W64) : sqAfter io o v.toNat < 2 ^ 64 := by
  unfold sqAfter
  split
  · exact v.isLt
  · exact io.reg64_lt _

theorem cqAfter_lt (io : Io) (o : Nat) (v : W64) : cqAfter io o v.toNat < 2 ^ 64 := by
  unfold cqAfter
  split
  · exact v.isLt
  · exact io.reg64_lt _

theorem ringAfter_lt (io : Io) (o v : Nat) : ringAfter io o v < 2 ^ 32 := by
  unfold ringAfter
  split
  · omega
  · exact io.reg_lt _

section
variable {s : State} {who : Requester} {o : Nat} (ho : o ∈ [Off.ctxt_CTRL_SQ_BASE_LO, Off.ctxt_CTRL_CQ_BASE_LO, Off.ctxt_CTRL_RING]) (v : W64)
include ho

/-- The row takes the three registers. -/
theorem ctrlOffset : ¬ (bCtxt.base + o - bCtxt.base ≠ Off.ctxt_CTRL_SQ_BASE_LO ∧ bCtxt.base + o - bCtxt.base ≠ Off.ctxt_CTRL_CQ_BASE_LO ∧
    bCtxt.base + o - bCtxt.base ≠ Off.ctxt_CTRL_RING) := by
  rw [Nat.add_sub_cancel_left]
  rintro ⟨h1, h2, h3⟩
  simp only [List.mem_cons, List.not_mem_nil, or_false] at ho
  omega

theorem ctrlRingWrite_refused {io : Io} (hw : writeAllowed s.io who bCtxt (bCtxt.base + o) = some io) :
    exec (.ctrlRingWrite who (bCtxt.base + o) v) s = .next { s with io := io } := by
  change execCtrlRingWrite who (bCtxt.base + o) v s = _
  unfold execCtrlRingWrite
  dsimp only
  rw [if_neg (ctrlOffset ho), hw]

theorem ctrlRingWrite_allowed (hw : writeAllowed s.io who bCtxt (bCtxt.base + o) = none) :
    exec (.ctrlRingWrite who (bCtxt.base + o) v) s = .next (ctrlRingWrite s (bCtxt.base + o) v.toNat) := by
  change execCtrlRingWrite who (bCtxt.base + o) v s = _
  unfold execCtrlRingWrite
  dsimp only
  rw [if_neg (ctrlOffset ho), hw]

end

end Sys2Proof.Machine
end

section
/-! PROOF. RING_SET, doorbells and their interrupts (R422, R424, R425, R428). -/

namespace Sys2Proof.Machine

/-! ### RING_SET -/

theorem ringSet_refused {s : State} {c : Cmd} {e : Nat} (h : ringSetCheck s c = some e) : exec (.ringSet c) s = .next (refuse s c e) := by
  change execRingSet c s = _
  rw [execRingSet, h]

theorem ringSetCheck_no_context {s : State} {c : Cmd} (h : s.ctx? (c.p 0x10 2) = none) : ringSetCheck s c = some Code.NO_CONTEXT := by
  rw [ringSetCheck, h]

/-- A ring with a command in progress or an entry not yet taken is busy. -/
def ringBusy (s : State) (k : Nat) : Prop := s.adm.cmds.any (fun q => q.cmd.ring == k) = true ∨ ∃ q, s.ring? k = some q ∧ q.sqHead ≠ q.sqTail

theorem ringSetCheck_busy {s : State} {c : Cmd} (hx : (s.ctx? (c.p 0x10 2)).isSome = true) (h : ringBusy s (c.p 0x10 2 + 1)) :
    ringSetCheck s c = some Code.RING_BUSY := by
  obtain ⟨x, hx⟩ := Option.isSome_iff_exists.mp hx
  have hbusy : (s.adm.cmds.any (fun q => q.cmd.ring == c.p 0x10 2 + 1) || (s.ring? (c.p 0x10 2 + 1)).any (fun q => q.sqHead != q.sqTail)) = true := by
    rw [Bool.or_eq_true]
    refine h.imp id fun ⟨q, hq, hne⟩ => ?_
    simpa [hq] using hne
  rw [ringSetCheck, hx]
  exact if_pos hbusy

/-- The ingress rings once a context's rings are set: its own is new unless its region stays (R422). -/
def ingressAfter (s : State) (c : Cmd) : SMap Ingress :=
  if (s.ring? (c.p 0x10 2 + 1)).any (fun q => q.inRegion == (ringOf c).inRegion) then s.host.ing else smErase (c.p 0x10 2) s.host.ing

theorem ingressAfter_same {s : State} {c : Cmd} {q : Ring} (hq : s.ring? (c.p 0x10 2 + 1) = some q) (h : q.inRegion = (ringOf c).inRegion) :
    ingressAfter s c = s.host.ing := if_pos (by simp [hq, h])

theorem smFind_ingressAfter_ne (s : State) (c : Cmd) {k : Nat} (h : k ≠ c.p 0x10 2) : smFind k (ingressAfter s c) = smFind k s.host.ing := by
  unfold ingressAfter
  split
  · rfl
  · exact smFind_smErase_ne _ h

theorem ringSet_sets {s : State} {c : Cmd} (h : ringSetCheck s c = none) : exec (.ringSet c) s =
    .next (creditsFor (finish { s with host := { s.host with rings := smInsert (c.p 0x10 2 + 1) (ringOf c) s.host.rings, ing := ingressAfter s c } } c Code.OK)
      (c.p 0x10 2)) := by
  change execRingSet c s = _
  rw [execRingSet, h]
  dsimp only
  unfold ingressAfter
  split <;> rfl

/-! ### Doorbells -/

section
variable {s : State} {slot : Nat} {v : W32}

/-- A doorbell of another context, or of none, is counted and captured (R425). -/
def staleDb (a : Nat) (io : Io) : Io := (io.count bCtxt Off.ctxt_DB_STALE 1).capture bCtxt Code.DOORBELL_STALE a

/-- A doorbell past its ring's end is captured (R425). -/
def rangeDb (a : Nat) (io : Io) : Io := io.capture bCtxt Code.DOORBELL_RANGE a

theorem dbDiscard_tail_stale (s : State) (slot : Nat) : dbDiscard s slot 0 true = s.mapIo (staleDb (slot * 4096)) := by
  unfold dbDiscard
  rw [Nat.add_zero]
  rfl

theorem dbDiscard_tail_range (s : State) (slot : Nat) : dbDiscard s slot 0 false = s.mapIo (rangeDb (slot * 4096)) := by
  unfold dbDiscard
  rw [Nat.add_zero]
  rfl

theorem dbDiscard_head_range (s : State) (slot : Nat) : dbDiscard s slot 4 false = s.mapIo (rangeDb (slot * 4096 + 4)) := rfl

theorem sqDb_stale (h : dbRing s slot (v.toNat / 65536) = none) : exec (.sqDb slot v) s = .next (s.mapIo (staleDb (slot * 4096))) := by
  change execSqDb slot v s = _
  rw [execSqDb, h, dbDiscard_tail_stale]

theorem cqDb_stale (h : dbRing s slot (v.toNat / 65536) = none) : exec (.cqDb slot v) s = .next (s.mapIo (staleDb (slot * 4096 + 4))) := by
  change execCqDb slot v s = _
  rw [execCqDb, h]
  rfl

theorem cqArm_stale (h : dbRing s slot (v.toNat / 65536) = none) : exec (.cqArm slot v) s = .next (s.mapIo (staleDb (slot * 4096 + 8))) := by
  change execCqArm slot v s = _
  rw [execCqArm, h]
  rfl

theorem onlyEvents_staleDb (a : Nat) (io : Io) : Io.OnlyEvents [bCtxt] io (staleDb a io) :=
  (Io.onlyRegs_count io bCtxt_valid (o := Off.ctxt_DB_STALE) (by decide) 1).events.trans (Io.onlyEvents_capture _ bCtxt_valid _ _ _)

/-- The ring that a doorbell reaches is the slot's, named by its context number (R425). -/
theorem dbRing_some {cn k : Nat} {r : Ring} (h : dbRing s slot cn = some (k, r)) :
    s.ring? k = some r ∧ (slot = 0 → k = 0) ∧ (slot ≠ 0 → s.cnOfSlot slot = some cn ∧ k = cn + 1) := by
  simp only [dbRing, Option.bind_eq_some_iff, Option.map_eq_some_iff, Prod.mk.injEq] at h
  obtain ⟨j, hj, q, hq, rfl, rfl⟩ := h
  refine ⟨hq, fun h0 => ?_, fun h0 => ?_⟩
  · rw [if_pos h0] at hj
    split at hj <;> simp_all
  · rw [if_neg h0] at hj
    split at hj
    · exact ⟨‹_›, (Option.some.inj hj).symm⟩
    · cases hj

variable {k : Nat} {r : Ring} (h : dbRing s slot (v.toNat / 65536) = some (k, r))
include h

theorem sqDb_eq : exec (.sqDb slot v) s =
    if 2 ^ r.sqLog2 ≤ v.toNat % 65536 then .next (s.mapIo (rangeDb (slot * 4096)))
    else if slot = 0 ∧ negState s.io ≠ 2 then .next { s with host := { s.host with keptDb := some (v.toNat % 65536) } }
    else .next (s.setRing k { r with sqTail := v.toNat % 65536 }) := by
  change execSqDb slot v s = _
  rw [execSqDb, h, dbDiscard_tail_range]

theorem cqDb_eq : exec (.cqDb slot v) s =
    if 2 ^ r.cqLog2 ≤ v.toNat % 65536 then .next (s.mapIo (rangeDb (slot * 4096 + 4)))
    else .next (drainRing (s.setRing k { r with cqHead := v.toNat % 65536 }) k (r.held.length + 1)) := by
  change execCqDb slot v s = _
  rw [execCqDb, h, dbDiscard_head_range]

theorem cqArm_eq : exec (.cqArm slot v) s =
    if !bitOf v.toNat 0 then .next s
    else if r.cqTail ≠ r.cqHead then .next (fireVector (s.setRing k { r with armed := false, pend := 0 }) r.vector)
    else .next (s.setRing k { r with armed := true, pend := 0 }) := by
  change execCqArm slot v s = _
  rw [execCqArm, h]

end

theorem bitOf_zero (n : Nat) : bitOf n 0 = decide (n % 2 = 1) := by
  rw [bitOf, pow_zero, Nat.div_one]
  rfl

/-- A ring that holds no record has none to write (R424). -/
theorem drainRing_empty {s : State} {k : Nat} {r : Ring} (hr : s.ring? k = some r) (hh : r.held = []) (n : Nat) : drainRing s k (n + 1) = s := by
  simp [drainRing, hr, hh]

/-- A ring whose MOD_TIME has run out since its first pending signal (R428). -/
def modDue (s : State) (r : Ring) : Prop := r.armed = true ∧ r.pend ≠ 0 ∧ r.modTime ≠ 0 ∧ r.pendAt + 100 * r.modTime ≤ s.io.tb

theorem modTimeExpiry_early {s : State} {k : Nat} {r : Ring} (hr : s.ring? k = some r) (h : ¬ modDue s r) : exec (.modTimeExpiry k) s = .next s := by
  change execModTimeExpiry k s = _
  rw [execModTimeExpiry, hr]
  exact if_neg h

theorem modTimeExpiry_due {s : State} {k : Nat} {r : Ring} (hr : s.ring? k = some r) (h : modDue s r) :
    exec (.modTimeExpiry k) s = .next (fireVector (s.setRing k { r with armed := false, pend := 0 }) r.vector) := by
  change execModTimeExpiry k s = _
  rw [execModTimeExpiry, hr]
  exact if_pos h

end Sys2Proof.Machine
end

section
/-! PROOF. Held requests and the MSI-X table, and the whole of the host's rings (R419, R427). -/

namespace Sys2Proof.Machine

/-- Bus Master Enable is set and nothing is held behind it (R419). -/
def busOpen (s : State) : Prop := s.host.bme = true ∧ s.host.heldReq = []

theorem hostWrite_open {s : State} (h : busOpen s) (a : Nat) (bs : List Byte) : hostWrite s a bs = { s with mem := s.mem.putHost a bs } := if_pos h

theorem fireVector_open {s : State} (h : busOpen s) (v : Nat) : fireVector s v = msixNow s v := if_pos h

/-- An interrupt changes the registers' side and the pending bits only. -/
theorem msixNow_only (s : State) (v : Nat) : msixNow s v = { s with io := (msixNow s v).io, host := { s.host with pba := (msixNow s v).host.pba } } := by
  unfold msixNow
  dsimp only
  split <;> rfl

/-- A message that is not masked is sent (R427). -/
theorem msixNow_unmasked {s : State} {v : Nat} (hf : s.host.fnMask = false) (hm : (smGet {} v s.host.msix).masked = false) :
    msixNow s v = { s with io := s.io.send ⟨"MSIX", (smGet {} v s.host.msix).addr, (smGet {} v s.host.msix).data, []⟩ } := by
  simp [msixNow, hf, hm]

/-! ### Bus Master Enable -/

/-- A held request proceeds. -/
def proceed (s : State) (q : HostReq) : State :=
  match q with
  | .write a bs => hostWrite s a bs
  | .msix v => fireVector s v

/-- Host memory once a held request has proceeded. -/
def memAfter (m : MemSt) (q : HostReq) : MemSt :=
  match q with
  | .write a bs => m.putHost a bs
  | .msix _ => m

theorem proceed_spec {s : State} (h : busOpen s) (q : HostReq) : busOpen (proceed s q) ∧ (proceed s q).mem = memAfter s.mem q ∧
    proceed s q = { s with io := (proceed s q).io, mem := (proceed s q).mem, host := (proceed s q).host } := by
  cases q with
  | write a bs =>
    rw [show proceed s (.write a bs) = _ from hostWrite_open h a bs]
    exact ⟨h, rfl, rfl⟩
  | msix v =>
    rw [show proceed s (.msix v) = msixNow s v from fireVector_open h v, msixNow_only]
    exact ⟨h, rfl, rfl⟩

/-- Held requests proceed in order, each with the bus open. -/
theorem proceed_foldl (l : List HostReq) {s : State} (h : busOpen s) : busOpen (l.foldl proceed s) ∧
    (l.foldl proceed s).mem = l.foldl memAfter s.mem ∧
    l.foldl proceed s = { s with io := (l.foldl proceed s).io, mem := (l.foldl proceed s).mem, host := (l.foldl proceed s).host } := by
  induction l generalizing s with
  | nil => exact ⟨h, rfl, rfl⟩
  | cons q l ih =>
    obtain ⟨hq, hmem, honly⟩ := proceed_spec h q
    obtain ⟨hl, hlmem, hlonly⟩ := ih hq
    simp only [List.foldl_cons]
    refine ⟨hl, by rw [hlmem, hmem], hlonly.trans ?_⟩
    rw [honly]

/-- The bus opened for the requests that wait. -/
def openBus (s : State) : State := { s with host := { s.host with bme := true, heldReq := [] } }

theorem busMasterEnable_on (s : State) : exec (.busMasterEnable true) s = .next (s.host.heldReq.foldl proceed (openBus s)) := rfl

/-! ### The MSI-X table -/

/-- A vector's message leaves the device. -/
def sendMsix (h : HostSt) (io : Io) (v : Nat) : Io := io.send ⟨"MSIX", (smGet {} v h.msix).addr, (smGet {} v h.msix).data, []⟩

/-- Pending vectors that nothing masks. -/
def unmaskedPending (h : HostSt) : List Nat := h.pba.filter (fun v => !h.fnMask && !(smGet {} v h.msix).masked)

/-- Vectors that nothing masks are sent in order. -/
theorem fireVector_foldl (l : List Nat) {s : State} (h : busOpen s) (hl : ∀ v ∈ l, s.host.fnMask = false ∧ (smGet {} v s.host.msix).masked = false) :
    l.foldl fireVector s = { s with io := l.foldl (sendMsix s.host) s.io } := by
  induction l generalizing s with
  | nil => rfl
  | cons v l ih =>
    obtain ⟨hv, hl⟩ := List.forall_mem_cons.mp hl
    rw [List.foldl_cons, fireVector_open h, msixNow_unmasked hv.1 hv.2]
    exact ih (s := { s with io := sendMsix s.host s.io v }) h hl

theorem sendPending_open {s : State} (h : busOpen s) : sendPending s =
    { s with io := (unmaskedPending s.host).foldl (sendMsix s.host) s.io,
             host := { s.host with pba := s.host.pba.filter (fun v => !(unmaskedPending s.host).contains v) } } := by
  have hgo : ∀ v ∈ unmaskedPending s.host, s.host.fnMask = false ∧ (smGet {} v s.host.msix).masked = false := by
    intro v hv
    simpa using (List.mem_filter.mp hv).2
  exact fireVector_foldl (unmaskedPending s.host)
    (s := { s with host := { s.host with pba := s.host.pba.filter (fun v => !(unmaskedPending s.host).contains v) } }) h hgo

/-- Whether an offset of the row names the MSI-X table. -/
def inMsixTable (off : Nat) : Prop := 0x3FF0000 ≤ off ∧ off < 0x3FF8000 ∧ off % 4 = 0

/-- A table entry after a write of one of its words (R427). -/
def entryAfter (e : MsixEntry) (off : Nat) (v : W32) : MsixEntry :=
  if off % 16 = 0 then { e with addr := e.addr / 2 ^ 32 * 2 ^ 32 + v.toNat }
  else if off % 16 = 4 then { e with addr := e.addr % 2 ^ 32 + v.toNat * 2 ^ 32 }
  else if off % 16 = 8 then { e with data := v.toNat } else { e with masked := decide (v.toNat % 2 = 1) }

/-- The host side after a write of the function mask. -/
def maskHost (h : HostSt) (v : W32) : HostSt := { h with fnMask := bitOf v.toNat 0 }

/-- The host side after a write of the table. -/
def tableHost (h : HostSt) (off : Nat) (v : W32) : HostSt :=
  { h with msix := smPut {} ((off - 0x3FF0000) / 16) (entryAfter (smGet {} ((off - 0x3FF0000) / 16) h.msix) off v) h.msix }

theorem msixWrite_other {s : State} {off : Nat} (hne : off ≠ fnMaskOff) (h : off < 0x3FF0000 ∨ 0x3FF8000 ≤ off ∨ off % 4 ≠ 0) (v : W32) :
    exec (.msixVectorUnmask off v) s = .next s := (if_neg hne).trans (if_pos h)

theorem msixWrite_mask (s : State) (v : W32) : exec (.msixVectorUnmask fnMaskOff v) s = .next (sendPending { s with host := maskHost s.host v }) := by
  change execMsixVectorUnmask fnMaskOff v s = _
  unfold execMsixVectorUnmask
  exact if_pos rfl

theorem msixWrite_table (s : State) {off : Nat} (h : inMsixTable off) (v : W32) :
    exec (.msixVectorUnmask off v) s = .next (sendPending { s with host := tableHost s.host off v }) := by
  obtain ⟨h1, h2, h4⟩ := h
  refine (if_neg (by unfold fnMaskOff; omega)).trans ((if_neg (by omega)).trans ?_)
  unfold tableHost entryAfter
  obtain ho | ho | ho | ho : off % 16 = 0 ∨ off % 16 = 4 ∨ off % 16 = 8 ∨ off % 16 = 12 := by omega
  all_goals simp [ho, bitOf_zero]

theorem fnMaskOff_not_table : ¬ inMsixTable fnMaskOff := by
  unfold inMsixTable fnMaskOff
  omega

/-- Settles O43: each row by its cases. -/
theorem ringsAndDoorbellsFollowTheirWriter : Obligations.RingsAndDoorbellsFollowTheirWriter := by
  refine ⟨?_, ?_, ?_, ?_, ?_, ?_⟩
  · intro s who o v ho off row sq cq r new size good
    refine ⟨fun io hw => ctrlRingWrite_refused ho v hw, fun hw => ?_⟩
    have hrow : exec (.ctrlRingWrite who (bCtxt.base + o) v) s = .next (ctrlRingWrite s (bCtxt.base + o) v.toNat) :=
      ctrlRingWrite_allowed ho v hw
    rw [hrow]
    refine ⟨fun hn => ?_, fun hn hg => ?_, fun hn hg => ⟨_, congrArg Host.Outcome.next (ctrlRingWrite_sets hn hg), ?_⟩⟩
    · exact congrArg Host.Outcome.next (ctrlRingWrite_done hn)
    · exact congrArg Host.Outcome.next (ctrlRingWrite_range hn hg)
    · exact ⟨rfl, onlyRegs_ctrlIo _ _ _ _, smFind_putCtrlRing_zero _ _, fun k hk => smFind_putCtrlRing_ne _ _ hk,
        sqBase_ctrlIo (sqAfter_lt ..) _ _ _, cqBase_ctrlIo _ (cqAfter_lt ..) _ _, ring_ctrlIo _ _ (ringAfter_lt ..) _⟩
  · intro s c cn
    exact ⟨fun e => ringSet_refused, ringSetCheck_no_context, fun hx hb => ringSetCheck_busy hx hb, fun h => ⟨ingressAfter s c, ringSet_sets h,
      fun q hq hr => ingressAfter_same hq hr, fun k hk => smFind_ingressAfter_ne s c hk, rfl, rfl, rfl, rfl, rfl, rfl⟩⟩
  · intro s slot v pos
    refine ⟨fun h => ⟨_, onlyEvents_staleDb (slot * 4096 + 8) s.io, sqDb_stale h, cqDb_stale h, cqArm_stale h⟩, fun k r h => ?_⟩
    obtain ⟨hr, hzero, hslot⟩ := dbRing_some h
    refine ⟨hr, hzero, hslot, fun hp => ?_, fun hp => ?_, fun hp hs hn => ?_, fun hp hs => ?_, fun hp => ?_, fun hp hh => ?_, fun hv => ?_,
      fun hv he => ?_, fun hv he => ?_⟩
    · rw [sqDb_eq h, if_pos hp]
      rfl
    · rw [cqDb_eq h, if_pos hp]
      rfl
    · rw [sqDb_eq h, if_neg (by omega), if_pos ⟨hs, hn⟩]
    · rw [sqDb_eq h, if_neg (by omega), if_neg (by tauto)]
    · rw [cqDb_eq h, if_neg (by omega)]
    · rw [cqDb_eq h, if_neg (by omega)]
      exact congrArg Host.Outcome.next (drainRing_empty (ring_setRing_self s k { r with cqHead := pos }) hh _)
    · rw [cqArm_eq h, bitOf_zero, if_pos (by simp [hv])]
    · rw [cqArm_eq h, bitOf_zero, if_neg (by simp [hv]), if_neg (not_not.mpr he)]
    · rw [cqArm_eq h, bitOf_zero, if_neg (by simp [hv]), if_pos he]
  · exact fun s k r hr => ⟨modTimeExpiry_early hr, modTimeExpiry_due hr⟩
  · intro s
    obtain ⟨⟨hbme, hheld⟩, hmem, honly⟩ := proceed_foldl s.host.heldReq (s := openBus s) ⟨rfl, rfl⟩
    exact ⟨rfl, _, busMasterEnable_on s, hbme, hheld, honly, hmem⟩
  · intro s off v
    refine ⟨fun hne h => msixWrite_other hne h v, fun h hb hh => ?_⟩
    obtain rfl | ht := h
    · refine ⟨_, (msixWrite_mask s v).trans (congrArg Host.Outcome.next (sendPending_open ⟨hb, hh⟩)), rfl,
        fun _ => ⟨bitOf_zero _, rfl⟩, fun hne => absurd rfl hne, rfl, rfl⟩
    · have hne : off ≠ fnMaskOff := fun e => fnMaskOff_not_table (e ▸ ht)
      exact ⟨_, (msixWrite_table s ht v).trans (congrArg Host.Outcome.next (sendPending_open ⟨hb, hh⟩)), rfl, fun e => absurd e hne,
        fun _ => ⟨rfl, fun j hj => smGet_smPut_ne _ _ _ hj, smGet_smPut_self _ _ _ _⟩, rfl, rfl⟩

end Sys2Proof.Machine
end

section
/-! PROOF. Host accesses through BAR4: disabled apertures, held accesses, and what reaches memory (R31, R395, R405, R415, R416). -/

namespace Sys2Proof.Machine

/-! ### Writes and samples of device memory -/

theorem putBytes_only (m : MemSt) (a : Nat) (bs : List Byte) : m.putBytes a bs = { m with dev := (m.putBytes a bs).dev } := by
  induction bs generalizing m a with
  | nil => rfl
  | cons b bs ih => exact ih (m.putByte a b) (a + 1)

/-- The poison of one line of a write (R405, R406). -/
def poisonStep (a n : Nat) (p : Bool) (m : MemSt) (l : Nat) : MemSt :=
  if p then m.setPoison l true else if a ≤ l * 64 ∧ l * 64 + 64 ≤ a + n then m.setPoison l false else m

theorem writePoison_eq (m : MemSt) (a n : Nat) (p : Bool) : m.writePoison a n p = (linesOf a n).foldl (poisonStep a n p) m := rfl

theorem poisoned_setPoison (m : MemSt) (l k : Nat) (p : Bool) : (m.setPoison l p).poisoned k = if k = l then p else m.poisoned k :=
  smGet_smPut _ _ _ _ _

theorem poisoned_poisonStep_ne (a n : Nat) (p : Bool) (m : MemSt) {l k : Nat} (h : k ≠ l) : (poisonStep a n p m l).poisoned k = m.poisoned k := by
  unfold poisonStep
  split_ifs <;> simp only [poisoned_setPoison, if_neg h]

theorem poisonStep_only (a n : Nat) (p : Bool) (m : MemSt) (l : Nat) : poisonStep a n p m l = { m with poison := (poisonStep a n p m l).poison } := by
  unfold poisonStep
  split_ifs <;> rfl

theorem foldl_poisonStep_only (a n : Nat) (p : Bool) (ls : List Nat) (m : MemSt) :
    ls.foldl (poisonStep a n p) m = { m with poison := (ls.foldl (poisonStep a n p) m).poison } := by
  induction ls generalizing m with
  | nil => rfl
  | cons l ls ih =>
    rw [List.foldl_cons, ih, poisonStep_only]

/-- A write leaves the poison of every other line. -/
theorem poisoned_foldl_poisonStep (a n : Nat) (p : Bool) {ls : List Nat} {k : Nat} (h : k ∉ ls) (m : MemSt) :
    (ls.foldl (poisonStep a n p) m).poisoned k = m.poisoned k := by
  induction ls generalizing m with
  | nil => rfl
  | cons l ls ih =>
    obtain ⟨hl, hls⟩ := List.ne_and_not_mem_of_not_mem_cons h
    rw [List.foldl_cons, ih hls, poisoned_poisonStep_ne _ _ _ _ hl]

/-- A poisoned write poisons its lines. -/
theorem poisoned_foldl_poisonStep_true (a n : Nat) (ls : List Nat) {k : Nat} (m : MemSt) (h : k ∈ ls ∨ m.poisoned k = true) :
    (ls.foldl (poisonStep a n true) m).poisoned k = true := by
  induction ls generalizing m with
  | nil => exact h.resolve_left (List.not_mem_nil)
  | cons l ls ih =>
    refine ih (poisonStep a n true m l) ?_
    have hstep : (poisonStep a n true m l).poisoned k = if k = l then true else m.poisoned k := poisoned_setPoison m l k true
    rw [hstep]
    by_cases hk : k = l
    · simp [hk]
    · rw [if_neg hk]
      exact h.imp_left fun hm => (List.mem_cons.mp hm).resolve_left hk

theorem write_only (m : MemSt) (a : Nat) (bs : List Byte) (p : Bool) :
    m.write a bs p = { m with dev := (m.write a bs p).dev, poison := (m.write a bs p).poison } := by
  rw [MemSt.write, writePoison_eq, foldl_poisonStep_only, putBytes_only]

theorem poisoned_putBytes (m : MemSt) (a : Nat) (bs : List Byte) (k : Nat) : (m.putBytes a bs).poisoned k = m.poisoned k := by
  rw [putBytes_only]
  rfl

/-- A sample for placement counts, and changes nothing else of the memories (R410). -/
theorem sample_only (m : MemSt) (io : Io) (a : Nat) :
    m.sample io a = { m with sketch := (m.sample io a).sketch, sampleCt := (m.sample io a).sampleCt } := by
  unfold MemSt.sample
  split
  · rfl
  · dsimp only
    split <;> rfl

/-- The samples that the lines of an access give. -/
def sampleLines (io : Io) (ls : List Nat) (m : MemSt) : MemSt := ls.foldl (fun m l => m.sample io (l * 64)) m

theorem sampleLines_only (io : Io) (ls : List Nat) (m : MemSt) :
    sampleLines io ls m = { m with sketch := (sampleLines io ls m).sketch, sampleCt := (sampleLines io ls m).sampleCt } := by
  unfold sampleLines
  induction ls generalizing m with
  | nil => rfl
  | cons l ls ih =>
    rw [List.foldl_cons, ih, sample_only]

theorem byte_sampleLines (io : Io) (ls : List Nat) (m : MemSt) (x : Nat) : (sampleLines io ls m).byte x = m.byte x := by
  rw [sampleLines_only]
  rfl

theorem poisoned_sampleLines (io : Io) (ls : List Nat) (m : MemSt) (k : Nat) : (sampleLines io ls m).poisoned k = m.poisoned k := by
  rw [sampleLines_only]
  rfl

/-! ### An access that nothing holds -/

/-- Every line of an access lies in a populated length (R395). -/
def linesMapped (m : MemSt) (a n : Nat) : Bool := (linesOf a n).all (fun l => m.mapped (l * 64))

/-- The first fault of an access is a lost unit (R415). -/
def linesLost (m : MemSt) (a n : Nat) : Bool := (m.rangeFault a n).any (fun e => e.1 = Code.TIER_OFFLINE)

/-- What a host read of memory returns. -/
def answerBytes (io : Io) (bs : List Byte) (ep : Bool) : Io := { io with readBytes := bs, readEp := ep }

section
variable {s : State} {a : Nat}

theorem barAccess_write_unmapped {bs : List Byte} (h : linesMapped s.mem a bs.length = false) (ep : Bool) :
    barAccess s ⟨a, bs.length, some bs, ep⟩ = s.mapIo (fun io => io.capture bGlb Code.ADDR_UNMAPPED a) := by
  unfold linesMapped at h
  simp [barAccess, h, State.mapIo]

theorem barAccess_read_unmapped {n : Nat} (h : linesMapped s.mem a n = false) (ep : Bool) :
    barAccess s ⟨a, n, none, ep⟩ = s.mapIo (fun io => answerBytes (io.capture bGlb Code.ADDR_UNMAPPED a) (List.replicate n 0) false) := by
  unfold linesMapped at h
  simp [barAccess, h, State.mapIo, answerBytes]

theorem barAccess_write_lost {bs : List Byte} (h : linesMapped s.mem a bs.length = true) (hl : linesLost s.mem a bs.length = true) (ep : Bool) :
    barAccess s ⟨a, bs.length, some bs, ep⟩ = s.mapIo (fun io => io.capture bGlb Code.TIER_OFFLINE a) := by
  unfold linesMapped at h
  unfold linesLost at hl
  simp only [barAccess, h, hl, State.mapIo]
  rfl

theorem barAccess_read_lost {n : Nat} (h : linesMapped s.mem a n = true) (hl : linesLost s.mem a n = true) (ep : Bool) :
    barAccess s ⟨a, n, none, ep⟩ = s.mapIo (fun io => answerBytes ((io.capture bGlb Code.TIER_OFFLINE a).takeFree.2)
      ((List.range n).map (fun i => Config.freeByte (io.capture bGlb Code.TIER_OFFLINE a).takeFree.1 i)) false) := by
  unfold linesMapped at h
  unfold linesLost at hl
  simp only [barAccess, h, hl, State.mapIo]
  rfl

theorem barAccess_write {bs : List Byte} (h : linesMapped s.mem a bs.length = true) (hl : linesLost s.mem a bs.length = false) (ep : Bool) :
    barAccess s ⟨a, bs.length, some bs, ep⟩ = { s with mem := (sampleLines s.io (linesOf a bs.length) s.mem).write a bs ep } := by
  unfold linesMapped at h
  unfold linesLost at hl
  simp only [barAccess, h, hl]
  rfl

theorem barAccess_read {n : Nat} (h : linesMapped s.mem a n = true) (hl : linesLost s.mem a n = false) (ep : Bool) :
    barAccess s ⟨a, n, none, ep⟩ = { s with mem := sampleLines s.io (linesOf a n) s.mem, io := answerBytes s.io (s.mem.bytes a n) (s.mem.anyPoison a n) } := by
  have hbytes : (sampleLines s.io (linesOf a n) s.mem).bytes a n = s.mem.bytes a n := by
    simp only [MemSt.bytes, byte_sampleLines]
  have hpoison : (sampleLines s.io (linesOf a n) s.mem).anyPoison a n = s.mem.anyPoison a n := by
    simp only [MemSt.anyPoison, poisoned_sampleLines]
  rw [← hbytes, ← hpoison]
  unfold linesMapped at h
  unfold linesLost at hl
  simp only [barAccess, h, hl]
  rfl

end

/-! ### The aperture -/

/-- The power states in which the endpoint serves BAR4. -/
def bar4Up (s : State) : Prop := s.rst.power = .d0 ∨ s.rst.power = .d3pend

/-- An access waits while its page moves or its controller is being reset (Table 15.5, R416). -/
def accessHeld (s : State) (a : Nat) : Prop :=
  s.mem.mapped a = true ∧ (s.mem.moving a = true ∨ (s.mem.controller a).any (fun b => s.io.notReady.contains b) = true)

/-- The registers once a write with EP has been counted (R405). -/
def epIo (ep : Bool) (io : Io) : Io := if ep then io.count bPcie Off.pcie_EP_RX 1 else io

theorem onlyRegs_epIo (ep : Bool) (io : Io) : Io.OnlyRegs [bPcie] io (epIo ep io) := by
  cases ep with
  | false => exact Io.onlyRegs_refl _ _
  | true => exact Io.onlyRegs_count io bPcie_valid (by decide) 1

/-- No register of PCIE's names an aperture. -/
theorem apertureAddr_epIo (ep : Bool) (io : Io) (off : Nat) : apertureAddr (epIo ep io) off = apertureAddr io off := by
  obtain ⟨honly, hreg⟩ := onlyRegs_epIo ep io
  have hsize : (epIo ep io).bar4Log2 = io.bar4Log2 := by rw [honly]
  unfold apertureAddr
  rw [hsize]
  dsimp only
  by_cases ha : 16 ≤ off / 2 ^ (io.bar4Log2 - 4)
  · rw [if_pos (.inl ha), if_pos (.inl ha)]
  · have hbr : ∀ o, o ≤ 0x104c → (epIo ep io).br bGlb (o + 8 * (off / 2 ^ (io.bar4Log2 - 4))) = io.br bGlb (o + 8 * (off / 2 ^ (io.bar4Log2 - 4))) := by
      intro o ho
      refine hreg _ fun k hk => ?_
      rw [blockAt_base (by decide) (by rw [show (catRow bGlb.kind).pages = 2 from rfl]; omega), List.mem_singleton.mp hk]
      decide
    rw [hbr _ (by decide), hbr _ (by decide)]

section
variable {s : State} (hp : bar4Up s) {off : Nat}
include hp

theorem bar4Serves : ¬ (s.rst.power ≠ .d0 ∧ s.rst.power ≠ .d3pend) := by
  rintro ⟨h1, h2⟩
  exact hp.elim h1 h2

theorem aperture_read_disabled (h : apertureAddr s.io off = none) (len : Nat) :
    exec (.apertureAccess off len none false) s = .next (s.mapIo (fun io => answerBytes io (List.replicate len 0) false)) := by
  change execApertureAccess off len none false s = _
  unfold execApertureAccess
  rw [if_neg (bar4Serves hp)]
  simp [h, State.mapIo, answerBytes]

theorem aperture_write_disabled (h : apertureAddr s.io off = none) (len : Nat) (bs : List Byte) :
    exec (.apertureAccess off len (some bs) false) s = .next s := by
  change execApertureAccess off len (some bs) false s = _
  unfold execApertureAccess
  rw [if_neg (bar4Serves hp)]
  simp [h]

variable {a : Nat} (ha : apertureAddr s.io off = some a)
include ha

theorem aperture_held (hh : accessHeld s a) (len : Nat) (data : Option (List Byte)) : exec (.apertureAccess off len data false) s =
    .next { s with mem := { s.mem with heldAcc := s.mem.heldAcc ++ [⟨a, (data.map List.length).getD len, data, false⟩] } } := by
  change execApertureAccess off len data false s = _
  unfold execApertureAccess
  rw [if_neg (bar4Serves hp)]
  simp only [Bool.false_eq_true, false_and, if_false, ha]
  exact if_pos hh

theorem aperture_read (hh : ¬ accessHeld s a) (len : Nat) :
    exec (.apertureAccess off len none false) s = .next (barAccess s ⟨a, len, none, false⟩) := by
  change execApertureAccess off len none false s = _
  unfold execApertureAccess
  rw [if_neg (bar4Serves hp)]
  simp only [Bool.false_eq_true, false_and, if_false, ha]
  exact if_neg hh

theorem aperture_write (hh : ¬ accessHeld s a) (len : Nat) (bs : List Byte) (ep : Bool) :
    exec (.apertureAccess off len (some bs) ep) s = .next (barAccess (s.mapIo (epIo ep)) ⟨a, bs.length, some bs, ep⟩) := by
  have hs : (if ep = true ∧ (some bs).isSome = true then s.mapIo (fun io => io.count bPcie Off.pcie_EP_RX 1) else s) = s.mapIo (epIo ep) := by
    cases ep <;> rfl
  have ha' : apertureAddr (s.mapIo (epIo ep)).io off = some a := (apertureAddr_epIo ep s.io off).trans ha
  have hh' : ¬ accessHeld (s.mapIo (epIo ep)) a := by
    have hready : (epIo ep s.io).notReady = s.io.notReady := by rw [(onlyRegs_epIo ep s.io).1]
    unfold accessHeld
    rw [mapIo_mem, mapIo_io, hready]
    exact hh
  change execApertureAccess off len (some bs) ep s = _
  unfold execApertureAccess
  rw [if_neg (bar4Serves hp), hs]
  simp only [ha']
  exact if_neg hh'

end

/-- What a host write through BAR4 leaves: its bytes, its poison, the samples and the count of poisoned writes (R405). -/
theorem aperture_write_spec {s : State} (hp : bar4Up s) {off a : Nat} (ha : apertureAddr s.io off = some a) (hh : ¬ accessHeld s a) (len : Nat)
    {bs : List Byte} (ep : Bool) (h : linesMapped s.mem a bs.length = true) (hl : linesLost s.mem a bs.length = false) :
    ∃ t, exec (.apertureAccess off len (some bs) ep) s = .next t ∧
      (∀ x, t.mem.byte x = if a ≤ x ∧ x < a + bs.length then bs.getD (x - a) 0 else s.mem.byte x) ∧
      (ep = true → ∀ l ∈ linesOf a bs.length, t.mem.poisoned l = true) ∧
      (∀ l, (linesOf a bs.length).contains l = false → t.mem.poisoned l = s.mem.poisoned l) ∧
      Io.OnlyRegs [bPcie] s.io t.io ∧
      t = { s with io := t.io, mem := { s.mem with dev := t.mem.dev, poison := t.mem.poison, sketch := t.mem.sketch, sampleCt := t.mem.sampleCt } } := by
  refine ⟨_, (aperture_write hp ha hh len bs ep).trans (congrArg Host.Outcome.next (barAccess_write (s := s.mapIo (epIo ep)) h hl ep)), fun x => ?_, fun hep l hm => ?_,
    fun l hm => ?_, onlyRegs_epIo ep s.io, ?_⟩
  · exact (byte_write _ _ _ _ _).trans (by rw [byte_sampleLines]; rfl)
  · subst hep
    exact poisoned_foldl_poisonStep_true _ _ _ _ (.inl hm)
  · have hm' : l ∉ linesOf a bs.length := by simpa using hm
    exact (poisoned_foldl_poisonStep _ _ _ hm' _).trans ((poisoned_putBytes _ _ _ _).trans (poisoned_sampleLines _ _ _ _))
  · dsimp only
    rw [write_only, sampleLines_only]
    rfl

end Sys2Proof.Machine
end

section
/-! PROOF. Host accesses to BAR2: the ring area, the doorbell pages and the MSI-X words (R30, R425, R427, R547). -/

namespace Sys2Proof.Machine

/-- A row of BAR2 whose rails are up. -/
theorem ringArea_write {s : State} (hr : railsUp s = true) {off : Nat} (ho : off < 0x4000000) (len : Nat) (bs : List Byte) :
    exec (.ringAreaAccess off len (some bs)) s = .next (bar2Write s off bs) := by
  change execRingAreaAccess off len (some bs) s = _
  unfold execRingAreaAccess
  exact if_neg (by simp [hr]; omega)

theorem ringArea_read {s : State} (hr : railsUp s = true) {off : Nat} (ho : off < 0x4000000) (len : Nat) :
    exec (.ringAreaAccess off len none) s = .next (bar2Read s off len) := by
  change execRingAreaAccess off len none s = _
  unfold execRingAreaAccess
  exact if_neg (by simp [hr]; omega)

/-! ### The ring area -/

theorem inArea_iff (a : Nat) : inArea a = true ↔ 0x1000000 ≤ a ∧ a < 0x3FF0000 := by
  simp [inArea]

/-- One byte of a write that starts in the ring area. -/
def areaStep (off : Nat) (m : MemSt) (e : Byte × Nat) : MemSt := if inArea (off + e.2) then m.putRingByte (off + e.2) e.1 else m

theorem areaStep_only (off : Nat) (l : List (Byte × Nat)) (m : MemSt) :
    l.foldl (areaStep off) m = { m with ring := (l.foldl (areaStep off) m).ring } := by
  induction l generalizing m with
  | nil => rfl
  | cons e l ih =>
    rw [List.foldl_cons, ih]
    unfold areaStep
    split <;> rfl

theorem ringByte_areaStep (off : Nat) (m : MemSt) (e : Byte × Nat) (x : Nat) :
    (areaStep off m e).ringByte x = if inArea x = true ∧ x = off + e.2 then e.1 else m.ringByte x := by
  unfold areaStep
  split
  · rename_i h
    rw [ringByte_putRingByte]
    by_cases hx : x = off + e.2
    · rw [if_pos hx, if_pos ⟨hx ▸ h, hx⟩]
    · rw [if_neg hx, if_neg (fun h => hx h.2)]
  · rename_i h
    symm
    refine if_neg ?_
    rintro ⟨hx, rfl⟩
    exact h hx

/-- A byte of the ring area after the bytes of a write, from the `k`th on. -/
theorem ringByte_areaFold (off : Nat) (bs : List Byte) (k : Nat) (m : MemSt) (x : Nat) :
    ((bs.zipIdx k).foldl (areaStep off) m).ringByte x =
      if inArea x = true ∧ off + k ≤ x ∧ x < off + k + bs.length then bs.getD (x - (off + k)) 0 else m.ringByte x := by
  induction bs generalizing k m with
  | nil => exact (if_neg (by simp)).symm
  | cons b bs ih =>
    rw [List.zipIdx_cons, List.foldl_cons, ih (k + 1), ringByte_areaStep]
    simp only [List.length_cons]
    by_cases hx : x = off + k
    · subst hx
      simp
    · by_cases hin : inArea x = true ∧ off + (k + 1) ≤ x ∧ x < off + (k + 1) + bs.length
      · obtain ⟨j, rfl⟩ : ∃ j, x = off + (k + 1) + j := ⟨x - (off + (k + 1)), by omega⟩
        rw [if_pos hin, if_pos ⟨hin.1, by omega, by omega⟩, show off + (k + 1) + j - (off + (k + 1)) = j by omega,
          show off + (k + 1) + j - (off + k) = j + 1 by omega, List.getD_cons_succ]
      · rw [if_neg hin, if_neg (fun h => hx h.2), if_neg (fun h => hin ⟨h.1, by omega, by omega⟩)]

theorem bar2Write_area {s : State} {off : Nat} (h1 : 0x1000000 ≤ off) (h2 : off < 0x3FF0000) (bs : List Byte) :
    bar2Write s off bs = { s with mem := (bs.zipIdx 0).foldl (areaStep off) s.mem } :=
  (if_neg (by omega)).trans (if_neg (by omega))

theorem bar2Read_area {s : State} {off : Nat} (h1 : 0x1000000 ≤ off) (h2 : off < 0x3FF0000) (len : Nat) :
    bar2Read s off len = answerRead s ((List.range len).map (fun i => if inArea (off + i) then s.mem.ringByte (off + i) else 0)) :=
  (if_neg (by omega)).trans (if_neg (by omega))

/-! ### Doorbell pages -/

theorem goodForm_four {off : Nat} (h : off % 4 = 0) : goodForm off 4 = true := by simp [goodForm, h]
theorem goodForm_eight {off : Nat} (h : off % 8 = 0) : goodForm off 8 = true := by simp [goodForm, h]

theorem wordsAt_four (off : Nat) {bs : List Byte} (h : bs.length = 4) : wordsAt off bs = [(off, leNat bs)] := by
  have htake : bs.take 4 = bs := List.take_of_length_le (by omega)
  simp [wordsAt, h, htake]

theorem wordsAt_eight (off : Nat) {bs : List Byte} (h : bs.length = 8) :
    wordsAt off bs = wordsAt off (bs.take 4) ++ wordsAt (off + 4) (bs.drop 4) := by
  rw [wordsAt_four off (bs := bs.take 4) (by simp [h]), wordsAt_four (off + 4) (bs := bs.drop 4) (by simp [h])]
  have htake : (bs.drop 4).take 4 = bs.drop 4 := List.take_of_length_le (by simp [h])
  simp [wordsAt, h, List.range_succ, htake]

section
variable {s : State} {off : Nat} (ho : off < 0x1000000)
include ho

theorem bar2Write_page_refused {bs : List Byte} (h : goodForm off bs.length = false) : bar2Write s off bs = badPage s off := by
  simp [bar2Write, ho, h]

theorem bar2Write_page {bs : List Byte} (h : goodForm off bs.length = true) :
    bar2Write s off bs = (wordsAt off bs).foldl (fun s e => pageWrite s e.1 e.2) s := by
  simp [bar2Write, ho, h]

theorem bar2Read_page_refused {len : Nat} (h : goodForm off len = false) :
    bar2Read s off len = answerRead (badPage s off) (List.replicate (4 * cdiv len 4) 0xFF) := by
  simp [bar2Read, ho, h]

theorem bar2Read_page_four (h : off % 4 = 0) : bar2Read s off 4 = answerRead (pageWord s off).2 (leBytes 4 (pageWord s off).1) := by
  simp [bar2Read, ho, goodForm_four h]

theorem bar2Read_page_eight (h : off % 8 = 0) : bar2Read s off 8 =
    answerRead (pageWord (pageWord s off).2 (off + 4)).2 (leBytes 4 (pageWord s off).1 ++ leBytes 4 (pageWord (pageWord s off).2 (off + 4)).1) := by
  simp [bar2Read, ho, goodForm_eight h]

end

/-! ### One word of a doorbell page -/

theorem next_outState_sqDb (slot : Nat) (v : W32) (s : State) : Host.Outcome.next (outState (execSqDb slot v s) s) = execSqDb slot v s := by
  unfold execSqDb
  dsimp only
  split
  · rfl
  · split_ifs <;> rfl

theorem next_outState_cqDb (slot : Nat) (v : W32) (s : State) : Host.Outcome.next (outState (execCqDb slot v s) s) = execCqDb slot v s := by
  unfold execCqDb
  dsimp only
  split
  · rfl
  · split_ifs <;> rfl

theorem next_outState_cqArm (slot : Nat) (v : W32) (s : State) : Host.Outcome.next (outState (execCqArm slot v s) s) = execCqArm slot v s := by
  unfold execCqArm
  dsimp only
  split
  · rfl
  · split_ifs <;> rfl

theorem next_outState_msix (off : Nat) (v : W32) (s : State) :
    Host.Outcome.next (outState (execMsixVectorUnmask off v s) s) = execMsixVectorUnmask off v s := by
  unfold execMsixVectorUnmask
  dsimp only
  split_ifs <;> rfl

/-- The rails stay as they are through a doorbell. -/
theorem railsUp_pageWrite (s : State) (off v : Nat) : railsUp (pageWrite s off v) = railsUp s := by
  have h : (pageWrite s off v).rst = s.rst := congrArg (fun k => k.2.2) (kept_pageWrite s off v)
  rw [railsUp, railsUp, h]

/-- The rails stay as they are through a read of a word. -/
theorem railsUp_pageWord (s : State) (off : Nat) : railsUp (pageWord s off).2 = railsUp s := by
  unfold pageWord
  dsimp only
  split_ifs
  · rfl
  · cases pageRing s (off / 4096) <;> rfl
  · rfl

/-- RING_STAT of a page with a ring (Table 16.3). -/
theorem pageWord_stat {s : State} {off cn : Nat} {r : Ring} (h : pageRing s (off / 4096) = some (cn, r)) (ho : off % 4096 = 0x010) :
    pageWord s off = (2 ^ 31 + r.sqHead, s) := by
  simp [pageWord, h, ho]

theorem pageWord_cn {s : State} {off cn : Nat} {r : Ring} (h : pageRing s (off / 4096) = some (cn, r)) (ho : off % 4096 = 0x014) :
    pageWord s off = (cn, s) := by
  simp [pageWord, h, ho]

theorem pageWord_stat_unbound {s : State} {off : Nat} (h : pageRing s (off / 4096) = none) (ho : off % 4096 = 0x010) : pageWord s off = (0, s) := by
  simp [pageWord, h, ho]

theorem pageWord_zero {s : State} {off : Nat} (h1 : off % 4096 ≠ 0x010) (h2 : off % 4096 ≠ 0x014) : pageWord s off = (0, s) := by
  simp [pageWord, h1, h2]

theorem pageRing_bound {s : State} {slot cn : Nat} {r : Ring} (h : (slot = 0 ∧ cn = 0 ∧ s.ring? 0 = some r) ∨
    (slot ≠ 0 ∧ s.cnOfSlot slot = some cn ∧ s.ring? (cn + 1) = some r)) : pageRing s slot = some (cn, r) := by
  obtain ⟨hs, rfl, hr⟩ | ⟨hs, hc, hr⟩ := h
  · simp [pageRing, hs, hr]
  · simp [pageRing, hs, hc, hr]

theorem pageRing_unbound {s : State} {slot : Nat} (h0 : slot = 0 → s.ring? 0 = none)
    (h : slot ≠ 0 → ∀ cn, s.cnOfSlot slot = some cn → s.ring? (cn + 1) = none) : pageRing s slot = none := by
  unfold pageRing
  split
  · simp [h0 ‹_›]
  · rename_i hs
    cases hc : s.cnOfSlot slot with
    | none => rfl
    | some cn => simp [h hs cn hc]

/-- What a read answers has no bearing on the words of a doorbell page. -/
theorem pageWord_answerRead (s : State) (bs : List Byte) (off : Nat) : (pageWord (answerRead s bs) off).1 = (pageWord s off).1 := by
  have hring : pageRing (answerRead s bs) (off / 4096) = pageRing s (off / 4096) := rfl
  unfold pageWord
  rw [hring]
  split
  · rfl
  · split
    · cases pageRing s (off / 4096) <;> rfl
    · rfl

/-! ### MSI-X words -/

theorem bar2Write_msix {s : State} {off : Nat} (h1 : 0x3FF0000 ≤ off) (h4 : off % 4 = 0) {bs : List Byte} (hb : bs.length = 4) :
    bar2Write s off bs = outState (execMsixVectorUnmask off (BitVec.ofNat 32 (leNat bs)) s) s := by
  have hf : goodForm off bs.length = true := hb ▸ goodForm_four h4
  unfold bar2Write
  rw [if_neg (by omega), if_pos h1, hf, wordsAt_four off hb]
  rfl

theorem bar2Read_msix {s : State} {off : Nat} (h1 : 0x3FF0000 ≤ off) (h4 : off % 4 = 0) :
    bar2Read s off 4 = answerRead s (leBytes 4 (msixWord s off)) := by
  unfold bar2Read
  rw [if_neg (by omega), if_pos h1, if_pos (goodForm_four h4)]
  simp

/-- The word of the pending-bit array that a list of vectors leaves, from a word on. -/
def pendingWord (k : Nat) (pba : List Nat) (w : Nat) : Nat := pba.foldl (fun w v => if v / 32 = k then Nat.lor w (2 ^ (v % 32)) else w) w

theorem testBit_pendingWord (k : Nat) (pba : List Nat) (w : Nat) {i : Nat} (hi : i < 32) :
    (pendingWord k pba w).testBit i = (w.testBit i || pba.contains (k * 32 + i)) := by
  unfold pendingWord
  induction pba generalizing w with
  | nil => simp
  | cons v pba ih =>
    rw [List.foldl_cons, ih, List.contains_cons]
    split
    · rename_i hv
      have hbit : (Nat.lor w (2 ^ (v % 32))).testBit i = (w.testBit i || decide (v % 32 = i)) := by
        rw [← Nat.testBit_two_pow]
        exact Nat.testBit_or w (2 ^ (v % 32)) i
      have heq : (k * 32 + i == v) = decide (v % 32 = i) := by
        rw [Bool.eq_iff_iff, beq_iff_eq, decide_eq_true_eq]
        omega
      rw [hbit, heq, Bool.or_assoc]
    · have hne : (k * 32 + i == v) = false := by
        rw [beq_eq_false_iff_ne]
        omega
      rw [hne, Bool.false_or]

theorem pendingWord_lt (k : Nat) (pba : List Nat) {w : Nat} (hw : w < 2 ^ 32) : pendingWord k pba w < 2 ^ 32 := by
  unfold pendingWord
  induction pba generalizing w with
  | nil => exact hw
  | cons v pba ih =>
    rw [List.foldl_cons]
    refine ih ?_
    split
    · exact Nat.or_lt_two_pow hw (Nat.pow_lt_pow_right (by decide) (Nat.mod_lt _ (by decide)))
    · exact hw

theorem msixWord_pending (s : State) {off : Nat} (h : 0x3FF8000 ≤ off) : msixWord s off = pendingWord ((off - 0x3FF8000) / 4) s.host.pba 0 :=
  if_neg (by omega)

/-- The word of the MSI-X table at an offset (R427). -/
theorem msixWord_table (s : State) {off : Nat} (h : off < 0x3FF8000) (h4 : off % 4 = 0) : msixWord s off =
    let e := smGet {} ((off - 0x3FF0000) / 16) s.host.msix
    if off % 16 = 0 then e.addr % 2 ^ 32 else if off % 16 = 4 then e.addr / 2 ^ 32 else if off % 16 = 8 then e.data else if e.masked then 1 else 0 := by
  refine (if_pos h).trans ?_
  obtain ho | ho | ho | ho : off % 16 = 0 ∨ off % 16 = 4 ∨ off % 16 = 8 ∨ off % 16 = 12 := by omega
  all_goals simp [ho]

end Sys2Proof.Machine
end

section
/-! PROOF. Host accesses to the apertures of BAR4 and to BAR2, assembled (R30, R31, R395, R405, R415, R416, R547). -/

namespace Sys2Proof.Machine

/-! ### What the answers of the apertures leave -/

section
variable {s : State} (hp : bar4Up s) {off a : Nat} (ha : apertureAddr s.io off = some a) (hh : ¬ accessHeld s a) (len : Nat)
include hp ha hh

theorem aperture_read_spec (h : linesMapped s.mem a len = true) (hl : linesLost s.mem a len = false) :
    ∃ t, exec (.apertureAccess off len none false) s = .next t ∧ t.io.readBytes = s.mem.bytes a len ∧ t.io.readEp = s.mem.anyPoison a len ∧
      t = { s with io := { s.io with readBytes := t.io.readBytes, readEp := t.io.readEp },
                   mem := { s.mem with sketch := t.mem.sketch, sampleCt := t.mem.sampleCt } } := by
  refine ⟨_, (aperture_read hp ha hh len).trans (congrArg Host.Outcome.next (barAccess_read h hl false)), rfl, rfl, ?_⟩
  dsimp only
  rw [sampleLines_only]
  rfl

theorem aperture_read_unmapped (h : linesMapped s.mem a len = false) :
    ∃ t, exec (.apertureAccess off len none false) s = .next t ∧ t.io.readBytes = List.replicate len 0 ∧
      t = { s with io := { s.io.capture bGlb Code.ADDR_UNMAPPED a with readBytes := t.io.readBytes, readEp := false } } :=
  ⟨_, (aperture_read hp ha hh len).trans (congrArg Host.Outcome.next (barAccess_read_unmapped h false)), rfl, rfl⟩

/-- A read of a lost unit takes one free draw, as its bytes are undefined (R415). -/
theorem aperture_read_lost (h : linesMapped s.mem a len = true) (hl : linesLost s.mem a len = true) :
    ∃ t, exec (.apertureAccess off len none false) s = .next t ∧ t.io.readBytes.length = len ∧
      t = { s with io := { s.io.capture bGlb Code.TIER_OFFLINE a with readBytes := t.io.readBytes, readEp := false, free := s.io.free + 1 } } := by
  have hfree : (s.io.capture bGlb Code.TIER_OFFLINE a).free = s.io.free := by
    rw [(Io.onlyEvents_capture s.io bGlb_valid Code.TIER_OFFLINE a none).1]
  refine ⟨_, (aperture_read hp ha hh len).trans (congrArg Host.Outcome.next (barAccess_read_lost h hl false)), ?_, ?_⟩
  · simp [State.mapIo, answerBytes]
  · rw [← hfree]
    rfl

theorem aperture_write_unmapped (bs : List Byte) (h : linesMapped s.mem a bs.length = false) :
    exec (.apertureAccess off len (some bs) false) s = .next { s with io := s.io.capture bGlb Code.ADDR_UNMAPPED a } :=
  (aperture_write hp ha hh len bs false).trans (congrArg Host.Outcome.next (barAccess_write_unmapped (s := s) h false))

theorem aperture_write_lost (bs : List Byte) (h : linesMapped s.mem a bs.length = true) (hl : linesLost s.mem a bs.length = true) :
    exec (.apertureAccess off len (some bs) false) s = .next { s with io := s.io.capture bGlb Code.TIER_OFFLINE a } :=
  (aperture_write hp ha hh len bs false).trans (congrArg Host.Outcome.next (barAccess_write_lost (s := s) h hl false))

end

/-! ### Rows of the ring area and of the doorbell pages -/

section
variable {s : State} (hr : railsUp s = true) {off : Nat}
include hr

/-- A write that starts in the ring area puts its bytes there. -/
theorem ringArea_write_spec (h1 : 0x1000000 ≤ off) (h2 : off < 0x3FF0000) (bs : List Byte) :
    ∃ t, exec (.ringAreaAccess off 0 (some bs)) s = .next t ∧ t = { s with mem := { s.mem with ring := t.mem.ring } } ∧
      ∀ x, t.mem.ringByte x = if (0x1000000 ≤ x ∧ x < 0x3FF0000) ∧ off ≤ x ∧ x < off + bs.length then bs.getD (x - off) 0 else s.mem.ringByte x := by
  refine ⟨_, (ringArea_write hr (by omega) 0 bs).trans (congrArg Host.Outcome.next (bar2Write_area h1 h2 bs)), ?_, fun x => ?_⟩
  · dsimp only
    rw [areaStep_only]
  · simpa only [inArea_iff, Nat.add_zero] using ringByte_areaFold off bs 0 s.mem x

theorem ringArea_read_spec (h1 : 0x1000000 ≤ off) (h2 : off < 0x3FF0000) (len : Nat) :
    ∃ bs, exec (.ringAreaAccess off len none) s = .next { s with io := { s.io with readBytes := bs, readEp := false } } ∧ bs.length = len ∧
      ∀ i, i < len → bs.getD i 0 = if 0x1000000 ≤ off + i ∧ off + i < 0x3FF0000 then s.mem.ringByte (off + i) else 0 := by
  refine ⟨_, (ringArea_read hr (by omega) len).trans (congrArg Host.Outcome.next (bar2Read_area h1 h2 len)), by simp, fun i hi => ?_⟩
  simp [hi, inArea_iff]

section
variable (ho : off < 0x1000000)
include ho

/-- An aligned 4-byte write of a doorbell page is its word's doorbell. -/
theorem ringArea_write_word (h4 : off % 4 = 0) {bs : List Byte} (hb : bs.length = 4) :
    exec (.ringAreaAccess off 0 (some bs)) s = .next (pageWrite s off (leNat bs)) := by
  rw [ringArea_write hr (by omega), bar2Write_page ho (hb ▸ goodForm_four h4), wordsAt_four off hb]
  rfl

/-- The doorbell that each word of a page names (Table 16.3). -/
theorem doorbell_word {bs : List Byte} (hb : bs.length = 4) (h4 : off % 4 = 0) :
    (off % 4096 = 0 → exec (.ringAreaAccess off 0 (some bs)) s = exec (.sqDb (off / 4096) (BitVec.ofNat 32 (leNat bs))) s) ∧
    (off % 4096 = 4 → exec (.ringAreaAccess off 0 (some bs)) s = exec (.cqDb (off / 4096) (BitVec.ofNat 32 (leNat bs))) s) ∧
    (off % 4096 = 8 → exec (.ringAreaAccess off 0 (some bs)) s = exec (.cqArm (off / 4096) (BitVec.ofNat 32 (leNat bs))) s) ∧
    (8 < off % 4096 → exec (.ringAreaAccess off 0 (some bs)) s = .next s) := by
  rw [ringArea_write_word hr ho h4 hb]
  unfold pageWrite
  refine ⟨fun h => ?_, fun h => ?_, fun h => ?_, fun h => ?_⟩
  · rw [if_pos h]
    exact next_outState_sqDb _ _ _
  · rw [if_neg (by omega), if_pos h]
    exact next_outState_cqDb _ _ _
  · rw [if_neg (by omega), if_neg (by omega), if_pos h]
    exact next_outState_cqArm _ _ _
  · rw [if_neg (by omega), if_neg (by omega), if_neg (by omega)]

/-- An 8-byte write of a doorbell page is the doorbells of its words, the lower first (R547). -/
theorem doorbell_pair (h8 : off % 8 = 0) {bs : List Byte} (hb : bs.length = 8) :
    ∃ u, exec (.ringAreaAccess off 0 (some (bs.take 4))) s = .next u ∧
      exec (.ringAreaAccess off 0 (some bs)) s = exec (.ringAreaAccess (off + 4) 0 (some (bs.drop 4))) u := by
  have htake : (bs.take 4).length = 4 := by simp [hb]
  have hdrop : (bs.drop 4).length = 4 := by simp [hb]
  refine ⟨_, ringArea_write_word hr ho (by omega) htake, ?_⟩
  rw [ringArea_write_word ((railsUp_pageWrite s _ _).trans hr) (by omega) (by omega) hdrop, ringArea_write hr (by omega),
    bar2Write_page ho (hb ▸ goodForm_eight h8), wordsAt_eight off hb, List.foldl_append, wordsAt_four off htake, wordsAt_four (off + 4) hdrop]
  rfl

/-- An aligned 4-byte read of a doorbell page returns its word. -/
theorem ringArea_read_word (h4 : off % 4 = 0) : exec (.ringAreaAccess off 4 none) s =
    .next (answerRead (pageWord s off).2 (leBytes 4 (pageWord s off).1)) := by
  rw [ringArea_read hr (by omega), bar2Read_page_four ho h4]

theorem ringArea_read_page (h4 : off % 4 = 0) {w : Nat} (h : pageWord s off = (w, s)) :
    exec (.ringAreaAccess off 4 none) s = .next (answerRead s (leBytes 4 w)) := by
  rw [ringArea_read_word hr ho h4, h]

/-- An 8-byte read of a doorbell page returns its words, the lower first (R547). -/
theorem ringArea_read_pair (h8 : off % 8 = 0) : ∃ u v t, exec (.ringAreaAccess off 4 none) s = .next u ∧
    exec (.ringAreaAccess (off + 4) 4 none) u = .next v ∧ exec (.ringAreaAccess off 8 none) s = .next t ∧
    t.io.readBytes = u.io.readBytes ++ v.io.readBytes := by
  have hrails : railsUp (answerRead (pageWord s off).2 (leBytes 4 (pageWord s off).1)) = true := (railsUp_pageWord s off).trans hr
  refine ⟨_, _, _, ringArea_read_word hr ho (by omega), ringArea_read_word hrails (by omega) (by omega),
    (ringArea_read hr (by omega) 8).trans (congrArg Host.Outcome.next (bar2Read_page_eight ho h8)), ?_⟩
  rw [pageWord_answerRead]
  rfl

end

/-- A form of access that a doorbell page refuses (R41, R547). -/
theorem ringArea_page_refused (ho : off < 0x1000000) (len : Nat) :
    (∀ bs, goodForm off bs.length = false → exec (.ringAreaAccess off 0 (some bs)) s = .next (badPage s off)) ∧
    (goodForm off len = false → exec (.ringAreaAccess off len none) s = .next (answerRead (badPage s off) (List.replicate (4 * cdiv len 4) 0xFF))) := by
  refine ⟨fun bs h => ?_, fun h => ?_⟩
  · rw [ringArea_write hr (by omega), bar2Write_page_refused ho h]
  · rw [ringArea_read hr (by omega), bar2Read_page_refused ho h]

/-- A word of the MSI-X table or of the pending bits, written and read (R427). -/
theorem ringArea_msix (h1 : 0x3FF0000 ≤ off) (h2 : off < 0x4000000) (h4 : off % 4 = 0) :
    (∀ bs, bs.length = 4 → exec (.ringAreaAccess off 0 (some bs)) s = exec (.msixVectorUnmask off (BitVec.ofNat 32 (leNat bs))) s) ∧
    exec (.ringAreaAccess off 4 none) s = .next (answerRead s (leBytes 4 (msixWord s off))) := by
  refine ⟨fun bs hb => ?_, ?_⟩
  · rw [ringArea_write hr h2, bar2Write_msix h1 h4 hb]
    exact next_outState_msix _ _ _
  · rw [ringArea_read hr h2, bar2Read_msix h1 h4]

end

/-- The pending bits of a word (R427). -/
theorem msixWord_bits (s : State) {off : Nat} (h : 0x3FF8000 ≤ off) : msixWord s off < 2 ^ 32 ∧
    ∀ i, i < 32 → bitOf (msixWord s off) i = s.host.pba.contains ((off - 0x3FF8000) / 4 * 32 + i) := by
  rw [msixWord_pending s h]
  refine ⟨pendingWord_lt _ _ (by decide), fun i hi => ?_⟩
  rw [bitOf_eq_testBit, testBit_pendingWord _ _ _ hi, Nat.zero_testBit, Bool.false_or]

theorem goodForm_eq_false {off n : Nat} (h : ¬ ((n = 4 ∧ off % 4 = 0) ∨ (n = 8 ∧ off % 8 = 0))) : goodForm off n = false :=
  Bool.eq_false_iff.mpr fun hf => h ((goodForm_iff off n).mp hf)

/-- Settles O28: BAR4 by the state of its aperture, page and lines, and BAR2 by the area that the offset names. -/
theorem hostAperturesReachTheirMemory : Obligations.HostAperturesReachTheirMemory := by
  intro s off len
  refine ⟨fun hp => ⟨fun hnone => ⟨⟨_, aperture_read_disabled hp hnone len, rfl, rfl, rfl⟩, aperture_write_disabled hp hnone len⟩, ?_⟩, ?_⟩
  · intro a ha held ok lost
    refine ⟨fun hh bs => ⟨aperture_held hp ha hh len (some bs), aperture_held hp ha hh len none⟩, fun hh => ⟨?_, ?_, ?_, ?_, ?_, ?_⟩⟩
    · exact fun bs ep h hl => aperture_write_spec hp ha hh len ep h hl
    · exact aperture_read_spec hp ha hh len
    · exact aperture_write_unmapped hp ha hh len
    · exact aperture_read_unmapped hp ha hh len
    · exact aperture_write_lost hp ha hh len
    · exact aperture_read_lost hp ha hh len
  · intro hr inside put got
    refine ⟨fun hin => ⟨ringArea_write_spec hr hin.1 hin.2, ringArea_read_spec hr hin.1 hin.2 len⟩, fun ho => ?_, fun h1 h2 h4 => ?_⟩
    · intro form refused slot
      obtain ⟨hwrite, hread⟩ := ringArea_page_refused hr ho len
      refine ⟨fun bs h => hwrite bs (goodForm_eq_false h), fun h => hread (goodForm_eq_false h), ?_, fun bs hb h8 => doorbell_pair hr ho h8 hb, ?_, ?_, ?_,
        ringArea_read_pair hr ho⟩
      · intro bs hb h4
        exact doorbell_word hr ho hb h4
      · intro cn r hring
        have hpage : pageRing s (off / 4096) = some (cn, r) := pageRing_bound hring
        exact ⟨fun hs => ringArea_read_page hr ho (by omega) (pageWord_stat hpage hs), fun hc => ringArea_read_page hr ho (by omega) (pageWord_cn hpage hc)⟩
      · intro hs h0 h
        exact ringArea_read_page hr ho (by omega) (pageWord_stat_unbound (pageRing_unbound h0 h) hs)
      · exact fun h4 hs hc => ringArea_read_page hr ho h4 (pageWord_zero hs hc)
    · obtain ⟨hwrite, hread⟩ := ringArea_msix hr h1 h2 h4
      exact ⟨hwrite, msixWord s off, hread, msixWord_bits s, fun h => msixWord_table s h h4⟩

end Sys2Proof.Machine
end

section
/-! PROOF. What the checks of creation establish of a descriptor (R81 to R91, Table 4.6). -/

namespace Sys2Proof.Machine

/-- The extent of a plane lies in the permitted range (R87). -/
def InSpan (e rng : Int × Int) : Prop := rng.1 ≤ e.1 ∧ e.2 ≤ rng.2

theorem ite_some_eq_none {α : Type} {p : Prop} [Decidable p] {a : α} {o : Option α} : (if p then some a else o) = none ↔ ¬ p ∧ o = none := by
  by_cases hp : p <;> simp [hp]

theorem inSpan_of_extentBad {e rng : Int × Int} (h : extentBad e.1 e.2 rng = none) : InSpan e rng := by
  obtain ⟨hfirst, hrest⟩ := ite_some_eq_none.mp h
  obtain ⟨hlast, -⟩ := ite_some_eq_none.mp hrest
  exact ⟨by omega, by omega⟩

/-- What the checks of Table 4.6 have established of a descriptor when none of them refuses. -/
structure DescPasses (s : State) (n : Namer) (d : Desc) : Prop where
  rankPos : 0 < d.rank
  wholeScaleBlocks : Num.isMx d.etype = true → d.sz 0 % 32 = 0
  tierOfRegion : ∀ r, regionOf s d.region = some r → r.tier = d.tier
  tierWithout : regionOf s d.region = none → d.tier = 0
  permits : ∀ r, regionOf s d.region = some r → scopeOk r n = true ∧ (d.canRead = true → bitOf r.perm 0 = true) ∧
    (d.canWrite = true → bitOf r.perm 1 = true) ∧ (d.accum = true → bitOf r.perm 2 = true)
  elements : d.empty = false → InSpan d.extent (permitted (regionOf s d.region))
  scales : d.empty = false → Num.isMx d.etype = true → InSpan d.scaleExtent (permitted (regionOf s d.region))
  separates : d.empty = false → d.canWrite = true → d.accum = false → d.injective = true

/-- A handle resolves to the entry of its non-zero index, in use and of the handle's generation (R77). -/
theorem regionOf_eq_some_iff {s : State} {h : Nat} {r : Region} :
    regionOf s h = some r ↔ h % 65536 ≠ 0 ∧ smFind (h % 65536) s.adm.regions = some r ∧ r.used = true ∧ r.gen = h / 65536 := by
  unfold regionOf
  by_cases h0 : h % 65536 = 0
  · simp [h0]
  · dsimp only
    rw [if_neg h0]
    cases smFind (h % 65536) s.adm.regions with
    | none => simp
    | some q =>
      refine Option.ite_none_right_eq_some.trans ⟨?_, ?_⟩
      · rintro ⟨hu, hq⟩
        cases hq
        exact ⟨h0, rfl, hu⟩
      · rintro ⟨-, hq, hu⟩
        cases hq
        exact ⟨hu, rfl⟩

/-- The checks of creation, one after another (Table 4.6). -/
theorem descPasses_of_checkDesc {s : State} {n : Namer} {bs : List Byte} (h : checkDesc s n bs = none) : DescPasses s n (parseDesc bs) := by
  simp only [checkDesc, ite_some_eq_none] at h
  generalize parseDesc bs = d at h ⊢
  obtain ⟨-, hrank, -, -, -, -, -, -, -, hmx, -, -, -, htier, hperm, hplanes⟩ := h
  have planes : d.empty = false → InSpan d.extent (permitted (regionOf s d.region)) ∧
      (Num.isMx d.etype = true → InSpan d.scaleExtent (permitted (regionOf s d.region))) ∧ (d.canWrite = true → d.accum = false → d.injective = true) := fun hne => by
    split at hplanes
    · cases hplanes
    next hb =>
      simp only [hne, Bool.false_eq_true, if_false, Option.or_eq_none_iff] at hb
      obtain ⟨helem, hscale⟩ := hb
      refine ⟨inSpan_of_extentBad helem, fun hm => inSpan_of_extentBad ((if_pos hm).symm.trans hscale), fun hw ha => ?_⟩
      simpa [hne, hw, ha] using (ite_some_eq_none.mp hplanes).1
  refine ⟨by omega, fun hm => not_not.mp (hmx ⟨hm, ·⟩), fun r hr => ?_, fun hn => ?_, fun r hr => ?_,
    fun hne => (planes hne).1, fun hne => (planes hne).2.1, fun hne => (planes hne).2.2⟩
  · have hregion : d.region ≠ 0 := fun h0 => (regionOf_eq_some_iff.mp hr).1 (by rw [h0])
    by_contra hne
    exact htier (if h0 : d.tier = 0 then .inl ⟨h0, hregion⟩ else .inr ⟨h0, by simp [hr, hne]⟩)
  · by_contra h0
    exact htier (.inr ⟨h0, by simp [hn]⟩)
  · simpa [hr, and_assoc] using hperm

end Sys2Proof.Machine
end

section
/-! PROOF. The extent of a plane covers every offset that in-range coordinates name (R80, R84, R86). -/

namespace Sys2Proof.Machine

namespace Desc

theorem foldl_negative_part (l : List Int) (a : Int) : l.foldl (fun a x => if x < 0 then a + x else a) a = a + (l.map (min · 0)).sum := by
  induction l generalizing a with
  | nil => simp
  | cons x l ih => rw [List.foldl_cons, ih, List.map_cons, List.sum_cons]; split <;> omega

theorem foldl_positive_part (l : List Int) (a : Int) : l.foldl (fun a x => if x < 0 then a else a + x) a = a + (l.map (max · 0)).sum := by
  induction l generalizing a with
  | nil => simp
  | cons x l ih => rw [List.foldl_cons, ih, List.map_cons, List.sum_cons]; split <;> omega

/-- A step along a dimension stays between the ends of its span (R86). -/
theorem span_bounds {x n st : Int} (h0 : 0 ≤ x) (hn : x ≤ n) : min (st * n) 0 ≤ x * st ∧ x * st ≤ max (st * n) 0 := by
  obtain hst | hst := le_total 0 st
  · have : x * st ≤ st * n := by nlinarith
    have : 0 ≤ x * st := mul_nonneg h0 hst
    omega
  · have : st * n ≤ x * st := by nlinarith
    have : x * st ≤ 0 := mul_nonpos_of_nonneg_of_nonpos h0 hst
    omega

/-- Every position of a plane lies inside its extent, counted in bits (R86). -/
theorem extentOf_covers {base rank bits : Nat} {size x : Nat → Nat} {stride : Nat → Int} (hx : ∀ i < rank, x i < size i) :
    let e := extentOf base rank size stride bits
    let off := ((List.range rank).map (fun i => (x i : Int) * stride i)).sum
    8 * e.1 ≤ 8 * (base : Int) + off * bits ∧ 8 * (base : Int) + (off + 1) * bits ≤ 8 * e.2 := by
  intro e off
  have hne : (List.range rank).any (fun i => decide (size i = 0)) = false := by
    simpa using fun i hi => Nat.ne_zero_of_lt (hx i hi)
  have hspan : ∀ i ∈ List.range rank, min (stride i * ((size i : Int) - 1)) 0 ≤ (x i : Int) * stride i ∧
      (x i : Int) * stride i ≤ max (stride i * ((size i : Int) - 1)) 0 := fun i hi =>
    have := hx i (List.mem_range.mp hi)
    span_bounds (by omega) (by omega)
  have hlo := List.sum_le_sum fun i hi => (hspan i hi).1
  have hhi := List.sum_le_sum fun i hi => (hspan i hi).2
  have hlob := mul_le_mul_of_nonneg_right hlo (Int.natCast_nonneg bits)
  have hhib := mul_le_mul_of_nonneg_right (add_le_add_left hhi 1) (Int.natCast_nonneg bits)
  simp only [e, off, extentOf, hne, foldl_negative_part, foldl_positive_part, List.map_map, Function.comp_def, zero_add,
    Bool.false_eq_true, if_false]
  exact ⟨by omega, by omega⟩

/-! ### The element plane -/

theorem elemOff_eq_sum (d : Desc) (cs : List Nat) : d.elemOff cs = ((List.range d.rank).map (fun i => (cs.getD i 0 : Int) * d.st i)).sum :=
  (List.sum_eq_foldl ..).symm

/-- Coordinates inside the sizes of the dimensions in use. -/
def InRange (d : Desc) (cs : List Nat) : Prop := cs.length = d.rank ∧ ∀ i, i < d.rank → cs.getD i 0 < d.sz i

theorem not_empty_of_inRange {d : Desc} {cs : List Nat} (h : d.InRange cs) : d.empty = false := by
  simpa [empty, dims] using fun i hi => Nat.ne_zero_of_lt (h.2 i hi)

/-- Every element lies inside the extent of the element plane (R80, R86). -/
theorem element_in_extent {d : Desc} {cs : List Nat} (h : d.InRange cs) :
    8 * d.extent.1 ≤ 8 * (d.base : Int) + d.elemOff cs * d.bits ∧ 8 * (d.base : Int) + (d.elemOff cs + 1) * d.bits ≤ 8 * d.extent.2 := by
  rw [elemOff_eq_sum]
  exact extentOf_covers h.2

/-! ### The scale plane -/

/-- Place of an element's scale byte along a dimension: 32 elements of dimension 0 share one (R84). -/
def scaleCoord (cs : List Nat) (i : Nat) : Nat := if i = 0 then cs.getD 0 0 / 32 else cs.getD i 0

theorem scaleAddr_eq_sum (d : Desc) (cs : List Nat) (h : 0 < d.rank) : d.scaleAddr cs =
    ((d.scaleBase : Int) + ((List.range d.rank).map (fun i => (scaleCoord cs i : Int) * if i = 0 then 1 else d.st i / 32)).sum).toNat := by
  obtain ⟨r, hr⟩ := Nat.exists_eq_add_one_of_ne_zero h.ne'
  simp only [scaleAddr, dims, hr, List.range_succ_eq_map, List.drop_one, List.tail_cons, List.map_cons, List.map_map, List.sum_cons, Function.comp_def]
  rw [← List.sum_eq_foldl]
  simp [scaleCoord, add_assoc]

/-- Every scale byte lies inside the extent of the scale plane (R84, R86). -/
theorem scale_in_extent {d : Desc} {cs : List Nat} (hr : 0 < d.rank) (hmx : d.sz 0 % 32 = 0) (h : d.InRange cs) (h0 : 0 ≤ d.scaleExtent.1) :
    d.scaleExtent.1 ≤ d.scaleAddr cs ∧ (d.scaleAddr cs : Int) < d.scaleExtent.2 := by
  have hx : ∀ i < d.rank, scaleCoord cs i < if i = 0 then d.sz 0 / 32 else d.sz i := fun i hi => by
    have := h.2 i hi
    unfold scaleCoord
    split
    next h0 => subst h0; omega
    · exact this
  have := extentOf_covers (base := d.scaleBase) (bits := 8) (stride := fun i => if i = 0 then 1 else d.st i / 32) hx
  rw [scaleAddr_eq_sum d cs hr]
  simp only [scaleExtent] at h0 ⊢
  omega

end Desc

end Sys2Proof.Machine
end

section
/-! PROOF. The write-injectivity test is sufficient, and with it the promise at the head of chapter 4 (R87 to R90). -/

namespace Sys2Proof.Machine

namespace Desc

/-! ### The order of the dimensions -/

theorem insertDim_perm (d : Desc) (i : Nat) (l : List Nat) : (d.insertDim i l).Perm (i :: l) := by
  induction l with
  | nil => exact .refl _
  | cons j l ih =>
    unfold insertDim
    split
    · exact .refl _
    · exact (ih.cons j).trans (.swap i j l)

theorem foldl_insertDim_perm (d : Desc) (l acc : List Nat) : (l.foldl (fun l i => insertDim d i l) acc).Perm (l ++ acc) := by
  induction l generalizing acc with
  | nil => exact .refl _
  | cons i l ih => exact (ih _).trans (((insertDim_perm d i acc).append_left l).trans List.perm_middle)

/-- The dimensions of more than one element, in the order in which the test takes them (R89). -/
def testDims (d : Desc) : List Nat := (d.dims.filter (fun i => decide (1 < d.sz i))).foldl (fun l i => insertDim d i l) []

theorem injective_eq_injLoop (d : Desc) : d.injective = d.injLoop d.testDims 1 := rfl

theorem testDims_perm (d : Desc) : d.testDims.Perm (d.dims.filter (fun i => decide (1 < d.sz i))) := by
  have h := foldl_insertDim_perm d (d.dims.filter (fun i => decide (1 < d.sz i))) []
  rwa [List.append_nil] at h

theorem mem_testDims {d : Desc} {i : Nat} : i ∈ d.testDims ↔ i < d.rank ∧ 1 < d.sz i := by
  simp [d.testDims_perm.mem_iff, dims]

theorem sum_map_filter_of_zero {p : Nat → Bool} {f : Nat → Int} {l : List Nat} (h : ∀ i ∈ l, p i = false → f i = 0) :
    ((l.filter p).map f).sum = (l.map f).sum := by
  induction l with
  | nil => rfl
  | cons i l ih =>
    obtain ⟨hi, hl⟩ := List.forall_mem_cons.mp h
    cases hp : p i with
    | false => simp [hp, ih hl, hi hp]
    | true => simp [hp, ih hl]

/-- A sum over the dimensions loses nothing with those of one element when it is zero there. -/
theorem sum_testDims {d : Desc} {f : Nat → Int} (h : ∀ i < d.rank, d.sz i ≤ 1 → f i = 0) :
    (d.testDims.map f).sum = ((List.range d.rank).map f).sum := by
  rw [(d.testDims_perm.map f).sum_eq]
  exact sum_map_filter_of_zero fun i hi hp => h i (List.mem_range.mp hi) (not_lt.mp (of_decide_eq_false hp))

/-! ### The loop of the test -/

/-- A step of the loop: an offset within the dimensions inside cannot undo a non-zero step of one whose stride is at least their extent. -/
theorem eq_zero_of_add_step {e δ st : Int} {inner : Nat} (he : e.natAbs < inner) (hst : inner ≤ st.natAbs) (h : e + δ * st = 0) : δ = 0 := by
  by_contra hδ
  have habs : e.natAbs = δ.natAbs * st.natAbs := by rw [← Int.natAbs_mul, ← Int.natAbs_neg, neg_eq_of_add_eq_zero_right h]
  have : st.natAbs ≤ δ.natAbs * st.natAbs := Nat.le_mul_of_pos_left _ (Int.natAbs_pos.mpr hδ)
  omega

/-- Past the test, steps smaller than the sizes that lead back to where they began are all zero (R89). -/
theorem steps_zero_of_injLoop (d : Desc) (δ : Nat → Int) (l : List Nat) (inner : Nat) (e : Int) (h : d.injLoop l inner = true)
    (hδ : ∀ i ∈ l, (δ i).natAbs < d.sz i) (he : e.natAbs < inner) (hsum : e + (l.map (fun i => δ i * d.st i)).sum = 0) :
    e = 0 ∧ ∀ i ∈ l, δ i = 0 := by
  induction l generalizing inner e with
  | nil => exact ⟨by simpa using hsum, by simp⟩
  | cons i l ih =>
    obtain ⟨hi, hl⟩ := List.forall_mem_cons.mp hδ
    simp only [injLoop, Bool.if_false_left, Bool.and_eq_true, Bool.not_eq_true', decide_eq_false_iff_not, not_lt] at h
    obtain ⟨hst, hloop⟩ := h
    have hstep : (e + δ i * d.st i).natAbs < inner + (d.st i).natAbs * (d.sz i - 1) := by
      have htri := Int.natAbs_add_le e (δ i * d.st i)
      have hmul : (δ i * d.st i).natAbs ≤ (d.st i).natAbs * (d.sz i - 1) := by
        rw [Int.natAbs_mul, mul_comm]
        exact Nat.mul_le_mul_left _ (by omega)
      omega
    obtain ⟨hzero, hrest⟩ := ih _ _ hloop hl hstep (by rw [← hsum, List.map_cons, List.sum_cons, add_assoc])
    have hδi := eq_zero_of_add_step he hst hzero
    exact ⟨by simpa [hδi] using hzero, List.forall_mem_cons.mpr ⟨hδi, hrest⟩⟩

/-! ### Two coordinates -/

/-- How far two coordinates lie apart along a dimension. -/
def gap (cs cs' : List Nat) (i : Nat) : Int := (cs.getD i 0 : Int) - cs'.getD i 0

theorem elemOff_sub (d : Desc) (cs cs' : List Nat) :
    d.elemOff cs - d.elemOff cs' = ((List.range d.rank).map (fun i => gap cs cs' i * d.st i)).sum := by
  rw [elemOff_eq_sum, elemOff_eq_sum]
  induction List.range d.rank with
  | nil => rfl
  | cons i l ih =>
    simp only [List.map_cons, List.sum_cons, gap] at ih ⊢
    rw [← ih]
    ring

theorem gap_lt {d : Desc} {cs cs' : List Nat} (h : d.InRange cs) (h' : d.InRange cs') {i : Nat} (hi : i < d.rank) :
    (gap cs cs' i).natAbs < d.sz i := by
  have := h.2 i hi
  have := h'.2 i hi
  unfold gap
  omega

theorem eq_of_gap_zero {d : Desc} {cs cs' : List Nat} (h : d.InRange cs) (h' : d.InRange cs') (hg : ∀ i < d.rank, gap cs cs' i = 0) : cs = cs' := by
  refine List.ext_getElem (h.1.trans h'.1.symm) fun i hi hi' => ?_
  have := hg i (h.1 ▸ hi)
  rw [gap, List.getD_eq_getElem _ _ hi, List.getD_eq_getElem _ _ hi'] at this
  omega

/-- Under an injective descriptor two different coordinates have two different offsets (R89, R90). -/
theorem coords_eq_of_elemOff_eq {d : Desc} {cs cs' : List Nat} (hd : d.injective = true) (h : d.InRange cs) (h' : d.InRange cs')
    (heq : d.elemOff cs = d.elemOff cs') : cs = cs' := by
  have hone : ∀ i < d.rank, d.sz i ≤ 1 → gap cs cs' i = 0 := fun i hi h1 => by
    have := gap_lt h h' hi
    omega
  have hsum : (d.testDims.map (fun i => gap cs cs' i * d.st i)).sum = 0 := by
    rw [sum_testDims fun i hi h1 => by rw [hone i hi h1, zero_mul], ← elemOff_sub, heq, sub_self]
  have hwide := (steps_zero_of_injLoop d (gap cs cs') d.testDims 1 0 (d.injective_eq_injLoop.symm.trans hd) (fun i hi => gap_lt h h' (mem_testDims.mp hi).1) (by decide)
    (by rw [hsum, add_zero])).2
  refine eq_of_gap_zero h h' fun i hi => ?_
  by_cases h1 : 1 < d.sz i
  · exact hwide i (mem_testDims.mpr ⟨hi, h1⟩)
  · exact hone i hi (by omega)

end Desc

theorem permitted_fst_nonneg (r : Option Region) : 0 ≤ (permitted r).1 := by
  cases r <;> simp [permitted]

/-- Settles O31: the extents of the planes lie in the permitted range and cover every element and scale byte, and the injectivity test tells
the coordinates apart. -/
theorem descriptorsStayInTheirRegionsAndDoNotAlias : Obligations.DescriptorsStayInTheirRegionsAndDoNotAlias := by
  intro s n bs h d inRange lo hi
  have pass : DescPasses s n d := descPasses_of_checkDesc h
  refine ⟨fun cs hcs => ?_, fun hmx cs hcs => ?_, fun hw ha cs cs' hcs hcs' => ?_, fun r hr => ?_, fun hn => ?_⟩
  · obtain ⟨hlo, hhi⟩ := pass.elements (Desc.not_empty_of_inRange hcs)
    obtain ⟨hfirst, hlast⟩ := Desc.element_in_extent hcs
    exact ⟨by omega, by omega⟩
  · obtain ⟨hlo, hhi⟩ := pass.scales (Desc.not_empty_of_inRange hcs) hmx
    obtain ⟨hfirst, hlast⟩ := Desc.scale_in_extent pass.rankPos (pass.wholeScaleBlocks hmx) hcs ((permitted_fst_nonneg _).trans hlo)
    exact ⟨hlo.trans hfirst, hlast.trans_le hhi⟩
  · exact Desc.coords_eq_of_elemOff_eq (pass.separates (Desc.not_empty_of_inRange hcs) hw ha) hcs hcs'
  · obtain ⟨-, -, hused, -⟩ := regionOf_eq_some_iff.mp hr
    exact ⟨hused, pass.tierOfRegion r hr, pass.permits r hr⟩
  · exact ⟨pass.tierWithout hn, by simp [lo, hn, permitted], by simp [hi, hn, permitted]⟩

end Sys2Proof.Machine
end

section
/-! PROOF. The region table: the lowest free index, and the commands REGION_REG and REGION_UNREG (R77 to R79). -/

namespace Sys2Proof.Machine

/-! ### The lowest free index -/

/-- A region entry is in use (R77). -/
def UsedAt (m : SMap Region) (i : Nat) : Prop := (smFind i m).any (fun r => r.used) = true

theorem mem_of_smFind {α : Type} {k : Nat} {v : α} {m : SMap α} (h : smFind k m = some v) : (k, v) ∈ m := by
  induction m with
  | nil => cases h
  | cons e m ih =>
    unfold smFind at h
    split at h
    next hk => exact hk ▸ Option.some.inj h ▸ List.mem_cons_self
    · exact List.mem_cons_of_mem _ (ih h)

/-- No more entries are in use in a row than are in use at all. -/
theorem le_used_length {m : SMap Region} {k : Nat} (h : ∀ j, 1 ≤ j → j < k → UsedAt m j) : k ≤ (m.filter (fun e => e.2.used)).length + 1 := by
  have hsub : List.range' 1 (k - 1) ⊆ (m.filter (fun e => e.2.used)).map Prod.fst := fun j hj => by
    obtain ⟨h1, hk⟩ := List.mem_range'_1.mp hj
    obtain ⟨r, hr, hu⟩ := (Option.any_eq_true _ _).mp (h j h1 (by omega))
    exact List.mem_map.mpr ⟨(j, r), List.mem_filter.mpr ⟨mem_of_smFind hr, hu⟩, rfl⟩
  have := (List.subperm_of_subset (List.nodup_range' 1) hsub).length_le
  rw [List.length_range', List.length_map] at this
  omega

/-- The search passes over entries in use only, and stops at a free one unless its fuel ends. -/
theorem freeIndex_spec (m : SMap Region) (fuel i : Nat) :
    i ≤ freeIndex m fuel i ∧ (∀ j, i ≤ j → j < freeIndex m fuel i → UsedAt m j) ∧ (UsedAt m (freeIndex m fuel i) → freeIndex m fuel i = i + fuel) := by
  induction fuel generalizing i with
  | zero => exact ⟨le_rfl, fun j h1 h2 => absurd h1 (not_le.mpr h2), fun _ => rfl⟩
  | succ fuel ih =>
    unfold freeIndex
    split
    next hu =>
      obtain ⟨hle, hbelow, hend⟩ := ih (i + 1)
      refine ⟨by omega, fun j h1 h2 => ?_, fun h => (hend h).trans (by omega)⟩
      obtain rfl | h1 := h1.eq_or_lt
      · exact hu
      · exact hbelow j h1 h2
    next hu => exact ⟨le_rfl, fun j h1 h2 => absurd h1 (not_le.mpr h2), fun h => absurd h hu⟩

/-- The index that REGION_REG takes (R78). -/
def newIndex (s : State) : Nat := freeIndex s.adm.regions (s.adm.regions.length + 1) 1

theorem newIndex_pos (s : State) : 1 ≤ newIndex s := (freeIndex_spec ..).1

theorem used_below_newIndex (s : State) {j : Nat} (h1 : 1 ≤ j) (hj : j < newIndex s) : UsedAt s.adm.regions j := (freeIndex_spec ..).2.1 j h1 hj

theorem newIndex_le (s : State) : newIndex s ≤ (s.adm.regions.filter (fun e => e.2.used)).length + 1 := le_used_length fun _ => used_below_newIndex s

/-- The fuel lasts: the table has fewer entries than the search can pass. -/
theorem newIndex_free (s : State) : ¬ UsedAt s.adm.regions (newIndex s) := fun h => by
  have hend : newIndex s = 1 + (s.adm.regions.length + 1) := (freeIndex_spec ..).2.2 h
  have := newIndex_le s
  have := List.length_filter_le (fun e => e.2.used) s.adm.regions
  omega

/-! ### REGION_REG -/

theorem exec_regionReg (c : Cmd) (s : State) : exec (.regionReg c) s = execRegionReg c s := rfl

/-- The parameters that REGION_REG refuses with BAD_REGION_PARAM (R78, Table 4.1). -/
abbrev BadRegionParam (s : State) (c : Cmd) : Prop :=
  c.p 0x20 1 % 16 = 0 ∨ c.p 0x10 8 % 4096 ≠ 0 ∨ c.p 0x18 8 % 4096 ≠ 0 ∨ c.p 0x18 8 = 0 ∨
    (bitOf (c.p 0x21 1 % 8) 2 = true ∧ bitOf (c.p 0x21 1 % 8) 1 = false) ∨ (c.p 0x20 1 % 16 = 4 ∧ 2 ^ 52 < c.p 0x10 8 + c.p 0x18 8) ∨
    (c.p 0x20 1 % 16 ≠ 4 ∧ spanOk s.mem (c.p 0x20 1 % 16) (c.p 0x10 8) (c.p 0x18 8) = false)

/-- The three refusals of REGION_REG in their order (R78). -/
theorem regionRegCheck_eq (s : State) (c : Cmd) : regionRegCheck s c =
    if 4 < c.p 0x20 1 % 16 then some Code.BAD_TIER else if BadRegionParam s c then some Code.BAD_REGION_PARAM
    else if 65535 ≤ (s.adm.regions.filter (fun e => e.2.used)).length then some Code.REGION_FULL else none := by
  simp only [regionRegCheck, BadRegionParam, ite_or, Bool.not_eq_true']

section
variable {s : State} {c : Cmd}

theorem regionReg_refuses {e : Nat} (h : regionRegCheck s c = some e) : exec (.regionReg c) s = .next (refuse s c e) := by
  rw [exec_regionReg, execRegionReg, h]

/-- The entry that REGION_REG makes: under the generation its place has, or 1 where there was none yet (R77, R78). -/
def newRegion (s : State) (c : Cmd) : Region :=
  { gen := ((smFind (newIndex s) s.adm.regions).map (fun r => r.gen)).getD 1, used := true, tier := c.p 0x20 1 % 16, base := c.p 0x10 8,
    len := c.p 0x18 8, perm := c.p 0x21 1 % 8, wide := bitOf (c.p 0x21 1) 3, owner := c.ring, svc := c.issuerSvc s }

/-- The state with another region table. -/
def State.withRegions (s : State) (rs : SMap Region) : State := { s with adm := { s.adm with regions := rs } }

theorem regionReg_enters (h : regionRegCheck s c = none) : exec (.regionReg c) s =
    .next (finish (s.withRegions (smInsert (newIndex s) (newRegion s c) s.adm.regions)) c Code.OK (leBytes 4 ((newRegion s c).gen * 65536 + newIndex s))) := by
  rw [exec_regionReg, execRegionReg, h]
  rfl

/-- A handle resolves once its entry stands in the table (R77). -/
theorem regionOf_smInsert (s : State) (m : SMap Region) {i : Nat} {r : Region} (h1 : 1 ≤ i) (hi : i < 65536) (hu : r.used = true) :
    regionOf (s.withRegions (smInsert i r m)) (r.gen * 65536 + i) = some r := by
  have hmod : (r.gen * 65536 + i) % 65536 = i := by omega
  refine regionOf_eq_some_iff.mpr ⟨by omega, ?_, hu, by omega⟩
  rw [hmod]
  exact smFind_smInsert_self i r m

/-! ### REGION_UNREG -/

theorem exec_regionUnreg (c : Cmd) (s : State) : exec (.regionUnreg c) s = execRegionUnreg c s := rfl

theorem couldRegister_iff {r : Region} : couldRegister s c r = true ↔
    if r.owner = 0 then c.ring = 0 else if r.wide = true then c.ring ≠ 0 ∧ c.issuerSvc s = r.svc else c.ring = r.owner := by
  unfold couldRegister
  split
  · simp
  · split <;> simp

theorem regionUnreg_stale (h : regionOf s (c.p 0x10 4) = none) : exec (.regionUnreg c) s = .next (refuse s c Code.BAD_REGION) := by
  simp only [exec_regionUnreg, execRegionUnreg, h]

theorem regionUnreg_notAllowed {r : Region} (h : regionOf s (c.p 0x10 4) = some r) (hm : ¬ couldRegister s c r = true) :
    exec (.regionUnreg c) s = .next (refuse s c Code.REGION_PERM) := by
  simp [exec_regionUnreg, execRegionUnreg, h, hm]

theorem regionUnreg_busy {r : Region} (h : regionOf s (c.p 0x10 4) = some r) (hm : couldRegister s c r = true)
    (hb : regionBusy s (c.p 0x10 4) = true) : exec (.regionUnreg c) s = .next (refuse s c Code.REGION_BUSY) := by
  simp [exec_regionUnreg, execRegionUnreg, h, hm, hb]

/-- A freed entry, under the generation that follows (R77, R79). -/
def freedRegion (r : Region) : Region := { gen := if r.gen = 0xFFFF then 1 else r.gen + 1, used := false }

theorem regionUnreg_frees {r : Region} (h : regionOf s (c.p 0x10 4) = some r) (hm : couldRegister s c r = true)
    (hb : regionBusy s (c.p 0x10 4) = false) :
    exec (.regionUnreg c) s = .next (finish (s.withRegions (smInsert (c.p 0x10 4 % 65536) (freedRegion r) s.adm.regions)) c Code.OK) := by
  obtain ⟨-, hentry, -, -⟩ := regionOf_eq_some_iff.mp h
  simp only [exec_regionUnreg, execRegionUnreg, h, hm, hb, freeRegion, hentry]
  rfl

/-- Every handle of a freed index is refused (R77). -/
theorem regionOf_freed (s : State) (m : SMap Region) (h : Nat) (r : Region) :
    regionOf (s.withRegions (smInsert (h % 65536) (freedRegion r) m)) h = none := by
  refine Option.eq_none_iff_forall_ne_some.mpr fun q hq => ?_
  obtain ⟨-, hentry, hused, -⟩ := regionOf_eq_some_iff.mp hq
  cases (smFind_smInsert_self _ _ _).symm.trans hentry
  cases hused

end

end Sys2Proof.Machine
end

section
/-! PROOF. The commands DESC_CREATE and DESC_DESTROY, and the region and descriptor commands together (R78, R79, R100 to R104, R546). -/

namespace Sys2Proof.Machine

theorem exec_descCreate (c : Cmd) (s : State) : exec (.descCreate c) s = execDescCreate c s := rfl

theorem exec_descDestroy (c : Cmd) (s : State) : exec (.descDestroy c) s = execDescDestroy c s := rfl

/-! ### The checks of a table entry -/

section
variable {s : State} {x : Ctx} {id : Nat}

theorem entryCheck_badId (h : x.tableLen ≤ id ∨ id = 0xFFFF) : entryCheck s x id = some Code.BAD_DESC_ID := if_pos h

theorem entryCheck_fixed (hl : id < x.tableLen) (hr : id ≠ 0xFFFF) (hf : id < fixedDescs s x) : entryCheck s x id = some Code.DESC_FIXED := by
  rw [entryCheck, if_neg (by omega), if_pos hf]

theorem entryCheck_taken (hl : id < x.tableLen) (hr : id ≠ 0xFFFF) (hf : fixedDescs s x ≤ id) (ht : smFind id x.descs ≠ none) :
    entryCheck s x id = some Code.DESC_BUSY := by
  rw [entryCheck, if_neg (by omega), if_neg (by omega), if_pos (Option.isSome_iff_ne_none.mpr ht)]

theorem entryCheck_free (h : id < x.tableLen ∧ id ≠ 0xFFFF ∧ fixedDescs s x ≤ id ∧ smFind id x.descs = none) : entryCheck s x id = none := by
  obtain ⟨hl, hr, hf, ht⟩ := h
  rw [entryCheck, if_neg (by omega), if_neg (by omega), ht]
  rfl

theorem useDesc_badId {cn : Nat} (hx : s.ctx? cn = some x) (h : x.tableLen ≤ id ∨ id = 0xFFFF ∨ smFind id x.descs = none) :
    useDesc s cn id = .error Code.BAD_DESC_ID := by
  simp only [useDesc, hx]
  split
  · rfl
  next hin => rw [show smFind id x.descs = none by tauto]

theorem useDesc_entry {cn : Nat} {e : DescEntry} (hx : s.ctx? cn = some x) (hl : id < x.tableLen) (hr : id ≠ 0xFFFF) (he : smFind id x.descs = some e) :
    useDesc s cn id = if e.dead then .error Code.DESC_DEAD else .ok e.d := by
  simp only [useDesc, hx, he]
  exact if_neg (by omega)

end

/-! ### DESC_CREATE -/

section
variable {s : State} {c : Cmd}

theorem desc_commands_without_context (h : c.context s = none) :
    exec (.descCreate c) s = .next (refuse s c Code.NO_SERVICE) ∧ exec (.descDestroy c) s = .next (refuse s c Code.NO_SERVICE) :=
  ⟨by rw [exec_descCreate, execDescCreate, h], by rw [exec_descDestroy, execDescDestroy, h]⟩

variable {x : Ctx} (hx : c.context s = some x)
include hx

theorem descCreate_entry {e : Nat} (h : entryCheck s x (c.p 0x10 2) = some e) : exec (.descCreate c) s = .next (refuse s c e) := by
  simp only [exec_descCreate, execDescCreate, hx, h]

section
variable (hfree : entryCheck s x (c.p 0x10 2) = none)
include hfree

theorem descCreate_misaligned (h : c.p 0x18 8 % 128 ≠ 0) : exec (.descCreate c) s = .next (refuse s c Code.BAD_ALIGN) := by
  simp only [exec_descCreate, execDescCreate, hx, hfree, if_pos h]

variable (halign : c.p 0x18 8 % 128 = 0)
include halign

theorem descCreate_unread {e : Nat} (h : regionRead s ⟨c.ring, x.svc⟩ (c.p 0x14 4) (c.p 0x18 8) 128 = .error e) :
    exec (.descCreate c) s = .next (refuse s c e) := by
  simp only [exec_descCreate, execDescCreate, hx, hfree, if_neg (not_not.mpr halign), h]

variable {bs : List Byte} (hread : regionRead s ⟨c.ring, x.svc⟩ (c.p 0x14 4) (c.p 0x18 8) 128 = .ok (some bs))
include hread

theorem descCreate_refused {e a : Nat} (h : checkDesc s ⟨c.ring, x.svc⟩ bs = some (e, a)) : exec (.descCreate c) s = .next (refuse s c e) := by
  simp only [exec_descCreate, execDescCreate, hx, hfree, if_neg (not_not.mpr halign), hread, h]

theorem descCreate_enters (h : checkDesc s ⟨c.ring, x.svc⟩ bs = none) : exec (.descCreate c) s =
    .next (finish (s.setCtx { x with descs := smInsert (c.p 0x10 2) ⟨parseDesc bs, false⟩ x.descs }) c Code.OK (leBytes 2 (c.p 0x10 2))) := by
  simp only [exec_descCreate, execDescCreate, hx, hfree, if_neg (not_not.mpr halign), hread, h]

end

/-! ### DESC_DESTROY -/

theorem descDestroy_fixed (hl : c.p 0x10 2 < x.tableLen) (hr : c.p 0x10 2 ≠ 0xFFFF) (hf : c.p 0x10 2 < fixedDescs s x) :
    exec (.descDestroy c) s = .next (refuse s c Code.DESC_FIXED) := by
  simp only [exec_descDestroy, execDescDestroy, hx]
  exact if_pos ⟨hr, hl, hf⟩

variable (hfix : ¬ (c.p 0x10 2 ≠ 0xFFFF ∧ c.p 0x10 2 < x.tableLen ∧ c.p 0x10 2 < fixedDescs s x))
include hfix

theorem descDestroy_refused {e : Nat} (h : useDesc s x.cn (c.p 0x10 2) = .error e) : exec (.descDestroy c) s = .next (refuse s c e) := by
  simp only [exec_descDestroy, execDescDestroy, hx, h]
  exact if_neg hfix

/-- The descriptor table after a destruction: the entry is dead while a reference holds it, else free (R102). -/
def descsAfterDestroy (s : State) (x : Ctx) (id : Nat) (d : Desc) : SMap DescEntry :=
  if s.adm.refs.contains (x.cn, id) then smInsert id ⟨d, true⟩ x.descs else smErase id x.descs

theorem descDestroy_ends {d : Desc} (h : useDesc s x.cn (c.p 0x10 2) = .ok d) :
    exec (.descDestroy c) s = .next (finish (s.setCtx { x with descs := descsAfterDestroy s x (c.p 0x10 2) d }) c Code.OK) := by
  simp only [exec_descDestroy, execDescDestroy, hx, h]
  exact if_neg hfix

end

theorem smFind_descsAfterDestroy (s : State) (x : Ctx) (id : Nat) (d : Desc) :
    smFind id (descsAfterDestroy s x id d) = if s.adm.refs.contains (x.cn, id) then some ⟨d, true⟩ else none := by
  unfold descsAfterDestroy
  split
  · exact smFind_smInsert_self ..
  · exact smFind_smErase_self ..

theorem smFind_descsAfterDestroy_ne (s : State) (x : Ctx) (d : Desc) {id j : Nat} (h : j ≠ id) :
    smFind j (descsAfterDestroy s x id d) = smFind j x.descs := by
  unfold descsAfterDestroy
  split
  · exact smFind_smInsert_ne _ _ h
  · exact smFind_smErase_ne _ h

/-- Settles O30: each command by the order of its checks. -/
theorem regionAndDescriptorCommandsCheckAndEnter : Obligations.RegionAndDescriptorCommandsCheckAndEnter := by
  intro s c base len tier perm bad full used
  refine ⟨fun h => regionReg_refuses ?_, fun h4 hb => regionReg_refuses ?_, fun h4 hb hf => regionReg_refuses ?_, fun h4 hb hf => ?_,
    ⟨regionUnreg_stale, fun r hr => ⟨fun hm => ?_, fun hm => ?_, fun hm hb => ?_⟩⟩, desc_commands_without_context, fun x hx => ?_⟩
  · rw [regionRegCheck_eq, if_pos h]
  · rw [regionRegCheck_eq, if_neg (not_lt.mpr h4), if_pos hb]
  · rw [regionRegCheck_eq, if_neg (not_lt.mpr h4), if_neg hb, if_pos hf]
  · have hcheck : regionRegCheck s c = none := by rw [regionRegCheck_eq, if_neg (not_lt.mpr h4), if_neg hb, if_neg hf]
    have hindex : newIndex s < 65536 := (newIndex_le s).trans_lt (by omega)
    exact ⟨newIndex s, (newRegion s c).gen, smInsert (newIndex s) (newRegion s c) s.adm.regions, newIndex_pos s, hindex, newIndex_free s,
      fun j => used_below_newIndex s, rfl, regionReg_enters hcheck, regionOf_smInsert s _ (newIndex_pos s) hindex rfl, fun j hj => smFind_smInsert_ne _ _ hj⟩
  · exact regionUnreg_notAllowed hr (couldRegister_iff.not.mpr hm)
  · exact regionUnreg_busy hr (couldRegister_iff.mpr hm)
  · exact ⟨_, regionUnreg_frees hr (couldRegister_iff.mpr hm) hb, regionOf_freed .., by rw [smFind_smInsert_self]; rfl, fun j hj => smFind_smInsert_ne _ _ hj⟩
  · refine ⟨fun h => descCreate_entry hx (entryCheck_badId h),
      fun hl hr hf => ⟨descCreate_entry hx (entryCheck_fixed hl hr hf), descDestroy_fixed hx hl hr hf⟩,
      fun hl hr hf ht => descCreate_entry hx (entryCheck_taken hl hr hf ht), fun hfree h => ?_, fun hfree halign e h => ?_,
      fun hfree halign bs hread => ⟨fun e a h => ?_, fun h => ?_⟩, fun hctx hfix => ⟨fun h => ?_, fun e hl hr he => ⟨fun hd => ?_, fun hd => ?_⟩⟩⟩
    · exact descCreate_misaligned hx (entryCheck_free hfree) h
    · exact descCreate_unread hx (entryCheck_free hfree) halign h
    · exact descCreate_refused hx (entryCheck_free hfree) halign hread h
    · exact ⟨_, descCreate_enters hx (entryCheck_free hfree) halign hread h, smFind_smInsert_self .., fun j hj => smFind_smInsert_ne _ _ hj⟩
    · exact descDestroy_refused hx hfix (useDesc_badId hctx h)
    · exact descDestroy_refused hx hfix ((useDesc_entry hctx hl hr he).trans (if_pos hd))
    · exact ⟨_, descDestroy_ends hx hfix ((useDesc_entry hctx hl hr he).trans (if_neg (by simp [hd]))), smFind_descsAfterDestroy ..,
        fun j hj => smFind_descsAfterDestroy_ne s x e.d hj⟩

end Sys2Proof.Machine
end

section
/-! SUPPORT. The issue of an instruction whose meaning changes more than its core, and one that stalls (R124, R146, R148). -/

namespace Sys2Proof.Machine

theorem carter_page (n : Nat) : 4096 * (catRow (bCarter n).kind).pages = 4096 := by simp [bCarter, catRow, catalogue]

section
variable {s t : State} {n : Nat} {i : Ins} {mine : Ins → Bool} {ctr : Option Nat} {f : State → Ins → Ran}
variable (h : Issues s n i) (hm : mine i = true)
include h hm

/-- An instruction that completes: from the state that its meaning leaves, PC moves on and counters of the core's pages count. -/
theorem runIns_completes (hctr : ∀ o ∈ ctr, o + 4 < 4096) (hf : f s i = .done t) (hpc : (t.core n).pc = (s.core n).pc)
    (hrun : (t.core n).run = (s.core n).run) (hp : (t.core n).poisonAt = none) :
    CoreOnly t (runIns s n mine ctr f) n { t.core n with pc := (s.core n).pc + 8 } := by
  obtain ⟨hn, hruns, hfetch, hemit, hawaits, -⟩ := h
  have hruns' : (t.core n).runs = true := by rw [CoreSt.runs, hrun]; exact hruns
  have hissue : runIns s n mine ctr f = issued n ctr (t.setCore n { t.core n with pc := (s.core n).pc + 8 }) := by
    cases ctr <;> simp only [runIns, hruns, hfetch, hemit, hawaits, hm, hf, notePoison_none hp, hruns', hpc, issued, and_self, if_true,
      Bool.not_true, Bool.false_eq_true, if_false, Option.isSome_none]
  have hcount := coreOnly_issued (t.setCore n { t.core n with pc := (s.core n).pc + 8 }) hn hctr
  rw [core_setCore_self] at hcount
  rw [hissue]
  exact (coreOnly_setCore t n _).trans hcount

theorem runIns_stalls {cause : Nat} {st : Option Nat} (hf : f s i = .stall t cause st) : runIns s n mine ctr f = countStall t n cause st := by
  obtain ⟨-, hruns, hfetch, hemit, hawaits, -⟩ := h
  simp only [runIns, hruns, hfetch, hemit, hawaits, hm, hf, Bool.not_true, Bool.false_eq_true, if_false, Option.isSome_none]

end

/-- The per-stream registers fill the second KiB of a CARTER page (Table 5.10). -/
theorem ssOff_bounds {k o : Nat} (hk : k < 16) (ho : 0x400 ≤ o ∧ o < 0x440) : 0x400 ≤ ssOff k o ∧ ssOff k o < 0x800 := by
  rw [ssOff]
  omega

/-- A stalled cycle counts on the core's CARTER page only (R124). -/
theorem coreOnly_countStall (t : State) {n cause : Nat} (hn : n < 96) (hc : cause + 4 < 4096) {st : Option Nat} (hst : ∀ k ∈ st, k < 16) :
    CoreOnly t (countStall t n cause st) n (t.core n) := by
  have hb := bCarter_valid hn
  have hcycles : CoreOnly t (t.mapIo fun io => (io.count64 (bCarter n) cause 1).count64 (bCarter n) Off.carter_CYC_TOTAL_LO 1) n (t.core n) :=
    coreOnly_mapIo t n (((Io.onlyRegs_count64 _ hb (by rwa [carter_page]) 1).trans
      (Io.onlyRegs_count64 _ hb (by rw [carter_page]; decide) 1)).mono (by simp))
  cases st with
  | none => exact hcycles
  | some k =>
    have hk := hst k rfl
    exact hcycles.trans (coreOnly_mapIo _ n ((Io.onlyRegs_count _ hb (by rw [carter_page]; exact (ssOff_bounds hk (by decide)).2.trans (by decide)) 1).mono (by simp)))

end Sys2Proof.Machine
end

section
/-! SUPPORT. Streams and slots: what opening, filling and closing change, and what a stream reads after it (R106, R110, R112, R115). -/

namespace Sys2Proof.Machine

theorem Ins.strm_lt (i : Ins) : i.strm < 16 := Nat.mod_lt _ (by decide)

/-- A per-stream register lies at its own offset of the CARTER page. -/
theorem ssReg_mod (n : Nat) {k o : Nat} (hk : k < 16) (ho : 0x400 ≤ o ∧ o < 0x440) : ((bCarter n).base + ssOff k o) % 0x1000 = ssOff k o :=
  base_add_mod _ ((ssOff_bounds hk ho).2.trans (by decide))

theorem ssReg_mod_ne (n : Nat) {k o q : Nat} (hk : k < 16) (ho : 0x400 ≤ o ∧ o < 0x440) (hq : q < 0x400) :
    ((bCarter n).base + ssOff k o) % 0x1000 ≠ q := by
  rw [ssReg_mod n hk ho]
  exact (hq.trans_le (ssOff_bounds hk ho).1).ne'

/-- An event bit leaves the per-stream registers (R39). -/
theorem ssReg_riseWith (io : Io) (b : Block) (bit : Nat) (r : Option EvRec) (n : Nat) {k o : Nat} (hk : k < 16) (ho : 0x400 ≤ o ∧ o < 0x440) :
    (io.riseWith b bit r).reg ((bCarter n).base + ssOff k o) = io.reg ((bCarter n).base + ssOff k o) :=
  Io.reg_riseWith io b bit r (ssReg_mod_ne n hk ho (by decide)) (ssReg_mod_ne n hk ho (by decide))

theorem strm_of_cores {s t : State} (h : t.cores = s.cores) (n k : Nat) : t.strm n k = s.strm n k := by
  rw [State.strm, State.strm, core_of_cores h]

@[simp] theorem strm_setStrm_self (s : State) (n k : Nat) (x : Strm) : (s.setStrm n k x).strm n k = x := by
  rw [strm_setStrm, if_pos ⟨rfl, rfl⟩]

theorem core_setStrm_ne (s : State) {n m : Nat} (k : Nat) (x : Strm) (h : m ≠ n) : (s.setStrm n k x).core m = s.core m := core_setCore_ne s _ h

/-- Releasing a reference changes contexts and references only (R102). -/
theorem dropRef_only (s : State) (cn id : Nat) : dropRef s cn id = { s with adm := (dropRef s cn id).adm } := by
  simp only [dropRef]
  split
  · rfl
  · split
    · split <;> rfl
    · rfl

theorem dropRefs_only (cn : Nat) (ids : List Nat) (s : State) : dropRefs s cn ids = { s with adm := (dropRefs s cn ids).adm } := by
  induction ids generalizing s with
  | nil => rfl
  | cons id ids ih =>
    rw [show dropRefs s cn (id :: ids) = dropRefs (dropRef s cn id) cn ids from rfl, ih, dropRef_only]

/-- What a stream that has become CLOSED keeps (R112, R115). -/
def closedOf (x : Strm) : Strm := { inst := x.inst, lastPos := x.lastPos, lastSlot := x.lastSlot }

theorem closeStrm_eq (s : State) (n k : Nat) : closeStrm s n k =
    { s.setStrm n k (closedOf (s.strm n k)) with adm := (closeStrm s n k).adm } := dropRefs_only ..

theorem cores_closeStrm (s : State) (n k : Nat) : (closeStrm s n k).cores = (s.setStrm n k (closedOf (s.strm n k))).cores := by
  rw [closeStrm_eq]

theorem strm_closeStrm (s : State) (n k : Nat) : (closeStrm s n k).strm n k = closedOf (s.strm n k) :=
  (strm_of_cores (cores_closeStrm s n k) n k).trans (strm_setStrm_self ..)

theorem core_closeStrm_ne (s : State) {n m : Nat} (k : Nat) (h : m ≠ n) : (closeStrm s n k).core m = s.core m :=
  (core_of_cores (cores_closeStrm s n k) m).trans (core_setStrm_ne s k _ h)

end Sys2Proof.Machine
end

section
/-! PROOF. The stream instructions: open, advance, close and read (R110, R112 to R115, R173). -/

namespace Sys2Proof.Machine

theorem exec_streamOpen (n : Nat) (s : State) : exec (.streamOpen n) s = .next (runIns s n (isOp 0x14 [0]) none (streamOpenRun n)) := rfl
theorem exec_streamAdvance (n : Nat) (s : State) : exec (.streamAdvance n) s = .next (runIns s n (isOp 0x14 [1]) none (streamAdvanceRun n)) := rfl
theorem exec_streamClose (n : Nat) (s : State) :
    exec (.streamClose n) s = .next (housekeep (runIns s n (isOp 0x14 [2]) none (streamCloseRun n))) := rfl
theorem exec_streamRead (n : Nat) (s : State) : exec (.streamRead n) s = .next (runIns s n (isOp 0x14 [3]) none (streamReadRun n)) := rfl

/-! ### Refused opens -/

/-- The registers after a refused open: SS_CODE holds the code and OPEN_REFUSED is set (R110). -/
def refusedOpen (n k code : Nat) (io : Io) : Io := (io.setReg ((bCarter n).base + ssOff k Off.carter_SS_CODE) code).rise (bCarter n) 3

theorem openStrm_refused {s : State} {n k off e : Nat} {o : Opener} (h : openCheck s n k o off = .error e) :
    openStrm s n k o off = (s.mapIo (refusedOpen n k e), e) := by
  rw [openStrm, h]; rfl

section
variable {n k : Nat} (hn : n < 96) (hk : k < 16) (code : Nat) (io : Io)
include hn

theorem openRefused_refusedOpen : bitOf ((refusedOpen n k code io).br (bCarter n) 0x010) 3 = true :=
  Io.bit_riseWith _ (bCarter_valid hn) (by simp [bCarter, bEvtq]) (by decide) _

include hk

theorem onlyEvents_refusedOpen : Io.OnlyEvents [bCarter n] io (refusedOpen n k code io) :=
  (Io.onlyRegs_setReg io (bCarter_valid hn) (by rw [carter_page]; exact (ssOff_bounds hk (by decide)).2.trans (by decide)) code).events.trans (Io.onlyEvents_rise _ (bCarter_valid hn) 3 _)

omit hn in
theorem ssCode_refusedOpen : (refusedOpen n k code io).br (bCarter n) (ssOff k Off.carter_SS_CODE) = code % 2 ^ 32 :=
  (ssReg_riseWith _ _ _ _ n hk (by decide)).trans (Io.reg_setReg_self ..)

end

/-! ### The fields of the stream register -/

theorem b2n_le (b : Bool) : b2n b ≤ 1 := by cases b <;> decide

/-- The stream register is packed from its fields (Table 5.4). -/
theorem stReg_eq (s : State) (n k : Nat) : ∃ e : Bool, stReg s n k = (s.strm n k).lastPos % 2 ^ 32 * 2 ^ 32 + b2n (decide ((s.strm n k).st = 7)) * 2 ^ 25
    + b2n (decide ((s.strm n k).st = 3)) * 2 ^ 24 + b2n e * 2 ^ 23 + b2n (s.strm n k).held.isSome * 2 ^ 22 + (s.strm n k).lastSlot % 2 ^ 22 := ⟨_, rfl⟩

/-- The fields of a word packed as Table 5.4 says. -/
theorem packed_fields (pos slot : Nat) (failed halted ended held : Bool) :
    let w := pos % 2 ^ 32 * 2 ^ 32 + b2n failed * 2 ^ 25 + b2n halted * 2 ^ 24 + b2n ended * 2 ^ 23 + b2n held * 2 ^ 22 + slot % 2 ^ 22
    bitsOf w 63 32 = pos % 2 ^ 32 ∧ bitsOf w 31 26 = 0 ∧ bitOf w 25 = failed ∧ bitOf w 24 = halted ∧ bitOf w 22 = held ∧
      bitsOf w 21 0 = slot % 2 ^ 22 := by
  have hbit : ∀ {w j : Nat} {b : Bool}, w / 2 ^ j % 2 = b2n b → bitOf w j = b := fun {w j b} h => by
    rw [bitOf, h]; cases b <;> rfl
  have h1 := b2n_le failed
  have h2 := b2n_le halted
  have h3 := b2n_le ended
  have h4 := b2n_le held
  intro w
  simp only [bitsOf]
  refine ⟨?_, ?_, hbit ?_, hbit ?_, hbit ?_, ?_⟩ <;> omega

/-! ### Closing a read stream -/

theorem cores_throwTiles (s : State) (n : Nat) (x : Strm) : (throwTiles s n x).cores = s.cores := by
  unfold throwTiles
  split <;> rfl

/-- A read stream that shares no weights closes alone and at once (R115). -/
theorem strm_closeAny_alone {s : State} {n k : Nat} (hst : (s.strm n k).st ≠ 0) (hc : (s.strm n k).closing = false)
    (hr : (s.strm n k).reads = true) (hg : (s.strm n k).gang = none) : (closeAny s n k).strm n k = closedOf (s.strm n k) := by
  have hothers : (gangOf s n k).filter (fun e => !(e.1 == n && e.2 == k)) = [] := by simp [gangOf, hg]
  have hthrow := cores_throwTiles s n (s.strm n k)
  simp only [closeAny, hst, hc, hr, if_true, Bool.false_eq_true, or_self, if_false, closeRead, hothers]
  refine (strm_of_cores rfl n k).trans ((strm_closeStrm ..).trans (congrArg closedOf (strm_of_cores hthrow n k)))

theorem ownsStrm_open {s : State} {n k : Nat} (h : ownsStrm s n k = true) : (s.strm n k).st ≠ 0 ∧ (s.strm n k).closing = false := by
  simp only [ownsStrm, Bool.and_eq_true, decide_eq_true_eq, Bool.not_eq_true'] at h
  exact h.1

theorem stallOff_lt (x : Strm) : stallOff x + 4 < 4096 := by
  unfold stallOff
  split
  · decide
  · split <;> decide

/-! ### What each instruction runs -/

section
variable {s u : State} {n : Nat} {i : Ins} {k : Task} (ht : (s.core n).task = some k)
include ht

theorem streamOpenRun_done {code : Nat} (hu : i.onlyUses [fDst, fS1, (3, 0)] = true) (hr : (s.core n).xr i.s1 + 128 ≤ 0x400000)
    (ha : (s.core n).xr i.s1 % 64 = 0) (hp : (s.core n).anyPoison ((s.core n).xr i.s1) 128 = false)
    (ho : openStrm s n i.strm k.opener ((s.core n).xr i.s1) = (u, code)) :
    streamOpenRun n s i = .done (u.setCore n ((u.core n).setX i.dst code)) := by
  have hin : decide (0x400000 < (s.core n).xr i.s1 + 128) = false := decide_eq_false (not_lt.mpr hr)
  have haligned : decide ((s.core n).xr i.s1 % 64 ≠ 0) = false := by simp [ha]
  unfold streamOpenRun
  simp only [hu, ht, hin, haligned, hp, ho, Bool.not_true, Option.isNone_some, guardExc_false, guardExc_nil, Bool.false_eq_true, if_false]

section
variable (hu : i.onlyUses [fDst, (3, 0)] = true)
include hu

theorem streamReadRun_done : streamReadRun n s i = .done (s.setCore n ((s.core n).setX i.dst (stReg s n i.strm))) := by
  simp only [streamReadRun, hu, ht, Bool.not_true, Option.isNone_some, guardExc_false, guardExc_nil]

theorem streamAdvanceRun_closed (ho : ownsStrm s n i.strm = false) : streamAdvanceRun n s i = .exc Code.STREAM_STATE := by
  simp only [streamAdvanceRun, hu, ht, ho, Bool.not_true, Bool.not_false, Option.isNone_some, guardExc_false, guardExc_true]

theorem streamAdvanceRun_open (ho : ownsStrm s n i.strm = true) {ok : Bool}
    (hr : (if (s.strm n i.strm).reads then advanceRead s n i.strm else advanceWrite s n i.strm) = (u, ok)) : streamAdvanceRun n s i =
      if ok then .done (u.setCore n ((u.core n).setX i.dst (stReg u n i.strm))) else .stall u (stallOff (u.strm n i.strm)) (some i.strm) := by
  simp only [streamAdvanceRun, hu, ht, ho, hr, Bool.not_true, Option.isNone_some, guardExc_false, guardExc_nil]

end

section
variable (hu : i.onlyUses [(3, 0)] = true)
include hu

theorem streamCloseRun_closed (ho : ownsStrm s n i.strm = false) : streamCloseRun n s i = .exc Code.STREAM_STATE := by
  simp only [streamCloseRun, hu, ht, ho, Bool.not_true, Bool.not_false, Option.isNone_some, guardExc_false, guardExc_true]

theorem streamCloseRun_open (ho : ownsStrm s n i.strm = true) : streamCloseRun n s i = .done (closeAny s n i.strm) := by
  simp only [streamCloseRun, hu, ht, ho, Bool.not_true, Option.isNone_some, guardExc_false, guardExc_nil]

end
end

/-- An instruction whose meaning ends by writing a scalar register completes with PC moved on. -/
theorem runIns_writesX {s u : State} {n v : Nat} {i : Ins} {mine : Ins → Bool} {f : State → Ins → Ran} (h : Issues s n i) (hm : mine i = true)
    (hf : f s i = .done (u.setCore n ((u.core n).setX i.dst v)))
    (hu : (u.core n).pc = (s.core n).pc ∧ (u.core n).run = (s.core n).run ∧ (u.core n).poisonAt = none) :
    CoreOnly u (runIns s n mine none f) n { (u.core n).setX i.dst v with pc := (s.core n).pc + 8 } := by
  obtain ⟨hpc, hrun, hp⟩ := hu
  obtain ⟨xrun, xpc, xp⟩ := setX_run (u.core n) i.dst v
  have hset := coreOnly_setCore u n ((u.core n).setX i.dst v)
  have hdone := runIns_completes (ctr := none) h hm (by simp) hf (by rw [hset.1, xpc, hpc]) (by rw [hset.1, xrun, hrun]) (by rw [hset.1, xp, hp])
  rw [hset.1] at hdone
  exact hset.trans hdone

/-- Settles O15: the issue of each instruction, the registers of a refused open, and Table 5.4. -/
theorem streamInstructionsMoveTheConsumer : Obligations.StreamInstructionsMoveTheConsumer := by
  intro s n i k h ht c st x
  have hn : n < 96 := h.1
  have hst : st < 16 := i.strm_lt
  refine ⟨fun hm hu hr ha hp u code ho => ⟨fun hkept => ?_, fun e he => ?_⟩, fun hm hu => ⟨fun hown u ok hadv hkept => ?_, fun hown => ?_⟩,
    fun hm hu => ⟨fun hown => ⟨fun ⟨hpc, hrun, hp⟩ => ?_, fun hreads hgang => ?_⟩, fun hown => ?_⟩, fun hm hu => ?_, ?_⟩
  · exact ⟨_, exec_streamOpen n s, runIns_writesX h hm (streamOpenRun_done ht hu hr ha hp ho) hkept⟩
  · obtain ⟨rfl, rfl⟩ := Prod.mk.inj ((openStrm_refused he).symm.trans ho)
    exact ⟨rfl, rfl, onlyEvents_refusedOpen hn hst _ _, ssCode_refusedOpen hst _ _, openRefused_refusedOpen hn _ _⟩
  · have hrun := streamAdvanceRun_open ht hu hown hadv
    refine ⟨_, exec_streamAdvance n s, ?_⟩
    cases ok with
    | true => exact runIns_writesX h hm hrun hkept
    | false =>
      rw [runIns_stalls h hm hrun]
      exact coreOnly_countStall u hn (stallOff_lt _) (by simpa using hst)
  · rw [exec_streamAdvance, runIns_exc h hm (streamAdvanceRun_closed ht hu hown)]
  · exact ⟨_, exec_streamClose n s, runIns_completes h hm (by simp) (streamCloseRun_open ht hu hown) hpc hrun hp⟩
  · obtain ⟨hopen, hclosing⟩ := ownsStrm_open hown
    rw [strm_closeAny_alone hopen hclosing hreads hgang]
    exact ⟨rfl, rfl, rfl⟩
  · rw [exec_streamClose, runIns_exc h hm (streamCloseRun_closed ht hu hown)]
  · exact ⟨_, exec_streamRead n s, runIns_writesX h hm (streamReadRun_done ht hu) ⟨rfl, rfl, h.2.2.2.2.2⟩⟩
  · obtain ⟨ended, hreg⟩ := stReg_eq s n st
    rw [hreg]
    exact packed_fields ..

end Sys2Proof.Machine
end

section
/-! SUPPORT. Writes to SRAM by units: what a byte reads after one, and a stream whose slot one fills (R106, R111, R406). -/

namespace Sys2Proof.Machine

theorem strms_unitWrite (c : CoreSt) (a : Nat) (bs : List Byte) (p : Bool) : (c.unitWrite a bs p).strms = c.strms := rfl

theorem byte_unitWrite (c : CoreSt) (a b : Nat) (bs : List Byte) (p : Bool) :
    (c.unitWrite a bs p).bytes b 1 = if a ≤ b ∧ b < a + bs.length then [bs.getD (b - a) 0] else c.bytes b 1 := by
  rw [bytes_one, bytes_one, CoreSt.unitWrite, CoreSt.poisonLines, smGet_putCells]
  split <;> rfl

theorem strm_setCore {s : State} {n : Nat} {c : CoreSt} (h : c.strms = (s.core n).strms) (m k : Nat) : (s.setCore n c).strm m k = s.strm m k := by
  rw [State.strm, core_setCore]
  split
  · subst m
    rw [h, State.strm]
  · rfl

/-- Bytes go into a slot in a core's SRAM, and its stream becomes `x`. -/
def fillSlot (s : State) (n k a : Nat) (bs : List Byte) (p : Bool) (x : Strm) : State :=
  (s.setCore n ((s.core n).unitWrite a bs p)).setStrm n k x

section
variable (s : State) (n k a : Nat) (bs : List Byte) (p : Bool) (x : Strm)

theorem strm_fillSlot (m j : Nat) : (fillSlot s n k a bs p x).strm m j = if m = n ∧ j = k then x else s.strm m j := by
  rw [fillSlot, strm_setStrm, strm_setCore (strms_unitWrite ..)]

theorem core_fillSlot_ne {m : Nat} (h : m ≠ n) : (fillSlot s n k a bs p x).core m = s.core m :=
  (core_setStrm_ne _ k x h).trans (core_setCore_ne s _ h)

theorem byte_fillSlot (b : Nat) : ((fillSlot s n k a bs p x).core n).bytes b 1 =
    if a ≤ b ∧ b < a + bs.length then [bs.getD (b - a) 0] else (s.core n).bytes b 1 := by
  rw [← byte_unitWrite (s.core n) a b bs p, fillSlot, State.setStrm, core_setCore_self, core_setCore_self]
  rfl

end

theorem tBytes_length (s : State) (core tier a n : Nat) : (s.tBytes core tier a n).length = n := by
  unfold State.tBytes
  split
  · simp [CoreSt.bytes, cells]
  · split
    · simp [MemSt.hostBytes]
    · simp [MemSt.bytes]

/-- A write of a tier leaves every stream and the requests under way. -/
theorem strm_tWrite (s : State) (core tier a : Nat) (bs : List Byte) (p : Bool) (n k : Nat) : (s.tWrite core tier a bs p).strm n k = s.strm n k := by
  unfold State.tWrite
  split
  · exact strm_setCore (strms_unitWrite ..) n k
  · split <;> rfl

theorem fetch_tWrite (s : State) (core tier a : Nat) (bs : List Byte) (p : Bool) : (s.tWrite core tier a bs p).fetch = s.fetch := by
  unfold State.tWrite
  split
  · rfl
  · split <;> rfl

end Sys2Proof.Machine
end

section
/-! PROOF. Line traffic: grants, returns, faults, acknowledgements, ring steps and cancel fences (R113, R114, R120, R122, R129,
R134). -/

namespace Sys2Proof.Machine

theorem exec_lineRequestGrant (arb : Block) (s : State) : exec (.lineRequestGrant arb) s = .next (grantLine s arb) := rfl
theorem exec_streamHalt (n k : Nat) (s : State) : exec (.streamHalt n k) s = .next (housekeep (settleHalt s n k)) := rfl
theorem exec_writeAck (n k : Nat) (s : State) : exec (.writeAck n k) s = .next (housekeep (ackTile s n k)) := rfl
theorem exec_ringStep (die set : Nat) (s : State) : exec (.ringStep die set) s = .next (ringStep s die set) := rfl

/-! ### Grants -/

/-- The more urgent of two requests, the first on a tie (R120). -/
def urgent (a b : LineReq) : LineReq := if b.before a && !(a.before b) then b else a

/-- Request `r` comes before `q` and not after it. -/
def LineReq.Beats (r q : LineReq) : Prop := r.before q = true ∧ q.before r = false

theorem urgent_winner {r q : LineReq} (h : q ≠ r → r.Beats q) : urgent r q = r := by
  unfold urgent
  split
  · rename_i hq
    by_contra hne
    simp [(h hne).2] at hq
  · rfl

theorem urgent_loser {r q : LineReq} (h : r.Beats q) : urgent q r = r := if_pos (by rw [h.1, h.2]; rfl)

/-- The request that comes before all others is the one that the arbiter finds. -/
theorem foldl_urgent {r : LineReq} (l : List LineReq) (a : LineReq) (hmem : r ∈ a :: l) (h : ∀ q ∈ a :: l, q ≠ r → r.Beats q) :
    l.foldl urgent a = r := by
  induction l generalizing a with
  | nil => exact (List.mem_singleton.mp hmem).symm
  | cons b l ih =>
    have hb := h b (by simp)
    have hl : ∀ q ∈ l, q ≠ r → r.Beats q := fun q hq => h q (by simp [hq])
    rw [List.foldl_cons]
    by_cases hbr : b = r
    · subst b
      have hwin : urgent a r = r := by
        by_cases har : a = r
        · rw [har]
          exact urgent_winner fun hne => absurd rfl hne
        · exact urgent_loser (h a (by simp) har)
      rw [hwin]
      exact ih r (by simp) (List.forall_mem_cons.mpr ⟨fun hne => absurd rfl hne, hl⟩)
    · by_cases har : a = r
      · subst a
        rw [urgent_winner hb]
        exact ih r (by simp) (List.forall_mem_cons.mpr ⟨fun hne => absurd rfl hne, hl⟩)
      · refine ih _ ?_ (List.forall_mem_cons.mpr ⟨fun _ => ?_, hl⟩)
        · simp only [List.mem_cons, Ne.symm har, Ne.symm hbr, false_or] at hmem
          exact List.mem_cons_of_mem _ hmem
        · unfold urgent
          split
          · exact hb hbr
          · exact h a (by simp) har

/-- Requests with one arbiter off the path of `r`. -/
def grantedLines (r : LineReq) (ls : List LineReq) : List LineReq := ls.map (fun q => if q = r then { q with path := q.path.drop 1 } else q)

theorem grantLine_first {s : State} {arb : Block} {r : LineReq} (hr : r ∈ s.fetch.lines) (hp : r.path.head? = some arb)
    (h : ∀ q ∈ s.fetch.lines, q.path.head? = some arb → q ≠ r → r.Beats q) :
    grantLine s arb = { s with fetch := { s.fetch with lines := grantedLines r s.fetch.lines } } := by
  have hwait : ∀ q, q ∈ s.fetch.lines.filter (fun q => q.path.head? == some arb) ↔ q ∈ s.fetch.lines ∧ q.path.head? = some arb := by
    simp
  unfold grantLine
  dsimp only
  split
  · rename_i hnil
    have := (hwait r).mpr ⟨hr, hp⟩
    rw [hnil] at this
    exact absurd this List.not_mem_nil
  · rename_i a l hcons
    rw [hcons] at hwait
    have hbest := foldl_urgent l a ((hwait r).mpr ⟨hr, hp⟩) fun q hq => h q ((hwait q).mp hq).1 ((hwait q).mp hq).2
    unfold urgent at hbest
    rw [hbest]
    rfl

/-! ### Returns -/

/-- A stream after a line of one of its tiles has come in (R113). -/
def lineArrived (x : Strm) (r : LineReq) : Strm :=
  { x with tiles := x.tiles.map (fun t => if t.ord = r.ord then { t with wait := t.wait.filter (fun j => j ≠ r.idx) } else t) }

/-- A clean line of a stream that stands alone fills its place in its tile's slot. -/
theorem deliverLine_fills {s : State} {r : LineReq} {d : Desc} {tile : Tile} {l : LineSpec} (hd : (s.strm r.core r.st).desc = some d)
    (hf : tFault s r.tier r.addr 1 false = none) (htile : (s.strm r.core r.st).tiles.find? (fun t => t.ord == r.ord) = some tile)
    (hl : (tileSpans d tile)[r.idx]? = some l) (hp : s.tPoison r.core r.tier l.addr l.len = false) :
    ∃ m, deliverLine s r [(r.core, r.st)] = fillSlot { s with mem := m } r.core r.st (slotOff s r.core (s.strm r.core r.st) r.ord + l.off)
      (s.tBytes r.core r.tier l.addr l.len) false (lineArrived (s.strm r.core r.st) r) := by
  by_cases hplain : r.tier = 0 ∨ r.tier = 4
  · refine ⟨s.mem, ?_⟩
    simp only [deliverLine, hd, hf, htile, hl, hp, if_pos hplain]
    rfl
  · refine ⟨s.mem.sample s.io l.addr, ?_⟩
    simp only [deliverLine, hd, hf, htile, hl, hp, if_neg hplain]
    rfl

section
variable {s : State} {r : LineReq}

/-- The state once a request is off the list. -/
def withoutLine (s : State) (r : LineReq) : State := { s with fetch := { s.fetch with lines := s.fetch.lines.erase r } }

theorem returnLine_alone (hg : r.gang = none) (hi : (s.strm r.core r.st).inst = r.inst) (h0 : (s.strm r.core r.st).st ≠ 0)
    (h4 : (s.strm r.core r.st).st ≠ 4) : returnLine s r = deliverLine (withoutLine s r) r [(r.core, r.st)] := by
  unfold returnLine
  rw [hg]
  simp only [strm_of_cores (show ({ s with fetch := { s.fetch with lines := s.fetch.lines.erase r } } : State).cores = s.cores from rfl)]
  rw [if_pos ⟨hi, h0, h4⟩]
  rfl

theorem lineReturn_returns (hr : r ∈ s.fetch.lines) (hp : r.path = []) (hw : r.write = false) (hh : tHeld s r.tier r.addr = false) :
    exec (.lineReturn r) s = .next (housekeep (returnLine s r)) :=
  if_pos ⟨List.contains_iff_mem.mpr hr, hp, by rw [hw]; rfl, by rw [hh]; rfl⟩

end

/-! ### Halts -/

theorem settleHalt_read {s : State} {n k : Nat} {f : FaultPoint} (hd : (s.strm n k).desc ≠ none)
    (hb : (s.strm n k).tiles.find? (fun t => !(t.bad == [])) = none) (hf : (s.strm n k).fault = some f) : settleHalt s n k = haltStrm s n k f := by
  obtain ⟨d, hd⟩ := Option.ne_none_iff_exists'.mp hd
  have hpoint : faultPoint (s.strm n k) d = some (f, none) := by rw [faultPoint, hb, hf]; rfl
  simp only [settleHalt, hd, hpoint]

/-- A stream halted at a fault point (R129). -/
def haltedAt (x : Strm) (f : FaultPoint) : Strm := { x with st := 3, halting := false, fault := some f }

/-- What a halt reports: a page asked of the host or a migration fault counted, STREAM_FAULT, and one record (R129, R414). -/
def reportHalt (s : State) (n k : Nat) (f : FaultPoint) (cn : Nat) : State :=
  let t := if f.code = Code.HOST_NOT_PRESENT then requestPage s (f.addr / 4096) else s.migrFault f.code
  t.mapIo fun io => (io.riseQuiet (bCarter n) 2).note (bCarter n) Cls.FAULT f.code ((t.ctx? cn).bind (fun q => q.slot)) f.addr (k + 16 * 3)

theorem haltStrm_halts {s : State} {n k : Nat} {f : FaultPoint} (hd : f.code ≠ Code.HOST_DENIED) (ho : f.code ≠ Code.TIER_OFFLINE) :
    haltStrm s n k f = reportHalt ((saveFault s n k f).setStrm n k (haltedAt (s.strm n k) f)) n k f (s.strm n k).cn := by
  simp only [haltStrm, decide_eq_false hd, decide_eq_false ho, Bool.or_self, Bool.false_eq_true, if_false, false_and]
  rfl

theorem cores_requestPage (s : State) (page : Nat) : (requestPage s page).cores = s.cores := by
  unfold requestPage
  split
  · rfl
  · dsimp only
    split <;> rfl

theorem cores_reportHalt (s : State) (n k : Nat) (f : FaultPoint) (cn : Nat) : (reportHalt s n k f cn).cores = s.cores := by
  unfold reportHalt
  dsimp only [mapIo_cores]
  split
  · exact cores_requestPage ..
  · rfl

/-- Asking the host for a page writes no register. -/
theorem reg_requestPage (s : State) (page o : Nat) : (requestPage s page).io.reg o = s.io.reg o := by
  unfold requestPage
  split
  · rfl
  · dsimp only
    split <;> rfl

theorem reg_countMigrFault (io : Io) (code : Nat) {o : Nat} (h : o % 0x1000 ≠ Off.migr_MIGR_FAULTS) : (io.countMigrFault code).reg o = io.reg o := by
  unfold Io.countMigrFault
  split
  · exact Io.reg_count_of_mod io bMigr 1 h
  · rfl

/-- The report of a halt leaves the per-stream registers. -/
theorem ssReg_reportHalt (s : State) (n k : Nat) (f : FaultPoint) (cn : Nat) {o : Nat} (hk : k < 16) (ho : 0x400 ≤ o ∧ o < 0x440) :
    (reportHalt s n k f cn).io.reg ((bCarter n).base + ssOff k o) = s.io.reg ((bCarter n).base + ssOff k o) := by
  refine (Io.reg_emit _ _ (ssReg_mod_ne n hk ho (by decide)) (ssReg_mod_ne n hk ho (by decide))).trans ((ssReg_riseWith _ _ _ _ n hk ho).trans ?_)
  split
  · exact reg_requestPage ..
  · exact reg_countMigrFault _ _ (ssReg_mod_ne n hk ho (by decide))

/-- A write of another per-stream register of the same stream. -/
theorem ssReg_setReg (io : Io) (n : Nat) {k o q : Nat} (v : Nat) (hk : k < 16) (ho : 0x400 ≤ o ∧ o < 0x440) (hq : 0x400 ≤ q ∧ q < 0x440)
    (hne : o ≠ q) : (io.setReg ((bCarter n).base + ssOff k q) v).reg ((bCarter n).base + ssOff k o) = io.reg ((bCarter n).base + ssOff k o) := by
  refine Io.reg_setReg_of_mod io v ?_
  rw [ssReg_mod n hk ho, ssReg_mod n hk hq, ssOff, ssOff]
  omega

theorem ssFaddr_hi (n k : Nat) :
    (bCarter n).base + ssOff k Off.carter_SS_FADDR_LO + 4 = (bCarter n).base + ssOff k Off.carter_SS_FADDR_HI := by
  simp only [ssOff, Off.carter_SS_FADDR_LO, Off.carter_SS_FADDR_HI]
  omega

/-- The fault address of a stream is left by a write of another of its registers. -/
theorem ssFaddr_setReg (io : Io) (n : Nat) {k q : Nat} (v : Nat) (hk : k < 16) (hq : 0x418 ≤ q ∧ q < 0x440) :
    (io.setReg ((bCarter n).base + ssOff k q) v).reg64 ((bCarter n).base + ssOff k Off.carter_SS_FADDR_LO) =
      io.reg64 ((bCarter n).base + ssOff k Off.carter_SS_FADDR_LO) := by
  have hmine : 0x400 ≤ q ∧ q < 0x440 := ⟨by omega, hq.2⟩
  refine Io.reg64_congr (ssReg_setReg io n v hk (by decide) hmine (hq.1.trans_lt' (by decide)).ne) ?_
  rw [ssFaddr_hi]
  exact ssReg_setReg io n v hk (by decide) hmine (hq.1.trans_lt' (by decide)).ne

/-- SS_FADDR of a stream holds the address of its fault point (R129). -/
theorem faultAddr_saveFault (s : State) (n : Nat) {k : Nat} (f : FaultPoint) (hk : k < 16) :
    (saveFault s n k f).io.reg64 ((bCarter n).base + ssOff k Off.carter_SS_FADDR_LO) = f.addr % 2 ^ 64 := by
  have hlo := ssReg_mod n hk (o := Off.carter_SS_FADDR_LO) (by decide)
  have hbounds := ssOff_bounds hk (o := Off.carter_SS_FADDR_LO) (by decide)
  have haddr := Io.reg64_setReg64 s.io (v := f.addr) (normOff_ne_of_mod (by omega) :
    normOff ((bCarter n).base + ssOff k Off.carter_SS_FADDR_LO) ≠ normOff ((bCarter n).base + ssOff k Off.carter_SS_FADDR_LO + 4))
  have hcoords := List.foldlRecOn (motive := fun io : Io => io.reg64 ((bCarter n).base + ssOff k Off.carter_SS_FADDR_LO) = f.addr % 2 ^ 64)
    (List.range 6) (fun io i => io.setReg ((bCarter n).base + ssOff k Off.carter_SS_POSd0 + 4 * i) (f.coords.getD i 0)) haddr
    fun io hio i hi => by
      have hi := List.mem_range.mp hi
      have hpos : (bCarter n).base + ssOff k Off.carter_SS_POSd0 + 4 * i = (bCarter n).base + ssOff k (0x418 + 4 * i) := by
        simp only [ssOff, Off.carter_SS_POSd0]
        omega
      rw [hpos]
      exact (ssFaddr_setReg io n _ hk (by omega)).trans hio
  simp only [saveFault, mapIo_io]
  split
  · exact (ssFaddr_setReg _ n _ hk (by decide)).trans hcoords
  · exact hcoords

theorem strm_haltStrm {s : State} {n k : Nat} {f : FaultPoint} (hd : f.code ≠ Code.HOST_DENIED) (ho : f.code ≠ Code.TIER_OFFLINE) :
    (haltStrm s n k f).strm n k = haltedAt (s.strm n k) f := by
  rw [haltStrm_halts hd ho, strm_of_cores (cores_reportHalt ..), strm_setStrm_self]

theorem faultAddr_haltStrm {s : State} {n k : Nat} {f : FaultPoint} (hk : k < 16) (hd : f.code ≠ Code.HOST_DENIED) (ho : f.code ≠ Code.TIER_OFFLINE) :
    (haltStrm s n k f).io.reg64 ((bCarter n).base + ssOff k Off.carter_SS_FADDR_LO) = f.addr % 2 ^ 64 := by
  rw [haltStrm_halts hd ho, ← faultAddr_saveFault s n f hk]
  refine Io.reg64_congr (ssReg_reportHalt _ n k f _ hk (by decide)) ?_
  rw [ssFaddr_hi]
  exact ssReg_reportHalt _ n k f _ hk (by decide)

/-! ### Acknowledgements -/

/-- Whether a request writes a line of one tile of a stream's open. -/
def LineReq.ofTile (n k inst ord : Nat) (r : LineReq) : Bool :=
  r.write && decide (r.core = n) && decide (r.st = k) && decide (r.inst = inst) && decide (r.ord = ord)

/-- The state once memory has taken a tile: its requests are gone, its lines written, and the tile counted (R114). -/
def tileTaken (s : State) (n k : Nat) (d : Desc) (t : Tile) : State :=
  (writeTile { s with fetch := { s.fetch with lines := s.fetch.lines.filter (fun r => !r.ofTile n k (s.strm n k).inst t.ord) } } n k d t).mapIo
    fun io => io.count64 (bCarter n) (ssOff k Off.carter_SS_TILES_LO) 1

/-- Writing a plain tile to memory leaves the streams and the requests (R114). -/
theorem writeTile_keeps (s : State) (n k : Nat) {d : Desc} (hd : d.accum = false) (t : Tile) :
    (∀ m j, (writeTile s n k d t).strm m j = s.strm m j) ∧ (writeTile s n k d t).fetch = s.fetch := by
  unfold writeTile
  split
  · exact ⟨fun _ _ => rfl, rfl⟩
  · simp only [hd, Bool.false_eq_true, if_false]
    exact ⟨fun m j => foldl_view (·.strm m j) _ (fun _ _ => strm_tWrite ..) _ s, foldl_view State.fetch _ (fun _ _ => fetch_tWrite ..) _ s⟩

section
variable {s : State} {n k : Nat} {d : Desc} {tile : Tile} {rest : List Tile} (ha : d.accum = false)
include ha

theorem strm_tileTaken (m j : Nat) : (tileTaken s n k d tile).strm m j = s.strm m j := (writeTile_keeps _ n k ha tile).1 m j

theorem lines_tileTaken : (tileTaken s n k d tile).fetch.lines = s.fetch.lines.filter (fun r => !r.ofTile n k (s.strm n k).inst tile.ord) :=
  congrArg FetchSt.lines (writeTile_keeps _ n k ha tile).2

/-- The oldest issued tile of a plain write stream is acknowledged once its lines are granted; the others stay. -/
theorem ackTile_more (hd : (s.strm n k).desc = some d) (ht : (s.strm n k).tiles = tile :: rest) (hr : (s.strm n k).reads = false)
    (hi : tile.issued = true) (hrest : rest ≠ []) (hl : ∀ r ∈ s.fetch.lines, r.ofTile n k (s.strm n k).inst tile.ord = true → r.path = []) :
    ackTile s n k = writeMore ((tileTaken s n k d tile).setStrm n k { s.strm n k with tiles := rest }) n k := by
  have hgranted : (s.fetch.lines.filter (LineReq.ofTile n k (s.strm n k).inst tile.ord)).any (fun r => !(r.path == [])) = false := by
    simp only [List.any_eq_false, List.mem_filter, and_imp]
    intro r hr hof
    simp [hl r hr hof]
  rw [← strm_tileTaken (s := s) (n := n) (k := k) (tile := tile) ha n k]
  unfold ackTile
  dsimp only
  rw [hd, ht]
  dsimp only
  rw [if_neg, if_neg]
  · rfl
  · exact fun h => hrest h.1
  · rintro (h | h | h)
    · simp [hr] at h
    · simp [hi] at h
    · exact Bool.false_ne_true (hgranted.symm.trans h)

end

/-! ### Ring steps -/

/-- A member's stream after tile `u` of a rotation has reached it (R122). -/
def ringTile (u : Nat) (y : Strm) : Strm := { y with tiles := y.tiles ++ [{ pos := u, ord := u, blk := none }], next := u + 1, ord := u + 1 }

/-- Tile `u` of a rotation reaches one member (R122). -/
def ringFill (r : ResSet) (u : Nat) (s : State) (e : Nat × Nat) : State :=
  let t := shardTile s r ((e.1 % 48 + 48 - u / r.tiles % 48) % 48) (u % r.tiles)
  fillSlot s e.1 e.2 (slotOff s e.1 (s.strm e.1 e.2) u) t.1 t.2 (ringTile u (s.strm e.1 e.2))

/-- The members of a gang: cores and their streams (R121, R122). -/
def membersOf (s : State) (id : Nat) : List (Nat × Nat × Strm) := (openStrms s).filter (fun e => e.2.2.gang == some id)

/-- A gang has taken a step. -/
def steppedGangs (g : Gang) (gs : List Gang) : List Gang := gs.map (fun h => if h.id = g.id then { h with step := g.step + 1 } else h)

section
variable (r : ResSet) (u : Nat)

theorem strm_ringFill_self (s : State) (e : Nat × Nat) : (ringFill r u s e).strm e.1 e.2 = ringTile u (s.strm e.1 e.2) := by
  rw [ringFill, strm_fillSlot, if_pos ⟨rfl, rfl⟩]

theorem strm_ringFill_ne (s : State) {e : Nat × Nat} {n k : Nat} (h : (n, k) ≠ e) : (ringFill r u s e).strm n k = s.strm n k := by
  rw [ringFill, strm_fillSlot, if_neg]
  exact fun hnk => h (Prod.ext hnk.1 hnk.2)

theorem ringFills_only (l : List (Nat × Nat)) (s : State) :
    l.foldl (ringFill r u) s = { s with cores := (l.foldl (ringFill r u) s).cores } := by
  induction l generalizing s with
  | nil => rfl
  | cons e l ih =>
    rw [List.foldl_cons, ih]
    rfl

theorem strm_ringFills_of_not_mem {n k : Nat} (l : List (Nat × Nat)) (s : State) (h : (n, k) ∉ l) :
    (l.foldl (ringFill r u) s).strm n k = s.strm n k := by
  induction l generalizing s with
  | nil => rfl
  | cons e l ih =>
    obtain ⟨he, hl⟩ := not_or.mp (mt List.mem_cons.mpr h)
    rw [List.foldl_cons, ih _ hl, strm_ringFill_ne r u s he]

theorem strm_ringFills_of_mem {n k : Nat} (l : List (Nat × Nat)) (s : State) (hl : l.Nodup) (h : (n, k) ∈ l) :
    (l.foldl (ringFill r u) s).strm n k = ringTile u (s.strm n k) := by
  induction l generalizing s with
  | nil => exact absurd h List.not_mem_nil
  | cons e l ih =>
    obtain ⟨he, hl⟩ := List.nodup_cons.mp hl
    rw [List.foldl_cons]
    obtain rfl | hmem := List.mem_cons.mp h
    · rw [strm_ringFills_of_not_mem r u l _ he, strm_ringFill_self r u s (n, k)]
    · have hne : (n, k) ≠ e := fun heq => he (heq ▸ hmem)
      rw [ih _ hl hmem, strm_ringFill_ne r u s hne]

end

/-- A running rotation whose members have all released the step four behind takes its next step (R122). -/
theorem ringStep_steps {s : State} {die set : Nat} {r : ResSet} {g : Gang} (hr : resSet s die set = some r)
    (hg : s.fetch.gangs.find? (fun g => g.resident && decide (g.die = die) && decide (g.group = set) && g.running) = some g)
    (hlast : g.step < 48 * r.tiles) (hready : ∀ e ∈ membersOf s g.id, g.step ≤ e.2.2.taken + 3) :
    ringStep s die set = { ((membersOf s g.id).map (fun e => (e.1, e.2.1))).foldl (ringFill r g.step) s with
      fetch := { s.fetch with gangs := steppedGangs g s.fetch.gangs } } := by
  have hwait : ((openStrms s).filter (fun e => e.2.2.gang == some g.id)).any (fun e => decide (e.2.2.taken + 3 < g.step)) = false := by
    simp only [List.any_eq_false, decide_eq_true_eq]
    exact fun e he => not_lt.mpr (hready e he)
  have hfetch := congrArg State.fetch (ringFills_only r g.step ((membersOf s g.id).map (fun e => (e.1, e.2.1))) s)
  simp only [ringStep, hr, hg, hwait, not_le.mpr hlast, Bool.false_eq_true, or_self, if_false]
  rw [← hfetch, List.foldl_map]
  rfl

/-! ### Cancel fences -/

theorem fenceReady_done {s : State} {n : Nat} (h : fenceReady s n = true) :
    exec (.cancelFenceDone n) s = .next (finishCancels (housekeep (fenceDone s n))) := if_pos h

theorem core_fenceDone (s : State) (n m : Nat) (h : m ≠ n) : (fenceDone s n).core m = s.core m := by
  refine (core_setCore_ne _ _ h).trans ?_
  exact foldl_view (·.core m) _ (fun t k => core_closeStrm_ne t k h) _ s

theorem fence_fenceDone (s : State) (n : Nat) : ((fenceDone s n).core n).fence = false := congrArg CoreSt.fence (core_setCore_self ..)

theorem cancelDone_fenceDone (s : State) {n : Nat} (hn : n < 96) : bitOf ((fenceDone s n).io.br (bCarter n) 0x010) 4 = true :=
  Io.bit_riseWith _ (bCarter_valid hn) (by simp [bCarter, bEvtq]) (by decide) _

/-- Settles O16: each row of Carter and of the memory path by its lemma above. -/
theorem lineTrafficFillsAndDrainsTheSlots : Obligations.LineTrafficFillsAndDrainsTheSlots := by
  intro s
  refine ⟨fun arb r hr hp hfirst => ?_, fun r x d tile l hr hpath hw hg hheld hx hinst h0 h4 hd hf htile hl hp => ?_,
    fun n k x f hx hd hb hf => ?_, fun n k x d tile rest hx hd ha ht hr hi hrest hl => ?_, fun die set r g hr hg => ?_,
    fun n hready => ?_⟩
  · exact ⟨_, exec_lineRequestGrant arb s, by rw [grantLine_first hr hp hfirst], by rw [grantLine_first hr hp hfirst]; rfl⟩
  · subst x
    obtain ⟨m, hfill⟩ := deliverLine_fills (s := withoutLine s r) hd hf htile hl hp
    refine ⟨returnLine s r, lineReturn_returns hr hpath hw hheld, ?_⟩
    rw [returnLine_alone hg hinst h0 h4, hfill]
    refine ⟨rfl, fun a => ?_, ?_, fun m k hne => ?_, fun m hm => core_fillSlot_ne _ _ _ _ _ _ _ hm⟩
    · rw [byte_fillSlot, tBytes_length]
      rfl
    · rw [strm_fillSlot, if_pos ⟨rfl, rfl⟩]
      rfl
    · rw [strm_fillSlot, if_neg fun h => hne (Prod.ext h.1 h.2)]
      rfl
  · subst x
    refine ⟨by rw [exec_streamHalt, settleHalt_read hd hb hf], fun hden hoff => ?_⟩
    rw [strm_haltStrm hden hoff]
    exact ⟨rfl, rfl, rfl, fun hk _ => faultAddr_haltStrm hk hden hoff⟩
  · subst x
    have hof : ∀ q ∈ s.fetch.lines, q.ofTile n k (s.strm n k).inst tile.ord = true → q.path = [] := fun q hq h => by
      simp only [LineReq.ofTile, Bool.and_eq_true, decide_eq_true_eq] at h
      obtain ⟨⟨⟨⟨hwrite, hcore⟩, hst⟩, hinst⟩, hord⟩ := h
      exact hl q hq hwrite hcore hst hinst hord
    refine ⟨(tileTaken s n k d tile).setStrm n k { s.strm n k with tiles := rest }, ?_, strm_setStrm_self .., lines_tileTaken ha⟩
    rw [exec_writeAck, ackTile_more ha hd ht hr hi hrest hof]
  · intro ms hlast hready
    refine ⟨_, exec_ringStep die set s, ?_⟩
    rw [ringStep_steps hr hg hlast hready]
    refine ⟨rfl, rfl, ?_, fun n k hnodup hmem => strm_ringFills_of_mem r g.step _ s hnodup hmem, fun n k hmem => strm_ringFills_of_not_mem r g.step _ s hmem⟩
    rw [ringFills_only]
  · exact ⟨_, fenceReady_done hready, fence_fenceDone s n, cancelDone_fenceDone s, core_fenceDone s n⟩

end Sys2Proof.Machine
end

section
/-! PROOF. The Pedlar path: a send, the issue of a local transfer, and its end (R138 to R141, R174). -/

namespace Sys2Proof.Machine

theorem exec_pedlarSend (n : Nat) (s : State) : exec (.pedlarSend n) s = .next (runIns s n (isOp 0x15 [0]) none (pedlarSendRun n)) := rfl

/-! ### STATUS of a request block -/

/-- Bytes read back where a unit wrote them. -/
theorem bytes_unitWrite_self (c : CoreSt) (a : Nat) (bs : List Byte) (p : Bool) : (c.unitWrite a bs p).bytes a bs.length = bs := by
  refine List.ext_getElem (by simp [CoreSt.bytes, cells]) fun j _ hj => ?_
  simp only [CoreSt.bytes, cells, List.getElem_map, List.getElem_range, CoreSt.unitWrite, CoreSt.poisonLines, smGet_putCells]
  rw [if_pos ⟨by omega, by omega⟩, Nat.add_sub_cancel_left, List.getD_eq_getElem _ _ hj]

/-- A core after STATUS of a request block is written (Table 5.7). -/
def withStatus (c : CoreSt) (blk code : Nat) : CoreSt := c.unitWrite (blk + 0x18) (leBytes 2 code) false

theorem status_withStatus (c : CoreSt) (blk code : Nat) : (withStatus c blk code).bytes (blk + 0x18) 2 = leBytes 2 code := by
  rw [withStatus]
  exact bytes_unitWrite_self c _ (leBytes 2 code) false

theorem byte_withStatus (c : CoreSt) (blk code : Nat) {b : Nat} (h : b < blk + 0x18 ∨ blk + 0x1A ≤ b) :
    (withStatus c blk code).bytes b 1 = c.bytes b 1 := by
  rw [withStatus, byte_unitWrite, if_neg]
  rw [leBytes_length]
  omega

theorem pedStatus_eq (s : State) (n blk code : Nat) : pedStatus s n blk code = s.setCore n (withStatus (s.core n) blk code) := rfl

theorem core_pedStatus (s : State) (n blk code : Nat) : (pedStatus s n blk code).core n = withStatus (s.core n) blk code := core_setCore_self ..

theorem coreOnly_pedStatus (s : State) (n : Nat) (c : CoreSt) (blk code : Nat) :
    CoreOnly s (pedStatus (s.setCore n c) n blk code) n (withStatus c blk code) := by
  rw [pedStatus_eq, core_setCore_self]
  exact (coreOnly_setCore s n c).trans (coreOnly_setCore (s.setCore n c) n _)

/-! ### Sends -/

/-- The transfer that a request block at `a` asks for, with its bytes as they stand now (R138, R140). -/
def askedPed (s : State) (c : CoreSt) (a : Nat) : Ped :=
  let b := c.bytes a 32
  let dst := ((regionOf s (fieldAt b 8 4)).map (fun g => g.base)).getD 0 + fieldAt b 0x10 8
  { blk := a, dest := fieldAt b 1 1, region := fieldAt b 8 4, fabric := fieldAt b 0xC 2, ack := bitOf (fieldAt b 0xE 1) 0,
    fence := bitOf (fieldAt b 0xE 1) 1, offset := fieldAt b 0x10 8, data := c.bytes (fieldAt b 4 4) (fieldAt b 2 2),
    poison := pedPoison c (fieldAt b 4 4) (if fieldAt b 1 1 = 0 then dst else fieldAt b 0x10 8) (fieldAt b 2 2), serial := c.sends + 1 }

/-- A core that has sent a transfer. -/
def sentBy (c : CoreSt) (p : Ped) : CoreSt := { c with peds := c.peds ++ [p], sends := c.sends + 1 }

section
variable {s : State} {n : Nat} {i : Ins} {k : Task} (ht : (s.core n).task = some k) (hu : i.onlyUses [fS1] = true)
  (hin : (s.core n).xr i.s1 + 32 ≤ 0x400000) (hal : (s.core n).xr i.s1 % 32 = 0) (hp : (s.core n).anyPoison ((s.core n).xr i.s1) 32 = false)
include ht hu hin hal hp

theorem pedlarSendRun_refused (hc : pedCheck s k ((s.core n).bytes ((s.core n).xr i.s1) 32) ≠ 0) : pedlarSendRun n s i =
    .done (pedStatus (s.setCore n (s.core n)) n ((s.core n).xr i.s1) (pedCheck s k ((s.core n).bytes ((s.core n).xr i.s1) 32))) := by
  have hin : decide (0x400000 < (s.core n).xr i.s1 + 32) = false := decide_eq_false (not_lt.mpr hin)
  have haligned : decide ((s.core n).xr i.s1 % 32 ≠ 0) = false := by simp [hal]
  have hcode : (pedCheck s k ((s.core n).bytes ((s.core n).xr i.s1) 32) == 0) = false := beq_false_of_ne hc
  simp only [pedlarSendRun, hu, ht, hin, haligned, hcode, noteRead_clean hp, Bool.not_true, Option.isNone_some, Bool.false_and, Bool.or_self,
    guardExc_false, guardExc_nil, if_pos hc]

section
variable (hc : pedCheck s k ((s.core n).bytes ((s.core n).xr i.s1) 32) = 0)
  (hsrc : fieldAt ((s.core n).bytes ((s.core n).xr i.s1) 32) 4 4 + fieldAt ((s.core n).bytes ((s.core n).xr i.s1) 32) 2 2 ≤ 0x400000)
  (hps : (s.core n).anyPoison (fieldAt ((s.core n).bytes ((s.core n).xr i.s1) 32) 4 4) (fieldAt ((s.core n).bytes ((s.core n).xr i.s1) 32) 2 2) = false)
include hc hsrc hps

/-- A request that passes its checks is taken while fewer than eight transfers are outstanding, and else waits (R140). -/
theorem pedlarSendRun_passed : pedlarSendRun n s i =
    if 8 ≤ (s.core n).peds.length then .stall s Off.carter_WRITE_BACKPRESSURE_LO none
    else .done (s.setCore n (sentBy (s.core n) (askedPed s (s.core n) ((s.core n).xr i.s1)))) := by
  have hin : decide (0x400000 < (s.core n).xr i.s1 + 32) = false := decide_eq_false (not_lt.mpr hin)
  have haligned : decide ((s.core n).xr i.s1 % 32 ≠ 0) = false := by simp [hal]
  have hsrc := decide_eq_false (not_lt.mpr hsrc)
  simp only [pedlarSendRun, hu, ht, hin, haligned, hc, hsrc, noteRead_clean hp, noteRead_clean hps, Bool.not_true, Option.isNone_some,
    Bool.and_false, Bool.or_self, guardExc_false, guardExc_nil, ne_eq, not_true_eq_false, if_false, sentBy]
  rfl

end
end

/-! ### Issues -/

theorem exec_pedlarIssue (n : Nat) (s : State) : exec (.pedlarIssue n) s = execPedlarIssue n s := rfl

/-- The transfers of a core once the one of a serial number is issued. -/
def issuedPeds (serial : Nat) (ps : List Ped) : List Ped := ps.map (fun q => if q.serial = serial then { q with issued := true } else q)

/-- A core once a transfer of it is issued: without ACK its STATUS is DONE (R138). -/
def coreIssued (c : CoreSt) (p : Ped) : CoreSt :=
  if p.ack then { c with peds := issuedPeds p.serial c.peds } else withStatus { c with peds := issuedPeds p.serial c.peds } p.blk Code.DONE

theorem peds_coreIssued (c : CoreSt) (p : Ped) : (coreIssued c p).peds = issuedPeds p.serial c.peds := by
  unfold coreIssued
  split <;> rfl

/-- The state once a local transfer of a core is issued. -/
def issuePed (s : State) (n : Nat) (p : Ped) : State :=
  let t := setPed s n p.serial (fun q => { q with issued := true })
  if p.ack then t else pedStatus t n p.blk Code.DONE

theorem issuePed_only (s : State) (n : Nat) (p : Ped) : issuePed s n p = { s with cores := (issuePed s n p).cores } := by
  unfold issuePed
  split <;> rfl

theorem core_issuePed (s : State) (n : Nat) (p : Ped) : (issuePed s n p).core n = coreIssued (s.core n) p := by
  have hset : (setPed s n p.serial (fun q => { q with issued := true })).core n = { s.core n with peds := issuedPeds p.serial (s.core n).peds } :=
    core_setCore_self ..
  unfold issuePed coreIssued
  split
  · exact hset
  · rw [core_pedStatus, hset]

theorem core_issuePed_ne (s : State) {n m : Nat} (p : Ped) (h : m ≠ n) : (issuePed s n p).core m = s.core m := by
  have hset : (setPed s n p.serial (fun q => { q with issued := true })).core m = s.core m := core_setCore_ne s _ h
  unfold issuePed
  split
  · exact hset
  · exact (core_setCore_ne _ _ h).trans hset

/-- The oldest transfer of a core not yet issued goes, if it is local and its FENCE holds nothing back. -/
theorem pedlarIssue_local {s : State} {n : Nat} {p : Ped} (hp : (s.core n).peds.find? (fun p => !p.issued) = some p) (hd : p.dest = 0)
    (hf : p.fence = true → ∀ e ∈ (s.core n).strms, e.2.reads = false → e.2.tiles = []) : exec (.pedlarIssue n) s = .next (issuePed s n p) := by
  have hwaits : (p.fence && (s.core n).strms.any (fun e => !e.2.reads && e.2.tiles != [])) = false := by
    cases hfence : p.fence with
    | false => rfl
    | true =>
      simp only [Bool.true_and, List.any_eq_false, Bool.and_eq_true, Bool.not_eq_true', bne_iff_ne, not_and, not_not]
      exact hf hfence
  simp only [exec_pedlarIssue, execPedlarIssue, hp, hwaits, hd, zero_ne_one, false_and, or_self, Bool.false_eq_true, if_false, if_true]
  rfl

/-! ### Ends -/

theorem exec_pedlarComplete (n serial : Nat) (s : State) : exec (.pedlarComplete n serial) s = execPedlarComplete n serial s := rfl

/-- A transfer whose turn has come is applied: no older one of its core goes to the same region (R140). -/
theorem pedlarComplete_local {s : State} {n : Nat} {p : Ped} (hp : (s.core n).peds.find? (fun q => q.serial == p.serial && q.issued) = some p)
    (hd : p.dest = 0) (hfirst : ∀ q ∈ (s.core n).peds, q.dest = p.dest → q.region = p.region → q.fabric = p.fabric → p.serial ≤ q.serial) :
    exec (.pedlarComplete n p.serial) s = .next (applyPed s n p) := by
  have holder : (s.core n).peds.any (fun q => q.dest == p.dest && q.region == p.region && q.fabric == p.fabric && decide (q.serial < p.serial)) = false := by
    simp only [List.any_eq_false, Bool.and_eq_true, beq_iff_eq, decide_eq_true_eq, not_and, not_lt, and_imp]
    exact hfirst
  rw [exec_pedlarComplete, execPedlarComplete, hp]
  simp only [holder, Bool.false_eq_true, if_false, if_pos hd]

theorem applyPed_ends {s : State} {n : Nat} {p : Ped} {r : Region} (hr : regionOf s p.region = some r)
    (hf : tFault s r.tier (r.base + p.offset) p.data.length true = none) (hh : tHeld s r.tier (r.base + p.offset) = false) :
    applyPed s n p = endPed (writeLines s r.tier (r.base + p.offset) p.data p.poison) n p (if p.ack then some Code.DONE else none) := by
  simp only [applyPed, hr, hf, hh, Bool.false_eq_true, if_false]

theorem peds_tWrite (s : State) (core tier a : Nat) (bs : List Byte) (p : Bool) (n : Nat) :
    ((s.tWrite core tier a bs p).core n).peds = (s.core n).peds := by
  unfold State.tWrite
  split
  · rw [core_setCore]
    split
    · subst n
      rfl
    · rfl
  · split <;> rfl

/-- Writing lines leaves every core's transfers. -/
theorem peds_writeLines (s : State) (tier a : Nat) (bs : List Byte) (poison n : Nat) :
    ((writeLines s tier a bs poison).core n).peds = (s.core n).peds := by
  exact foldl_view (fun t : State => (t.core n).peds) _ (fun t e => peds_tWrite ..) _ s

theorem peds_endPed (s : State) (n : Nat) (p : Ped) (status : Option Nat) :
    ((endPed s n p status).core n).peds = (s.core n).peds.filter (fun q => q.serial ≠ p.serial) := by
  cases status with
  | none => exact congrArg CoreSt.peds (core_setCore_self ..)
  | some code => exact (congrArg CoreSt.peds (core_pedStatus ..)).trans (congrArg CoreSt.peds (core_setCore_self ..))

theorem mem_endPed (s : State) (n : Nat) (p : Ped) (status : Option Nat) : (endPed s n p status).mem = s.mem := by cases status <;> rfl

theorem status_endPed (s : State) (n : Nat) (p : Ped) (code : Nat) : ((endPed s n p (some code)).core n).bytes (p.blk + 0x18) 2 = leBytes 2 code := by
  rw [endPed]
  dsimp only
  rw [core_pedStatus, status_withStatus]

/-- Settles O17: a send by its checks, an issue and an end by their lemmas. -/
theorem pedlarTransfersAreSentIssuedAndEnded : Obligations.PedlarTransfersAreSentIssuedAndEnded := by
  intro s n c
  refine ⟨fun i k h hm hu ht => ?_, fun p hfind hd hf => ?_, fun p r hfind hd hr hfirst hfault hheld => ?_⟩
  · intro a b code hin hal hp
    refine ⟨fun hc => ?_, fun hc hsrc hps => ⟨fun hfew => ?_, fun hmany => ?_⟩⟩
    · have hrun := pedlarSendRun_refused ht hu hin hal hp hc
      have hdone := runIns_done (ctr := none) h hm (by simp) hrun (coreOnly_pedStatus s n c a code) h.2.2.2.2.2 rfl rfl
      refine ⟨_, exec_pedlarSend n s, ?_, fun x hx => ?_, ?_⟩ <;> rw [hdone.1]
      · exact status_withStatus c a code
      · exact byte_withStatus c a code hx
      · exact hdone
    · refine ⟨_, askedPed s c a, exec_pedlarSend n s, ?_, rfl, rfl, rfl, rfl, rfl, rfl, rfl, rfl, rfl, rfl⟩
      have hrun := (pedlarSendRun_passed ht hu hin hal hp hc hsrc hps).trans (if_neg (not_le.mpr hfew))
      exact runIns_done h hm (by simp) hrun (coreOnly_setCore ..) h.2.2.2.2.2 rfl rfl
    · have hrun := (pedlarSendRun_passed ht hu hin hal hp hc hsrc hps).trans (if_pos hmany)
      refine ⟨_, exec_pedlarSend n s, ?_⟩
      rw [runIns_stalls h hm hrun]
      exact coreOnly_countStall s h.1 (by decide) (by simp)
  · refine ⟨issuePed s n p, pedlarIssue_local hfind hd hf, ?_, fun hack => ?_, fun hack => ?_, issuePed_only s n p, fun m => core_issuePed_ne s p⟩
    · rw [core_issuePed, peds_coreIssued]
      rfl
    · rw [core_issuePed, coreIssued, if_pos hack]
    · rw [core_issuePed, coreIssued, if_neg (by simp [hack]), status_withStatus]
  · refine ⟨_, pedlarComplete_local hfind hd hfirst, ?_⟩
    rw [applyPed_ends hr hfault hheld]
    refine ⟨?_, mem_endPed .., fun _ hack => ?_⟩
    · rw [peds_endPed, peds_writeLines]
    · rw [if_pos hack, status_endPed]

end Sys2Proof.Machine
end

section
/-! SUPPORT. The issue of an instruction that changes one core only, and the exception checks that it passes (R146, R148, R183). -/

namespace Sys2Proof.Machine

/-- A core that stands where another does: nothing of its issue has changed and no poisoned read waits to be recorded. -/
def CoreSt.Stands (c d : CoreSt) : Prop := d.poisonAt = none ∧ d.run = c.run ∧ d.pc = c.pc

theorem CoreSt.stands_refl {c : CoreSt} (h : c.poisonAt = none) : c.Stands c := ⟨h, rfl, rfl⟩

theorem CoreSt.stands_setX {c : CoreSt} (h : c.poisonAt = none) (r v : Nat) : c.Stands (c.setX r v) := by
  obtain ⟨hrun, hpc, hp⟩ := setX_run c r v
  exact ⟨hp.trans h, hrun, hpc⟩

section
variable {s : State} {n : Nat} {i : Ins} {mine : Ins → Bool} {f : State → Ins → Ran} (h : Issues s n i)
include h

theorem Issues.clean : (s.core n).poisonAt = none := h.2.2.2.2.2

theorem Issues.stands : (s.core n).Stands (s.core n) := CoreSt.stands_refl h.clean

theorem Issues.stands_setX (r v : Nat) : (s.core n).Stands ((s.core n).setX r v) := CoreSt.stands_setX h.clean r v

/-- An instruction that leaves a core in the place of its own completes. -/
theorem runIns_setCore {ctr : Option Nat} {d : CoreSt} (hm : mine i = true) (hctr : ∀ o ∈ ctr, o + 4 < 4096)
    (hf : f s i = .done (s.setCore n d)) (hd : (s.core n).Stands d) : CoreOnly s (runIns s n mine ctr f) n { d with pc := (s.core n).pc + 8 } :=
  runIns_done h hm hctr hf (coreOnly_setCore s n d) hd.1 hd.2.1 hd.2.2

end

end Sys2Proof.Machine
end

section
/-! PROOF. Scalar arithmetic, jumps and branches: what each row issues (R148, R151). -/

namespace Sys2Proof.Machine

theorem exec_scalarAlu (n : Nat) (s : State) :
    exec (.scalarAlu n) s = .next (runIns s n (isOp 0x01 (List.range 18)) (some Off.fcore_INSTR_SCALAR_LO) (scalarAlu n)) := rfl
theorem exec_scalarImmediate (n : Nat) (s : State) :
    exec (.scalarImmediate n) s = .next (runIns s n (isOp 0x02 (List.range 9)) (some Off.fcore_INSTR_SCALAR_LO) (scalarImm n)) := rfl
theorem exec_jal (n : Nat) (s : State) :
    exec (.jal n) s = .next (runIns s n (isOp 0x03 [0]) (some Off.fcore_INSTR_SCALAR_LO) (jal n)) := rfl
theorem exec_jr (n : Nat) (s : State) :
    exec (.jr n) s = .next (runIns s n (isOp 0x03 [1]) (some Off.fcore_INSTR_SCALAR_LO) (jr n)) := rfl
theorem exec_conditionalBranch (n : Nat) (s : State) : exec (.conditionalBranch n) s =
    .next (runIns s n (isOp 0x03 [2, 3, 4, 5, 6, 7]) (some Off.fcore_INSTR_SCALAR_LO) (condBranch n)) := rfl

/-! ### Arithmetic -/

theorem scalarAlu_done (s : State) (n : Nat) {i : Ins} (hu : i.onlyUses [fDst, fS1, fS2] = true) :
    scalarAlu n s i = .done (s.setCore n ((s.core n).setX i.dst (aluOp i.sub ((s.core n).xr i.s1) ((s.core n).xr i.s2)))) := by
  rw [scalarAlu, hu, Bool.not_true, guardExc_false, guardExc_nil]

theorem scalarImm_done (s : State) (n : Nat) {i : Ins} (hu : i.onlyUses ([fDst, fImm32] ++ (if i.sub = 7 then [] else [fS1])) = true) :
    scalarImm n s i = .done (s.setCore n ((s.core n).setX i.dst
      (if i.sub = 7 then u64 i.imm32
       else if i.sub = 8 then i.w % 2 ^ 32 * 2 ^ 32 + (s.core n).xr i.s1 % 2 ^ 32
       else aluOp ([0, 8, 9, 10, 11, 12, 13].getD i.sub 0) ((s.core n).xr i.s1) (u64 i.imm32)))) := by
  rw [scalarImm, hu, Bool.not_true, guardExc_false, guardExc_nil]
  rfl

/-- Settles O2: each class issues the write of its register, and a write reads back but from X0. -/
theorem scalarInstructionsWriteTheirRegister : Obligations.ScalarInstructionsWriteTheirRegister := by
  intro s n i h
  refine ⟨fun hm hu => ⟨_, exec_scalarAlu n s, ?_⟩, fun hm hu => ⟨_, exec_scalarImmediate n s, ?_⟩, fun c r v => ⟨?_, fun q hq => ?_⟩⟩
  · exact runIns_setCore h hm (by decide) (scalarAlu_done s n hu) (h.stands_setX ..)
  · exact runIns_setCore h hm (by decide) (scalarImm_done s n hu) (h.stands_setX ..)
  · rw [xr_setX, if_pos rfl]
  · rw [xr_setX, if_neg hq]

/-! ### Jumps and branches -/

theorem inRange_setX (c : CoreSt) (r v pc : Nat) : (c.setX r v).inRange pc = c.inRange pc := by
  unfold CoreSt.setX
  split <;> rfl

/-- A jump inside the range in force goes to its target (R148). -/
theorem jumpTo_inRange {s : State} {n : Nat} {target : Int} (h0 : 0 ≤ target) (hin : (s.core n).inRange target.toNat = true) :
    jumpTo s n target = .jump s target.toNat := by
  rw [jumpTo, if_neg]
  simp [h0, hin]

section
variable {s : State} {n : Nat} {i : Ins}

theorem jal_jumps (hu : i.onlyUses [fDst, fImm32] = true) (h0 : 0 ≤ relTarget (s.core n) i)
    (hin : (s.core n).inRange (relTarget (s.core n) i).toNat = true) :
    jal n s i = .jump (s.setCore n ((s.core n).setX i.dst ((s.core n).pc + 8))) (relTarget (s.core n) i).toNat := by
  have hpass : ¬ ((!(s.core n).inRange (relTarget (s.core n) i).toNat) = true ∨ relTarget (s.core n) i < 0) := by simp [h0, hin]
  rw [jal, if_neg hpass, hu, Bool.not_true, guardExc_false, guardExc_nil,
    jumpTo_inRange h0 (by rw [core_setCore_self, inRange_setX, hin])]

theorem jr_jumps (hu : i.onlyUses [fDst, fS1] = true) (hin : (s.core n).inRange ((s.core n).xr i.s1) = true) :
    jr n s i = .jump (s.setCore n ((s.core n).setX i.dst ((s.core n).pc + 8))) ((s.core n).xr i.s1) := by
  have hpass : ¬ (!(s.core n).inRange ((s.core n).xr i.s1)) = true := by simp [hin]
  have hjump := jumpTo_inRange (s := s.setCore n ((s.core n).setX i.dst ((s.core n).pc + 8))) (n := n) (Int.natCast_nonneg ((s.core n).xr i.s1))
    (by rw [core_setCore_self, inRange_setX, Int.toNat_natCast, hin])
  rw [Int.toNat_natCast] at hjump
  rw [jr, if_neg hpass, hu, Bool.not_true, guardExc_false, guardExc_nil, hjump]

theorem condBranch_taken (hu : i.onlyUses [fS1, fS2, fImm32] = true) (ht : branchHolds i.sub ((s.core n).xr i.s1) ((s.core n).xr i.s2) = true)
    (h0 : 0 ≤ relTarget (s.core n) i) (hin : (s.core n).inRange (relTarget (s.core n) i).toNat = true) :
    condBranch n s i = .jump s (relTarget (s.core n) i).toNat := by
  have hpass : ¬ (true && (decide (relTarget (s.core n) i < 0) || !(s.core n).inRange (relTarget (s.core n) i).toNat)) = true := by simp [h0, hin]
  rw [condBranch, ht, if_neg hpass, hu, Bool.not_true, guardExc_false, guardExc_nil, if_pos rfl, jumpTo_inRange h0 hin]

theorem condBranch_untaken (hu : i.onlyUses [fS1, fS2, fImm32] = true)
    (ht : branchHolds i.sub ((s.core n).xr i.s1) ((s.core n).xr i.s2) = false) : condBranch n s i = .done s := by
  rw [condBranch, ht, Bool.false_and, if_neg Bool.false_ne_true, hu, Bool.not_true, guardExc_false, guardExc_nil, if_neg Bool.false_ne_true]

end

/-- The six branch conditions on words (R151). -/
theorem branchHolds_words (a b : W64) :
    branchHolds 2 a.toNat b.toNat = (a == b) ∧ branchHolds 3 a.toNat b.toNat = (a != b) ∧
    branchHolds 4 a.toNat b.toNat = a.slt b ∧ branchHolds 5 a.toNat b.toNat = !(a.slt b) ∧
    branchHolds 6 a.toNat b.toNat = a.ult b ∧ branchHolds 7 a.toNat b.toNat = !(a.ult b) := by
  have heq : (a.toNat == b.toNat) = (a == b) := by rw [Bool.eq_iff_iff, beq_iff_eq, beq_iff_eq, BitVec.toNat_eq]
  have hslt : a.slt b = decide (i64 a.toNat < i64 b.toNat) := by rw [i64_toNat, i64_toNat]; rfl
  refine ⟨heq, congrArg not heq, hslt.symm, ?_, rfl, ?_⟩
  · rw [hslt, ← decide_not]
    exact decide_eq_decide.mpr not_lt.symm
  · rw [BitVec.ult, ← decide_not]
    exact decide_eq_decide.mpr not_lt.symm

/-- Settles O3: each row by the jump that it makes, and the conditions on words. -/
theorem branchesGoWhereTheySay : Obligations.BranchesGoWhereTheySay := by
  intro s n i h
  refine ⟨fun hm hu h0 hin => ⟨_, exec_jal n s, ?_⟩, fun hm hu hin => ⟨_, exec_jr n s, ?_⟩,
    fun hm hu htarget => ⟨_, exec_conditionalBranch n s, ?_⟩, branchHolds_words⟩
  · exact runIns_jump h hm (by decide) (jal_jumps hu h0 hin) (coreOnly_setCore ..) (h.stands_setX ..).1
  · exact runIns_jump h hm (by decide) (jr_jumps hu hin) (coreOnly_setCore ..) (h.stands_setX ..).1
  · cases ht : branchHolds i.sub ((s.core n).xr i.s1) ((s.core n).xr i.s2) with
    | true =>
      obtain ⟨h0, hin⟩ := htarget ht
      exact runIns_jump h hm (by decide) (condBranch_taken hu ht h0 hin) (coreOnly_refl s n) h.clean
    | false => exact runIns_done h hm (by decide) (condBranch_untaken hu ht) (coreOnly_refl s n) h.clean rfl rfl

end Sys2Proof.Machine
end

section
/-! PROOF. Scalar loads and stores (R151, R157, R406). -/

namespace Sys2Proof.Machine

theorem exec_scalarLoad (n : Nat) (s : State) :
    exec (.scalarLoad n) s = .next (runIns s n (isOp 0x04 (List.range 7)) (some Off.fcore_INSTR_SCALAR_LO) (scalarLoad n)) := rfl
theorem exec_scalarStore (n : Nat) (s : State) :
    exec (.scalarStore n) s = .next (runIns s n (isOp 0x04 [8, 9, 10, 11]) (some Off.fcore_INSTR_SCALAR_LO) (scalarStore n)) := rfl

section
variable {s : State} {n : Nat} {i : Ins} (hin : memAddr (s.core n) i + memWidth i.sub ≤ 0x400000) (hal : memAddr (s.core n) i % memWidth i.sub = 0)
include hin hal

theorem scalarLoad_done (hu : i.onlyUses [fDst, fS1, fImm32] = true) (hp : (s.core n).anyPoison (memAddr (s.core n) i) (memWidth i.sub) = false) :
    scalarLoad n s i = .done (s.setCore n ((s.core n).setX i.dst
      (let v := (s.core n).num (memAddr (s.core n) i) (memWidth i.sub)
       if i.sub % 2 = 1 then u64 (signed (8 * memWidth i.sub) v) else v))) := by
  rw [scalarLoad, noteRead_clean hp]
  exact guard_clear _ _ (by simp [hu, hin, hal])

theorem scalarStore_done (hu : i.onlyUses [fS1, fS2, fImm32] = true) (hs : inShard s n (memAddr (s.core n) i) (memWidth i.sub) = false) :
    scalarStore n s i = .done (s.setCore n ((s.core n).store (memAddr (s.core n) i) (leBytes (memWidth i.sub) ((s.core n).xr i.s2)) false)) :=
  guard_clear _ _ (by simp [hu, hin, hal, hs])

end

/-- A byte after a little-endian number is stored. -/
theorem byte_store_leBytes (c : CoreSt) (vst : Bool) (a w v b : Nat) : (c.store a (leBytes w v) vst).bytes b 1 =
    if a ≤ b ∧ b < a + w then [BitVec.ofNat 8 (v / 256 ^ (b - a))] else c.bytes b 1 := by
  rw [bytes_one, bytes_one, sram_store, leBytes_length]
  split
  · rw [leBytes_getD _ _ _ (by omega)]
  · rfl

/-- Settles O4: a load writes its register, a store its bytes. -/
theorem scalarMemoryReadsAndWritesSram : Obligations.ScalarMemoryReadsAndWritesSram := by
  intro s n i h hin hal
  refine ⟨fun hm hu hp => ⟨_, exec_scalarLoad n s, ?_⟩, fun hm hu hs => ⟨_, exec_scalarStore n s, ?_⟩⟩
  · exact runIns_setCore h hm (by decide) (scalarLoad_done hin hal hu hp) (h.stands_setX ..)
  · have hdone := runIns_setCore (ctr := some Off.fcore_INSTR_SCALAR_LO) h hm (by decide) (scalarStore_done hin hal hu hs) h.stands
    rw [hdone.1]
    exact ⟨fun a => byte_store_leBytes _ false .., hdone⟩

end Sys2Proof.Machine
end

section
/-! SUPPORT. Vector results: lanes, masks and flags, and what an instruction that writes them leaves (R144, R145). -/

namespace Sys2Proof.Machine

theorem orF_zero (c : CoreSt) : c.orF 0 = c := by
  rw [CoreSt.orF, show Nat.lor c.fstat 0 = c.fstat from Nat.or_zero _]

theorem orF_setX (c : CoreSt) (r v f : Nat) : (c.setX r v).orF f = { c.setX r v with fstat := Nat.lor c.fstat f } := by
  unfold CoreSt.setX
  split <;> rfl

/-- The flags that the active lanes raise. -/
def activeFlags (c : CoreSt) (i : Ins) (f : Nat → Num.FFlags) : Nat :=
  (List.range 64).foldl (fun a l => if c.active i l then Nat.lor a (flagBits (f l)) else a) 0

/-- Flags gathered over the results of all lanes are those of the active lanes. -/
theorem foldFlags_eq (c : CoreSt) (i : Ins) (r : Nat → Nat × Num.FFlags) :
    ((List.range 64).map r).zipIdx.foldl (fun a e => if c.active i e.2 then Nat.lor a (flagBits e.1.2) else a) 0 = activeFlags c i (fun l => (r l).2) :=
  zipIdx_fold (c.active i) r

/-- The bits of a mask after a vector result: active lanes take theirs, inactive ones are cleared or kept (R145). -/
def maskBit (c : CoreSt) (i : Ins) (bit : Nat → Bool) (l : Nat) : Bool :=
  if c.active i l then bit l else if i.zm then false else bitOf (c.mr i.dst) l

theorem putMask_eq (c : CoreSt) (i : Ins) (bit : Nat → Bool) : c.putMask i i.dst bit = c.setM i.dst (bitSet 64 (maskBit c i bit)) := rfl

theorem mr_setM (c : CoreSt) (r v q : Nat) : (c.setM r v).mr q = if q = r then v % 2 ^ 64 else c.mr q := smGet_smPut ..

theorem bitOf_mr_putMask (c : CoreSt) (i : Ins) (bit : Nat → Bool) {l : Nat} (hl : l < 64) :
    bitOf ((c.putMask i i.dst bit).mr i.dst) l = maskBit c i bit l := by
  rw [putMask_eq, mr_setM, if_pos rfl, Nat.mod_eq_of_lt (bitSet_lt 64 _), bitOf_bitSet _ hl]

theorem mr_putMask_ne (c : CoreSt) (i : Ins) (bit : Nat → Bool) {q : Nat} (hq : q ≠ i.dst) : (c.putMask i i.dst bit).mr q = c.mr q := by
  rw [putMask_eq, mr_setM, if_neg hq]

/-- What an instruction that writes the lanes of a vector register, and raises no flag, leaves. -/
theorem lanes_written {s : State} {n : Nat} {i : Ins} {mine : Ins → Bool} {f : State → Ins → Ran} {w : Nat} {r : Nat → Nat}
    (h : Issues s n i) (hw : w = 32 ∨ w = 64) (hm : mine i = true)
    (hf : f s i = .done (s.setCore n ((s.core n).putLanes i w i.dst ((List.range 64).map r)))) :
    let t := runIns s n mine (some Off.fcore_INSTR_VECTOR_LO) f
    (∀ l, l < 64 → (t.core n).elem w i.dst l = if (s.core n).active i l then r l % 2 ^ w else if i.zm then 0 else (s.core n).elem w i.dst l) ∧
    (∀ q l, l < 64 → q ≠ i.dst → (w = 64 → q ≠ i.dst + 1) → (t.core n).vl q l = (s.core n).vl q l) ∧
    CoreOnly s t n { s.core n with v := (t.core n).v, pc := (s.core n).pc + 8 } := by
  have hlanes := lanes_done h hw hm (fl := 0) (hf.trans (by rw [orF_zero]))
  rwa [show Nat.lor (s.core n).fstat 0 = (s.core n).fstat from Nat.or_zero _] at hlanes

/-- The checks of a vector instruction on registers: its fields, its type, its register pairs. -/
theorem guardExc_vector {ill bad ok : Bool} {et : Nat} (k : Ran) (hill : ill = false) (hv : Num.valid et = true) (hok : ok = true) (hbad : bad = false) :
    guardExc ([(ill, Code.ILLEGAL_INSTR)] ++ typeExc et ok ++ [(bad, Code.BAD_REG)]) k = k := by
  subst hill hok hbad
  rw [typeExc, hv]
  rfl

end Sys2Proof.Machine
end

section
/-! PROOF. Vector arithmetic, conversion, reductions and compare (R144, R145, R153 to R156). -/

namespace Sys2Proof.Machine

theorem exec_vectorArithmetic (n : Nat) (s : State) : exec (.vectorArithmetic n) s =
    .next (runIns s n (isOp 0x08 (List.range 17 ++ [19, 23, 24])) (some Off.fcore_INSTR_VECTOR_LO) (vecArith n)) := rfl
theorem exec_cvt (n : Nat) (s : State) :
    exec (.cvt n) s = .next (runIns s n (isOp 0x08 [18]) (some Off.fcore_INSTR_VECTOR_LO) (vecCvt n)) := rfl
theorem exec_redsum (n : Nat) (s : State) :
    exec (.redsum n) s = .next (runIns s n (isOp 0x08 [20, 21, 22]) (some Off.fcore_INSTR_VECTOR_LO) (vecReduce n)) := rfl
theorem exec_vectorCompare (n : Nat) (s : State) :
    exec (.vectorCompare n) s = .next (runIns s n (isOp 0x09 (List.range 6)) (some Off.fcore_INSTR_VECTOR_LO) (vecCompare n)) := rfl

/-- An instruction of some sub-opcodes of a class is one of more. -/
theorem isOp_mono {major : Nat} {subs more : List Nat} {i : Ins} (h : isOp major subs i = true) (hsub : subs ⊆ more) : isOp major more i = true := by
  simp only [isOp, Bool.and_eq_true, List.contains_iff_mem] at h ⊢
  exact ⟨h.1, hsub h.2⟩

theorem isOp_arith {subs : List Nat} {i : Ins} (h : isOp 0x08 subs i = true) (hsub : subs ⊆ List.range 17 ++ [19, 23, 24]) :
    isOp 0x08 (List.range 17 ++ [19, 23, 24]) i = true := isOp_mono h hsub

theorem sub_of_isOp {major k : Nat} {i : Ins} (h : isOp major [k] i = true) : i.sub = k := by
  simpa only [isOp, Bool.and_eq_true, List.contains_iff_mem, List.mem_singleton] using (Bool.and_eq_true_iff.mp h).2

/-- What lane `l` of sub-opcodes 0 to 16 gives (Table 6.7). -/
def arithLane (c : CoreSt) (i : Ins) (l : Nat) : Nat × Num.FFlags :=
  laneOp i.sub i.type i.rm i.sat (c.elem (Num.width i.type) i.s1 l) (if hasSrc2 i.sub then src2 c i (Num.width i.type) l else 0)
    (if i.sub = 3 then c.elem (Num.width i.type) i.s3 l else 0)

/-- What lane `l` of a conversion gives. -/
def cvtLane (c : CoreSt) (i : Ins) (l : Nat) : Nat × Num.FFlags :=
  Num.convert (bitsOf i.w 15 8) i.type i.rm i.sat (c.elem (Num.width (bitsOf i.w 15 8)) i.s1 l)

/-- What lane `l` of SEL gives. -/
def selLane (c : CoreSt) (i : Ins) (l : Nat) : Nat :=
  if bitOf (c.mr (bitsOf i.w 10 8)) l then c.elem (Num.width i.type) i.s1 l else src2 c i (Num.width i.type) l

/-- What lane `l` of a compare gives. -/
def compareLane (c : CoreSt) (i : Ins) (l : Nat) : Bool × Num.FFlags :=
  if Num.isInt i.type then (iCompare i.type i.sub (c.elem (Num.width i.type) i.s1 l) (src2 c i (Num.width i.type) l), {})
  else fCompare i.type i.sub (c.elem (Num.width i.type) i.s1 l) (src2 c i (Num.width i.type) l)

/-- What a reduction gives, with its flags (R155). -/
def reduction (c : CoreSt) (i : Ins) : Nat × Nat := if i.sub = 20 then redSum c i else redMinMax c i (i.sub == 21)

section
variable {s : State} {n : Nat} {i : Ins} (hv : Num.valid i.type = true) (hr : regType i.type = true)
include hv hr

theorem vecLanes_done (ht : laneTypes i.sub i.type = true)
    (hu : i.onlyUses ([fDst, fS1, fType, fPred] ++ (if hasSrc2 i.sub then [fS2, (0, 0)] else []) ++ (if i.sub = 3 then [fS3] else [])
      ++ roundFields i.sub i.type) = true)
    (hp : oddPair i.type ([i.dst, i.s1] ++ (if hasSrc2 i.sub = true ∧ (!i.s2x) = true then [i.s2] else []) ++ (if i.sub = 3 then [i.s3] else [])) = false) :
    vecLanes n s i = .done (s.setCore n (((s.core n).putLanes i (Num.width i.type) i.dst ((List.range 64).map fun l => (arithLane (s.core n) i l).1)).orF
      (activeFlags (s.core n) i fun l => (arithLane (s.core n) i l).2))) := by
  rw [vecLanes, ← foldFlags_eq]
  simp only [List.map_map]
  exact guardExc_vector _ (by rw [hu]; rfl) hv (by rw [hr, ht]; rfl) hp

theorem vecSel_done (hu : i.onlyUses [fDst, fS1, fS2, fType, fPred, fRm, fSat, (10, 8), (0, 0)] = true) (hrm : i.rm = 0) (hsat : i.sat = false)
    (hp : oddPair i.type ([i.dst, i.s1] ++ (if i.s2x then [] else [i.s2])) = false) :
    vecSel n s i = .done (s.setCore n ((s.core n).putLanes i (Num.width i.type) i.dst ((List.range 64).map (selLane (s.core n) i)))) :=
  guardExc_vector _ (by simp [hu, hrm, hsat]) hv hr hp

theorem vecBcast_done (hu : i.onlyUses [fDst, fS1, fType, fPred] = true) (hp : oddPair i.type [i.dst] = false) :
    vecBcast n s i = .done (s.setCore n ((s.core n).putLanes i (Num.width i.type) i.dst
      ((List.range 64).map fun _ => (s.core n).xr i.s1 % 2 ^ Num.width i.type))) := by
  rw [List.map_const', List.length_range]
  exact guardExc_vector _ (by rw [hu]; rfl) hv hr hp

theorem vecMovx_done (hu : i.onlyUses [fDst, fS1, fType, fPred, (13, 8)] = true) (hp : oddPair i.type [i.s1] = false) :
    vecMovx n s i = .done (s.setCore n ((s.core n).setX i.dst (toX i.type ((s.core n).elem (Num.width i.type) i.s1 (bitsOf i.w 13 8))))) :=
  guardExc_vector _ (by rw [hu]; rfl) hv hr hp

theorem vecCvt_done (hv' : Num.valid (bitsOf i.w 15 8) = true) (hr' : regType (bitsOf i.w 15 8) = true)
    (hp : (oddPair i.type [i.dst] || oddPair (bitsOf i.w 15 8) [i.s1]) = false)
    (hu : i.onlyUses ([fDst, fS1, fType, fPred, fSat, (15, 8)] ++ (if Num.isInt (bitsOf i.w 15 8) ∧ Num.isInt i.type then [] else [fRm])) = true) :
    vecCvt n s i = .done (s.setCore n (((s.core n).putLanes i (Num.width i.type) i.dst ((List.range 64).map fun l => (cvtLane (s.core n) i l).1)).orF
      (activeFlags (s.core n) i fun l => (cvtLane (s.core n) i l).2))) := by
  rw [vecCvt, ← foldFlags_eq]
  simp only [List.map_map]
  rw [hu, hv, hv', hr, hr', hp]
  rfl

theorem vecReduce_done (hp : oddPair i.type [i.s1] = false)
    (hu : i.onlyUses ([fDst, fS1, fType, fPred] ++ (if i.sub = 20 then roundFields 0 i.type else [])) = true) :
    vecReduce n s i = .done (s.setCore n (((s.core n).setX i.dst (toX i.type (reduction (s.core n) i).1)).orF (reduction (s.core n) i).2)) :=
  guardExc_vector _ (by rw [hu]; rfl) hv hr hp

theorem vecCompare_done (hu : i.onlyUses [(49, 47), fS1, fS2, fType, fPred, (0, 0)] = true)
    (hp : oddPair i.type ([i.s1] ++ (if i.s2x then [] else [i.s2])) = false) :
    vecCompare n s i = .done (s.setCore n (((s.core n).putMask i i.dst fun l => (compareLane (s.core n) i l).1).orF
      (activeFlags (s.core n) i fun l => (compareLane (s.core n) i l).2))) :=
  guardExc_vector _ (by rw [hu]; rfl) hv hr hp

end

/-- Settles O6: each row issues the lanes, the mask or the register that it computes. -/
theorem vectorInstructionsFillTheirActiveLanes : Obligations.VectorInstructionsFillTheirActiveLanes := by
  intro s n i h hv hr c w lanes flags
  have hw : w = 32 ∨ w = 64 := width_reg hr
  refine ⟨fun hsub hm ht hu hp => ?_, fun hm hu hrm hsat hp => ?_, fun hm hu hp => ?_, fun hm hu hp => ?_,
    fun hm hv' hr' hp hu => ?_, fun hm hp hu => ?_, fun hm hu hp => ?_⟩
  · have hrun : vecArith n s i = vecLanes n s i := if_pos hsub
    obtain ⟨hlanes, hothers, honly⟩ := lanes_done h hw (isOp_arith hm (List.subset_append_left ..)) (hrun.trans (vecLanes_done hv hr ht hu hp))
    exact ⟨_, exec_vectorArithmetic n s, ⟨hlanes, hothers⟩, honly⟩
  · have hrun : vecArith n s i = vecSel n s i := by simp [vecArith, sub_of_isOp hm]
    obtain ⟨hlanes, hothers, honly⟩ := lanes_written h hw (isOp_arith hm (by decide)) (hrun.trans (vecSel_done hv hr hu hrm hsat hp))
    exact ⟨_, exec_vectorArithmetic n s, ⟨hlanes, hothers⟩, honly⟩
  · have hrun : vecArith n s i = vecBcast n s i := by simp [vecArith, sub_of_isOp hm]
    obtain ⟨hlanes, hothers, honly⟩ := lanes_written h hw (isOp_arith hm (by decide)) (hrun.trans (vecBcast_done hv hr hu hp))
    rw [Nat.mod_mod] at hlanes
    exact ⟨_, exec_vectorArithmetic n s, ⟨hlanes, hothers⟩, honly⟩
  · have hrun : vecArith n s i = vecMovx n s i := by simp [vecArith, sub_of_isOp hm]
    exact ⟨_, exec_vectorArithmetic n s, runIns_setCore h (isOp_arith hm (by decide)) (by decide) (hrun.trans (vecMovx_done hv hr hu hp)) (h.stands_setX ..)⟩
  · obtain ⟨hlanes, hothers, honly⟩ := lanes_done h hw hm (vecCvt_done hv hr hv' hr' hp hu)
    exact ⟨_, exec_cvt n s, ⟨hlanes, hothers⟩, honly⟩
  · have hdone := runIns_setCore (ctr := some Off.fcore_INSTR_VECTOR_LO) h hm (by decide) (vecReduce_done hv hr hp hu)
      (by rw [orF_setX]; exact h.stands_setX ..)
    rw [orF_setX] at hdone
    exact ⟨_, exec_redsum n s, hdone⟩
  · have hdone := runIns_setCore (ctr := some Off.fcore_INSTR_VECTOR_LO) h hm (by decide) (vecCompare_done hv hr hu hp) h.stands
    refine ⟨_, exec_vectorCompare n s, ?_⟩
    rw [hdone.1]
    exact ⟨fun l hl => bitOf_mr_putMask c i _ hl, fun q hq => mr_putMask_ne c i _ hq, hdone⟩

end Sys2Proof.Machine
end

section
/-! PROOF. Vector loads and stores (R145, R159 to R161). -/

namespace Sys2Proof.Machine

/-! ### Loads -/

/-- A register type is 32 or 64 bits wide: so is what an SRAM type widens to (R160). -/
theorem width_wideType (et : Nat) : Num.width (wideType et) = 32 ∨ Num.width (wideType et) = 64 := by
  unfold wideType
  split
  · exact Or.inl rfl
  · split
    · exact Or.inl rfl
    · split
      · exact width_reg ‹_›
      · exact Or.inl rfl

/-- Reads of clean lines leave the core as it is (Table 15.4). -/
theorem foldl_noteRead_clean {c : CoreSt} (at_ : Nat → Nat × Nat) (ls : List Nat) (h : ∀ l ∈ ls, c.anyPoison (at_ l).1 (at_ l).2 = false) :
    ls.foldl (fun d l => d.noteRead (at_ l).1 (at_ l).2) c = c := by
  induction ls with
  | nil => rfl
  | cons l ls ih =>
    rw [List.foldl_cons, noteRead_clean (h l (List.mem_cons_self ..))]
    exact ih fun x hx => h x (List.mem_cons_of_mem _ hx)

/-- What a core reads in lanes that a vector result has written. -/
theorem lanes_of_v {c d : CoreSt} {i : Ins} {w : Nat} {r : Nat → Nat} (hw : w = 32 ∨ w = 64)
    (hv : d.v = (c.putLanes i w i.dst ((List.range 64).map r)).v) :
    (∀ l, l < 64 → d.elem w i.dst l = if c.active i l then r l % 2 ^ w else if i.zm then 0 else c.elem w i.dst l) ∧
    (∀ q l, l < 64 → q ≠ i.dst → (w = 64 → q ≠ i.dst + 1) → d.vl q l = c.vl q l) := by
  have hvl : ∀ q l, d.vl q l = (c.putLanes i w i.dst ((List.range 64).map r)).vl q l := fun q l => by rw [CoreSt.vl, hv, CoreSt.vl]
  refine ⟨fun l hl => ?_, fun q l hl hq hq1 => (hvl q l).trans (vl_putLanes_ne c i w i.dst _ (by simp) q l hl hq hq1)⟩
  rw [← map_range_getD r l hl, ← elem_putLanes c i w i.dst hw _ (by simp) l hl]
  simp only [CoreSt.elem, hvl]

/-- An access that completes counts its extra cycles on its CARTER page (R147, R158). -/
theorem withConflict_done (s : State) {n : Nat} (hn : n < 96) (k : Nat) (c : CoreSt) :
    ∃ t, withConflict n k (.done (s.setCore n c)) = .done t ∧ CoreOnly s t n c := by
  have hset := coreOnly_setCore s n c
  have hb := bCarter_valid hn
  refine ⟨_, rfl, ?_⟩
  split
  · exact hset
  · have hcount := coreOnly_mapIo (s.setCore n c) n (f := fun io =>
        (io.count64 (bCarter n) Off.carter_BANK_CONFLICT_LO k).count64 (bCarter n) Off.carter_CYC_TOTAL_LO k)
      (((Io.onlyRegs_count64 _ hb (by rw [carter_page]; decide) k).trans (Io.onlyRegs_count64 _ hb (by rw [carter_page]; decide) k)).mono (by simp))
    rw [core_setCore_self] at hcount
    exact hset.trans hcount

/-- A vector memory access whose checks pass completes with the core that it computes. -/
theorem runIns_access {s : State} {n k : Nat} {i : Ins} {mine : Ins → Bool} {ctr : Option Nat} {f : State → Ins → Ran} {d : CoreSt}
    {checks : List (Bool × Nat)} (h : Issues s n i) (hm : mine i = true) (hctr : ∀ o ∈ ctr, o + 4 < 4096)
    (hf : f s i = guardExc checks (withConflict n k (.done (s.setCore n d)))) (hpass : ∀ e ∈ checks, e.1 = false) (hd : (s.core n).Stands d) :
    CoreOnly s (runIns s n mine ctr f) n { d with pc := (s.core n).pc + 8 } := by
  obtain ⟨t, hdone, honly⟩ := withConflict_done s h.1 k d
  exact runIns_done h hm hctr (hf.trans ((guard_clear _ _ hpass).trans hdone)) honly hd.1 hd.2.1 hd.2.2

/-- What lane `l` of a load gives, active or not (R160). -/
def loadedLane (c : CoreSt) (i : Ins) (form l : Nat) : Nat × Num.FFlags := if c.active i l then loadLane c i form l else (0, {})

/-- The core after a load of clean lines. -/
def afterLoad (c : CoreSt) (i : Ins) (form : Nat) : CoreSt :=
  (c.putLanes i (Num.width (wideType i.type)) i.dst ((List.range 64).map fun l => (loadedLane c i form l).1)).orF
    (((List.range 64).map (loadedLane c i form)).foldl (fun a e => Nat.lor a (flagBits e.2)) 0)

theorem vload_eq {s : State} {n form : Nat} {i : Ins}
    (hclean : ∀ l ∈ activeLanes (s.core n) i, (s.core n).anyPoison (laneSpan (s.core n) i form l).1 (laneSpan (s.core n) i form l).2 = false)
    (hscale : Num.isMx i.type = true → (s.core n).anyPoison ((s.core n).xr i.s3) 2 = false) :
    vload form n s i = guardExc (vmemExc s n (s.core n) i form false)
      (withConflict n (vmemConflict (s.core n) i form) (.done (s.setCore n (afterLoad (s.core n) i form)))) := by
  have hmx : (if Num.isMx i.type = true ∧ activeLanes (s.core n) i ≠ [] then (s.core n).noteRead ((s.core n).xr i.s3) 2 else s.core n) = s.core n := by
    split
    · exact noteRead_clean (hscale (by simp_all))
    · rfl
  rw [vload]
  simp only [foldl_noteRead_clean (laneSpan (s.core n) i form) _ hclean, hmx, List.map_map]
  rfl

theorem afterLoad_only (c : CoreSt) (i : Ins) (form : Nat) :
    afterLoad c i form = { c with v := (afterLoad c i form).v, fstat := (afterLoad c i form).fstat } := by
  unfold afterLoad
  rw [putLanes_only]
  rfl

/-- The instruction of a load, by its addressing form. -/
def loadRow (n : Nat) : Nat → Instr
  | 0 => .vld n
  | 1 => .vlds n
  | _ => .vldg n

theorem exec_loadRow (n : Nat) (s : State) {form : Nat} (hf : form < 3) :
    exec (loadRow n form) s = .next (runIns s n (isOp 0x0A [form]) (some Off.fcore_INSTR_VECTOR_LO) (vload form n)) := by
  match form, hf with
  | 0, _ => rfl
  | 1, _ => rfl
  | 2, _ => rfl

/-! ### Stores -/

/-- From `c` to `d` only SRAM, its poison and FSTAT may change. -/
def CoreSt.StoresOnly (c d : CoreSt) : Prop := d = { c with sram := d.sram, sramPoison := d.sramPoison, fstat := d.fstat }

section
variable {c d : CoreSt}

theorem CoreSt.storesOnly_refl (c : CoreSt) : c.StoresOnly c := rfl

theorem CoreSt.StoresOnly.store (h : c.StoresOnly d) (a : Nat) (bs : List Byte) (vst : Bool) : c.StoresOnly (d.store a bs vst) := by
  rw [StoresOnly, store_only, h]

theorem CoreSt.StoresOnly.orF (h : c.StoresOnly d) (f : Nat) : c.StoresOnly (d.orF f) := by
  rw [StoresOnly, CoreSt.orF, h]

theorem CoreSt.StoresOnly.clean (h : c.StoresOnly d) (m : SMap Bool) : c.StoresOnly { d with sramPoison := m } := by
  rw [StoresOnly, h]

theorem CoreSt.StoresOnly.stands (h : c.StoresOnly d) (hc : c.poisonAt = none) : c.Stands d := by
  rw [h]
  exact ⟨hc, rfl, rfl⟩

end

/-- A store leaves every byte outside it. -/
theorem byte_store_of_outside {c : CoreSt} {x a : Nat} {bs : List Byte} {vst : Bool} (h : ¬ (x ≤ a ∧ a < x + bs.length)) :
    (c.store x bs vst).bytes a 1 = c.bytes a 1 := by
  rw [bytes_one, bytes_one, sram_store, if_neg h]

theorem storeLanes_only (c : CoreSt) (ws : List (Nat × List Byte)) (vst : Bool) : c.StoresOnly (storeLanes c ws vst) := by
  have hstores : c.StoresOnly (ws.foldl (fun d e => d.store e.1 e.2 false) c) :=
    List.foldlRecOn ws _ c.storesOnly_refl fun d hd e _ => hd.store e.1 e.2 false
  unfold storeLanes
  split
  · exact hstores
  · refine List.foldlRecOn _ _ hstores fun d hd l _ => ?_
    split
    · exact hd.clean _
    · exact hd

theorem byte_storeLanes {c : CoreSt} {ws : List (Nat × List Byte)} {vst : Bool} {a : Nat} (h : ∀ e ∈ ws, ¬ (e.1 ≤ a ∧ a < e.1 + e.2.length)) :
    (storeLanes c ws vst).bytes a 1 = c.bytes a 1 := by
  have hstores : (ws.foldl (fun d e => d.store e.1 e.2 false) c).bytes a 1 = c.bytes a 1 :=
    List.foldlRecOn ws _ (motive := fun d : CoreSt => d.bytes a 1 = c.bytes a 1) rfl fun d hd e he => (byte_store_of_outside (h e he)).trans hd
  unfold storeLanes
  split
  · exact hstores
  · refine List.foldlRecOn _ _ (motive := fun d : CoreSt => d.bytes a 1 = c.bytes a 1) hstores fun d hd l _ => ?_
    split <;> exact hd

theorem vstoreMx_only (c : CoreSt) (i : Ins) : c.StoresOnly (vstoreMx c i) := by
  have hlanes : ∀ (g : CoreSt → Nat → List Byte),
      c.StoresOnly ((activeLanes c i).foldl (fun d l => d.store (laneSpan c i 0 l).1 (g d l) false) c) :=
    fun g => List.foldlRecOn _ _ c.storesOnly_refl fun d hd l _ => hd.store ..
  have hscales : ∀ {d : CoreSt}, c.StoresOnly d → c.StoresOnly ([0, 1].foldl (fun d h =>
      if (activeLanes c i).any (fun l => decide (l / 32 = h)) then d.store (c.xr i.s3 + h) (leBytes 1 ((mxStore c i).1.getD h 0)) false else d) d) :=
    fun hd => List.foldlRecOn _ _ hd fun d hd h _ => by
      split
      · exact hd.store ..
      · exact hd
  unfold vstoreMx
  dsimp only
  split
  · exact (hscales (hlanes _)).orF 32
  · exact hscales (hlanes _)

theorem byte_vstoreMx {c : CoreSt} {i : Ins} {a : Nat}
    (hl : ∀ l ∈ activeLanes c i, ¬ ((laneSpan c i 0 l).1 ≤ a ∧ a < (laneSpan c i 0 l).1 + (laneSpan c i 0 l).2))
    (hs : a ≠ c.xr i.s3 ∧ a ≠ c.xr i.s3 + 1) : (vstoreMx c i).bytes a 1 = c.bytes a 1 := by
  have hlanes : ∀ (v : CoreSt → Nat → Nat),
      ((activeLanes c i).foldl (fun d l => d.store (laneSpan c i 0 l).1 (leBytes (laneSpan c i 0 l).2 (v d l)) false) c).bytes a 1 = c.bytes a 1 :=
    fun v => List.foldlRecOn _ _ (motive := fun d : CoreSt => d.bytes a 1 = c.bytes a 1) rfl fun d hd l hmem =>
      (byte_store_of_outside (by rw [leBytes_length]; exact hl l hmem)).trans hd
  have hscales : ∀ {d : CoreSt}, d.bytes a 1 = c.bytes a 1 → ([0, 1].foldl (fun d h =>
      if (activeLanes c i).any (fun l => decide (l / 32 = h)) then d.store (c.xr i.s3 + h) (leBytes 1 ((mxStore c i).1.getD h 0)) false else d) d).bytes a 1
        = c.bytes a 1 :=
    fun hd => List.foldlRecOn _ _ (motive := fun d : CoreSt => d.bytes a 1 = c.bytes a 1) hd fun d hd h hmem => by
      split
      · refine (byte_store_of_outside ?_).trans hd
        rw [leBytes_length]
        simp only [List.mem_cons, List.not_mem_nil, or_false] at hmem
        omega
      · exact hd
  unfold vstoreMx
  dsimp only
  split
  · exact hscales (hlanes _)
  · exact hscales (hlanes _)

/-- The bytes that a store of whole elements writes, by active lane (R160). -/
def storedLanes (c : CoreSt) (i : Ins) (form : Nat) : List (Nat × List Byte) :=
  (activeLanes c i).map fun l =>
    (laneAddr c i form l, leBytes (elemBytes i.type) (if wideType i.type = i.type then c.elem (Num.width (wideType i.type)) i.dst l
      else (Num.convert (wideType i.type) i.type i.rm i.sat (c.elem (Num.width (wideType i.type)) i.dst l)).1))

/-- The core after a store, but for the flags that it raises. -/
def stored (c : CoreSt) (i : Ins) (form : Nat) : CoreSt := if Num.isMx i.type then vstoreMx c i else storeLanes c (storedLanes c i form) (form == 0)

theorem vstore_eq (s : State) (n form : Nat) (i : Ins) : ∃ flags, vstore form n s i = guardExc (vmemExc s n (s.core n) i form true)
    (withConflict n (vmemConflict (s.core n) i form) (.done (s.setCore n ((stored (s.core n) i form).orF flags)))) := by
  by_cases hmx : Num.isMx i.type = true
  · refine ⟨0, ?_⟩
    simp only [vstore, stored, hmx, if_true, orF_zero]
  · constructor
    simp only [vstore, stored, hmx, Bool.false_eq_true, if_false, List.map_map]
    simp only [storedLanes, Function.comp_def, apply_ite Prod.fst]
    rfl

theorem stored_only (c : CoreSt) (i : Ins) (form : Nat) : c.StoresOnly (stored c i form) := by
  unfold stored
  split
  · exact vstoreMx_only c i
  · exact storeLanes_only ..

/-- Elements of all but the MX types fill whole bytes (Table 3.1). -/
theorem width_mod_of_not_mx {et : Nat} (h : Num.isMx et = false) : Num.width et % 8 = 0 := by
  unfold Num.width
  split <;> simp_all [Num.isMx]

/-- An MX type is stored contiguously only (R160). -/
theorem contiguous_of_mx {s : State} {n form : Nat} {c : CoreSt} {i : Ins} {store : Bool} (h : ∀ e ∈ vmemExc s n c i form store, e.1 = false)
    (hmx : Num.isMx i.type = true) : form = 0 := by
  have hclass := h (!(!Num.isMx i.type || form == 0), Code.TYPE_CLASS) (by simp [vmemExc, typeExc])
  simpa [hmx] using hclass

theorem byte_stored {s : State} {n form : Nat} {c : CoreSt} {i : Ins} {a : Nat} (h : ∀ e ∈ vmemExc s n c i form true, e.1 = false)
    (hl : ∀ l ∈ activeLanes c i, ¬ ((laneSpan c i form l).1 ≤ a ∧ a < (laneSpan c i form l).1 + (laneSpan c i form l).2))
    (hs : Num.isMx i.type = true → a ≠ c.xr i.s3 ∧ a ≠ c.xr i.s3 + 1) : (stored c i form).bytes a 1 = c.bytes a 1 := by
  unfold stored
  split
  next hmx =>
    obtain rfl := contiguous_of_mx h hmx
    exact byte_vstoreMx hl (hs hmx)
  next hmx =>
    have hspan : ∀ l, laneSpan c i form l = (laneAddr c i form l, elemBytes i.type) := fun l =>
      if_pos (width_mod_of_not_mx (Bool.eq_false_iff.mpr hmx))
    refine byte_storeLanes fun e he => ?_
    obtain ⟨l, hmem, rfl⟩ := List.mem_map.mp he
    have hout := hl l hmem
    rw [hspan] at hout
    simpa only [leBytes_length] using hout

/-- The instruction of a store, by its addressing form. -/
def storeRow (n : Nat) : Nat → Instr
  | 0 => .vst n
  | 1 => .vsts n
  | _ => .vstg n

theorem exec_storeRow (n : Nat) (s : State) {form : Nat} (hf : form < 3) :
    exec (storeRow n form) s = .next (runIns s n (isOp 0x0A [form + 4]) (some Off.fcore_INSTR_VECTOR_LO) (vstore form n)) := by
  match form, hf with
  | 0, _ => rfl
  | 1, _ => rfl
  | 2, _ => rfl

/-- Settles O7: a load by the lanes that it writes, a store by the bytes that it leaves. -/
theorem vectorMemoryMovesItsActiveLanes : Obligations.VectorMemoryMovesItsActiveLanes := by
  intro s n i h form c et w
  refine ⟨fun hm hf hpass hclean hscale => ⟨_, exec_loadRow n s hf, ?_⟩, fun hm hf hpass => ⟨_, exec_storeRow n s hf, ?_⟩⟩
  · have hdone := runIns_access (ctr := some Off.fcore_INSTR_VECTOR_LO) h hm (by decide) (vload_eq hclean hscale) hpass
      (by rw [afterLoad_only]; exact ⟨h.clean, rfl, rfl⟩)
    rw [hdone.1]
    obtain ⟨hlanes, hothers⟩ := lanes_of_v (c := c) (d := { afterLoad c i form with pc := c.pc + 8 }) (i := i)
      (r := fun l => (loadedLane c i form l).1) (width_wideType et) rfl
    refine ⟨fun l hl => (hlanes l hl).trans ?_, hothers, ?_⟩
    · unfold loadedLane
      split <;> rfl
    · rw [afterLoad_only] at hdone
      exact hdone
  · obtain ⟨flags, hrun⟩ := vstore_eq s n form i
    have honly := (stored_only c i form).orF flags
    have hdone := runIns_access (ctr := some Off.fcore_INSTR_VECTOR_LO) h hm (by decide) hrun hpass (honly.stands h.clean)
    rw [hdone.1]
    refine ⟨rfl, fun a hl hs => byte_stored hpass hl hs, ?_⟩
    rw [honly] at hdone
    exact hdone

end Sys2Proof.Machine
end

section
/-! PROOF. VT.HASH by reference into the register of its references: it notes the lines that its results name (R163, Table 15.4). -/

namespace Sys2Proof.Machine

theorem exec_vtHash (n : Nat) (s : State) :
    exec (.vtHash n) s = .next (runIns s n (isOp 0x0C [0]) (some Off.fcore_INSTR_TABLE_LO) (vtHash n)) := rfl

/-- VT.HASH of lane 0 by the CRC of the bytes that V1 names, into V1. -/
def hashOverRefs : Ins := ⟨0x0C * 2 ^ 58 + 1 * 2 ^ 47 + 1 * 2 ^ 42 + 0x800011⟩

/-- Core 0 at that word: lane 0's reference is malformed, so that it reads no line, and line 0 of SRAM is poisoned. -/
def malformedRef : State := State.reset.setCore 0
  { run := .running, range := (0, 64), imem := (leBytes 8 hashOverRefs.w).zipIdx.map (fun e => (e.2, e.1)),
    m := [(0, 1)], v := [(64, 2 ^ 31)], sramPoison := [(0, true)] }

theorem issues_malformedRef : Issues malformedRef 0 hashOverRefs := by unfold Issues; decide +kernel

theorem hashExc_malformedRef : ∀ e ∈ hashExc (malformedRef.core 0) hashOverRefs, e.1 = false := by decide +kernel

theorem refs_malformedRef : ∀ l ∈ activeLanes (malformedRef.core 0) hashOverRefs,
    ∀ e ∈ keyRef ((malformedRef.core 0).vl hashOverRefs.s1 l) false, (malformedRef.core 0).anyPoison e.1 e.2 = false := by decide +kernel

/-- The lane's result is zero, which as a reference names line 0: the task becomes poisoned. -/
theorem poisoned_malformedRef :
    ((runIns malformedRef 0 (isOp 0x0C [0]) (some Off.fcore_INSTR_TABLE_LO) (vtHash 0)).core 0).poisoned = true ∧ (malformedRef.core 0).poisoned = false := by
  decide +kernel

/-- Refutes O8: VT.HASH by reference notes the poison of its keys after its results are written, through the references that then stand in V[SRC1].
With DST = SRC1 a lane whose reference is malformed gives zero, zero names line 0, and a poisoned line 0 poisons the task though no key lies in it. -/
theorem not_tableInstructionsFillTheirActiveLanes : ¬ Obligations.TableInstructionsFillTheirActiveLanes := by
  unfold Obligations.TableInstructionsFillTheirActiveLanes
  intro h
  obtain ⟨t, hexec, -, -, -, -, ⟨hcore, -⟩, -⟩ := (h malformedRef 0 hashOverRefs issues_malformedRef).1 (by decide)
    hashExc_malformedRef (fun _ => refs_malformedRef)
  obtain ⟨hafter, hbefore⟩ := poisoned_malformedRef
  rw [exec_vtHash] at hexec
  obtain rfl := Host.Outcome.next.inj hexec
  rw [hcore] at hafter
  exact absurd (hbefore.symm.trans hafter) (by decide)

end Sys2Proof.Machine
end

section
/-! PROOF. The select instructions (R167, R168). -/

namespace Sys2Proof.Machine

theorem exec_selTopk (n : Nat) (s : State) :
    exec (.selTopk n) s = .next (runIns s n (isOp 0x0D [0]) (some Off.fcore_INSTR_SELECT_LO) (selTopk n)) := rfl
theorem exec_selMerge (n : Nat) (s : State) :
    exec (.selMerge n) s = .next (runIns s n (isOp 0x0D [1]) (some Off.fcore_INSTR_SELECT_LO) (selMerge n)) := rfl

/-- Entry `j` of a selection, or the padding entry past its end. -/
def selEntry (et : Nat) (sel : List (Nat × Nat)) (j : Nat) : Nat × Nat := sel.getD j (padIdx, padCode et)

/-- The first `k` entries of a selection written to a pair of registers, value and index. -/
def putEntries (c : CoreSt) (et dst : Nat) (sel : List (Nat × Nat)) (k : Nat) : CoreSt :=
  (List.range k).foldl (fun d j => (d.setVl dst j (outVal et (selEntry et sel j).2)).setVl (dst + 1) j (selEntry et sel j).1) c

theorem putSelect_eq (c : CoreSt) (et k dst : Nat) (sel : List (Nat × Nat)) (tie nan : Nat) (dup : Bool) :
    putSelect c et k dst sel tie nan dup =
      { putEntries c et dst sel k with selstat := sel.length + 2 ^ 8 * tie + 2 ^ 16 * nan + 2 ^ 24 * b2n dup } := rfl

section
variable (c : CoreSt) (et dst : Nat) (sel : List (Nat × Nat)) (k : Nat)

theorem putEntries_succ : putEntries c et dst sel (k + 1) =
    ((putEntries c et dst sel k).setVl dst k (outVal et (selEntry et sel k).2)).setVl (dst + 1) k (selEntry et sel k).1 := by
  rw [putEntries, List.range_succ, List.foldl_append]
  rfl

theorem putEntries_only : putEntries c et dst sel k = { c with v := (putEntries c et dst sel k).v } := by
  induction k with
  | zero => rfl
  | succ k ih =>
    rw [putEntries_succ, ih]
    rfl

/-- Lane `j` after `k` entries are written: the value in one register, the index in the next, and every other lane as it was. -/
theorem vl_putEntries (hk : k ≤ 64) (q : Nat) {j : Nat} (hj : j < 64) : (putEntries c et dst sel k).vl q j =
    if j < k ∧ q = dst then outVal et (selEntry et sel j).2 % 2 ^ 32
    else if j < k ∧ q = dst + 1 then (selEntry et sel j).1 % 2 ^ 32 else c.vl q j := by
  induction k with
  | zero => simp [putEntries]
  | succ k ih =>
    rw [putEntries_succ, vl_setVl _ _ _ _ _ _ (by omega) hj, vl_setVl _ _ _ _ _ _ (by omega) hj, ih (by omega)]
    obtain hlt | rfl | hgt := lt_trichotomy j k
    · simp [hlt, hlt.ne, Nat.lt_succ_of_lt hlt]
    · by_cases hq : q = dst + 1 <;> simp [hq]
    · simp [hgt.ne', not_lt.mpr hgt.le, not_lt.mpr (Nat.succ_le_of_lt hgt)]

end

/-- The count of a select is at most 64 (R167). -/
theorem selCount_le {i : Ins} {regs : List Nat} (h : ∀ e ∈ selExc i regs, e.1 = false) : bitsOf i.w 6 0 ≤ 64 := by
  have hcount := h _ (List.mem_append_left _ (List.mem_append_left _ (List.mem_singleton_self _)))
  simp only [Bool.or_eq_false_iff, decide_eq_false_iff_not, not_lt] at hcount
  exact hcount.2

/-- A select completes with its entries in the pair of registers and its counts in SELSTAT. -/
theorem runIns_select {s : State} {n : Nat} {i : Ins} {mine : Ins → Bool} {f : State → Ins → Ran} {sel : List (Nat × Nat)} {tie nan : Nat} {dup : Bool}
    {regs : List Nat} (h : Issues s n i) (hm : mine i = true) (hpass : ∀ e ∈ selExc i regs, e.1 = false)
    (hf : f s i = guardExc (selExc i regs) (.done (s.setCore n (putSelect (s.core n) i.type (bitsOf i.w 6 0) i.dst sel tie nan dup)))) :
    let t := runIns s n mine (some Off.fcore_INSTR_SELECT_LO) f
    let k := bitsOf i.w 6 0
    let c := s.core n
    ((∀ j, j < 64 → (t.core n).vl i.dst j = if j < k then outVal i.type (selEntry i.type sel j).2 % 2 ^ 32 else c.vl i.dst j) ∧
      (∀ j, j < 64 → (t.core n).vl (i.dst + 1) j = if j < k then (selEntry i.type sel j).1 % 2 ^ 32 else c.vl (i.dst + 1) j) ∧
      (∀ q j, j < 64 → q ≠ i.dst → q ≠ i.dst + 1 → (t.core n).vl q j = c.vl q j)) ∧
    CoreOnly s t n { c with v := (t.core n).v, selstat := sel.length + 2 ^ 8 * tie + 2 ^ 16 * nan + 2 ^ 24 * b2n dup, pc := c.pc + 8 } := by
  intro t k c
  have hk : k ≤ 64 := selCount_le hpass
  have honly := putEntries_only c i.type i.dst sel k
  have hdone : CoreOnly s t n { putSelect c i.type k i.dst sel tie nan dup with pc := c.pc + 8 } :=
    runIns_setCore h hm (by decide) (hf.trans (guard_clear _ _ hpass)) (by rw [putSelect_eq, honly]; exact ⟨h.clean, rfl, rfl⟩)
  have hvl : ∀ q {j}, j < 64 → (t.core n).vl q j = _ := fun q j hj => (congrArg (CoreSt.vl · q j) hdone.1).trans (vl_putEntries c i.type i.dst sel k hk q hj)
  refine ⟨⟨fun j hj => ?_, fun j hj => ?_, fun q j hj hq hq1 => ?_⟩, ?_⟩
  · simp [hvl _ hj]
  · simp [hvl _ hj]
  · simp [hvl _ hj, hq, hq1]
  · rw [putSelect_eq, honly] at hdone
    rw [hdone.1]
    exact hdone

/-- Settles O9: both rows select by the shared completion; TOPK counts no difference, MERGE adds its bit. -/
theorem selectInstructionsKeepTheBestOfTheirCandidates : Obligations.SelectInstructionsKeepTheBestOfTheirCandidates := by
  intro s n i h c k put
  refine ⟨fun hm hpass => ?_, fun hm hpass => ?_⟩
  · intro p
    obtain ⟨hput, honly⟩ := runIns_select (f := selTopk n) (sel := p.entries) (tie := p.tie) (nan := p.nan) (dup := false) h hm hpass rfl
    exact ⟨_, exec_selTopk n s, hput, honly⟩
  · intro cs m sel
    have hcs : ((activeLanes c i).map (fun l => (c.vl (i.s1 + 1) l, c.vl i.s1 l)) ++
        (activeLanes c i).map (fun l => (c.vl (i.s2 + 1) l, c.vl i.s2 l))).filter (fun e => e.1 ≠ padIdx) = cs := by
      simp only [cs, List.flatMap_cons, List.flatMap_nil, List.append_nil]
      rfl
    obtain ⟨hput, honly⟩ := runIns_select (f := selMerge n) (sel := sel) (tie := selTies i.type k m.1 sel) (nan := (cs.filter fun e => codeNaN i.type e.2).length)
      (dup := decide (0 < m.2.2)) h hm hpass (by rw [selMerge]; dsimp only; rw [hcs])
    refine ⟨_, exec_selMerge n s, hput, by rw [honly.1]; exact honly, ?_⟩
    rw [honly.1]
    by_cases hd : 0 < m.2.2 <;> simp [b2n, hd]

end Sys2Proof.Machine
end

section
/-! PROOF. The matrix instructions, and the execution of the oldest product (R169 to R172, R301, R305). -/

namespace Sys2Proof.Machine

theorem exec_mxMma (n : Nat) (s : State) :
    exec (.mxMma n) s = .next (runIns s n (isOp 0x10 [0]) (some Off.fcore_INSTR_MATRIX_LO) (mxMma n)) := rfl
theorem exec_mxZero (n : Nat) (s : State) :
    exec (.mxZero n) s = .next (runIns s n (isOp 0x10 [1]) (some Off.fcore_INSTR_MATRIX_LO) (mxZero n)) := rfl
theorem exec_mxLoadacc (n : Nat) (s : State) :
    exec (.mxLoadacc n) s = .next (runIns s n (isOp 0x10 [2]) (some Off.fcore_INSTR_MATRIX_LO) (mxLoadacc n)) := rfl
theorem exec_mxStoreacc (n : Nat) (s : State) :
    exec (.mxStoreacc n) s = .next (runIns s n (isOp 0x10 [3]) (some Off.fcore_INSTR_MATRIX_LO) (mxStoreacc n)) := rfl

/-! ### Accumulators -/

theorem CoreOnly.of_eq {s t : State} {n : Nat} {c d : CoreSt} (h : CoreOnly s t n c) (hc : c = d) : CoreOnly s t n d := hc ▸ h

/-- A matrix instruction that nothing holds up proceeds (R170). -/
theorem mxRun_free {s : State} {c : CoreSt} {a : Nat} (h : mxWaits c a = false) (r : Ran) : mxRun s c a r = r := by
  rw [mxRun, h]
  rfl

theorem accAt_of_a {c d : CoreSt} (h : c.a = d.a) (q j k : Nat) : accAt c q j k = accAt d q j k := by rw [accAt, h, accAt]

/-- A core with one accumulator written: the accumulators only have changed, and of them that one. -/
theorem putAcc_writes (c : CoreSt) (a : Nat) (f : Nat → Nat → Nat) : ∃ d, putAcc c a f = d ∧ d = { c with a := d.a } ∧
    ∀ q j k, j < 64 → k < 32 → accAt d q j k = if q = a then f j k else accAt c q j k :=
  ⟨_, rfl, putAcc_only c a f, fun q j k hj hk => accAt_putAcc c a q j k f hj hk⟩

/-- An instruction that writes one accumulator completes with its elements, and with the other accumulators as they were. -/
theorem runIns_putAcc {s : State} {n a : Nat} {i : Ins} {mine : Ins → Bool} {ctr : Option Nat} {f : State → Ins → Ran} {g : Nat → Nat → Nat}
    (h : Issues s n i) (hm : mine i = true) (hctr : ∀ o ∈ ctr, o + 4 < 4096) (hf : f s i = .done (s.setCore n (putAcc (s.core n) a g))) :
    let t := runIns s n mine ctr f
    (∀ j k, j < 64 → k < 32 → accAt (t.core n) a j k = g j k) ∧
    (∀ q j k, j < 64 → k < 32 → q ≠ a → accAt (t.core n) q j k = accAt (s.core n) q j k) ∧
    CoreOnly s t n { s.core n with a := (t.core n).a, pc := (s.core n).pc + 8 } := by
  intro t
  obtain ⟨d, hput, honly, hacc⟩ := putAcc_writes (s.core n) a g
  rw [hput] at hf
  have hdone : CoreOnly s t n { d with pc := (s.core n).pc + 8 } := runIns_setCore h hm hctr hf (by rw [honly]; exact ⟨h.clean, rfl, rfl⟩)
  have ht : ∀ q j k, accAt (t.core n) q j k = accAt d q j k := accAt_of_a (by rw [hdone.1])
  refine ⟨fun j k hj hk => ?_, fun q j k hj hk hq => ?_, ?_⟩
  · rw [ht, hacc a j k hj hk, if_pos rfl]
  · rw [ht, hacc q j k hj hk, if_neg hq]
  · rw [hdone.1]
    rw [honly] at hdone
    exact hdone

section
variable {s : State} {n : Nat} {i : Ins} (hw : mxWaits (s.core n) i.dst = false)
include hw

theorem mxMma_done (hpass : ∀ e ∈ mmaExc (s.core n) i, e.1 = false) :
    mxMma n s i = .done (s.setCore n { s.core n with mmas := (s.core n).mmas ++ [mmaOf (s.core n) i] }) := by
  rw [mxMma, mxRun_free hw]
  exact guard_clear _ _ hpass

theorem mxZero_done (hu : i.onlyUses [fDst] = true) (hd : i.dst ≤ 3) : mxZero n s i = .done (s.setCore n (putAcc (s.core n) i.dst fun _ _ => 0)) := by
  rw [mxZero, mxRun_free hw]
  exact guard_clear _ _ (by simp [hu, hd])

theorem mxLoadacc_done (hu : i.onlyUses [fDst, fS1] = true) (hd : i.dst ≤ 3) (hin : (s.core n).xr i.s1 + 8192 ≤ 0x400000)
    (hal : (s.core n).xr i.s1 % 4 = 0) (hp : (s.core n).anyPoison ((s.core n).xr i.s1) 8192 = false) :
    mxLoadacc n s i = .done (s.setCore n (putAcc (s.core n) i.dst fun j k => (s.core n).num ((s.core n).xr i.s1 + 128 * j + 4 * k) 4)) := by
  obtain ⟨d, hput, honly, -⟩ := putAcc_writes (s.core n) i.dst fun j k => (s.core n).num ((s.core n).xr i.s1 + 128 * j + 4 * k) 4
  rw [mxLoadacc, mxRun_free hw, hput, noteRead_clean (by rw [honly]; exact hp)]
  exact guard_clear _ _ (by simp [hu, hd, hin, hal])

theorem mxStoreacc_done (hpass : ∀ e ∈ storeaccExc s n i, e.1 = false) : mxStoreacc n s i = .done (s.setCore n (accStored (s.core n) i)) := by
  rw [mxStoreacc, mxRun_free hw]
  exact guard_clear _ _ hpass

end

/-! ### Stored rows -/

/-- One row of an accumulator stored at the pitch, with its scale byte for an MX type (R172). -/
def rowStored (c : CoreSt) (i : Ins) (d : CoreSt) (r : Nat) : CoreSt :=
  let d := (d.store (c.xr i.s1 + c.xr i.s2 * r) (accRow c i r).1 false).orF (accRow c i r).2.2
  if Num.isMx i.type then d.store (c.xr i.s3 + r) (leBytes 1 (accRow c i r).2.1) false else d

theorem accStored_eq (c : CoreSt) (i : Ins) : accStored c i = (List.range 64).foldl (rowStored c i) c := by
  have hzip : ((List.range 64).map (accRow c i)).zipIdx = (List.range 64).map fun r => (accRow c i r, r) := by
    refine List.ext_getElem (by simp) fun k _ _ => ?_
    simp
  rw [accStored, hzip, List.foldl_map]
  rfl

theorem accStored_only (c : CoreSt) (i : Ins) : c.StoresOnly (accStored c i) := by
  rw [accStored_eq]
  refine List.foldlRecOn _ _ c.storesOnly_refl fun d hd r _ => ?_
  unfold rowStored
  dsimp only
  split
  · exact ((hd.store ..).orF _).store ..
  · exact (hd.store ..).orF _

/-- A row has 32 elements of the type's width. -/
theorem accRow_length (c : CoreSt) (i : Ins) (r : Nat) : (accRow c i r).1.length = 4 * Num.width i.type := by
  unfold accRow
  dsimp only
  split
  next => exact leBytes_length ..
  next hmx =>
    have := width_mod_of_not_mx (Bool.eq_false_iff.mpr hmx)
    simp only [List.length_flatMap, leBytes_length, List.map_const', List.sum_replicate, List.length_map, List.length_range, smul_eq_mul]
    omega

theorem byte_accStored {c : CoreSt} {i : Ins} {a : Nat}
    (hrows : ∀ r, r < 64 → ¬ (c.xr i.s1 + c.xr i.s2 * r ≤ a ∧ a < c.xr i.s1 + c.xr i.s2 * r + 4 * Num.width i.type))
    (hscale : Num.isMx i.type = true → ¬ (c.xr i.s3 ≤ a ∧ a < c.xr i.s3 + 64)) : (accStored c i).bytes a 1 = c.bytes a 1 := by
  rw [accStored_eq]
  refine List.foldlRecOn _ _ (motive := fun d : CoreSt => d.bytes a 1 = c.bytes a 1) rfl fun d hd r hr => ?_
  have hr : r < 64 := List.mem_range.mp hr
  have hrow : ((d.store (c.xr i.s1 + c.xr i.s2 * r) (accRow c i r).1 false).orF (accRow c i r).2.2).bytes a 1 = c.bytes a 1 :=
    (byte_store_of_outside (vst := false) (by rw [accRow_length]; exact hrows r hr)).trans hd
  unfold rowStored
  dsimp only
  split
  next hmx =>
    have hout := hscale hmx
    exact (byte_store_of_outside (by rw [leBytes_length]; omega)).trans hrow
  next => exact hrow

/-- Where the rows lie apart, each byte of a stored row is the converted row's. -/
theorem byte_rowsStored {c : CoreSt} {i : Ins} (hmx : Num.isMx i.type = false) (hpitch : 4 * Num.width i.type ≤ c.xr i.s2) {r b : Nat}
    (hb : b < 4 * Num.width i.type) (m : Nat) : ((List.range m).foldl (rowStored c i) c).bytes (c.xr i.s1 + c.xr i.s2 * r + b) 1 =
      if r < m then [(accRow c i r).1.getD b 0] else c.bytes (c.xr i.s1 + c.xr i.s2 * r + b) 1 := by
  induction m with
  | zero => rfl
  | succ m ih =>
    rw [List.range_succ, List.foldl_append, List.foldl_cons, List.foldl_nil]
    generalize (List.range m).foldl (rowStored c i) c = d at ih
    have hrow : rowStored c i d m = (d.store (c.xr i.s1 + c.xr i.s2 * m) (accRow c i m).1 false).orF (accRow c i m).2.2 := by
      rw [rowStored, if_neg (by simp [hmx])]
    have hstore : (rowStored c i d m).bytes (c.xr i.s1 + c.xr i.s2 * r + b) 1 =
        (d.store (c.xr i.s1 + c.xr i.s2 * m) (accRow c i m).1 false).bytes (c.xr i.s1 + c.xr i.s2 * r + b) 1 := by rw [hrow]; rfl
    rw [hstore]
    obtain hlt | rfl | hgt := lt_trichotomy r m
    · have hmul : c.xr i.s2 * (r + 1) ≤ c.xr i.s2 * m := Nat.mul_le_mul_left _ hlt
      rw [mul_add_one] at hmul
      rw [byte_store_of_outside (by omega), ih, if_pos hlt, if_pos (by omega)]
    · rw [bytes_one, sram_store, accRow_length, if_pos (by omega), if_pos (by omega), Nat.add_sub_cancel_left]
    · have hmul : c.xr i.s2 * (m + 1) ≤ c.xr i.s2 * r := Nat.mul_le_mul_left _ hgt
      rw [mul_add_one] at hmul
      rw [byte_store_of_outside (by rw [accRow_length]; omega), ih, if_neg (by omega), if_neg (by omega)]

theorem byte_accStored_row {c : CoreSt} {i : Ins} (hmx : Num.isMx i.type = false) (hpitch : 4 * Num.width i.type ≤ c.xr i.s2) {r b : Nat}
    (hr : r < 64) (hb : b < 4 * Num.width i.type) :
    (accStored c i).bytes (c.xr i.s1 + c.xr i.s2 * r + b) 1 = [(accRow c i r).1.getD b 0] := by
  rw [accStored_eq, byte_rowsStored hmx hpitch hb 64, if_pos hr]

/-- Settles O10: the queue, the accumulator that is cleared or loaded, and the bytes that a store writes and leaves. -/
theorem matrixInstructionsReadAndWriteTheAccumulators : Obligations.MatrixInstructionsReadAndWriteTheAccumulators := by
  intro s n i h hw c others len
  refine ⟨fun hm hpass => ⟨_, exec_mxMma n s, ?_⟩, fun hm hu hd => ⟨_, exec_mxZero n s, ?_⟩,
    fun hm hu hd hin hal hp => ⟨_, exec_mxLoadacc n s, ?_⟩, fun hm hpass => ⟨_, exec_mxStoreacc n s, ?_⟩⟩
  · exact runIns_setCore h hm (by decide) (mxMma_done hw hpass) ⟨h.clean, rfl, rfl⟩
  · exact runIns_putAcc h hm (by decide) (mxZero_done hw hu hd)
  · exact runIns_putAcc h hm (by decide) (mxLoadacc_done hw hu hd hin hal hp)
  · obtain ⟨d, hd⟩ : ∃ d, d = accStored c i := ⟨_, rfl⟩
    have honly : c.StoresOnly d := hd ▸ accStored_only c i
    have hdone := runIns_setCore (ctr := some Off.fcore_INSTR_MATRIX_LO) h hm (by decide) (hd ▸ mxStoreacc_done hw hpass) (honly.stands h.clean)
    rw [hdone.1]
    refine ⟨fun a hrows hscale => ?_, fun hmx hpitch r b hr hb => ?_, hdone.of_eq ?_⟩
    · exact (congrArg (CoreSt.bytes · a 1) hd).trans (byte_accStored hrows hscale)
    · rw [accRow_length] at hb
      exact (congrArg (CoreSt.bytes · _ 1) hd).trans (byte_accStored_row hmx hpitch hr hb)
    · rw [honly]

/-! ### Executing the oldest product -/

/-- The core after its oldest product is executed, or dropped with its task (R179, R301). -/
def afterProduct (c : CoreSt) (m : Mma) (rest : List Mma) : CoreSt :=
  if m.drop then { c with mmas := rest }
  else ((putAcc { c with mmas := rest } m.acc fun j k => m.element c j k (if m.clear then 0 else accAt c m.acc j k)).noteRead m.aOff m.aBytes).noteRead
    m.wOff (m.wBytes c)

theorem mmaExecute_eq {s : State} {n : Nat} {m : Mma} {rest : List Mma} {d : CoreSt} (hq : (s.core n).mmas = m :: rest)
    (hd : d = afterProduct (s.core n) m rest) (hp : d.poisonAt = none) : exec (.mmaExecute n) s =
      .next ((s.setCore n d).mapIo fun io => io.count64 (bCore n) Off.fcore_MAC_CYCLES_LO (m.cycles (s.core n))) := by
  have hclean : notePoison (s.setCore n d) n = s.setCore n d := notePoison_none (by rw [core_setCore_self, hp])
  rw [← hclean, hd]
  change execMmaExecute n s = _
  rw [execMmaExecute, hq]
  rfl

theorem coreOnly_macCycles (s : State) {n : Nat} (hn : n < 96) (d : CoreSt) (k : Nat) :
    CoreOnly s ((s.setCore n d).mapIo fun io => io.count64 (bCore n) Off.fcore_MAC_CYCLES_LO k) n d := by
  have hp : 4096 * (catRow (bCore n).kind).pages = 4096 := by simp [bCore, catRow, catalogue]
  have hcount := coreOnly_mapIo (s.setCore n d) n (f := fun io => io.count64 (bCore n) Off.fcore_MAC_CYCLES_LO k)
    ((Io.onlyRegs_count64 _ (bCore_valid hn) (by rw [hp]; decide) k).mono (by simp))
  rw [core_setCore_self] at hcount
  exact (coreOnly_setCore s n d).trans hcount

/-- Settles O11: a product of a running task writes its accumulator, a dropped one only leaves the queue. -/
theorem mmaExecuteAccumulatesTheOldestProduct : Obligations.MmaExecuteAccumulatesTheOldestProduct := by
  intro s n m rest hn hq hclean c
  refine ⟨fun hdrop ha hw => ?_, fun hdrop => ?_⟩
  · obtain ⟨d, hput, honly, hacc⟩ := putAcc_writes { c with mmas := rest } m.acc fun j k => m.element c j k (if m.clear then 0 else accAt c m.acc j k)
    have hread : ∀ {x len}, c.anyPoison x len = false → d.noteRead x len = d := fun hp => noteRead_clean (by rw [honly]; exact hp)
    have hd : d = afterProduct c m rest := by
      rw [afterProduct, hdrop, if_neg Bool.false_ne_true, hput, hread ha, hread hw]
    have hdone := coreOnly_macCycles s hn d (m.cycles c)
    refine ⟨_, mmaExecute_eq hq hd (by rw [honly]; exact hclean), ?_⟩
    rw [hdone.1]
    refine ⟨fun j k hj hk => ?_, fun q j k hq hj hk => ?_, ?_, rfl⟩
    · rw [hacc m.acc j k hj hk, if_pos rfl]
    · rw [hacc q j k hj hk, if_neg hq]
      rfl
    · exact hdone.of_eq honly
  · have hd : { c with mmas := rest } = afterProduct c m rest := by rw [afterProduct, hdrop, if_pos rfl]
    exact ⟨_, mmaExecute_eq hq hd hclean, coreOnly_macCycles s hn _ _⟩

end Sys2Proof.Machine
end

section
/-! PROOF. Core exceptions: what raises them, and their record (R148, R150, R183, R346). -/

namespace Sys2Proof.Machine

theorem exec_illegalInstr (n : Nat) (s : State) : exec (.illegalInstr n) s = execIllegalInstr n s := rfl
theorem exec_taskOverrun (n : Nat) (s : State) : exec (.taskOverrun n) s = execTaskOverrun n s := rfl

/-! ### Causes -/

theorem fetch_of_not_inRange {c : CoreSt} (h : c.inRange c.pc = false) : c.fetch = none := by
  rw [CoreSt.fetch, if_neg]
  rintro ⟨hal, hlo, hhi⟩
  simp [CoreSt.inRange, hal, hlo, hhi] at h

section
variable {s : State} {n : Nat}

theorem illegalInstr_raises {code : Nat} (hr : (s.core n).runs = true) (hf : fetchExc (s.core n) = some code) :
    exec (.illegalInstr n) s = .next (raiseExc s n code) := by
  simp only [exec_illegalInstr, execIllegalInstr, hr, hf, Bool.not_true, Bool.false_eq_true, if_false]

theorem fetchExc_badPc (h : (s.core n).inRange (s.core n).pc = false) : fetchExc (s.core n) = some Code.BAD_PC := by
  rw [fetchExc, fetch_of_not_inRange h]

theorem fetchExc_reserved {i : Ins} (hf : (s.core n).fetch = some i) (hk : knownOp i.major i.sub = false) :
    fetchExc (s.core n) = some Code.ILLEGAL_INSTR := by
  simp only [fetchExc, hf, hk, Bool.false_eq_true, if_false]

theorem taskOverrun_raises {k : Task} (ht : (s.core n).task = some k) (h0 : (tmplOf s k.die k.tmpl).budget ≠ 0)
    (hover : (tmplOf s k.die k.tmpl).budget * 1024 ≤ cyclesOf (s.io.tb - (s.core n).startAt)) :
    exec (.taskOverrun n) s = .next (raiseExc s n Code.TASK_OVERRUN) := by
  simp only [exec_taskOverrun, execTaskOverrun, ht]
  exact if_pos ⟨h0, hover⟩

end

/-! ### The record -/

theorem core_page (n : Nat) : 4096 * (catRow (bCore n).kind).pages = 4096 := by simp [bCore, catRow, catalogue]

/-- The registers after an exception is recorded: the FCORE registers, ERR_CAPT and the event (R183). -/
def recordExc (n pc code : Nat) (ctx : Option Nat) (io : Io) : Io :=
  ((((io.setReg64 ((bCore n).base + Off.fcore_EXC_PC_LO) pc).setReg ((bCore n).base + Off.fcore_EXC_VALID) (2 ^ 31 + code)).count (bCore n)
    Off.fcore_EXC_COUNT 1).capture (bCore n) code pc ctx).rise (bCore n) 2 ctx

section
variable (n pc code : Nat) (ctx : Option Nat) (io : Io)

/-- The context slot of the task on a core. -/
def excSlot (s : State) (n : Nat) : Option Nat := (s.core n).task.bind (fun t => (s.ctx? t.ctx).bind (fun x => x.slot))

theorem onlyEvents_recordExc (hn : n < 96) : Io.OnlyEvents [bCore n] io (recordExc n pc code ctx io) := by
  have hb := bCore_valid hn
  have hp := core_page n
  have hregs := (Io.onlyRegs_setReg64 io hb (o := Off.fcore_EXC_PC_LO) (by rw [hp]; decide) pc).trans
    ((Io.onlyRegs_setReg _ hb (o := Off.fcore_EXC_VALID) (by rw [hp]; decide) (2 ^ 31 + code)).trans
      (Io.onlyRegs_count _ hb (o := Off.fcore_EXC_COUNT) (by rw [hp]; decide) 1))
  exact hregs.events.trans ((Io.onlyEvents_capture _ hb code pc ctx).trans (Io.onlyEvents_rise _ hb 2 ctx))

/-- Error capture and the event leave the registers past the header, and those of the header's control. -/
theorem reg_captureRise (b : Block) {o : Nat} (ho : o < 0x1000) (hfree : o ≠ 0x010 ∧ o ≠ 0x01C ∧ o ≠ 0x020 ∧ o ≠ 0x024 ∧ o ≠ 0x028 ∧ o ≠ 0x060) :
    ((io.capture b code pc ctx).rise b 2 ctx).reg (b.base + o) = io.reg (b.base + o) := by
  obtain ⟨h10, h1C, h20, h24, h28, h60⟩ := hfree
  have hm := base_add_mod b ho
  have hl : (b.base + o) % 0x1000 ≠ Off.evtq_SRC_LOST := by rwa [hm]
  have hs : (b.base + o) % 0x1000 ≠ 0x010 := by rwa [hm]
  have hat : ∀ {x : Nat}, x < 0x1000 → o ≠ x → (b.base + o) % 0x1000 ≠ (b.base + x) % 0x1000 := fun hx hne => by rwa [hm, base_add_mod b hx]
  rw [Io.rise, Io.reg_riseWith _ _ _ _ hs hl, Io.reg_capture_of_mod _ _ _ _ _ (by rwa [hm]), Io.captured]
  split
  · exact Io.reg_setReg_of_mod _ _ (hat (by decide) h1C)
  · rw [Io.riseNamed, Io.reg_riseWith _ _ _ _ hs hl, Io.reg_setReg64_of_mod _ _ (hat (by decide) h20) (by rw [Nat.add_assoc]; exact hat (by decide) h24),
      Io.reg_setReg_of_mod _ _ (hat (by decide) h1C)]

theorem excPc_recordExc : (recordExc n pc code ctx io).reg64 ((bCore n).base + Off.fcore_EXC_PC_LO) = pc % 2 ^ 64 := by
  have hkeep : ∀ o, o = 0x50 ∨ o = 0x54 → (recordExc n pc code ctx io).reg ((bCore n).base + o) =
      (io.setReg64 ((bCore n).base + Off.fcore_EXC_PC_LO) pc).reg ((bCore n).base + o) := fun o ho => by
    have hm := base_add_mod (bCore n) (o := o) (by omega)
    rw [recordExc, reg_captureRise _ _ _ _ _ (by omega) (by omega),
      Io.reg_count_of_mod _ _ _ (by rw [hm, base_add_mod _ (by decide)]; simp only [Off.fcore_EXC_COUNT]; omega),
      Io.reg_setReg_of_mod _ _ (by rw [hm, base_add_mod _ (by decide)]; simp only [Off.fcore_EXC_VALID]; omega)]
  rw [Io.reg64_congr (hkeep 0x50 (Or.inl rfl)) (hkeep 0x54 (Or.inr rfl)), Io.reg64_setReg64]
  exact normOff_ne_of_mod (by rw [Nat.add_assoc, base_add_mod _ (by decide), base_add_mod _ (by decide)]; decide)

theorem excCode_recordExc (hc : code < 2 ^ 16) : (recordExc n pc code ctx io).br (bCore n) Off.fcore_EXC_VALID = 2 ^ 31 + code := by
  rw [Io.br, recordExc, reg_captureRise _ _ _ _ _ (by decide) (by decide),
    Io.reg_count_of_mod _ _ _ (by rw [base_add_mod _ (by decide), base_add_mod _ (by decide)]; decide), Io.reg_setReg_self]
  omega

/-- FCORE's control register is not written by the record. -/
theorem control_recordExc : (recordExc n pc code ctx io).reg ((bCore n).base + 0x008) = io.reg ((bCore n).base + 0x008) := by
  have hm := base_add_mod (bCore n) (o := 0x008) (by decide)
  rw [recordExc, reg_captureRise _ _ _ _ _ (by decide) (by decide),
    Io.reg_count_of_mod _ _ _ (by rw [hm, base_add_mod _ (by decide)]; decide),
    Io.reg_setReg_of_mod _ _ (by rw [hm, base_add_mod _ (by decide)]; decide),
    Io.reg_setReg64_of_mod _ _ (by rw [hm, base_add_mod _ (by decide)]; decide) (by rw [hm, Nat.add_assoc, base_add_mod _ (by decide)]; decide)]

theorem frozen_congr {x y : Io} {m : Nat} (h : x.reg ((bCore m).base + 0x008) = y.reg ((bCore m).base + 0x008)) :
    x.frozen (bCore m) = y.frozen (bCore m) := by
  simp only [Io.frozen, bCore]
  exact congrArg (fun v => decide (v = 1)) (Io.bf_congr h 10 10)

theorem excCount_recordExc (hf : io.frozen (bCore n) = false) : (recordExc n pc code ctx io).br (bCore n) Off.fcore_EXC_COUNT =
    min 0xFFFFFFFF (io.br (bCore n) Off.fcore_EXC_COUNT + 1) := by
  have hother : ∀ o, o = 0x008 ∨ o = Off.fcore_EXC_COUNT → ((io.setReg64 ((bCore n).base + Off.fcore_EXC_PC_LO) pc).setReg ((bCore n).base + Off.fcore_EXC_VALID)
      (2 ^ 31 + code)).reg ((bCore n).base + o) = io.reg ((bCore n).base + o) := fun o ho => by
    simp only [Off.fcore_EXC_COUNT] at ho
    have hm := base_add_mod (bCore n) (o := o) (by omega)
    rw [Io.reg_setReg_of_mod _ _ (by rw [hm, base_add_mod _ (by decide)]; simp only [Off.fcore_EXC_VALID]; omega),
      Io.reg_setReg64_of_mod _ _ (by rw [hm, base_add_mod _ (by decide)]; simp only [Off.fcore_EXC_PC_LO]; omega)
        (by rw [hm, Nat.add_assoc, base_add_mod _ (by decide)]; simp only [Off.fcore_EXC_PC_LO]; omega)]
  rw [Io.br, recordExc, reg_captureRise _ _ _ _ _ (by decide) (by decide), Io.count, frozen_congr (hother _ (Or.inl rfl)), hf,
    if_neg Bool.false_ne_true, Io.reg_setReg_self, hother _ (Or.inr rfl), Io.br]
  omega

end

/-- An exception is recorded, and then ends its task, or halts the core under HALT_ON_EXC in the debug life cycle (R183, R184). -/
theorem raiseExc_eq (s : State) (n code : Nat) : raiseExc s n code =
    (let u := { s with io := recordExc n (s.core n).pc code (excSlot s n) s.io }
     if s.io.bf (bCore n) 0x008 8 8 = 1 ∧ s.fac.lc = 3 then u.setCore n { s.core n with run := .halted }
     else
       let v := housekeep (abortTask u n Code.CORE_EXC code)
       match (s.core n).task with
       | some k => containContext v k.ctx
       | none => v) := by
  have hhalt := Io.bf_congr (control_recordExc n (s.core n).pc code (excSlot s n) s.io) 8 8
  have hdef : raiseExc s n code =
      (let u := s.mapIo (recordExc n (s.core n).pc code (excSlot s n))
       if u.io.bf (bCore n) 0x008 8 8 = 1 ∧ u.fac.lc = 3 then u.setCore n { u.core n with run := .halted }
       else
         let v := housekeep (abortTask u n Code.CORE_EXC code)
         match (s.core n).task.map (fun t => t.ctx) with
         | some k => containContext v k
         | none => v) := rfl
  rw [hdef, ← hhalt]
  cases (s.core n).task <;> rfl

/-- Settles O14: the causes one by one, and the registers of the record. -/
theorem coreExceptionsAreRecordedBeforeTheTaskEnds : Obligations.CoreExceptionsAreRecordedBeforeTheTaskEnds := by
  intro s n hn c
  refine ⟨fun hr => ⟨fun hpc => ?_, fun i hf hk => ?_⟩, fun k ht h0 hover => taskOverrun_raises ht h0 hover, fun code hc => ?_⟩
  · exact illegalInstr_raises hr (fetchExc_badPc hpc)
  · exact illegalInstr_raises hr (fetchExc_reserved hf hk)
  · exact ⟨recordExc n c.pc code (excSlot s n) s.io, excPc_recordExc .., excCode_recordExc _ _ _ _ _ hc, excCount_recordExc _ _ _ _ _,
      onlyEvents_recordExc _ _ _ _ _ hn, raiseExc_eq s n code⟩

end Sys2Proof.Machine
end

section
/-! PROOF. NOP, the fences and the event instructions (R150, R181, R182). -/

namespace Sys2Proof.Machine

/-! ### Fences -/

/-- The issue of NOP. -/
def nopRun (s : State) (i : Ins) : Ran := guardExc [(!i.onlyUses [], Code.ILLEGAL_INSTR)] (.done s)

/-- The conditions of the three fences, each with its stall cause (R181). -/
def fenceConds (s : State) (n : Nat) : Nat → List (Bool × Nat)
  | 1 => [(tableBusy s n, Off.carter_PEER_WAIT_LO)]
  | 2 => [(writeBusy s n, Off.carter_WRITE_BACKPRESSURE_LO)]
  | _ => [(tableBusy s n || (s.core n).mmas != [], Off.carter_PEER_WAIT_LO), (writeBusy s n, Off.carter_WRITE_BACKPRESSURE_LO)]

theorem exec_nop (n : Nat) (s : State) : exec (.nop n) s = .next (runIns s n (isOp 0x1C [0]) none nopRun) := rfl
theorem exec_fenceTable (n : Nat) (s : State) :
    exec (.fenceTable n) s = .next (runIns s n (isOp 0x1C [1]) none fun s i => fenceRun s i (fenceConds s n 1)) := rfl
theorem exec_fenceWrite (n : Nat) (s : State) :
    exec (.fenceWrite n) s = .next (runIns s n (isOp 0x1C [2]) none fun s i => fenceRun s i (fenceConds s n 2)) := rfl
theorem exec_fenceAll (n : Nat) (s : State) :
    exec (.fenceAll n) s = .next (runIns s n (isOp 0x1C [3]) none fun s i => fenceRun s i (fenceConds s n 3)) := rfl
theorem exec_evtRaise (n : Nat) (s : State) : exec (.evtRaise n) s = .next (runIns s n (isOp 0x1C [8]) none (evtRaiseRun n)) := rfl
theorem exec_evtCount (n : Nat) (s : State) : exec (.evtCount n) s = .next (runIns s n (isOp 0x1C [9]) none (evtCountRun n)) := rfl

/-- A fence stalls while a condition of it holds, and completes else. -/
theorem runIns_fence {s : State} {n k : Nat} {i : Ins} {mine : Ins → Bool} {busy : Bool} (h : Issues s n i) (hm : mine i = true)
    (hu : i.onlyUses [] = true) (hbusy : (fenceConds s n k).any Prod.fst = busy) :
    CoreOnly s (runIns s n mine none fun s i => fenceRun s i (fenceConds s n k)) n
      (if busy then s.core n else { s.core n with pc := (s.core n).pc + 8 }) := by
  subst hbusy
  have hcause : ∀ e ∈ fenceConds s n k, e.2 + 4 < 4096 := by
    unfold fenceConds
    split <;> simp [Off.carter_PEER_WAIT_LO, Off.carter_WRITE_BACKPRESSURE_LO]
  have hrun : fenceRun s i (fenceConds s n k) = match (fenceConds s n k).find? (fun e => e.1) with
      | some e => .stall s e.2 none
      | none => .done s := by
    rw [fenceRun, hu]
    rfl
  cases hfind : (fenceConds s n k).find? (fun e => e.1) with
  | some e =>
    have hmem := List.mem_of_find?_eq_some hfind
    rw [hfind] at hrun
    rw [runIns_stalls h hm hrun, if_pos (List.any_eq_true.mpr ⟨e, hmem, List.find?_some hfind⟩)]
    exact coreOnly_countStall s h.1 (hcause e hmem) (by simp)
  | none =>
    rw [hfind] at hrun
    rw [if_neg (by simpa using hfind)]
    exact runIns_done h hm (by simp) hrun (coreOnly_refl s n) h.clean rfl rfl

/-! ### Events -/

/-- A silent event bit leaves event delivery alone (R39). -/
theorem riseQuiet_delivery (io : Io) (b : Block) (bit : Nat) :
    (io.riseQuiet b bit).intake = io.intake ∧ (io.riseQuiet b bit).held = io.held ∧ (io.riseQuiet b bit).srcLoss = io.srcLoss ∧
      (io.riseQuiet b bit).tb = io.tb := by
  unfold Io.riseQuiet Io.riseWith
  dsimp only
  split
  · exact ⟨rfl, rfl, rfl, rfl⟩
  · split <;> exact ⟨rfl, rfl, rfl, rfl⟩

/-- A record that finds room goes to the end of the intake (R529). -/
theorem intake_emit {io : Io} (r : EvRec) (hroom : io.intake.length < 4096) (hheld : io.held = []) :
    (io.emit r).intake = io.intake ++ [{ r with afterLoss := io.srcLoss.contains r.src }] := by
  rw [Io.emit, if_pos ⟨hroom, hheld⟩]

/-- The registers after EVT.RAISE within its rate, and after a further one (R182). -/
def raised (n code : Nat) (ctx : Option Nat) (info : Nat) (io : Io) : Io := (io.riseQuiet (bCore n) 3).note (bCore n) Cls.USER code ctx 0 info
def raiseLost (n : Nat) (io : Io) : Io := (io.count (bCore n) Off.fcore_USER_EVT_LOST 1).riseQuiet (bCore n) 3

theorem bCore_ne_bEvtq (n : Nat) : bCore n ≠ bEvtq := by simp [bCore, bEvtq]

section
variable (io : Io) {n : Nat} (hn : n < 96)
include hn

theorem userEvt_raised (code : Nat) (ctx : Option Nat) (info : Nat) : bitOf ((raised n code ctx info io).br (bCore n) 0x010) 3 = true := by
  rw [raised, Io.note, Io.br_emit _ _ (bCore_valid hn) (bCore_ne_bEvtq n) (by decide)]
  exact Io.bit_riseWith io (bCore_valid hn) (bCore_ne_bEvtq n) (by decide) none

theorem onlyEvents_raised (code : Nat) (ctx : Option Nat) (info : Nat) : Io.OnlyEvents [bCore n] io (raised n code ctx info io) :=
  (Io.onlyEvents_riseWith io (bCore_valid hn) 3 none).trans (Io.onlyEvents_note ..)

theorem userEvt_raiseLost : bitOf ((raiseLost n io).br (bCore n) 0x010) 3 = true :=
  Io.bit_riseWith _ (bCore_valid hn) (bCore_ne_bEvtq n) (by decide) none

omit hn in
theorem lostCount_raiseLost (hf : io.frozen (bCore n) = false) : (raiseLost n io).br (bCore n) Off.fcore_USER_EVT_LOST =
    min 0xFFFFFFFF (io.br (bCore n) Off.fcore_USER_EVT_LOST + 1) := by
  have hm := base_add_mod (bCore n) (o := Off.fcore_USER_EVT_LOST) (by decide)
  rw [Io.br, raiseLost, Io.riseQuiet, Io.reg_riseWith _ _ _ _ (by rw [hm]; decide) (by rw [hm]; decide), Io.count, hf, if_neg Bool.false_ne_true,
    Io.reg_setReg_self, Io.br]
  omega

end

theorem raiseLost_delivery (n : Nat) (io : Io) : (raiseLost n io).intake = io.intake ∧ (raiseLost n io).held = io.held := by
  obtain ⟨hintake, hheld, -, -⟩ := riseQuiet_delivery (io.count (bCore n) Off.fcore_USER_EVT_LOST 1) (bCore n) 3
  have hcount : (io.count (bCore n) Off.fcore_USER_EVT_LOST 1).intake = io.intake ∧ (io.count (bCore n) Off.fcore_USER_EVT_LOST 1).held = io.held := by
    unfold Io.count
    split <;> exact ⟨rfl, rfl⟩
  exact ⟨hintake.trans hcount.1, hheld.trans hcount.2⟩

theorem intake_raised (n code : Nat) (ctx : Option Nat) (info : Nat) {io : Io} (hroom : io.intake.length < 4096) (hheld : io.held = []) :
    (raised n code ctx info io).intake =
      io.intake ++ [{ io.mkRec (bCore n) Cls.USER code ctx 0 info with afterLoss := io.srcLoss.contains (bCore n) }] := by
  obtain ⟨hintake, hheld', hloss, htb⟩ := riseQuiet_delivery io (bCore n) 3
  rw [raised, Io.note, intake_emit _ (by rwa [hintake]) (by rwa [hheld']), hintake, hloss, Io.mkRec, Io.mkRec, htb]

/-! ### Issues that count on CARTER only -/

section
variable {s t : State} {n : Nat} {i : Ins} {mine : Ins → Bool} {f : State → Ins → Ran} (h : Issues s n i) (hm : mine i = true)
  (hf : f s i = .done t) (hpc : (t.core n).pc = (s.core n).pc) (hrun : (t.core n).run = (s.core n).run) (hp : (t.core n).poisonAt = none)
include h hm hf hpc hrun hp

/-- An instruction without a counter of its own adds to registers of CARTER only. -/
theorem carterOnly_runIns : Io.OnlyRegs [bCarter n] t.io (runIns s n mine none f).io := by
  obtain ⟨hn, hruns, hfetch, hemit, hawaits, -⟩ := h
  have hruns' : (t.core n).runs = true := by rw [CoreSt.runs, hrun]; exact hruns
  have hissue : runIns s n mine none f = countIssue (t.setCore n { t.core n with pc := (s.core n).pc + 8 }) n 0 := by
    simp only [runIns, hruns, hfetch, hemit, hawaits, hm, hf, notePoison_none hp, hruns', hpc, and_self, if_true,
      Bool.not_true, Bool.false_eq_true, if_false, Option.isSome_none]
  have hb := bCarter_valid hn
  rw [hissue]
  exact (Io.onlyRegs_count64 _ hb (by rw [carter_page]; decide) 1).trans (Io.onlyRegs_count64 _ hb (by rw [carter_page]; decide) 1)

theorem reg_runIns {o : Nat} (ho : o < 4096) : (runIns s n mine none f).io.reg ((bCore n).base + o) = t.io.reg ((bCore n).base + o) := by
  refine (carterOnly_runIns h hm hf hpc hrun hp).2 _ fun k hk => ?_
  rw [blockAt_base (by simpa [Block.valid] using bCore_valid h.1) (by rwa [core_page]), List.mem_singleton.mp hk]
  simp [bCore, bCarter]

end

/-! ### EVT.RAISE and EVT.COUNT -/

/-- A counter that is not frozen takes what is added to it, up to the largest value. -/
theorem reg64_count64 (io : Io) {b : Block} {o : Nat} (ho : o + 4 < 0x1000) (v : Nat) (hf : io.frozen b = false) :
    (io.count64 b o v).reg64 (b.base + o) = min 0xFFFFFFFFFFFFFFFF (io.reg64 (b.base + o) + v) := by
  have hne : normOff (b.base + o) ≠ normOff (b.base + o + 4) :=
    normOff_ne_of_mod (by rw [Nat.add_assoc, base_add_mod b (by omega), base_add_mod b ho]; omega)
  rw [Io.count64, hf, if_neg Bool.false_ne_true, Io.reg64_setReg64 _ hne]
  omega

section
variable {s : State} {n : Nat} {i : Ins}

/-- Whether the last USER record is at least 1,024 cycles old (R182). -/
def mayRaise (s : State) (n : Nat) : Bool := (s.core n).lastUser.all (fun t => decide (t + 1024 ≤ cyclesOf s.io.tb))

/-- The state that EVT.RAISE leaves. -/
def afterRaise (s : State) (n : Nat) (i : Ins) : State :=
  if mayRaise s n then
    (s.setCore n { s.core n with lastUser := some (cyclesOf s.io.tb) }).mapIo (raised n (bitsOf i.w 7 0) (excSlot s n) ((s.core n).xr i.s1))
  else s.mapIo (raiseLost n)

theorem late_eq (s : State) (n : Nat) : (s.core n).lastUser.any (fun t => decide (cyclesOf s.io.tb < t + 1024)) = !mayRaise s n := by
  unfold mayRaise
  cases (s.core n).lastUser with
  | none => rfl
  | some t => simp only [Option.any_some, Option.all_some, ← decide_not, not_le]

theorem evtRaise_inTime (hu : i.onlyUses [fS1, (7, 0)] = true) (h : mayRaise s n = true) : evtRaiseRun n s i =
    .done ((s.setCore n { s.core n with lastUser := some (cyclesOf s.io.tb) }).mapIo (raised n (bitsOf i.w 7 0) (excSlot s n) ((s.core n).xr i.s1))) := by
  rw [evtRaiseRun, hu, Bool.not_true, guardExc_false, guardExc_nil, late_eq, h]
  rfl

theorem evtRaise_late (hu : i.onlyUses [fS1, (7, 0)] = true) (h : mayRaise s n = false) : evtRaiseRun n s i = .done (s.mapIo (raiseLost n)) := by
  rw [evtRaiseRun, hu, Bool.not_true, guardExc_false, guardExc_nil, late_eq, h]
  rfl

theorem evtRaise_done (hu : i.onlyUses [fS1, (7, 0)] = true) : evtRaiseRun n s i = .done (afterRaise s n i) := by
  rw [afterRaise]
  split
  next h => exact evtRaise_inTime hu h
  next h => exact evtRaise_late hu (Bool.eq_false_iff.mpr h)

theorem core_afterRaise (s : State) (n : Nat) (i : Ins) : (afterRaise s n i).core n =
    if mayRaise s n then { s.core n with lastUser := some (cyclesOf s.io.tb) } else s.core n := by
  unfold afterRaise
  split
  · exact core_setCore_self ..
  · rfl

/-- EVT.RAISE completes from the state that it leaves, and its issue writes CARTER only. -/
theorem runIns_evtRaise (h : Issues s n i) (hm : isOp 0x1C [8] i = true) (hu : i.onlyUses [fS1, (7, 0)] = true) :
    let t := runIns s n (isOp 0x1C [8]) none (evtRaiseRun n)
    let u := afterRaise s n i
    CoreOnly u t n { u.core n with pc := (s.core n).pc + 8 } ∧ Io.OnlyRegs [bCarter n] u.io t.io ∧ ∀ o, o < 4096 → t.io.br (bCore n) o = u.io.br (bCore n) o := by
  have hstands : (s.core n).Stands ((afterRaise s n i).core n) := by
    rw [core_afterRaise]
    split
    · exact ⟨h.clean, rfl, rfl⟩
    · exact h.stands
  obtain ⟨hp, hrun, hpc⟩ := hstands
  have hdone := evtRaise_done (s := s) (n := n) hu
  exact ⟨runIns_completes h hm (by simp) hdone hpc hrun hp, carterOnly_runIns h hm hdone hpc hrun hp, fun o ho => reg_runIns h hm hdone hpc hrun hp ho⟩

theorem evtCount_done (hu : i.onlyUses [fS1, (2, 0)] = true) : evtCountRun n s i =
    .done (s.mapIo fun io => io.count64 (bCore n) (Off.fcore_USER_CTR_LO + 8 * bitsOf i.w 2 0) ((s.core n).xr i.s1)) := by
  rw [evtCountRun, hu]
  rfl

end

theorem userCounter_bound (i : Ins) : Off.fcore_USER_CTR_LO + 8 * bitsOf i.w 2 0 + 4 < 0x1000 := by
  have : bitsOf i.w 2 0 < 2 ^ 3 := Nat.mod_lt _ (by decide)
  simp only [Off.fcore_USER_CTR_LO]
  omega

/-- Settles O13: NOP and the fences by their issue, the events by the registers that they write. -/
theorem fenceAndEventInstructionsKeepTheRest : Obligations.FenceAndEventInstructionsKeepTheRest := by
  intro s n i h c on
  have hn := h.1
  refine ⟨fun hm hu => ⟨_, exec_nop n s, ?_⟩, fun k row busy hu hm hrow => ?_, fun hm hu => ?_, fun hm hu => ?_⟩
  · exact runIns_done h hm (by simp) (by rw [nopRun, hu]; rfl) (coreOnly_refl s n) h.clean rfl rfl
  · obtain ⟨rfl, rfl, rfl⟩ | ⟨rfl, rfl, rfl⟩ | ⟨rfl, rfl, rfl⟩ := hrow
    · exact ⟨_, exec_fenceTable n s, runIns_fence h hm hu (by simp [fenceConds])⟩
    · exact ⟨_, exec_fenceWrite n s, runIns_fence h hm hu (by simp [fenceConds])⟩
    · exact ⟨_, exec_fenceAll n s, runIns_fence h hm hu (by simp [fenceConds, c])⟩
  · intro now
    obtain ⟨honly, hcarter, hreg⟩ := runIns_evtRaise h hm hu
    refine ⟨fun hmay => ⟨_, exec_evtRaise n s, ?_⟩, fun hmay => ⟨_, exec_evtRaise n s, ?_⟩⟩
    · have hcore := (core_afterRaise s n i).trans (if_pos (c := mayRaise s n = true) hmay)
      have hafter : afterRaise s n i = (s.setCore n { c with lastUser := some now }).mapIo (raised n (bitsOf i.w 7 0) (excSlot s n) (c.xr i.s1)) :=
        if_pos (c := mayRaise s n = true) hmay
      rw [hcore] at honly
      rw [hafter] at honly hcarter hreg
      have hevents := ((onlyEvents_raised s.io hn (bitsOf i.w 7 0) (excSlot s n) (c.xr i.s1)).mono (cs := [bCarter n, bCore n]) (by simp)).trans
        (hcarter.events.mono (by simp))
      refine ⟨honly.1, fun m hm => (honly.2.1 m hm).trans (core_setCore_ne s _ hm), hevents, by rw [honly.2.2.2]; rfl, ?_, fun hroom hheld => ⟨_, ?_, rfl⟩⟩
      · rw [hreg _ (by decide)]
        exact userEvt_raised s.io hn _ _ _
      · rw [hcarter.1]
        exact intake_raised n _ _ _ hroom hheld
    · have hafter : afterRaise s n i = s.mapIo (raiseLost n) := if_neg (c := mayRaise s n = true) (by rw [Bool.not_eq_true]; exact hmay)
      rw [hafter] at honly hcarter hreg
      obtain ⟨hintake, hheld⟩ := raiseLost_delivery n s.io
      refine ⟨honly.1, ?_, ?_, ?_, fun hf => ?_, by rw [honly.2.2.2]; rfl⟩
      · rw [hcarter.1]
        exact hintake
      · rw [hcarter.1]
        exact hheld
      · rw [hreg _ (by decide)]
        exact userEvt_raiseLost s.io hn
      · rw [hreg _ (by decide)]
        exact lostCount_raiseLost s.io hf
  · have hbound := userCounter_bound i
    have hrun := evtCount_done (s := s) (n := n) hu
    have honly := coreOnly_mapIo s n (f := fun io => io.count64 (bCore n) (Off.fcore_USER_CTR_LO + 8 * bitsOf i.w 2 0) ((s.core n).xr i.s1))
      ((Io.onlyRegs_count64 _ (bCore_valid hn) (by rwa [core_page]) _).mono (by simp))
    refine ⟨_, exec_evtCount n s, runIns_done h hm (by simp) hrun honly h.clean rfl rfl, fun hf => ?_⟩
    have hreg := @reg_runIns _ _ _ _ (isOp 0x1C [9]) (evtCountRun n) h hm hrun (congrArg CoreSt.pc honly.1) (congrArg CoreSt.run honly.1) ((congrArg CoreSt.poisonAt honly.1).trans h.clean)
    have hlo := hreg (o := Off.fcore_USER_CTR_LO + 8 * bitsOf i.w 2 0) (by omega)
    have hhi := hreg hbound
    rw [← Nat.add_assoc] at hhi
    rw [Nat.add_assoc]
    exact (Io.reg64_congr hlo hhi).trans (reg64_count64 s.io hbound _ hf)

end Sys2Proof.Machine
end

section
/-! SUPPORT. The end of a task on its core: what leaving a task changes (R178). -/

namespace Sys2Proof.Machine

/-- A core that has served its recovery returns to normal, or counts down (R386). -/
def recovered (s : State) (n : Nat) : State :=
  if coreMode s n = 3 then (if (s.core n).recover ≤ 1 then setMode s n 0 0 else s.setCore n { s.core n with recover := (s.core n).recover - 1 }) else s

theorem setMode_keeps (s : State) (n mode recover : Nat) : (setMode s n mode recover).call = s.call ∧
    ((setMode s n mode recover).core n).task = (s.core n).task ∧ ((setMode s n mode recover).core n).run = (s.core n).run := by
  have htask : ((s.setCore n { s.core n with mode := mode, recover := recover }).core n).task = (s.core n).task := by rw [core_setCore_self]
  have hrun : ((s.setCore n { s.core n with mode := mode, recover := recover }).core n).run = (s.core n).run := by rw [core_setCore_self]
  unfold setMode
  dsimp only
  split <;> exact ⟨rfl, htask, hrun⟩

theorem recovered_keeps (s : State) (n : Nat) :
    (recovered s n).call = s.call ∧ ((recovered s n).core n).task = (s.core n).task ∧ ((recovered s n).core n).run = (s.core n).run := by
  unfold recovered
  split
  · split
    · exact setMode_keeps s n 0 0
    · exact ⟨rfl, by rw [core_setCore_self], by rw [core_setCore_self]⟩
  · exact ⟨rfl, rfl, rfl⟩

/-- Whether a task with that outcome has run to its end (Table 13.2). -/
def ranToEnd (outcome : Nat) : Bool := decide (outcome = Code.OK ∨ outcome = Code.STREAM_FAILED ∨ outcome = Code.TASK_FAILED)

/-- The completion that a task leaves behind on core `n`. -/
def endedOf (s : State) (n : Nat) (t : Task) (outcome info : Nat) (retire : Bool) : Ended :=
  { task := t, outcome := outcome, info := info, serr := decide ((s.core n).failCode ≠ 0), cycles := cyclesOf (s.io.tb - (s.core n).startAt),
    core := n, retire := retire || !ranToEnd outcome }

/-- A core that its task has left. -/
def vacated (s : State) (n : Nat) (run : CoreRun) : State :=
  s.setCore n { s.core n with task := none, run := run, poisoned := false, poisonAt := none, failCode := 0, idleAt := s.io.tb, waitDst := none, waitEnd := none }

/-- Leaving a task counts its end and moves its sequence. -/
def settledSeq (s : State) (n : Nat) (t : Task) (outcome : Nat) (retire : Bool) : State :=
  let s := s.mapIo (fun io => if ranToEnd outcome then io.count64 (bCore n) Off.fcore_TASKS_DONE_LO 1 else io.count (bCore n) Off.fcore_TASKS_ABORTED 1)
  match taskSeq s t with
  | some (m, k, q) =>
    let q : Seq := { q with st := if retire || !ranToEnd outcome then 3 else 1, reported := false
                            chunks := if ranToEnd outcome then min 0xFFFF (q.chunks + 1) else q.chunks }
    setSeq s m k q
  | none => s

theorem settledSeq_call (s : State) (n : Nat) (t : Task) (outcome : Nat) (retire : Bool) : (settledSeq s n t outcome retire).call = s.call := by
  unfold settledSeq
  dsimp only
  split <;> rfl

theorem leaveTask_eq {s : State} {n outcome info : Nat} {retire : Bool} {run : CoreRun} {t : Task} (ht : (s.core n).task = some t) :
    leaveTask s n outcome info retire run = (recovered (vacated (settledSeq s n t outcome retire) n run) n).mapCaller t.die
      (fun cl => { cl with ended := cl.ended ++ [endedOf s n t outcome info retire] }) := by
  rw [leaveTask, ht]
  rfl

/-- A task leaves its core without a task, and its completion joins those that wait for their write streams. -/
theorem leaveTask_leaves {s : State} {n outcome info : Nat} {retire : Bool} {run : CoreRun} {t : Task} (ht : (s.core n).task = some t) :
    let u := leaveTask s n outcome info retire run
    (u.core n).task = none ∧ (u.core n).run = run ∧ (u.caller t.die).ended = (s.caller t.die).ended ++ [endedOf s n t outcome info retire] := by
  have hleave := leaveTask_eq (outcome := outcome) (info := info) (retire := retire) (run := run) ht
  have hcall := settledSeq_call s n t outcome retire
  generalize settledSeq s n t outcome retire = v at hleave hcall
  obtain ⟨hcalls, htask, hrun⟩ := recovered_keeps (vacated v n run) n
  have hcaller : (recovered (vacated v n run) n).caller t.die = s.caller t.die := by
    rw [State.caller, hcalls, show (vacated v n run).call = s.call from hcall, State.caller]
  intro u
  rw [show u = _ from hleave]
  refine ⟨htask.trans (by rw [vacated, core_setCore_self]), hrun.trans (by rw [vacated, core_setCore_self]), ?_⟩
  rw [State.mapCaller, State.setCaller, hcaller, State.caller, smGet_smPut_self]

end Sys2Proof.Machine
end

section
/-! PROOF. The task instructions: TASK.WAIT and its timeout, TASK.EMIT and TASK.DONE (R175, R177, R178, R336, R351). -/

namespace Sys2Proof.Machine

theorem exec_taskWait (n : Nat) (s : State) : exec (.taskWait n) s = .next (runIns s n (isOp 0x18 [0]) none (taskWaitRun n)) := rfl
theorem exec_taskEmit (n : Nat) (s : State) : exec (.taskEmit n) s = .next (runIns s n (isOp 0x18 [1]) none (taskEmitRun n)) := rfl
theorem exec_taskDone (n : Nat) (s : State) : exec (.taskDone n) s = .next (runIns s n (isOp 0x18 [2]) none (taskDoneRun n)) := rfl
theorem exec_taskWaitTimeout (n : Nat) (s : State) : exec (.taskWaitTimeout n) s = execTaskWaitTimeout n s := rfl

/-- An instruction that jumps from the state that its meaning leaves. -/
theorem runIns_jumps {s t : State} {n pc : Nat} {i : Ins} {mine : Ins → Bool} {f : State → Ins → Ran} (h : Issues s n i) (hm : mine i = true)
    (hf : f s i = .jump t pc) :
    let v := notePoison t n
    CoreOnly v (runIns s n mine none f) n { v.core n with pc := pc } := by
  obtain ⟨hn, hruns, hfetch, hemit, hawaits, -⟩ := h
  intro v
  have hissue : runIns s n mine none f = issued n none (v.setCore n { v.core n with pc := pc }) := by
    simp only [runIns, hruns, hfetch, hemit, hawaits, hm, hf, issued, Bool.not_true, Bool.false_eq_true, if_false, Option.isSome_none, v]
  have hcount := coreOnly_issued (v.setCore n { v.core n with pc := pc }) hn (ctr := none) (by simp)
  rw [core_setCore_self] at hcount
  rw [hissue]
  exact (coreOnly_setCore v n _).trans hcount

/-! ### TASK.WAIT -/

/-- Without a task in its NEXT register a waiting core goes on waiting (R344). -/
theorem startNext_empty {s : State} {n : Nat} (h : smFind n (s.caller (dieOfCore n)).next = none) : startNext s n = s := by
  unfold startNext takeNext
  dsimp only
  rw [h]
  split <;> rfl

section
variable {s : State} {n : Nat} {i : Ins}

/-- A core that has begun to wait (R175). -/
def waitingCore (s : State) (n : Nat) (i : Ins) : CoreSt :=
  { s.core n with run := .waiting, waitDst := some i.dst, idleAt := s.io.tb,
                  waitEnd := if (s.core n).xr i.s1 = 0 then none else some (s.io.tb + (s.core n).xr i.s1) }

theorem taskWait_waits (hu : i.onlyUses [fDst, fS1] = true) (ht : (s.core n).task = none) (hnext : smFind n (s.caller (dieOfCore n)).next = none) :
    taskWaitRun n s i = .jump (s.setCore n (waitingCore s n i)) (s.core n).pc := by
  have hstart : startNext (s.setCore n (waitingCore s n i)) n = s.setCore n (waitingCore s n i) := startNext_empty hnext
  have hpc : ((s.setCore n (waitingCore s n i)).core n).pc = (s.core n).pc := by rw [core_setCore_self]; rfl
  have hidle : (s.core n).task.isSome = false := by rw [ht]; rfl
  rw [← hpc, ← hstart, taskWaitRun, hu, hidle]
  rfl

theorem taskWait_inTask (hu : i.onlyUses [fDst, fS1] = true) (ht : (s.core n).task ≠ none) : taskWaitRun n s i = .exc Code.TASK_STATE := by
  rw [taskWaitRun, hu, Option.isSome_iff_ne_none.mpr ht]
  rfl

/-! ### TASK.EMIT -/

theorem taskEmit_token {k : Task} (hu : i.onlyUses [fDst, fS1, fS2, (8, 0)] = true) (ht : (s.core n).task = some k)
    (hw : bitsOf ((tmplOf s k.die k.tmpl).out (bitsOf i.w 7 0)) 31 30 = 1) : taskEmitRun n s i =
      emitOn n s i (emitToken s n k ((tmplOf s k.die k.tmpl).out (bitsOf i.w 7 0)) ((s.core n).xr i.s1) ((s.core n).xr i.s2) (bitOf i.w 8)) := by
  unfold taskEmitRun
  simp only [hu, ht, hw, Option.bind_some]
  cases k.inst <;> rfl

section
variable {u : State} {o : Offer} {k : Token} (ho : offerToken s k = (u, o))
include ho

theorem emitOn_held (h : o = .held) : emitOn n s i k = .jump (u.setCore n { u.core n with emitDst := some i.dst }) (s.core n).pc := by
  rw [emitOn, ho]
  exact if_pos h

theorem emitOn_accepted (h : o = .accepted) : emitOn n s i k = .done (u.setCore n ((u.core n).setX i.dst 0)) := by
  subst h
  rw [emitOn, ho]
  rfl

theorem emitOn_dropped (ha : o ≠ .accepted) (hh : o ≠ .held) : emitOn n s i k = .done u := by
  rw [emitOn, ho]
  exact (if_neg hh).trans (if_neg ha)

end

/-! ### TASK.DONE -/

/-- The state in which a task of TASK.DONE leaves its core: its streams are closed (R128). -/
def closedAll (s : State) (n id : Nat) : State := (taskStrms s n id).foldl (fun s j => closeAny s n j) s

theorem taskDone_leaves {k : Task} (hu : i.onlyUses [(8, 0)] = true) (hstat : bitsOf i.w 7 0 ≤ 127) (ht : (s.core n).task = some k)
    (hseq : bitOf i.w 8 = true → taskSeq s k ≠ none) (hmma : (s.core n).mmas = []) : taskDoneRun n s i =
      (let s' := closedAll s n k.id
       let o := doneOutcome (bitsOf i.w 7 0) (s'.core n).failCode
       .jump (housekeep (leaveTask s' n o.1 o.2 (bitOf i.w 8) .between)) ((s.core n).pc + 8)) := by
  have hretire : (bitOf i.w 8 && (taskSeq s k).isNone) = false := by
    cases hb : bitOf i.w 8 with
    | false => rfl
    | true => simpa [Option.isSome_iff_ne_none] using hseq hb
  have hlow : decide (127 < bitsOf i.w 7 0) = false := decide_eq_false (not_lt.mpr hstat)
  rw [taskDoneRun]
  simp only [hu, hlow, ht, hmma, Option.bind_some, hretire]
  rfl

/-- TASK.DONE ends its task with an outcome of a task that has run to its end. -/
theorem ranToEnd_doneOutcome (status fail : Nat) : ranToEnd (doneOutcome status fail).1 = true := by
  unfold doneOutcome
  split
  · rfl
  · split <;> rfl

end

/-! ### The timeout of TASK.WAIT -/

theorem taskWaitTimeout_ends {s : State} {n e d : Nat} (hn : n < 96) (hrun : (s.core n).run = .waiting) (he : (s.core n).waitEnd = some e)
    (hd : (s.core n).waitDst = some d) (htb : e ≤ s.io.tb) (hnext : smFind n (s.caller (dieOfCore n)).next = none) :
    ∃ t, exec (.taskWaitTimeout n) s = .next t ∧
      CoreOnly s t n { (s.core n).setX d 1 with run := .between, waitDst := none, waitEnd := none, pc := (s.core n).pc + 8 } := by
  have hdue : ¬ ((s.core n).run ≠ .waiting ∨ s.io.tb < e) := by simp [hrun, htb]
  rw [exec_taskWaitTimeout, execTaskWaitTimeout, startNext_empty hnext]
  simp only [he, hd, if_neg hdue]
  exact ⟨_, rfl, (coreOnly_mapIo s n (f := fun io => io.count64 (bCarter n) Off.carter_TASK_WAIT_LO (cyclesOf (io.tb - (s.core n).idleAt)))
    ((Io.onlyRegs_count64 _ (bCarter_valid hn) (by rw [carter_page]; decide) _).mono (by simp))).trans (coreOnly_setCore ..)⟩

/-- Settles O12: each row by what it runs; a token by the Caller's three answers. -/
theorem taskInstructionsWaitEmitAndEnd : Obligations.TaskInstructionsWaitEmitAndEnd := by
  intro s n c
  refine ⟨fun i h => ⟨fun hm hu => ⟨fun ht hnext => ⟨_, exec_taskWait n s, ?_⟩, fun ht => ?_⟩, fun k w hm hu ht hw hkind u o ho hc => ?_,
    fun k hm hu hstat ht hseq hmma => ?_⟩, fun hn e d hrun he hd htb hnext => taskWaitTimeout_ends hn hrun he hd htb hnext⟩
  · exact runIns_jump h hm (by simp) (taskWait_waits hu ht hnext) (coreOnly_setCore ..) h.clean
  · rw [exec_taskWait, runIns_exc h hm (taskWait_inTask hu ht)]
  · subst hw
    have hrun := taskEmit_token (s := s) (n := n) hu ht hkind
    refine ⟨fun hacc => ⟨_, exec_taskEmit n s, ?_⟩, fun hheld => ⟨_, exec_taskEmit n s, ?_⟩, fun hacc hheld => ⟨_, exec_taskEmit n s, ?_⟩⟩
    · show CoreOnly u _ n { (s.core n).setX i.dst 0 with pc := (s.core n).pc + 8 }
      rw [← congrArg (fun x : CoreSt => x.setX i.dst 0) hc]
      exact runIns_writesX h hm (hrun.trans (emitOn_accepted ho hacc)) ⟨by rw [hc], by rw [hc], by rw [hc]; exact h.clean⟩
    · have hjump := runIns_jumps h hm (hrun.trans (emitOn_held ho hheld))
      rw [notePoison_none (by rw [core_setCore_self, hc]; exact h.clean)] at hjump
      dsimp only at hjump
      rw [core_setCore_self, hc] at hjump
      exact (coreOnly_setCore u n _).trans hjump
    · have hdone := runIns_completes h hm (ctr := none) (by simp) (hrun.trans (emitOn_dropped ho hacc hheld)) (by rw [hc]) (by rw [hc])
        (by rw [hc]; exact h.clean)
      rw [hc] at hdone
      exact hdone
  · intro s' hk
    obtain ⟨htask, hbetween, hended⟩ := leaveTask_leaves (outcome := (doneOutcome (bitsOf i.w 7 0) (s'.core n).failCode).1)
      (info := (doneOutcome (bitsOf i.w 7 0) (s'.core n).failCode).2) (retire := bitOf i.w 8) (run := .between) hk
    exact ⟨_, _, exec_taskDone n s, runIns_jumps h hm (taskDone_leaves hu hstat ht hseq hmma), htask, hbetween, _, hended, rfl, rfl, rfl,
      by rw [endedOf, ranToEnd_doneOutcome]; exact Bool.or_false _⟩

end Sys2Proof.Machine
end

section
/-! PROOF. VT.ASSAY and VT.ASSAY_LM queue their requests (R166, R227, R238, R248). -/

namespace Sys2Proof.Machine

theorem exec_assay (lm : Bool) (n : Nat) (s : State) : exec (if lm then .vtAssayLm n else .vtAssay n) s =
    .next (runIns s n (isOp 0x0C [if lm then 4 else 3]) (some Off.fcore_INSTR_TABLE_LO) (vtAssay lm n)) := by
  cases lm <;> rfl

/-! ### The write of the answers -/

/-- The first `k` lanes of an answer written to a register: active lanes take it, inactive ones are zeroed or kept (R145). -/
def putAnswers (c : CoreSt) (w : AssayWait) (r : Nat) (f : Nat → Nat) (k : Nat) : CoreSt :=
  (List.range k).foldl (fun d l => if bitOf w.act l then d.setVl r l (f l) else if w.zm then d.setVl r l 0 else d) c

/-- The answer of a lane: payload, status and hit, zero where none has come. -/
def answerOf (w : AssayWait) (l : Nat) : Nat × Nat × Bool := ((w.got.find? (fun g => g.1 == l)).map Prod.snd).getD (0, 0, false)

/-- The vector registers after a commit: the payloads, and beside them the status words of a wide form. -/
def putAll (c : CoreSt) (w : AssayWait) : CoreSt :=
  let d := putAnswers c w w.dst (fun l => (answerOf w l).1) 64
  if w.wide then putAnswers d w (w.dst + 1) (fun l => (answerOf w l).2.1) 64 else d

/-- The hit bits after a commit. -/
def hitBit (c : CoreSt) (w : AssayWait) (l : Nat) : Bool :=
  if bitOf w.act l then (answerOf w l).2.2 else if w.zm then false else bitOf (c.mr w.mreg) l

theorem assayCommit_eq (c : CoreSt) (w : AssayWait) : assayCommit c w =
    { ((putAll c w).setM w.mreg (bitSet 64 (hitBit c w))).orT w.tstat with assay := c.assay.filter (fun x => x.serial ≠ w.serial) } := rfl

section
variable (c : CoreSt) (w : AssayWait) (r : Nat) (f : Nat → Nat)

theorem putAnswers_succ (k : Nat) : putAnswers c w r f (k + 1) =
    (if bitOf w.act k then (putAnswers c w r f k).setVl r k (f k) else if w.zm then (putAnswers c w r f k).setVl r k 0 else putAnswers c w r f k) := by
  rw [putAnswers, List.range_succ, List.foldl_append]
  rfl

theorem putAnswers_only (k : Nat) : putAnswers c w r f k = { c with v := (putAnswers c w r f k).v } := by
  induction k with
  | zero => rfl
  | succ k ih =>
    rw [putAnswers_succ, ih]
    split
    · rfl
    · split <;> rfl

theorem vl_putAnswers_ne (k : Nat) (hk : k ≤ 64) {q l : Nat} (hl : l < 64) (hq : q ≠ r) : (putAnswers c w r f k).vl q l = c.vl q l := by
  induction k with
  | zero => rfl
  | succ k ih =>
    rw [putAnswers_succ]
    have hset : ∀ v, ((putAnswers c w r f k).setVl r k v).vl q l = c.vl q l := fun v => by
      rw [vl_setVl _ _ _ _ _ _ (by omega) hl, if_neg (fun h => hq h.1), ih (by omega)]
    split
    · exact hset _
    · split
      · exact hset _
      · exact ih (by omega)

/-- An active lane holds its answer. -/
theorem vl_putAnswers_self (k : Nat) (hk : k ≤ 64) {l : Nat} (hl : l < k) (hact : bitOf w.act l = true) :
    (putAnswers c w r f k).vl r l = f l % 2 ^ 32 := by
  induction k with
  | zero => omega
  | succ k ih =>
    rw [putAnswers_succ]
    obtain rfl | hlt := Nat.eq_or_lt_of_le (Nat.le_of_lt_succ hl)
    · rw [if_pos hact, vl_setVl _ _ _ _ _ _ (by omega) (by omega), if_pos ⟨rfl, rfl⟩]
    · have hset : ∀ v, ((putAnswers c w r f k).setVl r k v).vl r l = f l % 2 ^ 32 := fun v => by
        rw [vl_setVl _ _ _ _ _ _ (by omega) (by omega), if_neg (fun h => hlt.ne h.2), ih (by omega) hlt]
      split
      · exact hset _
      · split
        · exact hset _
        · exact ih (by omega) hlt

end

section
variable (c : CoreSt) (w : AssayWait)

theorem putAll_only : putAll c w = { c with v := (putAll c w).v } := by
  rw [putAll]
  split
  · rw [putAnswers_only, putAnswers_only c]
  · exact putAnswers_only ..

theorem vl_putAll {l : Nat} (hl : l < 64) (hact : bitOf w.act l = true) : (putAll c w).vl w.dst l = (answerOf w l).1 % 2 ^ 32 := by
  have hfirst := vl_putAnswers_self c w w.dst (fun l => (answerOf w l).1) 64 le_rfl hl hact
  rw [putAll]
  split
  · rw [vl_putAnswers_ne _ _ _ _ _ le_rfl hl (Nat.succ_ne_self _).symm, hfirst]
  · exact hfirst

/-- A commit leaves the core where it stands. -/
theorem assayCommit_stands : (assayCommit c w).pc = c.pc ∧ (assayCommit c w).run = c.run ∧ (assayCommit c w).poisonAt = c.poisonAt := by
  rw [assayCommit_eq, putAll_only]
  exact ⟨rfl, rfl, rfl⟩

/-- A commit without an answer clears the active lanes and their hit bits. -/
theorem assayCommit_unanswered (hgot : w.got = []) {l : Nat} (hl : l < 64) (hact : bitOf w.act l = true) :
    (assayCommit c w).vl w.dst l = 0 ∧ bitOf ((assayCommit c w).mr w.mreg) l = false := by
  have hnone : answerOf w l = (0, 0, false) := by rw [answerOf, hgot]; rfl
  have hvl := vl_putAll c w hl hact
  have hmr : ((putAll c w).setM w.mreg (bitSet 64 (hitBit c w))).mr w.mreg = bitSet 64 (hitBit c w) := by
    rw [mr_setM, if_pos rfl, Nat.mod_eq_of_lt (bitSet_lt 64 _)]
  rw [hnone] at hvl
  refine ⟨hvl, ?_⟩
  rw [assayCommit_eq]
  refine (congrArg (bitOf · l) hmr).trans ?_
  rw [bitOf_bitSet _ hl, hitBit, if_pos hact, hnone]

end

/-! ### The requests -/

theorem activeBits_eq (c : CoreSt) (i : Ins) : (activeLanes c i).foldl (fun a l => a + 2 ^ l) 0 = bitSet 64 (c.active i) := by
  rw [activeLanes, List.foldl_filter, bitSet]

theorem assayQueue_setAssayQueue (s : State) (u v : Nat) (q : List AssayReq) :
    assayQueue (setAssayQueue s u q) v = if v = u then q else assayQueue s v := smGet_smPut ..

/-- The wait of a VT.ASSAY on its table. -/
def waitOf (s : State) (n : Nat) (i : Ins) (lm : Bool) (u k : Nat) : AssayWait :=
  let act := activeLanes (s.core n) i
  let sent := assaySent s n i lm
  let reqs := act.filterMap (fun l => assayReq (s.core n) i lm n u k l)
  ⟨(s.core n).asks + 1, i.dst, i.s3 % 8, act.foldl (fun a l => a + 2 ^ l) 0, i.zm, !lm && AssayTab.wide s u k, sent.length,
    b2n (decide (reqs.length < act.length)) + 2 * b2n (decide (sent.length < act.length)), []⟩

/-- The core that awaits that wait. -/
def asked (c : CoreSt) (w : AssayWait) : CoreSt := { c with asks := c.asks + 1, assay := c.assay ++ [w] }

section
variable {s : State} {n : Nat} {i : Ins} {lm : Bool} {u k : Nat}

theorem bitOf_waitOf_act {l : Nat} (hl : l < 64) : bitOf (waitOf s n i lm u k).act l = (s.core n).active i l :=
  (congrArg (bitOf · l) (activeBits_eq (s.core n) i)).trans (bitOf_bitSet _ hl)

theorem vtAssay_queues (hpass : ∀ e ∈ assayExc s n i lm, e.1 = false) (hclean : noteKeys (s.core n) i i.s2 (!lm) = s.core n)
    (htab : assayTab s n i = some (u, k)) (hroom : (assayQueue s u).length + (assaySent s n i lm).length ≤ 256)
    (hon : s.io.enabled (bAssayer u) = true) : vtAssay lm n s i =
      (let d := asked (s.core n) (waitOf s n i lm u k)
       .done (setAssayQueue (s.setCore n (if assaySent s n i lm = [] then assayCommit d (waitOf s n i lm u k) else d)) u
         (assayQueue s u ++ assaySent s n i lm))) := by
  have hfree : ¬ (256 < (assayQueue s u).length + (assaySent s n i lm).length ∨
      (assaySent s n i lm ≠ [] ∧ !s.io.enabled (bAssayer u))) := by simp [hon, hroom]
  rw [vtAssay]
  dsimp only
  rw [guard_clear _ _ hpass]
  simp only [htab, Option.getD_some, hclean, if_neg hfree]
  rfl

end

/-- Settles O18: the row completes from the state that queues its requests; without a request the commit stands in the same step. -/
theorem assayInstructionsSendTheirLanes : Obligations.AssayInstructionsSendTheirLanes := by
  intro s n i lm h hm hpass hclean c sent u k htab hroom hon
  let w := waitOf s n i lm u k
  let d := if sent = [] then assayCommit (asked c w) w else asked c w
  have hstands : d.pc = c.pc ∧ d.run = c.run ∧ d.poisonAt = c.poisonAt := by
    unfold d
    split
    · exact assayCommit_stands (asked c w) w
    · exact ⟨rfl, rfl, rfl⟩
  obtain ⟨hpc, hrun, hpoison⟩ := hstands
  let v := setAssayQueue (s.setCore n d) u (assayQueue s u ++ sent)
  have hcore : v.core n = d := core_setCore_self s n d
  have hissued := runIns_completes (ctr := some Off.fcore_INSTR_TABLE_LO) h hm (by decide) (vtAssay_queues hpass hclean htab hroom hon)
    (hpc ▸ congrArg CoreSt.pc hcore) (hrun ▸ congrArg CoreSt.run hcore) ((congrArg CoreSt.poisonAt hcore).trans (hpoison.trans h.clean))
  have hexec := exec_assay lm n s
  generalize runIns s n (isOp 0x0C [if lm then 4 else 3]) (some Off.fcore_INSTR_TABLE_LO) (vtAssay lm n) = t at hissued hexec
  obtain ⟨hat, hothers, hregs, hrest⟩ : CoreOnly v t n { v.core n with pc := c.pc + 8 } := hissued
  rw [hcore] at hat
  have hassay := congrArg State.assay hrest
  have hqueue : ∀ q, assayQueue t q = if q = u then assayQueue s u ++ sent else assayQueue s q := fun q =>
    (congrArg (fun a : AssaySt => smGet [] q a.queue) hassay).trans (assayQueue_setAssayQueue (s.setCore n d) u q _)
  refine ⟨t, hexec, (hqueue u).trans (if_pos rfl), fun q hq => (hqueue q).trans (if_neg hq), ?_, ?_, hregs,
    fun m hm => (hothers m hm).trans (core_setCore_ne s d hm), fun hsent => ?_, fun hsent => ?_⟩
  · rw [hassay]
    rfl
  · refine hrest.trans ?_
    rw [hassay]
    rfl
  · have hd : d = asked c w := if_neg hsent
    refine ⟨w, by rw [hat, hd]; rfl, rfl, rfl, rfl, rfl, rfl, rfl, ?_, fun l hl => bitOf_waitOf_act hl⟩
    simp [w, waitOf]
  · have hd : d = assayCommit (asked c w) w := if_pos hsent
    refine ⟨fun l hl hact => ?_, by rw [hat]⟩
    rw [hat, hd]
    exact assayCommit_unanswered (asked c w) w rfl hl ((bitOf_waitOf_act hl).trans hact)

end Sys2Proof.Machine
end

section
/-! PROOF. The values of the operator rows: buckets, statistics and aggregates (R164, R217, R220). -/

namespace Sys2Proof.Machine

open Sys2Proof.Num

/-! ### Buckets -/

section
variable {et v n : Nat} {b : Nat → Nat}

/-- The search of R164 splits its range: every boundary before the result goes up, none from it on does. -/
theorem bucketSearch_splits (hmono : ∀ i j, i < j → j < n → bucketUp et v (b j) = true → bucketUp et v (b i) = true) (fuel lo hi : Nat)
    (hle : lo ≤ hi) (hn : hi ≤ n) (hfuel : hi - lo < 2 ^ fuel) :
    let r := bucketSearch et v b fuel lo hi
    lo ≤ r ∧ r ≤ hi ∧ (∀ i, lo ≤ i → i < r → bucketUp et v (b i) = true) ∧ ∀ i, r ≤ i → i < hi → bucketUp et v (b i) = false := by
  induction fuel generalizing lo hi with
  | zero =>
    obtain rfl : lo = hi := by omega
    exact ⟨le_rfl, le_rfl, fun i h h' => absurd h' (not_lt.mpr h), fun i h h' => absurd h' (not_lt.mpr h)⟩
  | succ fuel ih =>
    rw [pow_succ] at hfuel
    rw [bucketSearch]
    split
    case isFalse hempty =>
      obtain rfl : lo = hi := by omega
      exact ⟨le_rfl, le_rfl, fun i h h' => absurd h' (not_lt.mpr h), fun i h h' => absurd h' (not_lt.mpr h)⟩
    case isTrue hlt =>
      dsimp only
      have hmid : (lo + hi) / 2 < n := by omega
      split
      case isTrue hup =>
        obtain ⟨hlo, hhi, hbelow, habove⟩ := ih ((lo + hi) / 2 + 1) hi (by omega) hn (by omega)
        refine ⟨by omega, hhi, fun i hlow hir => ?_, habove⟩
        obtain hlower | rfl | hupper := lt_trichotomy i ((lo + hi) / 2)
        · exact hmono i _ hlower hmid hup
        · exact hup
        · exact hbelow i hupper hir
      case isFalse hdown =>
        obtain ⟨hlo, hhi, hbelow, habove⟩ := ih lo ((lo + hi) / 2) (by omega) (by omega) (by omega)
        refine ⟨hlo, by omega, hbelow, fun i hri hupto => ?_⟩
        by_cases hlower : i < (lo + hi) / 2
        · exact habove i hri hlower
        · refine Bool.eq_false_iff.mpr fun hup => hdown ?_
          obtain heq | hupper := Nat.eq_or_lt_of_le (not_lt.mp hlower)
          · rwa [heq]
          · exact hmono _ i hupper (by omega) hup

/-- A predicate that holds exactly below `r` holds of `r` numbers. -/
theorem length_filter_range {p : Nat → Bool} {r : Nat} (hr : r ≤ n) (hbelow : ∀ i, i < r → p i = true) (habove : ∀ i, r ≤ i → i < n → p i = false) :
    ((List.range n).filter p).length = r := by
  obtain ⟨k, rfl⟩ := Nat.exists_eq_add_of_le hr
  have hfirst : (List.range r).filter p = List.range r := List.filter_eq_self.mpr fun i hi => hbelow i (List.mem_range.mp hi)
  have hrest : ((List.range k).map (r + ·)).filter p = [] := List.filter_eq_nil_iff.mpr fun i hi => by
    obtain ⟨j, hj, rfl⟩ := List.mem_map.mp hi
    rw [habove _ (Nat.le_add_right r j) (Nat.add_lt_add_left (List.mem_range.mp hj) r)]
    exact Bool.false_ne_true
  rw [List.range_add, List.filter_append, hfirst, hrest, List.append_nil, List.length_range]

theorem bucketUp_int (h : isInt et = true) (c : Nat) : bucketUp et v c = decide (intOf et c ≤ intOf et v) := by
  rw [bucketUp, if_pos h]

/-- Over ascending boundaries the bucket of an integer counts those not above it (R164). -/
theorem bucketOf_int (h : isInt et = true) (hn : n ≤ 4096) (hasc : ∀ i j, i < j → j < n → intOf et (b i) < intOf et (b j)) :
    bucketOf et v n b = ((List.range n).filter (fun i => decide (intOf et (b i) ≤ intOf et v))).length := by
  have hmono : ∀ i j, i < j → j < n → bucketUp et v (b j) = true → bucketUp et v (b i) = true := fun i j hij hj hup => by
    rw [bucketUp_int h, decide_eq_true_eq] at hup ⊢
    exact (hasc i j hij hj).le.trans hup
  obtain ⟨-, hhi, hbelow, habove⟩ := bucketSearch_splits hmono 13 0 n (Nat.zero_le n) le_rfl (by omega)
  have hsearch : bucketOf et v n b = bucketSearch et v b 13 0 n := by rw [bucketOf, h]; rfl
  rw [hsearch, length_filter_range hhi]
  · exact fun i hi => (bucketUp_int h _).symm.trans (hbelow i (Nat.zero_le i) hi)
  · exact fun i hri hi => (bucketUp_int h _).symm.trans (habove i hri hi)

theorem bucketOf_nan (h : isInt et = false) (hnan : isNaN (value et v) = true) : bucketOf et v n b = n + 1 := by
  rw [bucketOf, h, hnan]
  rfl

end

/-! ### Statistics -/

/-- One value, or a null, into the record of its lane (R217). -/
def statStep (a : StatRec) : Option Nat → StatRec
  | none => { a with nulls := a.nulls + 1 }
  | some x => if isNaN (value FP64 x) then { a with nans := a.nans + 1 } else welford a x

/-- One row into its lane. -/
def laneStep (m : SMap StatRec) (e : Option Nat × Nat) : SMap StatRec := smPut {} (e.2 % 64) (statStep (smGet {} (e.2 % 64) m) e.1) m

theorem statPartial_eq (xs : List (Option Nat)) :
    statPartial xs = mergeTree 6 ((List.range 64).map (fun k => smGet {} k (xs.zipIdx.foldl laneStep []))) := rfl

theorem sum_map_range (f : Nat → Nat) (n : Nat) : ((List.range n).map f).sum = ∑ k ∈ Finset.range n, f k := by
  induction n with
  | zero => rfl
  | succ n ih => rw [List.range_succ, List.map_append, List.sum_append, ih, Finset.sum_range_succ]; simp

/-- The total of a count over the lanes. -/
def laneTotal (g : StatRec → Nat) (m : SMap StatRec) : Nat := ∑ k ∈ Finset.range 64, g (smGet {} k m)

theorem laneTotal_eq (g : StatRec → Nat) (m : SMap StatRec) : (((List.range 64).map (fun k => smGet {} k m)).map g).sum = laneTotal g m := by
  rw [List.map_map, laneTotal]
  exact sum_map_range _ 64

section
variable {g : StatRec → Nat} {q : Option Nat → Bool}

section
variable (hstep : ∀ a x, g (statStep a x) = g a + if q x then 1 else 0)
include hstep

theorem laneTotal_laneStep (m : SMap StatRec) (e : Option Nat × Nat) : laneTotal g (laneStep m e) = laneTotal g m + if q e.1 then 1 else 0 := by
  have hlane : ∀ k, g (smGet {} k (laneStep m e)) = g (smGet {} k m) + if k = e.2 % 64 then (if q e.1 then 1 else 0) else 0 := fun k => by
    rw [laneStep, smGet_smPut]
    split
    case isTrue h => rw [hstep, h]
    case isFalse => rfl
  have hin : e.2 % 64 ∈ Finset.range 64 := Finset.mem_range.mpr (Nat.mod_lt _ (by decide))
  unfold laneTotal
  simp only [hlane, Finset.sum_add_distrib, Finset.sum_ite_eq', if_pos hin]

/-- Every row is counted once, whatever its lane. -/
theorem laneTotal_foldl (xs : List (Option Nat)) (k : Nat) (m : SMap StatRec) :
    laneTotal g ((xs.zipIdx k).foldl laneStep m) = laneTotal g m + (xs.filter q).length := by
  induction xs generalizing k m with
  | nil => exact (Nat.add_zero _).symm
  | cons x xs ih =>
    rw [List.zipIdx_cons, List.foldl_cons, ih, laneTotal_laneStep hstep, List.filter_cons]
    split <;> simp [Nat.add_assoc, Nat.add_comm 1]

end

theorem length_mergePairs : ∀ l : List StatRec, (mergePairs l).length = (l.length + 1) / 2
  | a :: b :: l => by simp only [mergePairs, List.length_cons, length_mergePairs l]; omega
  | [_] => by simp only [mergePairs, List.length_cons, List.length_nil]
  | [] => by simp only [mergePairs, List.length_nil]

section
variable (hmerge : ∀ a b, g a + g b < 2 ^ 64 → g (mergeStat a b) = g a + g b)
include hmerge

theorem sum_mergePairs : ∀ l : List StatRec, (l.map g).sum < 2 ^ 64 → ((mergePairs l).map g).sum = (l.map g).sum
  | a :: b :: l, h => by
    simp only [mergePairs, List.map_cons, List.sum_cons] at h ⊢
    rw [hmerge a b (by omega), sum_mergePairs l (by omega), Nat.add_assoc]
  | [_], _ => by rw [mergePairs]; simp
  | [], _ => by rw [mergePairs]; simp

/-- The tree of `2 ^ k` records keeps a count's total. -/
theorem mergeTree_total (k : Nat) (l : List StatRec) (hl : l.length = 2 ^ k) (h : (l.map g).sum < 2 ^ 64) : g (mergeTree k l) = (l.map g).sum := by
  induction k generalizing l with
  | zero =>
    obtain ⟨a, rfl⟩ := List.length_eq_one_iff.mp hl
    simp [mergeTree]
  | succ k ih =>
    rw [mergeTree, ih _ (by rw [length_mergePairs, hl, pow_succ]; omega), sum_mergePairs hmerge l h]
    rwa [sum_mergePairs hmerge l h]

end

/-- A count that a step raises by one for the rows of a kind, and that merging adds, is the number of rows of that kind. -/
theorem count_statPartial (hzero : g {} = 0) (hstep : ∀ a x, g (statStep a x) = g a + if q x then 1 else 0)
    (hmerge : ∀ a b, g a + g b < 2 ^ 64 → g (mergeStat a b) = g a + g b) {xs : List (Option Nat)} (hxs : xs.length < 2 ^ 64) :
    g (statPartial xs) = (xs.filter q).length := by
  have hempty : laneTotal g [] = 0 := Finset.sum_eq_zero fun k _ => hzero
  have hlanes : (((List.range 64).map (fun k => smGet {} k (xs.zipIdx.foldl laneStep []))).map g).sum = (xs.filter q).length := by
    rw [laneTotal_eq, laneTotal_foldl hstep, hempty, Nat.zero_add]
  have hlength : ((List.range 64).map (fun k => smGet {} k (xs.zipIdx.foldl laneStep []))).length = 2 ^ 6 := (List.length_map _).trans List.length_range
  rw [statPartial_eq, mergeTree_total hmerge 6 _ hlength (hlanes ▸ (List.length_filter_le _ _).trans_lt hxs), hlanes]

end

/-- A row raises exactly the count of its kind. -/
theorem statStep_counts (a : StatRec) (x : Option Nat) :
    (statStep a x).n = a.n + (if x.any (fun v => !isNaN (value FP64 v)) then 1 else 0) ∧
    (statStep a x).nans = a.nans + (if x.any (fun v => isNaN (value FP64 v)) then 1 else 0) ∧
    (statStep a x).nulls = a.nulls + if x.isNone then 1 else 0 := by
  cases x with
  | none => exact ⟨rfl, rfl, rfl⟩
  | some v => cases hnan : isNaN (value FP64 v) <;> simp [statStep, welford, hnan]

/-- Merging adds the counts. -/
theorem mergeStat_counts (a b : StatRec) :
    (a.n + b.n < 2 ^ 64 → (mergeStat a b).n = a.n + b.n) ∧ (mergeStat a b).nans = a.nans + b.nans ∧ (mergeStat a b).nulls = a.nulls + b.nulls := by
  unfold mergeStat
  dsimp only
  split
  case isTrue hb => exact ⟨fun _ => by rw [hb]; rfl, rfl, rfl⟩
  case isFalse =>
    split
    case isTrue ha => exact ⟨fun _ => by rw [ha, Nat.zero_add], rfl, rfl⟩
    case isFalse => exact ⟨Nat.mod_eq_of_lt, rfl, rfl⟩

theorem statPartial_counts {xs : List (Option Nat)} (hxs : xs.length < 2 ^ 64) :
    let nan := fun (x : Nat) => isNaN (value FP64 x)
    let p := statPartial xs
    p.n = (xs.filter (fun x => x.any (fun v => !nan v))).length ∧ p.nans = (xs.filter (fun x => x.any nan)).length ∧
      p.nulls = (xs.filter (fun x => x.isNone)).length := by
  intro nan p
  exact ⟨count_statPartial (g := StatRec.n) rfl (fun a x => (statStep_counts a x).1) (fun a b => (mergeStat_counts a b).1) hxs,
    count_statPartial (g := StatRec.nans) rfl (fun a x => (statStep_counts a x).2.1) (fun a b _ => (mergeStat_counts a b).2.1) hxs,
    count_statPartial (g := StatRec.nulls) rfl (fun a x => (statStep_counts a x).2.2) (fun a b _ => (mergeStat_counts a b).2.2) hxs⟩

/-! ### Aggregates -/

section
variable {et : Nat}

/-- The count of an aggregate is the number of its values. -/
theorem aggStep_count (f : Nat) (vs : List Nat) (st : Nat × Nat) : (vs.foldl (aggStep f et) st).2 = st.2 + vs.length := by
  induction vs generalizing st with
  | nil => rfl
  | cons v vs ih => rw [List.foldl_cons, ih, List.length_cons, Nat.add_comm vs.length, ← Nat.add_assoc]; rfl

section
variable (hint : isInt et = true)
include hint

theorem aggStep_sum (st : Nat × Nat) (v : Nat) : (aggStep 1 et st v).1 = (st.1 + unsignedOf 64 (intOf et v)) % 2 ^ 64 := by
  unfold aggStep
  simp only [hint, if_true]

/-- An integer SUM wraps at `2 ^ 64` (R220). -/
theorem aggSum_wraps (vs : List Nat) (st : Nat × Nat) (z : Int) (hst : (st.1 : Int) = z % 2 ^ 64) :
    ((vs.foldl (aggStep 1 et) st).1 : Int) = vs.foldl (fun (a : Int) v => a + intOf et v) z % 2 ^ 64 := by
  induction vs generalizing st z with
  | nil => exact hst
  | cons v vs ih =>
    have hlow : ((unsignedOf 64 (intOf et v) : Nat) : Int) = intOf et v % 2 ^ 64 := Int.toNat_of_nonneg (Int.emod_nonneg _ (by decide))
    refine ih _ _ ?_
    rw [aggStep_sum hint, Int.natCast_mod, Int.natCast_add, hst, hlow]
    exact (Int.add_emod ..).symm

/-- What MIN and MAX compare: the least of it wins. -/
def aggRank (et : Nat) (mx : Bool) (v : Nat) : Int := if mx then -intOf et v else intOf et v

theorem aggStep_extreme (mx : Bool) (st : Nat × Nat) (v : Nat) (hst : st.2 ≠ 0) :
    (aggStep (if mx then 3 else 2) et st v).1 = if aggRank et mx v < aggRank et mx st.1 then v else st.1 := by
  cases mx <;> simp [aggStep, aggRank, hint, hst, iCompare]

/-- MIN and MAX go through their values and keep one of least rank. -/
theorem aggExtreme_attained (mx : Bool) (vs : List Nat) (st : Nat × Nat) (hst : st.2 ≠ 0) :
    let r := (vs.foldl (aggStep (if mx then 3 else 2) et) st).1
    r ∈ st.1 :: vs ∧ ∀ v ∈ st.1 :: vs, aggRank et mx r ≤ aggRank et mx v := by
  induction vs generalizing st with
  | nil => simp
  | cons v vs ih =>
    obtain ⟨hmem, hleast⟩ := ih (aggStep (if mx then 3 else 2) et st v) (Nat.succ_ne_zero _)
    rw [aggStep_extreme hint mx st v hst] at hmem hleast
    rw [List.foldl_cons]
    by_cases hlt : aggRank et mx v < aggRank et mx st.1
    · rw [if_pos hlt] at hmem hleast
      exact ⟨List.mem_cons_of_mem _ hmem, List.forall_mem_cons.mpr ⟨(hleast v List.mem_cons_self).trans hlt.le, hleast⟩⟩
    · rw [if_neg hlt] at hmem hleast
      obtain ⟨hfirst, hrest⟩ := List.forall_mem_cons.mp hleast
      exact ⟨List.cons_subset_cons _ (List.subset_cons_self v vs) hmem,
        List.forall_mem_cons.mpr ⟨hfirst, List.forall_mem_cons.mpr ⟨hfirst.trans (not_lt.mp hlt), hrest⟩⟩⟩

/-- From the empty aggregate too: its first value is kept (R220). -/
theorem aggExtreme_bounds (mx : Bool) {vs : List Nat} (hvs : vs ≠ []) :
    let r := (vs.foldl (aggStep (if mx then 3 else 2) et) (0, 0)).1
    r ∈ vs ∧ ∀ v ∈ vs, aggRank et mx r ≤ aggRank et mx v := by
  obtain ⟨v, vs, rfl⟩ := List.exists_cons_of_ne_nil hvs
  have hfirst : aggStep (if mx then 3 else 2) et (0, 0) v = (v, 1) := by cases mx <;> rfl
  rw [List.foldl_cons, hfirst]
  exact aggExtreme_attained hint mx vs (v, 1) Nat.one_ne_zero

/-- Integer COUNT, SUM, MIN and MAX of a group (R220). -/
theorem aggregates_int (vs : List Nat) :
    let run := fun (f : Nat) => vs.foldl (aggStep f et) (0, 0)
    (∀ f, (run f).2 = vs.length) ∧
    ((run 1).1 : Int) = (vs.foldl (fun (a : Int) v => a + intOf et v) 0) % 2 ^ 64 ∧
    (vs ≠ [] → (run 2).1 ∈ vs ∧ (run 3).1 ∈ vs ∧ ∀ v ∈ vs, intOf et (run 2).1 ≤ intOf et v ∧ intOf et v ≤ intOf et (run 3).1) := by
  refine ⟨fun f => (aggStep_count f vs (0, 0)).trans (Nat.zero_add _), aggSum_wraps hint vs (0, 0) 0 rfl, fun hvs => ?_⟩
  obtain ⟨hmin, hleast⟩ := aggExtreme_bounds hint false hvs
  obtain ⟨hmax, hgreatest⟩ := aggExtreme_bounds hint true hvs
  exact ⟨hmin, hmax, fun v hv => ⟨hleast v hv, neg_le_neg_iff.mp (hgreatest v hv)⟩⟩

end
end

end Sys2Proof.Machine
end

section
/-! PROOF. The operator rows: FILTER, HASH and DEDUP (R202, R206, R207, R222). -/

namespace Sys2Proof.Machine

/-! ### What reading and writing leave of a call -/

namespace OpRun

/-- The rows and the items that a call has counted. -/
def tally (r : OpRun) : Nat × Nat := (r.rowsOut, r.aux0)

theorem touch_layout (r : OpRun) (row : Nat) (l : List (Nat × Nat × Nat)) : (r.touch row l).o = r.o ∧ (r.touch row l).cols = r.cols := by
  unfold touch
  split
  · exact ⟨rfl, rfl⟩
  · split
    · split <;> exact ⟨rfl, rfl⟩
    · split
      · exact ⟨rfl, rfl⟩
      · split <;> exact ⟨rfl, rfl⟩

/-- Reading a cell counts, and leaves the rest of its call. -/
theorem read_keeps (r : OpRun) (c : Col) (row : Nat) :
    ((r.read c row).1.rowsOut, (r.read c row).1.s, (r.read c row).1.o, (r.read c row).1.cols) = (r.rowsOut, r.s, r.o, r.cols) := by
  unfold read
  split
  · rfl
  · rfl
  · dsimp only; split <;> rfl
  · dsimp only; split <;> rfl
  · rfl

theorem tally_put (r : OpRun) (d : Desc) (cs : List Nat) (code : Nat) : (r.put d cs code).tally = r.tally := by
  unfold put
  split
  · rfl
  · split
    · split <;> rfl
    · split <;> rfl

theorem tally_foldl {α : Type} (f : OpRun → α → OpRun) (h : ∀ r x, (f r x).tally = r.tally) (l : List α) (r : OpRun) :
    (l.foldl f r).tally = r.tally := foldl_view tally f h l r

theorem tally_putMany (r : OpRun) (d : Desc) (a : Nat) (l : List Nat) : (r.putMany d a l).tally = r.tally :=
  tally_foldl _ (fun r _ => tally_put r ..) _ r

theorem tally_hput (r : OpRun) (t : HTab) (o n v : Nat) : (r.hput t o n v).tally = r.tally := tally_putMany ..

theorem tally_putCell (r : OpRun) (c : Col) (row : Nat) (x : Cell) : (r.putCell c row x).tally = r.tally := by
  have hbit : (if c.hasValid then r.putBit c.bits row (!(x == .null || x == .bad)) else r).tally = r.tally := by
    split
    · exact tally_put ..
    · rfl
  unfold putCell
  dsimp only
  split
  · exact (tally_put ..).trans ((tally_putMany ..).trans ((tally_put ..).trans hbit))
  · split
    · exact (tally_foldl _ (fun r _ => tally_put r ..) _ _).trans hbit
    · exact (tally_put ..).trans hbit

theorem tally_cut (r : OpRun) (row item val : Nat) : (r.cut row item val).tally = r.tally := by
  unfold cut
  extract_lets u d
  have hflag : u.tally = r.tally := by
    unfold u
    split <;> rfl
  split
  · exact hflag
  · split
    · exact (tally_put ..).trans ((tally_put ..).trans hflag)
    · exact hflag

/-- A row that fits is one row more, whether or not its writes then wait. -/
theorem tally_emitRow {r : OpRun} {row inRow sub : Nat} {l : List (Col × Cell)} (h : r.ended = false) (hfits : r.fits row l = true) :
    (r.emitRow row inRow sub l).tally = (r.rowsOut + 1, r.aux0) := by
  have hcells := tally_foldl (fun r e => r.putCell e.1 row e.2) (fun r _ => tally_putCell r ..) l r
  rw [emitRow, h, hfits]
  exact congrArg (Prod.mk (r.rowsOut + 1)) (congrArg Prod.snd hcells)

/-- A call that has not ended with a row found room for it. -/
theorem fits_of_emitRow {r : OpRun} {row inRow sub : Nat} {l : List (Col × Cell)} (h : (r.emitRow row inRow sub l).ended = false) :
    r.ended = false ∧ r.fits row l = true := by
  cases hended : r.ended with
  | true =>
    rw [emitRow, hended, if_pos rfl, hended] at h
    cases h
  | false =>
    cases hfits : r.fits row l with
    | true => exact ⟨rfl, rfl⟩
    | false =>
      rw [emitRow, hended, hfits] at h
      cases h

end OpRun

open OpRun

theorem tally_writeEntry (r : OpRun) (t : HTab) (i : Nat) (k : Option (List Byte)) : (writeEntry r t i k).tally = r.tally :=
  (tally_hput ..).trans (tally_hput ..)

theorem tally_placeRow {r q : OpRun} {t : HTab} {f id : Nat} (h : placeRow r t f id = some q) : q.tally = r.tally := by
  unfold placeRow at h
  dsimp only at h
  split at h
  · cases h
    simp only [tally_hput]
  · split at h
    · cases h
    · cases h
      simp only [tally_hput]

theorem tally_openEntry {r : OpRun} {t : HTab} {k : Option (List Byte)} {q : OpRun × Nat} (h : openEntry r t k = some q) : q.1.tally = r.tally := by
  unfold openEntry at h
  extract_lets i cap at h
  split at h
  · cases h
  · obtain ⟨p, hp, rfl⟩ := Option.map_eq_some_iff.mp h
    rw [tally_hput, tally_foldl _ (fun r _ => tally_hput r ..), tally_writeEntry, tally_placeRow hp]

/-! ### FILTER -/

/-- The columns that a program names. -/
def namedCols (l : List PredWord) (r : OpRun) : List Col :=
  r.ins.filter (fun c => l.any (fun p => (decide (p.opc ≤ 3) && p.a == c.idx) || (p.opc == 2 && p.b == c.idx)))

/-- A call that has read the columns that a program names. -/
def readNamed (l : List PredWord) (r : OpRun) (row : Nat) : OpRun := (namedCols l r).foldl (fun r c => (r.read c row).1) r

theorem readNamed_keeps (l : List PredWord) (r : OpRun) (row : Nat) :
    ((readNamed l r row).rowsOut, (readNamed l r row).s, (readNamed l r row).o, (readNamed l r row).cols) = (r.rowsOut, r.s, r.o, r.cols) :=
  foldl_view (fun r : OpRun => (r.rowsOut, r.s, r.o, r.cols)) _ (fun r c => read_keeps r c row) _ r

section
variable {l : List PredWord} {r : OpRun} {row : Nat} (hr : r.ended = false) (ht : (r.touchRow r.ins row).ended = false)
include hr ht

/-- FILTER without a zone map drops a row of which its program is false (R202). -/
theorem filterRow_of_false (hp : predRun (readNamed l (r.touchRow r.ins row) row) l.length row l [] = false) :
    filterRow l none r row = readNamed l (r.touchRow r.ins row) row := by
  unfold filterRow
  simp only [hr, ht, Bool.false_eq_true, if_false]
  exact if_pos (congrArg Bool.not hp)

/-- It emits the number of a row of which its program is true, in output mode 1 (R203). -/
theorem filterRow_of_true (hp : predRun (readNamed l (r.touchRow r.ins row) row) l.length row l [] = true)
    (hmode : (readNamed l (r.touchRow r.ins row) row).o.f 0x24 1 = 1) :
    let u := readNamed l (r.touchRow r.ins row) row
    filterRow l none r row = u.emitRow u.rowsOut row 0 (u.outs.map (fun c => (c, .num row))) := by
  unfold filterRow
  simp only [hr, ht, Bool.false_eq_true, if_false]
  exact (if_neg (Bool.eq_false_iff.mp (congrArg Bool.not hp))).trans (if_pos hmode)

end

/-- The rule of FILTER on a row that can be read. -/
theorem filterRow_emits (l : List PredWord) (r : OpRun) (row : Nat) (ht : (r.touchRow r.ins row).ended = false) (hr : r.ended = false) :
    let q := filterRow l none r row
    ∃ u : OpRun, u.rowsOut = (r.touchRow r.ins row).rowsOut ∧ u.s = (r.touchRow r.ins row).s ∧ u.o = r.o ∧ u.cols = r.cols ∧
      (predRun u l.length row l [] = false → q = u) ∧
      (predRun u l.length row l [] = true → u.o.f 0x24 1 = 1 → q = u.emitRow u.rowsOut row 0 (u.outs.map (fun c => (c, .num row)))) := by
  obtain ⟨ho, hcols⟩ := touch_layout r row (r.ins.flatMap (fun c => r.spans c row))
  have hkeeps := readNamed_keeps l (r.touchRow r.ins row) row
  simp only [Prod.mk.injEq] at hkeeps
  obtain ⟨hrows, hs, hro, hrcols⟩ := hkeeps
  exact ⟨readNamed l (r.touchRow r.ins row) row, hrows, hs, hro.trans ho, hrcols.trans hcols, filterRow_of_false hr ht, filterRow_of_true hr ht⟩

/-! ### HASH -/

/-- The number that HASH gives a key by the functions of one output (R206). -/
def hashOf (tab : Option (Nat × Nat)) (r q : OpRun) (k : List Byte) : Nat :=
  if r.o.f 0x20 1 % 16 = 1 then Hash.crc32c (r.o.f 0x28 8 % 2 ^ 32) k
  else if r.o.f 0x20 1 % 16 = 4 then Hash.smx64 k ((tab.map (fun e => AssayTab.seed q.s e.1 e.2)).getD 0)
  else Hash.smx64 k (r.o.f 0x28 8)

section
variable {tab : Option (Nat × Nat)} {r q : OpRun} {row : Nat} {key : Option (List Byte)}
  (hu : (r.touchRow (r.ins.take (r.o.f 0x21 1)) row).ended = false) (hf : r.o.f 0x20 1 % 16 ≠ 3)
  (hkey : (r.touchRow (r.ins.take (r.o.f 0x21 1)) row).keyOnce (r.ins.take (r.o.f 0x21 1)) (r.o.f 0x20 1 / 16 == 0) row = (q, key))
include hu hf hkey

theorem hashRow_of_null (hnone : key = none) : hashRow tab r row = q.emitRow row row 0 (q.outs.zip [.null, .null]) := by
  unfold hashRow
  simp only [hu, if_neg hf, hkey, hnone, Bool.false_eq_true, if_false]

theorem hashRow_of_key {k : List Byte} (hk : key = some k) (htwo : r.o.f 0x20 1 % 16 ≠ 2) :
    hashRow tab r row = q.emitRow row row 0 (q.outs.zip [.num (hashOf tab r q k)]) := by
  unfold hashRow hashOf
  simp only [hu, if_neg hf, hkey, hk, if_neg htwo, Bool.false_eq_true, if_false]
  split
  · rfl
  · split <;> rfl

end

/-- The rule of HASH on a row that can be read. -/
theorem hashRow_emits (tab : Option (Nat × Nat)) (r : OpRun) (row : Nat) :
    let cs := r.ins.take (r.o.f 0x21 1)
    let func := r.o.f 0x20 1 % 16
    let u := r.touchRow cs row
    u.ended = false → func ≠ 3 → ∀ q key, u.keyOnce cs (r.o.f 0x20 1 / 16 == 0) row = (q, key) →
      let seed := r.o.f 0x28 8
      (key = none → hashRow tab r row = q.emitRow row row 0 (q.outs.zip [.null, .null])) ∧
      ∀ k, key = some k →
        (func = 0 → hashRow tab r row = q.emitRow row row 0 (q.outs.zip [.num (Hash.smx64 k seed)])) ∧
        (func = 1 → hashRow tab r row = q.emitRow row row 0 (q.outs.zip [.num (Hash.crc32c (seed % 2 ^ 32) k)])) ∧
        (func = 4 → ∀ uj, tab = some uj → hashRow tab r row = q.emitRow row row 0 (q.outs.zip [.num (Hash.smx64 k (AssayTab.seed q.s uj.1 uj.2))])) := by
  intro cs func u hu hf q key hkey seed
  refine ⟨hashRow_of_null hu hf hkey, fun k hk => ⟨fun h0 => ?_, fun h1 => ?_, fun h4 uj htab => ?_⟩⟩
  · rw [hashRow_of_key hu hf hkey hk (h0.trans_ne (by decide)), hashOf, if_neg (h0.trans_ne (by decide)), if_neg (h0.trans_ne (by decide))]
  · rw [hashRow_of_key hu hf hkey hk (h1.trans_ne (by decide)), hashOf, if_pos h1]
  · rw [hashRow_of_key hu hf hkey hk (h4.trans_ne (by decide)), hashOf, if_neg (h4.trans_ne (by decide)), if_pos h4, htab]
    rfl

/-! ### DEDUP -/

/-- What DEDUP does with a key that its table does not hold (R222). -/
def keepNew (t : HTab) (row : Nat) (w : OpRun) (k : Option (List Byte)) : OpRun :=
  let keep : OpRun → OpRun := fun r => r.emitRow r.rowsOut row 0 (r.outs.map (fun c => (c, .num row)))
  if !w.fits w.rowsOut (w.outs.map (fun c => (c, .num row))) then { w with stop := some (Code.OUTPUT_FULL, row, 0) }
  else match openEntry w t k with
    | some (q, _) => keep q
    | none => if w.o.unbounded then { w with stop := some (Code.OUTPUT_FULL, row, 0) } else (keep w).cut row 0 0

/-- A new key's row that does not end the call is one row more. -/
theorem tally_keepNew {t : HTab} {row : Nat} {w : OpRun} {k : Option (List Byte)} (hw : w.ended = false) (hend : (keepNew t row w k).ended = false) :
    (keepNew t row w k).tally = (w.rowsOut + 1, w.aux0) := by
  unfold keepNew at hend ⊢
  extract_lets at hend ⊢
  split
  case isTrue hfull => rw [if_pos hfull] at hend; cases hend
  case isFalse hroom =>
    rw [if_neg hroom] at hend
    cases hopen : openEntry w t k with
    | some q =>
      rw [hopen] at hend
      obtain ⟨hq, hfits⟩ := fits_of_emitRow hend
      obtain ⟨hrows, haux⟩ := Prod.mk.inj (tally_openEntry hopen)
      rw [← hrows, ← haux]
      exact tally_emitRow hq hfits
    | none =>
      rw [hopen] at hend
      dsimp only at hend ⊢
      split
      case isTrue hunb => rw [if_pos hunb] at hend; cases hend
      case isFalse => exact (tally_cut ..).trans (tally_emitRow hw (by simpa using hroom))

theorem dedupRow_eq {t : HTab} {nkey : Nat} {r q w : OpRun} {row : Nat} {k : Option (List Byte)} {e : Option Nat}
    (hu : (r.touchRow (keyCols r nkey) row).ended = false)
    (hkey : (r.touchRow (keyCols r nkey) row).keyOnce (keyCols r nkey) (t.kind (r.touchRow (keyCols r nkey) row) == 0) row = (q, k))
    (hfind : findEntry q t k row = (w, e)) (hw : w.ended = false) :
    dedupRow t nkey r row = if e.isSome then { w with aux0 := w.aux0 + 1 } else keepNew t row w k := by
  unfold dedupRow
  simp only [hu, hkey, hfind, hw, Bool.false_eq_true, if_false]
  cases e <;> rfl

/-- The rule of DEDUP on a row that can be read, whose walk did not wait. -/
theorem dedupRow_drops (t : HTab) (nkey : Nat) (r : OpRun) (row : Nat) :
    let u := r.touchRow (keyCols r nkey) row
    u.ended = false → ∀ q k, u.keyOnce (keyCols r nkey) (t.kind u == 0) row = (q, k) → ∀ w e, findEntry q t k row = (w, e) → w.ended = false →
      (e.isSome = true → dedupRow t nkey r row = { w with aux0 := w.aux0 + 1 }) ∧
      (e = none → (dedupRow t nkey r row).ended = false → (dedupRow t nkey r row).rowsOut = w.rowsOut + 1 ∧ (dedupRow t nkey r row).aux0 = w.aux0) := by
  intro u hu q k hkey w e hfind hw
  have heq := dedupRow_eq hu hkey hfind hw
  refine ⟨fun hsome => ?_, fun hnone hend => ?_⟩
  · obtain ⟨i, rfl⟩ := Option.isSome_iff_exists.mp hsome
    exact heq
  · subst hnone
    have hkept : (dedupRow t nkey r row).tally = (w.rowsOut + 1, w.aux0) := by
      rw [show dedupRow t nkey r row = keepNew t row w k from heq] at hend ⊢
      exact tally_keepNew hw hend
    exact Prod.mk.inj hkept

/-- Settles O33, one rule for each operator. -/
theorem operatorRowsFollowTheirRules : Obligations.OperatorRowsFollowTheirRules :=
  ⟨fun _ _ _ _ hint hn hasc => bucketOf_int hint hn hasc, fun _ _ _ _ hint hnan => bucketOf_nan hint hnan, fun _ hxs => statPartial_counts hxs,
    fun _ vs hint => aggregates_int hint vs, filterRow_emits, hashRow_emits, dedupRow_drops⟩

end Sys2Proof.Machine
end

section
/-! PROOF. Calls of the operators: the writes of a row, cut items, the result block, and what each call answers (R185, R189,
R190, R193 to R195, R218, R221; Tables 7.4 and 7.14; log entries 17 and 18). -/

namespace Sys2Proof.Machine

/-! ### The writes of a row, and cut items -/

namespace OpRun

/-- A call without its device and the progress of its writes: what its counts and its end say. -/
def ledger (r : OpRun) : OpRun := { r with s := State.reset, wait := false, waitCode := 0, heaps := [] }

theorem ledger_put (r : OpRun) (d : Desc) (cs : List Nat) (code : Nat) : (r.put d cs code).ledger = r.ledger := by
  unfold put
  split
  · rfl
  · split
    · split <;> rfl
    · split <;> rfl

theorem ledger_putMany (r : OpRun) (d : Desc) (a : Nat) (l : List Nat) : (r.putMany d a l).ledger = r.ledger :=
  foldl_view ledger _ (fun r _ => ledger_put r ..) _ r

theorem ledger_putCell (r : OpRun) (c : Col) (row : Nat) (x : Cell) : (r.putCell c row x).ledger = r.ledger := by
  have hbit : (if c.hasValid then r.putBit c.bits row (!(x == .null || x == .bad)) else r).ledger = r.ledger := by
    split
    · exact ledger_put ..
    · rfl
  unfold putCell
  dsimp only
  split
  · exact (ledger_put ..).trans ((ledger_putMany ..).trans ((ledger_put ..).trans hbit))
  · split
    · exact (foldl_view ledger _ (fun r _ => ledger_put r ..) _ _).trans hbit
    · exact (ledger_put ..).trans hbit

theorem ledger_putRow (row : Nat) (l : List (Col × Cell)) (r : OpRun) : (l.foldl (fun r e => r.putCell e.1 row e.2) r).ledger = r.ledger :=
  foldl_view ledger _ (fun r _ => ledger_putCell r ..) l r

/-- A call whose row is flagged as cut, once (R194). -/
def flagged (r : OpRun) (row : Nat) : OpRun :=
  { r with ovf := if r.ovf.head? = some row then r.ovf else row :: r.ovf
           ovfRows := if r.ovf.head? = some row then r.ovfRows else r.ovfRows + 1 }

/-- The spill list has room for one entry more (R195). -/
def spillRoom (r : OpRun) : Prop := r.spillItems < (Col.get (useDescDir r.s r.cn r.o.spillDesc true)).sz 0 / 2

/-- A call that has written an entry of the spill list (R195). -/
def spillEntry (r : OpRun) (row item val : Nat) : OpRun :=
  let d := Col.get (useDescDir r.s r.cn r.o.spillDesc true)
  ((r.flagged row).put d [2 * r.spillItems] (row + 2 ^ 32 * (item % 2 ^ 32))).put d [2 * r.spillItems + 1] val

theorem ledger_spillEntry (r : OpRun) (row item val : Nat) : (r.spillEntry row item val).ledger = (r.flagged row).ledger :=
  (ledger_put ..).trans (ledger_put ..)

theorem spillItems_spillEntry (r : OpRun) (row item val : Nat) : (r.spillEntry row item val).spillItems = r.spillItems :=
  (congrArg spillItems (ledger_spillEntry r row item val) :)

theorem flagged_eq (r : OpRun) (row : Nat) :
    (if r.ovf.head? = some row then r else { r with ovf := row :: r.ovf, ovfRows := r.ovfRows + 1 }) = r.flagged row := by
  unfold flagged
  split <;> rfl

section
variable {r : OpRun} {row item val : Nat}

theorem cut_of_keeps (h : r.o.spills = false) : r.cut row item val = r.flagged row := by
  unfold cut
  rw [flagged_eq]
  exact if_pos (congrArg Bool.not h)

theorem cut_of_room (h : r.o.spills = true) (hroom : r.spillRoom) :
    r.cut row item val = { r.spillEntry row item val with spillItems := r.spillItems + 1 } := by
  rw [← spillItems_spillEntry r row item val]
  unfold cut
  rw [flagged_eq]
  exact (if_neg (Bool.eq_false_iff.mp (congrArg Bool.not h))).trans (if_pos hroom)

theorem cut_of_noRoom (h : r.o.spills = true) (hroom : ¬ r.spillRoom) :
    r.cut row item val = { r.flagged row with spillCut := r.spillCut + 1 } := by
  unfold cut
  rw [flagged_eq]
  exact (if_neg (Bool.eq_false_iff.mp (congrArg Bool.not h))).trans (if_neg hroom)

end

/-- The counts of a cut item (R194, R195): its row is flagged once, and under SPILL_BESTEFFORT it is an entry or is lost. -/
theorem cut_counts (r : OpRun) (row item val : Nat) :
    let q := r.cut row item val
    let old := r.ovf.head? = some row
    q.ovf = (if old then r.ovf else row :: r.ovf) ∧ q.ovfRows = (if old then r.ovfRows else r.ovfRows + 1) ∧ q.rowsOut = r.rowsOut ∧ q.stop = r.stop ∧
    (r.o.spills = false → q.s = r.s ∧ q.spillItems = r.spillItems ∧ q.spillCut = r.spillCut) ∧
    (r.o.spills = true → q.spillItems + q.spillCut = r.spillItems + r.spillCut + 1) := by
  intro q old
  cases hspills : r.o.spills with
  | false =>
    rw [show q = r.flagged row from cut_of_keeps hspills]
    exact ⟨rfl, rfl, rfl, rfl, fun _ => ⟨rfl, rfl, rfl⟩, fun h => absurd h (by decide)⟩
  | true =>
    by_cases hroom : r.spillRoom
    · have hq := ledger_spillEntry r row item val
      have hcut : (r.spillEntry row item val).spillCut = r.spillCut := (congrArg spillCut hq :)
      rw [show q = _ from cut_of_room hspills hroom]
      exact ⟨(congrArg ovf hq :), (congrArg ovfRows hq :), (congrArg rowsOut hq :), (congrArg stop hq :), fun h => absurd h (by decide),
        fun _ => by dsimp only; omega⟩
    · rw [show q = _ from cut_of_noRoom hspills hroom]
      exact ⟨rfl, rfl, rfl, rfl, fun h => absurd h (by decide), fun _ => rfl⟩

section
variable {r : OpRun} {row inRow sub : Nat} {l : List (Col × Cell)}

theorem emitRow_of_ended (h : r.ended = true) : r.emitRow row inRow sub l = r := if_pos h

theorem emitRow_of_full (h : r.ended = false) (hfull : r.fits row l = false) :
    r.emitRow row inRow sub l = { r with stop := some (Code.OUTPUT_FULL, inRow, sub) } :=
  (if_neg (Bool.eq_false_iff.mp h)).trans (if_pos (congrArg Bool.not hfull))

theorem emitRow_of_room (h : r.ended = false) (hfits : r.fits row l = true) :
    r.emitRow row inRow sub l = { l.foldl (fun r e => r.putCell e.1 row e.2) r with rowsOut := r.rowsOut + 1 } := by
  rw [emitRow, h, hfits]
  have hrows : (l.foldl (fun r e => r.putCell e.1 row e.2) r).rowsOut = r.rowsOut := (congrArg rowsOut (ledger_putRow row l r) :)
  rw [← hrows]
  rfl

end

theorem stop_of_not_ended {r : OpRun} (h : r.ended = false) : r.stop = none := by
  rw [ended, Bool.or_eq_false_iff] at h
  exact Option.not_isSome_iff_eq_none.mp (Bool.eq_false_iff.mp h.1)

/-- A row of an output is written whole, or not at all (R196). -/
theorem emitRow_rule (r : OpRun) (row inRow sub : Nat) (l : List (Col × Cell)) :
    let q := r.emitRow row inRow sub l
    (r.ended = true → q = r) ∧ (r.ended = false → r.fits row l = false → q = { r with stop := some (Code.OUTPUT_FULL, inRow, sub) }) ∧
    (r.ended = false → r.fits row l = true → q.rowsOut = r.rowsOut + 1 ∧ q.stop = none ∧ q.rowsIn = r.rowsIn) := by
  refine ⟨emitRow_of_ended, emitRow_of_full, fun h hfits => ?_⟩
  have hq := ledger_putRow row l r
  rw [emitRow_of_room h hfits]
  exact ⟨rfl, (congrArg stop hq :).trans (stop_of_not_ended (r := r) h), (congrArg rowsIn hq :)⟩

end OpRun

/-! ### The result block -/

theorem resultBlock_length (r : OpRun) (code cycles : Nat) : (resultBlock r code cycles).length = 64 := by
  simp [resultBlock]

/-- Bytes read back where a store wrote them: its poison aside, a store writes as a unit does. -/
theorem bytes_store_self (c : CoreSt) (a : Nat) (bs : List Byte) (vst : Bool) : (c.store a bs vst).bytes a bs.length = bs :=
  bytes_unitWrite_self c a bs vst

/-- CYCLES of the result that a call writes next (log entry 17). -/
def resultCycles (r : OpRun) : Nat := r.s.io.takeFree.1.toNat % 2 ^ 32

/-- The core of a call after its result. -/
def resultCore (r : OpRun) (code : Nat) : CoreSt :=
  ((r.s.core r.n).store r.o.statusOff (resultBlock r code (resultCycles r)) false).setX 1 code

theorem putResult_eq (r : OpRun) (code : Nat) :
    putResult r code = State.setCore { r.s with io := r.s.io.takeFree.2 } r.n (resultCore r code) := rfl

/-- A store and a write of X1 change the scalar registers, SRAM and its poison only. -/
theorem setX_store_only (c : CoreSt) (a : Nat) (bs : List Byte) (vst : Bool) (v : Nat) :
    let d := (c.store a bs vst).setX 1 v
    d = { c with x := d.x, sram := d.sram, sramPoison := d.sramPoison } := rfl

theorem setCore_withIo_only (s : State) (io : Io) (n : Nat) (c : CoreSt) :
    let t := State.setCore { s with io := io } n c
    t = { s with io := io, cores := t.cores } := rfl

theorem core_putResult (r : OpRun) (code : Nat) : (putResult r code).core r.n = resultCore r code := by
  rw [putResult_eq, core_setCore_self]

theorem core_putResult_ne (r : OpRun) (code : Nat) {m : Nat} (hm : m ≠ r.n) : (putResult r code).core m = r.s.core m := by
  rw [putResult_eq, core_setCore_ne _ _ hm]
  rfl

theorem putResult_only (r : OpRun) (code : Nat) :
    putResult r code = { r.s with io := { r.s.io with free := r.s.io.free + 1 }, cores := (putResult r code).cores } := by
  rw [putResult_eq]
  exact setCore_withIo_only ..

theorem xr_store (c : CoreSt) (a : Nat) (bs : List Byte) (vst : Bool) (k : Nat) : (c.store a bs vst).xr k = c.xr k := by
  rw [store_only]
  rfl

theorem xr_setX_ne (c : CoreSt) {r k : Nat} (v : Nat) (h : k ≠ r) : (c.setX r v).xr k = c.xr k := by
  rw [xr_setX, if_neg h]
  split
  · next hzero => rw [CoreSt.xr, if_pos hzero]
  · rfl

theorem sram_setX (c : CoreSt) (k v : Nat) : (c.setX k v).sram = c.sram := by
  unfold CoreSt.setX
  split <;> rfl

theorem bytes_resultCore (r : OpRun) (code a n : Nat) : (resultCore r code).bytes a n =
    ((r.s.core r.n).store r.o.statusOff (resultBlock r code (resultCycles r)) false).bytes a n := by
  simp only [CoreSt.bytes, resultCore, sram_setX]

theorem bytes_resultCore_self (r : OpRun) (code : Nat) :
    (resultCore r code).bytes r.o.statusOff 64 = resultBlock r code (resultCycles r) := by
  have hback := bytes_store_self (r.s.core r.n) r.o.statusOff (resultBlock r code (resultCycles r)) false
  rw [resultBlock_length] at hback
  exact (bytes_resultCore ..).trans hback

/-- What the result of a call writes (R185, R189): its block, X1, and nothing else of the core and of the device. -/
theorem putResult_writes (r : OpRun) (code : Nat) (hcode : code < 2 ^ 16) :
    let t := putResult r code
    let off := r.o.statusOff
    (∃ cyc, cyc < 2 ^ 32 ∧ (t.core r.n).bytes off 64 = resultBlock r code cyc) ∧ (t.core r.n).xr 1 = code ∧
    (∀ a, a < off ∨ off + 64 ≤ a → (t.core r.n).bytes a 1 = (r.s.core r.n).bytes a 1) ∧ (∀ k, k ≠ 1 → (t.core r.n).xr k = (r.s.core r.n).xr k) ∧
    t.core r.n = { r.s.core r.n with x := (t.core r.n).x, sram := (t.core r.n).sram, sramPoison := (t.core r.n).sramPoison } ∧
    (∀ m, m ≠ r.n → t.core m = r.s.core m) ∧ t = { r.s with io := { r.s.io with free := r.s.io.free + 1 }, cores := t.cores } := by
  intro t off
  have hlen := resultBlock_length r code (resultCycles r)
  rw [show t.core r.n = resultCore r code from core_putResult r code]
  refine ⟨⟨resultCycles r, Nat.mod_lt _ (by decide), bytes_resultCore_self r code⟩, ?_, fun a ha => ?_, fun k hk => ?_, setX_store_only ..,
    fun m hm => core_putResult_ne r code hm, putResult_only r code⟩
  · rw [resultCore, xr_setX, if_neg (by decide), if_pos rfl]
    exact Nat.mod_eq_of_lt (hcode.trans (by decide))
  · rw [bytes_resultCore]
    exact byte_store_of_outside (by rw [hlen]; omega)
  · rw [resultCore, xr_setX_ne _ _ hk, xr_store]

/-! ### The calls -/

/-- The thirteen operators: instruction, code in OP, checks and rows (Table 7.5). -/
def operators (n : Nat) : List (Instr × Nat × (OpRun → OpSpec)) :=
  [(.opScan n, 1, scanSpec), (.opFilter n, 2, filterSpec), (.opProject n, 3, projectSpec), (.opHash n, 4, hashSpec), (.joinBuild n, 5, buildSpec),
   (.joinProbe n, 6, probeSpec), (.dictLookup n, 7, dictSpec), (.bucketize n, 8, bucketSpec), (.normalize n, 9, normSpec),
   (.opStats n, 10, statsSpec), (.groupAgg n, 11, groupSpec), (.opDedup n, 12, dedupSpec), (.tokenize n, 13, tokenizeSpec)]

/-- What stands before the checks of an accepted call: STATS waits for its ring slot, the locked tables for their lock, and the
direct table of TOKENIZE must lie in SRAM (R218, R221, R245). -/
def acceptedCall (s : State) (n op cn : Nat) (f : OpRun → OpSpec) (o : Opb) : State :=
  if op = 10 ∧ statsWaits s n cn o = true then peerWait s n 1
  else if (op = 11 ∨ op = 12) ∧ waitsForLock s n cn o f = true then
    s.setCore n { s.core n with opWait := (s.core n).task.map (fun t => ⟨t.id, o.bs⟩) }
  else if op = 13 ∧ usesDirect s n cn o = true ∧ (0x400000 < o.f 0x28 4 + 263168 ∨ o.f 0x28 4 % 64 ≠ 0) then
    raiseExc s n (if 0x400000 < o.f 0x28 4 + 263168 then Code.LOCAL_RANGE else Code.MISALIGNED)
  else opCall s n op f

section
variable {s : State} {n op cn : Nat} {f : OpRun → OpSpec} {o : Opb}

theorem acceptedCall_of_slot (h : op = 10 ∧ statsWaits s n cn o = true) : acceptedCall s n op cn f o = peerWait s n 1 := if_pos h

theorem acceptedCall_of_lock {t : Task} (htask : (s.core n).task = some t) (h : (op = 11 ∨ op = 12) ∧ waitsForLock s n cn o f = true) :
    acceptedCall s n op cn f o = s.setCore n { s.core n with opWait := some ⟨t.id, o.bs⟩ } := by
  have hstats : ¬ (op = 10 ∧ statsWaits s n cn o = true) := by omega
  rw [acceptedCall, if_neg hstats, if_pos h, htask, Option.map_some]

theorem acceptedCall_of_far (hdirect : usesDirect s n cn o = true) (hfar : 0x400000 < o.f 0x28 4 + 263168 ∨ o.f 0x28 4 % 64 ≠ 0) :
    acceptedCall s n 13 cn f o = raiseExc s n (if 0x400000 < o.f 0x28 4 + 263168 then Code.LOCAL_RANGE else Code.MISALIGNED) := by
  rw [acceptedCall, if_neg (by omega), if_neg (by omega), if_pos ⟨rfl, hdirect, hfar⟩]

theorem acceptedCall_of_free (hslot : ¬ (op = 10 ∧ statsWaits s n cn o = true))
    (hlock : ¬ ((op = 11 ∨ op = 12) ∧ waitsForLock s n cn o f = true))
    (hfar : ¬ (op = 13 ∧ usesDirect s n cn o = true ∧ (0x400000 < o.f 0x28 4 + 263168 ∨ o.f 0x28 4 % 64 ≠ 0))) :
    acceptedCall s n op cn f o = opCall s n op f := by
  rw [acceptedCall, if_neg hslot, if_neg hlock, if_neg hfar]

theorem acceptedCall_of_other (h : op ∉ [10, 11, 12, 13]) : acceptedCall s n op cn f o = opCall s n op f := by
  simp only [List.mem_cons, List.not_mem_nil, or_false, not_or] at h
  obtain ⟨h10, h11, h12, h13⟩ := h
  exact acceptedCall_of_free (fun hslot => h10 hslot.1) (fun hlock => hlock.1.elim h11 h12) (fun hfar => h13 hfar.1)

end

/-- What an operator's instruction does. -/
def operatorCall (s : State) (n op : Nat) (f : OpRun → OpSpec) : State :=
  match opCalled s n op with
  | none => opCall s n op f
  | some (cn, o) => acceptedCall s n op cn f o

section
variable {s : State} {n op : Nat} {f : OpRun → OpSpec}

theorem operatorCall_of_none (h : opCalled s n op = none) : operatorCall s n op f = opCall s n op f := by
  rw [operatorCall, h]

theorem operatorCall_of_some {cn : Nat} {o : Opb} (h : opCalled s n op = some (cn, o)) : operatorCall s n op f = acceptedCall s n op cn f o := by
  rw [operatorCall, h]

theorem opCall_eq_operatorCall (h : op ∉ [10, 11, 12, 13]) : opCall s n op f = operatorCall s n op f := by
  cases hc : opCalled s n op with
  | none => exact (operatorCall_of_none hc).symm
  | some p => exact ((operatorCall_of_some hc).trans (acceptedCall_of_other h)).symm

theorem execOpStats_eq : execOpStats n s = .next (operatorCall s n 10 statsSpec) := by
  unfold execOpStats operatorCall
  cases opCalled s n 10 with
  | none => rfl
  | some p => simp [acceptedCall]

theorem lockCall_eq (h : op = 11 ∨ op = 12) : lockCall s n op f = operatorCall s n op f := by
  have hstats : op ≠ 10 := by omega
  have hdirect : op ≠ 13 := by omega
  unfold lockCall operatorCall
  cases opCalled s n op with
  | none => rfl
  | some p => simp [acceptedCall, h, hstats, hdirect]

theorem execTokenize_eq : execTokenize n s = .next (operatorCall s n 13 tokenizeSpec) := by
  unfold execTokenize operatorCall
  cases hc : opCalled s n 13 with
  | none => rfl
  | some p =>
    obtain ⟨cn, o⟩ := p
    dsimp only
    split
    next hrange =>
      obtain ⟨hdirect, hbeyond⟩ := hrange
      rw [acceptedCall_of_far hdirect (.inl hbeyond), if_pos hbeyond]
    next hrange =>
      split
      next halign =>
        obtain ⟨hdirect, hodd⟩ := halign
        rw [acceptedCall_of_far hdirect (.inr hodd), if_neg fun hbeyond => hrange ⟨hdirect, hbeyond⟩]
      next halign =>
        rw [acceptedCall_of_free (by omega) (by omega) fun ⟨_, hdirect, hfar⟩ =>
          hfar.elim (fun hbeyond => hrange ⟨hdirect, hbeyond⟩) (fun hodd => halign ⟨hdirect, hodd⟩)]

end

/-- Every operator goes through `operatorCall`. -/
theorem exec_operator (n : Nat) (s : State) : ∀ e ∈ operators n, exec e.1 s = .next (operatorCall s n e.2.1 e.2.2) := by
  have plain : ∀ {op : Nat} {f : OpRun → OpSpec}, op ∉ [10, 11, 12, 13] →
      (.next (opCall s n op f) : Host.Outcome State Fault Refusal) = .next (operatorCall s n op f) :=
    fun h => congrArg _ (opCall_eq_operatorCall h)
  have locked : ∀ {op : Nat} {f : OpRun → OpSpec}, op = 11 ∨ op = 12 →
      (.next (lockCall s n op f) : Host.Outcome State Fault Refusal) = .next (operatorCall s n op f) :=
    fun h => congrArg _ (lockCall_eq h)
  simp only [operators, List.forall_mem_cons]
  exact ⟨plain (by decide), plain (by decide), plain (by decide), plain (by decide), plain (by decide), plain (by decide), plain (by decide),
    plain (by decide), plain (by decide), execOpStats_eq, locked (.inl rfl), locked (.inr rfl), execTokenize_eq,
    List.forall_mem_nil _⟩

/-- A task runs on a core, with no emit and no operator waiting. -/
structure Calls (s : State) (n : Nat) (t : Task) : Prop where
  run : (s.core n).run = .running
  task : (s.core n).task = some t
  emit : (s.core n).emitDst = none
  wait : (s.core n).opWait = none

/-- The block that X1 names. -/
def blockOf (s : State) (n : Nat) : Opb := ⟨(s.core n).bytes ((s.core n).xr 1) 256⟩

/-- The device once a call has read its block. -/
def blockRead (s : State) (n : Nat) : State := notePoison (s.setCore n ((s.core n).noteRead ((s.core n).xr 1) 256)) n

/-- None of ST8 to ST15 is open. -/
def StreamsClosed (s : State) (n : Nat) : Prop := ∀ k, k < 8 → (s.strm n (8 + k)).st = 0

theorem streamsClosed_iff (s : State) (n : Nat) : StreamsClosed s n ↔ (List.range 8).any (fun k => (s.strm n (8 + k)).st != 0) = false := by
  simp [StreamsClosed]

section
variable {s : State} {n op : Nat} {t : Task} {f : OpRun → OpSpec}

/-- STREAM_BUSY comes before every other check (R190). -/
theorem operatorCall_busy (h : Calls s n t) (hbusy : ¬ StreamsClosed s n) :
    operatorCall s n op f = s.setCore n ((s.core n).setX 1 Code.STREAM_BUSY) := by
  rw [streamsClosed_iff, Bool.not_eq_false] at hbusy
  have hnone : opCalled s n op = none := by simp [opCalled, h.task, hbusy]
  rw [operatorCall_of_none hnone]
  simp [opCall, hnone, h.run, h.task, h.emit, h.wait, hbusy]

theorem operatorCall_exc (h : Calls s n t) (hclosed : StreamsClosed s n) (hop : (blockOf s n).op = op) {err : Nat}
    (herr : opExc ((s.core n).xr 1) (blockOf s n) = some err) : operatorCall s n op f = raiseExc s n err := by
  rw [streamsClosed_iff] at hclosed
  unfold blockOf at hop herr
  have hnone : opCalled s n op = none := by simp [opCalled, h.task, herr]
  rw [operatorCall_of_none hnone]
  simp [opCall, hnone, h.run, h.task, h.emit, h.wait, hclosed, hop, herr]

theorem opCalled_of_clear (h : Calls s n t) (hclosed : StreamsClosed s n) (hop : (blockOf s n).op = op)
    (hexc : opExc ((s.core n).xr 1) (blockOf s n) = none) : opCalled s n op = some (t.ctx, blockOf s n) := by
  rw [streamsClosed_iff] at hclosed
  unfold blockOf at hop hexc ⊢
  simp [opCalled, h.run, h.task, h.emit, h.wait, hclosed, hop, hexc]

theorem opCall_of_tried {cn : Nat} {o : Opb} {u : State} (hc : opCalled s n op = some (cn, o)) (hu : opTry (blockRead s n) n cn o f = some u) :
    opCall s n op f = u := by
  unfold blockRead at hu
  simp only [opCall, hc, hu, Option.getD_some]

/-! ### A run from its block -/

variable {cn code : Nat} {o : Opb}

theorem opTry_refused (h : opCheck (opRun s n cn o) (f (opRun s n cn o)) = some code) :
    opTry s n cn o f = some (putResult (opRun s n cn o) code) := by
  simp only [opTry, h]

theorem opTry_noRows (h : opCheck (opRun s n cn o) (f (opRun s n cn o)) = none) (hrows : o.rows = o.resumeRow) :
    opTry s n cn o f = some (putResult (opRun s n cn o) Code.OK) := by
  simp only [opTry, h, if_pos hrows]

theorem opTry_rows (h : opCheck (opRun s n cn o) (f (opRun s n cn o)) = none) (hrows : o.rows ≠ o.resumeRow) :
    opTry s n cn o f = opEnd ((f (opRun s n cn o)).run (opRun s n cn o)) := by
  simp only [opTry, h, if_neg hrows]

end

/-! ### The wait for a lock -/

/-- The checks and rows of the operator that waits for a lock. -/
def lockedSpec (o : Opb) : OpRun → OpSpec := if o.op = 0x0B then groupSpec else dedupSpec

section
variable {s : State} {n : Nat} {t : Task} {w : OpWait}
  (hrun : (s.core n).run = .running) (htask : (s.core n).task = some t) (hwait : (s.core n).opWait = some w) (hmine : w.task = t.id)

include hrun htask hwait hmine in
/-- A poll counts its wait and reads the lock again (R221). -/
theorem exec_foldLockPoll : exec (.foldLockPoll n) s =
    .next (if waitsForLock (peerWait s n 1024) n t.ctx ⟨w.blk⟩ (lockedSpec ⟨w.blk⟩) = true then peerWait s n 1024
      else (opTry ((peerWait s n 1024).setCore n { (peerWait s n 1024).core n with opWait := none }) n t.ctx ⟨w.blk⟩
        (lockedSpec ⟨w.blk⟩)).getD (peerWait s n 1024)) := by
  change execFoldLockPoll n s = _
  unfold execFoldLockPoll
  simp only [hwait, htask, hmine, hrun, ne_eq, not_true_eq_false, or_self, if_false]
  exact (apply_ite Host.Outcome.next _ _ _).symm

end

/-! ### Every call -/

/-- The checks of the block, and then the rows, once nothing else stands before them (R190). -/
theorem opCall_outcomes {s : State} {n op cn : Nat} {f : OpRun → OpSpec} {o : Opb} (hc : opCalled s n op = some (cn, o)) :
    let r := opRun (blockRead s n) n cn o
    (∀ code, opCheck r (f r) = some code → opCall s n op f = putResult r code) ∧
    (opCheck r (f r) = none → o.rows = o.resumeRow → opCall s n op f = putResult r Code.OK) ∧
    (opCheck r (f r) = none → o.rows ≠ o.resumeRow → ∀ u, opEnd ((f r).run r) = some u → opCall s n op f = u) :=
  ⟨fun _ h => opCall_of_tried hc (opTry_refused h), fun h hrows => opCall_of_tried hc (opTry_noRows h hrows),
    fun h hrows _ hu => opCall_of_tried hc ((opTry_rows h hrows).trans hu)⟩

/-- Settles O32: every operator is one `operatorCall`, whose outcomes follow its checks in order. -/
theorem operatorCallsCheckTheirBlocksAndEndWithTheirResults : Obligations.OperatorCallsCheckTheirBlocksAndEndWithTheirResults := by
  refine ⟨putResult_writes, OpRun.cut_counts, OpRun.emitRow_rule, fun s n t => ?_⟩
  intro c x o s' ops hrun htask hemit
  refine ⟨fun hwait e he => ?_, fun w hwait hmine => ?_⟩
  · have hcalls : Calls s n t := ⟨hrun, htask, hemit, hwait⟩
    rw [exec_operator n s e he]
    refine ⟨fun ⟨k, hk, hopen⟩ => congrArg _ (operatorCall_busy hcalls fun hclosed => hopen (hclosed k hk)), fun hclosed hop =>
      ⟨fun err herr => congrArg _ (operatorCall_exc hcalls hclosed hop herr), fun hexc => ?_⟩⟩
    have hcalled : opCalled s n e.2.1 = some (t.ctx, o) := opCalled_of_clear hcalls hclosed hop hexc
    rw [operatorCall_of_some hcalled]
    refine ⟨fun hslot => congrArg _ (acceptedCall_of_slot hslot), fun hlock => congrArg _ (acceptedCall_of_lock htask hlock),
      fun hslot hlock hfar => ?_⟩
    obtain ⟨hrefused, hnone, hrows⟩ := opCall_outcomes (f := e.2.2) hcalled
    rw [acceptedCall_of_free hslot hlock hfar]
    exact ⟨fun code hcode => congrArg _ (hrefused code hcode), fun hok heq => congrArg _ (hnone hok heq),
      fun hok hne u hu => congrArg _ (hrows hok hne u hu)⟩
  · rw [exec_foldLockPoll hrun htask hwait hmine]
    exact ⟨fun hheld => congrArg _ (if_pos hheld),
      fun hfree u hu => congrArg _ ((if_neg (Bool.eq_false_iff.mp hfree)).trans (congrArg (fun q => Option.getD q _) hu))⟩

end Sys2Proof.Machine
end

section
/-! PROOF. ASSAY_LOAD of a table in slot 62: the slot's registers are the load counter of the next unit, and the load's own counts move the
table under it (R224, R225, R230). -/

namespace Sys2Proof.Machine

/-- INVALIDATE of a bound table in service, over a range inside it (R229, Table 8.2). -/
theorem exec_assayLoad_invalidate {s : State} {c : Cmd} {x : Ctx} {u k : Nat} (hctx : c.context s = some x)
    (hbind : assayBind s x.svc (c.p 0x10 1) x.home = some (u, k)) (hlost : AssayTab.lost s u k = false)
    (hrange : c.p 0x14 4 + c.p 0x18 4 ≤ AssayTab.entries s u k) (hop : c.p 0x11 1 = 1) (hdesc : c.p 0x12 2 = 0) :
    exec (.assayLoad c) s = .next (finish (invalidate s u k (c.p 0x14 4) (c.p 0x18 4)) c Code.OK (leBytes 4 (c.p 0x18 4))) := by
  change execAssayLoad c s = _
  simp [execAssayLoad, hctx, hbind, hlost, Nat.not_lt.mpr hrange, hop, hdesc]

/-- A silent command that ends OK leaves the Assayers alone. -/
theorem finish_silent_assay (s : State) {c : Cmd} (hc : c.silent = true) (result : List Byte) :
    (finish s c Code.OK result).assay = s.assay := by
  simp [finish, hc]

/-- A live context of service 0 on die 0. -/
def contextZero : Ctx :=
  { cn := 0, svc := 0, st := .live, slot := none, home := 0, buckets := [], last := 0, descs := [], tableLen := 0 }

/-- Unit 1 is one load short of a carry into LOADS_HI, and table 0 of the context is slot 62 of unit 0.  That slot,
past the eight of Table 8.12, reaches the next unit's page: its TBL_CTRL and TBL_RANGE are unit 1's LOADS_LO and LOADS_HI, so that the table
reads as ganged over the six units of the die.  Its entry 32,769, row 1 of unit 1, is valid. -/
def tableOnLoadCounter : State :=
  { State.reset.mapIo (fun io => io.setReg ((bAssayer 1).base + Off.assayer_LOADS_LO) 0xFFFFFFFF) with
    adm := { ctxs := [(0, contextZero)] }
    assay := { arr := [(32769, { valid := true })], shadow := [(32769, { valid := true })], binds := [(0, 0, 0, 62)] } }

/-- INVALIDATE of the entries 32,768 and 32,769 of table 0. -/
def invalidateTwo : Cmd :=
  { ring := 1, pos := 0, tag := 0, op := 0x08, fence := false, silent := true, irq := false, ctx := 0,
    param := [0, 1, 0, 0] ++ leBytes 4 32768 ++ leBytes 4 2 }

/-- The table is bound and in service, and the command names two of its entries. -/
theorem bound_tableOnLoadCounter :
    invalidateTwo.context tableOnLoadCounter = some contextZero ∧
    assayBind tableOnLoadCounter contextZero.svc (invalidateTwo.p 0x10 1) contextZero.home = some (0, 62) ∧
    AssayTab.lost tableOnLoadCounter 0 62 = false ∧
    invalidateTwo.p 0x14 4 + invalidateTwo.p 0x18 4 ≤ AssayTab.entries tableOnLoadCounter 0 62 ∧
    invalidateTwo.p 0x11 1 = 1 ∧ invalidateTwo.p 0x12 2 = 0 := by decide +kernel

theorem range_invalidateTwo : invalidateTwo.p 0x14 4 = 32768 ∧ invalidateTwo.p 0x18 4 = 2 := by decide

/-- The load of the first entry carries: the table is ganged no more, and the second write goes to another row. -/
theorem invalidate_tableOnLoadCounter :
    AssayTab.rowOf tableOnLoadCounter 0 62 32769 = 32769 ∧
    AssayTab.rowOf (invalidate tableOnLoadCounter 0 62 32768 1) 0 62 32769 = 33793 ∧
    (arrRow (invalidate tableOnLoadCounter 0 62 32768 2) 32769).valid = true := by decide +kernel

/-- Refutes O20: a binding may name slot 62 of unit 0, whose TBL_CTRL and TBL_RANGE lie where unit 1 counts its loads.  INVALIDATE counts each
row that it writes, so that the first one changes where the second entry lies, and the row that the statement names for it stays valid.
Admission binds the slots 0 to 7 only (`assayCheck`); the statement speaks of every state. -/
theorem not_assayTablesAreLoadedScrubbedAndSeeded : ¬ Obligations.AssayTablesAreLoadedScrubbedAndSeeded := by
  unfold Obligations.AssayTablesAreLoadedScrubbedAndSeeded
  intro h
  obtain ⟨hload, -, -⟩ := h
  obtain ⟨hctx, hbind, hlost, hrange, hop, hdesc⟩ := bound_tableOnLoadCounter
  obtain ⟨hfirst, hcount⟩ := range_invalidateTwo
  obtain ⟨hinvalidate, -, -⟩ := hload _ _ _ 0 62 hctx hbind hlost hrange
  obtain ⟨t, hexec, hinvalid, -, -⟩ := hinvalidate hop hdesc
  obtain ⟨hrow, -, hvalid⟩ := invalidate_tableOnLoadCounter
  have hassay : t.assay = (invalidate tableOnLoadCounter 0 62 32768 2).assay := by
    have hfin := Host.Outcome.next.inj (hexec.symm.trans (exec_assayLoad_invalidate hctx hbind hlost hrange hop hdesc))
    simpa only [finish_silent_assay _ (c := invalidateTwo) rfl, hfirst, hcount] using congrArg State.assay hfin
  have hcleared : (arrRow t 32769).valid = false := by
    obtain ⟨-, harr⟩ := hinvalid 1 (by rw [hcount]; decide)
    rw [hfirst, hrow] at harr
    rw [harr]
  rw [arrRow, hassay] at hcleared
  exact Bool.false_ne_true (hcleared.symm.trans hvalid)

end Sys2Proof.Machine
end

section
/-! PROOF. The windows of an EGP request: its positions are counted once each, and a window's groups are the rows that its
positions name (R256, R258, R261). -/

namespace Sys2Proof.Machine

/-- What a left fold over the first numbers keeps. -/
theorem foldl_range_induction {α : Type} {P : Nat → α → Prop} {f : α → Nat → α} {a : α} (start : P 0 a)
    (step : ∀ k x, P k x → P (k + 1) (f x k)) (n : Nat) : P n ((List.range n).foldl f a) := by
  induction n with
  | zero => exact start
  | succ n ih => rw [List.range_succ, List.foldl_append]; exact step n _ ih

/-! ### Merging a position -/

/-- A row joins the groups' rows when it is not yet there. -/
theorem rows_mergePos (gs : List Grp) (row w p : Nat) :
    (mergePos gs row w p).map Grp.row = if row ∈ gs.map Grp.row then gs.map Grp.row else gs.map Grp.row ++ [row] := by
  have hany : gs.any (fun g => g.row == row) = true ↔ row ∈ gs.map Grp.row := by simp
  unfold mergePos
  split
  next h =>
    rw [if_pos (hany.mp h), List.map_map]
    refine List.map_congr_left fun g _ => ?_
    simp only [Function.comp_apply]
    split <;> rfl
  next h => rw [if_neg (fun hm => h (hany.mpr hm)), List.map_append, List.map_singleton]

theorem mem_rows_mergePos {gs : List Grp} {row w p q : Nat} :
    q ∈ (mergePos gs row w p).map Grp.row ↔ q ∈ gs.map Grp.row ∨ q = row := by
  rw [rows_mergePos]
  split
  next h => exact ⟨.inl, fun hq => hq.elim id (· ▸ h)⟩
  next => rw [List.mem_append, List.mem_singleton]

theorem nodup_rows_mergePos {gs : List Grp} (row w p : Nat) (h : (gs.map Grp.row).Nodup) : ((mergePos gs row w p).map Grp.row).Nodup := by
  rw [rows_mergePos]
  split
  next => exact h
  next hrow => exact List.concat_eq_append ▸ h.concat hrow

/-! ### One position of a window -/

section
variable (b : EgpBlk) (rows : Nat) (ix wt : Nat → Nat)

/-- A position contributes to a row: its index names the row, and WEIGHTED_SUM does not skip its weight (R256, R258). -/
def Contributes (p row : Nat) : Prop := posOf b.idx64 rows (ix p) = .row row ∧ ¬ (b.op = 3 ∧ isZero32 (wt p) = true)

/-- Position `lo + k` of the window that starts at `lo`, on the window's groups, the counts and the number of weights skipped. -/
def addPosition (lo : Nat) (acc : List Grp × EgpRes × Nat) (k : Nat) : List Grp × EgpRes × Nat :=
  match posOf b.idx64 rows (ix (lo + k)) with
  | .null => (acc.1, { acc.2.1 with nulls := acc.2.1.nulls + 1 }, acc.2.2)
  | .oob => (acc.1, { acc.2.1 with oob := acc.2.1.oob + 1 }, acc.2.2)
  | .row row =>
    if b.op = 3 ∧ isZero32 (if b.op = 3 then wt (lo + k) else one32) then (acc.1, acc.2.1, acc.2.2 + 1)
    else (mergePos acc.1 row (if b.op = 3 then wt (lo + k) else one32) (lo + k), { acc.2.1 with contrib := acc.2.1.contrib + 1 }, acc.2.2)

/-- The window that starts at `lo`, on the counts of the windows before it. -/
def addPositions (lo : Nat) (start : EgpRes × Nat) : List Grp × EgpRes × Nat :=
  (List.range (min 4096 (b.count - lo))).foldl (addPosition b rows ix wt lo) ([], start)

/-- Window `w` joins the windows before it. -/
def addWindow (acc : List (List Grp) × EgpRes × Nat) (w : Nat) : List (List Grp) × EgpRes × Nat :=
  let g := addPositions b rows ix wt (4096 * w) acc.2
  (acc.1 ++ [g.1], { g.2.1 with groups := g.2.1.groups + g.1.length }, g.2.2)

theorem egpGroups_eq : egpGroups b rows ix wt =
    (List.range (cdiv b.count 4096)).foldl (addWindow b rows ix wt) ([], { indices := b.count }, 0) := rfl

/-- The positions counted so far: null, out of range, contributing, or skipped for their weight. -/
def positionsCounted (c : EgpRes × Nat) : Nat := c.1.nulls + c.1.oob + c.1.contrib + c.2

variable {b rows ix wt} {lo k : Nat} {acc : List Grp × EgpRes × Nat}

theorem addPosition_contributes {row : Nat} (h : Contributes b rows ix wt (lo + k) row) :
    ∃ v, addPosition b rows ix wt lo acc k = (mergePos acc.1 row v (lo + k), { acc.2.1 with contrib := acc.2.1.contrib + 1 }, acc.2.2) := by
  obtain ⟨hpos, hweight⟩ := h
  refine ⟨if b.op = 3 then wt (lo + k) else one32, ?_⟩
  simp only [addPosition, hpos]
  exact if_neg fun ⟨hop, hzero⟩ => hweight ⟨hop, by rwa [if_pos hop] at hzero⟩

/-- A position that contributes to no row is counted as null, as out of range, or with the weights skipped. -/
theorem addPosition_skips (h : ∀ row, ¬ Contributes b rows ix wt (lo + k) row) :
    ∃ c, addPosition b rows ix wt lo acc k = (acc.1, c) ∧ c.1.indices = acc.2.1.indices ∧ c.1.groups = acc.2.1.groups ∧
      positionsCounted c = positionsCounted acc.2 + 1 := by
  cases hpos : posOf b.idx64 rows (ix (lo + k)) with
  | null =>
    simp only [addPosition, hpos]
    exact ⟨_, rfl, rfl, rfl, by simp only [positionsCounted]; omega⟩
  | oob =>
    simp only [addPosition, hpos]
    exact ⟨_, rfl, rfl, rfl, by simp only [positionsCounted]; omega⟩
  | row row =>
    have ⟨hop, hzero⟩ : b.op = 3 ∧ isZero32 (wt (lo + k)) = true := not_not.mp fun hw => h row ⟨hpos, hw⟩
    simp only [addPosition, hpos, hop, hzero, and_self, if_true]
    exact ⟨_, rfl, rfl, rfl, rfl⟩

/-! ### One window -/

variable (b rows ix wt) in
/-- The first `k` positions of the window at `lo` have been seen, on the counts `start`. -/
structure WindowSeen (lo : Nat) (start : EgpRes × Nat) (k : Nat) (acc : List Grp × EgpRes × Nat) : Prop where
  indices : acc.2.1.indices = start.1.indices
  groups : acc.2.1.groups = start.1.groups
  counted : positionsCounted acc.2 = positionsCounted start + k
  nodup : (acc.1.map Grp.row).Nodup
  mem : ∀ row, row ∈ acc.1.map Grp.row ↔ ∃ p, lo ≤ p ∧ p < lo + k ∧ Contributes b rows ix wt p row

variable {start : EgpRes × Nat}

theorem windowSeen_start : WindowSeen b rows ix wt lo start 0 ([], start) :=
  ⟨rfl, rfl, rfl, List.nodup_nil, fun _ => ⟨fun h => absurd h List.not_mem_nil, fun ⟨_, hlo, hhi, _⟩ => absurd hhi (by omega)⟩⟩

/-- A row that the next position too may name. -/
theorem exists_position_succ {Q : Nat → Prop} : (∃ p, lo ≤ p ∧ p < lo + (k + 1) ∧ Q p) ↔ (∃ p, lo ≤ p ∧ p < lo + k ∧ Q p) ∨ Q (lo + k) := by
  constructor
  · rintro ⟨p, hlo, hhi, hq⟩
    rcases Nat.lt_succ_iff_lt_or_eq.mp hhi with hlt | rfl
    · exact .inl ⟨p, hlo, hlt, hq⟩
    · exact .inr hq
  · rintro (⟨p, hlo, hhi, hq⟩ | hq)
    · exact ⟨p, hlo, by omega, hq⟩
    · exact ⟨lo + k, by omega, by omega, hq⟩

theorem WindowSeen.step (h : WindowSeen b rows ix wt lo start k acc) :
    WindowSeen b rows ix wt lo start (k + 1) (addPosition b rows ix wt lo acc k) := by
  obtain ⟨hindices, hgroups, hcounted, hnodup, hmem⟩ := h
  by_cases hrow : ∃ row, Contributes b rows ix wt (lo + k) row
  · obtain ⟨row, hrow⟩ := hrow
    obtain ⟨v, hadd⟩ := addPosition_contributes (acc := acc) hrow
    have honly : ∀ q, Contributes b rows ix wt (lo + k) q ↔ q = row := fun q =>
      ⟨fun hq => Pos.row.inj (hq.1.symm.trans hrow.1), fun hq => hq ▸ hrow⟩
    rw [hadd]
    refine ⟨hindices, hgroups, ?_, nodup_rows_mergePos _ _ _ hnodup, fun q => ?_⟩
    · simp only [positionsCounted] at hcounted ⊢; omega
    · rw [mem_rows_mergePos, hmem, exists_position_succ, honly]
  · rw [not_exists] at hrow
    obtain ⟨c, hadd, hci, hcg, hcc⟩ := addPosition_skips (acc := acc) hrow
    rw [hadd]
    refine ⟨hci.trans hindices, hcg.trans hgroups, by rw [hcc, hcounted]; rfl, hnodup, fun q => ?_⟩
    rw [hmem, exists_position_succ, or_iff_left (hrow q)]

theorem windowSeen_addPositions (lo : Nat) (start : EgpRes × Nat) :
    WindowSeen b rows ix wt lo start (min 4096 (b.count - lo)) (addPositions b rows ix wt lo start) :=
  foldl_range_induction windowSeen_start (fun _ _ h => h.step) _

/-! ### Every window -/

variable (b rows ix wt) in
/-- The groups of window `w`: each row once, and the rows are those that its contributing positions name. -/
def WindowRows (w : Nat) (gs : List Grp) : Prop :=
  (gs.map Grp.row).Nodup ∧
    ∀ row, row ∈ gs.map Grp.row ↔ ∃ p, 4096 * w ≤ p ∧ p < min b.count (4096 * (w + 1)) ∧ Contributes b rows ix wt p row

theorem windowRows_addPositions (w : Nat) (start : EgpRes × Nat) :
    WindowRows b rows ix wt w (addPositions b rows ix wt (4096 * w) start).1 := by
  have h := windowSeen_addPositions (b := b) (rows := rows) (ix := ix) (wt := wt) (4096 * w) start
  refine ⟨h.nodup, fun row => (h.mem row).trans (exists_congr fun p => and_congr_right fun hlo => and_congr_left fun _ => ?_)⟩
  omega

variable (b rows ix wt) in
/-- The first `k` windows have been seen. -/
structure WindowsSeen (k : Nat) (acc : List (List Grp) × EgpRes × Nat) : Prop where
  length : acc.1.length = k
  indices : acc.2.1.indices = b.count
  counted : positionsCounted acc.2 = min b.count (4096 * k)
  groups : acc.2.1.groups = (acc.1.map List.length).sum
  window : ∀ w < k, WindowRows b rows ix wt w (acc.1.getD w [])

theorem WindowsSeen.step {acc : List (List Grp) × EgpRes × Nat} (h : WindowsSeen b rows ix wt k acc) :
    WindowsSeen b rows ix wt (k + 1) (addWindow b rows ix wt acc k) := by
  obtain ⟨hlength, hindices, hcounted, hgroups, hwindow⟩ := h
  have hnew := windowSeen_addPositions (b := b) (rows := rows) (ix := ix) (wt := wt) (4096 * k) acc.2
  refine ⟨?_, hnew.indices.trans hindices, hnew.counted.trans ?_, ?_, fun w hw => ?_⟩
  · rw [addWindow, List.length_append, List.length_singleton, hlength]
  · rw [hcounted]; omega
  · rw [addWindow, List.map_append, List.sum_append, List.map_singleton, List.sum_singleton, ← hgroups, ← hnew.groups]
  · rw [addWindow]
    rcases Nat.lt_succ_iff_lt_or_eq.mp hw with hlt | rfl
    · rw [List.getD_append _ _ _ _ (hlength ▸ hlt)]
      exact hwindow w hlt
    · rw [List.getD_append_right _ _ _ _ hlength.le, hlength, Nat.sub_self]
      exact windowRows_addPositions w acc.2

variable (b rows ix wt) in
/-- R256, R258 and R261 of a whole request. -/
theorem windowsSeen_egpGroups : WindowsSeen b rows ix wt (cdiv b.count 4096) (egpGroups b rows ix wt) := by
  rw [egpGroups_eq]
  refine foldl_range_induction ⟨rfl, rfl, ?_, rfl, fun _ hw => absurd hw (Nat.not_lt_zero _)⟩ (fun _ _ h => h.step) _
  exact (Nat.min_zero _).symm

theorem positions_egpGroups : positionsCounted (egpGroups b rows ix wt).2 = b.count := by
  rw [(windowsSeen_egpGroups b rows ix wt).counted, cdiv]
  omega

end

end Sys2Proof.Machine
end

section
/-! PROOF. EGP_RUN and WINNOW_RUN: the checks of the command, and the run that it queues (R254). -/

namespace Sys2Proof.Machine

theorem exec_unitRun (s : State) (egp : Bool) (c : Cmd) :
    exec (if egp then Instr.egpRun c else .winnowRun c) s = .next (unitRun s egp c) := by
  cases egp <;> rfl

/-- CLUSTER names a cluster, or leaves the choice to the device (Table 13.9). -/
def ClusterNamed (c : Cmd) : Prop := c.p 0x12 1 < 6 ∨ c.p 0x12 1 = 0xFF

/-- FIRST and COUNT name no whole blocks of a U8 descriptor outside the cores (R254). -/
def BlocksBad (c : Cmd) (d : Desc) : Prop :=
  d.etype ≠ Num.U8 ∨ d.tier = 0 ∨ c.p 0x14 4 % 64 ≠ 0 ∨ d.count < c.p 0x14 4 + 64 * c.p 0x18 4

/-- The run of a command's blocks. -/
def queuedRun (s : State) (egp : Bool) (c : Cmd) (x : Ctx) (d : Desc) : UnitRun :=
  { id := s.queue.nextRun, cmd := c, egp := egp, cn := x.cn, unit := runUnit s egp (x.home % 2) (c.p 0x12 1), desc := c.p 0x10 2, d := d,
    first := c.p 0x14 4, count := c.p 0x18 4 }

/-- A run stands in the queue, with its reference on the descriptor of the blocks. -/
def withRun (s : State) (c : Cmd) (x : Ctx) (v : UnitRun) : State :=
  { s with
    adm := { s.adm with refs := s.adm.refs ++ [(x.cn, c.p 0x10 2)] }
    queue := { s.queue with runs := s.queue.runs ++ [v], nextRun := s.queue.nextRun + 1 } }

theorem runUnit_named (s : State) (egp : Bool) (die : Nat) {cluster : Nat} (h : cluster < 6) : runUnit s egp die cluster = 6 * die + cluster :=
  if_pos h

section
variable {s : State} {egp : Bool} {c : Cmd} {x : Ctx} (hctx : c.context s = some x)
include hctx

theorem unitRun_unnamed (hlow : 6 ≤ c.p 0x12 1) (hany : c.p 0x12 1 ≠ 0xFF) : unitRun s egp c = refuse s c Code.RSV_NONZERO := by
  simp only [unitRun, hctx, if_pos (And.intro hlow hany)]

variable (hcluster : ClusterNamed c)
include hcluster

theorem unitRun_range (hcount : c.p 0x18 4 = 0 ∨ 65536 < c.p 0x18 4) : unitRun s egp c = refuse s c Code.COUNT_RANGE := by
  unfold ClusterNamed at hcluster
  simp only [unitRun, hctx, if_neg (show ¬ (6 ≤ c.p 0x12 1 ∧ c.p 0x12 1 ≠ 0xFF) by omega), if_pos hcount]

variable (hpos : 1 ≤ c.p 0x18 4) (hmax : c.p 0x18 4 ≤ 65536)
include hpos hmax

theorem unitRun_noDesc {e : Nat} (hdesc : useDescDir s x.cn (c.p 0x10 2) false = .error e) : unitRun s egp c = refuse s c e := by
  unfold ClusterNamed at hcluster
  simp only [unitRun, hctx, if_neg (show ¬ (6 ≤ c.p 0x12 1 ∧ c.p 0x12 1 ≠ 0xFF) by omega),
    if_neg (show ¬ (c.p 0x18 4 = 0 ∨ 65536 < c.p 0x18 4) by omega), hdesc]

/-- The blocks decide what a command with a cluster, a count and a descriptor in order does. -/
theorem unitRun_blocks {d : Desc} (hdesc : useDescDir s x.cn (c.p 0x10 2) false = .ok d) :
    (BlocksBad c d → unitRun s egp c = refuse s c Code.BAD_COLUMN) ∧
    (¬ BlocksBad c d → unitRun s egp c = housekeep (pumpRuns (withRun s c x (queuedRun s egp c x d)))) := by
  unfold ClusterNamed at hcluster
  simp only [unitRun, hctx, if_neg (show ¬ (6 ≤ c.p 0x12 1 ∧ c.p 0x12 1 ≠ 0xFF) by omega),
    if_neg (show ¬ (c.p 0x18 4 = 0 ∨ 65536 < c.p 0x18 4) by omega), hdesc]
  exact ⟨fun hbad => if_pos hbad, fun hgood => if_neg hgood⟩

end

end Sys2Proof.Machine
end

section
/-! PROOF. How an EGP serves a request: the rules of `egpStep` and `egpServe`, and what the reads and the log of a request change
(R255 to R261, R265, R266, R272, R273). -/

namespace Sys2Proof.Machine

/-! ### The row of an operation -/

/-- The instruction that serves a request of an operation; a reserved operation is served with the gathers. -/
def egpInstr (op u : Nat) : Instr :=
  if op = 1 then .poolSum u else if op = 2 then .poolMean u else if op = 3 then .weightedSum u else if op = 4 then .egpUpdate u else .gather u

/-- The operation of the row. -/
def egpRowOp (op : Nat) : Nat := if 4 < op then 0 else op

theorem exec_egpInstr (s : State) (op u : Nat) : exec (egpInstr op u) s = .next (egpRow s u (egpRowOp op)) := by
  match op with
  | 0 | 1 | 2 | 3 | 4 => rfl
  | n + 5 =>
    have hop : egpRowOp (n + 5) = 0 := if_pos (by omega)
    have hinstr : egpInstr (n + 5) u = .gather u := by simp [egpInstr]
    rw [hop, hinstr]
    rfl

/-- The state after a request has been served. -/
def egpEnded (s : State) (u : Nat) (r : UReq) : Served → State
  | .wait c => s.migrFault c
  | .done t c => fenceForget (endReq t true u r c) r.serial

/-- The unit's next request, unless it is a remote update that has passed its checks, is served. -/
theorem exec_egpInstr_serves {s : State} {u : Nat} {r : UReq} (hon : s.io.isOffline (bEgp u) = false)
    (hnext : nextReq (unitQueue s true u) (egpHeld s) = some r)
    (hlocal : ¬ (EgpBlk.op ⟨r.blk⟩ = 4 ∧ EgpBlk.remote ⟨r.blk⟩ = true ∧ (egpCheck s r).isOk = true)) :
    exec (egpInstr (EgpBlk.op ⟨r.blk⟩) u) s = .next (housekeep (egpEnded s u r (egpServe s u r))) := by
  have hstep : egpStep s u (egpRowOp (EgpBlk.op ⟨r.blk⟩)) = egpEnded s u r (egpServe s u r) := by
    simp only [egpStep, hnext, egpRowOp, ne_eq, not_true_eq_false, if_false, if_neg hlocal]
    cases egpServe s u r <;> rfl
  rw [exec_egpInstr, egpRow, if_neg (by rw [hon]; exact Bool.false_ne_true), hstep]

/-! ### A request that its checks refuse -/

/-- CODE alone is written where a result descriptor can take it (R255, R257). -/
def codeWritten (s : State) (r : UReq) (e : Nat) : State :=
  match reqSrc s r (EgpBlk.f ⟨r.blk⟩ 0x16 2) true with
  | some (.desc d) =>
    if d.etype = Num.U8 ∧ EgpBlk.f ⟨r.blk⟩ 0x24 4 + 2 ≤ d.count then putDescBytes s r.home d (EgpBlk.f ⟨r.blk⟩ 0x24 4) (leBytes 2 e) false else s
  | _ => s

theorem codeWritten_cases (s : State) (r : UReq) (e : Nat) :
    codeWritten s r e = s ∨ ∃ d, reqSrc s r (EgpBlk.f ⟨r.blk⟩ 0x16 2) true = some (.desc d) ∧
      codeWritten s r e = putDescBytes s r.home d (EgpBlk.f ⟨r.blk⟩ 0x24 4) (leBytes 2 e) false := by
  unfold codeWritten
  split
  next d hd =>
    split
    · exact .inr ⟨d, hd, rfl⟩
    · exact .inl rfl
  next => exact .inl rfl

theorem egpServe_refused {s : State} {u : Nat} {r : UReq} {e : Nat} (h : egpCheck s r = .error e) :
    egpServe s u r = .done (egpCount (codeWritten s r e) u ⟨r.blk⟩ { code := e } 0) e := by
  simp only [egpServe, h]
  rfl

/-! ### A request whose output and result are descriptors -/

section
variable {s : State} {u : Nat} {r : UReq} {i : EgpIn} {d e : Desc} (hout : i.out = .desc d) (hres : i.res = .desc e)

/-- The index of a position (R256). -/
abbrev indexAt (s : State) (r : UReq) (i : EgpIn) (p : Nat) : Nat :=
  i.idx.code s r.home (EgpBlk.f ⟨r.blk⟩ 0x18 4 + p) (if EgpBlk.idx64 ⟨r.blk⟩ then 8 else 4)
/-- The weight of a position (R258). -/
abbrev weightAt (s : State) (r : UReq) (i : EgpIn) (p : Nat) : Nat := i.wt.code s r.home (EgpBlk.f ⟨r.blk⟩ 0x1C 4 + p) 4

/-- The groups and counts of a request. -/
abbrev requestGroups (s : State) (r : UReq) (i : EgpIn) : List (List Grp) × EgpRes × Nat :=
  egpGroups ⟨r.blk⟩ i.t.rows (indexAt s r i) (weightAt s r i)

/-- A request's result stands in its descriptor. -/
def putRes (r : UReq) (e : Desc) (t : State) (res : EgpRes) : State :=
  putDescBytes t r.home e (EgpBlk.f ⟨r.blk⟩ 0x24 4) (res.bytes (EgpBlk.f ⟨r.blk⟩ 0x0C 4)) false

/-- A request ends with its result written and counted. -/
def servedWith (u : Nat) (r : UReq) (e : Desc) (t : State) (res : EgpRes) (z code : Nat) : Served :=
  .done (egpCount (putRes r e t res) u ⟨r.blk⟩ res z) code

include hout hres

theorem egpFinish_desc (t : State) (res : EgpRes) (entry : List Byte) (p : Bool) : egpFinish t r i res entry p = some (putRes r e t res) := by
  simp only [egpFinish, hout, hres]
  rfl

variable (hok : egpCheck s r = .ok i) (hfree : tHeld s d.tier d.base = false) (hfree' : tHeld s e.tier e.base = false)
include hok hfree hfree'

theorem egpServe_waits {c p : Nat} (hfault : egpFault s u r i = some (c, p)) (hwaits : faultWaits c = true) : egpServe s u r = .wait c := by
  simp only [egpServe, hok, hout, hres, hfree, hfree', Bool.or_self, Bool.false_eq_true, if_false, hfault, hwaits, if_true]

/-- A request that fails writes the rows gathered before the position, and where it failed (R272). -/
theorem egpServe_fails {c p : Nat} (hfault : egpFault s u r i = some (c, p)) (hwaits : faultWaits c = false) :
    egpServe s u r = servedWith u r e (if EgpBlk.op ⟨r.blk⟩ = 0 then (gatherRows s r i p).1 else s)
      { (requestGroups s r i).2.1 with code := Code.INPUT_FAILED, firstBad := p } (requestGroups s r i).2.2 Code.INPUT_FAILED := by
  simp only [egpServe, hok, hout, hres, hfree, hfree', Bool.or_self, Bool.false_eq_true, if_false, hfault, hwaits, egpFinish_desc hout hres]
  rfl

end

end Sys2Proof.Machine
end

section
/-! PROOF. What an EGP writes besides the output of a request: the log of an UPDATE, and the counts and heat of the rows read (R262,
R265, R266). -/

namespace Sys2Proof.Machine

theorem bEgp_valid {u : Nat} (hu : u < 12) : (bEgp u).valid = true := decide_eq_true hu

section
variable {u : Nat} {s t : State}

/-- An EGP's registers do not touch another block's. -/
theorem reg_of_onlyEgp (h : Io.OnlyRegs [bEgp u] s.io t.io) {b : Block} (hb : b.valid = true) (hk : b.kind ≠ .egp) {o : Nat} (ho : o < 4096) :
    t.io.reg (b.base + o) = s.io.reg (b.base + o) := by
  refine h.2 _ fun k hmem hat => ?_
  rw [blockAt_base (by simpa [Block.valid] using hb) (ho.trans_le (Io.pages_pos _)), List.mem_singleton.mp hmem] at hat
  exact hk (congrArg Block.kind (Option.some.inj hat))

/-- The source address of log entries stands in the pages of GLB and REEL (R266). -/
theorem sourceAddr_of_onlyEgp (h : Io.OnlyRegs [bEgp u] s.io t.io) : sourceAddr t = sourceAddr s := by
  have hfeature : feature t.io 3 = feature s.io 3 := by
    simp only [feature, Io.reg64, reg_of_onlyEgp h (b := bGlb) rfl nofun (o := Off.glb_FEAT_LO) (by decide)]
    rw [Nat.add_assoc, reg_of_onlyEgp h (b := bGlb) rfl nofun (o := Off.glb_FEAT_LO + 4) (by decide)]
  have hown : ownAddr t = ownAddr s := by
    unfold ownAddr Io.bf Io.fld
    rw [reg_of_onlyEgp h (b := bReel) rfl nofun (o := Off.reel_FAB_STAT) (by decide)]
  simp only [sourceAddr, hfeature, hown]

end

/-! ### The log -/

/-- The entry that a position of an UPDATE logs, if it is a row (R266). -/
def entryAt (s : State) (r : UReq) (i : EgpIn) (p : Nat) : Option (Nat × LogEnt) :=
  match posOf (EgpBlk.idx64 ⟨r.blk⟩) i.t.rows (indexAt s r i p) with
  | .row k => some (i.ti, ⟨EgpBlk.f ⟨r.blk⟩ 0x28 4, k, sourceAddr s, EgpBlk.f ⟨r.blk⟩ 6 2, p, (valueRow s r i p).1, (valueRow s r i p).2⟩)
  | _ => none

/-- A position of an UPDATE on the positions before it: its entry is logged and counted. -/
def logPosition (u : Nat) (r : UReq) (i : EgpIn) (ix : Nat → Nat) (t : State) (p : Nat) : State :=
  match posOf (EgpBlk.idx64 ⟨r.blk⟩) i.t.rows (ix p) with
  | .row k =>
    (logEntry i.ti ⟨EgpBlk.f ⟨r.blk⟩ 0x28 4, k, sourceAddr t, EgpBlk.f ⟨r.blk⟩ 6 2, p, (valueRow t r i p).1, (valueRow t r i p).2⟩ t).mapIo
      fun io => io.count64 (bEgp u) Off.egp_UPD_ENTRIES_LO 1
  | _ => t

/-- From `s` to `t` the entries `es` are logged, registers of the EGP's page may change, and nothing else does. -/
structure Logged (u : Nat) (s : State) (es : List (Nat × LogEnt)) (t : State) : Prop where
  regs : Io.OnlyRegs [bEgp u] s.io t.io
  frame : t = { s with io := t.io, egp := { s.egp with log := s.egp.log ++ es } }

section
variable {u : Nat} {s t : State} {es : List (Nat × LogEnt)}

theorem logged_nil : Logged u s [] s := ⟨Io.onlyRegs_refl _ _, by rw [List.append_nil]⟩

theorem Logged.valueRow (h : Logged u s es t) (r : UReq) (i : EgpIn) (p : Nat) : valueRow t r i p = valueRow s r i p := by
  rw [h.frame]
  rfl

theorem Logged.position (hu : u < 12) (h : Logged u s es t) (r : UReq) (i : EgpIn) (p : Nat) :
    Logged u s (es ++ (entryAt s r i p).toList) (logPosition u r i (indexAt s r i) t p) := by
  unfold entryAt logPosition
  split
  next k _ =>
    have hoffset : Off.egp_UPD_ENTRIES_LO + 4 < 4096 := by decide
    refine ⟨h.regs.trans (Io.onlyRegs_count64 t.io (bEgp_valid hu) (hoffset.trans_le (Io.pages_pos _)) 1), ?_⟩
    rw [h.valueRow, sourceAddr_of_onlyEgp h.regs, Option.toList_some, ← List.append_assoc]
    conv_lhs => rw [h.frame]
    rfl
  next => exact (List.append_nil es).symm ▸ h

theorem logged_positions (hu : u < 12) (s : State) (r : UReq) (i : EgpIn) (n : Nat) :
    Logged u s ((List.range n).filterMap (entryAt s r i)) ((List.range n).foldl (logPosition u r i (indexAt s r i)) s) := by
  refine foldl_range_induction (P := fun k t => Logged u s ((List.range k).filterMap (entryAt s r i)) t) logged_nil (fun k t h => ?_) n
  have hlast : [k].filterMap (entryAt s r i) = (entryAt s r i k).toList := by
    rw [List.filterMap_cons]
    cases entryAt s r i k <;> rfl
  rw [List.range_succ, List.filterMap_append, hlast]
  exact h.position hu r i k

end

/-! ### The rows read -/

/-- From `s` to `t` registers of the EGP's page and the units' heat may change, and nothing else does. -/
structure OnlyHeat (u : Nat) (s t : State) : Prop where
  regs : Io.OnlyRegs [bEgp u] s.io t.io
  frame : t = { s with io := t.io, egp := { s.egp with heat := t.egp.heat } }

section
variable {u : Nat} {s t w : State}

theorem onlyHeat_refl (s : State) : OnlyHeat u s s := ⟨Io.onlyRegs_refl _ _, rfl⟩

theorem OnlyHeat.trans (h : OnlyHeat u s t) (k : OnlyHeat u t w) : OnlyHeat u s w := by
  refine ⟨h.regs.trans k.regs, ?_⟩
  rw [k.frame, h.frame]

theorem OnlyHeat.foldl {f : State → Grp → State} (h : ∀ s g, OnlyHeat u s (f s g)) (l : List Grp) (s : State) : OnlyHeat u s (l.foldl f s) := by
  induction l generalizing s with
  | nil => exact onlyHeat_refl s
  | cons g l ih => exact (h s g).trans (ih _)

theorem onlyHeat_addHeat (s : State) (ti : Nat) (t : Tab) (r n : Nat) : OnlyHeat u s (addHeat s u ti t r n) := by
  unfold addHeat
  split
  · exact onlyHeat_refl s
  · exact ⟨Io.onlyRegs_refl _ _, rfl⟩

theorem onlyHeat_countRead (hu : u < 12) (s : State) (ti r : Nat) : OnlyHeat u s (countRead s u ti r) := by
  refine ⟨Io.onlyRegs_count64 s.io (bEgp_valid hu) ?_ 1, rfl⟩
  have hcopies : Off.egp_HRC_READS_LO + 4 < 4096 ∧ Off.egp_REPL_READS_LO + 4 < 4096 ∧ Off.egp_HOME_READS_LO + 4 < 4096 := by decide
  obtain ⟨hhot, hwarm, hhome⟩ := hcopies
  refine lt_of_lt_of_le ?_ (Io.pages_pos _)
  split
  · exact hhot
  · split
    · exact hwarm
    · exact hhome

end

/-- The groups of a request whose rows are read. -/
def readGroups (s : State) (r : UReq) (i : EgpIn) : List Grp := (requestGroups s r i).1.flatten.filter fun g => g.read (EgpBlk.op ⟨r.blk⟩)

/-- The device once a request's rows have been read: each read is counted, and every group adds its heat. -/
def rowsRead (s : State) (u : Nat) (r : UReq) (i : EgpIn) : State :=
  ((requestGroups s r i).1.flatten.filter fun g => !g.read (EgpBlk.op ⟨r.blk⟩)).foldl (fun s g => addHeat s u i.ti i.t g.row g.n)
    ((readGroups s r i).foldl (fun s g => addHeat (countRead s u i.ti g.row) u i.ti i.t g.row g.n) s)

theorem onlyHeat_rowsRead {u : Nat} (hu : u < 12) (s : State) (r : UReq) (i : EgpIn) : OnlyHeat u s (rowsRead s u r i) :=
  (OnlyHeat.foldl (fun s g => (onlyHeat_countRead hu s i.ti g.row).trans (onlyHeat_addHeat ..)) _ s).trans
    (OnlyHeat.foldl (fun _ _ => onlyHeat_addHeat ..) _ _)

/-! ### A request whose reads meet no fault -/

/-- Whether a row that a request reads is poisoned. -/
def rowsPoisoned (s : State) (r : UReq) (i : EgpIn) : Bool := (readGroups s r i).any fun g => rowPoison s i.t g.row

/-- The result of a request that gathers or pools (Table 9.5). -/
def readRes (s : State) (r : UReq) (i : EgpIn) : EgpRes :=
  { (requestGroups s r i).2.1 with
    poison := rowsPoisoned s r i
    empty := EgpBlk.op ⟨r.blk⟩ ≠ 0 && (requestGroups s r i).2.1.contrib == 0
    mergedZero := EgpBlk.op ⟨r.blk⟩ ≠ 0 && (requestGroups s r i).1.flatten.any fun g => isZero32 g.w }

/-- The pooled vector stands in the output row (R258, R260). -/
def putPooled (s : State) (r : UReq) (i : EgpIn) (d : Desc) (t : State) : State :=
  putRow t r.home d (EgpBlk.f ⟨r.blk⟩ 0x20 4)
    ((poolVector s i.t (EgpBlk.op ⟨r.blk⟩) (requestGroups s r i).2.1.contrib (requestGroups s r i).1).map (outCode (EgpBlk.f ⟨r.blk⟩ 3 1))) []
    (rowsPoisoned s r i || wtPoison s r i)

section
variable {s : State} {u : Nat} {r : UReq} {i : EgpIn} {d e : Desc} (hout : i.out = .desc d) (hres : i.res = .desc e)
  (hok : egpCheck s r = .ok i) (hfree : tHeld s d.tier d.base = false) (hfree' : tHeld s e.tier e.base = false)
  (hclear : egpFault s u r i = none)
include hout hres hok hfree hfree' hclear

theorem egpServe_logs (hop : EgpBlk.op ⟨r.blk⟩ = 4) :
    egpServe s u r = servedWith u r e ((List.range (EgpBlk.count ⟨r.blk⟩)).foldl (logPosition u r i (indexAt s r i)) s)
      (requestGroups s r i).2.1 (requestGroups s r i).2.2 0 := by
  simp only [egpServe, hok, hout, hres, hfree, hfree', Bool.or_self, Bool.false_eq_true, if_false, hclear, hop, if_true, egpFinish_desc hout hres]
  rfl

theorem egpServe_gathers (hop : EgpBlk.op ⟨r.blk⟩ = 0) :
    egpServe s u r = servedWith u r e (gatherRows (rowsRead s u r i) r i (EgpBlk.count ⟨r.blk⟩)).1 (readRes s r i) (requestGroups s r i).2.2 0 := by
  simp only [egpServe, hok, hout, hres, hfree, hfree', Bool.or_self, Bool.false_eq_true, if_false, hclear, egpFinish_desc hout hres,
    if_neg (show ¬ EgpBlk.op ⟨r.blk⟩ = 4 by omega), if_pos hop]
  rfl

theorem egpServe_pools (hpool : 1 ≤ EgpBlk.op ⟨r.blk⟩) (hop : EgpBlk.op ⟨r.blk⟩ < 4) :
    egpServe s u r = servedWith u r e (putPooled s r i d (rowsRead s u r i)) (readRes s r i) (requestGroups s r i).2.2 0 := by
  simp only [egpServe, hok, hout, hres, hfree, hfree', Bool.or_self, Bool.false_eq_true, if_false, hclear, egpFinish_desc hout hres,
    if_neg (show ¬ EgpBlk.op ⟨r.blk⟩ = 4 by omega), if_neg (show ¬ EgpBlk.op ⟨r.blk⟩ = 0 by omega)]
  rfl

end

end Sys2Proof.Machine
end

section
/-! PROOF. The requests of the EGPs, settled from the rules of their windows, their runs and their service. -/

namespace Sys2Proof.Machine

section
variable {s : State} {u : Nat} {r : UReq} (hon : s.io.isOffline (bEgp u) = false)
  (hnext : nextReq (unitQueue s true u) (egpHeld s) = some r)
include hon hnext

theorem exec_egpInstr_refused {e : Nat} (h : egpCheck s r = .error e) : exec (egpInstr (EgpBlk.op ⟨r.blk⟩) u) s =
    .next (housekeep (fenceForget (endReq (egpCount (codeWritten s r e) u ⟨r.blk⟩ { code := e } 0) true u r e) r.serial)) := by
  rw [exec_egpInstr_serves hon hnext (by rw [h]; exact fun hk => Bool.false_ne_true hk.2.2), egpServe_refused h]
  rfl

variable (hlocal : EgpBlk.remote ⟨r.blk⟩ = false)
include hlocal

theorem exec_egpInstr_waits {c : Nat} (h : egpServe s u r = .wait c) :
    exec (egpInstr (EgpBlk.op ⟨r.blk⟩) u) s = .next (housekeep (s.migrFault c)) := by
  rw [exec_egpInstr_serves hon hnext (by rw [hlocal]; exact fun hk => Bool.false_ne_true hk.2.1), h]
  rfl

theorem exec_egpInstr_served {e : Desc} {t : State} {res : EgpRes} {z code : Nat} (h : egpServe s u r = servedWith u r e t res z code) :
    exec (egpInstr (EgpBlk.op ⟨r.blk⟩) u) s =
      .next (housekeep (fenceForget (endReq (egpCount (putRes r e t res) u ⟨r.blk⟩ res z) true u r code) r.serial)) := by
  rw [exec_egpInstr_serves hon hnext (by rw [hlocal]; exact fun hk => Bool.false_ne_true hk.2.1), h]
  rfl

end

/-- Settles O34: the windows by induction on their positions, the runs by the checks of their command, the requests by how they are served. -/
theorem egpRequestsGatherPoolAndLog : Obligations.EgpRequestsGatherPoolAndLog := by
  refine ⟨fun b rows ix wt => ?_, fun s c egp => ?_, fun s u r hu hon hnext => ?_⟩
  · have h := windowsSeen_egpGroups b rows ix wt
    exact ⟨h.indices, positions_egpGroups, h.length, h.groups, fun w hw => h.window w (hw.trans_eq h.length)⟩
  · intro cmd cl first n x hctx
    rw [show exec cmd s = .next (unitRun s egp c) from exec_unitRun s egp c]
    refine ⟨fun hlow hany => congrArg _ (unitRun_unnamed hctx hlow hany), fun hcl hn => congrArg _ (unitRun_range hctx hcl hn),
      fun hcl hpos hmax => ?_⟩
    refine ⟨fun e he => congrArg _ (unitRun_noDesc hctx hcl hpos hmax he), fun d hd => ?_⟩
    obtain ⟨hbad, hgood⟩ := unitRun_blocks (egp := egp) hctx hcl hpos hmax hd
    exact ⟨fun h => congrArg _ (hbad h), fun h =>
      ⟨queuedRun s egp c x d, rfl, rfl, rfl, rfl, rfl, rfl, rfl, fun hcl => runUnit_named s egp _ hcl, congrArg _ (hgood h)⟩⟩
  · refine ⟨fun e he => ?_, fun i d e hok hlocal hout hres hfree hfree' => ?_⟩
    · exact ⟨codeWritten s r e, exec_egpInstr_refused hon hnext he, codeWritten_cases s r e⟩
    · refine ⟨fun c p hfault => ⟨fun hwaits => ?_, fun hfails hop => ?_, fun hfails hop => ?_⟩, fun hclear => ⟨fun hop => ?_, fun hop => ?_⟩⟩
      · exact exec_egpInstr_waits hon hnext hlocal (egpServe_waits hout hres hok hfree hfree' hfault hwaits)
      · refine exec_egpInstr_served hon hnext hlocal ?_
        rw [egpServe_fails hout hres hok hfree hfree' hfault hfails, if_neg (Nat.one_le_iff_ne_zero.mp hop)]
      · refine exec_egpInstr_served hon hnext hlocal ?_
        rw [egpServe_fails hout hres hok hfree hfree' hfault hfails, if_pos hop]
      · have hlog := logged_positions hu s r i (EgpBlk.count ⟨r.blk⟩)
        exact ⟨_, exec_egpInstr_served hon hnext hlocal (egpServe_logs hout hres hok hfree hfree' hclear hop), hlog.regs, hlog.frame⟩
      · have hread := onlyHeat_rowsRead hu s r i
        refine ⟨rowsRead s u r i, hread.frame, hread.regs, fun hpool => ?_, fun hgather => ?_⟩
        · exact exec_egpInstr_served hon hnext hlocal (egpServe_pools hout hres hok hfree hfree' hclear hpool hop)
        · exact exec_egpInstr_served hon hnext hlocal (egpServe_gathers hout hres hok hfree hfree' hclear hgather)

end Sys2Proof.Machine
end

section
/-! PROOF. The order of dispatch, and what one dispatch does (R315, R342, R391). -/

namespace Sys2Proof.Machine

/-! ### The order of the ready tasks -/

/-- By what the ready tasks of a die are ordered: their level, then rounds, deadlines, readiness and template (R315, R342, R391). -/
def dispatchKey (s : State) (t : Task) : ℕ ×ₗ ℕ ×ₗ ℕ ×ₗ ℕ ×ₗ ℕ :=
  let d := if taskPri s t = 0 ∧ (tmplOf s t.die t.tmpl).deadline then (1, t.deadline.getD (2 ^ 64)) else (2, 0)
  toLex (taskPri s t, toLex (if t.only.isSome then 0 else d.1, toLex (d.2, toLex (t.readyAt, t.tmpl))))

/-- One level of a lexicographic comparison. -/
theorem lexLevel_iff (x y : Nat) (rest : Bool) : (if x ≠ y then decide (x < y) else rest) = true ↔ x < y ∨ x = y ∧ rest = true := by
  split
  · rename_i h
    simp [h]
  · rename_i h
    simp [not_ne_iff.mp h]

theorem taskBefore_iff (s : State) (a b : Task) : taskBefore s a b = true ↔ dispatchKey s a < dispatchKey s b := by
  simp only [taskBefore, lexLevel_iff, dispatchKey, Prod.Lex.toLex_lt_toLex, decide_eq_true_eq]

theorem taskBefore_eq_false_iff (s : State) (a b : Task) : taskBefore s b a = false ↔ dispatchKey s a ≤ dispatchKey s b := by
  rw [← not_lt, ← taskBefore_iff, Bool.not_eq_true]

theorem insertTask_perm (s : State) (t : Task) (l : List Task) : (insertTask s t l).Perm (t :: l) := by
  induction l with
  | nil => exact .refl _
  | cons u l ih =>
    unfold insertTask
    split
    · exact .refl _
    · exact (ih.cons u).trans (.swap t u l)

/-- A task goes in after its equals, so that what was in order stays in order. -/
theorem pairwise_insertTask (s : State) (t : Task) {l : List Task} (h : l.Pairwise (fun a b => dispatchKey s a ≤ dispatchKey s b)) :
    (insertTask s t l).Pairwise (fun a b => dispatchKey s a ≤ dispatchKey s b) := by
  induction l with
  | nil => exact List.pairwise_singleton ..
  | cons u l ih =>
    obtain ⟨hu, hl⟩ := List.pairwise_cons.mp h
    unfold insertTask
    split
    · rename_i hlt
      have htu := ((taskBefore_iff s t u).mp hlt).le
      exact List.pairwise_cons.mpr ⟨List.forall_mem_cons.mpr ⟨htu, fun b hb => htu.trans (hu b hb)⟩, h⟩
    · rename_i hge
      have hut := (taskBefore_eq_false_iff s u t).mp (Bool.not_eq_true _ ▸ hge)
      refine List.pairwise_cons.mpr ⟨fun b hb => ?_, ih hl⟩
      rcases List.mem_cons.mp ((insertTask_perm s t l).mem_iff.mp hb) with rfl | hb
      · exact hut
      · exact hu b hb

theorem foldl_insertTask_perm (s : State) (l acc : List Task) : (l.foldl (fun l t => insertTask s t l) acc).Perm (l ++ acc) := by
  induction l generalizing acc with
  | nil => exact .refl _
  | cons t l ih => exact (ih _).trans (((insertTask_perm s t acc).append_left l).trans List.perm_middle)

theorem pairwise_foldl_insertTask (s : State) (l : List Task) {acc : List Task} (h : acc.Pairwise (fun a b => dispatchKey s a ≤ dispatchKey s b)) :
    (l.foldl (fun l t => insertTask s t l) acc).Pairwise (fun a b => dispatchKey s a ≤ dispatchKey s b) := by
  induction l generalizing acc with
  | nil => exact h
  | cons t l ih => exact ih (pairwise_insertTask s t h)

theorem readyOrder_perm (s : State) (die : Nat) : (readyOrder s die).Perm (s.caller die).ready := by
  have h := foldl_insertTask_perm s (s.caller die).ready []
  rwa [List.append_nil] at h

theorem readyOrder_pairwise (s : State) (die : Nat) : (readyOrder s die).Pairwise (fun a b => taskBefore s b a = false) :=
  (pairwise_foldl_insertTask s _ .nil).imp fun h => (taskBefore_eq_false_iff s _ _).mpr h

/-! ### One dispatch -/

/-- The state in which a dispatch looks for a task: the rounds, ended tasks, stale bindings and freed slots are settled (R314, R318, R319). -/
def dispatchSettled (s : State) (die : Nat) : State := refillAll (housekeep (dropStale (formRound s die) die)) die

section
variable {s : State} {die : Nat}

theorem exec_dispatch_held (h : s.io.bf (bCaller die) 0x008 10 10 = 1) : exec (.dispatch die) s = .next s :=
  congrArg Host.Outcome.next (if_pos h)

variable (hrun : s.io.bf (bCaller die) 0x008 10 10 ≠ 1)
include hrun

theorem exec_dispatch_none (h : ∀ t ∈ ((dispatchSettled s die).caller die).ready, chooseCore (dispatchSettled s die) t = none) :
    exec (.dispatch die) s = .next (dispatchSettled s die) := by
  have hnone : (readyOrder (dispatchSettled s die) die).findSome? (fun t => (chooseCore (dispatchSettled s die) t).map (fun e => (t, e))) = none :=
    List.findSome?_eq_none_iff.mpr fun t ht => by rw [h t ((readyOrder_perm _ _).mem_iff.mp ht)]; rfl
  show Host.Outcome.next (dispatchOne s die) = _
  unfold dispatchSettled at hnone ⊢
  simp only [dispatchOne, if_neg hrun, hnone]

/-- The first task in order that has a core is placed. -/
theorem exec_dispatch_first {l r : List Task} {t : Task} {n : Nat} {now : Bool} (hord : readyOrder (dispatchSettled s die) die = l ++ t :: r)
    (hl : ∀ u ∈ l, chooseCore (dispatchSettled s die) u = none) (ht : chooseCore (dispatchSettled s die) t = some (n, now)) :
    exec (.dispatch die) s = .next (placeTask (dispatchSettled s die) t n now) := by
  have hfirst : (readyOrder (dispatchSettled s die) die).findSome? (fun t => (chooseCore (dispatchSettled s die) t).map (fun e => (t, e))) =
      some (t, n, now) := by
    have hbefore : l.findSome? (fun t => (chooseCore (dispatchSettled s die) t).map (fun e => (t, e))) = none :=
      List.findSome?_eq_none_iff.mpr fun u hu => by rw [hl u hu]; rfl
    rw [hord, List.findSome?_append, hbefore, List.findSome?_cons, ht]
    rfl
  show Host.Outcome.next (dispatchOne s die) = _
  unfold dispatchSettled at hfirst ⊢
  simp only [dispatchOne, if_neg hrun, hfirst]

end

end Sys2Proof.Machine
end

section
/-! PROOF. The core that a task goes to: a waiting one with its context, then the lowest; else the one that has run longest (R343, R344). -/

namespace Sys2Proof.Machine

/-! ### The first and the least of a list -/

theorem le_of_find?_sorted {p : Nat → Bool} {l : List Nat} {n m : Nat} (hs : l.Pairwise (· < ·)) (hn : l.find? p = some n) (hm : m ∈ l)
    (hp : p m = true) : n ≤ m := by
  obtain ⟨-, l₁, l₂, rfl, hbefore⟩ := List.find?_eq_some_iff_append.mp hn
  rcases List.mem_append.mp hm with h | h
  · have := hbefore m h
    simp [hp] at this
  · rcases List.mem_cons.mp h with rfl | h
    · exact le_rfl
    · exact (List.rel_of_pairwise_cons (List.pairwise_append.mp hs).2.1 h).le

theorem head_le_of_sorted {l : List Nat} {n m : Nat} (hs : l.Pairwise (· < ·)) (hn : l.head? = some n) (hm : m ∈ l) : n ≤ m := by
  obtain ⟨r, rfl⟩ := List.head?_eq_some_iff.mp hn
  rcases List.mem_cons.mp hm with rfl | h
  · exact le_rfl
  · exact (List.rel_of_pairwise_cons hs h).le

/-- The first of a list at which `f` is least. -/
def leastBy (f : Nat → Nat) (n : Nat) (l : List Nat) : Nat := l.foldl (fun a b => if f b < f a then b else a) n

theorem leastBy_mem (f : Nat → Nat) (l : List Nat) (n : Nat) : leastBy f n l ∈ n :: l := by
  induction l generalizing n with
  | nil => exact List.mem_singleton_self n
  | cons b l ih =>
    rcases List.mem_cons.mp (ih (if f b < f n then b else n)) with h | h
    · rw [leastBy, List.foldl_cons, ← leastBy, h]
      split <;> simp
    · exact List.mem_cons_of_mem _ (List.mem_cons_of_mem _ h)

theorem leastBy_le (f : Nat → Nat) (l : List Nat) (n : Nat) : ∀ m ∈ n :: l, f (leastBy f n l) ≤ f m := by
  induction l generalizing n with
  | nil => simp [leastBy]
  | cons b l ih =>
    obtain ⟨hfirst, hrest⟩ := List.forall_mem_cons.mp (ih (if f b < f n then b else n))
    have hboth : f (if f b < f n then b else n) ≤ f n ∧ f (if f b < f n then b else n) ≤ f b := by
      split <;> omega
    exact List.forall_mem_cons.mpr ⟨hfirst.trans hboth.1, List.forall_mem_cons.mpr ⟨hfirst.trans hboth.2, hrest⟩⟩

/-! ### The cores that may take a task -/

section
variable (s : State) (t : Task)

/-- An eligible core whose NEXT register is free. -/
def freeCore (m : Nat) : Bool := eligible s t m && (smFind m (s.caller t.die).next).isNone

/-- Eligible cores that wait, with their NEXT register free. -/
def waitsFor (m : Nat) : Bool := freeCore s t m && (s.core m).run == .waiting

/-- Eligible cores that execute or lie between tasks, with their NEXT register free. -/
def worksFor (m : Nat) : Bool := freeCore s t m && ((s.core m).run == .running || (s.core m).run == .between)

def eligibleCores : List Nat := ((List.range 48).map (fun p => 48 * t.die + p)).filter (eligible s t)
def idleCores : List Nat := (eligibleCores s t).filter (fun n => (s.core n).run == .waiting && (smFind n (s.caller t.die).next).isNone)
def busyCores : List Nat :=
  (eligibleCores s t).filter (fun n => ((s.core n).run == .running || (s.core n).run == .between) && (smFind n (s.caller t.die).next).isNone)

variable {s t}

theorem die_of_eligible {m : Nat} (h : eligible s t m = true) : dieOfCore m = t.die := by
  simp only [eligible, Bool.and_eq_true, decide_eq_true_eq] at h
  omega

theorem mem_eligibleCores {m : Nat} : m ∈ eligibleCores s t ↔ eligible s t m = true := by
  refine List.mem_filter.trans (and_iff_right_of_imp fun h => ?_)
  have hdie := die_of_eligible h
  rw [dieOfCore] at hdie
  exact List.mem_map.mpr ⟨m % 48, List.mem_range.mpr (Nat.mod_lt _ (by decide)), by omega⟩

theorem mem_idleCores {m : Nat} : m ∈ idleCores s t ↔ waitsFor s t m = true := by
  rw [idleCores, List.mem_filter, mem_eligibleCores]
  simp only [waitsFor, freeCore, Bool.and_eq_true]
  tauto

theorem mem_busyCores {m : Nat} : m ∈ busyCores s t ↔ worksFor s t m = true := by
  rw [busyCores, List.mem_filter, mem_eligibleCores]
  simp only [worksFor, freeCore, Bool.and_eq_true]
  tauto

theorem idleCores_sorted : (idleCores s t).Pairwise (· < ·) :=
  ((List.pairwise_map.mpr (List.pairwise_lt_range.imp fun h => Nat.add_lt_add_left h _)).filter _).filter _

/-! ### The choice -/

/-- The waiting core that a task takes: the first with its context, else the first. -/
def idleChoice (s : State) (t : Task) : Option Nat :=
  ((idleCores s t).find? (fun n => (s.core n).lastCn == some t.ctx)).or (idleCores s t).head?

theorem chooseCore_of_idle {n : Nat} (h : idleChoice s t = some n) : chooseCore s t = some (n, true) := by
  unfold idleChoice idleCores eligibleCores at h
  simp only [chooseCore, h]

theorem chooseCore_of_busy {n : Nat} {l : List Nat} (h : idleChoice s t = none) (hl : busyCores s t = n :: l) :
    chooseCore s t = some (leastBy (fun m => (s.core m).startAt) n l, false) := by
  unfold idleChoice idleCores eligibleCores at h
  unfold busyCores eligibleCores at hl
  simp only [chooseCore, h, hl, leastBy]

theorem chooseCore_of_none (h : idleChoice s t = none) (hl : busyCores s t = []) : chooseCore s t = none := by
  unfold idleChoice idleCores eligibleCores at h
  unfold busyCores eligibleCores at hl
  simp only [chooseCore, h, hl]

theorem idleChoice_eq_none : idleChoice s t = none ↔ ∀ m, waitsFor s t m = false := by
  rw [idleChoice, Option.or_eq_none_iff, List.head?_eq_none_iff, and_iff_right_of_imp (fun h => by rw [h]; rfl), List.eq_nil_iff_forall_not_mem]
  simp only [mem_idleCores, Bool.not_eq_true]

theorem busyCores_eq_nil : busyCores s t = [] ↔ ∀ m, worksFor s t m = false := by
  simp only [List.eq_nil_iff_forall_not_mem, mem_busyCores, Bool.not_eq_true]

/-- What the choice among the waiting cores is. -/
theorem idleChoice_some {n : Nat} (h : idleChoice s t = some n) : waitsFor s t n = true ∧ ∀ m, waitsFor s t m = true →
    ((s.core n).lastCn = some t.ctx ∨ ((s.core m).lastCn ≠ some t.ctx ∧ n ≤ m)) ∧
    ((s.core n).lastCn = some t.ctx → (s.core m).lastCn = some t.ctx → n ≤ m) := by
  simp only [← mem_idleCores]
  rcases Option.or_eq_some_iff.mp h with hctx | ⟨hnone, hhead⟩
  · have hn := List.find?_some hctx
    exact ⟨List.mem_of_find?_eq_some hctx, fun m hm =>
      ⟨.inl (beq_iff_eq.mp hn), fun _ hc => le_of_find?_sorted idleCores_sorted hctx hm (beq_iff_eq.mpr hc)⟩⟩
  · have hother : ∀ m ∈ idleCores s t, (s.core m).lastCn ≠ some t.ctx := fun m hm hc => List.find?_eq_none.mp hnone m hm (beq_iff_eq.mpr hc)
    exact ⟨List.mem_of_head? hhead, fun m hm =>
      ⟨.inr ⟨hother m hm, head_le_of_sorted idleCores_sorted hhead hm⟩, fun _ hc => absurd hc (hother m hm)⟩⟩

/-- The three answers of the choice. -/
theorem chooseCore_cases (s : State) (t : Task) :
    (∃ n, idleChoice s t = some n ∧ chooseCore s t = some (n, true)) ∨
    (∃ n l, idleChoice s t = none ∧ busyCores s t = n :: l ∧ chooseCore s t = some (leastBy (fun m => (s.core m).startAt) n l, false)) ∨
    (idleChoice s t = none ∧ busyCores s t = [] ∧ chooseCore s t = none) := by
  cases hi : idleChoice s t with
  | some n => exact .inl ⟨n, rfl, chooseCore_of_idle hi⟩
  | none =>
    cases hb : busyCores s t with
    | cons n l => exact .inr (.inl ⟨n, l, rfl, rfl, chooseCore_of_busy hi hb⟩)
    | nil => exact .inr (.inr ⟨rfl, rfl, chooseCore_of_none hi hb⟩)

theorem chooseCore_eq_none : chooseCore s t = none ↔ ∀ m, waitsFor s t m = false ∧ worksFor s t m = false := by
  rw [forall_and, ← idleChoice_eq_none, ← busyCores_eq_nil]
  rcases chooseCore_cases s t with ⟨n, hi, hc⟩ | ⟨n, l, -, hb, hc⟩ | ⟨hi, hb, hc⟩
  · simp [hc, hi]
  · simp [hc, hb]
  · simp [hc, hi, hb]

theorem idleChoice_of_now {n : Nat} (h : chooseCore s t = some (n, true)) : idleChoice s t = some n := by
  rcases chooseCore_cases s t with ⟨m, hi, hc⟩ | ⟨m, l, -, -, hc⟩ | ⟨-, -, hc⟩
  · obtain rfl : m = n := by simpa [hc] using h
    exact hi
  · simp [hc] at h
  · simp [hc] at h

/-- A core that works is taken only when none waits, and it is one that has run longest. -/
theorem chooseCore_next {n : Nat} (h : chooseCore s t = some (n, false)) :
    worksFor s t n = true ∧ ∀ m, waitsFor s t m = false ∧ (worksFor s t m = true → (s.core n).startAt ≤ (s.core m).startAt) := by
  rcases chooseCore_cases s t with ⟨m, hi, hc⟩ | ⟨m, l, hi, hb, hc⟩ | ⟨hi, hb, hc⟩
  · simp [hc] at h
  · obtain rfl : leastBy (fun m => (s.core m).startAt) m l = n := by simpa [hc] using h
    simp only [← mem_busyCores, hb]
    exact ⟨leastBy_mem _ l m, fun k => ⟨idleChoice_eq_none.mp hi k, leastBy_le (fun m => (s.core m).startAt) l m k⟩⟩
  · simp [hc] at h

end

end Sys2Proof.Machine
end

section
/-! PROOF. Placing a task: a waiting core starts it, a working one holds it in its NEXT register (R148, R175, R176, R344, R345, R368). -/

namespace Sys2Proof.Machine

@[simp] theorem caller_mapCaller_self (s : State) (d : Nat) (f : CallerSt → CallerSt) : (s.mapCaller d f).caller d = f (s.caller d) :=
  caller_setCaller_self ..

@[simp] theorem caller_mapIo (s : State) (f : Io → Io) (d : Nat) : (s.mapIo f).caller d = s.caller d := rfl

theorem Io.tb_count (io : Io) (b : Block) (o n : Nat) : (io.count b o n).tb = io.tb := by
  unfold Io.count
  split <;> rfl

theorem Io.tb_count64 (io : Io) (b : Block) (o n : Nat) : (io.count64 b o n).tb = io.tb := by
  unfold Io.count64
  split <;> rfl

/-- A context's activity is noted in its entry only (R375). -/
theorem touchCn_only (s : State) (cn : Nat) : touchCn s cn = { s with adm := { s.adm with ctxs := (touchCn s cn).adm.ctxs } } := by
  unfold touchCn
  split <;> rfl

theorem core_touchCn (s : State) (cn m : Nat) : (touchCn s cn).core m = s.core m := core_of_cores (by rw [touchCn_only]) m

theorem caller_touchCn (s : State) (cn d : Nat) : (touchCn s cn).caller d = s.caller d := by
  rw [touchCn_only]
  rfl

/-! ### A start -/

section
variable {s : State} {n : Nat} {t : Task}

theorem preOpens_congr {u : State} (h : (u.caller t.die).tmpls = (s.caller t.die).tmpls) : preOpens u t = preOpens s t := by
  rw [preOpens, preOpens, tmplOf, tmplOf, h]

/-- What a start reads of a state: the cores, the templates, the services and the time. -/
theorem startCore_congr {u : State} (hcores : u.cores = s.cores) (htmpls : (u.caller t.die).tmpls = (s.caller t.die).tmpls)
    (hserv : u.adm.services = s.adm.services) (htb : u.io.tb = s.io.tb) : startCore u n t = startCore s n t := by
  simp only [startCore, tmplOf, htmpls, codeRange, State.service?, hserv, htb, core_of_cores hcores]

theorem preOpenAll_nil (h : preOpens s t = []) (final : Bool) : preOpenAll s n t final = s := by
  rw [preOpenAll, h, List.foldl_nil]

/-- A task that takes no sequence slot starts as it is. -/
theorem startSeq_plain (hb : t.binding = none) (hseq : (tmplOf s t.die t.tmpl).seq ≠ 1) : startSeq s n t = (s, t) := by
  obtain ⟨⟩ := t
  obtain rfl : _ = none := hb
  rw [startSeq, if_neg hseq]
  rfl

/-- The registers count a start (R142, R176). -/
def startCounted (s : State) (n : Nat) (t : Task) (io : Io) : Io :=
  (io.count64 (bCarter n) Off.carter_TASK_WAIT_LO (startWait s n t)).count (bCaller t.die) (Off.caller_TASKS + 0x20 * (n % 48)) 1

theorem startTask_plain (hpre : preOpens s t = []) (hi : t.inst = none) (hb : t.binding = none) (hseq : (tmplOf s t.die t.tmpl).seq ≠ 1) :
    startTask s n t = touchCn ((s.setCore n (startCore s n t)).mapIo (startCounted s n t)) t.ctx := by
  have hpre' : preOpens ((s.setCore n (startCore s n t)).mapIo (startCounted s n t)) t = [] := by rw [← hpre]; rfl
  unfold startCounted at hpre' ⊢
  simp only [startTask, startSeq_plain hb hseq, hi, preOpenAll_nil hpre']

/-- What a core is that starts a task (R148, R175, R345). -/
theorem startCore_facts (s : State) (n : Nat) (t : Task) :
    (startCore s n t).task = some t ∧ (startCore s n t).run = .running ∧
    (startCore s n t).pc = ((codeRange s t.svc n).getD (0, 0)).1 + (tmplOf s t.die t.tmpl).entry ∧
    (startCore s n t).bytes (tmplOf s t.die t.tmpl).opndOff (operandBytes t).length = operandBytes t :=
  ⟨rfl, rfl, rfl, bytes_unitWrite_self ..⟩

end

/-! ### The placement -/

/-- The registers count a dispatch, in its level's bin of waiting (R368). -/
def dispatchCounted (s : State) (t : Task) (io : Io) : Io :=
  let q := 0x1040 + 0x80 * taskPri s t
  ((io.count64 (bCaller t.die) Off.caller_DISPATCHED_LO 1).count (bCaller t.die) (q + 8) 1).count (bCaller t.die)
    (q + 0x40 + 4 * waitBin (io.tb - t.readyAt)) 1

/-- A task has left the ready tasks for its core. -/
def taken (s : State) (t : Task) : State :=
  touchCn ((s.mapCaller t.die (fun cl => { cl with ready := cl.ready.filter (fun u => u.id ≠ t.id) })).mapIo (dispatchCounted s t)) t.ctx

/-- A task in the NEXT register of a core. -/
def heldNext (s : State) (t : Task) (n : Nat) : State := s.mapCaller t.die (fun cl => { cl with next := smInsert n t cl.next })

section
variable (s : State) (t : Task) (n : Nat)

theorem placeTask_now : placeTask s t n true = startTask (taken s t) n t := rfl
theorem placeTask_next : placeTask s t n false = preOpenAll (heldNext (taken s t) t n) n t false := rfl

theorem taken_caller : (taken s t).caller t.die = { s.caller t.die with ready := (s.caller t.die).ready.filter (fun u => u.id ≠ t.id) } := by
  rw [taken, caller_touchCn, caller_mapIo, caller_mapCaller_self]

theorem taken_cores : (taken s t).cores = s.cores := by
  rw [taken, touchCn_only]
  rfl

theorem taken_services : (taken s t).adm.services = s.adm.services := by
  rw [taken, touchCn_only]
  rfl

theorem taken_tb : (taken s t).io.tb = s.io.tb := by
  rw [taken, touchCn_only]
  exact ((Io.tb_count ..).trans (Io.tb_count ..)).trans (Io.tb_count64 ..)

variable {s t n}

theorem placeTask_now_plain (hpre : preOpens s t = []) (hi : t.inst = none) (hb : t.binding = none) (hseq : (tmplOf s t.die t.tmpl).seq ≠ 1) :
    placeTask s t n true =
      touchCn (((taken s t).setCore n (startCore s n t)).mapIo (startCounted (taken s t) n t)) t.ctx := by
  have htmpls : ((taken s t).caller t.die).tmpls = (s.caller t.die).tmpls := by rw [taken_caller]
  rw [placeTask_now, startTask_plain ((preOpens_congr htmpls).trans hpre) hi hb (by rwa [tmplOf, htmpls]),
    startCore_congr (taken_cores s t) htmpls (taken_services s t) (taken_tb s t)]

/-- A waiting core starts a task that is placed on it; no other core changes. -/
theorem placeTask_starts (hpre : preOpens s t = []) (hi : t.inst = none) (hb : t.binding = none) (hseq : (tmplOf s t.die t.tmpl).seq ≠ 1) :
    let u := placeTask s t n true
    u.core n = startCore s n t ∧ (∀ m, m ≠ n → u.core m = s.core m) ∧
      (u.caller t.die).ready = (s.caller t.die).ready.filter (fun x => x.id ≠ t.id) := by
  intro u
  rw [show u = _ from placeTask_now_plain hpre hi hb hseq]
  refine ⟨?_, fun m hm => ?_, ?_⟩
  · rw [core_touchCn, core_mapIo, core_setCore_self]
  · rw [core_touchCn, core_mapIo, core_setCore_ne _ _ hm, core_of_cores (taken_cores s t)]
  · rw [caller_touchCn]
    exact congrArg CallerSt.ready (taken_caller s t)

/-- A working core keeps a task that is placed on it in its NEXT register. -/
theorem placeTask_holds (hpre : preOpens s t = []) :
    let w := placeTask s t n false
    smFind n (w.caller t.die).next = some t ∧ w.cores = s.cores ∧ (w.caller t.die).ready = (s.caller t.die).ready.filter (fun x => x.id ≠ t.id) := by
  intro w
  have hcaller : (heldNext (taken s t) t n).caller t.die = _ := caller_mapCaller_self ..
  have htmpls : ((heldNext (taken s t) t n).caller t.die).tmpls = (s.caller t.die).tmpls := by rw [hcaller, taken_caller]
  rw [show w = heldNext (taken s t) t n from preOpenAll_nil ((preOpens_congr htmpls).trans hpre) false, hcaller, taken_caller]
  exact ⟨smFind_smInsert_self .., taken_cores s t, rfl⟩

end

end Sys2Proof.Machine
end

section
/-! SUPPORT. Making tasks and queueing them: what each changes (R311, R341, R348). -/

namespace Sys2Proof.Machine

theorem bCaller_valid {d : Nat} (hd : d < 2) : (bCaller d).valid = true := decide_eq_true hd

theorem caller_page (d : Nat) : 4096 * (catRow (bCaller d).kind).pages = 0x8000 := by simp [bCaller, catRow, catalogue]

theorem Io.OnlyEvents.tb {bs : List Block} {a b : Io} (h : Io.OnlyEvents bs a b) : b.tb = a.tb := by rw [h.1]

/-! ### What a Caller's work may change -/

/-- From `s` to `t` only registers, Callers, instances and expert stages differ. -/
def CallerSide (s t : State) : Prop := t = { s with io := t.io, call := t.call, adm := t.adm, expert := t.expert }

theorem CallerSide.trans {s t u : State} (h : CallerSide s t) (k : CallerSide t u) : CallerSide s u := by
  unfold CallerSide
  rw [k, h]

/-- From `s` to `t` only Callers, instances and the Caller's registers and events of die `d` differ, and the ready tasks of `d` are as they were. -/
structure Makes (d : Nat) (s t : State) : Prop where
  frame : t = { s with io := t.io, call := t.call, adm := t.adm }
  events : Io.OnlyEvents [bCaller d] s.io t.io
  ready : (t.caller d).ready = (s.caller d).ready

/-- From `s` to `t` the tasks `new` join the ready tasks of die `d`; besides, only registers, Callers and instances differ, and no time passes. -/
structure Queues (d : Nat) (s : State) (new : List Task) (t : State) : Prop where
  frame : t = { s with io := t.io, call := t.call, adm := t.adm }
  tb : t.io.tb = s.io.tb
  ready : (t.caller d).ready = (s.caller d).ready ++ new

section
variable {d : Nat} {s t u : State} {new more : List Task}

theorem Makes.refl (d : Nat) (s : State) : Makes d s s := ⟨rfl, Io.onlyEvents_refl _ _, rfl⟩

theorem Makes.trans (h : Makes d s t) (k : Makes d t u) : Makes d s u :=
  ⟨by rw [k.frame, h.frame], h.events.trans k.events, k.ready.trans h.ready⟩

theorem Makes.expert (h : Makes d s t) : t.expert = s.expert := by rw [h.frame]

theorem Makes.callerSide (h : Makes d s t) : CallerSide s t := by
  unfold CallerSide
  rw [h.frame]

theorem Makes.setCaller {c : CallerSt} (h : c.ready = (s.caller d).ready) : Makes d s (s.setCaller d c) :=
  ⟨rfl, Io.onlyEvents_refl _ _, by rw [caller_setCaller_self, h]⟩

theorem Makes.mapIo {f : Io → Io} (h : Io.OnlyEvents [bCaller d] s.io (f s.io)) : Makes d s (s.mapIo f) := ⟨rfl, h, rfl⟩

theorem Queues.refl (d : Nat) (s : State) : Queues d s [] s := ⟨rfl, rfl, (List.append_nil _).symm⟩

theorem Queues.trans (h : Queues d s new t) (k : Queues d t more u) : Queues d s (new ++ more) u :=
  ⟨by rw [k.frame, h.frame], k.tb.trans h.tb, by rw [k.ready, h.ready, List.append_assoc]⟩

theorem Makes.queues (h : Makes d s t) : Queues d s [] t := ⟨h.frame, h.events.tb, by rw [h.ready, List.append_nil]⟩

theorem Queues.expert (h : Queues d s new t) : t.expert = s.expert := by rw [h.frame]

theorem Queues.callerSide (h : Queues d s new t) : CallerSide s t := by
  unfold CallerSide
  rw [h.frame]

end

/-! ### Tasks and timers -/

section
variable {d : Nat} (hd : d < 2) (s : State)

theorem nextTaskId_makes (d : Nat) (s : State) : Makes d s (nextTaskId s d).2 := .setCaller rfl

theorem setTimer_makes (d : Nat) (s : State) (w : TimerFor) (n : Nat) : Makes d s (setTimer s d w n) := .setCaller rfl

include hd

/-- The next position of a flow is taken in the Caller; a full window is an event of it (R348). -/
theorem takePos_makes (f : Option Nat) (cn task : Nat) (inst : Option Nat) (arrs : List (Nat × Nat × Nat)) :
    Makes d s (takePos s d f cn task inst arrs).2 := by
  cases f with
  | none => exact .refl d s
  | some f =>
    unfold takePos
    dsimp only
    split
    · refine Makes.trans ?_ (.mapIo (Io.onlyEvents_rise _ (bCaller_valid hd) _ _))
      exact .setCaller rfl
    · exact .setCaller rfl

theorem dropTimer_makes (w : TimerFor) : Makes d s (dropTimer s d w) := by
  unfold dropTimer
  dsimp only
  split
  · refine Makes.trans ?_ (.mapIo (Io.onlyRegs_count _ (bCaller_valid hd) (by rw [caller_page]; decide) _).events)
    exact .setCaller rfl
  · exact .setCaller rfl

theorem makeTask_makes (n : Nat) (ops : List (Option Token)) : Makes d s (makeTask s d n ops).2 := by
  have hpos : ∀ (o : Bool) f cn task inst arrs,
      Makes d s (if o then takePos (nextTaskId s d).2 d f cn task inst arrs else (0, (nextTaskId s d).2)).2 := by
    intro o f cn task inst arrs
    cases o with
    | true => exact (nextTaskId_makes d s).trans (takePos_makes hd _ f cn task inst arrs)
    | false => exact nextTaskId_makes d s
  unfold makeTask
  dsimp only
  split
  · exact Makes.trans (hpos ..) ⟨rfl, Io.onlyEvents_refl _ _, rfl⟩
  · exact hpos ..

end

/-! ### The ready tasks -/

section
variable (s : State) (d l : Nat)

/-- The largest depth of a level is a register. -/
theorem noteDepth_only : noteDepth s d l = { s with io := { s.io with regs := (noteDepth s d l).io.regs } } := by
  unfold noteDepth
  dsimp only
  split <;> rfl

theorem onlyRegs_noteDepth (hd : d < 2) (hl : l < 8) : Io.OnlyRegs [bCaller d] s.io (noteDepth s d l).io := by
  unfold noteDepth
  dsimp only
  split
  · exact Io.onlyRegs_refl _ _
  · rw [Nat.add_assoc, Nat.add_assoc]
    exact Io.onlyRegs_setReg _ (bCaller_valid hd) (by rw [caller_page]; omega) _

/-- A task stands behind the ready ones of its die. -/
def readied (t : Task) : State := s.mapCaller t.die (fun c => { c with ready := c.ready ++ [t] })

variable {d} {t : Task}

theorem queueTask_eq (t : Task) : queueTask s t = noteDepth (readied s t) t.die (taskPri (readied s t) t) := rfl

theorem queueTask_queues (ht : t.die = d) : Queues d s [t] (queueTask s t) := by
  subst ht
  have hready : ((readied s t).caller t.die).ready = (s.caller t.die).ready ++ [t] := by rw [readied, caller_mapCaller_self]
  rw [queueTask_eq, noteDepth_only]
  exact ⟨rfl, rfl, hready⟩

theorem onlyEvents_queueTask {p : Nat} (ht : t.die = d) (hd : d < 2) (hp : t.pri = some p) (hlevel : p < 8) :
    Io.OnlyEvents [bCaller d] s.io (queueTask s t).io := by
  subst ht
  refine (onlyRegs_noteDepth (readied s t) t.die _ hd ?_).events
  rw [taskPri, hp]
  exact hlevel

end

end Sys2Proof.Machine
end

section
/-! PROOF. A batch whose delay has run out fires, alone or into a round of its set (R309, R310, R311, R314). -/

namespace Sys2Proof.Machine

section
variable (s : State) (b : Batch)

/-- A batch no longer gathers tokens (R309). -/
def batchTaken : State := { s with expert := { s.expert with batches := s.expert.batches.filter (fun x => x.serial ≠ b.serial) } }

/-- The state in which the task of a batch has been made, and that task: the operands are its tokens in order (R311). -/
def batchMade : State := (makeTask (batchTaken s b) b.die b.entry (b.toks.map some)).2
def batchTask (pri : Nat) : Task := { (makeTask (batchTaken s b) b.die b.entry (b.toks.map some)).1 with pri := some pri }

theorem opnds_batchTask (pri : Nat) : (batchTask s b pri).opnds = b.toks.map (fun k => some (k.key, k.val)) := by
  refine (List.map_map ..).trans ?_
  rfl

/-- What waits for a round of the set (R314). -/
def firedAs (e : ExpertStage) (set : Nat) : FiredBatch := ⟨b.die, set, batchTask s b e.pri, (batchMade s b).io.tb, e.fwdEntry, e.roundWait, e.roundMin⟩

/-- A fired batch waits for its round. -/
def batchWaits (e : ExpertStage) (set : Nat) : State :=
  { batchMade s b with expert := { (batchMade s b).expert with fired := (batchMade s b).expert.fired ++ [firedAs s b e set] } }

variable {s b} {e : ExpertStage} (hstage : stageOf s b.die b.entry = some e)
include hstage

theorem fireBatch_alone (h : expertSet e b.expert = none) : fireBatch s b = queueTask (batchMade s b) (batchTask s b e.pri) := by
  simp only [fireBatch, hstage, h]
  rfl

/-- A batch of a resident stage waits, and the first of its set starts the wait for the round. -/
theorem fireBatch_set {set : Nat} (h : expertSet e b.expert = some set) :
    fireBatch s b = batchWaits s b e set ∨ fireBatch s b = setTimer (batchWaits s b e set) b.die (.round set) e.roundWait := by
  have hfire : fireBatch s b = if !((batchMade s b).expert.fired.any (fun x => x.die == b.die && x.set == set)) then
      setTimer (batchWaits s b e set) b.die (.round set) e.roundWait else batchWaits s b e set := by
    simp only [fireBatch, hstage, h]
    rfl
  rw [hfire]
  split
  · exact .inr rfl
  · exact .inl rfl

end

/-! ### The expiry -/

section
variable {s : State} {b : Batch} (hd : b.die < 2)
include hd

theorem batchMade_makes : Makes b.die (batchTaken s b) (batchMade s b) := makeTask_makes hd ..

theorem batchMade_facts : CallerSide s (batchMade s b) ∧ Io.OnlyEvents [bCaller b.die] s.io (batchMade s b).io ∧
    ((batchMade s b).caller b.die).ready = (s.caller b.die).ready ∧
    (batchMade s b).expert = { s.expert with batches := s.expert.batches.filter (fun x => x.serial ≠ b.serial) } := by
  have hmade := batchMade_makes (s := s) hd
  exact ⟨CallerSide.trans (t := batchTaken s b) rfl hmade.callerSide, hmade.events, hmade.ready, hmade.expert⟩

theorem fireBatch_alone_facts {e : ExpertStage} (hstage : stageOf s b.die b.entry = some e) (hpri : e.pri < 8) (h : expertSet e b.expert = none) :
    let u := fireBatch s b
    CallerSide s u ∧ Io.OnlyEvents [bCaller b.die] s.io u.io ∧ (u.caller b.die).ready = (s.caller b.die).ready ++ [batchTask s b e.pri] ∧
      u.expert.batches = s.expert.batches.filter (fun x => x.serial ≠ b.serial) ∧ u.expert.fired = s.expert.fired := by
  obtain ⟨hside, hevents, hready, hexpert⟩ := batchMade_facts (s := s) hd
  have hqueue : Queues b.die (batchMade s b) [batchTask s b e.pri] (queueTask (batchMade s b) (batchTask s b e.pri)) := queueTask_queues _ rfl
  intro u
  rw [show u = _ from fireBatch_alone hstage h, hqueue.ready, hready, hqueue.expert, hexpert]
  exact ⟨hside.trans hqueue.callerSide, hevents.trans (onlyEvents_queueTask _ rfl hd rfl hpri), rfl, rfl, rfl⟩

theorem fireBatch_set_facts {e : ExpertStage} {set : Nat} (hstage : stageOf s b.die b.entry = some e) (h : expertSet e b.expert = some set) :
    let u := fireBatch s b
    CallerSide s u ∧ Io.OnlyEvents [bCaller b.die] s.io u.io ∧ (u.caller b.die).ready = (s.caller b.die).ready ∧
      u.expert.batches = s.expert.batches.filter (fun x => x.serial ≠ b.serial) ∧
      u.expert.fired = s.expert.fired ++ [⟨b.die, set, batchTask s b e.pri, s.io.tb, e.fwdEntry, e.roundWait, e.roundMin⟩] := by
  obtain ⟨hside, hevents, hready, hexpert⟩ := batchMade_facts (s := s) hd
  have hwaits : Makes b.die (batchWaits s b e set) (fireBatch s b) := by
    rcases fireBatch_set hstage h with hu | hu <;> rw [hu]
    · exact .refl ..
    · exact setTimer_makes ..
  have hfired : (batchWaits s b e set).expert.fired =
      s.expert.fired ++ [⟨b.die, set, batchTask s b e.pri, s.io.tb, e.fwdEntry, e.roundWait, e.roundMin⟩] := by
    rw [batchWaits, firedAs, hexpert, hevents.tb]
  intro u
  refine ⟨(hside.trans (t := batchMade s b) (u := batchWaits s b e set) rfl).trans hwaits.callerSide, hevents.trans hwaits.events,
    hwaits.ready.trans hready, ?_, ?_⟩
  · rw [hwaits.expert]
    exact congrArg ExpertSt.batches hexpert
  · rw [hwaits.expert, hfired]

end

/-- The timer entries of a purpose have ended (R350). -/
def timersEnded (s : State) (die : Nat) (w : TimerFor) : State := s.mapCaller die (fun c => { c with timers := c.timers.filter (fun t => t.what != w) })

theorem timersEnded_makes (s : State) (die : Nat) (w : TimerFor) : Makes die s (timersEnded s die w) := .setCaller rfl

section
variable {s : State} {die n : Nat} {b : Batch} {e : ExpertStage} (hb : s.expert.batches.find? (fun b => b.die == die && b.serial == n) = some b)
  (he : stageOf s die b.entry = some e)
include hb he

theorem exec_expertBatchExpiry_early (h : (s.caller die).timers.any (fun t => t.what == .expert e.stage b.expert n && decide (t.left = 0)) = false) :
    exec (.expertBatchExpiry die n) s = .next s := by
  show execExpertBatchExpiry die n s = _
  simp only [execExpertBatchExpiry, hb, he, h]
  rfl

theorem exec_expertBatchExpiry_due (h : (s.caller die).timers.any (fun t => t.what == .expert e.stage b.expert n && decide (t.left = 0)) = true) :
    exec (.expertBatchExpiry die n) s = .next (fireBatch (timersEnded s die (.expert e.stage b.expert n)) b) := by
  show execExpertBatchExpiry die n s = _
  simp only [execExpertBatchExpiry, hb, he, h]
  rfl

end

end Sys2Proof.Machine
end

section
/-! PROOF. Rounds: the batches of a set go to the cores of mode 0, and every other core gets a forward-only task (R314, R315). -/

namespace Sys2Proof.Machine

/-! ### Pairs of a list with another -/

theorem map_snd_zip_eq_take {α β : Type} (l₁ : List α) (l₂ : List β) : (l₁.zip l₂).map Prod.snd = l₂.take (min l₁.length l₂.length) := by
  rw [List.zip_eq_zip_take_min, List.map_snd_zip (by simp)]

theorem take_length_zip {α β : Type} (l₁ : List α) (l₂ : List β) : (l₁.take l₂.length).zip l₂ = l₁.zip l₂ := by
  rw [List.zip_eq_zip_take_min, List.zip_eq_zip_take_min (l₁ := l₁), List.take_take, List.length_take]
  congr 2 <;> omega

/-- A part of a list and the rest of it. -/
theorem append_filter_perm {part all : List Nat} (hpart : part.Nodup) (hall : all.Nodup) (hsub : part ⊆ all) :
    (part ++ all.filter (fun n => !part.contains n)).Perm all := by
  have hfilter : part.Perm (all.filter part.contains) :=
    (List.perm_ext_iff_of_nodup hpart (hall.filter _)).mpr fun n => by simpa using fun h => hsub h
  exact (hfilter.append_right _).trans (List.filter_append_perm _ all)

/-! ### The cores of a round -/

section
variable (s : State) (die : Nat)

/-- The cores of a die in service, and those of them in mode 0 (R314). -/
def roundCores : List Nat := ((List.range 48).map (fun p => 48 * die + p)).filter (fun n => !s.io.isOffline (bCore n))
def ableCores : List Nat := (roundCores s die).filter (fun n => s.io.enabled (bCore n) && decide (coreMode s n = 0))

/-- The batches of a set with the cores that take them, by rising number. -/
def roundGiven (set : Nat) : List (FiredBatch × Nat) := (waitingBatches s die set).zip (ableCores s die)

/-- The cores that get a forward-only task. -/
def roundRest (set : Nat) : List Nat := (roundCores s die).filter (fun n => !(roundGiven s die set).any (fun e => e.2 == n))

theorem roundCores_nodup : (roundCores s die).Nodup := (List.nodup_range.map fun _ _ h => Nat.add_left_cancel h).filter _

/-- Every core of the die in service gets a batch or a forward-only task. -/
theorem given_append_rest_perm (set : Nat) : ((roundGiven s die set).map Prod.snd ++ roundRest s die set).Perm (roundCores s die) := by
  have hrest : roundRest s die set = (roundCores s die).filter (fun n => !((roundGiven s die set).map Prod.snd).contains n) := by
    refine List.filter_congr fun n _ => congrArg Bool.not (Bool.eq_iff_iff.mpr ?_)
    simp
  have hgiven : (roundGiven s die set).map Prod.snd = (ableCores s die).take (min (waitingBatches s die set).length (ableCores s die).length) :=
    map_snd_zip_eq_take ..
  rw [hrest, hgiven]
  exact append_filter_perm (((roundCores_nodup s die).filter _).sublist (List.take_sublist ..)) (roundCores_nodup s die)
    fun n h => List.mem_of_mem_filter (List.mem_of_mem_take h)

end

/-! ### The tasks of a round -/

/-- The task of a batch as a round gives it to a core. -/
def givenTask (tb : Nat) (e : FiredBatch × Nat) : Task := { e.1.task with only := some e.2, readyAt := tb }

/-- Batches given to cores join the ready tasks. -/
def queueGiven (s : State) (l : List (FiredBatch × Nat)) : State := l.foldl (fun s e => queueTask s (givenTask s.io.tb e)) s

theorem queueGiven_queues {die : Nat} {l : List (FiredBatch × Nat)} (s : State) (h : ∀ e ∈ l, e.1.task.die = die) :
    Queues die s (l.map (givenTask s.io.tb)) (queueGiven s l) := by
  induction l generalizing s with
  | nil => exact .refl die s
  | cons e l ih =>
    obtain ⟨he, hl⟩ := List.forall_mem_cons.mp h
    have hqueue : Queues die s [givenTask s.io.tb e] (queueTask s (givenTask s.io.tb e)) := queueTask_queues s he
    have hrest := ih (queueTask s (givenTask s.io.tb e)) hl
    rw [hqueue.tb] at hrest
    exact hqueue.trans hrest

/-- The forward-only task of core `n` in the round of a set whose oldest batch is `f` (R315). -/
def forwardTask (s : State) (die : Nat) (f : FiredBatch) (n : Nat) : Task :=
  { (makeTask s die f.fwd []).1 with only := some n, pri := f.task.pri, ctx := f.task.ctx, svc := f.task.svc }

def queueForward (die : Nat) (f : FiredBatch) (a : State × List Nat) (n : Nat) : State × List Nat :=
  (queueTask (makeTask a.1 die f.fwd []).2 (forwardTask a.1 die f n), a.2 ++ [(forwardTask a.1 die f n).id])

/-- What a forward-only task takes from the oldest batch. -/
def ForwardOf (f : FiredBatch) (t : Task) : Prop :=
  t.forwards = true ∧ t.tmpl = f.fwd ∧ t.ctx = f.task.ctx ∧ t.svc = f.task.svc ∧ t.pri = f.task.pri

theorem queueForward_queues {die : Nat} (hd : die < 2) (f : FiredBatch) (l : List Nat) (a : State × List Nat) :
    ∃ fw, Queues die a.1 fw (l.foldl (queueForward die f) a).1 ∧ (l.foldl (queueForward die f) a).2 = a.2 ++ fw.map (fun t => t.id) ∧
      fw.map (fun t => t.only) = l.map some ∧ ∀ t ∈ fw, ForwardOf f t := by
  induction l generalizing a with
  | nil => exact ⟨[], .refl die a.1, (List.append_nil _).symm, rfl, by simp⟩
  | cons n l ih =>
    obtain ⟨fw, hqueues, hids, honly, hforward⟩ := ih (queueForward die f a n)
    have hfirst : Queues die a.1 [forwardTask a.1 die f n] (queueForward die f a n).1 :=
      (makeTask_makes hd a.1 f.fwd []).queues.trans (queueTask_queues _ rfl)
    refine ⟨forwardTask a.1 die f n :: fw, hfirst.trans hqueues, ?_, congrArg (some n :: ·) honly,
      List.forall_mem_cons.mpr ⟨⟨rfl, rfl, rfl, rfl, rfl⟩, hforward⟩⟩
    rw [List.foldl_cons, hids, queueForward, List.append_assoc]
    rfl

/-! ### A round starts -/

section
variable (s : State) (die : Nat) (f : FiredBatch)

def givenIds : List Nat := (roundGiven s die f.set).map (fun e => e.1.task.id)

/-- The batches that a round takes no longer wait. -/
def roundTaken : State :=
  { s with expert := { s.expert with fired := s.expert.fired.filter (fun g => !((givenIds s die f).contains g.task.id)) } }

/-- With no batch of the set left, nothing waits for its next round. -/
def roundUntimed : State :=
  if waitingBatches (roundTaken s die f) die f.set = [] then dropTimer (roundTaken s die f) die (.round f.set) else roundTaken s die f

/-- The tasks of a round have been queued; with the forward-only ones' IDs. -/
def roundQueued : State × List Nat :=
  (roundRest s die f.set).foldl (queueForward die f) (queueGiven (roundUntimed s die f) (roundGiven s die f.set), [])

variable {s die f}

theorem formRound_none (h : s.expert.rounds.any (fun r => r.die == die) = true) : formRound s die = s := if_pos h

theorem formRound_starts (hidle : s.expert.rounds.any (fun r => r.die == die) = false)
    (hdue : s.expert.fired.find? (fun f => f.die == die && decide (f.min ≤ (waitingBatches s die f.set).length)) = some f) :
    formRound s die = { (roundQueued s die f).1 with expert := { (roundQueued s die f).1.expert with
      rounds := (roundQueued s die f).1.expert.rounds ++ [⟨die, f.set, givenIds s die f ++ (roundQueued s die f).2⟩] } } := by
  have hgiven : ((waitingBatches s die f.set).take (ableCores s die).length).zip (ableCores s die) = roundGiven s die f.set := take_length_zip ..
  unfold ableCores roundCores at hgiven
  simp only [formRound, hidle, hdue, hgiven]
  rfl

theorem roundUntimed_makes (hd : die < 2) : Makes die (roundTaken s die f) (roundUntimed s die f) := by
  unfold roundUntimed
  split
  · exact dropTimer_makes hd ..
  · exact .refl ..

/-- The tasks that a round queues, and what it changes besides. -/
theorem formRound_facts (hd : die < 2) (hidle : s.expert.rounds.any (fun r => r.die == die) = false)
    (hdue : s.expert.fired.find? (fun f => f.die == die && decide (f.min ≤ (waitingBatches s die f.set).length)) = some f)
    (hdie : ∀ b ∈ waitingBatches s die f.set, b.task.die = die) :
    let u := formRound s die
    ∃ fw, CallerSide s u ∧ (u.caller die).ready = (s.caller die).ready ++ ((roundGiven s die f.set).map (givenTask s.io.tb) ++ fw) ∧
      fw.map (fun t => t.only) = (roundRest s die f.set).map some ∧ (∀ t ∈ fw, ForwardOf f t) ∧
      u.expert.rounds = s.expert.rounds ++ [⟨die, f.set, givenIds s die f ++ fw.map (fun t => t.id)⟩] := by
  have huntimed : Makes die (roundTaken s die f) (roundUntimed s die f) := roundUntimed_makes hd
  have hgiven := queueGiven_queues (roundUntimed s die f) (l := roundGiven s die f.set) fun e he => hdie e.1 (List.of_mem_zip he).1
  rw [show (roundUntimed s die f).io.tb = s.io.tb from huntimed.events.tb] at hgiven
  obtain ⟨fw, hforward, hids, honly, hfw⟩ :=
    queueForward_queues hd f (roundRest s die f.set) (queueGiven (roundUntimed s die f) (roundGiven s die f.set), [])
  have hall : Queues die (roundTaken s die f) ((roundGiven s die f.set).map (givenTask s.io.tb) ++ fw) (roundQueued s die f).1 :=
    huntimed.queues.trans (hgiven.trans hforward)
  intro u
  rw [show u = _ from formRound_starts hidle hdue]
  refine ⟨fw, ?_, hall.ready, honly, hfw, ?_⟩
  · exact (CallerSide.trans (t := roundTaken s die f) rfl hall.callerSide).trans rfl
  · rw [show (roundQueued s die f).2 = fw.map (fun t => t.id) from hids, hall.expert]
    rfl

end

/-! ### The wait for a round ends -/

/-- A batch of the set whose wait has ended needs no others for its round (R314). -/
def dueNow (die set : Nat) (f : FiredBatch) : FiredBatch := if f.die = die ∧ f.set = set then { f with min := 0 } else f

theorem dueNow_keeps (die set : Nat) (f : FiredBatch) :
    (dueNow die set f).die = f.die ∧ (dueNow die set f).set = f.set ∧ (dueNow die set f).task = f.task ∧ (dueNow die set f).fwd = f.fwd := by
  unfold dueNow
  split <;> exact ⟨rfl, rfl, rfl, rfl⟩

/-- The wait of a set has ended: its batches are due. -/
def roundDue (s : State) (die set : Nat) : State :=
  let u := timersEnded s die (.round set)
  { u with expert := { u.expert with fired := u.expert.fired.map (dueNow die set) } }

section
variable {s : State} {die set : Nat}

theorem exec_roundWaitExpiry_early (h : (s.caller die).timers.any (fun t => t.what == .round set && decide (t.left = 0)) = false) :
    exec (.roundWaitExpiry die set) s = .next s := by
  show execRoundWaitExpiry die set s = _
  simp only [execRoundWaitExpiry, h]
  rfl

theorem exec_roundWaitExpiry_due (h : (s.caller die).timers.any (fun t => t.what == .round set && decide (t.left = 0)) = true) :
    exec (.roundWaitExpiry die set) s = .next (formRound (roundDue s die set) die) := by
  show execRoundWaitExpiry die set s = _
  simp only [execRoundWaitExpiry, h]
  rfl

theorem fired_roundDue_tasks : (roundDue s die set).expert.fired.map (fun b => b.task) = s.expert.fired.map (fun b => b.task) :=
  (List.map_map ..).trans (List.map_congr_left fun f _ => (dueNow_keeps die set f).2.2.1)

theorem waitingBatches_roundDue : waitingBatches (roundDue s die set) die set = (waitingBatches s die set).map (dueNow die set) := by
  refine List.filter_map.trans (congrArg _ (List.filter_congr fun f _ => ?_))
  obtain ⟨hdie, hset, -, -⟩ := dueNow_keeps die set f
  simp only [Function.comp_apply, hdie, hset]

/-- The tasks that a round gives out are those of the batches as they fired. -/
theorem roundGiven_roundDue (tb : Nat) : (roundGiven (roundDue s die set) die set).map (givenTask tb) = (roundGiven s die set).map (givenTask tb) := by
  rw [roundGiven, waitingBatches_roundDue, List.zip_map_left, List.map_map]
  refine List.map_congr_left fun e _ => ?_
  simp only [Function.comp_apply, givenTask, Prod.map, (dueNow_keeps die set e.1).2.2.1, id]

theorem roundGiven_roundDue_cores :
    (roundGiven (roundDue s die set) die set).map Prod.snd = (roundGiven s die set).map Prod.snd := by
  rw [roundGiven, waitingBatches_roundDue, List.zip_map_left, List.map_map]
  rfl

/-- The oldest batch of the die is due when its set's wait has ended. -/
theorem find?_roundDue {f : FiredBatch} (hf : s.expert.fired.find? (fun f => f.die == die) = some f) (hset : f.set = set) :
    (roundDue s die set).expert.fired.find? (fun f => f.die == die && decide (f.min ≤ (waitingBatches (roundDue s die set) die f.set).length)) =
      some (dueNow die set f) := by
  obtain ⟨hdie, l, r, hsplit, hbefore⟩ := List.find?_eq_some_iff_append.mp hf
  have hlist : (roundDue s die set).expert.fired = l.map (dueNow die set) ++ dueNow die set f :: r.map (dueNow die set) := by
    rw [show (roundDue s die set).expert.fired = s.expert.fired.map (dueNow die set) from rfl, hsplit, List.map_append, List.map_cons]
  refine List.find?_eq_some_iff_append.mpr ⟨?_, _, _, hlist, fun g hg => ?_⟩
  · have hmin : (dueNow die set f).min = 0 := by rw [dueNow, if_pos ⟨beq_iff_eq.mp hdie, hset⟩]
    rw [(dueNow_keeps die set f).1, hdie, hmin]
    simp
  · obtain ⟨h, hh, rfl⟩ := List.mem_map.mp hg
    have hother := hbefore h hh
    rw [Bool.not_eq_true'] at hother
    rw [(dueNow_keeps die set h).1, hother]
    rfl

end

end Sys2Proof.Machine
end

section
/-! PROOF. Dispatch, batches and rounds, settled from the rules of the choice, the placement, the firing and the round (R309 to R311, R314,
R315, R342 to R345). -/

namespace Sys2Proof.Machine

/-- The round that the end of a wait starts: its tasks in order, those of the batches before the forward-only ones. -/
theorem formRound_roundDue {s : State} {die set : Nat} {f : FiredBatch} (hd : die < 2)
    (hf : s.expert.fired.find? (fun f => f.die == die) = some f) (hset : f.set = set)
    (hidle : s.expert.rounds.any (fun r => r.die == die) = false) (hdie : ∀ b ∈ waitingBatches s die set, b.task.die = die) :
    let u := formRound (roundDue s die set) die
    ∃ fw, CallerSide s u ∧ (u.caller die).ready = (s.caller die).ready ++ ((roundGiven s die set).map (givenTask s.io.tb) ++ fw) ∧
      (((roundGiven s die set).map (givenTask s.io.tb) ++ fw).map (fun t => t.only)).Perm ((roundCores s die).map some) ∧
      (∀ t ∈ fw, ForwardOf f t) ∧
      u.expert.rounds = s.expert.rounds ++ [⟨die, set, ((roundGiven s die set).map (givenTask s.io.tb) ++ fw).map (fun t => t.id)⟩] := by
  obtain ⟨hdieF, hsetF, htask, hfwd⟩ := dueNow_keeps die set f
  rw [hset] at hsetF
  have hdieW : ∀ b ∈ waitingBatches (roundDue s die set) die (dueNow die set f).set, b.task.die = die := by
    rw [hsetF, waitingBatches_roundDue]
    intro b hb
    obtain ⟨g, hg, rfl⟩ := List.mem_map.mp hb
    rw [(dueNow_keeps die set g).2.2.1]
    exact hdie g hg
  obtain ⟨fw, hside, hready, honly, hforward, hrounds⟩ := formRound_facts hd (s := roundDue s die set) hidle (find?_roundDue hf hset) hdieW
  have htimers : Makes die s (timersEnded s die (.round set)) := timersEnded_makes ..
  have hids : givenIds (roundDue s die set) die (dueNow die set f) = ((roundGiven s die set).map (givenTask s.io.tb)).map (fun t => t.id) := by
    rw [givenIds, hsetF, ← roundGiven_roundDue, List.map_map]
    rfl
  rw [hsetF] at hready honly hrounds
  refine ⟨fw, (htimers.callerSide.trans (u := roundDue s die set) rfl).trans hside, ?_, ?_, fun t ht => ?_, ?_⟩
  · rw [hready, roundGiven_roundDue, show ((roundDue s die set).caller die).ready = (s.caller die).ready from htimers.ready]
    rfl
  · have hcores : ((roundGiven s die set).map (givenTask s.io.tb)).map (fun t => t.only) =
        ((roundGiven (roundDue s die set) die set).map Prod.snd).map some := by
      rw [roundGiven_roundDue_cores, List.map_map, List.map_map]
      rfl
    rw [List.map_append, honly, hcores, ← List.map_append]
    exact (given_append_rest_perm (roundDue s die set) die set).map some
  · have h := hforward t ht
    rwa [ForwardOf, htask, hfwd] at h
  · rw [hrounds, hids, List.map_append]
    rfl

/-- Settles O39: the dispatch by the first task that has a core, the choice by its three answers, the placement by whether the core waits, a
batch by whether its stage is resident, and a round by the batches it gives out and the cores that are left. -/
theorem dispatchGivesTasksToEligibleCores : Obligations.DispatchGivesTasksToEligibleCores := by
  refine ⟨fun s die => ⟨exec_dispatch_held, fun hrun => ⟨exec_dispatch_none hrun, fun l t r n now hord hl ht => exec_dispatch_first hrun hord hl ht⟩⟩,
    fun s die => ⟨readyOrder_perm s die, readyOrder_pairwise s die⟩, fun s t => ?_, fun s die n b e hd hb he hpri => ?_,
    fun s die set f hd hf hset => ?_⟩
  · refine ⟨chooseCore_eq_none, fun n h => idleChoice_some (idleChoice_of_now h), fun n h => chooseCore_next h, fun n _ _ =>
      ⟨fun hpre hi hb hseq => ?_, fun hpre => placeTask_holds hpre⟩⟩
    obtain ⟨hcore, hothers, hready⟩ := placeTask_starts (n := n) hpre hi hb hseq
    obtain ⟨htask, hruns, hpc, hbytes⟩ := startCore_facts s n t
    rw [hcore]
    exact ⟨rfl, hothers, htask, hruns, hpc, hbytes, hready⟩
  · obtain ⟨hdie, hserial⟩ : b.die = die ∧ b.serial = n := by simpa using List.find?_some hb
    refine ⟨exec_expertBatchExpiry_early hb he, fun hdue => ?_⟩
    have hexec := exec_expertBatchExpiry_due hb he hdue
    subst hdie hserial
    have htimers : Makes b.die s (timersEnded s b.die (.expert e.stage b.expert b.serial)) := timersEnded_makes ..
    generalize timersEnded s b.die (.expert e.stage b.expert b.serial) = v at hexec htimers
    have hstage : stageOf v b.die b.entry = some e := by rw [stageOf, htimers.expert]; exact he
    refine ⟨_, batchTask v b e.pri, hexec, ?_⟩
    rw [← htimers.ready, ← htimers.expert, ← htimers.events.tb]
    cases hset : expertSet e b.expert with
    | none =>
      obtain ⟨hside, hevents, hready, hbatches, hfired⟩ := fireBatch_alone_facts hd hstage hpri hset
      exact ⟨htimers.callerSide.trans hside, htimers.events.trans hevents, rfl, rfl, opnds_batchTask .., hbatches, fun _ => ⟨hready, hfired⟩,
        fun _ h => nomatch h⟩
    | some set =>
      obtain ⟨hside, hevents, hready, hbatches, hfired⟩ := fireBatch_set_facts hd hstage hset
      refine ⟨htimers.callerSide.trans hside, htimers.events.trans hevents, rfl, rfl, opnds_batchTask .., hbatches, (fun h => nomatch h),
        fun k hk => ?_⟩
      obtain rfl := Option.some.inj hk
      exact ⟨hready, hfired⟩
  · refine ⟨exec_roundWaitExpiry_early, fun hdue hround => ⟨_, exec_roundWaitExpiry_due hdue, ?_⟩, fun hdue hidle hdie => ?_⟩
    · rw [formRound_none (s := roundDue s die set) hround]
      exact ⟨rfl, fired_roundDue_tasks⟩
    · obtain ⟨fw, hside, hready, hperm, hforward, hrounds⟩ := formRound_roundDue hd hf hset hidle hdie
      have hlen : ((roundGiven s die set).map (givenTask s.io.tb)).length = min (waitingBatches s die set).length (ableCores s die).length := by
        rw [List.length_map, roundGiven, List.length_zip]
      exact ⟨_, _, exec_roundWaitExpiry_due hdue, hside, hready, hperm, List.take_left' hlen,
        fun t ht => hforward t (Eq.mp (congrArg (t ∈ ·) (List.drop_left' hlen)) ht), hrounds⟩

end Sys2Proof.Machine
end

section
/-! SUPPORT. The bytes of a memory tier, and the elements that they spell: what each reads after a write (R54, R80, R92, Table 4.4). -/

namespace Sys2Proof.Machine

/-! ### Bytes of device and host memory -/

theorem putHost_eq_putCells (m : MemSt) (a : Nat) (bs : List Byte) : m.putHost a bs = { m with host := putCells m.host a bs } := by
  induction bs generalizing m a with
  | nil => rfl
  | cons b bs ih => exact ih (m.putHostByte a b) (a + 1)

theorem hostByte_write (m : MemSt) (a : Nat) (bs : List Byte) (p : Bool) (b : Nat) : (m.write a bs p).hostByte b = m.hostByte b := by
  rw [write_only]
  rfl

theorem byte_sample (m : MemSt) (io : Io) (a b : Nat) : (m.sample io a).byte b = m.byte b := by
  rw [sample_only]
  rfl

theorem hostByte_sample (m : MemSt) (io : Io) (a b : Nat) : (m.sample io a).hostByte b = m.hostByte b := by
  rw [sample_only]
  rfl

/-- A byte of a memory tier: of host memory for tier 4, else of device memory (Table 4.4). -/
def tierByte (s : State) (tier a : Nat) : Byte := if tier = 4 then s.mem.hostByte a else s.mem.byte a

theorem tierByte_congr_mem {s t : State} (h : t.mem = s.mem) (tier a : Nat) : tierByte t tier a = tierByte s tier a := by
  rw [tierByte, h, tierByte]

section
variable {tier : Nat} (ht : tier ≠ 0)
include ht

theorem tBytes_eq_map_tierByte (s : State) (core a n : Nat) : s.tBytes core tier a n = (List.range n).map (fun i => tierByte s tier (a + i)) := by
  rw [State.tBytes, if_neg ht]
  unfold tierByte
  split <;> rfl

theorem tBytes_congr {s t : State} {a n : Nat} (core : Nat) (h : ∀ b, a ≤ b → b < a + n → tierByte t tier b = tierByte s tier b) :
    t.tBytes core tier a n = s.tBytes core tier a n := by
  rw [tBytes_eq_map_tierByte ht, tBytes_eq_map_tierByte ht]
  refine List.map_congr_left fun i hi => h _ (Nat.le_add_right ..) ?_
  have := List.mem_range.mp hi
  omega

/-- A write of a memory tier changes the memories only. -/
theorem tWrite_only (s : State) (core a : Nat) (bs : List Byte) (p : Bool) :
    s.tWrite core tier a bs p = { s with mem := (s.tWrite core tier a bs p).mem } := by
  rw [State.tWrite, if_neg ht]
  split <;> rfl

/-- Reading a byte of any memory tier after a write of one. -/
theorem tierByte_tWrite (s : State) (core a : Nat) (bs : List Byte) (p : Bool) (q b : Nat) : tierByte (s.tWrite core tier a bs p) q b =
    if (q = 4 ↔ tier = 4) ∧ a ≤ b ∧ b < a + bs.length then bs.getD (b - a) 0 else tierByte s q b := by
  rw [State.tWrite, if_neg ht]
  by_cases h4 : tier = 4 <;> by_cases hq : q = 4
  · simp only [h4, hq, tierByte, putHost_eq_putCells, MemSt.hostByte, smGet_putCells, if_true, true_and]
  · simp only [h4, hq, tierByte, putHost_eq_putCells, if_true, if_false, false_iff, not_true, false_and]
    rfl
  · simp only [h4, hq, tierByte, hostByte_write, hostByte_sample, if_true, if_false, true_iff, false_and]
  · simp only [h4, hq, tierByte, byte_write, byte_sample, if_false, true_and]

theorem tBytes_tWrite_self (s : State) (core a : Nat) (bs : List Byte) (p : Bool) :
    (s.tWrite core tier a bs p).tBytes core tier a bs.length = bs := by
  rw [tBytes_eq_map_tierByte ht]
  refine List.ext_getElem (by simp) fun i _ hi => ?_
  simp [tierByte_tWrite ht, hi]

end

/-- The poison of lines is no byte of memory. -/
theorem tierByte_clearLine (s : State) (core tier l q b : Nat) : tierByte (s.clearLine core tier l) q b = tierByte s q b := by
  unfold State.clearLine
  split_ifs <;> rfl

theorem tierByte_clearWhole (s : State) (core : Nat) (d : Desc) (cs : List (List Nat × Bool)) (bad : List Nat) (q b : Nat) :
    tierByte (clearWhole s core d cs bad) q b = tierByte s q b := by
  unfold clearWhole
  split
  · rfl
  · refine foldl_view (fun s => tierByte s q b) _ (fun s l => ?_) _ s
    split
    · rfl
    · exact tierByte_clearLine ..

/-! ### Numbers as bytes -/

theorem leNat_lt (bs : List Byte) : leNat bs < 256 ^ bs.length := by
  induction bs with
  | nil => decide
  | cons b bs ih =>
    have hb := b.isLt
    rw [leNat, List.length_cons, pow_succ]
    omega

theorem tNum_lt (s : State) (core tier a n : Nat) : s.tNum core tier a n < 256 ^ n := by
  have h := leNat_lt (s.tBytes core tier a n)
  rwa [tBytes_length] at h

theorem leNat_leBytes {k n : Nat} (h : n < 256 ^ k) : leNat (leBytes k n) = n := by
  induction k generalizing n with
  | zero => rw [pow_zero] at h; rw [leBytes, leNat]; omega
  | succ k ih =>
    rw [pow_succ] at h
    rw [leBytes, leNat, ih (by omega), BitVec.toNat_ofNat]
    omega

/-- The whole of a word of `hi + 1` bits as a field of it. -/
theorem bitsOf_whole {n hi : Nat} (h : n < 2 ^ (hi + 1)) : bitsOf n hi 0 = n := by
  rw [bitsOf, pow_zero, Nat.div_one, Nat.sub_zero, Nat.mod_eq_of_lt h]

theorem putBits_whole {v hi x : Nat} (hv : v < 2 ^ (hi + 1)) (hx : x < 2 ^ (hi + 1)) : putBits v hi 0 x = x := by
  rw [putBits, bitsOf_whole hv, Nat.sub_zero, Nat.mod_eq_of_lt hx, pow_zero]
  omega

/-! ### Elements of whole bytes -/

/-- An element of whole bytes in memory: its type is not packed, and its tier is no SRAM. -/
structure Desc.Whole (d : Desc) : Prop where
  packed : d.bits % 8 = 0
  pos : 0 < d.bits / 8
  tier : d.tier ≠ 0

section
variable {d : Desc} (hd : d.Whole)
include hd

/-- The first bit of an element of whole bytes is the first of its address (R54, R80). -/
theorem bit_eq_addrOf (cs : List Nat) : ((d.base : Int) * 8 + d.bitOff cs).toNat = 8 * d.addrOf cs := by
  obtain ⟨n, hn⟩ : ∃ n, d.bits = 8 * n := ⟨d.bits / 8, by have := hd.packed; omega⟩
  have hoff : d.elemOff cs * (d.bits : Int) = 8 * (d.elemOff cs * n) := by rw [hn]; push_cast; ring
  rw [Desc.bitOff, Desc.addrOf, hoff, Int.mul_ediv_cancel_left _ (by decide)]
  omega

theorem bytes_of_bits : (0 + d.bits + 7) / 8 = d.bits / 8 := by
  have := hd.packed
  omega

theorem two_pow_bits : 2 ^ (0 + d.bits - 1 + 1) = 256 ^ (d.bits / 8) := by
  have h1 := hd.packed
  have h2 := hd.pos
  rw [show (256 : Nat) = 2 ^ 8 from rfl, ← pow_mul]
  congr 1
  omega

/-- The code of an element of whole bytes is the number at its address. -/
theorem elemCode_eq_tNum (s : State) (core : Nat) (cs : List Nat) : elemCode s core d cs = s.tNum core d.tier (d.addrOf cs) (d.bits / 8) := by
  simp only [elemCode, tBits, bit_eq_addrOf hd, Nat.mul_mod_right, Nat.mul_div_cancel_left _ (by decide : 0 < 8), bytes_of_bits hd]
  exact bitsOf_whole (by rw [two_pow_bits hd]; exact tNum_lt ..)

theorem elemCode_lt (s : State) (core : Nat) (cs : List Nat) : elemCode s core d cs < 256 ^ (d.bits / 8) := by
  rw [elemCode_eq_tNum hd]
  exact tNum_lt ..

theorem elemCode_congr {s t : State} {cs : List Nat} (core : Nat)
    (h : ∀ b, d.addrOf cs ≤ b → b < d.addrOf cs + d.bits / 8 → tierByte t d.tier b = tierByte s d.tier b) :
    elemCode t core d cs = elemCode s core d cs := by
  rw [elemCode_eq_tNum hd, elemCode_eq_tNum hd, State.tNum, tBytes_congr hd.tier core h, State.tNum]

/-- A plain store of an element of whole bytes is one write (R92). -/
theorem storeElem_eq_tWrite {core : Nat} {code : Nat} (ha : d.accum = false) (hcode : code < 256 ^ (d.bits / 8)) (s : State) (cs : List Nat) (p : Bool) :
    storeElem s core d cs code p = s.tWrite core d.tier (d.addrOf cs) (leBytes (d.bits / 8) code) p := by
  simp only [storeElem, ha, Bool.false_eq_true, if_false, putElem, bit_eq_addrOf hd, Nat.mul_mod_right,
    Nat.mul_div_cancel_left _ (by decide : 0 < 8), bytes_of_bits hd]
  rw [putBits_whole (by rw [two_pow_bits hd]; exact tNum_lt ..) (by rwa [two_pow_bits hd])]

theorem elemCode_tWrite_self {code : Nat} (hcode : code < 256 ^ (d.bits / 8)) (s : State) (core : Nat) (cs : List Nat) (p : Bool) :
    elemCode (s.tWrite core d.tier (d.addrOf cs) (leBytes (d.bits / 8) code) p) core d cs = code := by
  have h := tBytes_tWrite_self hd.tier s core (d.addrOf cs) (leBytes (d.bits / 8) code) p
  rw [leBytes_length] at h
  rw [elemCode_eq_tNum hd, State.tNum, h, leNat_leBytes hcode]

end

end Sys2Proof.Machine
end

section
/-! SUPPORT. The lines that elements touch, and the poison that writes within a line and whole lines leave (R331, R405, R406). -/

namespace Sys2Proof.Machine

/-! ### Lines of elements -/

/-- A line joins a list of lines, once. -/
def addLine (a : List Nat) (l : Nat) : List Nat := if a.contains l then a else a ++ [l]

theorem mem_addLine {a : List Nat} {l k : Nat} : k ∈ addLine a l ↔ k ∈ a ∨ k = l := by
  unfold addLine
  split
  · rename_i h
    exact ⟨Or.inl, fun hk => hk.elim id fun e => e ▸ List.contains_iff_mem.mp h⟩
  · rw [List.mem_append, List.mem_singleton]

theorem nodup_addLine {a : List Nat} (h : a.Nodup) (l : Nat) : (addLine a l).Nodup := by
  unfold addLine
  split
  · exact h
  · rename_i hl
    exact List.nodup_append.mpr ⟨h, List.nodup_singleton l, fun x hx y hy e => hl (by
      rw [List.mem_singleton.mp hy] at e
      simpa [← e] using hx)⟩

theorem mem_foldl_addLine {ls a : List Nat} {k : Nat} : k ∈ ls.foldl addLine a ↔ k ∈ a ∨ k ∈ ls := by
  induction ls generalizing a with
  | nil => simp
  | cons l ls ih => rw [List.foldl_cons, ih, mem_addLine, List.mem_cons, or_assoc]

theorem nodup_foldl_addLine {ls a : List Nat} (h : a.Nodup) : (ls.foldl addLine a).Nodup := by
  induction ls generalizing a with
  | nil => exact h
  | cons l ls ih => exact ih (nodup_addLine h l)

/-- The line of an element, and that of its scale byte where it is marked. -/
def elemLines (d : Desc) (c : List Nat × Bool) : List Nat := d.addrOf c.1 / 64 :: if c.2 then [d.scaleAddr c.1 / 64] else []

theorem touched_eq_foldl_addLine (d : Desc) (cs : List (List Nat × Bool)) : touched d cs = (cs.flatMap (elemLines d)).foldl addLine [] := by
  rw [List.foldl_flatMap, touched]
  congr
  funext a c
  unfold elemLines
  split <;> rfl

theorem mem_touched {d : Desc} {cs : List (List Nat × Bool)} {k : Nat} : k ∈ touched d cs ↔ ∃ c ∈ cs, k ∈ elemLines d c := by
  rw [touched_eq_foldl_addLine, mem_foldl_addLine, List.mem_flatMap]
  simp only [List.not_mem_nil, false_or]

theorem nodup_touched (d : Desc) (cs : List (List Nat × Bool)) : (touched d cs).Nodup := by
  rw [touched_eq_foldl_addLine]
  exact nodup_foldl_addLine List.nodup_nil

/-- More elements touch no fewer lines. -/
theorem touched_length_le (d : Desc) {cs ds : List (List Nat × Bool)} (h : cs ⊆ ds) : (touched d cs).length ≤ (touched d ds).length :=
  (List.subperm_of_subset (nodup_touched d cs) fun _ hk =>
    let ⟨c, hc, hkc⟩ := mem_touched.mp hk
    mem_touched.mpr ⟨c, h hc, hkc⟩).length_le

/-- Elements cover no bit of a line that they do not touch. -/
theorem lineBits_untouched {d : Desc} {cs : List (List Nat × Bool)} {k : Nat} (h : k ∉ touched d cs) : lineBits d cs k = 0 := by
  have hnone : ∀ c ∈ cs, k ∉ elemLines d c := fun c hc hk => h (mem_touched.mpr ⟨c, hc, hk⟩)
  clear h
  unfold lineBits
  induction cs with
  | nil => rfl
  | cons c cs ih =>
    have hc := hnone c (List.mem_cons_self ..)
    have hline : ¬ d.addrOf c.1 / 64 = k := fun e => hc (e ▸ List.mem_cons_self ..)
    have hscale : ¬ (c.2 = true ∧ d.scaleAddr c.1 / 64 = k) := fun ⟨h2, e⟩ => hc (by simp [elemLines, h2, e])
    rw [List.foldl_cons, if_neg hline, if_neg hscale]
    exact ih fun c hc => hnone c (List.mem_cons_of_mem _ hc)

theorem mem_ite_append {P : Prop} [Decidable P] {a : List Nat} {l k : Nat} (h : k ∈ if P then a ++ [l] else a) : k ∈ a ∨ P ∧ k = l := by
  split at h
  · rename_i hP
    exact (List.mem_append.mp h).imp_right fun e => ⟨hP, List.mem_singleton.mp e⟩
  · exact Or.inl h

/-- Only lines that elements of a copy touch take poison from it. -/
theorem mem_weavePoison {s : State} {w : WCopy} {es : List WElem} {k : Nat} :
    k ∈ weavePoison s w es → ∃ x ∈ es, k ∈ elemLines w.dst (x.e, x.scale) := by
  refine List.foldlRecOn (motive := fun a => k ∈ a → ∃ x ∈ es, k ∈ elemLines w.dst (x.e, x.scale)) es _ (fun h => nomatch h) fun a ha x hx h => ?_
  rcases mem_ite_append h with h | ⟨⟨hscale, -⟩, rfl⟩
  · rcases mem_ite_append h with h | ⟨-, rfl⟩
    · exact ha h
    · exact ⟨x, hx, List.mem_cons_self ..⟩
  · exact ⟨x, hx, by simp [elemLines, hscale]⟩

/-! ### Poison -/

/-- Bytes that end within the line of their first touch that line alone. -/
theorem linesOf_within {a n : Nat} (hn : 0 < n) (h : a % 64 + n ≤ 64) : linesOf a n = [a / 64] := by
  rw [linesOf, if_neg (by omega), show (a + n - 1) / 64 - a / 64 + 1 = 1 by omega]
  rfl

/-- A write of part of one line poisons it or leaves it (R405, R406). -/
theorem poisoned_write_within (m : MemSt) {a : Nat} {bs : List Byte} (hn : 0 < bs.length) (hp : bs.length < 64) (h : a % 64 + bs.length ≤ 64)
    (p : Bool) (k : Nat) : (m.write a bs p).poisoned k = (m.poisoned k || (p && decide (k = a / 64))) := by
  rw [MemSt.write, writePoison_eq, linesOf_within hn h, List.foldl_cons, List.foldl_nil, poisonStep, if_neg (by omega : ¬ (a ≤ _ ∧ _))]
  cases p
  · simp [poisoned_putBytes]
  · rw [if_pos rfl, poisoned_setPoison, poisoned_putBytes]
    split <;> simp_all

theorem poisoned_sample (m : MemSt) (io : Io) (a k : Nat) : (m.sample io a).poisoned k = m.poisoned k := by
  rw [sample_only]
  rfl

section
variable {tier : Nat} (h0 : tier ≠ 0) (h4 : tier ≠ 4)
include h0 h4

theorem poisoned_tWrite_within (s : State) (core : Nat) {a : Nat} {bs : List Byte} (hn : 0 < bs.length) (hp : bs.length < 64)
    (h : a % 64 + bs.length ≤ 64) (p : Bool) (k : Nat) :
    (s.tWrite core tier a bs p).mem.poisoned k = (s.mem.poisoned k || (p && decide (k = a / 64))) := by
  rw [State.tWrite, if_neg h0, if_neg h4]
  exact (poisoned_write_within _ hn hp h p k).trans (by rw [poisoned_sample])

theorem poisoned_clearLine (s : State) (core l k : Nat) : (s.clearLine core tier l).mem.poisoned k = if k = l then false else s.mem.poisoned k := by
  rw [State.clearLine, if_neg h0, if_neg h4]
  exact poisoned_setPoison ..

/-- The lines of a list are cleared but for those that `keep` names. -/
theorem poisoned_foldl_clearLine (core : Nat) (keep : Nat → Prop) [DecidablePred keep] (ls : List Nat) (s : State) (k : Nat) :
    (ls.foldl (fun s l => if keep l then s else s.clearLine core tier l) s).mem.poisoned k =
      if k ∈ ls ∧ ¬ keep k then false else s.mem.poisoned k := by
  induction ls generalizing s with
  | nil => simp
  | cons l ls ih =>
    have hstep : (if keep l then s else s.clearLine core tier l).mem.poisoned k = if k = l ∧ ¬ keep k then false else s.mem.poisoned k := by
      by_cases hl : keep l
      · rw [if_pos hl, if_neg fun ⟨e, hk⟩ => hk (e ▸ hl)]
      · rw [if_neg hl, poisoned_clearLine h0 h4]
        exact if_congr ⟨fun e => ⟨e, e ▸ hl⟩, And.left⟩ rfl rfl
    rw [List.foldl_cons, ih, hstep]
    simp only [List.mem_cons]
    grind

/-- Lines that elements cover whole are clean but for those that take poison (R406). -/
theorem poisoned_clearWhole {d : Desc} (hd : d.tier = tier) (ha : d.accum = false) (s : State) (core : Nat) (cs : List (List Nat × Bool)) (bad : List Nat)
    (k : Nat) : (clearWhole s core d cs bad).mem.poisoned k = if k ∉ bad ∧ 512 ≤ lineBits d cs k then false else s.mem.poisoned k := by
  rw [clearWhole, ha, if_neg Bool.false_ne_true, hd,
    poisoned_foldl_clearLine h0 h4 core (fun l => bad.contains l = true ∨ lineBits d cs l < 512)]
  refine if_congr ?_ rfl rfl
  rw [not_or, List.contains_iff_mem, Nat.not_lt]
  refine ⟨And.right, fun h => ⟨?_, h⟩⟩
  by_contra hk
  have := lineBits_untouched hk
  omega

end

end Sys2Proof.Machine
end

section
/-! PROOF. The elements that a Weaver writes: every one written holds its source's code, and no other byte changes (R323, R331, R333, R406). -/

namespace Sys2Proof.Machine

/-! ### What writing changes -/

/-- From `s` to `t` only registers, event delivery and memories may differ. -/
def IoMemOnly (s t : State) : Prop := t = { s with io := t.io, mem := t.mem }

theorem IoMemOnly.trans {s t u : State} (h : IoMemOnly s t) (k : IoMemOnly t u) : IoMemOnly s u := by
  rw [IoMemOnly] at h k ⊢
  rw [k, h]

/-- From `s` to `t` only memories may differ. -/
def MemOnly (s t : State) : Prop := t = { s with mem := t.mem }

theorem MemOnly.refl (s : State) : MemOnly s s := rfl

theorem MemOnly.trans {s t u : State} (h : MemOnly s t) (k : MemOnly t u) : MemOnly s u := by
  rw [MemOnly] at h k ⊢
  rw [k, h]

theorem MemOnly.foldl {α : Type} {f : State → α → State} (h : ∀ s x, MemOnly s (f s x)) (l : List α) (s : State) : MemOnly s (l.foldl f s) := by
  induction l generalizing s with
  | nil => exact .refl s
  | cons x l ih => exact (h s x).trans (ih _)

theorem MemOnly.io {s t : State} (h : MemOnly s t) : t.io = s.io := by rw [h]

theorem MemOnly.ioMem {s t : State} (h : MemOnly s t) : IoMemOnly s t := by
  rw [IoMemOnly, h.io]
  exact h

theorem memOnly_storeElem {d : Desc} (hd : d.tier ≠ 0) (s : State) (core : Nat) (cs : List Nat) (code : Nat) (p : Bool) :
    MemOnly s (storeElem s core d cs code p) := by
  unfold storeElem
  split <;> exact tWrite_only hd ..

theorem memOnly_clearLine {tier : Nat} (ht : tier ≠ 0) (s : State) (core l : Nat) : MemOnly s (s.clearLine core tier l) := by
  rw [State.clearLine, if_neg ht]
  split <;> rfl

theorem memOnly_clearWhole {d : Desc} (hd : d.tier ≠ 0) (s : State) (core : Nat) (cs : List (List Nat × Bool)) (bad : List Nat) :
    MemOnly s (clearWhole s core d cs bad) := by
  unfold clearWhole
  split
  · rfl
  · refine MemOnly.foldl (fun s l => ?_) _ _
    split
    · rfl
    · exact memOnly_clearLine hd ..

section
variable {w : WCopy} (hw : w.dst.tier ≠ 0)
include hw

theorem memOnly_weaveElem (s : State) (bad : List Nat) (x : WElem) : MemOnly s (weaveElem s w bad x) := by
  unfold weaveElem
  split
  · exact (memOnly_storeElem hw ..).trans (tWrite_only hw ..)
  · exact memOnly_storeElem hw ..

theorem memOnly_weaveWrite (s : State) (bad : List Nat) (es : List WElem) : MemOnly s (weaveWrite s w bad es) :=
  (MemOnly.foldl (fun s x => memOnly_weaveElem hw s bad x) es s).trans (memOnly_clearWhole hw ..)

end

/-! ### Copies of plain elements -/

/-- A plain copy: elements of whole bytes without scales, stored and not added, none of which overlaps another of the
destination or, in one address space, of the source. -/
structure WCopy.Plain (w : WCopy) : Prop where
  scalar : Num.isMx w.src.etype = false
  stored : w.dst.accum = false
  types : w.src.etype = w.dst.etype
  src : w.src.Whole
  dst : w.dst.Whole
  apart : ∀ x ∈ w.elems, ∀ y ∈ w.elems, x ≠ y →
    w.dst.addrOf x.e + w.src.bits / 8 ≤ w.dst.addrOf y.e ∨ w.dst.addrOf y.e + w.src.bits / 8 ≤ w.dst.addrOf x.e
  away : (w.src.tier = 4 ↔ w.dst.tier = 4) → ∀ x ∈ w.elems, ∀ y ∈ w.elems,
    w.src.addrOf x.i + w.src.bits / 8 ≤ w.dst.addrOf y.e ∨ w.dst.addrOf y.e + w.src.bits / 8 ≤ w.src.addrOf x.i

/-- From `s` to `t` the elements `done` of a copy have been written: each holds its source's code of `s`, and every byte
outside them is as it was. -/
structure Copied (w : WCopy) (s t : State) (done : List WElem) : Prop where
  written : ∀ x ∈ done, elemCode t 0 w.dst x.e = elemCode s 0 w.src x.i
  rest : ∀ tier b, ((tier = 4 ↔ w.dst.tier = 4) → ∀ x ∈ done, b < w.dst.addrOf x.e ∨ w.dst.addrOf x.e + w.src.bits / 8 ≤ b) →
    tierByte t tier b = tierByte s tier b

section
variable {w : WCopy} {s t u : State} {done : List WElem}

theorem Copied.nil (w : WCopy) (s : State) : Copied w s s [] := ⟨fun _ h => (nomatch h), fun _ _ _ => rfl⟩

theorem Copied.of_mem_iff {l : List WElem} (h : Copied w s t done) (hl : ∀ x, x ∈ l ↔ x ∈ done) : Copied w s t l :=
  ⟨fun x hx => h.written x ((hl x).mp hx), fun tier b hb => h.rest tier b fun ht x hx => hb ht x ((hl x).mpr hx)⟩

/-- Bytes of device memory outside the elements copied are as they were. -/
theorem Copied.byte (h : Copied w s t done) {a : Nat} (ha : ∀ x ∈ done, a < w.dst.addrOf x.e ∨ w.dst.addrOf x.e + w.src.bits / 8 ≤ a) :
    t.mem.byte a = s.mem.byte a := by
  have := h.rest 1 a fun _ => ha
  simpa [tierByte] using this

variable (hp : w.Plain)
include hp

theorem WCopy.Plain.bits : w.dst.bits = w.src.bits := congrArg Num.width hp.types.symm

theorem WCopy.Plain.scale {x : WElem} (hx : x ∈ w.elems) : x.scale = false := by
  obtain ⟨t, -, rfl⟩ := List.mem_map.mp hx
  simp only [hp.scalar, Bool.false_and]

/-- A step that changes no byte of memory keeps what has been copied. -/
theorem Copied.of_bytes (h : Copied w s t done) (hu : ∀ tier b, tierByte u tier b = tierByte t tier b) : Copied w s u done :=
  ⟨fun x hx => (elemCode_congr hp.dst 0 fun b _ _ => hu _ b).trans (h.written x hx), fun tier b hb => (hu tier b).trans (h.rest tier b hb)⟩

/-- The source reads as before the copy. -/
theorem Copied.source (h : Copied w s t done) (hdone : done ⊆ w.elems) {x : WElem} (hx : x ∈ w.elems) :
    elemCode t 0 w.src x.i = elemCode s 0 w.src x.i := by
  refine elemCode_congr hp.src 0 fun b hlo hhi => h.rest _ b fun ht y hy => ?_
  have := hp.away ht x hx y (hdone hy)
  omega

/-- An element that is not yet copied holds its old code. -/
theorem Copied.old (h : Copied w s t done) (hdone : done ⊆ w.elems) {x : WElem} (hx : x ∈ w.elems) (hnew : x ∉ done) :
    elemCode t 0 w.dst x.e = elemCode s 0 w.dst x.e := by
  refine elemCode_congr hp.dst 0 fun b hlo hhi => h.rest _ b fun _ y hy => ?_
  have := hp.apart x hx y (hdone hy) fun e => hnew (e ▸ hy)
  rw [hp.bits] at hhi
  omega

/-- A plain element is one write of its source's code. -/
theorem weaveElem_eq_tWrite (t : State) (bad : List Nat) {x : WElem} (hx : x ∈ w.elems) : weaveElem t w bad x =
    t.tWrite 0 w.dst.tier (w.dst.addrOf x.e) (leBytes (w.dst.bits / 8) (elemCode t 0 w.src x.i)) (bad.contains (w.dst.addrOf x.e / 64)) := by
  have hcode : elemCode t 0 w.src x.i < 256 ^ (w.dst.bits / 8) := by
    rw [hp.bits]
    exact elemCode_lt hp.src ..
  simp only [weaveElem, hp.scale hx, Bool.false_eq_true, if_false]
  exact storeElem_eq_tWrite hp.dst hp.stored hcode ..

/-- Writing an element adds it to the copied ones. -/
theorem Copied.weaveElem (h : Copied w s t done) (hdone : done ⊆ w.elems) (bad : List Nat) {x : WElem} (hx : x ∈ w.elems) :
    Copied w s (weaveElem t w bad x) (done ++ [x]) := by
  have hsource := h.source hp hdone hx
  have hcode : elemCode s 0 w.src x.i < 256 ^ (w.dst.bits / 8) := by
    rw [hp.bits]
    exact elemCode_lt hp.src ..
  rw [weaveElem_eq_tWrite hp t bad hx, hsource]
  refine ⟨fun y hy => ?_, fun tier b hb => ?_⟩
  · by_cases hyx : y = x
    · rw [hyx]
      exact elemCode_tWrite_self hp.dst hcode ..
    · have hyd : y ∈ done := (List.mem_append.mp hy).resolve_right fun h => hyx (List.mem_singleton.mp h)
      refine (elemCode_congr hp.dst 0 fun b hlo hhi => ?_).trans (h.written y hyd)
      have := hp.apart y (hdone hyd) x hx hyx
      rw [hp.bits] at hhi
      rw [tierByte_tWrite hp.dst.tier, leBytes_length, hp.bits, if_neg (by omega)]
  · rw [tierByte_tWrite hp.dst.tier, leBytes_length, hp.bits, if_neg]
    · exact h.rest tier b fun ht y hy => hb ht y (List.mem_append_left _ hy)
    · rintro ⟨ht, hlo, hhi⟩
      have := hb ht x (by simp)
      omega

theorem Copied.foldl_weaveElem (bad : List Nat) {es : List WElem} (hes : es ⊆ w.elems) (h : Copied w s t done) (hdone : done ⊆ w.elems) :
    Copied w s (es.foldl (fun s x => Machine.weaveElem s w bad x) t) (done ++ es) := by
  induction es generalizing t done with
  | nil => simpa using h
  | cons x es ih =>
    obtain ⟨hx, hes⟩ := List.cons_subset.mp hes
    have hnext := ih hes (h.weaveElem hp hdone bad hx) (List.append_subset.mpr ⟨hdone, by simpa using hx⟩)
    rwa [List.append_assoc] at hnext

theorem Copied.weaveWrite (bad : List Nat) {es : List WElem} (hes : es ⊆ w.elems) (h : Copied w s t done) (hdone : done ⊆ w.elems) :
    Copied w s (weaveWrite t w bad es) (done ++ es) :=
  (h.foldl_weaveElem hp bad hes hdone).of_bytes hp fun _ _ => tierByte_clearWhole ..

end

/-! ### Poison of a whole copy -/

theorem bits_div_eight {d : Desc} (hd : d.Whole) : d.bits / 8 = 1 ∨ d.bits / 8 = 2 ∨ d.bits / 8 = 4 ∨ d.bits / 8 = 8 := by
  have hpos := hd.pos
  have hwhole := hd.packed
  have hwidth : d.bits = 0 ∨ d.bits = 4 ∨ d.bits = 6 ∨ d.bits = 8 ∨ d.bits = 16 ∨ d.bits = 32 ∨ d.bits = 64 := by
    unfold Desc.bits Num.width
    split <;> simp
  omega

section
variable {w : WCopy} (hp : w.Plain) (h4 : w.dst.tier ≠ 4) (haligned : ∀ x ∈ w.elems, w.dst.addrOf x.e % (w.src.bits / 8) = 0)
include hp h4 haligned

/-- An aligned element poisons its line when the line is marked, and no other. -/
theorem poisoned_weaveElem (s : State) (bad : List Nat) {x : WElem} (hx : x ∈ w.elems) (k : Nat) : (weaveElem s w bad x).mem.poisoned k =
    (s.mem.poisoned k || (bad.contains (w.dst.addrOf x.e / 64) && decide (k = w.dst.addrOf x.e / 64))) := by
  have hsize := bits_div_eight hp.src
  have hin : w.dst.addrOf x.e % 64 + w.src.bits / 8 ≤ 64 := by
    have := haligned x hx
    rcases hsize with h | h | h | h <;> rw [h] at this ⊢ <;> omega
  rw [weaveElem_eq_tWrite hp s bad hx, hp.bits]
  exact poisoned_tWrite_within hp.dst.tier h4 _ _ (by rw [leBytes_length]; omega) (by rw [leBytes_length]; omega) (by rwa [leBytes_length]) _ _

theorem poisoned_foldl_weaveElem (bad : List Nat) {es : List WElem} (hes : es ⊆ w.elems) (s : State) (k : Nat) :
    (es.foldl (fun s x => weaveElem s w bad x) s).mem.poisoned k = true ↔
      s.mem.poisoned k = true ∨ k ∈ bad ∧ ∃ x ∈ es, k = w.dst.addrOf x.e / 64 := by
  induction es generalizing s with
  | nil => simp
  | cons x es ih =>
    obtain ⟨hx, hes⟩ := List.cons_subset.mp hes
    rw [List.foldl_cons, ih hes, poisoned_weaveElem hp h4 haligned s bad hx]
    simp only [Bool.or_eq_true, Bool.and_eq_true, List.contains_iff_mem, decide_eq_true_eq, List.exists_mem_cons_iff]
    constructor
    · rintro ((h | ⟨hbad, rfl⟩) | ⟨hbad, h⟩)
      · exact Or.inl h
      · exact Or.inr ⟨hbad, Or.inl rfl⟩
      · exact Or.inr ⟨hbad, Or.inr h⟩
    · rintro (h | ⟨hbad, rfl | h⟩)
      · exact Or.inl (Or.inl h)
      · exact Or.inl (Or.inr ⟨hbad, rfl⟩)
      · exact Or.inr ⟨hbad, h⟩

/-- After a whole copy the lines that take poison are poisoned, and the others that are written whole are clean (R331, R405, R406). -/
theorem poisoned_weaveWrite (s : State) (k : Nat) : (weaveWrite s w (weavePoison s w w.elems) w.elems).mem.poisoned k =
    if k ∈ weavePoison s w w.elems then true
    else if 512 ≤ lineBits w.dst (w.elems.map (fun x => (x.e, x.scale))) k then false else s.mem.poisoned k := by
  have hfold := poisoned_foldl_weaveElem hp h4 haligned (weavePoison s w w.elems) (List.Subset.refl w.elems) s k
  rw [weaveWrite, poisoned_clearWhole hp.dst.tier h4 rfl hp.stored]
  by_cases hbad : k ∈ weavePoison s w w.elems
  · obtain ⟨x, hx, hline⟩ := mem_weavePoison hbad
    simp only [elemLines, hp.scale hx, Bool.false_eq_true, if_false, List.mem_singleton] at hline
    rw [if_neg fun h => h.1 hbad, if_pos hbad]
    exact hfold.mpr (Or.inr ⟨hbad, x, hx, hline⟩)
  · have hkeep := Bool.eq_iff_iff.mpr (hfold.trans (or_iff_left fun h => hbad h.1))
    simp only [hbad, not_false_eq_true, true_and, if_false, hkeep]

end

end Sys2Proof.Machine
end

section
/-! PROOF. The end of a copy: whole, at a fault that may resolve, or before it is whole (R329, R331 to R333, Tables 12.3 to 12.7). -/

namespace Sys2Proof.Machine

/-! ### Registers of the Weavers -/

theorem bWeaver_valid {u : Nat} (hu : u < 4) : (bWeaver u).valid = true := by simpa [Block.valid, bWeaver, instances, catRow, catalogue] using hu

theorem weaver_page (u : Nat) : (catRow (bWeaver u).kind).pages = 1 := rfl

section
variable {u : Nat} (hu : u < 4) (io : Io) {o : Nat} (n : Nat)
include hu

theorem onlyRegs_weaverCount (ho : o < 4096) : Io.OnlyRegs [bWeaver u] io (io.count (bWeaver u) o n) :=
  Io.onlyRegs_count io (bWeaver_valid hu) (by rwa [weaver_page]) n

theorem onlyRegs_weaverCount64 (ho : o + 4 < 4096) : Io.OnlyRegs [bWeaver u] io (io.count64 (bWeaver u) o n) :=
  Io.onlyRegs_count64 io (bWeaver_valid hu) (by rwa [weaver_page]) n

theorem onlyEvents_weaverRise (bit : Nat) : Io.OnlyEvents [bWeaver u] io (io.rise (bWeaver u) bit) :=
  Io.onlyEvents_rise io (bWeaver_valid hu) bit none

theorem bit_weaverRise {bit : Nat} (hbit : bit < 32) : bitOf ((io.rise (bWeaver u) bit).br (bWeaver u) 0x010) bit = true :=
  Io.bit_riseWith io (bWeaver_valid hu) (by simp [bWeaver, bEvtq]) hbit _

end

/-! ### A copy that ends before it is whole -/

/-- The elements of a copy that begin in one of the destination lines listed. -/
def WCopy.onLines (w : WCopy) (ls : List Nat) : List WElem := w.elems.filter (fun x => ls.contains (w.dst.addrOf x.e / 64))

/-- The elements of a copy that begin in one destination line. -/
def WCopy.onLine (w : WCopy) (l : Nat) : List WElem := w.elems.filter (fun x => w.dst.addrOf x.e / 64 == l)

theorem WCopy.onLines_subset (w : WCopy) (ls : List Nat) : w.onLines ls ⊆ w.elems := List.filter_subset_self _

theorem WCopy.onLine_subset (w : WCopy) (l : Nat) : w.onLine l ⊆ w.elems := List.filter_subset_self _

theorem WCopy.mem_onLines {w : WCopy} {ls : List Nat} {x : WElem} : x ∈ w.onLines ls ↔ x ∈ w.elems ∧ w.dst.addrOf x.e / 64 ∈ ls := by
  simp [onLines]

theorem WCopy.mem_onLines_append {w : WCopy} {ls : List Nat} {l : Nat} {x : WElem} :
    x ∈ w.onLines (ls ++ [l]) ↔ x ∈ w.onLines ls ++ w.onLine l := by
  simp [onLines, onLine, and_or_left]

/-- One destination line of a copy that ends early, after the lines written before it. -/
def partLine (w : WCopy) (bad : List Nat) (p : State × List Nat) (l : Nat) : State × List Nat :=
  let f := freeUpTo p.1 1
  if f.1 = 1 ∧ (w.onLine l).all (fun x => (weaveFault p.1 w x).isNone) then (weaveWrite f.2 w bad (w.onLine l), p.2 ++ [l]) else (f.2, p.2)

/-- The state and the lines written when a copy ends early. -/
def partLines (s : State) (w : WCopy) : State × List Nat :=
  (touched w.dst (w.elems.map (fun x => (x.e, false)))).foldl (partLine w (weavePoison s w w.elems)) (s, [])

/-- A line is left, or written whole (R333). -/
theorem partLine_cases (w : WCopy) (bad : List Nat) (p : State × List Nat) (l : Nat) :
    partLine w bad p l = ((freeUpTo p.1 1).2, p.2) ∨ partLine w bad p l = (weaveWrite (freeUpTo p.1 1).2 w bad (w.onLine l), p.2 ++ [l]) := by
  unfold partLine
  dsimp only
  split
  · exact Or.inr rfl
  · exact Or.inl rfl

theorem ioMemOnly_partLine {w : WCopy} (hw : w.dst.tier ≠ 0) (bad : List Nat) (p : State × List Nat) (l : Nat) :
    IoMemOnly p.1 (partLine w bad p l).1 := by
  have hfree : IoMemOnly p.1 (freeUpTo p.1 1).2 := rfl
  rcases partLine_cases w bad p l with h | h <;> rw [h]
  · exact hfree
  · exact hfree.trans (memOnly_weaveWrite hw ..).ioMem

theorem Copied.partLine {w : WCopy} (hp : w.Plain) {s : State} (bad : List Nat) {p : State × List Nat} (h : Copied w s p.1 (w.onLines p.2)) (l : Nat) :
    Copied w s (partLine w bad p l).1 (w.onLines (partLine w bad p l).2) := by
  have hfree : Copied w s (freeUpTo p.1 1).2 (w.onLines p.2) := h.of_bytes hp (tierByte_congr_mem rfl)
  rcases partLine_cases w bad p l with h | h <;> rw [h]
  · exact hfree
  · exact (hfree.weaveWrite hp bad (w.onLine_subset l) (w.onLines_subset _)).of_mem_iff fun _ => WCopy.mem_onLines_append

theorem ioMemOnly_partLines {w : WCopy} (hw : w.dst.tier ≠ 0) (s : State) : IoMemOnly s (partLines s w).1 := by
  unfold partLines
  exact List.foldlRecOn (motive := fun p : State × List Nat => IoMemOnly s p.1) _ _ (show IoMemOnly s s from rfl) fun p h l _ => h.trans (ioMemOnly_partLine hw _ p l)

theorem copied_partLines {w : WCopy} (hp : w.Plain) (s : State) : Copied w s (partLines s w).1 (w.onLines (partLines s w).2) := by
  have hnone : Copied w s s (w.onLines []) := (Copied.nil w s).of_mem_iff fun x => by simp [WCopy.mem_onLines]
  unfold partLines
  exact List.foldlRecOn (motive := fun p : State × List Nat => Copied w s p.1 (w.onLines p.2)) _ _ hnone fun _ h l _ => h.partLine hp _ l

/-- Source lines that the elements listed lie in. -/
def WCopy.sourceLines (w : WCopy) (es : List WElem) : Nat := (touched w.src (es.map (fun x => (x.i, x.scale)))).length

/-- Destination lines of a copy. -/
def WCopy.destLines (w : WCopy) : Nat := (touched w.dst (w.elems.map (fun x => (x.e, x.scale)))).length

/-- What a copy that ends early reports of itself, once its lines `r` are written: free values beside the counts of the lines. -/
def partEnd (s : State) (w : WCopy) (r : State × List Nat) : State × WeaveEnd :=
  let used := w.sourceLines (w.onLines r.2)
  let rd := freeUpTo r.1 (w.sourceLines w.elems - used)
  let dr := freeUpTo rd.2 (min 512 (w.sourceLines w.elems - used - rd.1))
  let ti := freeUpTo dr.2 w.tiles
  (ti.2, ⟨r.2.length, used + rd.1, ti.1, dr.1, r.2.any (fun l => (weavePoison s w w.elems).contains l)⟩)

theorem weavePart_eq_partEnd (s : State) (w : WCopy) : weavePart s w = partEnd s w (partLines s w) := by
  unfold weavePart partLines partEnd partLine WCopy.onLine
  rfl

theorem partEnd_eq (s : State) (w : WCopy) (r : State × List Nat) : (partEnd s w r).1 = { r.1 with io := (partEnd s w r).1.io } := rfl

/-- No more lines are read than the copy has (Table 12.3). -/
theorem read_partEnd_le (s : State) (w : WCopy) (r : State × List Nat) : (partEnd s w r).2.read ≤ w.sourceLines w.elems := by
  have hused : w.sourceLines (w.onLines r.2) ≤ w.sourceLines w.elems := touched_length_le _ (List.map_subset _ (w.onLines_subset _))
  have hfree : ∀ m, (freeUpTo r.1 m).1 < m + 1 := fun m => Nat.mod_lt _ m.succ_pos
  have := hfree (w.sourceLines w.elems - w.sourceLines (w.onLines r.2))
  change w.sourceLines (w.onLines r.2) + (freeUpTo r.1 _).1 ≤ _
  omega

theorem flags_fields (e : WeaveEnd) (w : WCopy) : bitOf (e.flags w) 2 = w.transpose ∧ e.flags w < 8 := by
  unfold WeaveEnd.flags
  cases e.poison <;> cases w.transpose <;> decide

/-- The state of a copy that fails, before its command completes, from what was written of it. -/
def endedEarly (u : Nat) (r : State × WeaveEnd) : State :=
  (weaveEndCount r.1 u r.2).mapIo (fun io => (io.count (bWeaver u) Off.weaver_FAILED 1).rise (bWeaver u) 2)

theorem endedEarly_eq (u : Nat) (r : State × WeaveEnd) : endedEarly u r = { r.1 with io := (endedEarly u r).io } := rfl

theorem failed_endedEarly {u : Nat} (hu : u < 4) (r : State × WeaveEnd) : bitOf ((endedEarly u r).io.br (bWeaver u) 0x010) 2 = true :=
  bit_weaverRise hu _ (by decide)

theorem failedCopy_eq (s : State) (u : Nat) (w : WCopy) :
    endedEarly u (weavePart s w) = { (partLines s w).1 with io := (endedEarly u (weavePart s w)).io } := by
  rw [weavePart_eq_partEnd, endedEarly_eq, partEnd_eq]

theorem ioMemOnly_failedCopy {w : WCopy} (hw : w.dst.tier ≠ 0) (s : State) (u : Nat) : IoMemOnly s (endedEarly u (weavePart s w)) := by
  refine (ioMemOnly_partLines hw s).trans ?_
  rw [IoMemOnly, failedCopy_eq]

/-- A plain copy that fails leaves each destination line old or all new, and every other byte as it was (R333). -/
theorem failedCopy_lines {w : WCopy} (hp : w.Plain) {s t : State} (ht : t.mem = (partLines s w).1.mem) :
    (∀ a, (∀ x ∈ w.elems, a < w.dst.addrOf x.e ∨ w.dst.addrOf x.e + w.src.bits / 8 ≤ a) → t.mem.byte a = s.mem.byte a) ∧
    ∀ l, (∀ x ∈ w.elems, w.dst.addrOf x.e / 64 = l → elemCode t 0 w.dst x.e = elemCode s 0 w.dst x.e) ∨
      ∀ x ∈ w.elems, w.dst.addrOf x.e / 64 = l → elemCode t 0 w.dst x.e = elemCode s 0 w.src x.i := by
  have hcopied : Copied w s t (w.onLines (partLines s w).2) := (copied_partLines hp s).of_bytes hp (tierByte_congr_mem ht)
  refine ⟨fun a ha => hcopied.byte fun x hx => ha x (w.onLines_subset _ hx), fun l => ?_⟩
  by_cases hl : l ∈ (partLines s w).2
  · exact Or.inr fun x hx hline => hcopied.written x (WCopy.mem_onLines.mpr ⟨hx, hline ▸ hl⟩)
  · exact Or.inl fun x hx hline => hcopied.old hp (w.onLines_subset _) hx fun h => hl (hline ▸ (WCopy.mem_onLines.mp h).2)

/-! ### A whole copy -/

/-- The counters and the status bit of a copy that completes with the lines `bad` poisoned (Tables 12.6 and 12.7). -/
def wholeIo (u : Nat) (w : WCopy) (bad : List Nat) (io : Io) : Io :=
  let io := io.count64 (bWeaver u) Off.weaver_COPIES_LO 1
  let io := io.count64 (bWeaver u) Off.weaver_LINES_READ_LO (w.sourceLines w.elems)
  let io := io.count64 (bWeaver u) Off.weaver_LINES_WRITTEN_LO w.destLines
  let io := io.count64 (bWeaver u) Off.weaver_TILES_LO w.tiles
  if bad = [] then io else io.rise (bWeaver u) 4

theorem onlyEvents_wholeIo {u : Nat} (hu : u < 4) (w : WCopy) (bad : List Nat) (io : Io) : Io.OnlyEvents [bWeaver u] io (wholeIo u w bad io) := by
  have hcounts := (((onlyRegs_weaverCount64 hu io 1 (o := Off.weaver_COPIES_LO) (by decide)).trans
    (onlyRegs_weaverCount64 hu _ (w.sourceLines w.elems) (o := Off.weaver_LINES_READ_LO) (by decide))).trans
    (onlyRegs_weaverCount64 hu _ w.destLines (o := Off.weaver_LINES_WRITTEN_LO) (by decide))).trans
    (onlyRegs_weaverCount64 hu _ w.tiles (o := Off.weaver_TILES_LO) (by decide))
  unfold wholeIo
  split
  · exact hcounts.events
  · exact hcounts.events.trans (onlyEvents_weaverRise hu _ 4)

/-- The state of a copy that completes, before its command does. -/
def wholeCopy (s : State) (u : Nat) (w : WCopy) : State :=
  (weaveWrite s w (weavePoison s w w.elems) w.elems).mapIo (wholeIo u w (weavePoison s w w.elems))

theorem wholeCopy_side {u : Nat} (hu : u < 4) {w : WCopy} (hw : w.dst.tier ≠ 0) (s : State) :
    IoMemOnly s (wholeCopy s u w) ∧ Io.OnlyEvents [bWeaver u] s.io (wholeCopy s u w).io := by
  have hwrite := memOnly_weaveWrite hw s (weavePoison s w w.elems) w.elems
  refine ⟨hwrite.ioMem.trans rfl, ?_⟩
  rw [wholeCopy, State.mapIo, hwrite.io]
  exact onlyEvents_wholeIo hu ..

theorem copied_wholeCopy {w : WCopy} (hp : w.Plain) (s : State) (u : Nat) : Copied w s (wholeCopy s u w) w.elems :=
  ((Copied.nil w s).weaveWrite hp (weavePoison s w w.elems) (List.Subset.refl _) (List.nil_subset _)).of_bytes hp (tierByte_congr_mem rfl)

/-! ### WEAVE_COPY_DONE -/

/-- A Weaver without a copy that has ended. -/
def withoutCopy (q : WeaverSt) (w : WCopy) : WeaverSt :=
  { queue := q.queue.filter (fun x => x.serial ≠ w.serial), active := q.active.filter (fun x => x.serial ≠ w.serial) }

/-- A copy of `s` that ends in the state `t`: its references go and its command completes. -/
def copyEnds (s : State) (u : Nat) (w : WCopy) (t : State) (code flags rd wr fa : Nat) : State :=
  finish (dropRefs { t with weave := { t.weave with units := smPut {} u (withoutCopy (weaver s u) w) t.weave.units } } w.cn [w.srcId, w.dstId])
    w.cmd code (weaveResult flags u rd wr fa)

theorem weaveEnd_eq_copyEnds {s t : State} (h : IoMemOnly s t) (u : Nat) (w : WCopy) (code flags rd wr fa : Nat) :
    weaveEnd t u w code flags rd wr fa = copyEnds s u w t code flags rd wr fa := by
  have hweave : weaver t u = weaver s u := by rw [weaver, h, weaver]
  rw [weaveEnd, hweave]
  rfl

section
variable {s : State} {u n : Nat} {w : WCopy} (hf : (weaver s u).active.find? (fun w => w.serial == n) = some w)
include hf

section
variable {c a : Nat} (hfault : w.elems.findSome? (weaveFault s w) = some (c, a))
include hfault

/-- A copy waits at a fault that may resolve (R329, R332). -/
theorem exec_weaveCopyDone_waits (hc : faultWaits c = true) : exec (.weaveCopyDone u n) s = .next (s.migrFault c) := by
  change Host.Outcome.next (weaveDone s u n) = _
  simp only [weaveDone, hf, hfault, hc, if_true]

/-- A copy fails at a line that cannot be reached (R332). -/
theorem exec_weaveCopyDone_fails (hc : faultWaits c = false) (hw : w.dst.tier ≠ 0) : exec (.weaveCopyDone u n) s =
    .next (copyEnds s u w (endedEarly u (weavePart s w)) Code.WEAVE_FAILED ((weavePart s w).2.flags w) (weavePart s w).2.read (weavePart s w).2.written (a / 64 * 64)) := by
  rw [← weaveEnd_eq_copyEnds (ioMemOnly_failedCopy hw s u)]
  change Host.Outcome.next (weaveDone s u n) = _
  simp only [weaveDone, hf, hfault, hc, Bool.false_eq_true, if_false]
  rfl

end

/-- A copy without a fault completes (R329). -/
theorem exec_weaveCopyDone_completes (hu : u < 4) (hfault : w.elems.findSome? (weaveFault s w) = none) (hw : w.dst.tier ≠ 0) :
    exec (.weaveCopyDone u n) s = .next (copyEnds s u w (wholeCopy s u w) Code.OK
      (2 * b2n (weavePoison s w w.elems ≠ []) + 4 * b2n w.transpose) (w.sourceLines w.elems) w.destLines 0) := by
  rw [← weaveEnd_eq_copyEnds (wholeCopy_side hu hw s).1]
  change Host.Outcome.next (weaveDone s u n) = _
  simp only [weaveDone, hf, hfault]
  rfl

end

end Sys2Proof.Machine
end

section
/-! PROOF. The coordinates of a copy, the checks of WEAVE, and what it does with their answer (R323, R325 to R330, Table 12.2). -/

namespace Sys2Proof.Machine

/-! ### Coordinates -/

theorem length_coordsIn (ls : List Nat) (n : Nat) : (Desc.coordsIn ls n).length = ls.length := by
  induction ls generalizing n with
  | nil => rfl
  | cons l ls ih => rw [Desc.coordsIn, List.length_cons, ih, List.length_cons]

/-- A list of distinct keys finds the value at the place of its key. -/
theorem find?_zip_getElem {ks vs : List Nat} (hk : ks.Nodup) {l : Nat} (h1 : l < ks.length) (h2 : l < vs.length) :
    (ks.zip vs).find? (fun e => e.1 == ks[l]) = some (ks[l], vs[l]) := by
  induction ks generalizing vs l with
  | nil => exact absurd h1 (Nat.not_lt_zero _)
  | cons k ks ih =>
    obtain ⟨hnew, hk⟩ := List.nodup_cons.mp hk
    cases vs with
    | nil => exact absurd h2 (Nat.not_lt_zero _)
    | cons v vs =>
      cases l with
      | zero => simp
      | succ l =>
        have hl : l < ks.length := Nat.lt_of_succ_lt_succ h1
        have hne : (k == ks[l]) = false := beq_false_of_ne fun e => hnew (e ▸ List.getElem_mem hl)
        simp only [List.zip_cons_cons, List.getElem_cons_succ, List.find?_cons, hne]
        exact ih hk hl (Nat.lt_of_succ_lt_succ h2)

/-- Dimension `perm[l]` of the source has the logical coordinate of dimension `l` (R323). -/
theorem coords_perm {w : WCopy} (hperm : w.perm.Perm (List.range w.src.rank)) (t : Nat) {l : Nat} (hl : l < w.src.rank) :
    (w.coords t).1.getD (w.perm.getD l 0) 0 = (Desc.coordsIn w.lsize t).getD l 0 := by
  have hlen : l < w.perm.length := by rwa [hperm.length_eq, List.length_range]
  have hval : l < (Desc.coordsIn w.lsize t).length := by rwa [length_coordsIn, WCopy.lsize, List.length_map]
  have hdim : w.perm[l] < w.src.rank := List.mem_range.mp (hperm.mem_iff.mp (List.getElem_mem hlen))
  have hfind := find?_zip_getElem (hperm.nodup_iff.mpr List.nodup_range) hlen hval
  rw [List.getD_eq_getElem _ _ hlen, List.getD_eq_getElem _ _ hval]
  simp [WCopy.coords, hdim, hfind]

/-! ### The checks -/

theorem count_eq_prod (d : Desc) : d.count = (d.dims.map d.sz).prod := by
  rw [Desc.count, List.prod_eq_foldl, List.foldl_map]

/-- A permutation keeps the number of elements. -/
theorem count_perm {w : WCopy} (hperm : w.perm.Perm (List.range w.src.rank)) : w.count = w.src.count := by
  rw [count_eq_prod, Desc.dims, ← (hperm.map w.src.sz).prod_eq, List.prod_eq_foldl]
  rfl

/-- PERM as the checks let it through is a permutation of the rank (R325). -/
theorem perm_of_permOk {rank perm : Nat} (h : permOk rank perm = true) :
    ((List.range rank).map (fun l => bitsOf perm (4 * l + 3) (4 * l))).Perm (List.range rank) := by
  simp only [permOk, Bool.and_eq_true, List.all_eq_true, List.contains_iff_mem] at h
  obtain ⟨⟨hall, -⟩, -⟩ := h
  rw [← List.map_take, List.take_range] at hall
  have hsub := List.subperm_of_subset List.nodup_range hall
  have hrank : rank ≤ 6 := by
    have := hsub.length_le
    simp only [List.length_range, List.length_map] at this
    omega
  rw [Nat.min_eq_left hrank] at hsub
  exact (hsub.perm_of_length_le (by simp)).symm

/-- A descriptor whose sizes are those listed has their product of elements. -/
theorem count_of_sizes {d : Desc} {ls : List Nat} (h : ls = d.size.take d.rank) (hlen : ls.length = d.rank) : d.count = ls.prod := by
  rw [count_eq_prod]
  congr 1
  refine List.ext_getElem (by simp [Desc.dims, hlen]) fun i h1 h2 => ?_
  subst h
  have hi : i < d.size.length := by
    rw [List.length_take] at h2
    omega
  simp [Desc.dims, Desc.sz, hi]

/-- What the checks of Table 12.2 establish of a copy that they let through. -/
structure Checked (w : WCopy) : Prop where
  types : w.src.etype = w.dst.etype
  srcTier : w.src.tier ≠ 0
  dstTier : w.dst.tier ≠ 0
  read : w.src.canRead = true
  write : w.dst.canWrite = true
  count : w.count = w.dst.count
  perm : w.perm.Perm (List.range w.src.rank)
  apart : descsMeet w.src w.dst = false

theorem count_of_shape {w : WCopy} (hperm : w.perm.Perm (List.range w.src.rank))
    (h : ¬ if w.reshape = true then w.src.count ≠ w.dst.count else w.dst.rank ≠ w.src.rank ∨ w.lsize ≠ w.dst.size.take w.dst.rank) :
    w.count = w.dst.count := by
  split at h
  · rw [count_perm hperm, not_not.mp h]
  · obtain ⟨hrank, hsizes⟩ := not_or.mp h
    have hlen : w.lsize.length = w.dst.rank := by rw [not_not.mp hrank, WCopy.lsize, List.length_map, hperm.length_eq, List.length_range]
    rw [count_of_sizes (not_not.mp hsizes) hlen, List.prod_eq_foldl, WCopy.count]

theorem ite_refused_eq_copy {P : Prop} [Decidable P] {code : Nat} {r : WeaveAns} {w : WCopy} :
    (if P then WeaveAns.refused code else r) = .copy w ↔ ¬ P ∧ r = .copy w := by
  by_cases h : P <;> simp [h]

theorem ite_nothing_eq_copy {P : Prop} [Decidable P] {noop : Bool} {r : WeaveAns} {w : WCopy} :
    (if P then WeaveAns.nothing noop else r) = .copy w ↔ ¬ P ∧ r = .copy w := by
  by_cases h : P <;> simp [h]

theorem checked_of_weaveCheck {s : State} {c : Cmd} {cn : Nat} {w : WCopy} (h : weaveCheck s c cn = .copy w) : Checked w := by
  unfold weaveCheck at h
  extract_lets mode unit perm reshape at h
  replace h := (ite_refused_eq_copy.mp h).2
  split at h
  · cases h
  · cases h
  simp only [ite_refused_eq_copy, ite_nothing_eq_copy, WeaveAns.copy.injEq, not_or, Bool.not_eq_true, Bool.not_eq_false, Bool.not_eq_true',
    not_not] at h
  obtain ⟨⟨hread, hwrite⟩, ⟨hsrc, hdst⟩, ⟨htypes, -⟩, hok, hshape, -, -, -, hmeet, rfl⟩ := h
  have hperm := perm_of_permOk hok
  exact ⟨htypes, hsrc, hdst, hread, hwrite, count_of_shape hperm hshape, hperm, hmeet⟩

/-! ### WEAVE -/

theorem weaveUnit_lt (s : State) (die unit : Nat) : weaveUnit s (die % 2) unit < 4 := by
  unfold weaveUnit
  dsimp only
  split
  · split <;> omega
  · omega

section
variable {s : State} {c : Cmd} {x : Ctx} (hx : c.context s = some x)
include hx

theorem exec_weave_refused {code : Nat} (h : weaveCheck s c x.cn = .refused code) :
    let u := weaveUnit s (x.home % 2) (c.p 0x19 1)
    exec (.weave c) s = .next (finish (s.mapIo fun io => (io.count (bWeaver u) Off.weaver_REFUSED 1).rise (bWeaver u) 3) c code (weaveResult 0 u 0 0 0)) := by
  change Host.Outcome.next (weaveRun s c) = _
  simp only [weaveRun, hx, h]

theorem exec_weave_nothing {noop : Bool} (h : weaveCheck s c x.cn = .nothing noop) :
    let u := weaveUnit s (x.home % 2) (c.p 0x19 1)
    exec (.weave c) s = .next (finish (s.mapIo fun io =>
      (if noop then io.count (bWeaver u) Off.weaver_NOOPS 1 else io).count64 (bWeaver u) Off.weaver_COPIES_LO 1) c Code.OK (weaveResult (b2n noop) u 0 0 0)) := by
  change Host.Outcome.next (weaveRun s c) = _
  simp only [weaveRun, hx, h]

theorem exec_weave_waits {w : WCopy} (h : weaveCheck s c x.cn = .copy w) (hfull : 32 ≤ (weaver s (weaveUnit s (x.home % 2) (c.p 0x19 1))).queue.length ∨
    s.io.enabled (bWeaver (weaveUnit s (x.home % 2) (c.p 0x19 1))) = false) : exec (.weave c) s = .next s := by
  change Host.Outcome.next (weaveRun s c) = _
  simp only [weaveRun, hx, h]
  rw [if_pos (by simpa using hfull)]

theorem exec_weave_queues {w : WCopy} (h : weaveCheck s c x.cn = .copy w)
    (hroom : (weaver s (weaveUnit s (x.home % 2) (c.p 0x19 1))).queue.length < 32)
    (hen : s.io.enabled (bWeaver (weaveUnit s (x.home % 2) (c.p 0x19 1))) = true) :
    let u := weaveUnit s (x.home % 2) (c.p 0x19 1)
    exec (.weave c) s = .next { s with
      adm := { s.adm with refs := s.adm.refs ++ [(x.cn, w.srcId), (x.cn, w.dstId)] },
      weave := { units := smPut {} u { weaver s u with queue := (weaver s u).queue ++ [{ w with serial := s.weave.next }] } s.weave.units, next := s.weave.next + 1 } } := by
  change Host.Outcome.next (weaveRun s c) = _
  simp only [weaveRun, hx, h]
  rw [if_neg (by simpa [hen] using hroom)]
  rfl

end

/-! ### WEAVE_COPY_START -/

section
variable {s : State} {u : Nat} {w : WCopy} {rest : List WCopy} (hq : (weaver s u).queue = w :: rest)
include hq

theorem exec_weaveCopyStart_starts (h : (weaver s u).active.length < 2) :
    exec (.weaveCopyStart u) s = .next (setWeaver s u { queue := rest, active := (weaver s u).active ++ [w] }) := by
  change Host.Outcome.next (weaveStart s u) = _
  simp only [weaveStart, hq, h, if_true]

theorem exec_weaveCopyStart_full (h : 2 ≤ (weaver s u).active.length) : exec (.weaveCopyStart u) s = .next s := by
  change Host.Outcome.next (weaveStart s u) = _
  simp only [weaveStart, hq, if_neg (Nat.not_lt.mpr h)]

end

end Sys2Proof.Machine
end

section
/-! PROOF. The Weavers, settled from the rules of the checks, the coordinates and the ends of a copy (R323 to R333, R406). -/

namespace Sys2Proof.Machine

/-- Settles O37: the coordinates by the permutation, the command by the answer of its checks, and the end of a copy by its first fault. -/
theorem weaverCopiesEveryElementOnce : Obligations.WeaverCopiesEveryElementOnce := by
  refine ⟨fun w t l hperm _ hl => ⟨coords_perm hperm t hl, rfl⟩, fun s c x hx => ?_,
    fun s u w rest hq => ⟨exec_weaveCopyStart_starts hq, exec_weaveCopyStart_full hq⟩, fun s u n w hu hf => ?_⟩
  · have hu : weaveUnit s (x.home % 2) (c.p 0x19 1) < 4 := weaveUnit_lt ..
    refine ⟨hu, fun code h => ⟨_, ?_, bit_weaverRise hu _ (by decide), exec_weave_refused hx h⟩, fun noop h => ⟨_, ?_, exec_weave_nothing hx h⟩, fun w h => ?_⟩
    · exact (onlyRegs_weaverCount hu s.io 1 (by decide)).events.trans (onlyEvents_weaverRise hu _ 3)
    · refine Io.OnlyRegs.trans ?_ (onlyRegs_weaverCount64 hu _ 1 (by decide))
      split
      · exact onlyRegs_weaverCount hu s.io 1 (by decide)
      · exact Io.onlyRegs_refl ..
    · obtain ⟨htypes, hsrc, hdst, hread, hwrite, hcount, hperm, hmeet⟩ := checked_of_weaveCheck h
      exact ⟨htypes, hsrc, hdst, hread, hwrite, hcount, hperm, hmeet, exec_weave_waits hx h, exec_weave_queues hx h⟩
  · intro es poison left ends size plain rest
    have hplain : w.dst.tier ≠ 0 → plain → w.Plain := by
      rintro hw ⟨hmx, hacc, htypes, hwhole, hpos, hsrc, -, -, -, hapart, haway⟩
      have hbits : w.dst.bits = w.src.bits := congrArg Num.width htypes.symm
      exact ⟨hmx, hacc, htypes, ⟨hwhole, hpos, Nat.ne_of_gt hsrc⟩, ⟨hbits ▸ hwhole, hbits ▸ hpos, hw⟩, hapart, haway⟩
    refine ⟨fun c a hfault => ⟨exec_weaveCopyDone_waits hf hfault, fun hc hw => ?_⟩, fun hfault hw => ?_⟩
    · have hread := read_partEnd_le s w (partLines s w)
      rw [← weavePart_eq_partEnd] at hread
      obtain ⟨hflag, hflags⟩ := flags_fields (weavePart s w).2 w
      refine ⟨_, _, _, _, exec_weaveCopyDone_fails hf hfault hc hw, hflag, hflags, hread, failed_endedEarly hu _, ioMemOnly_failedCopy hw s u, fun hpl => ?_⟩
      exact failedCopy_lines (hplain hw hpl) (by rw [failedCopy_eq])
    · obtain ⟨hside, hevents⟩ := wholeCopy_side hu hw s
      refine ⟨_, hside, hevents, exec_weaveCopyDone_completes hf hu hfault hw, fun hpl => ?_⟩
      have hcopied := copied_wholeCopy (hplain hw hpl) s u
      exact ⟨fun a ha => hcopied.byte ha, hcopied.written, fun h4 haligned l => poisoned_weaveWrite (hplain hw hpl) h4 haligned s l⟩

end Sys2Proof.Machine
end

section
/-! PROOF. A held token of a device whose table of Callers is out of order: taking it from its source counts the tokens of the other flows
twice, so that it finds no slot (R339, R351). -/

namespace Sys2Proof.Machine

/-- A token of service 0 that core 0 emitted for template 0 of die 0. -/
def emittedToken : Token := { die := 0, tmpl := 0, port := 0, key := 0, val := 0, ctx := 0, svc := 0, src := .core 0 }

/-- A service with a quota of two operand slots on each die. -/
def quotaOfTwo : Service :=
  { num := 0, deadline := false, home := 0, maxCtx := 0, quota0 := 2, quota1 := 2, tmpls := [], jobs := [], descs := [], tableLen := 0,
    chains := [], code := [], handles := [], charges := [], held := [] }

/-- The Caller of die 0: template 0 is VALID with one input, the token is held at its core, and a flow position holds one like it. -/
def heldAtCore : CallerSt :=
  { tmpls := [(0, [1, 0, 0, 0, 0, 0, 0, 0, 1])], held := [emittedToken],
    flows := [(0, { window := [{ pos := 0, ctx := 0, tokens := [emittedToken] }] })] }

/-- The reset state with the Caller of die 1 before that of die 0 in the table, which no write leaves so; X1 of core 0 is the register of the
emit that the held token blocks. -/
def callersOutOfOrder : State :=
  { State.reset with call := [(1, {}), (0, heldAtCore)], adm := { services := [(0, quotaOfTwo)] },
                     cores := [(0, { x := [(1, 5)], emitDst := some 1 })] }

/-- The state in which the token has left its source to be offered. -/
def heldTokenOffered : State :=
  (callersOutOfOrder.mapCaller 0 (fun c => { c with held := c.held.erase emittedToken })).mapCaller 0 (fun c => { c with held := [] })

/-- In the table as it stands the token finds a slot, since its service holds one of its two. -/
theorem acceptableHeld_callersOutOfOrder : acceptableHeld callersOutOfOrder 0 = some emittedToken := by decide +kernel

/-- Taken off its source, the token leaves a new entry of die 0 before the old one; with both flows counted the service holds two slots, and the
token is held again: the register of its emit stays as it was. -/
theorem acceptHeld_callersOutOfOrder : ((acceptHeld callersOutOfOrder 0).core 0).xr 1 = 5 := by decide +kernel

/-- Refutes O38: HELD_TOKEN_ACCEPTED takes the token off its source before it offers it, and a table of Callers out of order, which the statement
allows, then holds the flows of the die twice. The token that had a slot is held again, and its emit does not write 0 to X[DST]. -/
theorem not_callersMatchTokensIntoTasks : ¬ Obligations.CallersMatchTokensIntoTasks := by
  rintro ⟨-, hheld, -⟩
  obtain ⟨-, htakes⟩ := hheld callersOutOfOrder 0
  obtain ⟨-, hemit⟩ := htakes emittedToken (deliver heldTokenOffered emittedToken) acceptableHeld_callersOutOfOrder rfl rfl
  have htaken := Host.Outcome.next.inj (hemit 0 1 rfl (by decide +kernel))
  have hx : ((acceptHeld callersOutOfOrder 0).core 0).xr 1 = 0 := by
    rw [show acceptHeld callersOutOfOrder 0 = _ from htaken]
    decide +kernel
  rw [acceptHeld_callersOutOfOrder] at hx
  exact absurd hx (by decide)

end Sys2Proof.Machine
end

section
/-! PROOF. The ingress ring of a context: where a message is placed, and what placing it changes (R434, R435). -/

namespace Sys2Proof.Machine

theorem placeAt_here {size max pos : Nat} (h : max ≤ size - pos % size) : placeAt size max pos = pos := if_neg (not_lt.mpr h)

/-- A message that would wrap starts at the next multiple of the ring's size (R434). -/
theorem placeAt_next {size max pos : Nat} (h : size - pos % size < max) : placeAt size max pos = (pos / size + 1) * size := if_pos h

theorem placeAt_bounds {size : Nat} (hsize : 0 < size) (max pos : Nat) :
    pos ≤ placeAt size max pos ∧ placeAt size max pos < pos + size + 1 := by
  by_cases h : size - pos % size < max
  · have hsplit := Nat.div_add_mod' pos size
    have hlt := Nat.mod_lt pos hsize
    rw [placeAt_next h, Nat.add_one_mul]
    omega
  · rw [placeAt_here (not_lt.mp h)]
    omega

/-- A message that a ring can hold lies in it without wrapping. -/
theorem placeAt_whole {size max : Nat} (hsize : 0 < size) (hmax : max ≤ size) (pos : Nat) : placeAt size max pos % size + max ≤ size := by
  by_cases h : size - pos % size < max
  · rw [placeAt_next h, Nat.mul_mod_left]
    omega
  · have hlt := Nat.mod_lt pos hsize
    rw [placeAt_here (not_lt.mp h)]
    omega

theorem length_dropFirst {α : Type} {p : α → Bool} {l : List α} (h : ∃ x ∈ l, p x = true) : (dropFirst p l).length + 1 = l.length := by
  induction l with
  | nil => simp at h
  | cons x l ih =>
    rw [dropFirst]
    split
    · rfl
    · rename_i hx
      rw [List.length_cons, List.length_cons, ih (by simpa [hx] using h)]

theorem ingress_setIngress (s : State) (cn c : Nat) (g : Ingress) : ingress (setIngress s cn g) c = if c = cn then g else ingress s c :=
  smGet_smPut ..

/-- The ring once a message of source `n` has taken its credit and its place. -/
def Ingress.placed (g : Ingress) (n size max len msg : Nat) : Ingress :=
  { g with tail := placeAt size max g.tail + lines64 len, recs := g.recs ++ [⟨n, placeAt size max g.tail, len, false, msg⟩],
           resv := dropFirst (fun e => e.1 == n) g.resv }

theorem placeMessage_eq {s : State} {cn size base : Nat} (h : inRegion s cn = some (size, base)) (n msg max : Nat) (data : List Byte) (p : Bool) :
    placeMessage s cn n msg max data p = (placeAt size max (ingress s cn).tail % size,
      (setIngress s cn ((ingress s cn).placed n size max data.length msg)).dwrite (base + placeAt size max (ingress s cn).tail % size) data p) := by
  rw [placeMessage, h]
  rfl

theorem creditsOf_eq_zero {g : Ingress} {n : Nat} : g.creditsOf n = 0 ↔ ∀ e ∈ g.resv, e.1 ≠ n := by
  simp [Ingress.creditsOf]

/-- Credits of one source are void (R437). -/
def Ingress.without (g : Ingress) (n : Nat) : Ingress := { g with resv := g.resv.filter (fun e => e.1 ≠ n) }

theorem ne_of_mem_without {g : Ingress} {n : Nat} {e : Nat × Nat} (h : e ∈ (g.without n).resv) : e.1 ≠ n := by
  simpa using (List.mem_filter.mp h).2

end Sys2Proof.Machine
end

section
/-! PROOF. SESS_BIND and SESS_UNBIND, and a session that enters ERROR (R433, R437). -/

namespace Sys2Proof.Machine

theorem bSession_valid : bSession.valid = true := by decide

/-! ### Binding -/

section
variable {s : State} {c : Cmd}

theorem exec_sessBind_refused {e : Nat} (h : sessBindCheck s c = .error e) : exec (.sessBind c) s = .next (refuse s c e) := by
  show execSessBind c s = _
  rw [execSessBind, h]

theorem exec_sessBind_binds {x : Ctx} {f : Nat} (h : sessBindCheck s c = .ok (x, f)) : exec (.sessBind c) s =
    .next (creditsFor (finish (setSess (giveFlow s x.home f) (c.p 0x10 2)
      { sessOf c x.cn with tmpl := c.p 0x14 2 % 16384, die := c.p 0x14 2 / 32768, port := c.p 0x16 1, classId := c.p 0x38 2, flow := some f })
        c Code.OK) x.cn) := by
  show execSessBind c s = _
  rw [execSessBind, h]

theorem sessBindCheck_taken (h : 16384 ≤ c.p 0x10 2 ∨ (smFind (c.p 0x10 2) s.host.sess).isSome = true) :
    sessBindCheck s c = .error Code.SESS_RANGE := by
  have ht : sessTaken s c = true := by simpa [sessTaken] using h
  rw [sessBindCheck, if_pos ht]

theorem freeFlowNo_lt {s : State} {die f : Nat} (h : freeFlowNo s die = some f) : f < 8192 := by
  unfold freeFlowNo at h
  dsimp only at h
  split at h
  · rename_i hlt
    rwa [← Option.some.inj h]
  · cases h

theorem sessRange_false (h : sessRange c = false) : 3 ≤ c.p 0x1B 1 ∧ c.p 0x1B 1 ≤ 5 ∧ 64 ≤ c.p 0x30 4 ∧ c.p 0x30 4 ≤ 16777216 := by
  simp [sessRange] at h
  omega

/-- What the checks of SESS_BIND establish. -/
theorem checked_of_sessBindCheck {x : Ctx} {f : Nat} (h : sessBindCheck s c = .ok (x, f)) :
    s.ctx? (c.p 0x12 2) = some x ∧ (inRegion s x.cn).isSome = true ∧ f < 8192 ∧ sessRange c = false := by
  unfold sessBindCheck at h
  split at h
  · cases h
  split at h
  · cases h
  rename_i y hctx
  split at h
  · cases h
  rename_i hregion
  split at h
  · cases h
  split at h
  · cases h
  rename_i hrange
  split at h
  · cases h
  rename_i g hflow
  obtain ⟨rfl, rfl⟩ := Prod.mk.inj (Except.ok.inj h)
  exact ⟨hctx, by simpa [Option.isSome_iff_ne_none] using hregion, freeFlowNo_lt hflow, by simpa using fun hr => hrange (.inr hr)⟩

end

/-! ### Unbinding -/

section
variable {s : State} {c : Cmd}

theorem exec_sessUnbind_absent (h : smFind (c.p 0x10 2) s.host.sess = none) : exec (.sessUnbind c) s = .next (refuse s c Code.SESS_RANGE) := by
  show execSessUnbind c s = _
  simp only [execSessUnbind, h]

/-- A record of the session is not passed, or a message of it is being forwarded (R437). -/
def sessBusy (s : State) (cn n : Nat) : Prop := (∃ r ∈ (ingress s cn).recs, r.src = n) ∨ ∃ m ∈ s.fab.msgs, m.why = .session n

theorem sessBusy_iff (s : State) (cn n : Nat) :
    (notPassed s cn (fun k => k == n) || s.fab.msgs.any (fun m => m.why == .session n)) = true ↔ sessBusy s cn n := by
  simp [notPassed, sessBusy]

variable {x : Sess} (hx : smFind (c.p 0x10 2) s.host.sess = some x)
include hx

theorem exec_sessUnbind_busy (h : sessBusy s x.cn (c.p 0x10 2)) : exec (.sessUnbind c) s = .next (refuse s c Code.SESS_BUSY) := by
  show execSessUnbind c s = _
  simp only [execSessUnbind, hx, sessBusy_iff, h, if_true]

theorem exec_sessUnbind_free (h : ¬ sessBusy s x.cn (c.p 0x10 2)) :
    exec (.sessUnbind c) s = .next (creditsFor (finish (unbindSess s (c.p 0x10 2)) c Code.OK) x.cn) := by
  show execSessUnbind c s = _
  simp only [execSessUnbind, hx, sessBusy_iff, h, if_false]

end

/-- A session's queue pair and its credits are gone. -/
def sessGone (s : State) (n : Nat) (x : Sess) : State :=
  setIngress { s with host := { s.host with sess := smErase n s.host.sess } } x.cn ((ingress s x.cn).without n)

theorem unbindSess_eq {s : State} {n : Nat} {x : Sess} (hx : smFind n s.host.sess = some x) :
    unbindSess s n = freeFlow (sessGone s n x) (((sessGone s n x).ctx? x.cn).map (fun c => c.home) |>.getD 0) x.flow := by
  simp only [unbindSess, hx]
  rfl

/-- A flow that is free again changes its Caller alone (R437). -/
theorem freeFlow_only (s : State) (die : Nat) (f : Option Nat) : freeFlow s die f = { s with call := (freeFlow s die f).call } := by
  cases f <;> rfl

/-- What an unbinding leaves (R437). -/
theorem unbindSess_facts {s : State} {n : Nat} {x : Sess} (hx : smFind n s.host.sess = some x) :
    let u := unbindSess s n
    smFind n u.host.sess = none ∧ (∀ k, k ≠ n → smFind k u.host.sess = smFind k s.host.sess) ∧ (∀ e ∈ (ingress u x.cn).resv, e.1 ≠ n) ∧
      u = { s with host := { s.host with sess := u.host.sess, ing := u.host.ing }, call := u.call } := by
  intro u
  have hu : u = { sessGone s n x with call := u.call } := by
    rw [show u = _ from unbindSess_eq hx]
    exact freeFlow_only ..
  have hsess : u.host.sess = smErase n s.host.sess := by rw [hu]; rfl
  have hing : ingress u x.cn = (ingress s x.cn).without n := by
    rw [hu]
    exact (ingress_setIngress ..).trans (if_pos rfl)
  refine ⟨by rw [hsess, smFind_smErase_self], fun k hk => by rw [hsess, smFind_smErase_ne _ hk], fun e he => ?_, ?_⟩
  · rw [hing] at he
    exact ne_of_mem_without he
  · rw [hu]
    rfl

/-! ### ERROR -/

theorem sessError_again {s : State} {n : Nat} {x : Sess} (hx : smFind n s.host.sess = some x) (h : x.st = 2) (code : Nat) : sessError s n code = s := by
  simp only [sessError, hx, h, if_true]

/-- The registers of a session's error: its event and the record that R437 names. -/
def sessErrorIo (s : State) (n : Nat) (x : Sess) (code : Nat) : Io :=
  s.io.riseNamed bSession 2 Cls.LINK Code.SESSION_ERROR ((s.ctx? x.cn).bind (fun c => c.slot)) 0 (n * 65536 + code)

theorem sessError_enters {s : State} {n : Nat} {x : Sess} (hx : smFind n s.host.sess = some x) (h : x.st ≠ 2) (code : Nat) :
    sessError s n code = { s with
      io := sessErrorIo s n x code,
      host := { s.host with sess := smInsert n { x with st := 2, unacked := [] } s.host.sess,
                            ing := smPut {} x.cn ((ingress s x.cn).without n) s.host.ing } } := by
  simp only [sessError, hx, h, if_false]
  rfl

theorem sessErrorIo_facts (s : State) (n : Nat) (x : Sess) (code : Nat) : Io.OnlyEvents [bSession] s.io (sessErrorIo s n x code) ∧
    bitOf ((sessErrorIo s n x code).br bSession 0x010) 2 = true :=
  ⟨Io.onlyEvents_riseNamed _ bSession_valid .., Io.bit_riseWith _ bSession_valid (by decide) (by decide) _⟩

end Sys2Proof.Machine
end

section
/-! PROOF. A message that arrives on a session: refused, without a credit, placed for its context, or forwarded (R434, R435, R466). -/

namespace Sys2Proof.Machine

theorem exec_sendMessage_absent {s : State} {n : Nat} (h : smFind n s.host.sess = none) (m : Option (List Byte)) :
    exec (.sendMessage n m) s = .next s := by
  show execSendMessage n m s = _
  rw [execSendMessage, h]

section
variable {s : State} {n : Nat} {x : Sess} (hx : smFind n s.host.sess = some x)
include hx

theorem exec_sendMessage_closed (h : x.st ≠ 1) (m : Option (List Byte)) : exec (.sendMessage n m) s = .next s := by
  show execSendMessage n m s = _
  simp only [execSendMessage, hx]
  exact if_pos h

theorem exec_sendMessage_other (h : x.st = 1) : exec (.sendMessage n none) s =
    .next ((sessError { s with io := { s.io with free := s.io.free + 1 } } n ((Config.freeValue s.io.free).toNat % 65536)).mapIo
      (fun io => io.send ⟨"ROCE_NAK", n, 0, []⟩)) := by
  show execSendMessage n none s = _
  simp only [execSendMessage, hx]
  exact if_neg (not_not.mpr h)

theorem exec_sendMessage_send (h : x.st = 1) (data : List Byte) : exec (.sendMessage n (some data)) s = .next (sendIn s n x data) := by
  show execSendMessage n (some data) s = _
  simp only [execSendMessage, hx]
  exact if_neg (not_not.mpr h)

end

section
variable {s : State} {n : Nat} {x : Sess} {data : List Byte}

/-! ### For the session's own context -/

section
variable (hfwd : x.fwd = none)
include hfwd

theorem sendIn_oversize (h : x.maxMsg < data.length) : sendIn s n x data = oversize s n := by
  simp only [sendIn, hfwd, h, if_true]

theorem sendIn_noCredit (h : data.length ≤ x.maxMsg) (hc : ∀ e ∈ (ingress s x.cn).resv, e.1 ≠ n) : sendIn s n x data = rnrNak s n := by
  simp only [sendIn, hfwd, not_lt.mpr h, creditsOf_eq_zero.mpr hc, if_false, if_true]

theorem sendIn_placed (h : data.length ≤ x.maxMsg) (hc : ∃ e ∈ (ingress s x.cn).resv, e.1 = n) : sendIn s n x data = messageIn s n x data := by
  have hcredit : ¬ (ingress s x.cn).creditsOf n = 0 := by
    rw [creditsOf_eq_zero]
    push Not
    exact hc
  simp only [sendIn, hfwd, not_lt.mpr h, hcredit, if_false]

end

/-- The state in which a message stands in its context's ring. -/
def messagePlaced (s : State) (n : Nat) (x : Sess) (data : List Byte) (size base : Nat) : State :=
  (setIngress (sessGot s n x data.length) x.cn ((ingress s x.cn).placed n size x.maxMsg data.length (x.msgs % 2 ^ 32))).dwrite
    (base + placeAt size x.maxMsg (ingress s x.cn).tail % size) data false

/-- The token of a message at offset `off` of its ring, for a session without a job class (R434). -/
def messageToken (s : State) (n : Nat) (x : Sess) (len off : Nat) : Token :=
  { die := x.die, tmpl := x.tmpl, port := x.port, key := n * 2 ^ 32 + x.msgs % 2 ^ 32, val := len * 2 ^ 32 + off, ctx := x.cn,
    svc := ((s.ctx? x.cn).map (fun c => c.svc)).getD 0, flow := x.flow, rel := s.io.tb, cls := none, src := .session n,
    arr := some (x.cn, n, x.msgs % 2 ^ 32) }

theorem messageIn_arrives {size base : Nat} (hr : inRegion s x.cn = some (size, base)) (hc : x.classId = 0xFFFF) :
    messageIn s n x data = arrive (messagePlaced s n x data size base)
      (messageToken s n x data.length (placeAt size x.maxMsg (ingress s x.cn).tail % size)) := by
  have hplace := placeMessage_eq (s := sessGot s n x data.length) hr n (x.msgs % 2 ^ 32) x.maxMsg data false
  simp only [messageIn, hplace, hc, if_true]
  rfl

theorem messagePlaced_facts (hc : ∃ e ∈ (ingress s x.cn).resv, e.1 = n) (size base : Nat) :
    let u := messagePlaced s n x data size base
    let at_ := placeAt size x.maxMsg (ingress s x.cn).tail
    (ingress u x.cn).tail = at_ + lines64 data.length ∧
    (ingress u x.cn).recs = (ingress s x.cn).recs ++ [⟨n, at_, data.length, false, x.msgs % 2 ^ 32⟩] ∧
    (ingress u x.cn).resv.length + 1 = (ingress s x.cn).resv.length ∧ ∀ c, c ≠ x.cn → ingress u c = ingress s c := by
  intro u at_
  have hing : ∀ c, ingress u c = if c = x.cn then (ingress s x.cn).placed n size x.maxMsg data.length (x.msgs % 2 ^ 32) else ingress s c :=
    fun c => ingress_setIngress (sessGot s n x data.length) x.cn c _
  rw [hing x.cn, if_pos rfl]
  exact ⟨rfl, rfl, length_dropFirst (by simpa using hc), fun c hne => (hing c).trans (if_neg hne)⟩

/-! ### Forwarded -/

/-- The limit of a forwarded message: the session's, or the inbox's where that is known and smaller (R466). -/
def fwdLimit (s : State) (x : Sess) (dst inbox : Nat) : Nat := min x.maxMsg ((smFind (dst * 65536 + inbox) s.fab.maxMsgs).getD x.maxMsg)

section
variable {dst inbox : Nat} (hfwd : x.fwd = some (dst, inbox))
include hfwd

theorem sendIn_fwd_oversize (h : fwdLimit s x dst inbox < data.length) : sendIn s n x data = oversize s n := by
  unfold fwdLimit at h
  simp only [sendIn, hfwd, h, if_true]

theorem sendIn_fwd_noCredit (h : data.length ≤ fwdLimit s x dst inbox) (hc : x.credits = 0) : sendIn s n x data = rnrNak s n := by
  unfold fwdLimit at h
  simp only [sendIn, hfwd, not_lt.mpr h, hc, if_false, if_true]

theorem sendIn_fwd_queued (h : data.length ≤ fwdLimit s x dst inbox) (hc : x.credits ≠ 0) : sendIn s n x data = messageFwd s n x dst inbox data := by
  unfold fwdLimit at h
  simp only [sendIn, hfwd, not_lt.mpr h, hc, if_false]

end

end

end Sys2Proof.Machine
end

section
/-! PROOF. Acknowledgements, retries, congestion notices and the send rate of a session (R432, R437, R438). -/

namespace Sys2Proof.Machine

/-- A packet of a session is sent again. -/
def resent (n : Nat) (x : Sess) (e : Nat × List Byte) : Tx :=
  ⟨"ROCE_SEND", n, (e.1 + 2 ^ 24 + 1 - max 1 (cdiv e.2.length x.mtuBytes)) % 2 ^ 24, e.2⟩

theorem sends_foldl (f : Nat × List Byte → Tx) (l : List (Nat × List Byte)) (s : State) :
    l.foldl (fun s e => s.mapIo (fun io => io.send (f e))) s = { s with io := { s.io with tx := s.io.tx ++ l.map f } } := by
  induction l generalizing s with
  | nil => simp
  | cons e l ih =>
    rw [List.foldl_cons, ih, List.map_cons, ← List.singleton_append, ← List.append_assoc]
    rfl

theorem sessResend_eq (s : State) (n : Nat) (x : Sess) :
    sessResend s n x = { s with io := { s.io with tx := s.io.tx ++ x.unacked.map (resent n x) } } := sends_foldl (resent n x) x.unacked s

section
variable {s : State} {n : Nat} (h : smFind n s.host.sess = none)
include h

theorem exec_ecnCeReceived_absent : exec (.ecnCeReceived n) s = .next s := by
  show execEcnCeReceived n s = _
  rw [execEcnCeReceived, h]

theorem exec_cnpReceived_absent : exec (.cnpReceived n) s = .next s := by
  show execCnpReceived n s = _
  rw [execCnpReceived, h]

theorem exec_rateIncrease_absent : exec (.rateIncrease n) s = .next s := by
  show execRateIncrease n s = _
  rw [execRateIncrease, h]

theorem exec_localAckTimeout_absent : exec (.localAckTimeout n) s = .next s := by
  show execLocalAckTimeout n s = _
  rw [execLocalAckTimeout, h]

theorem exec_roceAck_absent (psn : Nat) (k : AckKind) : exec (.roceAck n psn k) s = .next s := by
  show execRoceAck n psn k s = _
  rw [execRoceAck, h]

end

section
variable {s : State} {n : Nat} {x : Sess} (hx : smFind n s.host.sess = some x)
include hx

/-! ### Congestion -/

theorem exec_ecnCeReceived_soon (h : ∃ t, x.lastCnpTx = some t ∧ s.io.tb < t + 5000) : exec (.ecnCeReceived n) s = .next s := by
  obtain ⟨t, ht, hlt⟩ := h
  show execEcnCeReceived n s = _
  simp [execEcnCeReceived, hx, ht, hlt]

theorem exec_ecnCeReceived_sends (h : ∀ t, x.lastCnpTx = some t → t + 5000 ≤ s.io.tb) :
    exec (.ecnCeReceived n) s = .next ((setSess s n { x with lastCnpTx := some s.io.tb }).mapIo (fun io => io.send ⟨"CNP", n, 0, []⟩)) := by
  have hdue : x.lastCnpTx.any (fun t => decide (s.io.tb < t + 5000)) = false := by
    simpa [Option.any_eq_false] using h
  show execEcnCeReceived n s = _
  simp only [execEcnCeReceived, hx, hdue]
  rfl

theorem exec_cnpReceived_halves :
    exec (.cnpReceived n) s = .next (setSess s n { x with rate := max 1 (x.rate / 2), lastCnpRx := some s.io.tb }) := by
  show execCnpReceived n s = _
  rw [execCnpReceived, hx]

theorem exec_rateIncrease_not (h : 1048576 ≤ x.rate ∨ ∀ t, x.lastCnpRx = some t → s.io.tb < t + 5500) : exec (.rateIncrease n) s = .next s := by
  have hnot : ¬ (x.rate < 1048576 ∧ x.lastCnpRx.any (fun t => decide (t + 5500 ≤ s.io.tb)) = true) := by
    rintro ⟨hrate, hdue⟩
    obtain ⟨t, ht, hle⟩ : ∃ t, x.lastCnpRx = some t ∧ t + 5500 ≤ s.io.tb := by simpa [Option.any_eq_true] using hdue
    exact h.elim (fun h => by omega) (fun h => by have := h t ht; omega)
  show execRateIncrease n s = _
  simp only [execRateIncrease, hx, if_neg hnot]

theorem exec_rateIncrease_grows (hrate : x.rate < 1048576) (h : ∃ t, x.lastCnpRx = some t ∧ t + 5500 ≤ s.io.tb) :
    exec (.rateIncrease n) s = .next (setSess s n { x with rate := min 1048576 (x.rate + 65536), lastCnpRx := some s.io.tb }) := by
  have hdue : x.rate < 1048576 ∧ x.lastCnpRx.any (fun t => decide (t + 5500 ≤ s.io.tb)) = true := ⟨hrate, by simpa [Option.any_eq_true] using h⟩
  show execRateIncrease n s = _
  simp only [execRateIncrease, hx, if_pos hdue]

/-! ### Answers and timeouts -/

theorem exec_roceAck_closed (h : x.st ≠ 1) (psn : Nat) (k : AckKind) : exec (.roceAck n psn k) s = .next s := by
  show execRoceAck n psn k s = _
  simp only [execRoceAck, hx]
  exact if_pos h

theorem exec_localAckTimeout_idle (h : x.st ≠ 1 ∨ x.unacked = []) : exec (.localAckTimeout n) s = .next s := by
  show execLocalAckTimeout n s = _
  simp only [execLocalAckTimeout, hx, if_pos h]

section
variable (h : x.st = 1)
include h

theorem exec_roceAck_ack (psn : Nat) : exec (.roceAck n psn .ack) s = .next (setSess s n { x with
    unacked := x.unacked.filter (fun e => decide (2 ^ 23 ≤ (psn + 2 ^ 24 - e.1) % 2 ^ 24)), retries := 0, rnrHeld := false }) := by
  show execRoceAck n psn .ack s = _
  simp only [execRoceAck, hx]
  exact if_neg (not_not.mpr h)

theorem exec_roceAck_rnr (psn : Nat) : exec (.roceAck n psn .rnr) s = .next (setSess s n { x with rnrHeld := true }) := by
  show execRoceAck n psn .rnr s = _
  simp only [execRoceAck, hx]
  exact if_neg (not_not.mpr h)

theorem exec_roceAck_retry (psn : Nat) : exec (.roceAck n psn (.nak 0)) s = .next (sessRetry s n x) := by
  show execRoceAck n psn (.nak 0) s = _
  simp only [execRoceAck, hx]
  exact if_neg (not_not.mpr h)

theorem exec_roceAck_refused (psn : Nat) {d : Nat} (hd : d ≠ 0) : exec (.roceAck n psn (.nak d)) s =
    .next (sessError { s with io := { s.io with free := s.io.free + 1 } } n ((Config.freeValue s.io.free).toNat % 65536)) := by
  obtain ⟨d, rfl⟩ := Nat.exists_eq_succ_of_ne_zero hd
  show execRoceAck n psn (.nak (d + 1)) s = _
  simp only [execRoceAck, hx]
  exact if_neg (not_not.mpr h)

variable (hu : x.unacked ≠ [])
include hu

theorem exec_localAckTimeout_ready (hr : x.rnrHeld = true) :
    exec (.localAckTimeout n) s = .next (sessResend (setSess s n { x with rnrHeld := false }) n x) := by
  show execLocalAckTimeout n s = _
  simp [execLocalAckTimeout, hx, h, hu, hr]

theorem exec_localAckTimeout_retry (hr : x.rnrHeld = false) : exec (.localAckTimeout n) s = .next (sessRetry s n x) := by
  show execLocalAckTimeout n s = _
  simp [execLocalAckTimeout, hx, h, hu, hr]

end

end

end Sys2Proof.Machine
end

section
/-! PROOF. Link changes, PTP messages and snapshots of the clocks, and the sessions settled (R431 to R440, R466). -/

namespace Sys2Proof.Machine

theorem bEth_valid {p : Nat} (hp : p < 2) : (bEth p).valid = true := decide_eq_true hp

theorem bTime_valid : bTime.valid = true := by decide

/-! ### Ethernet links -/

/-- The ports whose link is up, once that of `port` has changed (R440). -/
def linksAfter (l : List Nat) (port : Nat) (up : Bool) : List Nat :=
  if up then port :: l.filter (fun p => p ≠ port) else l.filter (fun p => p ≠ port)

theorem mem_linksAfter_self (l : List Nat) (port : Nat) (up : Bool) : (linksAfter l port up).contains port = up := by
  cases up <;> simp [linksAfter]

theorem mem_linksAfter_ne (l : List Nat) {port p : Nat} (up : Bool) (h : p ≠ port) : p ∈ linksAfter l port up ↔ p ∈ l := by
  cases up <;> simp [linksAfter, h]

section
variable {s : State} {port : Nat} {up : Bool}

theorem exec_ethLinkChange_same (h : s.host.ethUp.contains port = up) : exec (.ethLinkChange port up) s = .next s := by
  show execEthLinkChange port up s = _
  rw [execEthLinkChange, if_pos (.inr h)]

theorem exec_ethLinkChange_changes (hp : port < 2) (h : s.host.ethUp.contains port ≠ up) : exec (.ethLinkChange port up) s =
    .next { s with io := s.io.rise (bEth port) 2, host := { s.host with ethUp := linksAfter s.host.ethUp port up } } := by
  show execEthLinkChange port up s = _
  rw [execEthLinkChange, if_neg (not_or.mpr ⟨not_le.mpr hp, h⟩)]
  rfl

theorem exec_nonRoceFrame_counts (hp : port < 2) : exec (.nonRoceFrame port) s = .next { s with io := s.io.count (bEth port) Off.eth_DROPPED 1 } :=
  if_neg (not_le.mpr hp)

end

/-! ### Precision time -/

/-- PTP and its servo are enabled (R439). -/
def ptpServo (io : Io) : Prop := io.bf bTime Off.time_PTP_CTRL 0 0 = 1 ∧ io.bf bTime Off.time_PTP_CTRL 1 1 = 1

theorem ptpServo_iff (io : Io) : ¬ (io.bf bTime Off.time_PTP_CTRL 0 0 = 0 ∨ io.bf bTime Off.time_PTP_CTRL 1 1 = 0) ↔ ptpServo io := by
  have hbit : ∀ i, io.bf bTime Off.time_PTP_CTRL i i < 2 := fun i => by
    rw [Io.bf, Io.fld, bitsOf, Nat.add_sub_cancel_left, pow_one]
    exact Nat.mod_lt _ (by decide)
  have h0 := hbit 0
  have h1 := hbit 1
  unfold ptpServo
  omega

theorem exec_ptpMessage_ignored {s : State} (h : ¬ ptpServo s.io) (sec ns : Nat) (locked : Bool) (ppb : W32) :
    exec (.ptpMessage sec ns locked ppb) s = .next s := by
  show execPtpMessage sec ns locked ppb s = _
  rw [execPtpMessage, if_pos (not_not.mp (mt (ptpServo_iff s.io).mp h))]

theorem exec_ptpMessage_sets {s : State} (h : ptpServo s.io) (sec ns : Nat) (locked : Bool) (ppb : W32) :
    exec (.ptpMessage sec ns locked ppb) s = .next { s with
      io := if s.host.ptpLocked = locked then s.io.setReg (bTime.base + Off.time_PTP_ADJ) ppb.toNat
        else (s.io.setReg (bTime.base + Off.time_PTP_ADJ) ppb.toNat).rise bTime 2,
      host := { s.host with ptpSec := sec % 2 ^ 48, ptpNs := ns % 1000000000, ptpFrac := 0, ptpLocked := locked } } := by
  show execPtpMessage sec ns locked ppb s = _
  rw [execPtpMessage, if_neg ((ptpServo_iff s.io).mpr h)]
  dsimp only
  split <;> rfl

/-- The registers of a snapshot (R439). -/
def snapIo (sec ns : Nat) (io : Io) : Io :=
  ((io.setReg64 (bTime.base + Off.time_PTP_SEC_LO) sec).setReg (bTime.base + Off.time_PTP_NS) ns).setReg64 (bTime.base + Off.time_TB_SNAP_LO) io.tb

theorem onlyRegs_snapIo (sec ns : Nat) (io : Io) : Io.OnlyRegs [bTime] io (snapIo sec ns io) :=
  ((Io.onlyRegs_setReg64 io bTime_valid (by decide) sec).trans (Io.onlyRegs_setReg _ bTime_valid (by decide) ns)).trans
    (Io.onlyRegs_setReg64 _ bTime_valid (by decide) io.tb)

/-- Two registers of TIME's page past its header are two registers. -/
theorem normOff_time_ne {o p : Nat} (ho : o < 0x1000) (hp : p < 0x1000) (h : o ≠ p) : normOff (bTime.base + o) ≠ normOff (bTime.base + p) :=
  normOff_ne_of_mod (by rwa [base_add_mod _ ho, base_add_mod _ hp])

theorem reg_setReg64_time (io : Io) {o p : Nat} (v : Nat) (ho : o < 0x1000) (hp : p + 4 < 0x1000) (h : o ≠ p) (h4 : o ≠ p + 4) :
    (io.setReg64 (bTime.base + p) v).reg (bTime.base + o) = io.reg (bTime.base + o) :=
  (Io.reg_setReg_of_ne _ _ (normOff_time_ne (p := p + 4) ho hp h4)).trans (Io.reg_setReg_of_ne _ _ (normOff_time_ne ho (by omega) h))

theorem snapIo_time (sec ns : Nat) (io : Io) (h : io.tb < 2 ^ 64) : (snapIo sec ns io).reg64 (bTime.base + Off.time_TB_SNAP_LO) = io.tb :=
  (Io.reg64_setReg64 _ (normOff_time_ne (p := 0x5c) (by decide) (by decide) (by decide))).trans (Nat.mod_eq_of_lt h)

theorem snapIo_ns (sec : Nat) {ns : Nat} (io : Io) (h : ns < 2 ^ 32) : (snapIo sec ns io).br bTime Off.time_PTP_NS = ns :=
  (reg_setReg64_time _ _ (by decide) (by decide) (by decide) (by decide)).trans ((Io.reg_setReg_self ..).trans (Nat.mod_eq_of_lt h))

theorem snapIo_sec {sec : Nat} (ns : Nat) (io : Io) (h : sec < 2 ^ 64) : (snapIo sec ns io).reg64 (bTime.base + Off.time_PTP_SEC_LO) = sec := by
  have keep : ∀ o, o = Off.time_PTP_SEC_LO ∨ o = Off.time_PTP_SEC_LO + 4 →
      (snapIo sec ns io).reg (bTime.base + o) = (io.setReg64 (bTime.base + Off.time_PTP_SEC_LO) sec).reg (bTime.base + o) := by
    rintro o (rfl | rfl) <;>
      exact (reg_setReg64_time _ _ (by decide) (by decide) (by decide) (by decide)).trans
        (Io.reg_setReg_of_ne _ _ (normOff_time_ne (by decide) (by decide) (by decide)))
  rw [Io.reg64_congr (keep _ (.inl rfl)) (keep _ (.inr rfl)),
    Io.reg64_setReg64 _ (normOff_time_ne (p := 0x4c) (by decide) (by decide) (by decide)), Nat.mod_eq_of_lt h]

section
variable {s : State} {who : Requester}

theorem exec_snap_refused {io : Io} (h : writeAllowed s.io who bTime (bTime.base + Off.time_SNAP) = some io) :
    exec (.snap who) s = .next { s with io := io } := by
  show execSnap who s = _
  rw [execSnap, h]

theorem exec_snap_captures (h : writeAllowed s.io who bTime (bTime.base + Off.time_SNAP) = none) :
    exec (.snap who) s = .next { s with io := snapIo s.host.ptpSec s.host.ptpNs s.io } := by
  show execSnap who s = _
  rw [execSnap, h]
  rfl

end

/-- Settles O45: each row by the session it names and the state of that session; a message by its limit and its credit. -/
theorem sessionsPlaceMessagesOnTheirCredits : Obligations.SessionsPlaceMessagesOnTheirCredits := by
  refine ⟨fun size max pos hsize => ?_, fun s c => ?_, fun s c => ?_, fun s n x hx => ?_, fun s n data => ?_, fun s n => ?_,
    fun s n x => ?_, fun s port up hp => ?_, fun s sec ns locked ppb => ?_, fun s who => ?_⟩
  · exact ⟨(placeAt_bounds hsize max pos).1, (placeAt_bounds hsize max pos).2, fun hmax => placeAt_whole hsize hmax pos, placeAt_here⟩
  · refine ⟨fun e => exec_sessBind_refused, sessBindCheck_taken, fun x f h => ?_⟩
    obtain ⟨hctx, hregion, hflow, hrange⟩ := checked_of_sessBindCheck h
    obtain ⟨hmtu, hmtu', hmax, hmax'⟩ := sessRange_false hrange
    exact ⟨hctx, hregion, hflow, hmtu, hmtu', hmax, hmax', exec_sessBind_binds h⟩
  · exact ⟨exec_sessUnbind_absent, fun x hx => ⟨exec_sessUnbind_busy hx, fun h => ⟨_, exec_sessUnbind_free hx h, unbindSess_facts hx⟩⟩⟩
  · exact ⟨sessError_again hx, fun h code => ⟨_, _, (sessErrorIo_facts s n x code).1, (sessErrorIo_facts s n x code).2, sessError_enters hx h code⟩⟩
  · refine ⟨exec_sendMessage_absent, fun x hx => ⟨exec_sendMessage_closed hx, fun h => ⟨_, exec_sendMessage_other hx h⟩, fun h => ?_⟩⟩
    intro nak rnr pk ack got
    rw [exec_sendMessage_send hx h]
    refine ⟨fun hfwd => ⟨fun hlen => ?_, fun hlen hc => ?_, fun hlen hc hcls size base hr => ?_⟩,
      fun dst inbox hfwd => ⟨fun hlen => ?_, fun hlen hc => ?_, fun hlen hc => ?_⟩⟩
    · rw [sendIn_oversize hfwd hlen]; rfl
    · rw [sendIn_noCredit hfwd hlen hc]; rfl
    · obtain ⟨htail, hrecs, hresv, hother⟩ := messagePlaced_facts (data := data) hc size base
      exact ⟨messagePlaced s n x data size base, _, by rw [sendIn_placed hfwd hlen hc, messageIn_arrives hr hcls], rfl, rfl, rfl, rfl, rfl, rfl, rfl,
        rfl, rfl, rfl, htail, hrecs, hresv, hother⟩
    · rw [sendIn_fwd_oversize hfwd hlen]; rfl
    · rw [sendIn_fwd_noCredit hfwd hlen hc]; rfl
    · rw [sendIn_fwd_queued hfwd hlen hc]; rfl
  · refine ⟨fun h => ⟨exec_ecnCeReceived_absent h, exec_cnpReceived_absent h, exec_rateIncrease_absent h, exec_localAckTimeout_absent h,
      exec_roceAck_absent h⟩, fun x hx => ?_⟩
    intro becomes retry
    refine ⟨exec_ecnCeReceived_soon hx, exec_ecnCeReceived_sends hx, exec_cnpReceived_halves hx, exec_rateIncrease_not hx, exec_rateIncrease_grows hx,
      fun h => ⟨exec_localAckTimeout_idle hx (.inl h), exec_roceAck_closed hx h⟩, fun h psn => ?_, fun _ hu => exec_localAckTimeout_idle hx (.inr hu),
      exec_localAckTimeout_ready hx, exec_localAckTimeout_retry hx⟩
    exact ⟨⟨_, exec_roceAck_ack hx h psn, rfl, fun e => by simp⟩, exec_roceAck_rnr hx h psn, exec_roceAck_retry hx h psn,
      fun d hd => ⟨_, exec_roceAck_refused hx h psn hd⟩⟩
  · exact ⟨_, sessResend_eq s n x, by simp [resent]⟩
  · exact ⟨exec_ethLinkChange_same, fun h => ⟨_, _, Io.onlyEvents_rise _ (bEth_valid hp) 2 none,
      Io.bit_riseWith _ (bEth_valid hp) (by simp [bEth, bEvtq]) (by decide) _, exec_ethLinkChange_changes hp h,
      mem_linksAfter_self .., fun p hne => mem_linksAfter_ne _ _ hne⟩, exec_nonRoceFrame_counts hp⟩
  · exact ⟨fun h => exec_ptpMessage_ignored h .., fun h => exec_ptpMessage_sets h ..⟩
  · exact ⟨fun io => exec_snap_refused, fun h hsec hns htb => ⟨_, onlyRegs_snapIo .., exec_snap_captures h, snapIo_sec _ _ hsec,
      snapIo_ns _ _ hns, snapIo_time _ _ _ htb⟩⟩

end Sys2Proof.Machine
end

section
/-! PROOF. Completion records: written at the tail of their ring, held while it is full, or left out (R360, R363, R365, R424). -/

namespace Sys2Proof.Machine

/-! ### What writing records changes -/

/-- From `s` to `t` only registers and messages, the memories and the host side differ. -/
def RecordSide (s t : State) : Prop := t = { s with io := t.io, mem := t.mem, host := t.host }

theorem RecordSide.trans {s t u : State} (h : RecordSide s t) (k : RecordSide t u) : RecordSide s u := by
  unfold RecordSide
  rw [k, h]

theorem RecordSide.adm {s t : State} (h : RecordSide s t) : t.adm = s.adm := by rw [h]
theorem RecordSide.cores {s t : State} (h : RecordSide s t) : t.cores = s.cores := by rw [h]
theorem RecordSide.caller {s t : State} (h : RecordSide s t) (d : Nat) : t.caller d = s.caller d := by rw [h]; rfl

/-- A fired vector changes messages, pending bits and held requests only (R427, R428). -/
theorem fireVector_only (s : State) (v : Nat) : fireVector s v = { s with
      io := (fireVector s v).io
      host := { s.host with pba := (fireVector s v).host.pba, heldReq := (fireVector s v).host.heldReq } } := by
  unfold fireVector
  split
  · have h := msixNow_only s v
    generalize msixNow s v = t at h ⊢
    rw [h]
  · rfl

theorem recordSide_fireVector (s : State) (v : Nat) : RecordSide s (fireVector s v) := by
  unfold RecordSide
  rw [fireVector_only]

theorem recordSide_ringStore (s : State) (bar2 : Bool) (a : Nat) (bs : List Byte) : RecordSide s (ringStore s bar2 a bs) := by
  unfold ringStore hostWrite
  split
  · rfl
  · split <;> rfl

theorem recordSide_setRing (s : State) (k : Nat) (r : Ring) : RecordSide s (s.setRing k r) := rfl

theorem recordSide_signalRing (s : State) (k : Nat) : RecordSide s (signalRing s k) := by
  unfold signalRing
  split
  · rfl
  · dsimp only
    split
    · exact (recordSide_setRing ..).trans (recordSide_fireVector ..)
    · rfl

theorem recordSide_writeRecord (s : State) (k : Nat) (bs : List Byte) (sig : Bool) : RecordSide s (writeRecord s k bs sig) := by
  unfold writeRecord
  split
  · rfl
  · dsimp only
    split
    · exact ((recordSide_ringStore ..).trans (recordSide_setRing ..)).trans (recordSide_signalRing ..)
    · exact (recordSide_ringStore ..).trans (recordSide_setRing ..)

theorem recordSide_postRecord (s : State) (k : Nat) (bs : List Byte) (sig : Bool) : RecordSide s (postRecord s k bs sig) := by
  unfold postRecord
  split
  · rfl
  · split
    · exact recordSide_writeRecord ..
    · rfl

/-! ### The bytes of a record -/

theorem length_recordBytes (tag op : Nat) (se : Bool) (status ctx pos : Nat) (result : List Byte) (time info : Nat) :
    (recordBytes tag op se status ctx pos result time info).length = 64 := by
  simp only [recordBytes, padTo, List.length_append, leBytes_length, List.length_take, List.length_replicate]
  omega

theorem length_withPhase {bs : List Byte} (h : bs.length = 64) (ph : Bool) : (withPhase bs ph).length = 64 := by
  simp [withPhase, h]

/-- Bytes of the ring area read back where they were written. -/
theorem ringBytes_putRing_self (m : MemSt) (a : Nat) (bs : List Byte) : (m.putRing a bs).ringBytes a bs.length = bs := by
  refine List.ext_getElem (by simp [MemSt.ringBytes]) fun j _ hj => ?_
  simp only [MemSt.ringBytes, List.getElem_map, List.getElem_range, ringByte_putRing]
  rw [if_pos ⟨by omega, by omega⟩, Nat.add_sub_cancel_left, List.getD_eq_getElem _ _ hj]

/-! ### Its place -/

/-- A ring whose tail has passed a record (R424). -/
def Ring.recorded (r : Ring) : Ring :=
  let wrap := decide (r.cqTail + 1 = 2 ^ r.cqLog2)
  { r with cqTail := if wrap then 0 else r.cqTail + 1, phase := if wrap then !r.phase else r.phase }

section
variable {s : State} {k : Nat} {r : Ring} (hr : s.ring? k = some r)
include hr

/-- A signal changes no memory, and of its ring what it counts and whether it is armed (R428). -/
theorem signalRing_facts : (signalRing s k).mem = s.mem ∧
    ∃ q, (signalRing s k).ring? k = some q ∧ q = { r with armed := q.armed, pend := q.pend, pendAt := q.pendAt } := by
  have hset : ∀ q : Ring, ((s.setRing k q).ring? k) = some q := ring_setRing_self s k
  simp only [signalRing, hr]
  split
  · rw [fireVector_only]
    exact ⟨rfl, _, hset _, rfl⟩
  · exact ⟨rfl, _, hset _, rfl⟩

theorem postRecord_holds (h : r.held ≠ [] ∨ 2 ^ r.cqLog2 ≤ r.unconsumed + 1) (bs : List Byte) (sig : Bool) :
    postRecord s k bs sig = s.setRing k { r with held := r.held ++ [(bs, sig)] } := by
  have hfull : ¬ (r.held = [] ∧ r.unconsumed + 1 < 2 ^ r.cqLog2) := fun ⟨hh, hlt⟩ => h.elim (· hh) (not_le.mpr hlt)
  simp only [postRecord, hr, if_neg hfull]

theorem postRecord_writes (hh : r.held = []) (h : r.unconsumed + 1 < 2 ^ r.cqLog2) (bs : List Byte) (sig : Bool) :
    postRecord s k bs sig = writeRecord s k bs sig := by
  simp only [postRecord, hr, if_pos (And.intro hh h)]

/-- A record of a ring in the ring area: its bytes at the tail, and the ring past it. -/
theorem writeRecord_ringArea (hbar : r.cqBar2 = true) (bs : List Byte) (sig : Bool) :
    (writeRecord s k bs sig).mem = s.mem.putRing (r.cqBase + 64 * r.cqTail) (withPhase bs r.phase) ∧
    ∃ q, (writeRecord s k bs sig).ring? k = some q ∧ q = { r.recorded with armed := q.armed, pend := q.pend, pendAt := q.pendAt } := by
  let u : State := ({ s with mem := s.mem.putRing (r.cqBase + 64 * r.cqTail) (withPhase bs r.phase) } : State).setRing k r.recorded
  have hu : u.ring? k = some r.recorded := ring_setRing_self ..
  have hwrite : writeRecord s k bs sig = if sig || r.irqAll then signalRing u k else u := by
    have hstore : ringStore s r.cqBar2 (r.cqBase + 64 * r.cqTail) (withPhase bs r.phase) =
        { s with mem := s.mem.putRing (r.cqBase + 64 * r.cqTail) (withPhase bs r.phase) } := if_pos hbar
    simp only [writeRecord, hr, hstore]
    rfl
  rw [hwrite]
  split
  · exact signalRing_facts hu
  · exact ⟨rfl, _, hu, rfl⟩

/-- A record that has room on a ring of the ring area: its bytes stand at the tail and the ring is past it (R424). -/
theorem postRecord_ringArea (hh : r.held = []) (h : r.unconsumed + 1 < 2 ^ r.cqLog2) (hbar : r.cqBar2 = true) {bs : List Byte} (hlen : bs.length = 64)
    (sig : Bool) :
    (postRecord s k bs sig).mem.ringBytes (r.cqBase + 64 * r.cqTail) 64 = withPhase bs r.phase ∧
    (∀ a, a < r.cqBase + 64 * r.cqTail ∨ r.cqBase + 64 * r.cqTail + 64 ≤ a → (postRecord s k bs sig).mem.ringByte a = s.mem.ringByte a) ∧
    ∃ q, (postRecord s k bs sig).ring? k = some q ∧ q.cqTail = (if r.cqTail + 1 = 2 ^ r.cqLog2 then 0 else r.cqTail + 1) ∧
      q.phase = (if r.cqTail + 1 = 2 ^ r.cqLog2 then !r.phase else r.phase) ∧ q.held = [] ∧ q.sqHead = r.sqHead ∧ q.cqHead = r.cqHead := by
  have hrec := length_withPhase hlen r.phase
  obtain ⟨hmem, q, hq, hring⟩ := writeRecord_ringArea hr hbar bs sig
  rw [postRecord_writes hr hh h, hmem]
  refine ⟨?_, fun a ha => ?_, q, hq, ?_⟩
  · simpa only [hrec] using ringBytes_putRing_self s.mem (r.cqBase + 64 * r.cqTail) (withPhase bs r.phase)
  · rw [ringByte_putRing, hrec, if_neg (by omega)]
  · rw [hring]
    simp [Ring.recorded, hh]

end

/-! ### The end of a command -/

/-- A command is no longer in progress (R363). -/
def completed (s : State) (c : Cmd) : State := { s with adm := { s.adm with cmds := s.adm.cmds.filter (fun q => !(q.cmd == c)) } }

/-- The record of a command (Table 13.11). -/
def completionRecord (s : State) (c : Cmd) (status : Nat) (result : List Byte) (info : Nat) : List Byte :=
  recordBytes c.tag c.op false status ((slotOfRing s c.ring).getD c.ctx) c.pos result s.io.tb info

section
variable (s : State) {c : Cmd} {status : Nat} (result : List Byte) (info : Nat)

theorem finish_silent (h : c.silent = true) (hs : status = Code.OK) : finish s c status result info = completed s c :=
  if_pos ⟨h, hs⟩

theorem finish_posts (h : c.silent = false ∨ status ≠ Code.OK) :
    finish s c status result info = postRecord (completed s c) c.ring (completionRecord s c status result info) c.irq :=
  if_neg fun ⟨hs, hok⟩ => h.elim (fun hf => by simp [hs] at hf) (· hok)

theorem cmds_finish : (finish s c status result info).adm.cmds = s.adm.cmds.filter (fun q => !(q.cmd == c)) := by
  by_cases h : c.silent = true ∧ status = Code.OK
  · rw [finish_silent s result info h.1 h.2]
    rfl
  · rw [finish_posts s result info (by simpa [imp_iff_not_or] using h), (recordSide_postRecord ..).adm]
    rfl

end

end Sys2Proof.Machine
end

section
/-! PROOF. Commands of a ring: taken in order, checked, started after their FENCE (R363, R364, R423, Table 13.10). -/

namespace Sys2Proof.Machine

theorem exec_cmdNop (s : State) (c : Cmd) : exec (.cmdNop c) s = .next (finish s c Code.OK) := rfl

/-! ### FENCED_COMMAND_START -/

/-- The commands in progress that were taken before one. -/
def takenBefore (s : State) (k pos : Nat) : List CmdRun := s.adm.cmds.takeWhile (fun r => !(r.cmd.ring == k && r.cmd.pos == pos))

section
variable {s : State} {k pos : Nat}

theorem exec_fencedCommandStart_waits (h : ∃ r ∈ takenBefore s k pos, r.cmd.ring = k) : exec (.fencedCommandStart k pos) s = .next s :=
  if_pos (by simpa [takenBefore] using h)

theorem exec_fencedCommandStart_starts (h : ∀ r ∈ takenBefore s k pos, r.cmd.ring ≠ k) : exec (.fencedCommandStart k pos) s =
    .next { s with adm := { s.adm with
      cmds := s.adm.cmds.map (fun r => if r.cmd.ring = k ∧ r.cmd.pos = pos then { r with started := true } else r) } } :=
  if_neg (by simpa [takenBefore] using h)

end

/-! ### The checks of an envelope -/

section
variable {s : State} {bs : List Byte} {c : Cmd} (slot old : Option Nat)

theorem envelopeCheck_version (h : fieldAt bs 0 1 ≠ 1) : envelopeCheck s bs c slot old = some Code.BAD_VERSION := if_pos h

theorem envelopeCheck_opcode (h : fieldAt bs 0 1 = 1) (hop : paramSpans c.op = none) : envelopeCheck s bs c slot old = some Code.BAD_OPCODE := by
  rw [envelopeCheck, if_neg (not_not.mpr h), hop]

theorem envelopeCheck_noService (h : fieldAt bs 0 1 = 1) (hop : (paramSpans c.op).isSome = true) (hr : c.ring = 0)
    (ht : controlTakes c.op = false) : envelopeCheck s bs c slot old = some Code.NO_SERVICE := by
  obtain ⟨spans, hop⟩ := Option.isSome_iff_exists.mp hop
  rw [envelopeCheck, if_neg (not_not.mpr h), hop]
  exact if_pos ⟨hr, by simp [ht]⟩

theorem envelopeCheck_ctrlOnly (h : fieldAt bs 0 1 = 1) (hop : (paramSpans c.op).isSome = true) (hr : c.ring ≠ 0)
    (hlo : 0x20 ≤ c.op) (hhi : c.op ≤ 0x3F) : envelopeCheck s bs c slot old = some Code.CTRL_ONLY := by
  obtain ⟨spans, hop⟩ := Option.isSome_iff_exists.mp hop
  rw [envelopeCheck, if_neg (not_not.mpr h), hop]
  exact (if_neg fun hc => hr hc.1).trans (if_pos ⟨hr, hlo, hhi⟩)

end

/-! ### SUBMISSION_ENTRY_READ -/

theorem exec_submissionEntryRead_no_ring {s : State} {k : Nat} (h : s.ring? k = none) (how : ReadEnd) :
    exec (.submissionEntryRead k how) s = .next s := by
  show execSubmissionEntryRead k how s = _
  rw [execSubmissionEntryRead, h]

/-- The envelope at the head of a submission ring, the command that it spells, and what its checks answer (R361, R364). -/
def headBytes (s : State) (r : Ring) : List Byte := ringFetch s r.sqBar2 (r.sqBase + 64 * r.sqHead)
def headCmd (s : State) (k : Nat) (r : Ring) : Cmd := parseCmd (headBytes s r) k r.sqHead
def headBad (s : State) (k : Nat) (r : Ring) : Option Nat :=
  envelopeCheck s (headBytes s r) (headCmd s k r) (ringSlot s k) (r.oldId.map Prod.fst)

/-- The state in which an entry has been taken: the head is past it, and its context has done something. -/
def entryTaken (s : State) (k : Nat) (r : Ring) : State := if k = 0 then advanceHead s k r else touchCn (advanceHead s k r) (k - 1)

theorem cmds_entryTaken (s : State) (k : Nat) (r : Ring) : (entryTaken s k r).adm.cmds = s.adm.cmds := by
  unfold entryTaken
  split
  · rfl
  · rw [touchCn_only]
    rfl

theorem advanceHead_facts (s : State) (k : Nat) (r : Ring) :
    ∃ q, (advanceHead s k r).ring? k = some q ∧ q.sqHead = (r.sqHead + 1) % 2 ^ r.sqLog2 ∧
      advanceHead s k r = { s with host := (advanceHead s k r).host } := ⟨_, ring_setRing_self .., rfl, rfl⟩

/-- What lets the device take an entry (R50, R363, R423, R516). -/
theorem allowed_of_mayTake {s : State} {k : Nat} {r : Ring} (h : mayTake s k r = true) :
    negState s.io = 2 ∧ r.sqHead ≠ r.sqTail ∧ r.stopped = false ∧ s.rst.power = .d0 ∧ (s.adm.cmds.filter (fun q => q.cmd.ring == k)).length < 256 := by
  simp only [mayTake, Bool.and_eq_true, Bool.not_eq_true', bne_iff_ne, decide_eq_true_eq, beq_iff_eq] at h
  obtain ⟨⟨⟨⟨⟨⟨⟨⟨⟨-, -⟩, hstop⟩, hhead⟩, hneg⟩, -⟩, -⟩, hlen⟩, -⟩, hpow⟩ := h
  exact ⟨hneg, hhead, hstop, hpow, hlen⟩

/-- The registers once a ring's read has failed (R423). -/
def ringFaultIo (s : State) (k : Nat) (r : Ring) : Io :=
  s.io.riseNamed bCtxt 2 Cls.LINK Code.RING_FAULT (slotOfRing s k) r.sqHead (if k = 0 then 0 else k - 1)

theorem ringFaultIo_facts (s : State) (k : Nat) (r : Ring) : Io.OnlyEvents [bCtxt] s.io (ringFaultIo s k r) ∧
    bitOf ((ringFaultIo s k r).br bCtxt 0x010) 2 = true :=
  ⟨Io.onlyEvents_riseNamed _ bCtxt_valid .., Io.bit_riseWith _ bCtxt_valid (by decide) (by decide) _⟩

section
variable {s : State} {k : Nat} {r : Ring} (hr : s.ring? k = some r)
include hr

theorem exec_submissionEntryRead_not (h : mayTake s k r = false) (how : ReadEnd) : exec (.submissionEntryRead k how) s = .next s := by
  show execSubmissionEntryRead k how s = _
  simp [execSubmissionEntryRead, hr, h]

variable (ht : mayTake s k r = true)
include ht

theorem exec_submissionEntryRead_failed : exec (.submissionEntryRead k .failed) s =
    .next { s.setRing k { r with stopped := true } with io := ringFaultIo s k r } := by
  show execSubmissionEntryRead k .failed s = _
  simp only [execSubmissionEntryRead, hr, ht]
  rfl

theorem exec_submissionEntryRead_poisoned : exec (.submissionEntryRead k .poisoned) s =
    .next (postRecord { advanceHead s k r with io := s.io.count bPcie Off.pcie_EP_RX 1 } k
      (recordBytes 0 0 false Code.POISONED ((slotOfRing s k).getD 0) r.sqHead [] s.io.tb 0) false) := by
  rw [← Io.tb_count s.io bPcie Off.pcie_EP_RX 1]
  show execSubmissionEntryRead k .poisoned s = _
  simp only [execSubmissionEntryRead, hr, ht]
  rfl

theorem exec_submissionEntryRead_ok : exec (.submissionEntryRead k .ok) s = .next (takeSubmission s k r) := by
  show execSubmissionEntryRead k .ok s = _
  simp only [execSubmissionEntryRead, hr, ht]
  rfl

end

theorem takeSubmission_refused {s : State} {k : Nat} {r : Ring} {e : Nat} (h : headBad s k r = some e) :
    takeSubmission s k r = refuse (entryTaken s k r) (headCmd s k r) e := by
  unfold headBad headCmd headBytes at h
  simp only [takeSubmission, h]
  rfl

theorem takeSubmission_taken {s : State} {k : Nat} {r : Ring} (h : headBad s k r = none) :
    takeSubmission s k r = { entryTaken s k r with adm := { (entryTaken s k r).adm with
      cmds := s.adm.cmds ++ [{ cmd := headCmd s k r, started := !((headCmd s k r).fence && s.adm.cmds.any (fun q => q.cmd.ring == k)) }] } } := by
  rw [← cmds_entryTaken s k r]
  unfold headBad headCmd headBytes at h
  simp only [takeSubmission, h]
  rfl

end Sys2Proof.Machine
end

section
/-! PROOF. A command that puts a token, and a command that runs a chain (R337, R349, R351, R353, R363). -/

namespace Sys2Proof.Machine

/-! ### TOKEN_PUT -/

section
variable {s : State} {k : Token}

/-- What its checks answer to a token that is not admitted (R336). -/
theorem tokenCheck_answers {o : Offer} (h : tokenCheck s k = some o) : o = .refused ∨ o = .stale ∨ o = .badRoute := by
  revert h
  unfold tokenCheck
  dsimp only
  split
  · exact fun h => .inl (Option.some.inj h).symm
  · split
    · exact fun h => .inr (.inl (Option.some.inj h).symm)
    · split
      · split
        · exact fun h => .inl (Option.some.inj h).symm
        · split
          · exact fun h => .inr (.inr (Option.some.inj h).symm)
          · exact nofun
      · exact nofun

/-- An offer ends as the token is offered to its Caller. -/
theorem offerToken_answer (s : State) (k : Token) : (offerToken s k).2 = (offerBase s k).2 := by
  unfold offerToken
  dsimp only
  split <;> simp_all

theorem offerToken_dropped {o : Offer} (h : tokenCheck s k = some o) : (offerToken s k).2 = o := by
  rw [offerToken_answer, offerBase, h]
  obtain rfl | rfl | rfl := tokenCheck_answers h <;> rfl

theorem offerToken_taken (h : tokenCheck s k = none) : (offerToken s k).2 = .accepted ∨ (offerToken s k).2 = .held := by
  rw [offerToken_answer, offerBase, h]
  dsimp only
  split
  · exact .inr rfl
  · split <;> exact .inl rfl

/-- What a TOKEN_PUT leaves once its token has been offered (R363). -/
def putOffered (s : State) (k : Token) (c : Cmd) : State :=
  match offerToken s k with
  | (s, .accepted) => s
  | (s, .held) => s
  | (s, _) => finish s c Code.BAD_TEMPLATE

theorem putOffered_eq (s : State) (k : Token) (c : Cmd) :
    putOffered s k c = if (tokenCheck s k).isSome then finish (deliver s k) c Code.BAD_TEMPLATE else deliver s k := by
  unfold putOffered deliver
  cases hcheck : tokenCheck s k with
  | some o =>
    have hoff := offerToken_dropped hcheck
    generalize offerToken s k = r at hoff ⊢
    obtain ⟨t, o'⟩ := r
    subst hoff
    obtain rfl | rfl | rfl := tokenCheck_answers hcheck <;> rfl
  | none =>
    have hoff := offerToken_taken hcheck
    generalize offerToken s k = r at hoff ⊢
    obtain ⟨t, o'⟩ := r
    obtain rfl | rfl := hoff <;> rfl

end

/-- The token of a TOKEN_PUT (Table 13.9), with the release time and class that it takes. -/
def putOperand (s : State) (c : Cmd) (rel : Nat) (cls : Option Nat) : Token :=
  { die := c.p 0x10 2 / 32768, tmpl := c.p 0x10 2 % 16384, port := c.p 0x12 1, key := c.p 0x18 8, val := c.p 0x20 8, ctx := c.ring - 1,
    svc := c.issuerSvc s, rel := rel, src := .ring c.ring, cmd := some c, cls := cls }

theorem exec_tokenPut (s : State) (c : Cmd) :
    let r := putRelease s (c.ring - 1) (c.issuerSvc s) (c.p 0x10 2 / 32768) (c.p 0x10 2 % 16384)
    exec (.tokenPut c) s = .next (putOffered r.2.2 (putOperand s c r.1 r.2.1) c) := rfl

/-! ### FUSED_RUN -/

/-- The chain that a FUSED_RUN names among those of its service (R353). -/
def runChain (s : State) (c : Cmd) : Option Chain :=
  (s.service? (c.issuerSvc s)).bind (fun v => v.chains.find? (fun x => x.id == c.p 0x10 2))

/-- The operand slots of a service on a die (R339). -/
def slotQuota (s : State) (die svc : Nat) : Nat := ((s.service? svc).map (fun v => if die = 0 then v.quota0 else v.quota1)).getD 131072

/-- The operands of one task do not all find slots (R339). -/
@[reducible] def SlotsShort (s : State) (die svc nin : Nat) : Prop :=
  131072 < (slotHolders s die).length + nin ∨ slotQuota s die svc < ((slotHolders s die).filter (fun v => v == svc)).length + nin

/-- An operand of a FUSED_RUN without a job class (Table 13.9). -/
def runOperand (s : State) (c : Cmd) (die n i : Nat) : Token :=
  { die := die, tmpl := n, port := i, key := c.p 0x18 8, val := c.p (0x20 + 8 * i) 8, ctx := c.ring - 1, svc := c.issuerSvc s, rel := s.io.tb,
    src := .ring c.ring, cmd := some c }

def runOperands (s : State) (c : Cmd) (die n : Nat) : List (Option Token) :=
  ((List.range (tmplOf s die n).nin).map (runOperand s c die n)).map some

/-- The operands are counted and made one task (R341, R353). -/
def runCounted (s : State) (die n : Nat) : State := s.mapIo (fun io => io.count64 (bCaller die) Off.caller_TOKENS_LO (tmplOf s die n).nin)
def runMade (s : State) (c : Cmd) (die n : Nat) : Task × State := makeTask (runCounted s die n) die n (runOperands s c die n)

theorem exec_fusedRun_noChain {s : State} {c : Cmd} (h : runChain s c = none) : exec (.fusedRun c) s = .next (refuse s c Code.BAD_CHAIN) := by
  unfold runChain at h
  show Host.Outcome.next (fusedRun s c) = _
  rw [fusedRun, h]

/-- A chain that is found runs on its first template: its slots are tested, then its flow, then its operands make one task (R339, R348, R353). -/
theorem fusedRun_found {s : State} {c : Cmd} {x : Chain} {die n : Nat} (hx : runChain s c = some x) (hdie : (x.stage 0).tmpl / 32768 = die)
    (hn : (x.stage 0).tmpl % 16384 = n) :
    (SlotsShort s die (c.issuerSvc s) (tmplOf s die n).nin → fusedRun s c = s.mapIo (fun io => io.rise (bCaller die) 3)) ∧
    (¬ SlotsShort s die (c.issuerSvc s) (tmplOf s die n).nin →
      (windowFull s die (flowOf (tmplOf s die n) none) = true → fusedRun s c = s) ∧
      (windowFull s die (flowOf (tmplOf s die n) none) = false → classOfPut s (c.issuerSvc s) die n = none →
        fusedRun s c = touchCn (queueTask (runMade s c die n).2 (runMade s c die n).1) (c.ring - 1))) := by
  obtain ⟨v, hv, hfind⟩ := Option.bind_eq_some_iff.mp hx
  have hquota : slotQuota s die (c.issuerSvc s) = if die = 0 then v.quota0 else v.quota1 := by rw [slotQuota, hv]; rfl
  subst hdie hn
  simp only [fusedRun, hv, Option.bind_some, hfind, SlotsShort, hquota]
  refine ⟨fun hshort => if_pos hshort, fun hslots => ⟨fun hfull => (if_neg hslots).trans (if_pos hfull), fun hroom hcls => ?_⟩⟩
  refine (if_neg hslots).trans ((if_neg (by rw [hroom]; exact Bool.false_ne_true)).trans ?_)
  simp only [putRelease, hcls]
  rfl

/-! ### The fused run that a first task starts -/

theorem adm_takePos (s : State) (die : Nat) (f : Option Nat) (cn task : Nat) (inst : Option Nat) (arrs : List (Nat × Nat × Nat)) :
    (takePos s die f cn task inst arrs).2.adm = s.adm := by
  unfold takePos
  split
  · rfl
  · dsimp only
    split <;> rfl

/-- A task of a chain's first stage whose operands belong to no fused run starts one, for the FUSED_RUN that its operands name (R353). -/
theorem makeTask_starts {s : State} {die n : Nat} {ops : List (Option Token)} (hnew : (ops.filterMap id).findSome? (fun k => k.inst) = none)
    (hchain : (tmplOf s die n).chain ≠ 0xFFFF) (hstage : (tmplOf s die n).stage = 0) : ∃ y : FusedInst,
      (makeTask s die n ops).1.inst = some (y.id, 0, 0) ∧ (makeTask s die n ops).2.adm.insts = s.adm.insts ++ [y] ∧
      y.cmd = (ops.filterMap id).findSome? (fun k => k.cmd.bind (fun c => if c.op = 0x10 then some c else none)) ∧
      y.chain = (tmplOf s die n).chain ∧ y.ctx = (((ops.head?.join).or (ops.filterMap id).head?).map (fun k => k.ctx)).getD 0 ∧ y.failed = none := by
  simp only [makeTask, hnew, hchain, hstage, ne_eq, not_false_eq_true, decide_true, Option.isNone_none, Bool.and_true, if_true, adm_takePos]
  exact ⟨_, rfl, rfl, rfl, rfl, rfl, rfl⟩

theorem adm_queueTask (s : State) (t : Task) : (queueTask s t).adm = s.adm := by
  rw [queueTask_eq, noteDepth_only]
  rfl

/-- The level of a task that its template gives is one of eight. -/
theorem onlyEvents_queueTask_tmpl {s : State} {d : Nat} {t : Task} (ht : t.die = d) (hd : d < 2) (hp : t.pri = none) :
    Io.OnlyEvents [bCaller d] s.io (queueTask s t).io := by
  subst ht
  refine (onlyRegs_noteDepth (readied s t) t.die _ hd ?_).events
  rw [taskPri, hp]
  exact Nat.mod_lt _ (by decide)

section
variable {s : State} {c : Cmd} {die n : Nat} (hd : die < 2)
include hd

theorem runCounted_makes : Makes die s (runCounted s die n) :=
  .mapIo (Io.onlyRegs_count64 _ (bCaller_valid hd) (by rw [caller_page]; decide) _).events

/-- What a FUSED_RUN that finds its slots queues: one task of its operands, which starts its fused run. -/
theorem run_queues (hop : c.op = 0x10) (hnin : 1 ≤ (tmplOf s die n).nin) (hchain : (tmplOf s die n).chain ≠ 0xFFFF) (hstage : (tmplOf s die n).stage = 0) :
    let u := touchCn (queueTask (runMade s c die n).2 (runMade s c die n).1) (c.ring - 1)
    ∃ task y, u = { s with io := u.io, call := u.call, adm := u.adm } ∧ Io.OnlyEvents [bCaller die] s.io u.io ∧
      (u.caller die).ready = (s.caller die).ready ++ [task] ∧ task.tmpl = n ∧ task.inst = some (y.id, 0, 0) ∧
      task.opnds = (List.range (tmplOf s die n).nin).map (fun i => some (c.p 0x18 8, c.p (0x20 + 8 * i) 8)) ∧
      u.adm.insts = s.adm.insts ++ [y] ∧ y.cmd = some c ∧ y.chain = (tmplOf s die n).chain ∧ y.ctx = c.ring - 1 ∧ y.failed = none := by
  obtain ⟨m, hm⟩ : ∃ m, (tmplOf s die n).nin = m + 1 := ⟨_, (Nat.sub_add_cancel hnin).symm⟩
  have hmade : Makes die s (runMade s c die n).2 := (runCounted_makes hd).trans (makeTask_makes hd _ n _)
  have hqueued : Queues die (runMade s c die n).2 [(runMade s c die n).1] (queueTask (runMade s c die n).2 (runMade s c die n).1) := queueTask_queues _ rfl
  have hall : (runOperands s c die n).filterMap id = (List.range (tmplOf s die n).nin).map (runOperand s c die n) := by
    simp [runOperands, List.filterMap_map]
  have hnew : ((runOperands s c die n).filterMap id).findSome? (fun k => k.inst) = none := by
    rw [hall, List.findSome?_eq_none_iff]
    exact List.forall_mem_map.mpr fun _ _ => rfl
  obtain ⟨y, hinst, hinsts, hcmd, hchain', hctx, hfailed⟩ := makeTask_starts (s := runCounted s die n) hnew hchain hstage
  refine ⟨(runMade s c die n).1, y, ?_, ?_, ?_, rfl, hinst, ?_, ?_, ?_, hchain', ?_, hfailed⟩
  · rw [touchCn_only, hqueued.frame, hmade.frame]
  · rw [touchCn_only]
    exact hmade.events.trans (onlyEvents_queueTask_tmpl rfl hd rfl)
  · rw [caller_touchCn, hqueued.ready, hmade.ready]
  · simp [runMade, makeTask, runOperands, runOperand, Function.comp_def]
  · rw [touchCn_only, ← show _ = s.adm.insts ++ [y] from hinsts, adm_queueTask]
    rfl
  · rw [hcmd, hall, hm, List.range_succ_eq_map]
    simp [runOperand, hop]
  · rw [hctx, hall, hm, runOperands, hm, List.range_succ_eq_map]
    simp [runOperand]

end

end Sys2Proof.Machine
end

section
/-! PROOF. CANCEL stops what its scope names and completes once no core that it waits for fences (R357 to R359). -/

namespace Sys2Proof.Machine

/-! ### What a scope stops -/

/-- What a CANCEL stops, and how many, by its scope. -/
def cancelScope (s : State) (c : Cmd) : State × Nat :=
  if c.p 0x10 1 = 0 then cancelTasks s (fun t => t.id == c.p 0x14 4 && c.ring == t.ctx + 1)
  else if c.p 0x10 1 = 1 then stopCmds s (fun r => r.cmd.ring == c.ring && r.cmd.tag == c.p 0x18 8 && r.cmd != c)
  else if c.ring = 0 then stopCmds s (fun r => r.cmd.ring == 0 && r.cmd != c)
  else cancelContext s (c.ring - 1) (some c)

theorem cancelScope_eq {s : State} {c : Cmd} {r : State × Nat}
    (htask : c.p 0x10 1 = 0 → cancelTasks s (fun t => t.id == c.p 0x14 4 && c.ring == t.ctx + 1) = r)
    (htag : c.p 0x10 1 = 1 → stopCmds s (fun r => r.cmd.ring == c.ring && r.cmd.tag == c.p 0x18 8 && r.cmd != c) = r)
    (hctx : c.p 0x10 1 = 2 → c.ring ≠ 0 ∧ cancelContext s (c.ring - 1) (some c) = r) (h : c.p 0x10 1 ≤ 2) : cancelScope s c = r := by
  unfold cancelScope
  split
  · next h0 => exact htask h0
  · split
    · next _ h1 => exact htag h1
    · have h2 : c.p 0x10 1 = 2 := by omega
      rw [if_neg (hctx h2).1]
      exact (hctx h2).2

section
variable {s : State} {p : Task → Bool} {t : Task}

theorem cancelTasks_none (h : liveTasks s p = []) : cancelTasks s p = (s, 0) := by
  rw [cancelTasks, h, List.foldl_nil]

theorem cancelTasks_one {core : Option Nat} (h : liveTasks s p = [(t, core)]) : cancelTasks s p = cancelTask s t core := by
  simp [cancelTasks, h]

theorem cancelTask_waiting (h : t.inst = none) (hf : s.expert.fired.any (fun f => f.task.id == t.id) = false) : cancelTask s t none =
    (dropTask s t ((((s.caller t.die).next.find? (fun e => e.2.id == t.id)).map Prod.fst).getD 0) Code.CANCELLED, 1) := by
  simp [cancelTask, h, hf]

theorem cancelTask_running (h : t.inst = none) (n : Nat) : cancelTask s t (some n) = (abortTask s n Code.CANCELLED 0, 1) := by
  rw [cancelTask, h]

end

/-! ### Its completion -/

/-- The cores that fence. -/
def fencingCores (s : State) : List Nat := (s.cores.filter (fun e => e.2.fence)).map Prod.fst

/-- A CANCEL that waits for cores to stop fencing. -/
def cancelWaits (s : State) (r : CancelRun) : State := { s with adm := { s.adm with cancels := [r] } }

section
variable {s : State} {r : CancelRun}

theorem finishCancels_waits (h : ∃ m ∈ r.cores, (s.core m).fence = true) : finishCancels (cancelWaits s r) = cancelWaits s r := by
  simp only [finishCancels, cancelWaits, List.foldl_cons, List.foldl_nil]
  exact if_pos (List.any_eq_true.mpr h)

theorem finishCancels_ends (h : r.cores = []) (hnone : s.adm.cancels = []) (hop : r.cmd.op ≠ 0x24) :
    finishCancels (cancelWaits s r) = finish (releaseAll (housekeep s)) r.cmd Code.OK (leBytes 4 r.stopped) := by
  have hback : { cancelWaits s r with adm := { (cancelWaits s r).adm with cancels := [] } } = s := by
    rw [← hnone]
    rfl
  have hfilter : [r].filter (fun q => !(q.cmd == r.cmd)) = [] := by simp
  rw [finishCancels, show (cancelWaits s r).adm.cancels = [r] from rfl, List.foldl_cons, List.foldl_nil, h]
  simp only [List.any_nil, Bool.false_eq_true, if_false, if_neg hop, show (cancelWaits s r).adm.cancels = [r] from rfl, hfilter, hback]

end

section
variable {s : State} {c : Cmd}

theorem exec_cancelCmd_badScope (h : 2 < c.p 0x10 1) : exec (.cancelCmd c) s = .next (refuse s c Code.BAD_CANCEL) :=
  congrArg Host.Outcome.next (if_pos h)

theorem exec_cancelCmd_stops {v : State} {n : Nat} (h : c.p 0x10 1 ≤ 2) (hv : cancelScope s c = (v, n)) (hnone : (housekeep v).adm.cancels = []) :
    exec (.cancelCmd c) s = .next (finishCancels (cancelWaits (housekeep v) ⟨c, n, fencingCores (housekeep v)⟩)) := by
  have hrun : cancelRun s c = finishCancels { housekeep (cancelScope s c).1 with adm := { (housekeep (cancelScope s c).1).adm with
      cancels := (housekeep (cancelScope s c).1).adm.cancels ++ [⟨c, (cancelScope s c).2, fencingCores (housekeep (cancelScope s c).1)⟩] } } :=
    if_neg (not_lt.mpr h)
  show Host.Outcome.next (cancelRun s c) = _
  rw [hrun, hv, hnone]
  rfl

end

end Sys2Proof.Machine
end

section
/-! PROOF. A flow releases ended positions, oldest first (R348, R349). -/

namespace Sys2Proof.Machine

/-- A flow of a Caller. -/
def flowAt (s : State) (die f : Nat) : Flow := smGet {} f (s.caller die).flows

section
variable {s v : State} {die f : Nat}

theorem releaseFlow_none (h : releaseOne s die f = none) (k : Nat) : releaseFlow s die f k = s := by
  cases k with
  | zero => rfl
  | succ k => rw [releaseFlow, h]

theorem releaseFlow_some (h : releaseOne s die f = some v) (hless : (flowAt v die f).window.length < (flowAt s die f).window.length) (k : Nat) :
    releaseFlow s die f (k + 1) = releaseFlow v die f k := by
  rw [releaseFlow, h]
  exact if_pos hless

theorem exec_flowRelease (s : State) (die f : Nat) :
    exec (.flowRelease die f) s = .next (housekeep (releaseFlow (housekeep s) die f 1025)) := rfl

/-- Only a position that has ended is released, and only the oldest. -/
theorem releaseOne_ended (h : releaseOne s die f = some v) : ∃ w rest, (flowAt s die f).window = w :: rest ∧ w.ended = true := by
  unfold releaseOne at h
  change (match (flowAt s die f).window with | [] => none | w :: _ => _) = _ at h
  split at h
  · exact absurd h nofun
  · next w rest hw =>
    refine ⟨w, rest, hw, ?_⟩
    cases he : w.ended with
    | true => rfl
    | false => simp [he] at h

/-! ### A position that holds records only -/

/-- A flow of a Caller changes. -/
def onFlow (s : State) (die f : Nat) (g : Flow → Flow) : State :=
  s.mapCaller die (fun cl => { cl with flows := smPut {} f (g (smGet {} f cl.flows)) cl.flows })

theorem flowAt_onFlow (s : State) (die f : Nat) (g : Flow → Flow) : flowAt (onFlow s die f g) die f = g (flowAt s die f) := by
  rw [flowAt, onFlow, caller_mapCaller_self, smGet_smPut_self]
  rfl

/-- A flow whose oldest position takes a value, and one whose oldest position is released. -/
def Flow.fronted (w : FlowPos) (fl : Flow) : Flow := { fl with window := w :: fl.window.drop 1 }
def Flow.popped (pos : Nat) (fl : Flow) : Flow := { fl with rel := (pos + 1) % 2 ^ 32, window := fl.window.drop 1 }

/-- The records of a position are written. -/
def recordsPosted (s : State) (w : FlowPos) : State := w.records.foldl (fun s r => postRecord s r.1 r.2.1 r.2.2) s

theorem recordSide_recordsPosted (s : State) (w : FlowPos) : RecordSide s (recordsPosted s w) := by
  unfold recordsPosted
  induction w.records generalizing s with
  | nil => rfl
  | cons r l ih => exact (recordSide_postRecord ..).trans (ih _)

/-- The state in which the oldest position of a flow, which holds records only, has been released. -/
def posted (s : State) (die f : Nat) (w : FlowPos) : State :=
  passRecords (recordsPosted (onFlow (onFlow s die f (.fronted w)) die f (.fronted w)) w) w.ctx []
def released (s : State) (die f : Nat) (w : FlowPos) : State :=
  (onFlow (posted s die f w) die f (.popped w.pos)).mapIo (fun io => io.count64 (bCaller die) Off.caller_RELEASED_LO 1)

theorem recordSide_posted (s : State) (die f : Nat) (w : FlowPos) :
    RecordSide (onFlow (onFlow s die f (.fronted w)) die f (.fronted w)) (posted s die f w) :=
  (recordSide_recordsPosted ..).trans rfl

theorem flowAt_released (s : State) (die f : Nat) {w : FlowPos} : flowAt (released s die f w) die f =
    { flowAt s die f with rel := (w.pos + 1) % 2 ^ 32, window := (flowAt s die f).window.drop 1 } := by
  have hposted : flowAt (posted s die f w) die f = ((flowAt s die f).fronted w).fronted w := by
    rw [flowAt, (recordSide_posted ..).caller, ← flowAt, flowAt_onFlow, flowAt_onFlow]
  refine (flowAt_onFlow (posted s die f w) die f (.popped w.pos)).trans ?_
  rw [hposted]
  rfl

theorem released_keeps (s : State) (die f : Nat) (w : FlowPos) : (released s die f w).cores = s.cores ∧ (released s die f w).adm = s.adm :=
  ⟨(recordSide_posted ..).cores, (recordSide_posted ..).adm⟩

theorem releaseOne_records {w : FlowPos} {rest : List FlowPos} (hw : (flowAt s die f).window = w :: rest) (hend : w.ended = true)
    (htok : w.tokens = []) (hemit : w.emits = []) (hinst : w.inst = none) (harr : w.arrs = []) :
    releaseOne s die f = some (retryFlow (released s die f w) die) := by
  obtain ⟨pos, ctx, task, ended, outcome, tokens, emits, records, arrs, at_, inst⟩ := w
  dsimp only at hend htok hemit hinst harr
  subst hend htok hemit hinst harr
  rw [flowAt] at hw
  rw [releaseOne, hw]
  rfl

end

end Sys2Proof.Machine
end

section
/-! PROOF. O40: the entries of a ring, their commands and their records. -/

namespace Sys2Proof.Machine

/-- Settles O40: the rules of records, ring entries, tokens, chains, cancels and flows above, clause by clause. -/
theorem commandsAreTakenInOrderAndCompleteOnce : Obligations.CommandsAreTakenInOrderAndCompleteOnce := by
  unfold Obligations.CommandsAreTakenInOrderAndCompleteOnce
  refine ⟨fun s c status info result r hr => ⟨cmds_finish s result info, ?silent, fun hsig => ⟨?held, ?written⟩⟩, exec_cmdNop,
    fun s k pos => ⟨exec_fencedCommandStart_waits, exec_fencedCommandStart_starts⟩, fun s k how h => exec_submissionEntryRead_no_ring h how,
    fun s k how r hr => ⟨fun h => exec_submissionEntryRead_not hr h how, fun ht => ?entry,
      envelopeCheck_version _ _, envelopeCheck_opcode _ _, envelopeCheck_noService _ _, envelopeCheck_ctrlOnly _ _⟩,
    fun s c => ?put, fun s c => ⟨exec_fusedRun_noChain, fun x hx => ?run⟩,
    fun s c => ⟨exec_cancelCmd_badScope, ?cancel, fun p => ⟨cancelTasks_none, ?waiting, ?running⟩⟩,
    fun s die f => ⟨?idle, ?next, fun v => releaseOne_ended, ?release⟩⟩
  case silent =>
    intro hs hok
    rw [finish_silent s result info hs hok]
    exact ⟨rfl, rfl⟩
  case held =>
    intro hheld
    have hr' : (completed s c).ring? c.ring = some r := hr
    rw [finish_posts s result info hsig, postRecord_holds hr' hheld]
    exact ⟨rfl, ring_setRing_self ..⟩
  case written =>
    intro hheld hroom hbar
    have hr' : (completed s c).ring? c.ring = some r := hr
    rw [finish_posts s result info hsig]
    exact postRecord_ringArea hr' hheld hroom hbar (length_recordBytes ..) _
  case entry =>
    obtain ⟨hneg, hentry, hrun, hpow, hlen⟩ := allowed_of_mayTake ht
    refine ⟨hneg, hentry, hrun, hpow, hlen, advanceHead_facts s k r, ?_, ?_, ?_⟩
    · rintro rfl
      obtain ⟨hevents, hbit⟩ := ringFaultIo_facts s k r
      exact ⟨_, hevents, hbit, exec_submissionEntryRead_failed hr ht⟩
    · rintro rfl
      exact ⟨_, Io.onlyRegs_count _ bPcie_valid (by decide) _, exec_submissionEntryRead_poisoned hr ht⟩
    · rintro rfl
      rw [exec_submissionEntryRead_ok hr ht]
      exact ⟨fun e he => congrArg _ (takeSubmission_refused he), fun he => congrArg _ (takeSubmission_taken he)⟩
  case put =>
    intro w r k v hv
    obtain rfl : deliver r.2.2 k = v := Host.Outcome.next.inj hv
    rw [← putOffered_eq]
    exact exec_tokenPut s c
  case run =>
    intro die n t used quota short hd hop
    obtain ⟨hshort, hslots⟩ := fusedRun_found (die := die) (n := n) hx rfl rfl
    refine ⟨fun h => ⟨_, Io.onlyEvents_rise _ (bCaller_valid hd) _ _, ?_, congrArg Host.Outcome.next (hshort h)⟩, fun h => ?_, fun h => ?_⟩
    · exact Io.bit_riseWith _ (bCaller_valid hd) nofun (by decide) _
    · obtain ⟨hfull, -⟩ := hslots h
      exact fun hwindow => congrArg Host.Outcome.next (hfull hwindow)
    · obtain ⟨-, hruns⟩ := hslots h
      intro hroom hcls _ hnin hchain hstage
      obtain ⟨task, y, hqueued⟩ := run_queues (s := s) (c := c) hd hop hnin hchain hstage
      exact ⟨_, task, y, congrArg Host.Outcome.next (hruns hroom hcls), hqueued⟩
  case cancel =>
    intro v n htask htag hctx hscope h fencing hnone
    rw [exec_cancelCmd_stops hscope (cancelScope_eq htask htag hctx hscope) hnone]
    refine ⟨fun hwaits => congrArg _ (finishCancels_waits hwaits), fun hfree hop => congrArg _ (finishCancels_ends hfree hnone ?_)⟩
    rw [hop]
    decide
  case waiting => exact fun t ht hi hf => (cancelTasks_one ht).trans (cancelTask_waiting hi hf)
  case running => exact fun t n ht hi => (cancelTasks_one ht).trans (cancelTask_running hi n)
  case idle =>
    intro hnone
    rw [exec_flowRelease, releaseFlow_none hnone]
  case next =>
    intro v hv hless
    rw [exec_flowRelease, releaseFlow_some hv hless]
  case release =>
    intro w rest hw hend htok hemit hinst harr
    refine ⟨released s die f w, releaseOne_records hw hend htok hemit hinst harr, (flowAt_released s die f).trans ?_, released_keeps s die f w⟩
    rw [show (flowAt s die f).window = w :: rest from hw]
    rfl

end Sys2Proof.Machine
end
